-- ==== Sys2Proof/Word.lean ====
section
/-!
DEFINITION. Sys2Proof/Word.lean: the word types of the SH-384 model. Every register and every word of a
sample, command or packet is 64 bits (R2); a Koloux instruction is 32 bits (R184); memories are bytes.
-/
namespace Sys2Proof

/-- A register, sample or packet word (R2). -/
abbrev W64 := BitVec 64

/-- A Koloux instruction word (R184). -/
abbrev W32 := BitVec 32

/-- One byte of a memory. -/
abbrev Byte := BitVec 8

/-- The value of a word read as a two's complement number. -/
abbrev W64.int (w : W64) : Int := w.toInt

/-- The 64-bit word that holds a number, wrapped. -/
abbrev W64.ofInt (i : Int) : W64 := BitVec.ofInt 64 i

/-- The 64-bit word that holds a natural number, wrapped. -/
abbrev W64.ofNat (n : Nat) : W64 := BitVec.ofNat 64 n

end Sys2Proof
end

