-- ==== Sys2Proof/Syntax.lean ====
section
/-!
DEFINITION. Sys2Proof/Syntax.lean: the commands of the hub. Instr has one constructor per row of
spec/opcode_table.json. A command is an instruction of a Koloux engine, a frame or transaction of a host, a
register write with an effect, or an event of the hub's own hardware; what the hub takes from outside at that
moment (a code, a stamp, a measured energy, a frame) is an operand.
-/
namespace Sys2Proof

/-- A command port: 0 to 3 are the lanes L0 to L3, 4 is the management serial port (R347). -/
abbrev Port := Fin 5
/-- A Koloux word register w0 to w31 (R181). -/
abbrev WReg := Fin 32
/-- A Koloux predicate p0 to p7 (R181). -/
abbrev PReg := Fin 8
/-- A Koloux accumulator a0 to a3 (R181). -/
abbrev AReg := Fin 4

/-- The guard of a Koloux instruction: predicate `pg`, negated when `pn` (R185). -/
structure Guard where
  pg : Fin 8
  pn : Bool
  deriving DecidableEq, Repr

/-- The straps sampled at t = 0 (R42). -/
structure Straps where
  auth     : BitVec 4
  pairRole : Bool
  spMode   : BitVec 2
  deriving DecidableEq, Repr

/-- The instructions of the boundary-scan port. -/
inductive TapOp where
  | bypass | idcode | samplePreload | extest | clamp | highz
  deriving DecidableEq, Repr

/-- The lead of a bridge on which a wire break is restored (R86). -/
inductive Lead where
  | exc | sense
  deriving DecidableEq, Repr

/-- Which comparator of a fast channel crossed (R209). -/
inductive Comparator where
  | a | b
  deriving DecidableEq, Repr

/-- What FETCH reads of a sample word (R201). -/
inductive WordKind where
  | value | max | min | rms | env
  deriving DecidableEq, Repr

/-- The header of a Neilpol command as the port takes it: its tag, the source that sent it and whether the
sender asks to be the notice subscriber. -/
structure CmdHdr where
  tag : BitVec 16
  src : BitVec 48
  sub : Bool
  deriving DecidableEq, Repr

/-- What faults an engine at once (R176). -/
inductive EngFaultCause where
  | imemEcc | lmemEcc | parity
  deriving DecidableEq, Repr

/-- A received PTP event or general message: what the port stamps and what the message carries. -/
structure PtpMsg where
  domain    : BitVec 8
  seq       : BitVec 16
  srcId     : W64
  srcPort   : BitVec 16
  twoStep   : Bool
  corr      : Int
  ts        : Int
  rx        : Int
  reqId     : W64
  tr        : BitVec 2 := 0
  deriving DecidableEq, Repr

/-- A received Announce message with its data set. -/
structure AnnounceMsg where
  domain    : BitVec 8
  srcId     : W64
  srcPort   : BitVec 16
  gmId      : W64
  priority1 : BitVec 8
  clsAccVar : BitVec 32
  priority2 : BitVec 8
  steps     : BitVec 16
  utcOff    : BitVec 16
  own       : Bool
  tr        : BitVec 2 := 0
  deriving DecidableEq, Repr

/-- The cause of a loss of link, LANE_STAT.LASTLOSS (R282). -/
abbrev LossCause := Fin 8

/-- What the switch reads of a PTP message it forwards: message type, domain, sequence, source port, the two-step flag,
how its checksum stands: 0 none to keep (Layer 2, or IPv4 with checksum 0), 1 IPv4 with a checksum, 2 IPv6 with the two
trailing octets, 3 IPv6 without them, and its encapsulation as TB_CFG.TRANSPORT numbers it (R261, R299, R300). -/
structure PtpTag where
  kind    : BitVec 4
  domain  : BitVec 8
  seq     : BitVec 16
  srcId   : W64
  srcPort : BitVec 16
  twoStep : Bool
  csum    : Fin 4
  tr      : BitVec 2 := 0
  deriving DecidableEq, Repr

/-- An Ethernet frame as a lane delivers it: addresses, EtherType, VLAN tag and priority, the UDP destination port of an IP
datagram, the payload as 64-bit words, the length in octets, the FCS. -/
structure Frame where
  dst    : BitVec 48
  src    : BitVec 48
  etype  : BitVec 16
  vid    : Option (BitVec 12)
  pcp    : BitVec 3
  udp    : Option (BitVec 16)
  ptp    : Option PtpTag
  words  : List W64
  octets : Nat
  fcsOk  : Bool
  deriving DecidableEq, Repr

/-- The condition of a bank fault (R436). -/
inductive BankFaultCause where
  | conv | pipe | dds | supv | escalated
  deriving DecidableEq, Repr

/-- The part of the DRAM that an uncorrectable error strikes, or shared SRAM, for which no row of its own tells an error (R21, R196; log
entry 88). -/
inductive DramPart where
  | bulk | capture | ledger | queue | reserved | sram
  deriving DecidableEq, Repr


/-- The commands of the hub, one constructor per row of spec/opcode_table.json. -/
inductive Instr where
  /-- START_UP (R42): PWR_OK and RESET_N both high begin start-up at t = 0; straps are sampled and the on-die ROM starts. -/
  | startUp (straps : Straps) (railsOk : Bool)
  /-- ROOT_PLL_LOCK (R43): The root PLL locks to the crystal and the management serial port begins to answer. -/
  | rootPllLock
  /-- LOADER_DECISION (R427): At 5 ms the resident loader chooses whether to resume a copy, start up from the running image, copy from staging, or enter Bivouac. -/
  | loaderDecision
  /-- CONFIG_LOAD (R53): At start-up the hub chooses a configuration store, checks its sections, applies the base records and computes the digest. -/
  | configLoad
  /-- DRAM_TRAINING (R43): DRAM training and partitioning completes and the ledger index is checked. -/
  | dramTraining
  /-- PROGRAM_LOAD (R43): Program images are loaded into the engines with section CRCs checked; the hub enters Basecamp and host service runs. -/
  | programLoad
  /-- TSET_WAIT_EXPIRY (R48): When TSET_WAIT runs out with the sampling time base unset, the hub sets it from the time mark and raises TIME_START_MARK. -/
  | tsetWaitExpiry
  /-- RESET (R466): A fall of PWR_OK or RESET_N resets the hub, sending RELEASE first if it is acting Leader and removing excitation within 1 slot. -/
  | reset
  /-- SUPPLY_MONITOR_FAULT (R466): A rail that stays out of range for more than 16 slots raises a hub-level fault. -/
  | supplyMonitorFault (rail : Fin 10)
  /-- ROOT_PLL_UNLOCK (R438): Loss of lock of the root PLL escalates to hub level. -/
  | rootPllUnlock
  /-- SERVICE_WATCHDOG (R438): The service-firmware watchdog expires after 1 s without service and escalates to hub level. -/
  | serviceWatchdog
  /-- TAP_INSTRUCTION_LOAD (R480): Loading EXTEST, CLAMP or HIGHZ into the test access port first forces Descent when acquiring, then acts on the pins once excitation is removed. -/
  | tapInstructionLoad (op : TapOp)
  /-- SLOT_BOUNDARY (R19): At each slot edge the slot sequencer places the edge on the sampling time base, and RWS writes and pending slot-named changes take effect. -/
  | slotBoundary
  /-- TIME_BASE_TICK (R248): At every root tick each time base adds INC and carries nanoseconds into seconds. -/
  | timeBaseTick
  /-- RESCUE_ARBITRATION (R105): At tick 200 clip states reach the arbiter, which applies the guard, assigns free opportunities to rescues and chooses the spare path's path. -/
  | rescueArbitration (b : Fin 24) (clip warn : BitVec 17)
  /-- CONVERSION_CYCLE (R97): In each of five cycles per slot every slice connects a held value and converts it to an 18-bit code. -/
  | conversionCycle (b : Fin 24) (cycle : Fin 5) (c0 c1 c2 c3 : BitVec 18)
  /-- RAW_VALUE_TO_PIPELINE (R109): The corrected raw values of a slot enter the bank filter pipeline on one scale with their raw flags. -/
  | rawValueToPipeline (p : Fin 25) (inputClip : BitVec 16)
  /-- OUTPUT_WORD_READY (R148): The output word and detector words for instant m are written to the bank output buffer at tick 0 of slot m + 6. -/
  | outputWordReady (c : Fin 392)
  /-- FAST_CONVERTER_SAMPLE (R120): Each fast channel takes one sample per fast converter clock edge, available 14 clocks later. -/
  | fastConverterSample (codes : BitVec 128)
  /-- OFFSET_TRACK_UPDATE (R111): Every 2^18 slots the hold-half offset terms follow the even and odd slot means. -/
  | offsetTrackUpdate (b : Fin 24)
  /-- CONV_STARVED (R112): A slice without an injection for 2^18 slots is marked starved and its coefficients are held. -/
  | convStarved (b : Fin 24) (slice : Fin 4)
  /-- REFERENCE_SETTLED (R116): BANK_REF.SETTLED is set once the reference has varied less than 2^-20 for 256 slots. -/
  | referenceSettled (b : Fin 25)
  /-- REF_SETTLE_LATE (R116): A REF_EXT not settled by the 5,000th slot is logged. -/
  | refSettleLate (b : Fin 24)
  /-- REF_UNSTABLE (R116): A reference variation above 2^-18 within 64 slots clears SETTLED and is logged. -/
  | refUnstable (b : Fin 25)
  /-- REF_FALLBACK (R117): A REF_EXT out of window for 16 slots switches the bank to the internal reference. -/
  | refFallback (b : Fin 24)
  /-- CROSSPOINT_SWITCH (R70): The spare crosspoint opens the old connection at tick 6,400 and closes the new one at tick 6,528. -/
  | crosspointSwitch (b : Fin 24)
  /-- CARRIER_ZERO_CROSSING (R75): At a carrier zero crossing the AC drives start, stop, restart or change amplitude as scheduled. -/
  | carrierZeroCrossing (b : Fin 24)
  /-- EXCITATION_RAMP_END (R76): A DC drive ramp of 16 slots reaches its target level. -/
  | excitationRampEnd (c : Fin 384)
  /-- SUPERVISOR_EVALUATION (R90): At the end of each slot the supervisor sums energy over 1 ms and trips a channel that exceeds PO. -/
  | supervisorEvaluation (c : Fin 384) (energy : Int) (square : Nat) (vEnd : Int) (limiter : Bool)
  /-- EX_SHORT (R89): A current limiter engaged for 64 consecutive slots removes the drive as a trip. -/
  | exShort (c : Fin 384)
  /-- EXCITATION_RETRY (R91): HOLDOFF ms after a trip the channel retries its drive at the next zero crossing and clears DRIVE_OFF. -/
  | excitationRetry (c : Fin 384)
  /-- TRIP_RUN_END (R91): A run of trips ends after 10 s without a trip. -/
  | tripRunEnd (c : Fin 384)
  /-- LATCH_CLEAR (R91): Writing 1 to CH_STATUS.EX_LATCH with operator authority clears the latch and starts the drive. -/
  | latchClear (port : Port) (c : Fin 384)
  /-- GREF_LEARNED (R80): After 64 slots from a start of the drive, G_ref and C_ref are learned and evaluation begins. -/
  | grefLearned (c : Fin 384)
  /-- WB_EXC_OPEN (R80): Conductance below G_ref/4 in two consecutive evaluated slots declares an excitation break. -/
  | wbExcOpen (c : Fin 384)
  /-- WB_SENSE_OPEN (R81): A break-detect residue beyond VTH declares a sense break. -/
  | wbSenseOpen (c : Fin 384)
  /-- WB_RESTORED (R83): 256 consecutive whole evaluations confirm restoration of a lead. -/
  | wbRestored (c : Fin 384) (lead : Lead)
  /-- BANK_FACTOR_UPDATE (R382): In Belay, each 2^16 slots the Second updates the bank factor T_b from the measured drive amplitude. -/
  | bankFactorUpdate (b : Fin 24) (measured : Nat)
  /-- MODE_REQUEST (R33): A write to SYS_MODE_REQ with CANCEL 0 requests a mode transition, tested and then scheduled. -/
  | modeRequest (port : Port) (at_ : Bool) (target : BitVec 3)
  /-- MODE_CANCEL (R33): A write to SYS_MODE_REQ with CANCEL 1 withdraws the pending transition this port requested. -/
  | modeCancel (port : Port)
  /-- MODE_TRANSITION (R34): A pending transition takes effect at the start of its named slot and SYS_MODE.CUR and SYS_MODE_SLOT change. -/
  | modeTransition
  /-- CAL_ACC_DONE (R412): Completion of the Acclimatise chain stores the full set, sets CAL_ACCSLOT and returns to PRIOR. -/
  | calAccDone
  /-- DRAIN_END (R37): At the drain end of a stop, each stream closes its packet with LAST and streams and ledger writing are held. -/
  | drainEnd
  /-- TIME_MARK (R46): Every 2^26 slots while acquiring, the sampling time base's seconds are written to the time-mark journal. -/
  | timeMark
  /-- OVERLAY_REQUEST (R55): A write to CFG_OVL_REQ requests activation or deactivation of an overlay, tested whole. -/
  | overlayRequest (port : Port) (at_ : Bool) (ovl : BitVec 4)
  /-- OVERLAY_ACTIVATION (R56): At the named slot the outgoing overlay's fields return to base values and the incoming overlay's records apply. -/
  | overlayActivation
  /-- CONFIG_BEACON (R60): Every 250,000 slots the hub sends its configuration TLV in a beacon on each chain or pair port that is not master. -/
  | configBeacon
  /-- TLV_RECEIVED (R61): A received configuration TLV of the hub's group is compared with its own digest and epoch. -/
  | tlvReceived (sender digest : W64) (epoch : BitVec 32) (group : BitVec 16)
  /-- EPOCH_MISMATCH_CLEAR (R61): EPOCH_MISMATCH clears when no TLV of another epoch has arrived for 8 s. -/
  | epochMismatchClear
  /-- SYNC_N_EDGE (R133): A filtered falling edge on SYNC_N names a grid restart slot while standalone. -/
  | syncNEdge
  /-- GRID_RESTART (R133): At the named slot the decimator phase P changes and channels move to the new output grid. -/
  | gridRestart
  /-- COEF_DATA_ACCESS (R139): An access to FLT_COEF_DATA reads or writes a coefficient and advances TAP and PRESET. -/
  | coefDataAccess (port : Port) (write : Option W64)
  /-- COEF_COMMIT (R139): A write of FLT_COEF_PTR with COMMIT 1 marks the bank's inactive set ready. -/
  | coefCommit (port : Port) (ptr : W64)
  /-- SWAP_REQUEST (R140): A write to FLT_SWAP_REQ requests a coefficient swap for named banks, tested and scheduled. -/
  | swapRequest (port : Port) (at_ : Bool) (banks : BitVec 24)
  /-- COEFFICIENT_SWAP (R140): At the named slot the named banks make the other coefficient set active. -/
  | coefficientSwap
  /-- PROGRAM_SLOT_COMMIT (R165): A program slot whose conditions hold commits and passes its commit-buffer entries as one group. -/
  | programSlotCommit (e : Fin 16)
  /-- COMMIT_GROUP_ACCEPT (R166): The commit arbiter accepts a ready group and gives it a commit sequence number. -/
  | commitGroupAccept
  /-- COMMIT_GROUP_APPLY (R166): The entries of an accepted group are applied in their blocks in program order. -/
  | commitGroupApply
  /-- SQUASH (R169): A squash discards program slots from q, rolls back the undo log, restores checkpoint q and writes ECAUSE. -/
  | squash (e : Fin 16)
  /-- REDIRECT (R172): A trigger or alarm redirect squashes from its slot and resumes at ENG_REDIR.VEC, waiting until that slot begins. -/
  | redirect (e : Fin 16)
  /-- EXCEPTION_ENTRY (R174): Once earlier slots commit, an excepting program slot is squashed and the exception vector entered. -/
  | exceptionEntry (e : Fin 16)
  /-- ENG_FAULT (R176): An engine fault stops the engine at once and squashes its uncommitted work. -/
  | engFault (e : Fin 16) (cause : EngFaultCause)
  /-- ENG_WATCHDOG (R176): No commit for WDOG × 256 slots faults the engine. -/
  | engWatchdog (e : Fin 16)
  /-- SPARE_TAKEOVER (R176): At the next slot a free spare is chosen and the copy of memories and checkpoint begins. -/
  | spareTakeover (e : Fin 16)
  /-- SPARE_RESUME (R176): After the copy, ENG_MAP is updated and the spare resumes program slot q. -/
  | spareResume (e : Fin 16) (copyError : Bool)
  /-- ENG_LATE (R179): A program slot not committed by real slot k + LAGMAX sets LATE. -/
  | engLate (e : Fin 16)
  /-- ADD (R187): rd = ra + rb, wrapping. -/
  | add (e : Fin 16) (g : Guard) (rd ra rb : WReg)
  /-- SUB (R187): rd = ra − rb, wrapping. -/
  | sub (e : Fin 16) (g : Guard) (rd ra rb : WReg)
  /-- AND (R187): rd = ra AND rb. -/
  | and_ (e : Fin 16) (g : Guard) (rd ra rb : WReg)
  /-- OR (R187): rd = ra OR rb. -/
  | or_ (e : Fin 16) (g : Guard) (rd ra rb : WReg)
  /-- XOR (R187): rd = ra XOR rb. -/
  | xor (e : Fin 16) (g : Guard) (rd ra rb : WReg)
  /-- ANDN (R187): rd = ra AND NOT rb. -/
  | andn (e : Fin 16) (g : Guard) (rd ra rb : WReg)
  /-- SHL (R187): rd = ra shifted left by rb[5:0]. -/
  | shl (e : Fin 16) (g : Guard) (rd ra rb : WReg)
  /-- SHR (R187): rd = ra shifted right with zero fill. -/
  | shr (e : Fin 16) (g : Guard) (rd ra rb : WReg)
  /-- SAR (R187): rd = ra shifted right with sign fill. -/
  | sar (e : Fin 16) (g : Guard) (rd ra rb : WReg)
  /-- ROR (R187): rd = ra rotated right by rb[5:0]. -/
  | ror (e : Fin 16) (g : Guard) (rd ra rb : WReg)
  /-- MIN (R187): rd = signed minimum. -/
  | min_ (e : Fin 16) (g : Guard) (rd ra rb : WReg)
  /-- MAX (R187): rd = signed maximum. -/
  | max_ (e : Fin 16) (g : Guard) (rd ra rb : WReg)
  /-- MINU (R187): rd = unsigned minimum. -/
  | minu (e : Fin 16) (g : Guard) (rd ra rb : WReg)
  /-- MAXU (R187): rd = unsigned maximum. -/
  | maxu (e : Fin 16) (g : Guard) (rd ra rb : WReg)
  /-- ABS (R187): rd = |ra|, saturating. -/
  | abs_ (e : Fin 16) (g : Guard) (rd ra : WReg)
  /-- ADDS (R187): rd = ra + rb, saturated. -/
  | adds (e : Fin 16) (g : Guard) (rd ra rb : WReg)
  /-- SUBS (R187): rd = ra − rb, saturated. -/
  | subs (e : Fin 16) (g : Guard) (rd ra rb : WReg)
  /-- CLZ (R187): rd = leading zeros of ra. -/
  | clz (e : Fin 16) (g : Guard) (rd ra : WReg)
  /-- POPC (R187): rd = set bits of ra. -/
  | popc (e : Fin 16) (g : Guard) (rd ra : WReg)
  /-- MUL (R187): rd = low 64 bits of the product. -/
  | mul (e : Fin 16) (g : Guard) (rd ra rb : WReg)
  /-- MULHS (R187): rd = high 64 bits of the signed product. -/
  | mulhs (e : Fin 16) (g : Guard) (rd ra rb : WReg)
  /-- MULHU (R187): rd = high 64 bits of the unsigned product. -/
  | mulhu (e : Fin 16) (g : Guard) (rd ra rb : WReg)
  /-- PADD (R191): Packed lane-wise wrapping add. -/
  | padd (e : Fin 16) (g : Guard) (h4 : Bool) (rd ra rb : WReg)
  /-- PSUB (R191): Packed lane-wise wrapping subtract. -/
  | psub (e : Fin 16) (g : Guard) (h4 : Bool) (rd ra rb : WReg)
  /-- PADDS (R191): Packed signed saturating add. -/
  | padds (e : Fin 16) (g : Guard) (h4 : Bool) (rd ra rb : WReg)
  /-- PSUBS (R191): Packed signed saturating subtract. -/
  | psubs (e : Fin 16) (g : Guard) (h4 : Bool) (rd ra rb : WReg)
  /-- PADDUS (R191): Packed unsigned saturating add. -/
  | paddus (e : Fin 16) (g : Guard) (h4 : Bool) (rd ra rb : WReg)
  /-- PSUBUS (R191): Packed subtract saturated at 0. -/
  | psubus (e : Fin 16) (g : Guard) (h4 : Bool) (rd ra rb : WReg)
  /-- PMIN (R191): Packed signed minimum. -/
  | pmin (e : Fin 16) (g : Guard) (h4 : Bool) (rd ra rb : WReg)
  /-- PMAX (R191): Packed signed maximum. -/
  | pmax (e : Fin 16) (g : Guard) (h4 : Bool) (rd ra rb : WReg)
  /-- PABS (R191): Packed absolute value, saturating. -/
  | pabs (e : Fin 16) (g : Guard) (h4 : Bool) (rd ra : WReg)
  /-- PSHL (R191): Packed shift left. -/
  | pshl (e : Fin 16) (g : Guard) (h4 : Bool) (rd ra rb : WReg)
  /-- PSAR (R191): Packed arithmetic shift right. -/
  | psar (e : Fin 16) (g : Guard) (h4 : Bool) (rd ra rb : WReg)
  /-- PSHR (R191): Packed logical shift right. -/
  | pshr (e : Fin 16) (g : Guard) (h4 : Bool) (rd ra rb : WReg)
  /-- PMULL (R191): Packed low product. -/
  | pmull (e : Fin 16) (g : Guard) (h4 : Bool) (rd ra rb : WReg)
  /-- PMULHS (R191): Packed high signed product. -/
  | pmulhs (e : Fin 16) (g : Guard) (h4 : Bool) (rd ra rb : WReg)
  /-- CMPEQ (R189): Compare ra and rb for equality into a predicate. -/
  | cmpeq (e : Fin 16) (g : Guard) (mode : Fin 3) (pd : PReg) (ra rb : WReg)
  /-- CMPNE (R189): Compare ra and rb for inequality into a predicate. -/
  | cmpne (e : Fin 16) (g : Guard) (mode : Fin 3) (pd : PReg) (ra rb : WReg)
  /-- CMPLT (R189): Compare ra and rb for signed less-than into a predicate. -/
  | cmplt (e : Fin 16) (g : Guard) (mode : Fin 3) (pd : PReg) (ra rb : WReg)
  /-- CMPGE (R189): Compare ra and rb for signed greater-or-equal into a predicate. -/
  | cmpge (e : Fin 16) (g : Guard) (mode : Fin 3) (pd : PReg) (ra rb : WReg)
  /-- CMPLTU (R189): Compare ra and rb for unsigned less-than into a predicate. -/
  | cmpltu (e : Fin 16) (g : Guard) (mode : Fin 3) (pd : PReg) (ra rb : WReg)
  /-- CMPGEU (R189): Compare ra and rb for unsigned greater-or-equal into a predicate. -/
  | cmpgeu (e : Fin 16) (g : Guard) (mode : Fin 3) (pd : PReg) (ra rb : WReg)
  /-- CMPTST (R189): Test ra AND rb for non-zero into a predicate. -/
  | cmptst (e : Fin 16) (g : Guard) (mode : Fin 3) (pd : PReg) (ra rb : WReg)
  /-- CMPEQI (R189): Compare ra with an immediate for equality. -/
  | cmpeqi (e : Fin 16) (mode : Fin 3) (pd : PReg) (ra : WReg) (imm : BitVec 16)
  /-- CMPNEI (R189): Compare ra with an immediate for inequality. -/
  | cmpnei (e : Fin 16) (mode : Fin 3) (pd : PReg) (ra : WReg) (imm : BitVec 16)
  /-- CMPLTI (R189): Compare ra with an immediate, signed less-than. -/
  | cmplti (e : Fin 16) (mode : Fin 3) (pd : PReg) (ra : WReg) (imm : BitVec 16)
  /-- CMPGEI (R189): Compare ra with an immediate, signed greater-or-equal. -/
  | cmpgei (e : Fin 16) (mode : Fin 3) (pd : PReg) (ra : WReg) (imm : BitVec 16)
  /-- CMPLTUI (R189): Compare ra with an immediate, unsigned less-than. -/
  | cmpltui (e : Fin 16) (mode : Fin 3) (pd : PReg) (ra : WReg) (imm : BitVec 16)
  /-- CMPGEUI (R189): Compare ra with an immediate, unsigned greater-or-equal. -/
  | cmpgeui (e : Fin 16) (mode : Fin 3) (pd : PReg) (ra : WReg) (imm : BitVec 16)
  /-- ADDI (R188): rd = ra + signed immediate. -/
  | addi (e : Fin 16) (rd ra : WReg) (imm : BitVec 16)
  /-- ANDI (R188): rd = ra AND unsigned immediate. -/
  | andi (e : Fin 16) (rd ra : WReg) (imm : BitVec 16)
  /-- ORI (R188): rd = ra OR unsigned immediate. -/
  | ori (e : Fin 16) (rd ra : WReg) (imm : BitVec 16)
  /-- XORI (R188): rd = ra XOR unsigned immediate. -/
  | xori (e : Fin 16) (rd ra : WReg) (imm : BitVec 16)
  /-- SHLI (R188): rd = ra shifted left by an immediate. -/
  | shli (e : Fin 16) (rd ra : WReg) (sh : Fin 64)
  /-- SHRI (R188): rd = ra shifted right with zero fill by an immediate. -/
  | shri (e : Fin 16) (rd ra : WReg) (sh : Fin 64)
  /-- SARI (R188): rd = ra shifted right with sign fill by an immediate. -/
  | sari (e : Fin 16) (rd ra : WReg) (sh : Fin 64)
  /-- LI (R188): rd = signed immediate. -/
  | li (e : Fin 16) (rd : WReg) (imm : BitVec 16)
  /-- CATI (R188): rd = (ra << 16) OR unsigned immediate. -/
  | cati (e : Fin 16) (rd ra : WReg) (imm : BitVec 16)
  /-- MFS (R190): rd = SLOT, CKPT or ECAUSE. -/
  | mfs (e : Fin 16) (g : Guard) (rd : WReg) (sel : Fin 3)
  /-- PAND (R190): pd = pa AND pb. -/
  | pand (e : Fin 16) (g : Guard) (pd pa pb : PReg)
  /-- POR (R190): pd = pa OR pb. -/
  | por (e : Fin 16) (g : Guard) (pd pa pb : PReg)
  /-- PXOR (R190): pd = pa XOR pb. -/
  | pxor (e : Fin 16) (g : Guard) (pd pa pb : PReg)
  /-- PANDN (R190): pd = pa AND NOT pb. -/
  | pandn (e : Fin 16) (g : Guard) (pd pa pb : PReg)
  /-- MFP (R190): rd = predicates p7 to p0. -/
  | mfp (e : Fin 16) (g : Guard) (rd : WReg)
  /-- MTP (R190): p1 to p7 = ra[7:1]. -/
  | mtp (e : Fin 16) (g : Guard) (ra : WReg)
  /-- MAC (R192): Accumulate the signed product into an accumulator. -/
  | mac (e : Fin 16) (g : Guard) (ad : AReg) (ra rb : WReg)
  /-- MACU (R192): Accumulate the unsigned product into an accumulator. -/
  | macu (e : Fin 16) (g : Guard) (ad : AReg) (ra rb : WReg)
  /-- MSB (R192): Subtract the signed product from an accumulator. -/
  | msb (e : Fin 16) (g : Guard) (ad : AReg) (ra rb : WReg)
  /-- MAC_W2 (R192): Accumulate the sum of two 32 × 32 lane products. -/
  | macW2 (e : Fin 16) (g : Guard) (ad : AReg) (ra rb : WReg)
  /-- MAC_H4 (R192): Accumulate the sum of four 16 × 16 lane products. -/
  | macH4 (e : Fin 16) (g : Guard) (ad : AReg) (ra rb : WReg)
  /-- ACLR (R192): Clear an accumulator. -/
  | aclr (e : Fin 16) (g : Guard) (ad : AReg)
  /-- MVA (R192): rd = accumulator shifted, rounded and saturated. -/
  | mva (e : Fin 16) (g : Guard) (rd : WReg) (as_ : AReg) (rb : WReg)
  /-- MVAH (R192): rd = high half of an accumulator. -/
  | mvah (e : Fin 16) (g : Guard) (rd : WReg) (as_ : AReg)
  /-- MVAL (R192): rd = low half of an accumulator. -/
  | mval (e : Fin 16) (g : Guard) (rd : WReg) (as_ : AReg)
  /-- MTAH (R192): The high half of an accumulator = ra. -/
  | mtah (e : Fin 16) (g : Guard) (ad : AReg) (ra : WReg)
  /-- MTAL (R192): The low half of an accumulator = ra. -/
  | mtal (e : Fin 16) (g : Guard) (ad : AReg) (ra : WReg)
  /-- LD (R193): Load a 64-bit word, forwarded from own stores where R194 allows. -/
  | ld (e : Fin 16) (g : Guard) (rd ra : WReg) (off : BitVec 12)
  /-- LW (R193): Load a sign-extended 32-bit word. -/
  | lw (e : Fin 16) (g : Guard) (rd ra : WReg) (off : BitVec 12)
  /-- LWU (R193): Load a zero-extended 32-bit word. -/
  | lwu (e : Fin 16) (g : Guard) (rd ra : WReg) (off : BitVec 12)
  /-- LH (R193): Load a sign-extended halfword. -/
  | lh (e : Fin 16) (g : Guard) (rd ra : WReg) (off : BitVec 12)
  /-- LHU (R193): Load a zero-extended halfword. -/
  | lhu (e : Fin 16) (g : Guard) (rd ra : WReg) (off : BitVec 12)
  /-- LB (R193): Load a sign-extended byte. -/
  | lb (e : Fin 16) (g : Guard) (rd ra : WReg) (off : BitVec 12)
  /-- LBU (R193): Load a zero-extended byte. -/
  | lbu (e : Fin 16) (g : Guard) (rd ra : WReg) (off : BitVec 12)
  /-- ST (R194): Store a 64-bit word, undo-logged locally or placed as a commit-buffer entry. -/
  | st (e : Fin 16) (g : Guard) (rd ra : WReg) (off : BitVec 12)
  /-- SW (R194): Store a 32-bit word. -/
  | sw (e : Fin 16) (g : Guard) (rd ra : WReg) (off : BitVec 12)
  /-- SH (R194): Store a halfword. -/
  | sh (e : Fin 16) (g : Guard) (rd ra : WReg) (off : BitVec 12)
  /-- SB (R194): Store a byte. -/
  | sb (e : Fin 16) (g : Guard) (rd ra : WReg) (off : BitVec 12)
  /-- AADD (R195): Place an indivisible add as a commit-buffer entry. -/
  | aadd (e : Fin 16) (g : Guard) (rd ra : WReg) (off : BitVec 12)
  /-- BR (R197): Branch on a predicate. -/
  | br (e : Fin 16) (pc : PReg) (pn : Bool) (disp : BitVec 22)
  /-- BL (R197): Branch and link into w31. -/
  | bl (e : Fin 16) (pc : PReg) (pn : Bool) (disp : BitVec 22)
  /-- JR (R197): Jump to ra[13:0]. -/
  | jr (e : Fin 16) (g : Guard) (ra : WReg)
  /-- JRL (R197): Jump to ra[13:0] and link into rd. -/
  | jrl (e : Fin 16) (g : Guard) (rd ra : WReg)
  /-- WAITSLOT (R199): Stall until the real slot reaches ra. -/
  | waitslot (e : Fin 16) (g : Guard) (ra : WReg)
  /-- FETCH (R200): Read a word or status word from the bank output buffer. -/
  | fetch (e : Fin 16) (g : Guard) (rd ra rb : WReg) (kind : WordKind)
  /-- CONVSET (R203): Place a path-prediction entry for up to 16 channels of one bank and one target slot. -/
  | convset (e : Fin 16) (g : Guard) (ra rb : WReg)
  /-- EMIT (R204): Place one to four words for a queue as a commit-buffer entry. -/
  | emit (e : Fin 16) (g : Guard) (ra rb : WReg) (n : Fin 4)
  /-- EVENT (R205): Place an event-log entry with code and argument. -/
  | event (e : Fin 16) (g : Guard) (ra rb : WReg) (notify : Bool)
  /-- TRIGARM (R206): Place an arm or disarm of a trigger unit. -/
  | trigarm (e : Fin 16) (g : Guard) (ra rb : WReg)
  /-- TBREAD (R207): Read a time base field into a register pair. -/
  | tbread (e : Fin 16) (g : Guard) (rd ra : WReg) (field : Fin 3)
  /-- CKPT (R208): End the program slot and take a checkpoint once run-ahead limits allow. -/
  | ckpt (e : Fin 16) (g : Guard)
  /-- SQUASHED (R209): Set pd to the squash indication. -/
  | squashed (e : Fin 16) (g : Guard) (pd : PReg)
  /-- CROSSING (R212): A fast-channel comparator output changes and the TDC stamps the crossing. -/
  | crossing (k : Fin 8) (cmp : Comparator) (rising : Bool) (stamp : Nat)
  /-- TRIGGER_QUALIFIED (R220): A trigger unit qualifies a trigger and opens a record or handles a secondary trigger. -/
  | triggerQualified (u : Fin 8)
  /-- TRIGGER_TIMEOUT (R217): A TIMEOUT unit qualifies when no crossing has come for T1. -/
  | triggerTimeout (u : Fin 8)
  /-- TRIGGER_STAMP_WRITE (R220): TRG_TSLOT and TRG_TBIN are written, the redirect is raised and the stamp goes to the TIV. -/
  | triggerStampWrite (u : Fin 8)
  /-- TRIGGER_ARM (R223): A write of TRG_CTL.ARM arms a unit with a descriptor after the tests. -/
  | triggerArm (port : Port) (u : Fin 8) (desc : BitVec 8)
  /-- TRIGGER_DISARM (R224): A write of TRG_CTL.DISARM disarms a unit. -/
  | triggerDisarm (port : Port) (u : Fin 8)
  /-- PREFILL_COMPLETE (R224): PRE frames are held and the unit becomes READY. -/
  | prefillComplete (u : Fin 8)
  /-- RECORD_POST_COMPLETE (R225): The last post frame is written and the unit goes to CLOSING or DRAINING. -/
  | recordPostComplete (u : Fin 8)
  /-- RECORD_CLOSE (R227): The write-back of descriptor words completes and the record is CLOSED. -/
  | recordClose (u : Fin 8)
  /-- REARM (R230): After 64 clocks in REARM the unit arms NEXT or logs CAP_REARM_REFUSED. -/
  | rearm (u : Fin 8)
  /-- MISS_POP (R231): A write of CAP_MISS_POP removes the oldest miss-log entry. -/
  | missPop (port : Port)
  /-- SPILL_PACKET (R232): The capture engine sends the next spill packet of a record when the queue has room. -/
  | spillPacket (u : Fin 8)
  /-- DESC_DATA_ACCESS (R228): An access to CAP_DESC_DATA reads or writes a descriptor word, releasing a closed descriptor, and advances the pointer. -/
  | descDataAccess (port : Port) (write : Option W64)
  /-- CAPTURE_COPY (R229): A write of CAP_COPY_GO starts a copy of record data into engine bulk memory. -/
  | captureCopy (port : Port) (len : BitVec 33)
  /-- CAPTURE_COPY_DONE (R229): A copy completes and sets DONE, and POISON where it met an error. -/
  | captureCopyDone (failing : List Nat)
  /-- TIV_ARM (R237): A write of TIV_CTL.ARM arms the interval measurement. -/
  | tivArm (port : Port)
  /-- TIV_ABORT (R237): A write of TIV_CTL.ABORT returns the TIV to IDLE. -/
  | tivAbort (port : Port)
  /-- FSTART (R244): A write of TIV_CTL.FSTART opens a frequency run at the next slot edge. -/
  | fstart (port : Port)
  /-- FSTOP (R244): A write of TIV_CTL.FSTOP ends the run and discards the open gate. -/
  | fstop (port : Port)
  /-- TIV_PIN_EDGE (R235): A TIV pin comparator edge is accepted or ignored in hold-off, and drives the frequency gate. -/
  | tivPinEdge (pin : Fin 2) (rising : Bool) (stamp : Nat)
  /-- TIV_STAMP_ORDERED (R236): After the 240 ns hold, stamps are ordered by instant and start or end the measurement. -/
  | tivStampOrdered
  /-- TIV_TIMEOUT (R240): No ending edge within 2^46 bins ends the measurement with TIMEOUT. -/
  | tivTimeout
  /-- TIV_NO_SIGNAL (R244): A gate that waits more than GATE slots gives a zero result. -/
  | tivNoSignal
  /-- AGEING_UPDATE (R245): Every 2^18 slots the ageing term advances by SLOPE and the trim is recomputed. -/
  | ageingUpdate
  /-- AGE_MEAS_UPDATE (R246): After 24 hours of lock, MEAS reports the fitted slope of the loop term. -/
  | ageMeasUpdate
  /-- REF10_LOCK (R486): The CLK_REF10 loop declares lock after 10 s within 0.1 ppb and sets REFLOCK. -/
  | ref10Lock (loopTerm : Int)
  /-- REF10_FREEZE (R17): CLK_REF10 leaving validity freezes the loop term and clears REFLOCK. -/
  | ref10Freeze (loopTerm : Int)
  /-- SYNC (R253): A received PTP Sync is stamped and, with its Follow_Up where two-step, yields an offset. -/
  | sync (t : Fin 4) (l : Fin 4) (m : PtpMsg)
  /-- FOLLOW_UP (R262): A received Follow_Up completes a two-step Sync. -/
  | followUp (t : Fin 4) (l : Fin 4) (m : PtpMsg)
  /-- DELAY_REQ (R262): A received Delay_Req is answered as master. -/
  | delayReq (t : Fin 4) (l : Fin 4) (m : PtpMsg)
  /-- DELAY_RESP (R262): A received Delay_Resp completes a path-delay measurement. -/
  | delayResp (t : Fin 4) (l : Fin 4) (m : PtpMsg)
  /-- PDELAY_REQ (R262): A received Pdelay_Req is answered. -/
  | pdelayReq (t : Fin 4) (l : Fin 4) (m : PtpMsg)
  /-- PDELAY_RESP (R262): A received Pdelay_Resp is stamped for the peer-delay measurement. -/
  | pdelayResp (t : Fin 4) (l : Fin 4) (m : PtpMsg)
  /-- PDELAY_RESP_FOLLOW_UP (R262): A received Pdelay_Resp_Follow_Up completes a peer-delay measurement. -/
  | pdelayRespFollowUp (t : Fin 4) (l : Fin 4) (m : PtpMsg)
  /-- ANNOUNCE (R260): A received Announce feeds the BMCA and the configuration TLV check. -/
  | announce (t : Fin 4) (l : Fin 4) (a : AnnounceMsg)
  /-- PTP_DROP (R262): A Signaling, Management or other-version message is discarded and counted. -/
  | ptpDrop (t : Fin 4)
  /-- SYNC_INTERVAL (R262): At each sync interval a master port sends Sync and, when two-step, Follow_Up. -/
  | syncInterval (t : Fin 4) (l : Fin 4)
  /-- ANNOUNCE_INTERVAL (R260): At each announce interval a master port sends Announce with the configuration TLV. -/
  | announceInterval (t : Fin 4) (l : Fin 4)
  /-- DELAY_REQ_INTERVAL (R262): At each delay request interval a slave port sends Delay_Req or Pdelay_Req. -/
  | delayReqInterval (t : Fin 4) (l : Fin 4)
  /-- ANNOUNCE_RECEIPT_TIMEOUT (R255): Expiry of the announce receipt timeout loses the parent. -/
  | announceReceiptTimeout (t : Fin 4) (l : Fin 4)
  /-- SOURCE_LOST (R255): The time base source is lost and the time base enters HOLDOVER. -/
  | sourceLost (t : Fin 4)
  /-- EXTERNAL_OFFSET (R253): A write of TB_EXTOFF supplies an offset to an SRC 3 time base. -/
  | externalOffset (port : Port) (t : Fin 4) (theta : W64)
  /-- SET (R257): TIME_CMD OP 1 sets a time base to an absolute time. -/
  | set (port : Port) (t : Fin 4)
  /-- STEP (R257): TIME_CMD OP 2 steps a time base by TIME_CMDOFF. -/
  | step (port : Port) (t : Fin 4)
  /-- SLEW (R257): TIME_CMD OP 3 slews a time base by TIME_CMDOFF. -/
  | slew (port : Port) (t : Fin 4)
  /-- ACCEPT_STEP (R257): TIME_CMD OP 4 steps a time base by the held refused offset. -/
  | acceptStep (port : Port) (t : Fin 4)
  /-- ACCEPT_SLEW (R257): TIME_CMD OP 5 slews out the held refused offset under the servo. -/
  | acceptSlew (port : Port) (t : Fin 4)
  /-- TIME_COMMAND_EFFECT (R258): An accepted time command takes effect at the next slot boundary. -/
  | timeCommandEffect (t : Fin 4)
  /-- SLEW_COMPLETE (R258): A commanded slew finishes its offset and clears CSLEW. -/
  | slewComplete (t : Fin 4)
  /-- SAMPLE_TB_WRITE (R250): A write of TIME_CFG.SAMPLE_TB selects the sampling time base after its tests. -/
  | sampleTbWrite (port : Port) (value : W64)
  /-- ALARM_ARM (R269): A write of ALM_CFG.EN = 1 arms an alarm after its tests. -/
  | alarmArm (port : Port) (a : Fin 16) (value : W64)
  /-- ALARM_FIRE (R270): An alarm fires at its instant and raises its actions. -/
  | alarmFire (a : Fin 16)
  /-- PPS_OUT_PULSE (R271): PPS_OUT rises at its scheduled instant for WIDTH µs. -/
  | ppsOutPulse
  /-- PPS_IN_EDGE (R272): A rising PPS_IN edge is stamped and judged valid or bad. -/
  | ppsInEdge (stamp : Int)
  /-- CAPABILITY_SET (R277): A received /N/ ordered set advances the capability exchange. -/
  | capabilitySet (l : Fin 4) (octets : BitVec 48)
  /-- CL37_AUTONEGOTIATION (R277): Received /C/ sets are answered under Clause 37 and the lane comes UP at rate 1. -/
  | cl37Autonegotiation (l : Fin 4)
  /-- IDLE_TIMEOUT (R277): 10 ms of idles without /N/ or /C/ brings the lane UP at rate 1. -/
  | idleTimeout (l : Fin 4)
  /-- EXCHANGE_RETRY (R278): A lane in MISMATCH repeats the exchange every 1 s. -/
  | exchangeRetry (l : Fin 4)
  /-- TRAINING_START (R280): 20 µs after E, training at the target rate begins. -/
  | trainingStart (l : Fin 4)
  /-- TRAINING_DEADLINE (R280): A rate not trained in 12 ms makes the lane try the next lower rate. -/
  | trainingDeadline (l : Fin 4)
  /-- LANE_UP (R280): A rate trained and held for 1 ms makes the lane UP. -/
  | laneUp (l : Fin 4)
  /-- LANE_DOWN (R282): A loss criterion declares loss of link and the lane returns to EXCHANGE. -/
  | laneDown (l : Fin 4) (cause : LossCause)
  /-- RATE_BAR_EXPIRY (R283): A rate bar ends after 3,600 s. -/
  | rateBarExpiry (l : Fin 4) (rate : Fin 4)
  /-- RATE_BAR_CLEAR (R283): An owner writing 1 to a LANE_STAT.BARRED bit ends the bar. -/
  | rateBarClear (port : Port) (l : Fin 4) (bits : BitVec 3)
  /-- LANE_FAILOVER (R286): At the next slot boundary the standby member becomes active. -/
  | laneFailover (group : Fin 4)
  /-- HELD_WORDS_RELEASE (R287): 64 slots after a frame leaves, its queue words are released. -/
  | heldWordsRelease (q : Fin 64)
  /-- MAKE_ACTIVE (R286): A write of LANE_CTL.MAKE_ACTIVE makes a standby member active. -/
  | makeActive (port : Port) (l : Fin 4)
  /-- LANE_TEST (R291): A write of LANE_TEST with EN = 1 takes the lane out of service into a test loop. -/
  | laneTest (port : Port) (l : Fin 4) (value : W64)
  /-- LANE_TEST_END (R291): A write of LANE_TEST with EN = 0 ends the test and the lane returns to EXCHANGE. -/
  | laneTestEnd (port : Port) (l : Fin 4)
  /-- PRBS_LOCK (R290): 64 correct bits put the PRBS checker in lock. -/
  | prbsLock (l : Fin 4) (errors bits : Nat)
  /-- PRBS_LOCKLOST (R290): 64 errors within 1,024 bits take the checker out of lock. -/
  | prbsLocklost (l : Fin 4) (errors bits span : Nat)
  /-- LANE_DISABLE (R320): A write of LANE_CFG.EN = 0 declares loss and disables the streams of the lane. -/
  | laneDisable (port : Port) (l : Fin 4)
  /-- FRAME_RECEIVED (R292): The switch receives a frame and forwards, floods, consumes or drops it. -/
  | frameReceived (l : Fin 4) (f : Frame) (rx : Int)
  /-- FRAME_TRANSMIT (R296): An egress port sends the next frame from its priority queues when the lane can take it. -/
  | frameTransmit (p : Fin 5) (badWords : List Nat) (tx : Int)
  /-- FDB_AGE_OUT (R292): A learned address ages out after AGE seconds. -/
  | fdbAgeOut (mac : BitVec 48) (vid : BitVec 12)
  /-- TC_NOMATCH (R299): A held residence without a Follow_Up for 1 s is discarded. -/
  | tcNomatch
  /-- LOOP_BLOCK_CLEAR (R298): An owner writing 1 to SW_PORT.LOOPBLK ends the flooding block. -/
  | loopBlockClear (port : Port) (p : Fin 5)
  /-- STREAM_ENABLE (R306): A write setting stream EN to 1 enables the stream at the next slot boundary after its tests. -/
  | streamEnable (port : Port) (st : Fin 2048) (value : W64)
  /-- STREAM_DISABLE (R320): A write setting stream EN to 0 closes the stream with LAST at the next slot boundary. -/
  | streamDisable (port : Port) (st : Fin 2048)
  /-- STREAM_DATA_ACCESS (R456): An access to STRM_DATA reads or writes a stream table word and advances the pointer. -/
  | streamDataAccess (port : Port) (write : Option W64)
  /-- QUEUE_FLUSH (R319): A write of QUE_CTL.FLUSH discards waiting and open packets between commit groups. -/
  | queueFlush (port : Port) (q : Fin 64)
  /-- QUEUE_DISABLE (R320): A write of QUE_CFG.EN = 0 disables the queue and its stream at the next slot boundary. -/
  | queueDisable (port : Port) (q : Fin 64)
  /-- BLOCK_CODE (R337): The ledger coder codes a block of a lane and self-checks it. -/
  | blockCode (st : Fin 2048) (chan : Fin 392) (selfCheckFailures : Fin 3)
  /-- REPLAY (R326): Command OP 0x10 requests a ledger replay of a stream, channel range and slot range. -/
  | replay (l : Fin 4) (h : CmdHdr) (w1 w2 w3 : W64)
  /-- REPLAY_ABORT (R326): Command OP 0x11 ends a replay, reporting unsent ranges with code 5. -/
  | replayAbort (l : Fin 4) (h : CmdHdr) (tag : BitVec 13)
  /-- REPLAY_PACKET (R327): The hub sends the next replay packet of records when its egress queue can take it. -/
  | replayPacket (l : Fin 4) (tag : BitVec 13)
  /-- REPLAY_STATUS_PACKET (R328): The hub sends a status packet covering every requested channel and slot, the last with LAST. -/
  | replayStatusPacket (l : Fin 4) (tag : BitVec 13)
  /-- DECODE (R342): Command OP 0x12 has the hub decode and fully check a block. -/
  | decode (l : Fin 4) (h : CmdHdr) (ratio : BitVec 2) (block : List W64)
  /-- PEER_PACKET (R344): A matched compressed packet from a peer is decoded by CRC16 check into the receive ring. -/
  | peerPacket (l : Fin 4) (smac dmac : BitVec 48) (words : List W64)
  /-- READ (R357): Command OP 0x01 returns COUNT register values. -/
  | read (l : Fin 4) (h : CmdHdr) (w1 : W64)
  /-- WRITE (R359): Command OP 0x02 writes COUNT values in order, stopping at the first refused item. -/
  | write (l : Fin 4) (h : CmdHdr) (w1 : W64) (values : List W64)
  /-- SNAPSHOT (R371): Command OP 0x03 returns the words of a group latched in one management clock. -/
  | snapshot (l : Fin 4) (h : CmdHdr) (w1 : W64)
  /-- MWRITE (R357): Command OP 0x04 applies register records of R50. -/
  | mwrite (l : Fin 4) (h : CmdHdr) (words : List W64)
  /-- CAP_READ (R229): Command OP 0x13 returns data of a closed capture record. -/
  | capRead (l : Fin 4) (h : CmdHdr) (w1 w2 : W64)
  /-- CFG_BEGIN (R361): Command OP 0x20 erases the inactive configuration store. -/
  | cfgBegin (l : Fin 4) (h : CmdHdr)
  /-- CFG_WRITE (R361): Command OP 0x21 writes image words at ascending offsets. -/
  | cfgWrite (l : Fin 4) (h : CmdHdr) (offset : W64) (words : List W64)
  /-- CFG_COMMIT (R361): Command OP 0x22 checks the image and writes the commit record. -/
  | cfgCommit (l : Fin 4) (h : CmdHdr)
  /-- CFG_LOAD (R361): Command OP 0x23 makes the newly committed store active in Basecamp. -/
  | cfgLoad (l : Fin 4) (h : CmdHdr)
  /-- PROGRAM_COMMAND (R362): Commands OP 0x80–0xFF are written into a mailbox slot for the program. -/
  | programCommand (l : Fin 4) (h : CmdHdr) (op : BitVec 8) (words : List W64)
  /-- ILLEGAL_COMMAND (R357): An unknown OP or wrong NW is answered with ILLEGAL. -/
  | illegalCommand (l : Fin 4) (h : CmdHdr) (op : BitVec 8)
  /-- NOPROG (R362): No program answer within 1 s answers NOPROG and frees the mailbox slot. -/
  | noprog (l : Fin 4) (slot : Fin 8)
  /-- RESPONSE (R358): A response frame leaves for its egress queue. -/
  | response (l : Fin 4)
  /-- RESPONSE_DISCARD (R374): A response waiting 1 s for a lane that is not UP is discarded. -/
  | responseDiscard (l : Fin 4)
  /-- NOTICE (R446): Logged records are sent as a notice frame to each entitled subscriber. -/
  | notice (l : Fin 4)
  /-- AUTH_WRITE (R350): A write to SYS_AUTH changes port classes after its tests. -/
  | authWrite (port : Port) (value : W64)
  /-- LOCK_WRITE (R454): A write of SYS_LOCK locks the RWL fields of blocks until reset. -/
  | lockWrite (port : Port) (value : W64)
  /-- REGISTER_WRITE (R496): A write to a register without a row of its own is tested and applied under its access code. -/
  | registerWrite (port : Port) (addr : BitVec 13) (value : W64)
  /-- SP_STATUS (R365): A management serial port STATUS transaction returns the status byte and clears ERR. -/
  | spStatus (edges : Nat)
  /-- SP_READ (R368): A management serial port READ returns latched words with incrementing address. -/
  | spRead (addr : BitVec 13) (words : Nat) (cut : Bool) (extra : Bool)
  /-- SP_WRITE (R367): A management serial port WRITE applies each complete word with incrementing address. -/
  | spWrite (addr : BitVec 13) (words : List W64)
  /-- SP_READ_NOINC (R365): A management serial port READ without increment. -/
  | spReadNoinc (addr : BitVec 13) (words : Nat) (cut : Bool)
  /-- SP_WRITE_NOINC (R365): A management serial port WRITE without increment. -/
  | spWriteNoinc (addr : BitVec 13) (words : List W64)
  /-- SP_SNAPSHOT (R371): A management serial port SNAPSHOT returns a group latched in one clock. -/
  | spSnapshot (addr : BitVec 13) (extra : Bool)
  /-- SP_ILLEGAL (R365): A refused management serial port command code counts ILLEGAL. -/
  | spIllegal (code : Fin 2) (edges : Nat)
  /-- SP_SHORT (R369): SP_SEL_N rising before a byte or word completes discards it and counts SHORT. -/
  | spShort
  /-- SSP_GO (R376): A write of SSP_CTL.GO starts the port's sequence. -/
  | sspGo (port : Port) (n : Fin 4)
  /-- SSP_STOP (R376): A write of SSP_CTL.STOP ends the sequence after the transaction in progress. -/
  | sspStop (port : Port) (n : Fin 4)
  /-- SSP_POP (R377): A write of SSP_CTL.POP removes the oldest receive record. -/
  | sspPop (port : Port) (n : Fin 4)
  /-- SSP_TRANSACTION_COMPLETE (R377): A sensor serial transaction completes and its stamped record enters the ring. -/
  | sspTransactionComplete (n : Fin 4) (rx : BitVec 48)
  /-- PAIR_STATE_SEND (R388): Each slot the hub sends its STATE frame on the pair link. -/
  | pairStateSend
  /-- PAIR_STATE (R385): A received STATE frame updates sequences of shadow packets and readiness. -/
  | pairState (l : Fin 4) (words : List W64)
  /-- MIRROR (R383): A received MIRROR frame updates the Second's mirror and appends partner event records. -/
  | mirror (l : Fin 4) (words : List W64)
  /-- PROPOSE (R394): A received PROPOSE is answered with ACCEPT or REFUSE. -/
  | propose (l : Fin 4) (words : List W64)
  /-- ACCEPT (R394): A received ACCEPT makes a planned handover pending on both hubs. -/
  | accept (l : Fin 4) (words : List W64)
  /-- REFUSE (R394): A received REFUSE refuses a planned handover. -/
  | refuse (l : Fin 4) (words : List W64)
  /-- RELEASE (R390): A received RELEASE names the slot from which the Second declares the Leader lost. -/
  | release (l : Fin 4) (words : List W64)
  /-- PAIR_STARTUP_DECISION (R389): After listening on the pair link, the hub chooses Belay or its start mode. -/
  | pairStartupDecision (foreign : Bool)
  /-- LEADER_LOST (R390): A ready Second declares the Leader lost and checks for a foreign drive. -/
  | leaderLost (foreign : Bool)
  /-- HANDOVER_RAMP_START (R392): At tick 200 the drive ramp of the taking-over hub starts. -/
  | handoverRampStart (b : Fin 24)
  /-- HANDOVER_RAMP_FULL (R392): The handover ramp reaches full drive after 4 slots. -/
  | handoverRampFull (b : Fin 24)
  /-- HANDOVER_WINDOW_END (R396): The HANDOVER window ends and the break-detect bias turns on. -/
  | handoverWindowEnd (b : Fin 24)
  /-- PAIR_CONTENTION (R393): Contention after a takeover removes every drive and returns the hub to Belay. -/
  | pairContention (b : Fin 24)
  /-- PAIR_SWITCH (R394): A write of PAIR_CTL.SWITCH requests a planned handover. -/
  | pairSwitch (port : Port)
  /-- PAIR_CANCEL (R394): A write of PAIR_CTL.CANCEL withdraws a pending handover. -/
  | pairCancel (port : Port)
  /-- PAIR_PROOF_START (R399): A write of PAIR_CTL.PROOF starts a proof exchange at once. -/
  | pairProofStart (port : Port)
  /-- CLEARPF (R399): A write of PAIR_CTL.CLEARPF clears a failed proof or contention. -/
  | clearpf (port : Port)
  /-- PAIR_HANDOVER_REFUSED (R394): No ACCEPT within 8 slots refuses the handover. -/
  | pairHandoverRefused
  /-- DRIVE_REMOVAL (R395): In a planned handover the outgoing hub removes a bank's drive at c_b. -/
  | driveRemoval (b : Fin 24)
  /-- PAIR_TAKEBACK (R398): After TAKEBACK seconds of readiness, a planned handover returns the designated Leader. -/
  | pairTakeback
  /-- PROOF_EXCHANGE (R399): Every PERIOD hours a proof exchange hands over to the designated Second. -/
  | proofExchange
  /-- PROOF_HANDBACK (R399): After LEN seconds the designated Second hands back and the proof passes or fails. -/
  | proofHandback
  /-- TEMPERATURE_EVALUATION (R404): Every 2^18 slots bank temperatures are averaged and banks become due. -/
  | temperatureEvaluation (temps : BitVec 384)
  /-- CAL_BANKS_DUE (R404): A write of CAL_CTL.BANKS makes named banks due. -/
  | calBanksDue (port : Port) (banks : BitVec 24)
  /-- CAL_ABORT (R411): A write of CAL_CTL.ABORT abandons every pass. -/
  | calAbort (port : Port)
  /-- CAL_PASS_START (R405): A due bank begins a pass when concurrency allows, records TCAL and starts the spare phase. -/
  | calPassStart (b : Fin 24)
  /-- CAL_SPARE_PHASE_END (R405): A spare phase of 288 slots ends and sets the spare's terms. -/
  | calSparePhaseEnd (b : Fin 24)
  /-- CAL_CHANNEL_START (R406): At t0 the crosspoint goes to the channel's position. -/
  | calChannelStart (b : Fin 24)
  /-- FIRST_OVERLAP_END (R407): The first overlap ends, forming a and b, and substitution begins. -/
  | firstOverlapEnd (b : Fin 24)
  /-- CAL_INTERVAL_END (R408): A calibration interval of 512 slots ends and the node level changes. -/
  | calIntervalEnd (b : Fin 24)
  /-- SECOND_OVERLAP_END (R409): The second overlap ends and the new terms apply or are refused as outliers. -/
  | secondOverlapEnd (b : Fin 24)
  /-- CAL_PASS_END (R406): After the last channel the crosspoint is released and the result is stored. -/
  | calPassEnd (b : Fin 24)
  /-- CAL_ABANDON (R411): A pass is abandoned at the next slot boundary and the channel reconnects. -/
  | calAbandon (b : Fin 24)
  /-- SUBSTITUTION_END (R411): 512 slots after an abandonment the channel returns to its own path. -/
  | substitutionEnd (b : Fin 24)
  /-- CAL_GROUP_WRITE (R415): A pass result group is appended to the active flash bank. -/
  | calGroupWrite (failures : Fin 3)
  /-- CAL_COMPACTION (R415): The hub writes the full set into the other calibration bank and makes it active. -/
  | calCompaction (failures : Fin 3)
  /-- UPD_BEGIN (R423): Command OP 0x30 names the image that the staging area takes. -/
  | updBegin (l : Fin 4) (h : CmdHdr) (w1 : W64)
  /-- UPD_PIECE (R421): Command OP 0x31 submits a part of a piece to the assembly buffers. -/
  | updPiece (l : Fin 4) (h : CmdHdr) (w1 w2 : W64) (data : List W64)
  /-- UPD_STATUS (R420): Command OP 0x32 returns update state and the piece bitmap. -/
  | updStatus (l : Fin 4) (h : CmdHdr)
  /-- UPD_VERIFY (R424): Command OP 0x33 starts verification of the staged image. -/
  | updVerify (l : Fin 4) (h : CmdHdr)
  /-- UPD_INSTALL (R425): Command OP 0x34 starts the journaled copy into the running region. -/
  | updInstall (l : Fin 4) (h : CmdHdr)
  /-- UPD_ACTIVATE (R429): Command OP 0x35 schedules activation in Traverse. -/
  | updActivate (l : Fin 4) (h : CmdHdr) (at_ : W64)
  /-- UPD_CANCEL (R429): Command OP 0x36 withdraws a pending activation. -/
  | updCancel (l : Fin 4) (h : CmdHdr)
  /-- UPD_RECOVER (R428): A maintenance write of UPD_CTL.RECOVER resets the hub into Bivouac. -/
  | updRecover (port : Port)
  /-- PIECE_STORE (R422): A complete checked piece is written to flash and marked stored. -/
  | pieceStore (failures : Fin 3)
  /-- VERIFICATION_COMPLETE (R424): Verification finishes with VERIFIED or FAILED. -/
  | verificationComplete
  /-- COPY_BLOCK (R425): One 32 KiB block is copied, checked and journaled. -/
  | copyBlock (failures : Fin 4)
  /-- SHADOW_LOAD_COMPLETE (R430): Shadow instruction memories are loaded and SHADOW is set. -/
  | shadowLoadComplete (eccError : Option (Fin 16))
  /-- TRAVERSE_END (R432): At h + 16 the new base takes effect, the mode returns to PRIOR and service firmware switches. -/
  | traverseEnd
  /-- CH_STAGE_FAULT (R435): A faulty channel stage is replaced by the spare path until reset. -/
  | chStageFault (c : Fin 384)
  /-- BANK_FAULT (R436): A bank fault is handled by switchover, channel removal or bank restart. -/
  | bankFault (b : Fin 24) (cause : BankFaultCause)
  /-- BANK_RESTART (R436): A restarted bank takes its first hold. -/
  | bankRestart (b : Fin 24)
  /-- DRAM_ECC_ERROR (R21): A double-bit DRAM error marks POISON and logs the address and bounds. -/
  | dramEccError (ch : Fin 2) (part : DramPart) (addr : Nat)
  /-- SCRUB (R437): A DRAM scrub pass over every partition completes. -/
  | scrub (corrected : List Nat)
  /-- PERSISTENT_LOG_WRITE (R443): A record of CLASS 2 or higher is written to the persistent log in flash. -/
  | persistentLogWrite
  /-- INTERRUPT_CLEAR (R445): Writing 1 to an EVT_INT.PEND bit clears it and its NHOLD bit. -/
  | interruptClear (port : Port) (bits : BitVec 5)
  /-- EVENT_RECORD_READ (R456): A read of EVT_REC3 advances EVT_RDPTR. -/
  | eventRecordRead (port : Port)
  /-- PERSISTENT_POINTER_WRITE (R443): A write of EVT_PRD_PTR latches a persistent record into EVT_PREC0–3. -/
  | persistentPointerWrite (port : Port) (value : W64)
  /-- BMAP_DATA_READ (R456): A read of UPD_BMAP_DATA advances the bitmap pointer. -/
  | bmapDataRead (port : Port)
  /-- DBG_ENG_PTR_WRITE (R459): A write of DBG_ENG_PTR latches committed checkpoint items of an engine. -/
  | dbgEngPtrWrite (port : Port) (value : W64)
  /-- DBG_ENG_DATA_READ (R456): A read of DBG_ENG_DATA returns a latched item and advances the pointer. -/
  | dbgEngDataRead (port : Port)
  /-- LANE_BRING_UP (R43): At 10 ms after t = 0 the lanes begin bring-up at 1.25 Gb/s in EXCHANGE, the PTP logic runs and all time bases are unset. -/
  | laneBringUp
  /-- CLK_REF10_VALID (R17): CLK_REF10 returning to its valid window lets the frequency-lock loop act on the trim again, from its frozen value. -/
  | clkRef10Valid
  /-- SHADOW_PACKET_RELEASE (R385): In Belay, 64 slots after a STATE report gives a shadow packet its sequence number, the Second releases that packet. -/
  | shadowPacketRelease (st : Fin 2048)
  /-- ROM_UNCORRECTABLE_ERROR (R438): An uncorrectable error in on-die ROM or in the loader's working state escalates to hub level. -/
  | romUncorrectableError
  /-- ILLEGAL_INSTRUCTION (R186): Execution of a word with an unassigned major opcode, including erased memory, raises ILLEGAL even under a false guard. -/
  | illegalInstruction (e : Fin 16)
  deriving DecidableEq, Repr

end Sys2Proof
end

