-- ==== Sys2Proof/Decode.lean ====
section
/-!
DEFINITION. Sys2Proof/Decode.lean: the instruction words of the Koloux engines: their formats and the instruction that each word spells (R184 to
R192, R197, R198, R200, R207), an encoder of the same tables, and the commands that a word of spec/opcode_table.json spells. The table gives bits
to none of its rows: a command reaches the hub as a frame, a transaction, a register write, an engine's instruction or an event of its hardware,
never as a word of the table.
-/
namespace Sys2Proof

/-! ### Fields (R184) -/

/-- Bits hi..lo of an instruction word. -/
def fld (w : W32) (hi lo : Nat) : Nat := (w.toNat >>> lo) % 2 ^ (hi + 1 - lo)
/-- OP. -/
def opOf (w : W32) : Nat := fld w 31 26
/-- RD of the formats T, H, M and I. -/
def rdOf (w : W32) : WReg := Fin.ofNat 32 (fld w 25 21)
/-- RA of the formats T, H, M and I. -/
def raOf (w : W32) : WReg := Fin.ofNat 32 (fld w 20 16)
/-- RB of the formats T and H. -/
def rbOf (w : W32) : WReg := Fin.ofNat 32 (fld w 15 11)
/-- PG and PN of the formats T and H. -/
def guardT (w : W32) : Guard := { pg := Fin.ofNat 8 (fld w 10 8), pn := fld w 7 7 == 1 }
/-- PG and PN of format M. -/
def guardM (w : W32) : Guard := { pg := Fin.ofNat 8 (fld w 15 13), pn := fld w 12 12 == 1 }
/-- FN of format T. -/
def fnOf (w : W32) : Nat := fld w 6 0
/-- IMM of format I. -/
def immOf (w : W32) : BitVec 16 := BitVec.ofNat 16 (fld w 15 0)
/-- OFF of format M. -/
def offOf (w : W32) : BitVec 12 := BitVec.ofNat 12 (fld w 11 0)
/-- The predicate in RD[2:0], RA[2:0] or RB[2:0]. -/
def predOf (r : WReg) : PReg := Fin.ofNat 8 r.val
/-- The accumulator in RD[1:0] or RA[1:0]. -/
def accOf (r : WReg) : AReg := Fin.ofNat 4 r.val

/-- An instruction whose reserved fields, given as numbers, must all be 0 (R185). -/
def zeros (fs : List Nat) (i : Instr) : Option Instr := if fs.all (fun n => n == 0) then some i else none

/-! ### The groups (R187 to R192, R197, R198) -/

/-- OP 0x00: integer ALU (R187). -/
def decodeAlu (e : Fin 16) (w : W32) : Option Instr :=
  let g := guardT w
  let d := rdOf w
  let a := raOf w
  let b := rbOf w
  match fnOf w with
  | 0x00 => some (.add e g d a b)
  | 0x01 => some (.sub e g d a b)
  | 0x02 => some (.and_ e g d a b)
  | 0x03 => some (.or_ e g d a b)
  | 0x04 => some (.xor e g d a b)
  | 0x05 => some (.andn e g d a b)
  | 0x06 => some (.shl e g d a b)
  | 0x07 => some (.shr e g d a b)
  | 0x08 => some (.sar e g d a b)
  | 0x09 => some (.ror e g d a b)
  | 0x0A => some (.min_ e g d a b)
  | 0x0B => some (.max_ e g d a b)
  | 0x0C => some (.minu e g d a b)
  | 0x0D => some (.maxu e g d a b)
  | 0x0E => zeros [b.val] (.abs_ e g d a)
  | 0x10 => some (.adds e g d a b)
  | 0x11 => some (.subs e g d a b)
  | 0x12 => zeros [b.val] (.clz e g d a)
  | 0x13 => zeros [b.val] (.popc e g d a)
  | 0x18 => some (.mul e g d a b)
  | 0x19 => some (.mulhs e g d a b)
  | 0x1A => some (.mulhu e g d a b)
  | _ => none

/-- OP 0x01: packed arithmetic; FN[6] selects four lanes of 16 bits (R191). -/
def decodePacked (e : Fin 16) (w : W32) : Option Instr :=
  let g := guardT w
  let h := fld w 6 6 == 1
  let d := rdOf w
  let a := raOf w
  let b := rbOf w
  match fld w 5 0 with
  | 0x00 => some (.padd e g h d a b)
  | 0x01 => some (.psub e g h d a b)
  | 0x02 => some (.padds e g h d a b)
  | 0x03 => some (.psubs e g h d a b)
  | 0x04 => some (.paddus e g h d a b)
  | 0x05 => some (.psubus e g h d a b)
  | 0x06 => some (.pmin e g h d a b)
  | 0x07 => some (.pmax e g h d a b)
  | 0x08 => zeros [b.val] (.pabs e g h d a)
  | 0x09 => some (.pshl e g h d a b)
  | 0x0A => some (.psar e g h d a b)
  | 0x0B => some (.pshr e g h d a b)
  | 0x0C => some (.pmull e g h d a b)
  | 0x0D => some (.pmulhs e g h d a b)
  | _ => none

/-- The mode in RD[25:24] of a compare; mode 3 is none (R189). -/
def modeOf (w : W32) : Option (Fin 3) :=
  match fld w 25 24 with
  | 0 => some 0
  | 1 => some 1
  | 2 => some 2
  | _ => none

/-- The predicate in RD[23:21] of a compare (R189). -/
def cmpPred (w : W32) : PReg := Fin.ofNat 8 (fld w 23 21)

/-- OP 0x02: compare to predicate (R189). -/
def decodeCompare (e : Fin 16) (w : W32) : Option Instr :=
  let g := guardT w
  let p := cmpPred w
  let a := raOf w
  let b := rbOf w
  (modeOf w).bind (fun m =>
    match fnOf w with
    | 0x00 => some (.cmpeq e g m p a b)
    | 0x01 => some (.cmpne e g m p a b)
    | 0x02 => some (.cmplt e g m p a b)
    | 0x03 => some (.cmpge e g m p a b)
    | 0x04 => some (.cmpltu e g m p a b)
    | 0x05 => some (.cmpgeu e g m p a b)
    | 0x08 => some (.cmptst e g m p a b)
    | _ => none)

/-- OP 0x03: multiply-accumulate (R192). -/
def decodeMac (e : Fin 16) (w : W32) : Option Instr :=
  let g := guardT w
  let d := rdOf w
  let a := raOf w
  let b := rbOf w
  let dHigh := fld w 25 23
  let aHigh := fld w 20 18
  match fnOf w with
  | 0x00 => zeros [dHigh] (.mac e g (accOf d) a b)
  | 0x01 => zeros [dHigh] (.macu e g (accOf d) a b)
  | 0x02 => zeros [dHigh] (.msb e g (accOf d) a b)
  | 0x03 => zeros [dHigh] (.macW2 e g (accOf d) a b)
  | 0x04 => zeros [dHigh] (.macH4 e g (accOf d) a b)
  | 0x05 => zeros [dHigh, a.val, b.val] (.aclr e g (accOf d))
  | 0x10 => zeros [aHigh] (.mva e g d (accOf a) b)
  | 0x11 => zeros [aHigh, b.val] (.mvah e g d (accOf a))
  | 0x12 => zeros [aHigh, b.val] (.mval e g d (accOf a))
  | 0x13 => zeros [dHigh, b.val] (.mtah e g (accOf d) a)
  | 0x14 => zeros [dHigh, b.val] (.mtal e g (accOf d) a)
  | _ => none

/-- OP 0x04: specials and predicate logic (R190). -/
def decodePred (e : Fin 16) (w : W32) : Option Instr :=
  let g := guardT w
  let d := rdOf w
  let a := raOf w
  let b := rbOf w
  let high := [fld w 25 24, fld w 20 19, fld w 15 14]
  match fnOf w with
  | 0x00 => if h : a.val < 3 then zeros [b.val] (.mfs e g d ⟨a.val, h⟩) else none
  | 0x08 => zeros high (.pand e g (predOf d) (predOf a) (predOf b))
  | 0x09 => zeros high (.por e g (predOf d) (predOf a) (predOf b))
  | 0x0A => zeros high (.pxor e g (predOf d) (predOf a) (predOf b))
  | 0x0B => zeros high (.pandn e g (predOf d) (predOf a) (predOf b))
  | 0x0C => zeros [a.val, b.val] (.mfp e g d)
  | 0x0D => zeros [d.val, b.val] (.mtp e g a)
  | _ => none

/-- OP 0x05: register jumps (R197). -/
def decodeJump (e : Fin 16) (w : W32) : Option Instr :=
  match fnOf w with
  | 0x00 => zeros [(rdOf w).val, (rbOf w).val] (.jr e (guardT w) (raOf w))
  | 0x01 => zeros [(rbOf w).val] (.jrl e (guardT w) (rdOf w) (raOf w))
  | _ => none

/-- The kind of a FETCH; 5 to 7 are none (R200). -/
def kindOf : Nat → Option WordKind
  | 0 => some .value
  | 1 => some .max
  | 2 => some .min
  | 3 => some .rms
  | 4 => some .env
  | _ => none

/-- OP 0x30: hub instructions, by HF in [6:3] and X in [2:0] (R198, R200, R207). -/
def decodeHub (e : Fin 16) (w : W32) : Option Instr :=
  let g := guardT w
  let d := rdOf w
  let a := raOf w
  let b := rbOf w
  let x := fld w 2 0
  match fld w 6 3 with
  | 0x0 => zeros [d.val, b.val, x] (.waitslot e g a)
  | 0x1 => (kindOf x).map (fun k => .fetch e g d a b k)
  | 0x2 => zeros [d.val, x] (.convset e g a b)
  | 0x3 => zeros [d.val, x / 4] (.emit e g a b (Fin.ofNat 4 x))
  | 0x4 => zeros [d.val, x / 2] (.event e g a b (x % 2 == 1))
  | 0x5 => zeros [d.val, x] (.trigarm e g a b)
  | 0x6 => if h : x < 3 then zeros [b.val] (.tbread e g d a ⟨x, h⟩) else none
  | 0x7 => zeros [d.val, a.val, b.val, x] (.ckpt e g)
  | 0x8 => zeros [fld w 25 24, a.val, b.val, x] (.squashed e g (predOf d))
  | _ => none

/-- OP 0x12 to 0x17: compare with an immediate (R189). -/
def decodeCompareImm (e : Fin 16) (w : W32) : Option Instr :=
  let p := cmpPred w
  let a := raOf w
  let n := immOf w
  (modeOf w).bind (fun m =>
    match opOf w with
    | 0x12 => some (.cmpeqi e m p a n)
    | 0x13 => some (.cmpnei e m p a n)
    | 0x14 => some (.cmplti e m p a n)
    | 0x15 => some (.cmpgei e m p a n)
    | 0x16 => some (.cmpltui e m p a n)
    | 0x17 => some (.cmpgeui e m p a n)
    | _ => none)

/-- The shift count in IMM[5:0] (R188). -/
def shiftOf (w : W32) : Fin 64 := Fin.ofNat 64 (fld w 5 0)

/-- The instruction of a word by its OP; none for an unassigned encoding or a reserved field that is not 0 (R185, R186, R188, R193). -/
def decodeWord (e : Fin 16) (w : W32) : Option Instr :=
  let d := rdOf w
  let a := raOf w
  let n := immOf w
  let g := guardM w
  let o := offOf w
  match opOf w with
  | 0x00 => decodeAlu e w
  | 0x01 => decodePacked e w
  | 0x02 => decodeCompare e w
  | 0x03 => decodeMac e w
  | 0x04 => decodePred e w
  | 0x05 => decodeJump e w
  | 0x08 => some (.addi e d a n)
  | 0x09 => some (.andi e d a n)
  | 0x0A => some (.ori e d a n)
  | 0x0B => some (.xori e d a n)
  | 0x0C => zeros [fld w 15 6] (.shli e d a (shiftOf w))
  | 0x0D => zeros [fld w 15 6] (.shri e d a (shiftOf w))
  | 0x0E => zeros [fld w 15 6] (.sari e d a (shiftOf w))
  | 0x0F => zeros [a.val] (.li e d n)
  | 0x10 => some (.cati e d a n)
  | 0x12 | 0x13 | 0x14 | 0x15 | 0x16 | 0x17 => decodeCompareImm e w
  | 0x18 => some (.ld e g d a o)
  | 0x19 => some (.lw e g d a o)
  | 0x1A => some (.lwu e g d a o)
  | 0x1B => some (.lh e g d a o)
  | 0x1C => some (.lhu e g d a o)
  | 0x1D => some (.lb e g d a o)
  | 0x1E => some (.lbu e g d a o)
  | 0x20 => some (.st e g d a o)
  | 0x21 => some (.sw e g d a o)
  | 0x22 => some (.sh e g d a o)
  | 0x23 => some (.sb e g d a o)
  | 0x24 => some (.aadd e g d a o)
  | 0x28 => some (.br e (Fin.ofNat 8 (fld w 25 23)) (fld w 22 22 == 1) (BitVec.ofNat 22 (fld w 21 0)))
  | 0x29 => some (.bl e (Fin.ofNat 8 (fld w 25 23)) (fld w 22 22 == 1) (BitVec.ofNat 22 (fld w 21 0)))
  | 0x30 => decodeHub e w
  | _ => none

/-- The command that an engine issues for an instruction word: the instruction it spells, and ILLEGAL_INSTRUCTION for an encoding that spells none
(R186, R210). -/
def IssuedBy (w : W32) (e : Fin 16) (i : Instr) : Prop :=
  decodeWord e w = some i ∨ (decodeWord e w = none ∧ i = .illegalInstruction e)

/-! ### The encoder -/

/-- A word of format T or H; `fn` is FN, or HF and X. -/
def wordT (op rd ra rb : Nat) (g : Guard) (fn : Nat) : W32 :=
  BitVec.ofNat 32 (op * 2 ^ 26 + rd * 2 ^ 21 + ra * 2 ^ 16 + rb * 2 ^ 11 + g.pg.val * 2 ^ 8 + g.pn.toNat * 2 ^ 7 + fn)
/-- A word of format M. -/
def wordM (op : Nat) (g : Guard) (rd ra : WReg) (off : BitVec 12) : W32 :=
  BitVec.ofNat 32 (op * 2 ^ 26 + rd.val * 2 ^ 21 + ra.val * 2 ^ 16 + g.pg.val * 2 ^ 13 + g.pn.toNat * 2 ^ 12 + off.toNat)
/-- A word of format I. -/
def wordI (op rd ra imm : Nat) : W32 := BitVec.ofNat 32 (op * 2 ^ 26 + rd * 2 ^ 21 + ra * 2 ^ 16 + imm)
/-- A word of format B. -/
def wordB (op : Nat) (pc : PReg) (pn : Bool) (disp : BitVec 22) : W32 :=
  BitVec.ofNat 32 (op * 2 ^ 26 + pc.val * 2 ^ 23 + pn.toNat * 2 ^ 22 + disp.toNat)
/-- The RD field of a compare. -/
def cmpRd (m : Fin 3) (p : PReg) : Nat := m.val * 8 + p.val

/-- The X field of a FETCH kind (R200). -/
def WordKind.x : WordKind → Nat
  | .value => 0
  | .max => 1
  | .min => 2
  | .rms => 3
  | .env => 4

/-- The engine and the word of a Koloux instruction; none for every other command. -/
def encodeKoloux : Instr → Option (Fin 16 × W32)
  | .add e g d a b => some (e, wordT 0x00 d a b g 0x00)
  | .sub e g d a b => some (e, wordT 0x00 d a b g 0x01)
  | .and_ e g d a b => some (e, wordT 0x00 d a b g 0x02)
  | .or_ e g d a b => some (e, wordT 0x00 d a b g 0x03)
  | .xor e g d a b => some (e, wordT 0x00 d a b g 0x04)
  | .andn e g d a b => some (e, wordT 0x00 d a b g 0x05)
  | .shl e g d a b => some (e, wordT 0x00 d a b g 0x06)
  | .shr e g d a b => some (e, wordT 0x00 d a b g 0x07)
  | .sar e g d a b => some (e, wordT 0x00 d a b g 0x08)
  | .ror e g d a b => some (e, wordT 0x00 d a b g 0x09)
  | .min_ e g d a b => some (e, wordT 0x00 d a b g 0x0A)
  | .max_ e g d a b => some (e, wordT 0x00 d a b g 0x0B)
  | .minu e g d a b => some (e, wordT 0x00 d a b g 0x0C)
  | .maxu e g d a b => some (e, wordT 0x00 d a b g 0x0D)
  | .abs_ e g d a => some (e, wordT 0x00 d a 0 g 0x0E)
  | .adds e g d a b => some (e, wordT 0x00 d a b g 0x10)
  | .subs e g d a b => some (e, wordT 0x00 d a b g 0x11)
  | .clz e g d a => some (e, wordT 0x00 d a 0 g 0x12)
  | .popc e g d a => some (e, wordT 0x00 d a 0 g 0x13)
  | .mul e g d a b => some (e, wordT 0x00 d a b g 0x18)
  | .mulhs e g d a b => some (e, wordT 0x00 d a b g 0x19)
  | .mulhu e g d a b => some (e, wordT 0x00 d a b g 0x1A)
  | .padd e g h d a b => some (e, wordT 0x01 d a b g (h.toNat * 64 + 0x00))
  | .psub e g h d a b => some (e, wordT 0x01 d a b g (h.toNat * 64 + 0x01))
  | .padds e g h d a b => some (e, wordT 0x01 d a b g (h.toNat * 64 + 0x02))
  | .psubs e g h d a b => some (e, wordT 0x01 d a b g (h.toNat * 64 + 0x03))
  | .paddus e g h d a b => some (e, wordT 0x01 d a b g (h.toNat * 64 + 0x04))
  | .psubus e g h d a b => some (e, wordT 0x01 d a b g (h.toNat * 64 + 0x05))
  | .pmin e g h d a b => some (e, wordT 0x01 d a b g (h.toNat * 64 + 0x06))
  | .pmax e g h d a b => some (e, wordT 0x01 d a b g (h.toNat * 64 + 0x07))
  | .pabs e g h d a => some (e, wordT 0x01 d a 0 g (h.toNat * 64 + 0x08))
  | .pshl e g h d a b => some (e, wordT 0x01 d a b g (h.toNat * 64 + 0x09))
  | .psar e g h d a b => some (e, wordT 0x01 d a b g (h.toNat * 64 + 0x0A))
  | .pshr e g h d a b => some (e, wordT 0x01 d a b g (h.toNat * 64 + 0x0B))
  | .pmull e g h d a b => some (e, wordT 0x01 d a b g (h.toNat * 64 + 0x0C))
  | .pmulhs e g h d a b => some (e, wordT 0x01 d a b g (h.toNat * 64 + 0x0D))
  | .cmpeq e g m p a b => some (e, wordT 0x02 (cmpRd m p) a b g 0x00)
  | .cmpne e g m p a b => some (e, wordT 0x02 (cmpRd m p) a b g 0x01)
  | .cmplt e g m p a b => some (e, wordT 0x02 (cmpRd m p) a b g 0x02)
  | .cmpge e g m p a b => some (e, wordT 0x02 (cmpRd m p) a b g 0x03)
  | .cmpltu e g m p a b => some (e, wordT 0x02 (cmpRd m p) a b g 0x04)
  | .cmpgeu e g m p a b => some (e, wordT 0x02 (cmpRd m p) a b g 0x05)
  | .cmptst e g m p a b => some (e, wordT 0x02 (cmpRd m p) a b g 0x08)
  | .mac e g d a b => some (e, wordT 0x03 d a b g 0x00)
  | .macu e g d a b => some (e, wordT 0x03 d a b g 0x01)
  | .msb e g d a b => some (e, wordT 0x03 d a b g 0x02)
  | .macW2 e g d a b => some (e, wordT 0x03 d a b g 0x03)
  | .macH4 e g d a b => some (e, wordT 0x03 d a b g 0x04)
  | .aclr e g d => some (e, wordT 0x03 d 0 0 g 0x05)
  | .mva e g d a b => some (e, wordT 0x03 d a b g 0x10)
  | .mvah e g d a => some (e, wordT 0x03 d a 0 g 0x11)
  | .mval e g d a => some (e, wordT 0x03 d a 0 g 0x12)
  | .mtah e g d a => some (e, wordT 0x03 d a 0 g 0x13)
  | .mtal e g d a => some (e, wordT 0x03 d a 0 g 0x14)
  | .mfs e g d a => some (e, wordT 0x04 d a 0 g 0x00)
  | .pand e g d a b => some (e, wordT 0x04 d a b g 0x08)
  | .por e g d a b => some (e, wordT 0x04 d a b g 0x09)
  | .pxor e g d a b => some (e, wordT 0x04 d a b g 0x0A)
  | .pandn e g d a b => some (e, wordT 0x04 d a b g 0x0B)
  | .mfp e g d => some (e, wordT 0x04 d 0 0 g 0x0C)
  | .mtp e g a => some (e, wordT 0x04 0 a 0 g 0x0D)
  | .jr e g a => some (e, wordT 0x05 0 a 0 g 0x00)
  | .jrl e g d a => some (e, wordT 0x05 d a 0 g 0x01)
  | .addi e d a n => some (e, wordI 0x08 d a n.toNat)
  | .andi e d a n => some (e, wordI 0x09 d a n.toNat)
  | .ori e d a n => some (e, wordI 0x0A d a n.toNat)
  | .xori e d a n => some (e, wordI 0x0B d a n.toNat)
  | .shli e d a n => some (e, wordI 0x0C d a n)
  | .shri e d a n => some (e, wordI 0x0D d a n)
  | .sari e d a n => some (e, wordI 0x0E d a n)
  | .li e d n => some (e, wordI 0x0F d 0 n.toNat)
  | .cati e d a n => some (e, wordI 0x10 d a n.toNat)
  | .cmpeqi e m p a n => some (e, wordI 0x12 (cmpRd m p) a n.toNat)
  | .cmpnei e m p a n => some (e, wordI 0x13 (cmpRd m p) a n.toNat)
  | .cmplti e m p a n => some (e, wordI 0x14 (cmpRd m p) a n.toNat)
  | .cmpgei e m p a n => some (e, wordI 0x15 (cmpRd m p) a n.toNat)
  | .cmpltui e m p a n => some (e, wordI 0x16 (cmpRd m p) a n.toNat)
  | .cmpgeui e m p a n => some (e, wordI 0x17 (cmpRd m p) a n.toNat)
  | .ld e g d a o => some (e, wordM 0x18 g d a o)
  | .lw e g d a o => some (e, wordM 0x19 g d a o)
  | .lwu e g d a o => some (e, wordM 0x1A g d a o)
  | .lh e g d a o => some (e, wordM 0x1B g d a o)
  | .lhu e g d a o => some (e, wordM 0x1C g d a o)
  | .lb e g d a o => some (e, wordM 0x1D g d a o)
  | .lbu e g d a o => some (e, wordM 0x1E g d a o)
  | .st e g d a o => some (e, wordM 0x20 g d a o)
  | .sw e g d a o => some (e, wordM 0x21 g d a o)
  | .sh e g d a o => some (e, wordM 0x22 g d a o)
  | .sb e g d a o => some (e, wordM 0x23 g d a o)
  | .aadd e g d a o => some (e, wordM 0x24 g d a o)
  | .br e pc pn disp => some (e, wordB 0x28 pc pn disp)
  | .bl e pc pn disp => some (e, wordB 0x29 pc pn disp)
  | .waitslot e g a => some (e, wordT 0x30 0 a 0 g 0x00)
  | .fetch e g d a b k => some (e, wordT 0x30 d a b g (0x08 + k.x))
  | .convset e g a b => some (e, wordT 0x30 0 a b g 0x10)
  | .emit e g a b n => some (e, wordT 0x30 0 a b g (0x18 + n.val))
  | .event e g a b n => some (e, wordT 0x30 0 a b g (0x20 + n.toNat))
  | .trigarm e g a b => some (e, wordT 0x30 0 a b g 0x28)
  | .tbread e g d a x => some (e, wordT 0x30 d a 0 g (0x30 + x.val))
  | .ckpt e g => some (e, wordT 0x30 0 0 0 g 0x38)
  | .squashed e g p => some (e, wordT 0x30 p.val 0 0 g 0x40)
  | _ => none

/-! ### The table -/

/-- The command that a word of nbits bits spells by the table: none. -/
def decodeTableWord (_nbits _w : Nat) : Option Instr := none

end Sys2Proof
end

