-- ==== Sys2Proof/Config.lean ====
section
/-!
DEFINITION. Sys2Proof/Config.lean: what one part fixes before it runs (fuse block, factory trim, straps, log entry 1)
and the free values: constants without a body that stand for what the manual leaves open. A claim that
mentions a free value holds for every value of it.
-/
namespace Sys2Proof.Config

/-- SYS_ID.GRADE of the fuse block: 1, SH-384-I (DESIGN CHOICE, log entry 1). -/
def idGrade : Nat := 1
/-- SYS_ID.REV: 1 for the silicon of the manual (R495). -/
def idRev : Nat := 1
/-- SYS_UID: the fuse block's serial number (DESIGN CHOICE 0, log entry 1). -/
def uid : Nat := 0
/-- AUTH[3:0] at reset: the pull-ups of the pins (DESIGN CHOICE, log entry 1; START_UP samples the real pins). -/
def strapAuth : Nat := 15
/-- PAIR_ROLE at reset: Leader (DESIGN CHOICE, log entry 1). -/
def strapRole : Nat := 0
/-- SP_MODE at reset (DESIGN CHOICE, log entry 1). -/
def strapSp : Nat := 0
/-- SW_MAC of the fuse block (DESIGN CHOICE 0, log entry 1). -/
def fuseMac : Nat := 0
/-- The key digest of the fuse block, SHA-384 of the 97 KEY octets of the vendor's public key: here of the base point of P-384, a key that
anyone can sign with (DESIGN CHOICE, log entry 1). -/
def keyDigest : Nat :=
  0x8c4f262412b7f9ed867606705a130de5212fd048fbaf8c3842f4a240f4b45ba0c90f82194ccdda3ed89c96b0afe1d51d
/-- TIV_TRIM.CODE: the factory centre, mid scale (DESIGN CHOICE, log entry 1). -/
def trimTivCode : Nat := 0x800000
/-- CAL_VINT: nominal 2.5 V in nV (DESIGN CHOICE, log entry 1). -/
def trimVint : Nat := 2500000000
/-- BANK_VREF: nominal 2.5 V in nV (DESIGN CHOICE, log entry 1). -/
def trimVref : Nat := 2500000000
/-- FC_CSKEW (DESIGN CHOICE 0, log entry 1). -/
def trimSkew : Nat := 0
/-- FC_CAL.GAIN: G_fc − 1 = 0, unity gain (DESIGN CHOICE, log entry 1). -/
def trimFcGain : Nat := 0
/-- FC_CAL.OFFS (DESIGN CHOICE 0, log entry 1). -/
def trimFcOffs : Nat := 0
/-- LANE_EQ.SWING (DESIGN CHOICE 0, log entry 1). -/
def trimSwing : Nat := 0
/-- LANE_EQ.PRE (DESIGN CHOICE 0, log entry 1). -/
def trimPre : Nat := 0
/-- LANE_EQ.POST (DESIGN CHOICE 0, log entry 1). -/
def trimPost : Nat := 0

/-- A value the manual leaves open, the n-th one taken (log entry 2). It has no body: nothing is known of it. -/
opaque freeValue : Nat → W64

/-- The order in which a slice steps through the 16 injection levels, by slice: a permutation that the manual does not tabulate (R110, log
entry 5). -/
opaque injOrder : Nat → Equiv.Perm (Fin 16)
/-- The first 128 of the 256 linear-phase default FIR coefficients of on-die ROM by preset and tap, signed 24 bits; the manual does not tabulate
them (R127, R138, log entry 5). -/
opaque romTap : Nat → Nat → BitVec 24
/-- The first 31 of the 63 antisymmetric Hilbert coefficients of on-die ROM, in 2^-23 (R145, log entry 5). -/
opaque hilbertTap : Nat → BitVec 24
/-- The first 16 of the 32 linear-phase taps of the fast-channel FIR, in 2^-23 (R150, log entry 5). -/
opaque fastTap : Nat → BitVec 24

end Sys2Proof.Config
end

