-- ==== Sys2Proof/Machine/Sparse.lean ====
section
/-!
DEFINITION. Sys2Proof/Machine/Sparse.lean: sparse tables in one canonical form. A table is a list of (key, entry)
pairs with strictly rising keys in which no entry equals what an unlisted key reads as; so equal tables are equal
data. Every register file, memory and per-index table of the hub is held this way.
-/
namespace Sys2Proof.Machine

/-- A sparse table: the entries that differ from what an unlisted key reads as, by rising key. -/
abbrev Sparse (α : Type) := List (Nat × α)

/-- The entry at key k; `d k` where none is listed. -/
def Sparse.get {α : Type} (d : Nat → α) : Sparse α → Nat → α
  | [], k => d k
  | (j, v) :: r, k => if j = k then v else Sparse.get d r k

/-- The table without key k. -/
def Sparse.erase {α : Type} : Sparse α → Nat → Sparse α
  | [], _ => []
  | (j, v) :: r, k => if j = k then Sparse.erase r k else (j, v) :: Sparse.erase r k

/-- The table with (k, v) put before the first greater key. -/
def Sparse.insert {α : Type} (k : Nat) (v : α) : Sparse α → Sparse α
  | [] => [(k, v)]
  | (j, u) :: r => if k < j then (k, v) :: (j, u) :: r else (j, u) :: Sparse.insert k v r

/-- The table in which key k reads v; an entry equal to what an unlisted key reads as is not listed. -/
def Sparse.set {α : Type} [DecidableEq α] (d : Nat → α) (m : Sparse α) (k : Nat) (v : α) : Sparse α :=
  if v = d k then m.erase k else (m.erase k).insert k v

/-- Every key of the table is above b, and keys rise strictly. -/
def Sparse.sortedFrom {α : Type} : Option Nat → Sparse α → Bool
  | _, [] => true
  | none, (j, _) :: r => Sparse.sortedFrom (some j) r
  | some b, (j, _) :: r => decide (b < j) && Sparse.sortedFrom (some j) r

/-- The canonical form: keys rise strictly and no entry equals its default. -/
def Sparse.wf {α : Type} [DecidableEq α] (d : Nat → α) (m : Sparse α) : Bool :=
  Sparse.sortedFrom none m && m.all (fun c => decide (c.2 ≠ d c.1))

/-- The table with the entry at key k replaced by f of it. -/
def Sparse.modify {α : Type} [DecidableEq α] (d : Nat → α) (m : Sparse α) (k : Nat) (f : α → α) : Sparse α :=
  m.set d k (f (m.get d k))

/-- f applied to the entries at the keys of a list, in order. -/
def Sparse.modifyAll {α : Type} [DecidableEq α] (d : Nat → α) (m : Sparse α) (ks : List Nat) (f : Nat → α → α) :
    Sparse α :=
  ks.foldl (fun m k => m.set d k (f k (m.get d k))) m

end Sys2Proof.Machine
end

