-- ==== Sys2Proof/Machine/Bits.lean ====
section
/-!
DEFINITION. Sys2Proof/Machine/Bits.lean: bit fields of words, sign extension, byte order, exact rounding and the
checksums the manual uses. Everything here is plain arithmetic on numbers and words.
-/
namespace Sys2Proof.Machine
open Sys2Proof

/-- The number in bits hi..lo of a word. -/
def bits (w : W64) (hi lo : Nat) : Nat := (w.toNat >>> lo) % 2 ^ (hi + 1 - lo)

/-- Bit i of a word. -/
def bit (w : W64) (i : Nat) : Bool := w.toNat.testBit i

/-- The ones of bits hi..lo. -/
def mask (hi lo : Nat) : W64 := BitVec.ofNat 64 ((2 ^ (hi + 1 - lo) - 1) <<< lo)

/-- The word with bits hi..lo set to v (its low bits). -/
def setBits (w : W64) (hi lo v : Nat) : W64 :=
  (w &&& ~~~(mask hi lo)) ||| (BitVec.ofNat 64 (v <<< lo) &&& mask hi lo)

/-- A Bool as a bit. -/
def b2n (b : Bool) : Nat := if b then 1 else 0

/-- A number of n bits read as two's complement. -/
def signed (n v : Nat) : Int := if v % 2 ^ n < 2 ^ (n - 1) then (v % 2 ^ n : Nat) else ((v % 2 ^ n : Nat) : Int) - (2 ^ n : Nat)

/-- An integer as n bits of two's complement. -/
def unsigned (n : Nat) (i : Int) : Nat := (i % (2 ^ n : Nat)).toNat

/-- An integer held to a range. -/
def clampI (lo hi i : Int) : Int := if i < lo then lo else if hi < i then hi else i

/-- An integer saturated to n bits of two's complement. -/
def satS (n : Nat) (i : Int) : Int := clampI (-(2 ^ (n - 1) : Nat)) ((2 ^ (n - 1) : Nat) - 1) i

/-- An integer saturated to n unsigned bits. -/
def satU (n : Nat) (i : Int) : Int := clampI 0 ((2 ^ n : Nat) - 1) i

/-- a / d rounded down. -/
def floorDiv (a : Int) (d : Nat) : Int := Int.fdiv a (d : Int)

/-- a / d rounded to nearest, ties to even: the rounding of the filter fabric and of MVA (R125, R192). -/
def roundEven (a : Int) (d : Nat) : Int :=
  let q := Int.fdiv a d
  let r := a - q * d
  if 2 * r < d then q else if 2 * r > d then q + 1 else if q % 2 = 0 then q else q + 1

/-- a / d rounded to nearest, ties away from zero. -/
def roundAway (a : Int) (d : Nat) : Int :=
  let m := (2 * a.natAbs + d) / (2 * d)
  if a < 0 then -(m : Int) else m

/-- a / 2^k rounded half up (towards plus infinity on a tie). -/
def roundHalfUp (a : Int) (d : Nat) : Int := Int.fdiv (2 * a + d) (2 * d)

/-- One bit of the digit-by-digit integer square root: the greatest number of the form r plus 2^k with square at most n. -/
def isqrtStep (n k r : Nat) : Nat := if (r + 2 ^ k) * (r + 2 ^ k) ≤ n then r + 2 ^ k else r

/-- The integer square root found from bit k down. -/
def isqrtFrom (n : Nat) : Nat → Nat → Nat
  | 0, r => isqrtStep n 0 r
  | k + 1, r => isqrtFrom n k (isqrtStep n (k + 1) r)

/-- The integer square root of a number below 2^256. -/
def isqrt (n : Nat) : Nat := isqrtFrom n 127 0

/-- The n bytes of a number, least significant first. -/
def leBytes : Nat → Nat → List Byte
  | 0, _ => []
  | n + 1, v => BitVec.ofNat 8 v :: leBytes n (v / 256)

/-- The number of bytes given least significant first. -/
def ofLeBytes : List Byte → Nat
  | [] => 0
  | b :: r => b.toNat + 256 * ofLeBytes r

/-- The n bytes of a number, most significant first. -/
def beBytes (n v : Nat) : List Byte := (leBytes n v).reverse

/-- One bit of a reflected CRC of a polynomial. -/
def crcBitR (poly c : Nat) : Nat := if c % 2 = 1 then (c / 2) ^^^ poly else c / 2

/-- A byte through a reflected CRC. -/
def crcByteR (poly c : Nat) (b : Byte) : Nat :=
  (List.range 8).foldl (fun c _ => crcBitR poly c) (c ^^^ b.toNat)

/-- CRC-32C of bytes: reflected polynomial 0x82F63B78, register all ones, result complemented (R313). -/
def crc32c (bs : List Byte) : Nat := (bs.foldl (crcByteR 0x82F63B78) 0xFFFFFFFF) ^^^ 0xFFFFFFFF

/-- One bit of an unreflected CRC of width n. -/
def crcBitF (n poly c : Nat) : Nat := if c.testBit (n - 1) then ((c * 2) ^^^ poly) % 2 ^ n else (c * 2) % 2 ^ n

/-- A byte through an unreflected CRC of width n ≥ 8. -/
def crcByteF (n poly c : Nat) (b : Byte) : Nat :=
  (List.range 8).foldl (fun c _ => crcBitF n poly c) (c ^^^ (b.toNat <<< (n - 8)))

/-- An unreflected CRC of width n over bytes from a start value. -/
def crcF (n poly init : Nat) (bs : List Byte) : Nat := bs.foldl (crcByteF n poly) init

/-- A Bool list of the bits of a number, least significant first. -/
def bitList (n v : Nat) : List Bool := (List.range n).map (fun i => v.testBit i)

/-- The number of 1 bits among the low n bits. -/
def popcount (n v : Nat) : Nat := ((bitList n v).filter id).length

/-- The indices below n whose bit is set. -/
def bitsSet (n v : Nat) : List Nat := (List.range n).filter (fun i => v.testBit i)

/-- v with bit i set to b. -/
def withBit (v i : Nat) (b : Bool) : Nat :=
  if v.testBit i = b then v else if b then v + 2 ^ i else v - 2 ^ i

/-- A number no greater than its limit. -/
def capAt (limit v : Nat) : Nat := if limit < v then limit else v

/-- The least element of a list of numbers, if any. -/
def minList : List Nat → Option Nat
  | [] => none
  | x :: r => match minList r with
    | none => some x
    | some y => some (if x < y then x else y)

/-- The ceiling of a / b for b > 0. -/
def ceilDiv (a b : Nat) : Nat := (a + b - 1) / b

/-- An element of a list, or a default past its end. -/
def nth {α : Type} (l : List α) (i : Nat) (d : α) : α := l.getD i d

/-- The list with element i replaced. -/
def setNth {α : Type} (l : List α) (i : Nat) (v : α) : List α := l.set i v

/-- √(num / den) rounded to nearest, ties to even (R144). -/
def roundSqrt (num den : Nat) : Nat :=
  let k := isqrt (num / den)
  let mid := den * (4 * k * k + 4 * k + 1)
  if 4 * num < mid then k else if mid < 4 * num then k + 1 else if k % 2 = 0 then k else k + 1

/-- The terms of a Taylor series in units of 2^-96: term k of x^k / k!, n more terms, signs by the parity of `i`. -/
def taylor (x2 : Int) : Nat → Nat → Int → Int
  | 0, _, _ => 0
  | n + 1, k, t => t - taylor x2 n (k + 2) (t * x2 / 2 ^ 96 / (((k + 1) * (k + 2) : Nat) : Int))

/-- 2π in units of 2^-96. -/
def twoPi : Int := 497805226624462170461043889244

/-- The angle 2π·a/b in units of 2^-96, taken within −π to π. -/
def angle (a : Int) (b : Nat) : Int :=
  let r := a % (b : Int)
  (if 2 * r ≤ (b : Int) then r else r - b) * twoPi / (b : Int)

/-- sin(2π·a/b) in units of 2^-96. -/
def sinOf (a : Int) (b : Nat) : Int :=
  let x := angle a b
  taylor (x * x / 2 ^ 96) 30 1 x

/-- cos(2π·a/b) in units of 2^-96. -/
def cosOf (a : Int) (b : Nat) : Int :=
  let x := angle a b
  taylor (x * x / 2 ^ 96) 30 0 (2 ^ 96)

/-- √2 in units of 2^-96. -/
def sqrt2 : Int := (isqrt (2 ^ 193) : Nat)

end Sys2Proof.Machine
end

