-- ==== Sys2Proof/Machine/Crypto.lean ====
section
/-!
DEFINITION. Sys2Proof/Machine/Crypto.lean: SHA-384 and ECDSA over the curve P-384, by which a firmware image is signed (R419, after FIPS 180-4
and FIPS 186-5).
-/
namespace Sys2Proof.Machine
open Sys2Proof

/-! ### SHA-384 -/

/-- The round constants of SHA-384: the first 64 bits of the fractional parts of the cube roots of the first eighty primes. -/
def shaConst : List W64 :=
  [0x428A2F98D728AE22#64, 0x7137449123EF65CD#64, 0xB5C0FBCFEC4D3B2F#64, 0xE9B5DBA58189DBBC#64,
   0x3956C25BF348B538#64, 0x59F111F1B605D019#64, 0x923F82A4AF194F9B#64, 0xAB1C5ED5DA6D8118#64,
   0xD807AA98A3030242#64, 0x12835B0145706FBE#64, 0x243185BE4EE4B28C#64, 0x550C7DC3D5FFB4E2#64,
   0x72BE5D74F27B896F#64, 0x80DEB1FE3B1696B1#64, 0x9BDC06A725C71235#64, 0xC19BF174CF692694#64,
   0xE49B69C19EF14AD2#64, 0xEFBE4786384F25E3#64, 0x0FC19DC68B8CD5B5#64, 0x240CA1CC77AC9C65#64] ++
  [0x2DE92C6F592B0275#64, 0x4A7484AA6EA6E483#64, 0x5CB0A9DCBD41FBD4#64, 0x76F988DA831153B5#64,
   0x983E5152EE66DFAB#64, 0xA831C66D2DB43210#64, 0xB00327C898FB213F#64, 0xBF597FC7BEEF0EE4#64,
   0xC6E00BF33DA88FC2#64, 0xD5A79147930AA725#64, 0x06CA6351E003826F#64, 0x142929670A0E6E70#64,
   0x27B70A8546D22FFC#64, 0x2E1B21385C26C926#64, 0x4D2C6DFC5AC42AED#64, 0x53380D139D95B3DF#64,
   0x650A73548BAF63DE#64, 0x766A0ABB3C77B2A8#64, 0x81C2C92E47EDAEE6#64, 0x92722C851482353B#64] ++
  [0xA2BFE8A14CF10364#64, 0xA81A664BBC423001#64, 0xC24B8B70D0F89791#64, 0xC76C51A30654BE30#64,
   0xD192E819D6EF5218#64, 0xD69906245565A910#64, 0xF40E35855771202A#64, 0x106AA07032BBD1B8#64,
   0x19A4C116B8D2D0C8#64, 0x1E376C085141AB53#64, 0x2748774CDF8EEB99#64, 0x34B0BCB5E19B48A8#64,
   0x391C0CB3C5C95A63#64, 0x4ED8AA4AE3418ACB#64, 0x5B9CCA4F7763E373#64, 0x682E6FF3D6B2B8A3#64,
   0x748F82EE5DEFB2FC#64, 0x78A5636F43172F60#64, 0x84C87814A1F0AB72#64, 0x8CC702081A6439EC#64] ++
  [0x90BEFFFA23631E28#64, 0xA4506CEBDE82BDE9#64, 0xBEF9A3F7B2C67915#64, 0xC67178F2E372532B#64,
   0xCA273ECEEA26619C#64, 0xD186B8C721C0C207#64, 0xEADA7DD6CDE0EB1E#64, 0xF57D4F7FEE6ED178#64,
   0x06F067AA72176FBA#64, 0x0A637DC5A2C898A6#64, 0x113F9804BEF90DAE#64, 0x1B710B35131C471B#64,
   0x28DB77F523047D84#64, 0x32CAAB7B40C72493#64, 0x3C9EBE0A15C9BEBC#64, 0x431D67C49C100D4C#64,
   0x4CC5D4BECB3E42B6#64, 0x597F299CFC657E2A#64, 0x5FCB6FAB3AD6FAEC#64, 0x6C44198C4A475817#64]

/-- The initial value of SHA-384. -/
def shaInit : List W64 :=
  [0xCBBB9D5DC1059ED8#64, 0x629A292A367CD507#64, 0x9159015A3070DD17#64, 0x152FECD8F70E5939#64,
   0x67332667FFC00B31#64, 0x8EB44A8768581511#64, 0xDB0C2E0D64F98FA7#64, 0x47B5481DBEFA4FA4#64]

/-- The octets of a message with its padding: a bit 1, bits 0, and the length in 128 bits, up to whole blocks of 128 octets. -/
def shaPad (m : List Byte) : List Byte :=
  m ++ 0x80#8 :: List.replicate ((239 - m.length % 128) % 128) 0 ++ beBytes 16 (8 * m.length)

/-- The number that octets spell, the first the most significant. -/
def ofBeBytes (l : List Byte) : Nat := l.foldl (fun a b => 256 * a + b.toNat) 0

/-- n words of eight octets, the most significant octet first. -/
def shaWords : Nat → List Byte → List W64
  | 0, _ => []
  | n + 1, l => BitVec.ofNat 64 (ofBeBytes (l.take 8)) :: shaWords n (l.drop 8)

/-- n further words of a message schedule whose words stand newest first. -/
def shaExpand : Nat → List W64 → List W64
  | 0, l => l
  | n + 1, l =>
    let a := l.getD 1 0
    let b := l.getD 14 0
    let s1 := a.rotateRight 19 ^^^ a.rotateRight 61 ^^^ (a >>> 6)
    let s0 := b.rotateRight 1 ^^^ b.rotateRight 8 ^^^ (b >>> 7)
    shaExpand n ((s1 + l.getD 6 0 + s0 + l.getD 15 0) :: l)

/-- One round on the eight working words. -/
def shaRound (v : List W64) (kw : W64 × W64) : List W64 :=
  match v with
  | [a, b, c, d, e, f, g, h] =>
    let s1 := e.rotateRight 14 ^^^ e.rotateRight 18 ^^^ e.rotateRight 41
    let ch := (e &&& f) ^^^ (~~~e &&& g)
    let t1 := h + s1 + ch + kw.1 + kw.2
    let s0 := a.rotateRight 28 ^^^ a.rotateRight 34 ^^^ a.rotateRight 39
    let mj := (a &&& b) ^^^ (a &&& c) ^^^ (b &&& c)
    [t1 + s0 + mj, a, b, c, d + t1, e, f, g]
  | _ => v

/-- The hash value after one block of 128 octets. -/
def shaBlock (h : List W64) (block : List Byte) : List W64 :=
  let w := (shaExpand 64 (shaWords 16 block).reverse).reverse
  h.zipWith (fun x y => x + y) ((shaConst.zip w).foldl shaRound h)

/-- The hash value after n blocks. -/
def shaBlocks : Nat → List W64 → List Byte → List W64
  | 0, h, _ => h
  | n + 1, h, l => shaBlocks n (shaBlock h (l.take 128)) (l.drop 128)

/-- SHA-384 of octets as a number of 384 bits. -/
def sha384 (m : List Byte) : Nat :=
  let l := shaPad m
  ((shaBlocks (l.length / 128) shaInit l).take 6).foldl (fun a w => 2 ^ 64 * a + w.toNat) 0

/-! ### The curve P-384 -/

/-- The prime of the field. -/
def curveP : Nat := 2 ^ 384 - 2 ^ 128 - 2 ^ 96 + 2 ^ 32 - 1
/-- The order of the base point. -/
def curveN : Nat := 0xffffffffffffffffffffffffffffffffffffffffffffffffc7634d81f4372ddf581a0db248b0a77aecec196accc52973
/-- The coefficient b of y² = x³ − 3x + b. -/
def curveB : Nat := 0xb3312fa7e23ee7e4988e056be3f82d19181d9c6efe8141120314088f5013875ac656398d8a2ed19d2a85c8edd3ec2aef
/-- The base point. -/
def curveGx : Nat := 0xaa87ca22be8b05378eb1c71ef320ad746e1d3b628ba79b9859f741e082542a385502f25dbf55296c3a545e3872760ab7
/-- Its second coordinate. -/
def curveGy : Nat := 0x3617de4a96262c6f5d9e98bf9292dc29f8f41dbd289a147ce9da3113b5f0b8c00a60b1ce1d7e819d7a431d7c90ea0e5f

/-- A difference in the field. -/
def fieldSub (a b : Nat) : Nat := (a + curveP - b % curveP) % curveP
/-- A product in the field. -/
def fieldMul (a b : Nat) : Nat := a * b % curveP

/-- a to the power of the lowest k bits of e, modulo m. -/
def powMod (m a e : Nat) (k : Nat) : Nat :=
  (List.range k).foldl (fun r i => let q := r * r % m; if e.testBit (k - 1 - i) then q * a % m else q) (1 % m)

/-- The inverse modulo a prime of 384 bits. -/
def invMod (m a : Nat) : Nat := powMod m (a % m) (m - 2) 384

/-- A point in Jacobian coordinates: x = X / Z², y = Y / Z³; the point at infinity has Z = 0. -/
structure JPoint where
  x : Nat
  y : Nat
  z : Nat
  deriving DecidableEq, Repr

/-- The point at infinity. -/
def JPoint.zero : JPoint := { x := 1, y := 1, z := 0 }

/-- A point doubled. -/
def JPoint.double (p : JPoint) : JPoint :=
  let y2 := fieldMul p.y p.y
  let z2 := fieldMul p.z p.z
  let s := fieldMul 4 (fieldMul p.x y2)
  let m := fieldMul 3 (fieldMul (fieldSub p.x z2) (p.x + z2))
  let x := fieldSub (fieldMul m m) (2 * s)
  { x := x, y := fieldSub (fieldMul m (fieldSub s x)) (fieldMul 8 (fieldMul y2 y2)), z := fieldMul 2 (fieldMul p.y p.z) }

/-- Two points added. -/
def JPoint.add (p q : JPoint) : JPoint :=
  if p.z = 0 then q
  else if q.z = 0 then p
  else
    let pz := fieldMul p.z p.z
    let qz := fieldMul q.z q.z
    let u1 := fieldMul p.x qz
    let s1 := fieldMul p.y (fieldMul q.z qz)
    let h := fieldSub (fieldMul q.x pz) u1
    let r := fieldSub (fieldMul q.y (fieldMul p.z pz)) s1
    if h = 0 then (if r = 0 then p.double else JPoint.zero)
    else
      let h2 := fieldMul h h
      let h3 := fieldMul h h2
      let v := fieldMul u1 h2
      let x := fieldSub (fieldSub (fieldMul r r) h3) (2 * v)
      { x := x, y := fieldSub (fieldMul r (fieldSub v x)) (fieldMul s1 h3), z := fieldMul h (fieldMul p.z q.z) }

/-- a · P + b · Q. -/
def jointMul (a b : Nat) (p q : JPoint) : JPoint :=
  let pq := p.add q
  (List.range 384).foldl (fun r i =>
    let d := r.double
    let k := 383 - i
    if a.testBit k then (if b.testBit k then d.add pq else d.add p) else if b.testBit k then d.add q else d) JPoint.zero

/-- An affine point lies on the curve. -/
def onCurve (x y : Nat) : Bool :=
  decide (x < curveP) && decide (y < curveP) && fieldMul y y == fieldSub (fieldMul x (fieldMul x x) + curveB) (3 * x)

/-- The ECDSA signature (r, s) of a hash value under the public key (x, y) verifies (R419, FIPS 186-5). -/
def ecdsaVerify (x y r s hash : Nat) : Bool :=
  if decide (1 ≤ r ∧ r < curveN ∧ 1 ≤ s ∧ s < curveN) && onCurve x y then
    let w := invMod curveN s
    let p := jointMul (hash * w % curveN) (r * w % curveN) { x := curveGx, y := curveGy, z := 1 } { x := x, y := y, z := 1 }
    let zi := invMod curveP p.z
    p.z != 0 && fieldMul p.x (fieldMul zi zi) % curveN == r
  else false

/-! ### The signature of an image (R419) -/

/-- The public key of 97 octets: 0x04, X and Y; the digest of the octets is the one of the fuse block. -/
def keyAccepted (key : List Byte) : Bool := sha384 key == Config.keyDigest

/-- The signature of an image of given octets verifies: taken over all of them, octets 168 to 263 counted as 0, with the key of octets 64 to 160
(R419). -/
def imageSigned (image : List Byte) : Bool :=
  let key := (image.drop 64).take 97
  let sig := (image.drop 168).take 96
  let body := image.take 168 ++ List.replicate 96 0 ++ image.drop 264
  decide ((key.headD 0).toNat = 4) &&
    ecdsaVerify (ofBeBytes ((key.drop 1).take 48)) (ofBeBytes (key.drop 49)) (ofBeBytes (sig.take 48)) (ofBeBytes (sig.drop 48)) (sha384 body)

end Sys2Proof.Machine
end

