-- ==== Sys2Proof/Machine/Codec.lean ====
section
/-!
DEFINITION. Sys2Proof/Machine/Codec.lean: fixed-ratio block compression as plain functions: prediction, widths, the choice of
shift and order, the bit string of a block, and the two decoders (R331 to R343).
-/
namespace Sys2Proof.Machine
open Sys2Proof

/-- The bit budget of a ratio code (R331). -/
def budget (ratio : Nat) : Nat := if ratio = 1 then 1024 else if ratio = 2 then 512 else if ratio = 3 then 256 else 2048

/-- A number modulo 2^32 read as signed (R333). -/
def wrap32 (i : Int) : Int := signed 32 (unsigned 32 i)

/-- The prediction of effective order e from the values before, newest first (R333). -/
def predict (e : Nat) (prev : List Int) : Int :=
  let a := prev.getD 0 0
  let b := prev.getD 1 0
  let c := prev.getD 2 0
  if e = 0 then 0 else if e = 1 then a else if e = 2 then 2 * a - b else 3 * a - 3 * b + c

/-- The residuals r_1, r_2, … of order k of the values that follow `prev` (newest first), the next index being i (R333). -/
def residuals (k : Nat) : Nat → List Int → List Int → List Int
  | _, _, [] => []
  | i, prev, q :: rest => wrap32 (q - predict (if i < k then i else k) prev) :: residuals k (i + 1) (q :: prev) rest

/-- The least width that holds x in two's complement; 0 for 0 (R335). -/
def width (x : Int) : Nat :=
  if x = 0 then 0
  else (((List.range 33).find? (fun w => decide (1 ≤ w) && decide (-(2 ^ (w - 1) : Nat) ≤ x) &&
    decide (x ≤ ((2 ^ (w - 1) : Nat) : Int) - 1))).getD 32)

/-- The greatest width of a list. -/
def widthOf (l : List Int) : Nat := l.foldl (fun m x => Nat.max m (width x)) 0

/-- The four groups of the residuals r_1 to r_63: 15, 16, 16 and 16 (R334). -/
def groups (r : List Int) : List (List Int) :=
  [r.take 15, (r.drop 15).take 16, (r.drop 31).take 16, (r.drop 47).take 16]

/-- A choice of the coder: order, seed width, group widths and length (R335, R337). -/
structure Coding where
  order : Nat
  seedW : Nat
  ws    : List Nat
  len   : Nat
  deriving DecidableEq, Repr

/-- The coding of quantised values with order k (R334, R335). -/
def codingOf (k : Nat) (q : List Int) : Coding :=
  let r := residuals k 1 [q.getD 0 0] (q.drop 1)
  let ws := (groups r).map widthOf
  let sw := Nat.max 1 (width (q.getD 0 0))
  { order := k, seedW := sw, ws := ws
    len := 56 + sw + 15 * ws.getD 0 0 + 16 * (ws.getD 1 0 + ws.getD 2 0 + ws.getD 3 0) }

/-- The best order that fits a budget at one shift: the least length, and the lower order between equal lengths (R337). -/
def bestOrder (b : Nat) (q : List Int) : Option Coding :=
  (List.range 4).foldl (fun best k =>
    let c := codingOf k q
    if b < c.len then best
    else match best with
      | none => some c
      | some d => if c.len < d.len then some c else some d) none

/-- The values quantised by an arithmetic shift (R332). -/
def quantise (s : Nat) (v : List Int) : List Int := v.map (fun x => Int.fdiv x (2 ^ s : Nat))

/-- The first shift from s up, n shifts tried, at which some order fits (R337). -/
def chooseFrom (b : Nat) (v : List Int) : Nat → Nat → Option (Nat × Coding)
  | _, 0 => none
  | s, n + 1 => match bestOrder b (quantise s v) with
    | some c => some (s, c)
    | none => chooseFrom b v (s + 1) n

/-- The choice of shift and order; none for an unfit block (R337, R338). -/
def chooseCoding (ratio : Nat) (v : List Int) : Option (Nat × Coding) := chooseFrom (budget ratio) v 0 25

/-- The w low bits of a number, most significant first. -/
def bitsBE (w v : Nat) : List Bool := (List.range w).map (fun i => v.testBit (w - 1 - i))

/-- The number whose bits are given most significant first. -/
def ofBitsBE (l : List Bool) : Nat := l.foldl (fun a b => 2 * a + b2n b) 0

/-- The octets of 32-bit values, most significant first. -/
def valueBytes (d : List Int) : List Byte := d.flatMap (fun x => beBytes 4 (unsigned 32 x))

/-- CRC16 of decoded values: polynomial 0x1021, initial value 0xFFFF (R336). -/
def crc16 (d : List Int) : Nat := crcF 16 0x1021 0xFFFF (valueBytes d)

/-- A string of bits cut into 64-bit words, the first bit the most significant. -/
def wordsOfBits : Nat → List Bool → List W64
  | 0, _ => []
  | n + 1, l => BitVec.ofNat 64 (ofBitsBE ((l ++ List.replicate 64 false).take 64)) :: wordsOfBits n (l.drop 64)

/-- The bits of 64-bit words, most significant first. -/
def bitsOfWords (l : List W64) : List Bool := l.flatMap (fun w => bitsBE 64 w.toNat)

/-- A coded block as a bit string: header, seed, width codes, residuals; the padding follows (R334). -/
def blockBits (s : Nat) (c : Coding) (v : List Int) : List Bool :=
  let q := quantise s v
  let d := q.map (fun x : Int => x * ((2 ^ s : Nat) : Int))
  let r := residuals c.order 1 [q.getD 0 0] (q.drop 1)
  bitsBE 3 c.order ++ bitsBE 5 s ++ bitsBE 5 (c.seedW - 1) ++ bitsBE 3 0 ++ bitsBE 16 (crc16 d) ++
    bitsBE c.seedW (unsigned c.seedW (q.getD 0 0)) ++ c.ws.flatMap (bitsBE 6) ++
    ((groups r).zip c.ws).flatMap (fun p => p.1.flatMap (fun x => bitsBE p.2 (unsigned p.2 x)))

/-- The words of a coded block (R334). -/
def blockWords (ratio s : Nat) (c : Coding) (v : List Int) : List W64 :=
  wordsOfBits (budget ratio / 64) (blockBits s c v)

/-- A raw block: 64 values of 32 bits, most significant octet first (R331). -/
def rawWords (v : List Int) : List W64 := wordsOfBits 32 (v.flatMap (fun x => bitsBE 32 (unsigned 32 x)))

/-- The values v0 to v63 of COUNT values: the last one repeats (R323, R331). -/
def fill64 (v : List Int) : List Int := v ++ List.replicate (64 - v.length) (v.getD (v.length - 1) 0)

/-- Signed residuals of one group taken from a bit string, with the rest; bits past the end read as 0 (R341, R343). -/
def takeGroup (w : Nat) : Nat → List Bool → List Int × List Bool
  | 0, l => ([], l)
  | n + 1, l =>
    let x := if w = 0 then 0 else signed w (ofBitsBE ((l ++ List.replicate w false).take w))
    let (rest, l') := takeGroup w n (l.drop w)
    (x :: rest, l')

/-- The values that residuals give, in order, from the values before, newest first (R341). -/
def unpredict (k : Nat) : Nat → List Int → List Int → List Int
  | _, _, [] => []
  | i, prev, r :: rest =>
    let q := wrap32 (predict (if i < k then i else k) prev + r)
    q :: unpredict k (i + 1) (q :: prev) rest

/-- The fields of a coded block: ORDER, SHIFT, SWM1, reserved, CRC16, seed, width codes, and what follows. -/
structure BlockFields where
  order : Nat
  shift : Nat
  swm1  : Nat
  rsv   : Nat
  crc   : Nat
  seed  : Int
  ws    : List Nat
  rest  : List Bool
  deriving DecidableEq, Repr

/-- The fields of a block's bit string (R334). -/
def blockFields (l : List Bool) : BlockFields :=
  let num (lo n : Nat) : Nat := ofBitsBE ((l.drop lo).take n)
  let sw := num 8 5 + 1
  { order := num 0 3, shift := num 3 5, swm1 := num 8 5, rsv := num 13 3, crc := num 16 16
    seed := signed sw (num 32 sw)
    ws := (List.range 4).map (fun i => num (32 + sw + 6 * i) 6)
    rest := l.drop (56 + sw) }

/-- L of a block's fields (R334). -/
def BlockFields.len (f : BlockFields) : Nat :=
  56 + (f.swm1 + 1) + 15 * f.ws.getD 0 0 + 16 * (f.ws.getD 1 0 + f.ws.getD 2 0 + f.ws.getD 3 0)

/-- The decoded values of a block's fields with an order, a shift and width codes (R341). -/
def BlockFields.decode (f : BlockFields) (order shift : Nat) (ws : List Nat) : List Int :=
  let (r0, l0) := takeGroup (ws.getD 0 0) 15 f.rest
  let (r1, l1) := takeGroup (ws.getD 1 0) 16 l0
  let (r2, l2) := takeGroup (ws.getD 2 0) 16 l1
  let (r3, _) := takeGroup (ws.getD 3 0) 16 l2
  (f.seed :: unpredict order 1 [f.seed] (r0 ++ r1 ++ r2 ++ r3)).map (fun q : Int => wrap32 (q * ((2 ^ shift : Nat) : Int)))

/-- The full check of a block from a host: the fault mask and the decoded values (R342). -/
def decodeHost (ratio : Nat) (words : List W64) : Nat × List Int :=
  let b := budget ratio
  let l := (bitsOfWords words).take b
  let f := blockFields l
  let m1 := decide (3 < f.order)
  let m2 := decide (24 < f.shift)
  let m3 := f.ws.any (fun w => decide (32 < w))
  let m4 := !m3 && decide (b < f.len)
  let pad := !m3 && !m4 && (l.drop f.len).any id
  let d := f.decode f.order f.shift f.ws
  let m5 := !m1 && !m2 && !m3 && !m4 && decide (crc16 d ≠ f.crc)
  let m0 := decide (f.rsv ≠ 0) || pad
  (b2n m0 + 2 * b2n m1 + 4 * b2n m2 + 8 * b2n m3 + 16 * b2n m4 + 32 * b2n m5, d)

/-- The decoding of a block from a peer: fields read without tests, CRC16 checked at the end (R343). -/
def decodePeer (ratio : Nat) (words : List W64) : List Int × Bool :=
  let f := blockFields ((bitsOfWords words).take (budget ratio))
  let d := f.decode (if 3 < f.order then 3 else f.order) (if 24 < f.shift then 24 else f.shift)
    (f.ws.map (fun w => if 32 < w then 32 else w))
  (d, crc16 d == f.crc)

/-- The values of a raw block (R331). -/
def rawValues (words : List W64) : List Int :=
  words.flatMap (fun w => [signed 32 (w.toNat / 2 ^ 32), signed 32 (w.toNat % 2 ^ 32)])

end Sys2Proof.Machine
end

