-- ==== Sys2Proof/Machine/Conds.lean ====
section
/-!
DEFINITION. Sys2Proof/Machine/Conds.lean: the conditions of the hub under their names, the block of each (R460, R494),
its code 0x8000 + 256·B + i, with i its place in its block's names in ASCII order (R442, R460), and its class
and level (R462).
-/
namespace Sys2Proof.Machine

/-- The conditions of the hub, by block and, within a block, in ascending ASCII order (R460, R494). -/
inductive Cond where
  | DRAM_CHANNEL_FAIL | HUB_ESCALATED | HUB_OVERTEMP | SYS_AUTH_DENIED | SYS_AUTH_LANE | SYS_AUTH_ORPHAN 
  | SYS_AUTH_RAISE | SYS_FIELD_RANGE | SYS_LOCKED | SYS_MODE_AUTH | SYS_MODE_BUSY | SYS_MODE_CANCELLED 
  | SYS_MODE_CANCEL_PORT | SYS_MODE_CHANGE | SYS_MODE_ILLEGAL | SYS_MODE_LATE | SYS_MODE_NOPEND
  | CFG_DIVERGED | CFG_DRAM_PARTITION | CFG_EPOCH_MISMATCH | CFG_EPOCH_OLD | CFG_LOAD_MODE | CFG_NONE 
  | CFG_OVL_ABSENT | CFG_OVL_ACTIVE | CFG_OVL_BIND | CFG_OVL_BUSY | CFG_OVL_CANCELLED | CFG_OVL_LATE 
  | CFG_OVL_REFUSED | CFG_OVL_SCOPE | CFG_SECTION | CFG_STORE_BUSY | CFG_WRITE_ORDER | CFG_WRITE_SIZE
  | TIME_ALARM | TIME_ALARM_LIVE | TIME_ALARM_PAST | TIME_ALARM_RANGE | TIME_ALARM_UNSET | TIME_CMD_AUTH 
  | TIME_CMD_ILLEGAL | TIME_CMD_NOREF | TIME_CMD_SRC | TIME_CMD_UNSET | TIME_DOMAIN | TIME_DOMAIN_DUP 
  | TIME_JUMP_REFUSED | TIME_LOCKED | TIME_MASTER_CHANGE | TIME_PPS_RANGE | TIME_PPS_SRC 
  | TIME_PTP_RANGE | TIME_SAMPLE_LIVE | TIME_SERVO_RANGE | TIME_SET_BACK | TIME_SLEW_ABANDONED 
  | TIME_SLEW_LIMIT | TIME_SRC | TIME_START_MARK | TIME_STATE | TIME_STEP | TIME_STEP_BACK 
  | TIME_STEP_LIVE | TIME_TRANSPORT | TIME_UNLOCKED
  | TIV_BUSY | TIV_CFG_LIVE | TIV_CFG_SAME | TIV_CFG_SRC | TIV_CTL_BOTH | TIV_NO_SIGNAL | TIV_PIN_RANGE 
  | TIV_TIMEOUT | TIV_TRIM_LIMIT
  | LANE_DOWN | LANE_EQ_RANGE | LANE_FAILOVER | LANE_FEC | LANE_FIXRATE_ROLE | LANE_GROUP 
  | LANE_GROUP_DOWN | LANE_RATES | LANE_RATE_BARRED | LANE_ROLE | LANE_ROLE_LIVE | LANE_ROLE_MISMATCH 
  | LANE_SELF | LANE_TEST_COMBO | LANE_TEST_GROUP | LANE_TEST_PAT | LANE_TEST_ROLE | LANE_TEST_SELF 
  | LANE_UP
  | SW_AGE | SW_ENCAP | SW_LOOP | SW_MAC_BAD | SW_QLIM_RANGE | SW_VID
  | PAIR_BUSY | PAIR_CFG_LIVE | PAIR_CFG_MISMATCH | PAIR_CONTENTION | PAIR_DOUBLE_FAULT | PAIR_HANDOVER 
  | PAIR_HANDOVER_REFUSED | PAIR_LATE | PAIR_MIRRORED | PAIR_NOT_READY | PAIR_NO_LINK | PAIR_PROOF_FAIL 
  | PAIR_PROOF_PASS | PAIR_PROOF_RANGE | PAIR_READY | PAIR_ROLE_STATE | PAIR_SEQ_SKEW | PAIR_SPLIT_GUARD 
  | PAIR_SWITCHOVER | PAIR_TAKEBACK
  | ENG_AHEAD | ENG_CONVSET_LATE | ENG_CTL_RANGE | ENG_FAULT | ENG_LATE | ENG_ROLE | ENG_ROLE_LIVE 
  | ENG_TRIGARM_MODE | ENG_WATCHDOG
  | QUE_CFG_LIVE | QUE_FLUSH | QUE_OVERLAP | QUE_OVF | QUE_PLACE | QUE_POISON | QUE_PROD
  | LED_RATIO | LED_REPLAY_BUSY | LED_REPLAY_RANGE | LED_REPLAY_STREAM | STRM_AUTH | STRM_CHANS 
  | STRM_CHAN_OUT | STRM_DISABLED | STRM_FRAMING | STRM_KIND | STRM_LIVE | STRM_QUEUE | STRM_RATIO
  | CAP_ARM_MASK | CAP_ARM_OVERLAP | CAP_ARM_RANGE | CAP_ARM_SIZE | CAP_ARM_SPILL | CAP_CLOSED 
  | CAP_COPY_BUSY | CAP_COPY_RANGE | CAP_DESC_BUSY | CAP_DESC_INDEX | CAP_DESC_STATE | CAP_LOCKED 
  | CAP_REARM_REFUSED | TRG_ARM_MODE | TRG_BUSY | TRG_CFG_INVALID | TRG_CFG_LIVE | TRG_CTL_BOTH
  | CAL_ABANDON | CAL_ACC_DONE | CAL_APPLIED | CAL_BANK_DEVIANT | CAL_CONC_RANGE | CAL_EXTEND 
  | CAL_EXTREF_MISMATCH | CAL_FC_SKIPPED | CAL_NOISY | CAL_OUTLIER | CAL_PASS_END | CAL_PASS_START 
  | CAL_RANGE | CAL_SET_LOADED | CAL_SKIP | CAL_STORE_FAIL | CAL_SUSPENDED | CAL_TDELTA_RANGE
  | UPD_BUSY | UPD_COPY_FAIL | UPD_FLASH_FAIL | UPD_HEADER | UPD_INCOMPLETE | UPD_KEY | UPD_LATE_CANCEL 
  | UPD_NOT_VERIFIED | UPD_OLDER | UPD_PART | UPD_PIECE_IMAGE | UPD_PIECE_INDEX | UPD_RUN_CORRUPT 
  | UPD_RUN_UNUSABLE | UPD_SECTION | UPD_SIG | UPD_TRAV_CFG | UPD_TRAV_LATE | UPD_TRAV_LOAD 
  | UPD_TRAV_MODE | UPD_TRAV_REFUSED
  | CH_AAF | CH_AAF_CARRIER | CH_AVG_AC | CH_AVG_LIVE | CH_AVG_RANGE | CH_CFG_LIVE | CH_DETW 
  | CH_EX_LEVEL | CH_EX_LIMITS | CH_EX_LIVE | CH_FD_RANGE | CH_FLT_CARRIER | CH_FLT_LIVE | CH_LOST 
  | CH_PRED_RANGE | CH_PRESET | CH_RANGE | CH_STAGE_FAULT | CH_WB_BIAS | CH_WB_RANGE | EX_LATCHED 
  | EX_LIMIT | EX_SHORT | WB_EXC_OPEN | WB_EXRET_OPEN | WB_RESTORED | WB_SENSE_OPEN
  | BANK_CFG_LIVE | BANK_CH_ESCALATED | BANK_CONV_FAULT | BANK_DDS_FAULT | BANK_EXMODE | BANK_K_RANGE 
  | BANK_PIPE_FAULT | BANK_REF_LIVE | BANK_REF_SEL | BANK_SPARE_BUSY | BANK_SPARE_PREEMPT 
  | BANK_SUPV_FAULT | CONV_STARVED | REF_FALLBACK | REF_SETTLE_LATE | REF_UNSTABLE
  | FC_BW | FC_CFG_LIVE | FC_CMP_LIVE | FC_TERM
  | FLT_COEF_ACTIVE | FLT_COEF_BANK | FLT_DELAY_SET | FLT_OFFGRID | FLT_SWAP_BUSY | FLT_SWAP_LATE 
  | FLT_SWAP_NOTREADY | FLT_SYNC | FLT_SYNC_IGNORED
  | CMP_CODER_FAULT | CMP_PEER_CRC | CMP_RX_LIVE | CMP_RX_PLACE | CMP_SELFCHECK | CMP_UNFIT
  | SSP_DIV | SSP_LATE | SSP_LIVE | SSP_NB | SSP_OVR
  deriving DecidableEq, Repr

/-- The block number B and the index i of a condition in its block (R460). -/
def Cond.place : Cond → Nat × Nat
  | .DRAM_CHANNEL_FAIL => (0, 0)
  | .HUB_ESCALATED => (0, 1)
  | .HUB_OVERTEMP => (0, 2)
  | .SYS_AUTH_DENIED => (0, 3)
  | .SYS_AUTH_LANE => (0, 4)
  | .SYS_AUTH_ORPHAN => (0, 5)
  | .SYS_AUTH_RAISE => (0, 6)
  | .SYS_FIELD_RANGE => (0, 7)
  | .SYS_LOCKED => (0, 8)
  | .SYS_MODE_AUTH => (0, 9)
  | .SYS_MODE_BUSY => (0, 10)
  | .SYS_MODE_CANCELLED => (0, 11)
  | .SYS_MODE_CANCEL_PORT => (0, 12)
  | .SYS_MODE_CHANGE => (0, 13)
  | .SYS_MODE_ILLEGAL => (0, 14)
  | .SYS_MODE_LATE => (0, 15)
  | .SYS_MODE_NOPEND => (0, 16)
  | .CFG_DIVERGED => (1, 0)
  | .CFG_DRAM_PARTITION => (1, 1)
  | .CFG_EPOCH_MISMATCH => (1, 2)
  | .CFG_EPOCH_OLD => (1, 3)
  | .CFG_LOAD_MODE => (1, 4)
  | .CFG_NONE => (1, 5)
  | .CFG_OVL_ABSENT => (1, 6)
  | .CFG_OVL_ACTIVE => (1, 7)
  | .CFG_OVL_BIND => (1, 8)
  | .CFG_OVL_BUSY => (1, 9)
  | .CFG_OVL_CANCELLED => (1, 10)
  | .CFG_OVL_LATE => (1, 11)
  | .CFG_OVL_REFUSED => (1, 12)
  | .CFG_OVL_SCOPE => (1, 13)
  | .CFG_SECTION => (1, 14)
  | .CFG_STORE_BUSY => (1, 15)
  | .CFG_WRITE_ORDER => (1, 16)
  | .CFG_WRITE_SIZE => (1, 17)
  | .TIME_ALARM => (3, 0)
  | .TIME_ALARM_LIVE => (3, 1)
  | .TIME_ALARM_PAST => (3, 2)
  | .TIME_ALARM_RANGE => (3, 3)
  | .TIME_ALARM_UNSET => (3, 4)
  | .TIME_CMD_AUTH => (3, 5)
  | .TIME_CMD_ILLEGAL => (3, 6)
  | .TIME_CMD_NOREF => (3, 7)
  | .TIME_CMD_SRC => (3, 8)
  | .TIME_CMD_UNSET => (3, 9)
  | .TIME_DOMAIN => (3, 10)
  | .TIME_DOMAIN_DUP => (3, 11)
  | .TIME_JUMP_REFUSED => (3, 12)
  | .TIME_LOCKED => (3, 13)
  | .TIME_MASTER_CHANGE => (3, 14)
  | .TIME_PPS_RANGE => (3, 15)
  | .TIME_PPS_SRC => (3, 16)
  | .TIME_PTP_RANGE => (3, 17)
  | .TIME_SAMPLE_LIVE => (3, 18)
  | .TIME_SERVO_RANGE => (3, 19)
  | .TIME_SET_BACK => (3, 20)
  | .TIME_SLEW_ABANDONED => (3, 21)
  | .TIME_SLEW_LIMIT => (3, 22)
  | .TIME_SRC => (3, 23)
  | .TIME_START_MARK => (3, 24)
  | .TIME_STATE => (3, 25)
  | .TIME_STEP => (3, 26)
  | .TIME_STEP_BACK => (3, 27)
  | .TIME_STEP_LIVE => (3, 28)
  | .TIME_TRANSPORT => (3, 29)
  | .TIME_UNLOCKED => (3, 30)
  | .TIV_BUSY => (4, 0)
  | .TIV_CFG_LIVE => (4, 1)
  | .TIV_CFG_SAME => (4, 2)
  | .TIV_CFG_SRC => (4, 3)
  | .TIV_CTL_BOTH => (4, 4)
  | .TIV_NO_SIGNAL => (4, 5)
  | .TIV_PIN_RANGE => (4, 6)
  | .TIV_TIMEOUT => (4, 7)
  | .TIV_TRIM_LIMIT => (4, 8)
  | .LANE_DOWN => (5, 0)
  | .LANE_EQ_RANGE => (5, 1)
  | .LANE_FAILOVER => (5, 2)
  | .LANE_FEC => (5, 3)
  | .LANE_FIXRATE_ROLE => (5, 4)
  | .LANE_GROUP => (5, 5)
  | .LANE_GROUP_DOWN => (5, 6)
  | .LANE_RATES => (5, 7)
  | .LANE_RATE_BARRED => (5, 8)
  | .LANE_ROLE => (5, 9)
  | .LANE_ROLE_LIVE => (5, 10)
  | .LANE_ROLE_MISMATCH => (5, 11)
  | .LANE_SELF => (5, 12)
  | .LANE_TEST_COMBO => (5, 13)
  | .LANE_TEST_GROUP => (5, 14)
  | .LANE_TEST_PAT => (5, 15)
  | .LANE_TEST_ROLE => (5, 16)
  | .LANE_TEST_SELF => (5, 17)
  | .LANE_UP => (5, 18)
  | .SW_AGE => (6, 0)
  | .SW_ENCAP => (6, 1)
  | .SW_LOOP => (6, 2)
  | .SW_MAC_BAD => (6, 3)
  | .SW_QLIM_RANGE => (6, 4)
  | .SW_VID => (6, 5)
  | .PAIR_BUSY => (7, 0)
  | .PAIR_CFG_LIVE => (7, 1)
  | .PAIR_CFG_MISMATCH => (7, 2)
  | .PAIR_CONTENTION => (7, 3)
  | .PAIR_DOUBLE_FAULT => (7, 4)
  | .PAIR_HANDOVER => (7, 5)
  | .PAIR_HANDOVER_REFUSED => (7, 6)
  | .PAIR_LATE => (7, 7)
  | .PAIR_MIRRORED => (7, 8)
  | .PAIR_NOT_READY => (7, 9)
  | .PAIR_NO_LINK => (7, 10)
  | .PAIR_PROOF_FAIL => (7, 11)
  | .PAIR_PROOF_PASS => (7, 12)
  | .PAIR_PROOF_RANGE => (7, 13)
  | .PAIR_READY => (7, 14)
  | .PAIR_ROLE_STATE => (7, 15)
  | .PAIR_SEQ_SKEW => (7, 16)
  | .PAIR_SPLIT_GUARD => (7, 17)
  | .PAIR_SWITCHOVER => (7, 18)
  | .PAIR_TAKEBACK => (7, 19)
  | .ENG_AHEAD => (8, 0)
  | .ENG_CONVSET_LATE => (8, 1)
  | .ENG_CTL_RANGE => (8, 2)
  | .ENG_FAULT => (8, 3)
  | .ENG_LATE => (8, 4)
  | .ENG_ROLE => (8, 5)
  | .ENG_ROLE_LIVE => (8, 6)
  | .ENG_TRIGARM_MODE => (8, 7)
  | .ENG_WATCHDOG => (8, 8)
  | .QUE_CFG_LIVE => (9, 0)
  | .QUE_FLUSH => (9, 1)
  | .QUE_OVERLAP => (9, 2)
  | .QUE_OVF => (9, 3)
  | .QUE_PLACE => (9, 4)
  | .QUE_POISON => (9, 5)
  | .QUE_PROD => (9, 6)
  | .LED_RATIO => (10, 0)
  | .LED_REPLAY_BUSY => (10, 1)
  | .LED_REPLAY_RANGE => (10, 2)
  | .LED_REPLAY_STREAM => (10, 3)
  | .STRM_AUTH => (10, 4)
  | .STRM_CHANS => (10, 5)
  | .STRM_CHAN_OUT => (10, 6)
  | .STRM_DISABLED => (10, 7)
  | .STRM_FRAMING => (10, 8)
  | .STRM_KIND => (10, 9)
  | .STRM_LIVE => (10, 10)
  | .STRM_QUEUE => (10, 11)
  | .STRM_RATIO => (10, 12)
  | .CAP_ARM_MASK => (11, 0)
  | .CAP_ARM_OVERLAP => (11, 1)
  | .CAP_ARM_RANGE => (11, 2)
  | .CAP_ARM_SIZE => (11, 3)
  | .CAP_ARM_SPILL => (11, 4)
  | .CAP_CLOSED => (11, 5)
  | .CAP_COPY_BUSY => (11, 6)
  | .CAP_COPY_RANGE => (11, 7)
  | .CAP_DESC_BUSY => (11, 8)
  | .CAP_DESC_INDEX => (11, 9)
  | .CAP_DESC_STATE => (11, 10)
  | .CAP_LOCKED => (11, 11)
  | .CAP_REARM_REFUSED => (11, 12)
  | .TRG_ARM_MODE => (11, 13)
  | .TRG_BUSY => (11, 14)
  | .TRG_CFG_INVALID => (11, 15)
  | .TRG_CFG_LIVE => (11, 16)
  | .TRG_CTL_BOTH => (11, 17)
  | .CAL_ABANDON => (12, 0)
  | .CAL_ACC_DONE => (12, 1)
  | .CAL_APPLIED => (12, 2)
  | .CAL_BANK_DEVIANT => (12, 3)
  | .CAL_CONC_RANGE => (12, 4)
  | .CAL_EXTEND => (12, 5)
  | .CAL_EXTREF_MISMATCH => (12, 6)
  | .CAL_FC_SKIPPED => (12, 7)
  | .CAL_NOISY => (12, 8)
  | .CAL_OUTLIER => (12, 9)
  | .CAL_PASS_END => (12, 10)
  | .CAL_PASS_START => (12, 11)
  | .CAL_RANGE => (12, 12)
  | .CAL_SET_LOADED => (12, 13)
  | .CAL_SKIP => (12, 14)
  | .CAL_STORE_FAIL => (12, 15)
  | .CAL_SUSPENDED => (12, 16)
  | .CAL_TDELTA_RANGE => (12, 17)
  | .UPD_BUSY => (13, 0)
  | .UPD_COPY_FAIL => (13, 1)
  | .UPD_FLASH_FAIL => (13, 2)
  | .UPD_HEADER => (13, 3)
  | .UPD_INCOMPLETE => (13, 4)
  | .UPD_KEY => (13, 5)
  | .UPD_LATE_CANCEL => (13, 6)
  | .UPD_NOT_VERIFIED => (13, 7)
  | .UPD_OLDER => (13, 8)
  | .UPD_PART => (13, 9)
  | .UPD_PIECE_IMAGE => (13, 10)
  | .UPD_PIECE_INDEX => (13, 11)
  | .UPD_RUN_CORRUPT => (13, 12)
  | .UPD_RUN_UNUSABLE => (13, 13)
  | .UPD_SECTION => (13, 14)
  | .UPD_SIG => (13, 15)
  | .UPD_TRAV_CFG => (13, 16)
  | .UPD_TRAV_LATE => (13, 17)
  | .UPD_TRAV_LOAD => (13, 18)
  | .UPD_TRAV_MODE => (13, 19)
  | .UPD_TRAV_REFUSED => (13, 20)
  | .CH_AAF => (14, 0)
  | .CH_AAF_CARRIER => (14, 1)
  | .CH_AVG_AC => (14, 2)
  | .CH_AVG_LIVE => (14, 3)
  | .CH_AVG_RANGE => (14, 4)
  | .CH_CFG_LIVE => (14, 5)
  | .CH_DETW => (14, 6)
  | .CH_EX_LEVEL => (14, 7)
  | .CH_EX_LIMITS => (14, 8)
  | .CH_EX_LIVE => (14, 9)
  | .CH_FD_RANGE => (14, 10)
  | .CH_FLT_CARRIER => (14, 11)
  | .CH_FLT_LIVE => (14, 12)
  | .CH_LOST => (14, 13)
  | .CH_PRED_RANGE => (14, 14)
  | .CH_PRESET => (14, 15)
  | .CH_RANGE => (14, 16)
  | .CH_STAGE_FAULT => (14, 17)
  | .CH_WB_BIAS => (14, 18)
  | .CH_WB_RANGE => (14, 19)
  | .EX_LATCHED => (14, 20)
  | .EX_LIMIT => (14, 21)
  | .EX_SHORT => (14, 22)
  | .WB_EXC_OPEN => (14, 23)
  | .WB_EXRET_OPEN => (14, 24)
  | .WB_RESTORED => (14, 25)
  | .WB_SENSE_OPEN => (14, 26)
  | .BANK_CFG_LIVE => (15, 0)
  | .BANK_CH_ESCALATED => (15, 1)
  | .BANK_CONV_FAULT => (15, 2)
  | .BANK_DDS_FAULT => (15, 3)
  | .BANK_EXMODE => (15, 4)
  | .BANK_K_RANGE => (15, 5)
  | .BANK_PIPE_FAULT => (15, 6)
  | .BANK_REF_LIVE => (15, 7)
  | .BANK_REF_SEL => (15, 8)
  | .BANK_SPARE_BUSY => (15, 9)
  | .BANK_SPARE_PREEMPT => (15, 10)
  | .BANK_SUPV_FAULT => (15, 11)
  | .CONV_STARVED => (15, 12)
  | .REF_FALLBACK => (15, 13)
  | .REF_SETTLE_LATE => (15, 14)
  | .REF_UNSTABLE => (15, 15)
  | .FC_BW => (16, 0)
  | .FC_CFG_LIVE => (16, 1)
  | .FC_CMP_LIVE => (16, 2)
  | .FC_TERM => (16, 3)
  | .FLT_COEF_ACTIVE => (17, 0)
  | .FLT_COEF_BANK => (17, 1)
  | .FLT_DELAY_SET => (17, 2)
  | .FLT_OFFGRID => (17, 3)
  | .FLT_SWAP_BUSY => (17, 4)
  | .FLT_SWAP_LATE => (17, 5)
  | .FLT_SWAP_NOTREADY => (17, 6)
  | .FLT_SYNC => (17, 7)
  | .FLT_SYNC_IGNORED => (17, 8)
  | .CMP_CODER_FAULT => (18, 0)
  | .CMP_PEER_CRC => (18, 1)
  | .CMP_RX_LIVE => (18, 2)
  | .CMP_RX_PLACE => (18, 3)
  | .CMP_SELFCHECK => (18, 4)
  | .CMP_UNFIT => (18, 5)
  | .SSP_DIV => (19, 0)
  | .SSP_LATE => (19, 1)
  | .SSP_LIVE => (19, 2)
  | .SSP_NB => (19, 3)
  | .SSP_OVR => (19, 4)

/-- The code of a condition (R442). -/
def Cond.code (c : Cond) : Nat := 0x8000 + 256 * c.place.1 + c.place.2

/-- The class and the level of a condition (R462); class 1 and level 0 where the table does not list it. -/
def Cond.rank : Cond → Nat × Nat
  | .BANK_CH_ESCALATED => (4, 2)
  | .HUB_ESCALATED => (4, 6)
  | .PAIR_DOUBLE_FAULT => (4, 7)
  | .CH_STAGE_FAULT => (3, 1)
  | .BANK_CONV_FAULT => (3, 2)
  | .BANK_PIPE_FAULT => (3, 2)
  | .BANK_DDS_FAULT => (3, 2)
  | .BANK_SUPV_FAULT => (3, 2)
  | .ENG_FAULT => (3, 3)
  | .ENG_WATCHDOG => (3, 3)
  | .LANE_DOWN => (3, 4)
  | .DRAM_CHANNEL_FAIL => (3, 5)
  | .CMP_CODER_FAULT => (3, 0)
  | .CAL_STORE_FAIL => (3, 0)
  | .UPD_FLASH_FAIL => (3, 0)
  | .UPD_COPY_FAIL => (3, 0)
  | .UPD_RUN_UNUSABLE => (3, 0)
  | .UPD_RUN_CORRUPT => (3, 0)
  | .WB_EXC_OPEN => (2, 0)
  | .WB_SENSE_OPEN => (2, 0)
  | .WB_EXRET_OPEN => (2, 0)
  | .EX_LIMIT => (2, 0)
  | .EX_SHORT => (2, 0)
  | .EX_LATCHED => (2, 0)
  | .CH_LOST => (2, 0)
  | .REF_FALLBACK => (2, 0)
  | .REF_UNSTABLE => (2, 0)
  | .QUE_OVF => (2, 0)
  | .QUE_FLUSH => (2, 0)
  | .QUE_POISON => (2, 0)
  | .CMP_PEER_CRC => (2, 0)
  | .TIME_UNLOCKED => (2, 0)
  | .TIME_JUMP_REFUSED => (2, 0)
  | .TIME_STEP => (2, 0)
  | .FLT_SYNC => (2, 0)
  | .CAL_PASS_START => (2, 0)
  | .CAL_EXTEND => (2, 0)
  | .CAL_SKIP => (2, 0)
  | .CAL_ABANDON => (2, 0)
  | .CAL_PASS_END => (2, 0)
  | .PAIR_SWITCHOVER => (2, 0)
  | .PAIR_HANDOVER => (2, 0)
  | .PAIR_CONTENTION => (2, 0)
  | .WB_RESTORED => (0, 0)
  | .LANE_UP => (0, 0)
  | .TIME_LOCKED => (0, 0)
  | .TIME_STATE => (0, 0)
  | .TIME_ALARM => (0, 0)
  | .SYS_MODE_CHANGE => (0, 0)
  | .PAIR_READY => (0, 0)
  | .PAIR_PROOF_PASS => (0, 0)
  | .PAIR_TAKEBACK => (0, 0)
  | .CAL_APPLIED => (0, 0)
  | .CAL_ACC_DONE => (0, 0)
  | .CAL_SET_LOADED => (0, 0)
  | .CAP_CLOSED => (0, 0)
  | .FLT_DELAY_SET => (0, 0)
  | .STRM_DISABLED => (0, 0)
  | _ => (1, 0)

end Sys2Proof.Machine
end

