-- ==== Sys2Proof/Machine/Regs.lean ====
section
/-!
DEFINITION. Sys2Proof/Machine/Regs.lean: the register map (R448 to R452). One address per register, one Fld per
field, and the table of every implemented word with its reset value and the access code of each field, as the
register tables of the chapters give them.
-/
namespace Sys2Proof.Machine
open Sys2Proof

/-- The access codes of R7. -/
inductive Acc where
  | ro | rw | w1c | wo | rc | rwl | rws
  deriving DecidableEq, Repr

/-- A field of a register: the word address and the bits hi..lo. -/
structure Fld where
  addr : Nat
  hi : Nat
  lo : Nat
  deriving DecidableEq, Repr

/-- A field of the register table: its bits and its access code. -/
structure FieldDesc where
  hi : Nat
  lo : Nat
  acc : Acc
  deriving DecidableEq, Repr

/-- A register of the table: the words base + stride·i for i below count, their reset value and their fields. -/
structure RegDesc where
  base : Nat
  stride : Nat
  count : Nat
  reset : Nat
  fields : List FieldDesc
  deriving DecidableEq, Repr

namespace Reg

/-- 0x0008 SYS_MODE (02_modes_startup_configuration.md). -/
def SYS_MODE : Nat := 0x0008
def SYS_MODE_CAUSE : Fld := ⟨SYS_MODE, 19, 16⟩
def SYS_MODE_START : Fld := ⟨SYS_MODE, 12, 10⟩
def SYS_MODE_PENDV : Fld := ⟨SYS_MODE, 9, 9⟩
def SYS_MODE_PEND : Fld := ⟨SYS_MODE, 8, 6⟩
def SYS_MODE_PRIOR : Fld := ⟨SYS_MODE, 5, 3⟩
def SYS_MODE_CUR : Fld := ⟨SYS_MODE, 2, 0⟩

/-- 0x0018 SYS_MODE_REQ (02_modes_startup_configuration.md). -/
def SYS_MODE_REQ : Nat := 0x0018
def SYS_MODE_REQ_CANCEL : Fld := ⟨SYS_MODE_REQ, 4, 4⟩
def SYS_MODE_REQ_AT : Fld := ⟨SYS_MODE_REQ, 3, 3⟩
def SYS_MODE_REQ_TARGET : Fld := ⟨SYS_MODE_REQ, 2, 0⟩

/-- 0x0020 SYS_MODE_AT (02_modes_startup_configuration.md). -/
def SYS_MODE_AT : Nat := 0x0020
def SYS_MODE_AT_SLOT : Fld := ⟨SYS_MODE_AT, 63, 0⟩

/-- 0x0028 SYS_MODE_SLOT (02_modes_startup_configuration.md). -/
def SYS_MODE_SLOT : Nat := 0x0028
def SYS_MODE_SLOT_SLOT : Fld := ⟨SYS_MODE_SLOT, 63, 0⟩

/-- 0x0100 CFG_STATUS (02_modes_startup_configuration.md). -/
def CFG_STATUS : Nat := 0x0100
def CFG_STATUS_EPOCH_MISMATCH : Fld := ⟨CFG_STATUS, 25, 25⟩
def CFG_STATUS_DIVERGED : Fld := ⟨CFG_STATUS, 24, 24⟩
def CFG_STATUS_OVL_PRESENT : Fld := ⟨CFG_STATUS, 23, 16⟩
def CFG_STATUS_PENDV : Fld := ⟨CFG_STATUS, 12, 12⟩
def CFG_STATUS_OVL_PEND : Fld := ⟨CFG_STATUS, 11, 8⟩
def CFG_STATUS_OVL_ACT : Fld := ⟨CFG_STATUS, 7, 4⟩
def CFG_STATUS_LOADED : Fld := ⟨CFG_STATUS, 2, 2⟩
def CFG_STATUS_OTHER_VALID : Fld := ⟨CFG_STATUS, 1, 1⟩
def CFG_STATUS_STORE : Fld := ⟨CFG_STATUS, 0, 0⟩

/-- 0x0120 CFG_OVL_REQ (02_modes_startup_configuration.md). -/
def CFG_OVL_REQ : Nat := 0x0120
def CFG_OVL_REQ_AT : Fld := ⟨CFG_OVL_REQ, 4, 4⟩
def CFG_OVL_REQ_OVL : Fld := ⟨CFG_OVL_REQ, 3, 0⟩

/-- 0x0128 CFG_OVL_AT (02_modes_startup_configuration.md). -/
def CFG_OVL_AT : Nat := 0x0128
def CFG_OVL_AT_SLOT : Fld := ⟨CFG_OVL_AT, 63, 0⟩

/-- 0x0130 CFG_OVL_SLOT (02_modes_startup_configuration.md). -/
def CFG_OVL_SLOT : Nat := 0x0130
def CFG_OVL_SLOT_SLOT : Fld := ⟨CFG_OVL_SLOT, 63, 0⟩

/-- 0x0110 CFG_DIGEST (02_modes_startup_configuration.md). -/
def CFG_DIGEST : Nat := 0x0110
def CFG_DIGEST_DIGEST : Fld := ⟨CFG_DIGEST, 63, 0⟩

/-- 0x0118 CFG_EPOCH (02_modes_startup_configuration.md). -/
def CFG_EPOCH : Nat := 0x0118
def CFG_EPOCH_GROUP : Fld := ⟨CFG_EPOCH, 63, 48⟩
def CFG_EPOCH_EPOCH : Fld := ⟨CFG_EPOCH, 31, 0⟩

/-- 0x1000 + 8·c CH_CFG (03_sensor_front_end.md). -/
def CH_CFG (c : Nat) : Nat := 0x1000 + 8 * c
def CH_CFG_AAF (c : Nat) : Fld := ⟨CH_CFG c, 11, 10⟩
def CH_CFG_RANGE (c : Nat) : Fld := ⟨CH_CFG c, 9, 8⟩
def CH_CFG_EN (c : Nat) : Fld := ⟨CH_CFG c, 0, 0⟩

/-- 0x1C40 + 16·b + 2 BANK_SPARE (03_sensor_front_end.md). -/
def BANK_SPARE (b : Nat) : Nat := 0x1C42 + 16 * b
def BANK_SPARE_CAL (b : Nat) : Fld := ⟨BANK_SPARE b, 8, 8⟩
def BANK_SPARE_CONN (b : Nat) : Fld := ⟨BANK_SPARE b, 4, 4⟩
def BANK_SPARE_POS (b : Nat) : Fld := ⟨BANK_SPARE b, 3, 0⟩

/-- 0x1C40 + 16·b + 0 BANK_CFG (03_sensor_front_end.md). -/
def BANK_CFG (b : Nat) : Nat := 0x1C40 + 16 * b
def BANK_CFG_K (b : Nat) : Fld := ⟨BANK_CFG b, 25, 16⟩
def BANK_CFG_EXMODE (b : Nat) : Fld := ⟨BANK_CFG b, 1, 0⟩

/-- 0x1C40 + 16·b + 1 BANK_PHASE (03_sensor_front_end.md). -/
def BANK_PHASE (b : Nat) : Nat := 0x1C41 + 16 * b
def BANK_PHASE_S0 (b : Nat) : Fld := ⟨BANK_PHASE b, 63, 0⟩

/-- 0x1000 + 8·c + 1 CH_EXCFG (03_sensor_front_end.md). -/
def CH_EXCFG (c : Nat) : Nat := 0x1001 + 8 * c
def CH_EXCFG_PO (c : Nat) : Fld := ⟨CH_EXCFG c, 47, 40⟩
def CH_EXCFG_ILIM (c : Nat) : Fld := ⟨CH_EXCFG c, 39, 34⟩
def CH_EXCFG_LEVEL (c : Nat) : Fld := ⟨CH_EXCFG c, 33, 20⟩
def CH_EXCFG_HOLDOFF (c : Nat) : Fld := ⟨CH_EXCFG c, 15, 4⟩
def CH_EXCFG_RETRY (c : Nat) : Fld := ⟨CH_EXCFG c, 3, 1⟩
def CH_EXCFG_EXEN (c : Nat) : Fld := ⟨CH_EXCFG c, 0, 0⟩

/-- 0x1000 + 8·c + 2 CH_WB (03_sensor_front_end.md). -/
def CH_WB (c : Nat) : Nat := 0x1002 + 8 * c
def CH_WB_VTH (c : Nat) : Fld := ⟨CH_WB c, 31, 24⟩
def CH_WB_BIAS (c : Nat) : Fld := ⟨CH_WB c, 2, 2⟩
def CH_WB_SENSE (c : Nat) : Fld := ⟨CH_WB c, 1, 1⟩
def CH_WB_EXC (c : Nat) : Fld := ⟨CH_WB c, 0, 0⟩

/-- 0x1000 + 8·c + 3 CH_STATUS (03_sensor_front_end.md). -/
def CH_STATUS (c : Nat) : Nat := 0x1003 + 8 * c
def CH_STATUS_TRIPS (c : Nat) : Fld := ⟨CH_STATUS c, 63, 56⟩
def CH_STATUS_REFU (c : Nat) : Fld := ⟨CH_STATUS c, 15, 15⟩
def CH_STATUS_CLIP (c : Nat) : Fld := ⟨CH_STATUS c, 14, 14⟩
def CH_STATUS_CLIP_SEEN (c : Nat) : Fld := ⟨CH_STATUS c, 13, 13⟩
def CH_STATUS_ILIM (c : Nat) : Fld := ⟨CH_STATUS c, 12, 12⟩
def CH_STATUS_DRIVE_OFF (c : Nat) : Fld := ⟨CH_STATUS c, 11, 11⟩
def CH_STATUS_EX_LATCH (c : Nat) : Fld := ⟨CH_STATUS c, 10, 10⟩
def CH_STATUS_WB_EXC (c : Nat) : Fld := ⟨CH_STATUS c, 9, 9⟩
def CH_STATUS_WB_SENSE (c : Nat) : Fld := ⟨CH_STATUS c, 8, 8⟩
def CH_STATUS_WB_SEEN (c : Nat) : Fld := ⟨CH_STATUS c, 7, 7⟩
def CH_STATUS_SHORT_SEEN (c : Nat) : Fld := ⟨CH_STATUS c, 6, 6⟩
def CH_STATUS_LIMIT_SEEN (c : Nat) : Fld := ⟨CH_STATUS c, 5, 5⟩

/-- 0x1C40 + 16·b + 3 BANK_STATUS (03_sensor_front_end.md). -/
def BANK_STATUS (b : Nat) : Nat := 0x1C43 + 16 * b
def BANK_STATUS_RET_OPEN (b : Nat) : Fld := ⟨BANK_STATUS b, 7, 7⟩
def BANK_STATUS_CARRIER (b : Nat) : Fld := ⟨BANK_STATUS b, 6, 6⟩
def BANK_STATUS_EXMODE_ACT (b : Nat) : Fld := ⟨BANK_STATUS b, 5, 4⟩

/-- 0x1000 + 8·c + 4 CH_CONV (04_conversion.md). -/
def CH_CONV (c : Nat) : Nat := 0x1004 + 8 * c
def CH_CONV_AVGN (c : Nat) : Fld := ⟨CH_CONV c, 47, 40⟩
def CH_CONV_AVGSH (c : Nat) : Fld := ⟨CH_CONV c, 39, 36⟩
def CH_CONV_AVG (c : Nat) : Fld := ⟨CH_CONV c, 35, 35⟩
def CH_CONV_HOLD (c : Nat) : Fld := ⟨CH_CONV c, 27, 20⟩
def CH_CONV_WARN (c : Nat) : Fld := ⟨CH_CONV c, 19, 16⟩
def CH_CONV_RPRI (c : Nat) : Fld := ⟨CH_CONV c, 8, 8⟩
def CH_CONV_POLICY (c : Nat) : Fld := ⟨CH_CONV c, 1, 0⟩

/-- 0x1000 + 8·c + 5 CH_CONVSTAT (04_conversion.md). -/
def CH_CONVSTAT (c : Nat) : Nat := 0x1005 + 8 * c
def CH_CONVSTAT_RESCUED (c : Nat) : Fld := ⟨CH_CONVSTAT c, 63, 48⟩
def CH_CONVSTAT_COARSED (c : Nat) : Fld := ⟨CH_CONVSTAT c, 47, 32⟩
def CH_CONVSTAT_GUARDED (c : Nat) : Fld := ⟨CH_CONVSTAT c, 31, 16⟩
def CH_CONVSTAT_WARNST (c : Nat) : Fld := ⟨CH_CONVSTAT c, 3, 3⟩
def CH_CONVSTAT_CLIPST (c : Nat) : Fld := ⟨CH_CONVSTAT c, 2, 2⟩
def CH_CONVSTAT_PATH (c : Nat) : Fld := ⟨CH_CONVSTAT c, 1, 1⟩

/-- 0x1C40 + 16·b + 4 BANK_CONV (04_conversion.md). -/
def BANK_CONV (b : Nat) : Nat := 0x1C44 + 16 * b
def BANK_CONV_FREEZE (b : Nat) : Fld := ⟨BANK_CONV b, 1, 1⟩
def BANK_CONV_INJ (b : Nat) : Fld := ⟨BANK_CONV b, 0, 0⟩

/-- 0x1C40 + 16·b + 5 BANK_CONVSTAT (04_conversion.md). -/
def BANK_CONVSTAT (b : Nat) : Nat := 0x1C45 + 16 * b
def BANK_CONVSTAT_RESC_SLOTS (b : Nat) : Fld := ⟨BANK_CONVSTAT b, 63, 48⟩
def BANK_CONVSTAT_OVF_SLOTS (b : Nat) : Fld := ⟨BANK_CONVSTAT b, 47, 32⟩
def BANK_CONVSTAT_STARVED (b : Nat) : Fld := ⟨BANK_CONVSTAT b, 23, 20⟩

/-- 0x1C40 + 16·b + 6 BANK_REF (04_conversion.md). -/
def BANK_REF (b : Nat) : Nat := 0x1C46 + 16 * b
def BANK_REF_FALLBACK (b : Nat) : Fld := ⟨BANK_REF b, 5, 5⟩
def BANK_REF_SETTLED (b : Nat) : Fld := ⟨BANK_REF b, 4, 4⟩
def BANK_REF_ACT (b : Nat) : Fld := ⟨BANK_REF b, 3, 2⟩
def BANK_REF_SEL (b : Nat) : Fld := ⟨BANK_REF b, 1, 0⟩

/-- 0x1DC0 + 8·k + 0 FC_CFG (04_conversion.md). -/
def FC_CFG (k : Nat) : Nat := 0x1DC0 + 8 * k
def FC_CFG_TERM (k : Nat) : Fld := ⟨FC_CFG k, 7, 6⟩
def FC_CFG_BW (k : Nat) : Fld := ⟨FC_CFG k, 5, 4⟩
def FC_CFG_EN (k : Nat) : Fld := ⟨FC_CFG k, 0, 0⟩

/-- 0x1DC0 + 8·k + 1 FC_STATUS (04_conversion.md). -/
def FC_STATUS (k : Nat) : Nat := 0x1DC1 + 8 * k
def FC_STATUS_OVR_SLOTS (k : Nat) : Fld := ⟨FC_STATUS k, 63, 48⟩
def FC_STATUS_OVR_SEEN (k : Nat) : Fld := ⟨FC_STATUS k, 1, 1⟩
def FC_STATUS_OVR (k : Nat) : Fld := ⟨FC_STATUS k, 0, 0⟩

/-- 0x1000 + 8·c + 6 CH_FLT (05_filter_chain.md). -/
def CH_FLT (c : Nat) : Nat := 0x1006 + 8 * c
def CH_FLT_DETW (c : Nat) : Fld := ⟨CH_FLT c, 51, 40⟩
def CH_FLT_ENV (c : Nat) : Fld := ⟨CH_FLT c, 34, 34⟩
def CH_FLT_RMS (c : Nat) : Fld := ⟨CH_FLT c, 33, 33⟩
def CH_FLT_PK (c : Nat) : Fld := ⟨CH_FLT c, 32, 32⟩
def CH_FLT_PHI (c : Nat) : Fld := ⟨CH_FLT c, 31, 16⟩
def CH_FLT_PRESET (c : Nat) : Fld := ⟨CH_FLT c, 2, 0⟩

/-- 0x1000 + 8·c + 7 CH_FD (05_filter_chain.md). -/
def CH_FD (c : Nat) : Nat := 0x1007 + 8 * c
def CH_FD_DELAY (c : Nat) : Fld := ⟨CH_FD c, 27, 16⟩
def CH_FD_TRIM (c : Nat) : Fld := ⟨CH_FD c, 7, 0⟩

/-- 0x1E00 FLT_COEF_PTR (05_filter_chain.md). -/
def FLT_COEF_PTR : Nat := 0x1E00
def FLT_COEF_PTR_COMMIT : Fld := ⟨FLT_COEF_PTR, 31, 31⟩
def FLT_COEF_PTR_BANK : Fld := ⟨FLT_COEF_PTR, 28, 24⟩
def FLT_COEF_PTR_SET : Fld := ⟨FLT_COEF_PTR, 20, 20⟩
def FLT_COEF_PTR_PRESET : Fld := ⟨FLT_COEF_PTR, 18, 16⟩
def FLT_COEF_PTR_TAP : Fld := ⟨FLT_COEF_PTR, 7, 0⟩

/-- 0x1E01 FLT_COEF_DATA (05_filter_chain.md). -/
def FLT_COEF_DATA : Nat := 0x1E01
def FLT_COEF_DATA_COEF : Fld := ⟨FLT_COEF_DATA, 23, 0⟩

/-- 0x1E02 FLT_SWAP_REQ (05_filter_chain.md). -/
def FLT_SWAP_REQ : Nat := 0x1E02
def FLT_SWAP_REQ_AT : Fld := ⟨FLT_SWAP_REQ, 24, 24⟩
def FLT_SWAP_REQ_BANKS : Fld := ⟨FLT_SWAP_REQ, 23, 0⟩

/-- 0x1E03 FLT_SWAP_AT (05_filter_chain.md). -/
def FLT_SWAP_AT : Nat := 0x1E03
def FLT_SWAP_AT_SLOT : Fld := ⟨FLT_SWAP_AT, 63, 0⟩

/-- 0x1E10 FLT_SYNC (05_filter_chain.md). -/
def FLT_SYNC : Nat := 0x1E10
def FLT_SYNC_IGNORED : Fld := ⟨FLT_SYNC, 63, 48⟩
def FLT_SYNC_PSET : Fld := ⟨FLT_SYNC, 13, 13⟩
def FLT_SYNC_PHASE : Fld := ⟨FLT_SYNC, 12, 0⟩

/-- 0x1E20 + b FLT_BSTAT (05_filter_chain.md). -/
def FLT_BSTAT (b : Nat) : Nat := 0x1E20 + b
def FLT_BSTAT_READY (b : Nat) : Fld := ⟨FLT_BSTAT b, 4, 4⟩
def FLT_BSTAT_PENDV (b : Nat) : Fld := ⟨FLT_BSTAT b, 3, 3⟩
def FLT_BSTAT_ACTIVE (b : Nat) : Fld := ⟨FLT_BSTAT b, 0, 0⟩

/-- 0x1E40 + b FLT_SWAP_SLOT (05_filter_chain.md). -/
def FLT_SWAP_SLOT (b : Nat) : Nat := 0x1E40 + b
def FLT_SWAP_SLOT_SLOT (b : Nat) : Fld := ⟨FLT_SWAP_SLOT b, 63, 0⟩

/-- 0x0800 + 64·e + 0 ENG_CTL (06_engines.md). -/
def ENG_CTL (e : Nat) : Nat := 0x0800 + 64 * e
def ENG_CTL_LAGMAX (e : Nat) : Fld := ⟨ENG_CTL e, 47, 40⟩
def ENG_CTL_WDOG (e : Nat) : Fld := ⟨ENG_CTL e, 39, 32⟩
def ENG_CTL_RMSQ (e : Nat) : Fld := ⟨ENG_CTL e, 16, 16⟩
def ENG_CTL_AHEAD (e : Nat) : Fld := ⟨ENG_CTL e, 11, 8⟩
def ENG_CTL_ROLE (e : Nat) : Fld := ⟨ENG_CTL e, 1, 0⟩

/-- 0x0800 + 64·e + 1 ENG_STAT (06_engines.md). -/
def ENG_STAT (e : Nat) : Nat := 0x0801 + 64 * e
def ENG_STAT_UNCOMMIT (e : Nat) : Fld := ⟨ENG_STAT e, 55, 52⟩
def ENG_STAT_CB_USED (e : Nat) : Fld := ⟨ENG_STAT e, 46, 40⟩
def ENG_STAT_UNDO_USED (e : Nat) : Fld := ⟨ENG_STAT e, 26, 16⟩
def ENG_STAT_LATE (e : Nat) : Fld := ⟨ENG_STAT e, 3, 3⟩
def ENG_STAT_FAULTED (e : Nat) : Fld := ⟨ENG_STAT e, 2, 2⟩
def ENG_STAT_RUNNING (e : Nat) : Fld := ⟨ENG_STAT e, 1, 1⟩
def ENG_STAT_SPARE_FREE (e : Nat) : Fld := ⟨ENG_STAT e, 0, 0⟩

/-- 0x0800 + 64·e + 2 ENG_MAP (06_engines.md). -/
def ENG_MAP (e : Nat) : Nat := 0x0802 + 64 * e
def ENG_MAP_HOST (e : Nat) : Fld := ⟨ENG_MAP e, 3, 0⟩

/-- 0x0800 + 64·e + 3 ENG_CSLOT (06_engines.md). -/
def ENG_CSLOT (e : Nat) : Nat := 0x0803 + 64 * e
def ENG_CSLOT_SLOT (e : Nat) : Fld := ⟨ENG_CSLOT e, 63, 0⟩

/-- 0x0800 + 64·e + 4 ENG_PSLOT (06_engines.md). -/
def ENG_PSLOT (e : Nat) : Nat := 0x0804 + 64 * e
def ENG_PSLOT_SLOT (e : Nat) : Fld := ⟨ENG_PSLOT e, 63, 0⟩

/-- 0x0800 + 64·e + 5 ENG_SQ (06_engines.md). -/
def ENG_SQ (e : Nat) : Nat := 0x0805 + 64 * e
def ENG_SQ_RANGE (e : Nat) : Fld := ⟨ENG_SQ e, 63, 48⟩
def ENG_SQ_REDIR (e : Nat) : Fld := ⟨ENG_SQ e, 47, 32⟩
def ENG_SQ_MODE (e : Nat) : Fld := ⟨ENG_SQ e, 31, 16⟩
def ENG_SQ_EXC (e : Nat) : Fld := ⟨ENG_SQ e, 15, 0⟩

/-- 0x0800 + 64·e + 6 ENG_CB (06_engines.md). -/
def ENG_CB (e : Nat) : Nat := 0x0806 + 64 * e
def ENG_CB_CONVSET_LATE (e : Nat) : Fld := ⟨ENG_CB e, 63, 48⟩
def ENG_CB_CB_STALLS (e : Nat) : Fld := ⟨ENG_CB e, 47, 32⟩
def ENG_CB_UNDO_STALLS (e : Nat) : Fld := ⟨ENG_CB e, 31, 16⟩
def ENG_CB_BR_MISS (e : Nat) : Fld := ⟨ENG_CB e, 15, 0⟩

/-- 0x0800 + 64·e + 7 ENG_REDIR (06_engines.md). -/
def ENG_REDIR (e : Nat) : Nat := 0x0807 + 64 * e
def ENG_REDIR_TRG (e : Nat) : Fld := ⟨ENG_REDIR e, 47, 40⟩
def ENG_REDIR_ALARM (e : Nat) : Fld := ⟨ENG_REDIR e, 39, 24⟩
def ENG_REDIR_VEC (e : Nat) : Fld := ⟨ENG_REDIR e, 13, 0⟩

/-- 0x0800 + 64·e + 8 ENG_CSEQ (06_engines.md). -/
def ENG_CSEQ (e : Nat) : Nat := 0x0808 + 64 * e
def ENG_CSEQ_SEQ (e : Nat) : Fld := ⟨ENG_CSEQ e, 63, 0⟩

/-- 0x1DC0 + 8·k + 2 FC_CMP (08_capture_trigger.md). -/
def FC_CMP (k : Nat) : Nat := 0x1DC2 + 8 * k
def FC_CMP_TH_A (k : Nat) : Fld := ⟨FC_CMP k, 61, 48⟩
def FC_CMP_TH_B (k : Nat) : Fld := ⟨FC_CMP k, 45, 32⟩
def FC_CMP_HYS (k : Nat) : Fld := ⟨FC_CMP k, 19, 16⟩
def FC_CMP_EN_B (k : Nat) : Fld := ⟨FC_CMP k, 1, 1⟩
def FC_CMP_EN_A (k : Nat) : Fld := ⟨FC_CMP k, 0, 0⟩

/-- 0x1DC0 + 8·k + 3 FC_CSTAT (08_capture_trigger.md). -/
def FC_CSTAT (k : Nat) : Nat := 0x1DC3 + 8 * k
def FC_CSTAT_CROSS_A (k : Nat) : Fld := ⟨FC_CSTAT k, 63, 48⟩
def FC_CSTAT_CROSS_B (k : Nat) : Fld := ⟨FC_CSTAT k, 47, 32⟩
def FC_CSTAT_MERGED (k : Nat) : Fld := ⟨FC_CSTAT k, 31, 16⟩
def FC_CSTAT_LVL_B (k : Nat) : Fld := ⟨FC_CSTAT k, 1, 1⟩
def FC_CSTAT_LVL_A (k : Nat) : Fld := ⟨FC_CSTAT k, 0, 0⟩

/-- 0x1DC0 + 8·k + 4 FC_CSKEW (08_capture_trigger.md). -/
def FC_CSKEW (k : Nat) : Nat := 0x1DC4 + 8 * k
def FC_CSKEW_SKEW (k : Nat) : Fld := ⟨FC_CSKEW k, 15, 0⟩

/-- 0x1DC0 + 8·k + 5 FC_CAL (08_capture_trigger.md). -/
def FC_CAL (k : Nat) : Nat := 0x1DC5 + 8 * k
def FC_CAL_GAIN (k : Nat) : Fld := ⟨FC_CAL k, 63, 32⟩
def FC_CAL_OFFS (k : Nat) : Fld := ⟨FC_CAL k, 21, 0⟩

/-- 0x0E00 CAP_STATUS (08_capture_trigger.md). -/
def CAP_STATUS : Nat := 0x0E00
def CAP_STATUS_MISSLOG : Fld := ⟨CAP_STATUS, 39, 32⟩
def CAP_STATUS_MISS_OVF : Fld := ⟨CAP_STATUS, 24, 24⟩
def CAP_STATUS_REARM : Fld := ⟨CAP_STATUS, 23, 16⟩
def CAP_STATUS_OPEN : Fld := ⟨CAP_STATUS, 15, 8⟩
def CAP_STATUS_ARMED : Fld := ⟨CAP_STATUS, 7, 0⟩

/-- 0x0E01 CAP_DESC_PTR (08_capture_trigger.md). -/
def CAP_DESC_PTR : Nat := 0x0E01
def CAP_DESC_PTR_INDEX : Fld := ⟨CAP_DESC_PTR, 11, 4⟩
def CAP_DESC_PTR_WORD : Fld := ⟨CAP_DESC_PTR, 3, 0⟩

/-- 0x0E02 CAP_DESC_DATA (08_capture_trigger.md). -/
def CAP_DESC_DATA : Nat := 0x0E02
def CAP_DESC_DATA_DATA : Fld := ⟨CAP_DESC_DATA, 63, 0⟩

/-- 0x0E03 CAP_MISS_SLOT (08_capture_trigger.md). -/
def CAP_MISS_SLOT : Nat := 0x0E03
def CAP_MISS_SLOT_SLOT : Fld := ⟨CAP_MISS_SLOT, 63, 0⟩

/-- 0x0E04 CAP_MISS_INFO (08_capture_trigger.md). -/
def CAP_MISS_INFO : Nat := 0x0E04
def CAP_MISS_INFO_VALID : Fld := ⟨CAP_MISS_INFO, 63, 63⟩
def CAP_MISS_INFO_UNIT : Fld := ⟨CAP_MISS_INFO, 58, 56⟩
def CAP_MISS_INFO_NEXT : Fld := ⟨CAP_MISS_INFO, 55, 48⟩
def CAP_MISS_INFO_FRAC : Fld := ⟨CAP_MISS_INFO, 42, 32⟩
def CAP_MISS_INFO_BIN : Fld := ⟨CAP_MISS_INFO, 19, 0⟩

/-- 0x0E05 CAP_MISS_POP (08_capture_trigger.md). -/
def CAP_MISS_POP : Nat := 0x0E05
def CAP_MISS_POP_POP : Fld := ⟨CAP_MISS_POP, 0, 0⟩

/-- 0x0E06 CAP_MISS_CNT (08_capture_trigger.md). -/
def CAP_MISS_CNT : Nat := 0x0E06
def CAP_MISS_CNT_TOTAL : Fld := ⟨CAP_MISS_CNT, 63, 32⟩
def CAP_MISS_CNT_LOST : Fld := ⟨CAP_MISS_CNT, 31, 0⟩

/-- 0x0E08 CAP_COPY_SRC (08_capture_trigger.md). -/
def CAP_COPY_SRC : Nat := 0x0E08
def CAP_COPY_SRC_DESC : Fld := ⟨CAP_COPY_SRC, 63, 56⟩
def CAP_COPY_SRC_OFF : Fld := ⟨CAP_COPY_SRC, 39, 0⟩

/-- 0x0E09 CAP_COPY_DST (08_capture_trigger.md). -/
def CAP_COPY_DST : Nat := 0x0E09
def CAP_COPY_DST_DST : Fld := ⟨CAP_COPY_DST, 63, 0⟩

/-- 0x0E0A CAP_COPY_GO (08_capture_trigger.md). -/
def CAP_COPY_GO : Nat := 0x0E0A
def CAP_COPY_GO_GO : Fld := ⟨CAP_COPY_GO, 63, 63⟩
def CAP_COPY_GO_LEN : Fld := ⟨CAP_COPY_GO, 32, 0⟩

/-- 0x0E0B CAP_COPY_STAT (08_capture_trigger.md). -/
def CAP_COPY_STAT : Nat := 0x0E0B
def CAP_COPY_STAT_BUSY : Fld := ⟨CAP_COPY_STAT, 63, 63⟩
def CAP_COPY_STAT_DONE : Fld := ⟨CAP_COPY_STAT, 62, 62⟩
def CAP_COPY_STAT_POISON : Fld := ⟨CAP_COPY_STAT, 61, 61⟩
def CAP_COPY_STAT_REFUSED : Fld := ⟨CAP_COPY_STAT, 60, 60⟩
def CAP_COPY_STAT_POFF : Fld := ⟨CAP_COPY_STAT, 39, 0⟩

/-- 0x0E80 + 16·u + 0 TRG_CFG (08_capture_trigger.md). -/
def TRG_CFG (u : Nat) : Nat := 0x0E80 + 16 * u
def TRG_CFG_SRC (u : Nat) : Fld := ⟨TRG_CFG u, 63, 55⟩
def TRG_CFG_DEC (u : Nat) : Fld := ⟨TRG_CFG u, 54, 54⟩
def TRG_CFG_TYPE (u : Nat) : Fld := ⟨TRG_CFG u, 50, 48⟩
def TRG_CFG_POL (u : Nat) : Fld := ⟨TRG_CFG u, 45, 44⟩
def TRG_CFG_MODE (u : Nat) : Fld := ⟨TRG_CFG u, 41, 40⟩

/-- 0x0E80 + 16·u + 1 TRG_T1 and + 2 TRG_T2 (08_capture_trigger.md). -/
def TRG_T1 (u : Nat) : Nat := 0x0E81 + 16 * u
def TRG_T1_T (u : Nat) : Fld := ⟨TRG_T1 u, 39, 0⟩

/-- 0x0E80 + 16·u + 1 TRG_T1 and + 2 TRG_T2 (08_capture_trigger.md). -/
def TRG_T2 (u : Nat) : Nat := 0x0E82 + 16 * u
def TRG_T2_T (u : Nat) : Fld := ⟨TRG_T2 u, 39, 0⟩

/-- 0x0E80 + 16·u + 3 TRG_DTH (08_capture_trigger.md). -/
def TRG_DTH (u : Nat) : Nat := 0x0E83 + 16 * u
def TRG_DTH_DTH_A (u : Nat) : Fld := ⟨TRG_DTH u, 63, 32⟩
def TRG_DTH_DTH_B (u : Nat) : Fld := ⟨TRG_DTH u, 31, 0⟩

/-- 0x0E80 + 16·u + 4 TRG_DHYS (08_capture_trigger.md). -/
def TRG_DHYS (u : Nat) : Nat := 0x0E84 + 16 * u
def TRG_DHYS_DHYS (u : Nat) : Fld := ⟨TRG_DHYS u, 31, 0⟩

/-- 0x0E80 + 16·u + 5 TRG_CTL (08_capture_trigger.md). -/
def TRG_CTL (u : Nat) : Nat := 0x0E85 + 16 * u
def TRG_CTL_DESC (u : Nat) : Fld := ⟨TRG_CTL u, 15, 8⟩
def TRG_CTL_DISARM (u : Nat) : Fld := ⟨TRG_CTL u, 1, 1⟩
def TRG_CTL_ARM (u : Nat) : Fld := ⟨TRG_CTL u, 0, 0⟩

/-- 0x0E80 + 16·u + 6 TRG_STAT (08_capture_trigger.md). -/
def TRG_STAT (u : Nat) : Nat := 0x0E86 + 16 * u
def TRG_STAT_STATE (u : Nat) : Fld := ⟨TRG_STAT u, 63, 60⟩
def TRG_STAT_DESC (u : Nat) : Fld := ⟨TRG_STAT u, 55, 48⟩
def TRG_STAT_TRIGS (u : Nat) : Fld := ⟨TRG_STAT u, 31, 16⟩
def TRG_STAT_MISSES (u : Nat) : Fld := ⟨TRG_STAT u, 15, 0⟩

/-- 0x0E80 + 16·u + 7 TRG_TSLOT (08_capture_trigger.md). -/
def TRG_TSLOT (u : Nat) : Nat := 0x0E87 + 16 * u
def TRG_TSLOT_SLOT (u : Nat) : Fld := ⟨TRG_TSLOT u, 63, 0⟩

/-- 0x0E80 + 16·u + 8 TRG_TBIN (08_capture_trigger.md). -/
def TRG_TBIN (u : Nat) : Nat := 0x0E88 + 16 * u
def TRG_TBIN_FRAC (u : Nat) : Fld := ⟨TRG_TBIN u, 42, 32⟩
def TRG_TBIN_BIN (u : Nat) : Fld := ⟨TRG_TBIN u, 19, 0⟩

/-- 0x0400 TIV_CFG (09_time_interval.md). -/
def TIV_CFG : Nat := 0x0400
def TIV_CFG_STOP_BANK : Fld := ⟨TIV_CFG, 25, 21⟩
def TIV_CFG_START_BANK : Fld := ⟨TIV_CFG, 20, 16⟩
def TIV_CFG_STOP_SRC : Fld := ⟨TIV_CFG, 15, 12⟩
def TIV_CFG_START_SRC : Fld := ⟨TIV_CFG, 11, 8⟩
def TIV_CFG_CONT : Fld := ⟨TIV_CFG, 1, 1⟩
def TIV_CFG_SIGNED : Fld := ⟨TIV_CFG, 0, 0⟩

/-- 0x0401 TIV_PIN_START and 0x0402 TIV_PIN_STOP (09_time_interval.md). -/
def TIV_PIN_START : Nat := 0x0401
def TIV_PIN_START_HOLDOFF : Fld := ⟨TIV_PIN_START, 63, 48⟩
def TIV_PIN_START_HYS : Fld := ⟨TIV_PIN_START, 47, 40⟩
def TIV_PIN_START_THR : Fld := ⟨TIV_PIN_START, 26, 16⟩
def TIV_PIN_START_EDGE : Fld := ⟨TIV_PIN_START, 1, 0⟩

/-- 0x0401 TIV_PIN_START and 0x0402 TIV_PIN_STOP (09_time_interval.md). -/
def TIV_PIN_STOP : Nat := 0x0402
def TIV_PIN_STOP_HOLDOFF : Fld := ⟨TIV_PIN_STOP, 63, 48⟩
def TIV_PIN_STOP_HYS : Fld := ⟨TIV_PIN_STOP, 47, 40⟩
def TIV_PIN_STOP_THR : Fld := ⟨TIV_PIN_STOP, 26, 16⟩
def TIV_PIN_STOP_EDGE : Fld := ⟨TIV_PIN_STOP, 1, 0⟩

/-- 0x0403 TIV_CTL (09_time_interval.md). -/
def TIV_CTL : Nat := 0x0403
def TIV_CTL_FSTOP : Fld := ⟨TIV_CTL, 3, 3⟩
def TIV_CTL_FSTART : Fld := ⟨TIV_CTL, 2, 2⟩
def TIV_CTL_ABORT : Fld := ⟨TIV_CTL, 1, 1⟩
def TIV_CTL_ARM : Fld := ⟨TIV_CTL, 0, 0⟩

/-- 0x0404 TIV_STAT (09_time_interval.md). -/
def TIV_STAT : Nat := 0x0404
def TIV_STAT_EARLY_STOP : Fld := ⟨TIV_STAT, 63, 48⟩
def TIV_STAT_IGNORED : Fld := ⟨TIV_STAT, 47, 32⟩
def TIV_STAT_OVW : Fld := ⟨TIV_STAT, 31, 24⟩
def TIV_STAT_REFLOCK : Fld := ⟨TIV_STAT, 11, 11⟩
def TIV_STAT_FBUSY : Fld := ⟨TIV_STAT, 10, 10⟩
def TIV_STAT_FDONE : Fld := ⟨TIV_STAT, 9, 9⟩
def TIV_STAT_NOSIG : Fld := ⟨TIV_STAT, 7, 7⟩
def TIV_STAT_ABORTED : Fld := ⟨TIV_STAT, 6, 6⟩
def TIV_STAT_DONE : Fld := ⟨TIV_STAT, 5, 5⟩
def TIV_STAT_STATE : Fld := ⟨TIV_STAT, 1, 0⟩

/-- 0x0405 TIV_RESULT (09_time_interval.md). -/
def TIV_RESULT : Nat := 0x0405
def TIV_RESULT_VALID : Fld := ⟨TIV_RESULT, 63, 63⟩
def TIV_RESULT_UNRESOLVED : Fld := ⟨TIV_RESULT, 62, 62⟩
def TIV_RESULT_TIMEOUT : Fld := ⟨TIV_RESULT, 61, 61⟩
def TIV_RESULT_FIRST : Fld := ⟨TIV_RESULT, 60, 60⟩
def TIV_RESULT_RESULT : Fld := ⟨TIV_RESULT, 46, 0⟩

/-- 0x0406 TIV_RSLOT (09_time_interval.md). -/
def TIV_RSLOT : Nat := 0x0406
def TIV_RSLOT_SLOT : Fld := ⟨TIV_RSLOT, 63, 0⟩

/-- 0x0407 TIV_RBIN (09_time_interval.md). -/
def TIV_RBIN : Nat := 0x0407
def TIV_RBIN_BIN : Fld := ⟨TIV_RBIN, 19, 0⟩

/-- 0x0408 TIV_FCFG (09_time_interval.md). -/
def TIV_FCFG : Nat := 0x0408
def TIV_FCFG_GATE : Fld := ⟨TIV_FCFG, 55, 32⟩
def TIV_FCFG_CONT : Fld := ⟨TIV_FCFG, 2, 2⟩
def TIV_FCFG_INPUT : Fld := ⟨TIV_FCFG, 1, 0⟩

/-- 0x0409 TIV_FN (09_time_interval.md). -/
def TIV_FN : Nat := 0x0409
def TIV_FN_VALID : Fld := ⟨TIV_FN, 63, 63⟩
def TIV_FN_N : Fld := ⟨TIV_FN, 39, 0⟩

/-- 0x040A TIV_FT (09_time_interval.md). -/
def TIV_FT : Nat := 0x040A
def TIV_FT_T : Fld := ⟨TIV_FT, 47, 0⟩

/-- 0x040B TIV_FREQ (09_time_interval.md). -/
def TIV_FREQ : Nat := 0x040B
def TIV_FREQ_FREQ : Fld := ⟨TIV_FREQ, 63, 0⟩

/-- 0x0410 TIV_AGE (09_time_interval.md). -/
def TIV_AGE : Nat := 0x0410
def TIV_AGE_SLOPE : Fld := ⟨TIV_AGE, 63, 32⟩
def TIV_AGE_MEAS : Fld := ⟨TIV_AGE, 31, 0⟩

/-- 0x0411 TIV_TRIM (09_time_interval.md). -/
def TIV_TRIM : Nat := 0x0411
def TIV_TRIM_AGETERM : Fld := ⟨TIV_TRIM, 63, 32⟩
def TIV_TRIM_CODE : Fld := ⟨TIV_TRIM, 23, 0⟩

/-- 0x0300 + 32·t + 0 TB_CFG (10_network_time.md). -/
def TB_CFG (t : Nat) : Nat := 0x0300 + 32 * t
def TB_CFG_DOMAIN (t : Nat) : Fld := ⟨TB_CFG t, 39, 32⟩
def TB_CFG_PORTS (t : Nat) : Fld := ⟨TB_CFG t, 27, 24⟩
def TB_CFG_TRANSPORT (t : Nat) : Fld := ⟨TB_CFG t, 21, 20⟩
def TB_CFG_P2P (t : Nat) : Fld := ⟨TB_CFG t, 18, 18⟩
def TB_CFG_ONESTEP (t : Nat) : Fld := ⟨TB_CFG t, 17, 17⟩
def TB_CFG_FREE_LOCKED (t : Nat) : Fld := ⟨TB_CFG t, 16, 16⟩
def TB_CFG_LOGSYNC (t : Nat) : Fld := ⟨TB_CFG t, 15, 12⟩
def TB_CFG_LOGANN (t : Nat) : Fld := ⟨TB_CFG t, 11, 8⟩
def TB_CFG_ARTO (t : Nat) : Fld := ⟨TB_CFG t, 7, 4⟩
def TB_CFG_SRC (t : Nat) : Fld := ⟨TB_CFG t, 2, 0⟩

/-- 0x0300 + 32·t + 1 TB_STAT (10_network_time.md). -/
def TB_STAT (t : Nat) : Nat := 0x0301 + 32 * t
def TB_STAT_PSTATE (t : Nat) : Fld := ⟨TB_STAT t, 63, 48⟩
def TB_STAT_CLASS (t : Nat) : Fld := ⟨TB_STAT t, 47, 40⟩
def TB_STAT_SAMPLING (t : Nat) : Fld := ⟨TB_STAT t, 31, 31⟩
def TB_STAT_GM (t : Nat) : Fld := ⟨TB_STAT t, 30, 30⟩
def TB_STAT_REFPEND (t : Nat) : Fld := ⟨TB_STAT t, 29, 29⟩
def TB_STAT_CSLEW (t : Nat) : Fld := ⟨TB_STAT t, 28, 28⟩
def TB_STAT_PCLAMP (t : Nat) : Fld := ⟨TB_STAT t, 27, 27⟩
def TB_STAT_STATE (t : Nat) : Fld := ⟨TB_STAT t, 3, 0⟩

/-- 0x0300 + 32·t + 2 TB_SEC (10_network_time.md). -/
def TB_SEC (t : Nat) : Nat := 0x0302 + 32 * t
def TB_SEC_SEC (t : Nat) : Fld := ⟨TB_SEC t, 63, 0⟩

/-- 0x0300 + 32·t + 3 TB_NS (10_network_time.md). -/
def TB_NS (t : Nat) : Nat := 0x0303 + 32 * t
def TB_NS_NS (t : Nat) : Fld := ⟨TB_NS t, 63, 32⟩
def TB_NS_FRAC (t : Nat) : Fld := ⟨TB_NS t, 31, 0⟩

/-- 0x0300 + 32·t + 4 TB_SERVO (10_network_time.md). -/
def TB_SERVO (t : Nat) : Nat := 0x0304 + 32 * t
def TB_SERVO_FMAX (t : Nat) : Fld := ⟨TB_SERVO t, 56, 40⟩
def TB_SERVO_SLEWMAX (t : Nat) : Fld := ⟨TB_SERVO t, 32, 16⟩
def TB_SERVO_KI (t : Nat) : Fld := ⟨TB_SERVO t, 12, 8⟩
def TB_SERVO_KP (t : Nat) : Fld := ⟨TB_SERVO t, 4, 0⟩

/-- 0x0300 + 32·t + 5 TB_LIMITS (10_network_time.md). -/
def TB_LIMITS (t : Nat) : Nat := 0x0305 + 32 * t
def TB_LIMITS_STEPLIM (t : Nat) : Fld := ⟨TB_LIMITS t, 63, 32⟩
def TB_LIMITS_LOCK_NS (t : Nat) : Fld := ⟨TB_LIMITS t, 15, 0⟩

/-- 0x0300 + 32·t + 6 TB_FREQ (10_network_time.md). -/
def TB_FREQ (t : Nat) : Nat := 0x0306 + 32 * t
def TB_FREQ_Y (t : Nat) : Fld := ⟨TB_FREQ t, 63, 32⟩
def TB_FREQ_YI (t : Nat) : Fld := ⟨TB_FREQ t, 31, 0⟩

/-- 0x0300 + 32·t + 7 TB_OFFSET (10_network_time.md). -/
def TB_OFFSET (t : Nat) : Nat := 0x0307 + 32 * t
def TB_OFFSET_THETA (t : Nat) : Fld := ⟨TB_OFFSET t, 63, 0⟩

/-- 0x0300 + 32·t + 8 TB_ROFF (10_network_time.md). -/
def TB_ROFF (t : Nat) : Nat := 0x0308 + 32 * t
def TB_ROFF_THETA (t : Nat) : Fld := ⟨TB_ROFF t, 63, 0⟩

/-- 0x0300 + 32·t + 9 TB_DS (10_network_time.md). -/
def TB_DS (t : Nat) : Nat := 0x0309 + 32 * t
def TB_DS_UTCOFF (t : Nat) : Fld := ⟨TB_DS t, 63, 48⟩
def TB_DS_ACC (t : Nat) : Fld := ⟨TB_DS t, 39, 32⟩
def TB_DS_CLASS (t : Nat) : Fld := ⟨TB_DS t, 31, 24⟩
def TB_DS_PRIORITY2 (t : Nat) : Fld := ⟨TB_DS t, 23, 16⟩
def TB_DS_PRIORITY1 (t : Nat) : Fld := ⟨TB_DS t, 15, 8⟩
def TB_DS_SLAVE_ONLY (t : Nat) : Fld := ⟨TB_DS t, 0, 0⟩

/-- 0x0300 + 32·t + 10 TB_PARENT and + 11 TB_GMID (10_network_time.md). -/
def TB_PARENT (t : Nat) : Nat := 0x030A + 32 * t
def TB_PARENT_ID (t : Nat) : Fld := ⟨TB_PARENT t, 63, 0⟩

/-- 0x0300 + 32·t + 10 TB_PARENT and + 11 TB_GMID (10_network_time.md). -/
def TB_GMID (t : Nat) : Nat := 0x030B + 32 * t
def TB_GMID_ID (t : Nat) : Fld := ⟨TB_GMID t, 63, 0⟩

/-- 0x0300 + 32·t + 12 TB_EXTOFF (10_network_time.md). -/
def TB_EXTOFF (t : Nat) : Nat := 0x030C + 32 * t
def TB_EXTOFF_THETA (t : Nat) : Fld := ⟨TB_EXTOFF t, 63, 0⟩

/-- 0x0300 + 32·t + 13 TB_CNT (10_network_time.md). -/
def TB_CNT (t : Nat) : Nat := 0x030D + 32 * t
def TB_CNT_UPDATES (t : Nat) : Fld := ⟨TB_CNT t, 63, 48⟩
def TB_CNT_REFUSED (t : Nat) : Fld := ⟨TB_CNT t, 47, 32⟩
def TB_CNT_SYNC_TO (t : Nat) : Fld := ⟨TB_CNT t, 31, 16⟩
def TB_CNT_PTP_DROP (t : Nat) : Fld := ⟨TB_CNT t, 15, 0⟩

/-- 0x0380 + 4·a + 0 ALM_CFG (10_network_time.md). -/
def ALM_CFG (a : Nat) : Nat := 0x0380 + 4 * a
def ALM_CFG_PERIOD (a : Nat) : Fld := ⟨ALM_CFG a, 63, 16⟩
def ALM_CFG_ACT (a : Nat) : Fld := ⟨ALM_CFG a, 14, 8⟩
def ALM_CFG_SKIP (a : Nat) : Fld := ⟨ALM_CFG a, 3, 3⟩
def ALM_CFG_TB (a : Nat) : Fld := ⟨ALM_CFG a, 2, 1⟩
def ALM_CFG_EN (a : Nat) : Fld := ⟨ALM_CFG a, 0, 0⟩

/-- 0x0380 + 4·a + 1 ALM_SEC (10_network_time.md). -/
def ALM_SEC (a : Nat) : Nat := 0x0381 + 4 * a
def ALM_SEC_SEC (a : Nat) : Fld := ⟨ALM_SEC a, 63, 0⟩

/-- 0x0380 + 4·a + 2 ALM_NS (10_network_time.md). -/
def ALM_NS (a : Nat) : Nat := 0x0382 + 4 * a
def ALM_NS_NS (a : Nat) : Fld := ⟨ALM_NS a, 29, 0⟩

/-- 0x0380 + 4·a + 3 ALM_STAT (10_network_time.md). -/
def ALM_STAT (a : Nat) : Nat := 0x0383 + 4 * a
def ALM_STAT_FIRES (a : Nat) : Fld := ⟨ALM_STAT a, 63, 48⟩
def ALM_STAT_SKIPPED (a : Nat) : Fld := ⟨ALM_STAT a, 47, 32⟩
def ALM_STAT_LATE (a : Nat) : Fld := ⟨ALM_STAT a, 1, 1⟩
def ALM_STAT_ARMED (a : Nat) : Fld := ⟨ALM_STAT a, 0, 0⟩

/-- 0x03C0 TIME_CFG (10_network_time.md). -/
def TIME_CFG : Nat := 0x03C0
def TIME_CFG_FWTB : Fld := ⟨TIME_CFG, 5, 4⟩
def TIME_CFG_SAMPLE_TB : Fld := ⟨TIME_CFG, 1, 0⟩

/-- 0x03C1 TIME_CMD (10_network_time.md). -/
def TIME_CMD : Nat := 0x03C1
def TIME_CMD_TB : Fld := ⟨TIME_CMD, 5, 4⟩
def TIME_CMD_OP : Fld := ⟨TIME_CMD, 2, 0⟩

/-- 0x03C2 TIME_CMDSEC (10_network_time.md). -/
def TIME_CMDSEC : Nat := 0x03C2
def TIME_CMDSEC_SEC : Fld := ⟨TIME_CMDSEC, 63, 0⟩

/-- 0x03C3 TIME_CMDNS (10_network_time.md). -/
def TIME_CMDNS : Nat := 0x03C3
def TIME_CMDNS_NS : Fld := ⟨TIME_CMDNS, 29, 0⟩

/-- 0x03C4 TIME_CMDOFF (10_network_time.md). -/
def TIME_CMDOFF : Nat := 0x03C4
def TIME_CMDOFF_OFF : Fld := ⟨TIME_CMDOFF, 63, 0⟩

/-- 0x03C5 TIME_PPS (10_network_time.md). -/
def TIME_PPS : Nat := 0x03C5
def TIME_PPS_OFFSET : Fld := ⟨TIME_PPS, 63, 48⟩
def TIME_PPS_WIDTH : Fld := ⟨TIME_PPS, 27, 8⟩
def TIME_PPS_OUT_TB : Fld := ⟨TIME_PPS, 3, 2⟩
def TIME_PPS_OUT_SRC : Fld := ⟨TIME_PPS, 1, 0⟩

/-- 0x03C6 TIME_PPSIN (10_network_time.md). -/
def TIME_PPSIN : Nat := 0x03C6
def TIME_PPSIN_BAD : Fld := ⟨TIME_PPSIN, 63, 48⟩
def TIME_PPSIN_ACCEPTED : Fld := ⟨TIME_PPSIN, 47, 32⟩
def TIME_PPSIN_DLY : Fld := ⟨TIME_PPSIN, 15, 0⟩

/-- 0x03C8 + l TIME_LAT (10_network_time.md). -/
def TIME_LAT (l : Nat) : Nat := 0x03C8 + l
def TIME_LAT_ING (l : Nat) : Fld := ⟨TIME_LAT l, 63, 32⟩
def TIME_LAT_EGR (l : Nat) : Fld := ⟨TIME_LAT l, 31, 0⟩

/-- 0x0500 + 64·l + 0 LANE_CFG (11_lanes_switch.md). -/
def LANE_CFG (l : Nat) : Nat := 0x0500 + 64 * l
def LANE_CFG_GROUP (l : Nat) : Fld := ⟨LANE_CFG l, 19, 18⟩
def LANE_CFG_FIXRATE (l : Nat) : Fld := ⟨LANE_CFG l, 15, 14⟩
def LANE_CFG_FEC (l : Nat) : Fld := ⟨LANE_CFG l, 13, 12⟩
def LANE_CFG_RATES (l : Nat) : Fld := ⟨LANE_CFG l, 10, 8⟩
def LANE_CFG_ROLE (l : Nat) : Fld := ⟨LANE_CFG l, 5, 4⟩
def LANE_CFG_EN (l : Nat) : Fld := ⟨LANE_CFG l, 0, 0⟩

/-- 0x0500 + 64·l + 1 LANE_STAT (11_lanes_switch.md). -/
def LANE_STAT (l : Nat) : Nat := 0x0501 + 64 * l
def LANE_STAT_RETRAINS (l : Nat) : Fld := ⟨LANE_STAT l, 63, 48⟩
def LANE_STAT_LASTLOSS (l : Nat) : Fld := ⟨LANE_STAT l, 42, 40⟩
def LANE_STAT_BARRED (l : Nat) : Fld := ⟨LANE_STAT l, 26, 24⟩
def LANE_STAT_PARTNER_NEIL (l : Nat) : Fld := ⟨LANE_STAT l, 20, 20⟩
def LANE_STAT_FEC_ON (l : Nat) : Fld := ⟨LANE_STAT l, 19, 19⟩
def LANE_STAT_RATE (l : Nat) : Fld := ⟨LANE_STAT l, 18, 16⟩
def LANE_STAT_ACTIVE (l : Nat) : Fld := ⟨LANE_STAT l, 11, 11⟩
def LANE_STAT_STATE (l : Nat) : Fld := ⟨LANE_STAT l, 3, 0⟩

/-- 0x0500 + 64·l + 2 LANE_PCAP (11_lanes_switch.md). -/
def LANE_PCAP (l : Nat) : Nat := 0x0502 + 64 * l
def LANE_PCAP_VALID (l : Nat) : Fld := ⟨LANE_PCAP l, 63, 63⟩
def LANE_PCAP_OCTETS (l : Nat) : Fld := ⟨LANE_PCAP l, 47, 0⟩

/-- 0x0500 + 64·l + 3 LANE_TEST (11_lanes_switch.md). -/
def LANE_TEST (l : Nat) : Nat := 0x0503 + 64 * l
def LANE_TEST_RATE (l : Nat) : Fld := ⟨LANE_TEST l, 9, 8⟩
def LANE_TEST_PAT (l : Nat) : Fld := ⟨LANE_TEST l, 5, 4⟩
def LANE_TEST_LOOP (l : Nat) : Fld := ⟨LANE_TEST l, 2, 1⟩
def LANE_TEST_EN (l : Nat) : Fld := ⟨LANE_TEST l, 0, 0⟩

/-- 0x0500 + 64·l + 4 LANE_PRBS (11_lanes_switch.md). -/
def LANE_PRBS (l : Nat) : Nat := 0x0504 + 64 * l
def LANE_PRBS_ERR (l : Nat) : Fld := ⟨LANE_PRBS l, 63, 32⟩
def LANE_PRBS_BITS (l : Nat) : Fld := ⟨LANE_PRBS l, 31, 2⟩
def LANE_PRBS_LOCKLOST (l : Nat) : Fld := ⟨LANE_PRBS l, 1, 1⟩
def LANE_PRBS_LOCK (l : Nat) : Fld := ⟨LANE_PRBS l, 0, 0⟩

/-- 0x0500 + 64·l + 5 LANE_CNT (11_lanes_switch.md). -/
def LANE_CNT (l : Nat) : Nat := 0x0505 + 64 * l
def LANE_CNT_FCS_ERR (l : Nat) : Fld := ⟨LANE_CNT l, 63, 48⟩
def LANE_CNT_RESENT (l : Nat) : Fld := ⟨LANE_CNT l, 47, 32⟩
def LANE_CNT_FEC_CORR (l : Nat) : Fld := ⟨LANE_CNT l, 31, 16⟩
def LANE_CNT_FEC_UNCORR (l : Nat) : Fld := ⟨LANE_CNT l, 15, 0⟩

/-- 0x0500 + 64·l + 6 LANE_EQ (11_lanes_switch.md). -/
def LANE_EQ (l : Nat) : Nat := 0x0506 + 64 * l
def LANE_EQ_SWING (l : Nat) : Fld := ⟨LANE_EQ l, 18, 16⟩
def LANE_EQ_PRE (l : Nat) : Fld := ⟨LANE_EQ l, 13, 8⟩
def LANE_EQ_POST (l : Nat) : Fld := ⟨LANE_EQ l, 5, 0⟩

/-- 0x0500 + 64·l + 7 LANE_CTL (11_lanes_switch.md). -/
def LANE_CTL (l : Nat) : Nat := 0x0507 + 64 * l
def LANE_CTL_MAKE_ACTIVE (l : Nat) : Fld := ⟨LANE_CTL l, 0, 0⟩

/-- 0x0600 SW_CFG (11_lanes_switch.md). -/
def SW_CFG : Nat := 0x0600
def SW_CFG_ETYPE : Fld := ⟨SW_CFG, 63, 48⟩
def SW_CFG_UDPPORT : Fld := ⟨SW_CFG, 47, 32⟩
def SW_CFG_AGE : Fld := ⟨SW_CFG, 31, 20⟩
def SW_CFG_ENCAP : Fld := ⟨SW_CFG, 17, 16⟩
def SW_CFG_TCMODE : Fld := ⟨SW_CFG, 8, 8⟩
def SW_CFG_CT : Fld := ⟨SW_CFG, 0, 0⟩

/-- 0x0601 SW_MAC (11_lanes_switch.md). -/
def SW_MAC : Nat := 0x0601
def SW_MAC_MAC : Fld := ⟨SW_MAC, 47, 0⟩

/-- 0x0602 SW_IP4 (11_lanes_switch.md). -/
def SW_IP4 : Nat := 0x0602
def SW_IP4_ADDR : Fld := ⟨SW_IP4, 31, 0⟩

/-- 0x0603 SW_IP6_HI and 0x0604 SW_IP6_LO (11_lanes_switch.md). -/
def SW_IP6_HI : Nat := 0x0603
def SW_IP6_HI_ADDR : Fld := ⟨SW_IP6_HI, 63, 0⟩

/-- 0x0603 SW_IP6_HI and 0x0604 SW_IP6_LO (11_lanes_switch.md). -/
def SW_IP6_LO : Nat := 0x0604
def SW_IP6_LO_ADDR : Fld := ⟨SW_IP6_LO, 63, 0⟩

/-- 0x0608 SW_VLAN_PTR (11_lanes_switch.md). -/
def SW_VLAN_PTR : Nat := 0x0608
def SW_VLAN_PTR_VID : Fld := ⟨SW_VLAN_PTR, 11, 0⟩

/-- 0x0609 SW_VLAN_DATA (11_lanes_switch.md). -/
def SW_VLAN_DATA : Nat := 0x0609
def SW_VLAN_DATA_UNTAG : Fld := ⟨SW_VLAN_DATA, 9, 5⟩
def SW_VLAN_DATA_MEMBER : Fld := ⟨SW_VLAN_DATA, 4, 0⟩

/-- 0x0610 + p SW_PORT (11_lanes_switch.md). -/
def SW_PORT (p : Nat) : Nat := 0x0610 + p
def SW_PORT_LOOPBLK (p : Nat) : Fld := ⟨SW_PORT p, 24, 24⟩
def SW_PORT_ACCEPT (p : Nat) : Fld := ⟨SW_PORT p, 17, 16⟩
def SW_PORT_PCP (p : Nat) : Fld := ⟨SW_PORT p, 14, 12⟩
def SW_PORT_PVID (p : Nat) : Fld := ⟨SW_PORT p, 11, 0⟩

/-- 0x0620 SW_FDB_PTR (11_lanes_switch.md). -/
def SW_FDB_PTR : Nat := 0x0620
def SW_FDB_PTR_INDEX : Fld := ⟨SW_FDB_PTR, 7, 0⟩

/-- 0x0621 SW_FDB_DATA (11_lanes_switch.md). -/
def SW_FDB_DATA : Nat := 0x0621
def SW_FDB_DATA_VALID : Fld := ⟨SW_FDB_DATA, 63, 63⟩
def SW_FDB_DATA_PORTS : Fld := ⟨SW_FDB_DATA, 52, 48⟩
def SW_FDB_DATA_MAC : Fld := ⟨SW_FDB_DATA, 47, 0⟩

/-- 0x0630 SW_TCCNT (11_lanes_switch.md). -/
def SW_TCCNT : Nat := 0x0630
def SW_TCCNT_TC_NOMATCH : Fld := ⟨SW_TCCNT, 63, 48⟩
def SW_TCCNT_TC_SF : Fld := ⟨SW_TCCNT, 47, 32⟩
def SW_TCCNT_LOOPS : Fld := ⟨SW_TCCNT, 31, 16⟩
def SW_TCCNT_NEIL_BAD : Fld := ⟨SW_TCCNT, 15, 0⟩

/-- 0x0631 SW_QLIM (11_lanes_switch.md). -/
def SW_QLIM : Nat := 0x0631
def SW_QLIM_BYTES : Fld := ⟨SW_QLIM, 19, 0⟩

/-- 0x0640 + p SW_CNT (11_lanes_switch.md). -/
def SW_CNT (p : Nat) : Nat := 0x0640 + p
def SW_CNT_DROP_Q (p : Nat) : Fld := ⟨SW_CNT p, 63, 48⟩
def SW_CNT_DROP_FILT (p : Nat) : Fld := ⟨SW_CNT p, 47, 32⟩
def SW_CNT_STOMP (p : Nat) : Fld := ⟨SW_CNT p, 31, 16⟩
def SW_CNT_PAUSE_RX (p : Nat) : Fld := ⟨SW_CNT p, 15, 0⟩

/-- 0x0C00 + 4·q + 0 QUE_CFG (12_streams_queues_ledger.md). -/
def QUE_CFG (q : Nat) : Nat := 0x0C00 + 4 * q
def QUE_CFG_BASE (q : Nat) : Fld := ⟨QUE_CFG q, 63, 40⟩
def QUE_CFG_SIZE (q : Nat) : Fld := ⟨QUE_CFG q, 36, 32⟩
def QUE_CFG_LOC (q : Nat) : Fld := ⟨QUE_CFG q, 21, 21⟩
def QUE_CFG_PROD (q : Nat) : Fld := ⟨QUE_CFG q, 20, 16⟩
def QUE_CFG_EN (q : Nat) : Fld := ⟨QUE_CFG q, 0, 0⟩

/-- 0x0C00 + 4·q + 1 QUE_PTR (12_streams_queues_ledger.md). -/
def QUE_PTR (q : Nat) : Nat := 0x0C01 + 4 * q
def QUE_PTR_WP (q : Nat) : Fld := ⟨QUE_PTR q, 63, 39⟩
def QUE_PTR_RP (q : Nat) : Fld := ⟨QUE_PTR q, 38, 14⟩

/-- 0x0C00 + 4·q + 2 QUE_STAT (12_streams_queues_ledger.md). -/
def QUE_STAT (q : Nat) : Nat := 0x0C02 + 4 * q
def QUE_STAT_PKTS (q : Nat) : Fld := ⟨QUE_STAT q, 63, 48⟩
def QUE_STAT_DISC (q : Nat) : Fld := ⟨QUE_STAT q, 45, 45⟩
def QUE_STAT_OPEN (q : Nat) : Fld := ⟨QUE_STAT q, 44, 44⟩
def QUE_STAT_SP (q : Nat) : Fld := ⟨QUE_STAT q, 24, 0⟩

/-- 0x0C00 + 4·q + 3 QUE_CTL (12_streams_queues_ledger.md). -/
def QUE_CTL (q : Nat) : Nat := 0x0C03 + 4 * q
def QUE_CTL_OVF (q : Nat) : Fld := ⟨QUE_CTL q, 63, 48⟩
def QUE_CTL_POISON (q : Nat) : Fld := ⟨QUE_CTL q, 47, 32⟩
def QUE_CTL_FLUSHED (q : Nat) : Fld := ⟨QUE_CTL q, 31, 16⟩
def QUE_CTL_FLUSH (q : Nat) : Fld := ⟨QUE_CTL q, 0, 0⟩

/-- 0x0D00 STRM_PTR (12_streams_queues_ledger.md). -/
def STRM_PTR : Nat := 0x0D00
def STRM_PTR_ENTRY : Fld := ⟨STRM_PTR, 12, 2⟩
def STRM_PTR_WORD : Fld := ⟨STRM_PTR, 1, 0⟩

/-- 0x0D01 STRM_DATA (12_streams_queues_ledger.md). -/
def STRM_DATA : Nat := 0x0D01
def STRM_DATA_DATA : Fld := ⟨STRM_DATA, 63, 0⟩

/-- 0x0D02 STRM_CNT (12_streams_queues_ledger.md). -/
def STRM_CNT : Nat := 0x0D02
def STRM_CNT_FRAMING : Fld := ⟨STRM_CNT, 63, 48⟩
def STRM_CNT_CHAN_OUT : Fld := ⟨STRM_CNT, 47, 32⟩
def STRM_CNT_OFFWORDS : Fld := ⟨STRM_CNT, 31, 16⟩
def STRM_CNT_LATEWORDS : Fld := ⟨STRM_CNT, 15, 0⟩

/-- 0x0D10 + 2·i STRM_IP6_HI and + 1 STRM_IP6_LO (12_streams_queues_ledger.md). -/
def STRM_IP6_HI (i : Nat) : Nat := 0x0D10 + 2 * i
def STRM_IP6_HI_ADDR (i : Nat) : Fld := ⟨STRM_IP6_HI i, 63, 0⟩

/-- 0x0D10 + 2·i STRM_IP6_HI and + 1 STRM_IP6_LO (12_streams_queues_ledger.md). -/
def STRM_IP6_LO (i : Nat) : Nat := 0x0D11 + 2 * i
def STRM_IP6_LO_ADDR (i : Nat) : Fld := ⟨STRM_IP6_LO i, 63, 0⟩

/-- 0x0D40 LED_CFG (12_streams_queues_ledger.md). -/
def LED_CFG : Nat := 0x0D40
def LED_CFG_DEFRATIO : Fld := ⟨LED_CFG, 1, 0⟩

/-- 0x0D41 LED_HORIZON (12_streams_queues_ledger.md). -/
def LED_HORIZON : Nat := 0x0D41
def LED_HORIZON_H : Fld := ⟨LED_HORIZON, 63, 0⟩

/-- 0x0D42 LED_NEWEST (12_streams_queues_ledger.md). -/
def LED_NEWEST : Nat := 0x0D42
def LED_NEWEST_FIRST : Fld := ⟨LED_NEWEST, 63, 0⟩

/-- 0x0D43 LED_STAT (12_streams_queues_ledger.md). -/
def LED_STAT : Nat := 0x0D43
def LED_STAT_LANES : Fld := ⟨LED_STAT, 63, 48⟩
def LED_STAT_EVICT : Fld := ⟨LED_STAT, 47, 32⟩
def LED_STAT_REPLAYS : Fld := ⟨LED_STAT, 31, 16⟩
def LED_STAT_RDFAIL : Fld := ⟨LED_STAT, 15, 0⟩

/-- 0x1F00 CMP_STAT (13_compression.md). -/
def CMP_STAT : Nat := 0x1F00
def CMP_STAT_BLOCKS : Fld := ⟨CMP_STAT, 63, 32⟩
def CMP_STAT_LOSSY : Fld := ⟨CMP_STAT, 31, 0⟩

/-- 0x1F01 CMP_CNT (13_compression.md). -/
def CMP_CNT : Nat := 0x1F01
def CMP_CNT_UNFIT : Fld := ⟨CMP_CNT, 63, 48⟩
def CMP_CNT_SELFCHK : Fld := ⟨CMP_CNT, 47, 32⟩
def CMP_CNT_PEER_CRC : Fld := ⟨CMP_CNT, 31, 16⟩
def CMP_CNT_HOST_FAULT : Fld := ⟨CMP_CNT, 15, 0⟩

/-- 0x1F02 CMP_LAST (13_compression.md). -/
def CMP_LAST : Nat := 0x1F02
def CMP_LAST_RX_UNMATCHED : Fld := ⟨CMP_LAST, 63, 48⟩
def CMP_LAST_CODER_FAULT : Fld := ⟨CMP_LAST, 1, 1⟩

/-- 0x1F03 CMP_MASK (13_compression.md). -/
def CMP_MASK : Nat := 0x1F03
def CMP_MASK_MASK : Fld := ⟨CMP_MASK, 5, 0⟩

/-- 0x1F10 + 4·j + 0 CMP_RX_CFG (13_compression.md). -/
def CMP_RX_CFG (j : Nat) : Nat := 0x1F10 + 4 * j
def CMP_RX_CFG_EN (j : Nat) : Fld := ⟨CMP_RX_CFG j, 63, 63⟩
def CMP_RX_CFG_STREAM (j : Nat) : Fld := ⟨CMP_RX_CFG j, 58, 48⟩
def CMP_RX_CFG_SMAC (j : Nat) : Fld := ⟨CMP_RX_CFG j, 47, 0⟩

/-- 0x1F10 + 4·j + 1 CMP_RX_RING (13_compression.md). -/
def CMP_RX_RING (j : Nat) : Nat := 0x1F11 + 4 * j
def CMP_RX_RING_BASE (j : Nat) : Fld := ⟨CMP_RX_RING j, 63, 32⟩
def CMP_RX_RING_SIZE (j : Nat) : Fld := ⟨CMP_RX_RING j, 4, 0⟩

/-- 0x1F10 + 4·j + 2 CMP_RX_WP (13_compression.md). -/
def CMP_RX_WP (j : Nat) : Nat := 0x1F12 + 4 * j
def CMP_RX_WP_WP (j : Nat) : Fld := ⟨CMP_RX_WP j, 63, 0⟩

/-- 0x1F10 + 4·j + 3 CMP_RX_CNT (13_compression.md). -/
def CMP_RX_CNT (j : Nat) : Nat := 0x1F13 + 4 * j
def CMP_RX_CNT_PKTS (j : Nat) : Fld := ⟨CMP_RX_CNT j, 63, 32⟩
def CMP_RX_CNT_CRCFAIL (j : Nat) : Fld := ⟨CMP_RX_CNT j, 31, 16⟩
def CMP_RX_CNT_SEQGAP (j : Nat) : Fld := ⟨CMP_RX_CNT j, 15, 0⟩

/-- 0x0030 SYS_AUTH (14_host_access.md). -/
def SYS_AUTH : Nat := 0x0030
def SYS_AUTH_LOCK : Fld := ⟨SYS_AUTH, 63, 63⟩
def SYS_AUTH_SP : Fld := ⟨SYS_AUTH, 9, 8⟩
def SYS_AUTH_L3 : Fld := ⟨SYS_AUTH, 7, 6⟩
def SYS_AUTH_L2 : Fld := ⟨SYS_AUTH, 5, 4⟩
def SYS_AUTH_L1 : Fld := ⟨SYS_AUTH, 3, 2⟩
def SYS_AUTH_L0 : Fld := ⟨SYS_AUTH, 1, 0⟩

/-- 0x0038 SYS_SPSTAT (14_host_access.md). -/
def SYS_SPSTAT : Nat := 0x0038
def SYS_SPSTAT_SHORT : Fld := ⟨SYS_SPSTAT, 63, 48⟩
def SYS_SPSTAT_LONG : Fld := ⟨SYS_SPSTAT, 47, 32⟩
def SYS_SPSTAT_ILLEGAL : Fld := ⟨SYS_SPSTAT, 31, 24⟩
def SYS_SPSTAT_REFUSED : Fld := ⟨SYS_SPSTAT, 23, 16⟩
def SYS_SPSTAT_LOSTV : Fld := ⟨SYS_SPSTAT, 15, 15⟩
def SYS_SPSTAT_LOSTADDR : Fld := ⟨SYS_SPSTAT, 12, 0⟩

/-- 0x0039 SYS_SPLOST (14_host_access.md). -/
def SYS_SPLOST : Nat := 0x0039
def SYS_SPLOST_VALUE : Fld := ⟨SYS_SPLOST, 63, 0⟩

/-- 0x003A SYS_SPSTAMP (14_host_access.md). -/
def SYS_SPSTAMP : Nat := 0x003A
def SYS_SPSTAMP_STAMP : Fld := ⟨SYS_SPSTAMP, 63, 0⟩

/-- 0x0040 + l SYS_HOST (14_host_access.md). -/
def SYS_HOST (l : Nat) : Nat := 0x0040 + l
def SYS_HOST_CMDS (l : Nat) : Fld := ⟨SYS_HOST l, 63, 48⟩
def SYS_HOST_CMD_DROP (l : Nat) : Fld := ⟨SYS_HOST l, 47, 32⟩
def SYS_HOST_REFUSED (l : Nat) : Fld := ⟨SYS_HOST l, 31, 16⟩
def SYS_HOST_DUPS (l : Nat) : Fld := ⟨SYS_HOST l, 15, 0⟩

/-- 0x1F40 + 16·n + 0 SSP_CFG (14_host_access.md). -/
def SSP_CFG (n : Nat) : Nat := 0x1F40 + 16 * n
def SSP_CFG_GAP (n : Nat) : Fld := ⟨SSP_CFG n, 23, 16⟩
def SSP_CFG_DIV (n : Nat) : Fld := ⟨SSP_CFG n, 15, 8⟩
def SSP_CFG_MODE (n : Nat) : Fld := ⟨SSP_CFG n, 7, 0⟩

/-- 0x1F40 + 16·n + 1 SSP_CTL (14_host_access.md). -/
def SSP_CTL (n : Nat) : Nat := 0x1F41 + 16 * n
def SSP_CTL_POP (n : Nat) : Fld := ⟨SSP_CTL n, 2, 2⟩
def SSP_CTL_STOP (n : Nat) : Fld := ⟨SSP_CTL n, 1, 1⟩
def SSP_CTL_GO (n : Nat) : Fld := ⟨SSP_CTL n, 0, 0⟩

/-- 0x1F40 + 16·n + 2 SSP_STAT (14_host_access.md). -/
def SSP_STAT (n : Nat) : Nat := 0x1F42 + 16 * n
def SSP_STAT_RUNS (n : Nat) : Fld := ⟨SSP_STAT n, 63, 48⟩
def SSP_STAT_OVR (n : Nat) : Fld := ⟨SSP_STAT n, 47, 32⟩
def SSP_STAT_LATE (n : Nat) : Fld := ⟨SSP_STAT n, 31, 16⟩
def SSP_STAT_BUSY (n : Nat) : Fld := ⟨SSP_STAT n, 8, 8⟩
def SSP_STAT_RXCNT (n : Nat) : Fld := ⟨SSP_STAT n, 7, 0⟩

/-- 0x1F40 + 16·n + 3 SSP_RXD (14_host_access.md). -/
def SSP_RXD (n : Nat) : Nat := 0x1F43 + 16 * n
def SSP_RXD_VALID (n : Nat) : Fld := ⟨SSP_RXD n, 63, 63⟩
def SSP_RXD_K (n : Nat) : Fld := ⟨SSP_RXD n, 62, 60⟩
def SSP_RXD_SEL (n : Nat) : Fld := ⟨SSP_RXD n, 59, 58⟩
def SSP_RXD_RUN (n : Nat) : Fld := ⟨SSP_RXD n, 55, 48⟩
def SSP_RXD_DATA (n : Nat) : Fld := ⟨SSP_RXD n, 47, 0⟩

/-- 0x1F40 + 16·n + 4 SSP_RXT (14_host_access.md). -/
def SSP_RXT (n : Nat) : Nat := 0x1F44 + 16 * n
def SSP_RXT_STAMP (n : Nat) : Fld := ⟨SSP_RXT n, 63, 0⟩

/-- 0x1F40 + 16·n + 8 + k SSP_SEQ (14_host_access.md). -/
def SSP_SEQ (n k : Nat) : Nat := 0x1F40 + 16 * n + 8 + k
def SSP_SEQ_V (n k : Nat) : Fld := ⟨SSP_SEQ n k, 63, 63⟩
def SSP_SEQ_SEL (n k : Nat) : Fld := ⟨SSP_SEQ n k, 57, 56⟩
def SSP_SEQ_NB (n k : Nat) : Fld := ⟨SSP_SEQ n k, 55, 53⟩
def SSP_SEQ_TX (n k : Nat) : Fld := ⟨SSP_SEQ n k, 47, 0⟩

/-- 0x0700 PAIR_CFG (15_pair_operation.md). -/
def PAIR_CFG : Nat := 0x0700
def PAIR_CFG_TAKEBACK : Fld := ⟨PAIR_CFG, 47, 32⟩
def PAIR_CFG_EN : Fld := ⟨PAIR_CFG, 0, 0⟩

/-- 0x0701 PAIR_STAT (15_pair_operation.md). -/
def PAIR_STAT : Nat := 0x0701
def PAIR_STAT_NRCAUSE : Fld := ⟨PAIR_STAT, 63, 56⟩
def PAIR_STAT_CONTEND : Fld := ⟨PAIR_STAT, 11, 11⟩
def PAIR_STAT_GUARD : Fld := ⟨PAIR_STAT, 10, 10⟩
def PAIR_STAT_HPEND : Fld := ⟨PAIR_STAT, 9, 9⟩
def PAIR_STAT_PROOF : Fld := ⟨PAIR_STAT, 8, 8⟩
def PAIR_STAT_PARTNER : Fld := ⟨PAIR_STAT, 7, 7⟩
def PAIR_STAT_READY : Fld := ⟨PAIR_STAT, 6, 6⟩
def PAIR_STAT_DESIG : Fld := ⟨PAIR_STAT, 5, 5⟩
def PAIR_STAT_ROLE : Fld := ⟨PAIR_STAT, 3, 2⟩

/-- 0x0702 PAIR_PROOF (15_pair_operation.md). -/
def PAIR_PROOF : Nat := 0x0702
def PAIR_PROOF_PERIOD : Fld := ⟨PAIR_PROOF, 47, 32⟩
def PAIR_PROOF_LEN : Fld := ⟨PAIR_PROOF, 15, 0⟩

/-- 0x0703 PAIR_CTL (15_pair_operation.md). -/
def PAIR_CTL : Nat := 0x0703
def PAIR_CTL_CLEARPF : Fld := ⟨PAIR_CTL, 3, 3⟩
def PAIR_CTL_CANCEL : Fld := ⟨PAIR_CTL, 2, 2⟩
def PAIR_CTL_PROOF : Fld := ⟨PAIR_CTL, 1, 1⟩
def PAIR_CTL_SWITCH : Fld := ⟨PAIR_CTL, 0, 0⟩

/-- 0x0704 PAIR_AT (15_pair_operation.md). -/
def PAIR_AT : Nat := 0x0704
def PAIR_AT_SLOT : Fld := ⟨PAIR_AT, 63, 0⟩

/-- 0x0705 PAIR_HSLOT (15_pair_operation.md). -/
def PAIR_HSLOT : Nat := 0x0705
def PAIR_HSLOT_SLOT : Fld := ⟨PAIR_HSLOT, 63, 0⟩

/-- 0x0706 PAIR_CNT (15_pair_operation.md). -/
def PAIR_CNT : Nat := 0x0706
def PAIR_CNT_SWITCHOVERS : Fld := ⟨PAIR_CNT, 63, 48⟩
def PAIR_CNT_HANDOVERS : Fld := ⟨PAIR_CNT, 47, 32⟩
def PAIR_CNT_PROOF_FAIL : Fld := ⟨PAIR_CNT, 31, 16⟩
def PAIR_CNT_FRAME_LOST : Fld := ⟨PAIR_CNT, 15, 0⟩

/-- 0x0F00 CAL_CFG (16_calibration.md). -/
def CAL_CFG : Nat := 0x0F00
def CAL_CFG_TDELTA : Fld := ⟨CAL_CFG, 47, 40⟩
def CAL_CFG_CONC : Fld := ⟨CAL_CFG, 36, 32⟩
def CAL_CFG_MAXAGE : Fld := ⟨CAL_CFG, 31, 16⟩
def CAL_CFG_EN : Fld := ⟨CAL_CFG, 0, 0⟩

/-- 0x0F01 CAL_EXTREF (16_calibration.md). -/
def CAL_EXTREF : Nat := 0x0F01
def CAL_EXTREF_VALUE : Fld := ⟨CAL_EXTREF, 31, 0⟩

/-- 0x0F02 CAL_CTL (16_calibration.md). -/
def CAL_CTL : Nat := 0x0F02
def CAL_CTL_ABORT : Fld := ⟨CAL_CTL, 24, 24⟩
def CAL_CTL_BANKS : Fld := ⟨CAL_CTL, 23, 0⟩

/-- 0x0F03 CAL_STAT (16_calibration.md). -/
def CAL_STAT : Nat := 0x0F03
def CAL_STAT_ACC_STEP : Fld := ⟨CAL_STAT, 55, 52⟩
def CAL_STAT_DUE : Fld := ⟨CAL_STAT, 47, 24⟩
def CAL_STAT_ACTIVE : Fld := ⟨CAL_STAT, 23, 0⟩

/-- 0x0F04 CAL_SET (16_calibration.md). -/
def CAL_SET : Nat := 0x0F04
def CAL_SET_SEQ : Fld := ⟨CAL_SET, 63, 32⟩
def CAL_SET_PENDING : Fld := ⟨CAL_SET, 15, 8⟩
def CAL_SET_SRC : Fld := ⟨CAL_SET, 3, 2⟩
def CAL_SET_OTHER_VALID : Fld := ⟨CAL_SET, 1, 1⟩
def CAL_SET_FBANK : Fld := ⟨CAL_SET, 0, 0⟩

/-- 0x0F05 CAL_VINT (16_calibration.md). -/
def CAL_VINT : Nat := 0x0F05
def CAL_VINT_VALUE : Fld := ⟨CAL_VINT, 31, 0⟩

/-- 0x0F06 CAL_ACCSLOT (16_calibration.md). -/
def CAL_ACCSLOT : Nat := 0x0F06
def CAL_ACCSLOT_SLOT : Fld := ⟨CAL_ACCSLOT, 63, 0⟩

/-- 0x0F07 CAL_CNT (16_calibration.md). -/
def CAL_CNT : Nat := 0x0F07
def CAL_CNT_PASSES : Fld := ⟨CAL_CNT, 63, 48⟩
def CAL_CNT_SKIPS : Fld := ⟨CAL_CNT, 47, 32⟩
def CAL_CNT_REFUSED : Fld := ⟨CAL_CNT, 31, 16⟩
def CAL_CNT_ABANDONS : Fld := ⟨CAL_CNT, 15, 0⟩

/-- 0x1C40 + 16·b + 7 BANK_TEMP (16_calibration.md). -/
def BANK_TEMP (b : Nat) : Nat := 0x1C47 + 16 * b
def BANK_TEMP_T (b : Nat) : Fld := ⟨BANK_TEMP b, 31, 16⟩
def BANK_TEMP_TCAL (b : Nat) : Fld := ⟨BANK_TEMP b, 15, 0⟩

/-- 0x1C40 + 16·b + 8 BANK_CAL (16_calibration.md). -/
def BANK_CAL (b : Nat) : Nat := 0x1C48 + 16 * b
def BANK_CAL_STATE (b : Nat) : Fld := ⟨BANK_CAL b, 7, 6⟩
def BANK_CAL_EXT (b : Nat) : Fld := ⟨BANK_CAL b, 5, 4⟩
def BANK_CAL_POS (b : Nat) : Fld := ⟨BANK_CAL b, 3, 0⟩

/-- 0x1C40 + 16·b + 9 BANK_CALSLOT (16_calibration.md). -/
def BANK_CALSLOT (b : Nat) : Nat := 0x1C49 + 16 * b
def BANK_CALSLOT_SLOT (b : Nat) : Fld := ⟨BANK_CALSLOT b, 63, 0⟩

/-- 0x1C40 + 16·b + 10 BANK_VREF (16_calibration.md). -/
def BANK_VREF (b : Nat) : Nat := 0x1C4A + 16 * b
def BANK_VREF_VALUE (b : Nat) : Fld := ⟨BANK_VREF b, 31, 0⟩

/-- 0x0F80 UPD_STAT (17_firmware_update.md). -/
def UPD_STAT : Nat := 0x0F80
def UPD_STAT_SHADOW : Fld := ⟨UPD_STAT, 50, 50⟩
def UPD_STAT_TPEND : Fld := ⟨UPD_STAT, 49, 49⟩
def UPD_STAT_COPYING : Fld := ⟨UPD_STAT, 48, 48⟩
def UPD_STAT_STAGE : Fld := ⟨UPD_STAT, 34, 32⟩
def UPD_STAT_BLOCKS : Fld := ⟨UPD_STAT, 25, 16⟩
def UPD_STAT_STORED : Fld := ⟨UPD_STAT, 12, 0⟩

/-- 0x0F81 UPD_STAGE (17_firmware_update.md). -/
def UPD_STAGE : Nat := 0x0F81
def UPD_STAGE_IMAGE : Fld := ⟨UPD_STAGE, 63, 32⟩
def UPD_STAGE_NPIECES : Fld := ⟨UPD_STAGE, 12, 0⟩

/-- 0x0F82 UPD_VER (17_firmware_update.md). -/
def UPD_VER : Nat := 0x0F82
def UPD_VER_RUN : Fld := ⟨UPD_VER, 63, 32⟩
def UPD_VER_ACT : Fld := ⟨UPD_VER, 31, 0⟩

/-- 0x0F83 UPD_SVER (17_firmware_update.md). -/
def UPD_SVER : Nat := 0x0F83
def UPD_SVER_VERSION : Fld := ⟨UPD_SVER, 31, 0⟩

/-- 0x0F84 UPD_CTL (17_firmware_update.md). -/
def UPD_CTL : Nat := 0x0F84
def UPD_CTL_RECOVER : Fld := ⟨UPD_CTL, 4, 4⟩
def UPD_CTL_CANCEL : Fld := ⟨UPD_CTL, 3, 3⟩
def UPD_CTL_ACTIVATE : Fld := ⟨UPD_CTL, 2, 2⟩
def UPD_CTL_INSTALL : Fld := ⟨UPD_CTL, 1, 1⟩
def UPD_CTL_VERIFY : Fld := ⟨UPD_CTL, 0, 0⟩

/-- 0x0F85 UPD_AT (17_firmware_update.md). -/
def UPD_AT : Nat := 0x0F85
def UPD_AT_SLOT : Fld := ⟨UPD_AT, 63, 0⟩

/-- 0x0F86 UPD_TSLOT (17_firmware_update.md). -/
def UPD_TSLOT : Nat := 0x0F86
def UPD_TSLOT_SLOT : Fld := ⟨UPD_TSLOT, 63, 0⟩

/-- 0x0F87 UPD_CNT (17_firmware_update.md). -/
def UPD_CNT : Nat := 0x0F87
def UPD_CNT_PARTS : Fld := ⟨UPD_CNT, 63, 48⟩
def UPD_CNT_DUPS : Fld := ⟨UPD_CNT, 47, 32⟩
def UPD_CNT_EVICT : Fld := ⟨UPD_CNT, 31, 16⟩
def UPD_CNT_CRCFAIL : Fld := ⟨UPD_CNT, 15, 0⟩

/-- 0x0F88 UPD_BMAP_PTR (17_firmware_update.md). -/
def UPD_BMAP_PTR : Nat := 0x0F88
def UPD_BMAP_PTR_WORD : Fld := ⟨UPD_BMAP_PTR, 6, 0⟩

/-- 0x0F89 UPD_BMAP_DATA (17_firmware_update.md). -/
def UPD_BMAP_DATA : Nat := 0x0F89
def UPD_BMAP_DATA_BITS : Fld := ⟨UPD_BMAP_DATA, 63, 0⟩

/-- 0x0F90 UPD_PIECE_HDR (17_firmware_update.md). -/
def UPD_PIECE_HDR : Nat := 0x0F90
def UPD_PIECE_HDR_CRC : Fld := ⟨UPD_PIECE_HDR, 63, 32⟩
def UPD_PIECE_HDR_PART : Fld := ⟨UPD_PIECE_HDR, 31, 30⟩
def UPD_PIECE_HDR_INDEX : Fld := ⟨UPD_PIECE_HDR, 12, 0⟩

/-- 0x0F91 UPD_PIECE_DATA (17_firmware_update.md). -/
def UPD_PIECE_DATA : Nat := 0x0F91
def UPD_PIECE_DATA_DATA : Fld := ⟨UPD_PIECE_DATA, 63, 0⟩

/-- 0x0200 EVT_STAT (18_faults_events.md). -/
def EVT_STAT : Nat := 0x0200
def EVT_STAT_NEXTSEQ : Fld := ⟨EVT_STAT, 63, 36⟩
def EVT_STAT_HELD : Fld := ⟨EVT_STAT, 10, 0⟩

/-- 0x0201 EVT_RDPTR (18_faults_events.md). -/
def EVT_RDPTR : Nat := 0x0201
def EVT_RDPTR_GONE : Fld := ⟨EVT_RDPTR, 63, 63⟩
def EVT_RDPTR_SEQ : Fld := ⟨EVT_RDPTR, 27, 0⟩

/-- 0x0202 + w EVT_REC, w = 0 to 3 (18_faults_events.md). -/
def EVT_REC (w : Nat) : Nat := 0x0202 + w
def EVT_REC_WORD (w : Nat) : Fld := ⟨EVT_REC w, 63, 0⟩

/-- 0x0208 EVT_CFG (18_faults_events.md). -/
def EVT_CFG : Nat := 0x0208
def EVT_CFG_NMASK : Fld := ⟨EVT_CFG, 12, 8⟩
def EVT_CFG_IMASK : Fld := ⟨EVT_CFG, 4, 0⟩

/-- 0x0209 EVT_INT (18_faults_events.md). -/
def EVT_INT : Nat := 0x0209
def EVT_INT_NHOLD : Fld := ⟨EVT_INT, 12, 8⟩
def EVT_INT_PEND : Fld := ⟨EVT_INT, 4, 0⟩

/-- 0x020A EVT_CNT (18_faults_events.md). -/
def EVT_CNT : Nat := 0x020A
def EVT_CNT_FAULTS : Fld := ⟨EVT_CNT, 63, 48⟩
def EVT_CNT_ESCAL : Fld := ⟨EVT_CNT, 47, 32⟩
def EVT_CNT_NDROP : Fld := ⟨EVT_CNT, 31, 16⟩
def EVT_CNT_PERSIST_LOST : Fld := ⟨EVT_CNT, 15, 0⟩

/-- 0x020B EVT_PRD_PTR (18_faults_events.md). -/
def EVT_PRD_PTR : Nat := 0x020B
def EVT_PRD_PTR_COUNT : Fld := ⟨EVT_PRD_PTR, 41, 32⟩
def EVT_PRD_PTR_INDEX : Fld := ⟨EVT_PRD_PTR, 9, 0⟩

/-- 0x020C + w EVT_PREC, w = 0 to 3 (18_faults_events.md). -/
def EVT_PREC (w : Nat) : Nat := 0x020C + w
def EVT_PREC_WORD (w : Nat) : Fld := ⟨EVT_PREC w, 63, 0⟩

/-- 0x0000 SYS_ID (19_register_map.md). -/
def SYS_ID : Nat := 0x0000
def SYS_ID_PART : Fld := ⟨SYS_ID, 63, 48⟩
def SYS_ID_GRADE : Fld := ⟨SYS_ID, 47, 40⟩
def SYS_ID_REV : Fld := ⟨SYS_ID, 31, 16⟩
def SYS_ID_FAMILY : Fld := ⟨SYS_ID, 15, 0⟩

/-- 0x0001 SYS_UID (19_register_map.md). -/
def SYS_UID : Nat := 0x0001
def SYS_UID_UID : Fld := ⟨SYS_UID, 63, 0⟩

/-- 0x0002 SYS_STRAPS (19_register_map.md). -/
def SYS_STRAPS : Nat := 0x0002
def SYS_STRAPS_AUTH : Fld := ⟨SYS_STRAPS, 7, 4⟩
def SYS_STRAPS_PAIR_ROLE : Fld := ⟨SYS_STRAPS, 3, 3⟩
def SYS_STRAPS_SP_MODE : Fld := ⟨SYS_STRAPS, 2, 1⟩

/-- 0x0010 SYS_SNAP (19_register_map.md). -/
def SYS_SNAP : Nat := 0x0010
def SYS_SNAP_SLOT : Fld := ⟨SYS_SNAP, 63, 0⟩

/-- 0x0048 SYS_LOCK (19_register_map.md). -/
def SYS_LOCK : Nat := 0x0048
def SYS_LOCK_LOCK : Fld := ⟨SYS_LOCK, 20, 0⟩

/-- 0x0049 SYS_ERRCNT (19_register_map.md). -/
def SYS_ERRCNT : Nat := 0x0049
def SYS_ERRCNT_UNIMPL : Fld := ⟨SYS_ERRCNT, 63, 48⟩
def SYS_ERRCNT_RSVD : Fld := ⟨SYS_ERRCNT, 47, 32⟩

/-- 0x0138 CFG_DIV_PEER (19_register_map.md). -/
def CFG_DIV_PEER : Nat := 0x0138
def CFG_DIV_PEER_CLOCKID : Fld := ⟨CFG_DIV_PEER, 63, 0⟩

/-- 0x0140 CFG_DIV_DIGEST (19_register_map.md). -/
def CFG_DIV_DIGEST : Nat := 0x0140
def CFG_DIV_DIGEST_DIGEST : Fld := ⟨CFG_DIV_DIGEST, 63, 0⟩

/-- 0x1F80 DBG_ENG_PTR (19_register_map.md). -/
def DBG_ENG_PTR : Nat := 0x1F80
def DBG_ENG_PTR_ENG : Fld := ⟨DBG_ENG_PTR, 11, 8⟩
def DBG_ENG_PTR_ITEM : Fld := ⟨DBG_ENG_PTR, 7, 0⟩

/-- 0x1F81 DBG_ENG_DATA (19_register_map.md). -/
def DBG_ENG_DATA : Nat := 0x1F81
def DBG_ENG_DATA_DATA : Fld := ⟨DBG_ENG_DATA, 63, 0⟩

/-- 0x1F88 + ch DBG_DRAM, for DRAM channel ch = 0 or 1 (19_register_map.md). -/
def DBG_DRAM (ch : Nat) : Nat := 0x1F88 + ch
def DBG_DRAM_CORR (ch : Nat) : Fld := ⟨DBG_DRAM ch, 63, 32⟩
def DBG_DRAM_UNCORR (ch : Nat) : Fld := ⟨DBG_DRAM ch, 31, 16⟩

/-- 0x1F8A DBG_SCRUB (19_register_map.md). -/
def DBG_SCRUB : Nat := 0x1F8A
def DBG_SCRUB_SLOT : Fld := ⟨DBG_SCRUB, 63, 0⟩

end Reg

/-- The words of block SYS. -/
def regTableSYS : List RegDesc := [
  ⟨0x0008, 0, 1, 0x1, [⟨19, 16, .ro⟩, ⟨12, 10, .ro⟩, ⟨9, 9, .ro⟩, ⟨8, 6, .ro⟩, ⟨5, 3, .ro⟩, ⟨2, 0, .ro⟩]⟩,
  ⟨0x0018, 0, 1, 0x0, [⟨4, 4, .wo⟩, ⟨3, 3, .wo⟩, ⟨2, 0, .wo⟩]⟩,
  ⟨0x0020, 0, 1, 0x0, [⟨63, 0, .rw⟩]⟩,
  ⟨0x0028, 0, 1, 0x0, [⟨63, 0, .ro⟩]⟩,
  ⟨0x0030, 0, 1, 0x0, [⟨63, 63, .rwl⟩, ⟨9, 8, .rwl⟩, ⟨7, 6, .rwl⟩, ⟨5, 4, .rwl⟩, ⟨3, 2, .rwl⟩, ⟨1, 0, .rwl⟩]⟩,
  ⟨0x0038, 0, 1, 0x0, [⟨63, 48, .rc⟩, ⟨47, 32, .rc⟩, ⟨31, 24, .rc⟩, ⟨23, 16, .rc⟩, ⟨15, 15, .ro⟩, ⟨12, 0, .ro⟩]⟩,
  ⟨0x0039, 0, 1, 0x0, [⟨63, 0, .rc⟩]⟩,
  ⟨0x003A, 0, 1, 0x0, [⟨63, 0, .ro⟩]⟩,
  ⟨0x0040, 1, 4, 0x0, [⟨63, 48, .rc⟩, ⟨47, 32, .rc⟩, ⟨31, 16, .rc⟩, ⟨15, 0, .rc⟩]⟩,
  ⟨0x0000, 0, 1, 0x384000000005358, [⟨63, 48, .ro⟩, ⟨47, 40, .ro⟩, ⟨31, 16, .ro⟩, ⟨15, 0, .ro⟩]⟩,
  ⟨0x0001, 0, 1, 0x0, [⟨63, 0, .ro⟩]⟩,
  ⟨0x0002, 0, 1, 0x0, [⟨7, 4, .ro⟩, ⟨3, 3, .ro⟩, ⟨2, 1, .ro⟩]⟩,
  ⟨0x0010, 0, 1, 0x0, [⟨63, 0, .ro⟩]⟩,
  ⟨0x0048, 0, 1, 0x0, [⟨20, 0, .rw⟩]⟩,
  ⟨0x0049, 0, 1, 0x0, [⟨63, 48, .rc⟩, ⟨47, 32, .rc⟩]⟩]

/-- The words of block CFG. -/
def regTableCFG : List RegDesc := [
  ⟨0x0100, 0, 1, 0xFF0, [⟨25, 25, .ro⟩, ⟨24, 24, .w1c⟩, ⟨23, 16, .ro⟩, ⟨12, 12, .ro⟩, ⟨11, 8, .ro⟩, ⟨7, 4, .ro⟩, ⟨2, 2, .ro⟩, ⟨1, 1, .ro⟩, ⟨0, 0, .ro⟩]⟩,
  ⟨0x0120, 0, 1, 0x0, [⟨4, 4, .wo⟩, ⟨3, 0, .wo⟩]⟩,
  ⟨0x0128, 0, 1, 0x0, [⟨63, 0, .rw⟩]⟩,
  ⟨0x0130, 0, 1, 0x0, [⟨63, 0, .ro⟩]⟩,
  ⟨0x0110, 0, 1, 0x0, [⟨63, 0, .ro⟩]⟩,
  ⟨0x0118, 0, 1, 0x0, [⟨63, 48, .ro⟩, ⟨31, 0, .ro⟩]⟩,
  ⟨0x0138, 0, 1, 0x0, [⟨63, 0, .ro⟩]⟩,
  ⟨0x0140, 0, 1, 0x0, [⟨63, 0, .ro⟩]⟩]

/-- The words of block EVT. -/
def regTableEVT : List RegDesc := [
  ⟨0x0200, 0, 1, 0x0, [⟨63, 36, .ro⟩, ⟨10, 0, .ro⟩]⟩,
  ⟨0x0201, 0, 1, 0x0, [⟨63, 63, .ro⟩, ⟨27, 0, .rw⟩]⟩,
  ⟨0x0202, 1, 4, 0x0, [⟨63, 0, .ro⟩]⟩,
  ⟨0x0208, 0, 1, 0x1C1C, [⟨12, 8, .rw⟩, ⟨4, 0, .rw⟩]⟩,
  ⟨0x0209, 0, 1, 0x0, [⟨12, 8, .ro⟩, ⟨4, 0, .w1c⟩]⟩,
  ⟨0x020A, 0, 1, 0x0, [⟨63, 48, .rc⟩, ⟨47, 32, .rc⟩, ⟨31, 16, .rc⟩, ⟨15, 0, .rc⟩]⟩,
  ⟨0x020B, 0, 1, 0x0, [⟨41, 32, .ro⟩, ⟨9, 0, .rw⟩]⟩,
  ⟨0x020C, 1, 4, 0x0, [⟨63, 0, .ro⟩]⟩]

/-- The words of block TIME. -/
def regTableTIME : List RegDesc := [
  ⟨0x0300, 32, 4, 0xC030, [⟨39, 32, .rwl⟩, ⟨27, 24, .rwl⟩, ⟨21, 20, .rwl⟩, ⟨18, 18, .rwl⟩, ⟨17, 17, .rwl⟩, ⟨16, 16, .rwl⟩, ⟨15, 12, .rwl⟩, ⟨11, 8, .rwl⟩, ⟨7, 4, .rwl⟩, ⟨2, 0, .rwl⟩]⟩,
  ⟨0x0301, 32, 4, 0xF80000000000, [⟨63, 48, .ro⟩, ⟨47, 40, .ro⟩, ⟨31, 31, .ro⟩, ⟨30, 30, .ro⟩, ⟨29, 29, .ro⟩, ⟨28, 28, .ro⟩, ⟨27, 27, .ro⟩, ⟨3, 0, .ro⟩]⟩,
  ⟨0x0302, 32, 4, 0x0, [⟨63, 0, .ro⟩]⟩,
  ⟨0x0303, 32, 4, 0x0, [⟨63, 32, .ro⟩, ⟨31, 0, .ro⟩]⟩,
  ⟨0x0304, 32, 4, 0xC3500027100602, [⟨56, 40, .rwl⟩, ⟨32, 16, .rwl⟩, ⟨12, 8, .rwl⟩, ⟨4, 0, .rwl⟩]⟩,
  ⟨0x0305, 32, 4, 0x3E800000032, [⟨63, 32, .rwl⟩, ⟨15, 0, .rwl⟩]⟩,
  ⟨0x0306, 32, 4, 0x0, [⟨63, 32, .ro⟩, ⟨31, 0, .ro⟩]⟩,
  ⟨0x0307, 32, 4, 0x0, [⟨63, 0, .ro⟩]⟩,
  ⟨0x0308, 32, 4, 0x0, [⟨63, 0, .ro⟩]⟩,
  ⟨0x0309, 32, 4, 0xFE00808000, [⟨63, 48, .ro⟩, ⟨39, 32, .rwl⟩, ⟨31, 24, .rwl⟩, ⟨23, 16, .rwl⟩, ⟨15, 8, .rwl⟩, ⟨0, 0, .rwl⟩]⟩,
  ⟨0x030A, 32, 4, 0x0, [⟨63, 0, .ro⟩]⟩,
  ⟨0x030B, 32, 4, 0x0, [⟨63, 0, .ro⟩]⟩,
  ⟨0x030C, 32, 4, 0x0, [⟨63, 0, .wo⟩]⟩,
  ⟨0x030D, 32, 4, 0x0, [⟨63, 48, .rc⟩, ⟨47, 32, .rc⟩, ⟨31, 16, .rc⟩, ⟨15, 0, .rc⟩]⟩,
  ⟨0x0380, 4, 16, 0x0, [⟨63, 16, .rw⟩, ⟨14, 8, .rw⟩, ⟨3, 3, .rw⟩, ⟨2, 1, .rw⟩, ⟨0, 0, .rw⟩]⟩,
  ⟨0x0381, 4, 16, 0x0, [⟨63, 0, .rw⟩]⟩,
  ⟨0x0382, 4, 16, 0x0, [⟨29, 0, .rw⟩]⟩,
  ⟨0x0383, 4, 16, 0x0, [⟨63, 48, .rc⟩, ⟨47, 32, .rc⟩, ⟨1, 1, .w1c⟩, ⟨0, 0, .ro⟩]⟩,
  ⟨0x03C0, 0, 1, 0x0, [⟨5, 4, .rwl⟩, ⟨1, 0, .rwl⟩]⟩,
  ⟨0x03C1, 0, 1, 0x0, [⟨5, 4, .wo⟩, ⟨2, 0, .wo⟩]⟩,
  ⟨0x03C2, 0, 1, 0x0, [⟨63, 0, .rw⟩]⟩,
  ⟨0x03C3, 0, 1, 0x0, [⟨29, 0, .rw⟩]⟩,
  ⟨0x03C4, 0, 1, 0x0, [⟨63, 0, .rw⟩]⟩,
  ⟨0x03C5, 0, 1, 0x186A000, [⟨63, 48, .rw⟩, ⟨27, 8, .rw⟩, ⟨3, 2, .rw⟩, ⟨1, 0, .rw⟩]⟩,
  ⟨0x03C6, 0, 1, 0x0, [⟨63, 48, .rc⟩, ⟨47, 32, .rc⟩, ⟨15, 0, .rwl⟩]⟩,
  ⟨0x03C8, 1, 4, 0x0, [⟨63, 32, .rwl⟩, ⟨31, 0, .rwl⟩]⟩]

/-- The words of block TIV. -/
def regTableTIV : List RegDesc := [
  ⟨0x0400, 0, 1, 0x1000, [⟨25, 21, .rw⟩, ⟨20, 16, .rw⟩, ⟨15, 12, .rw⟩, ⟨11, 8, .rw⟩, ⟨1, 1, .rw⟩, ⟨0, 0, .rw⟩]⟩,
  ⟨0x0401, 0, 1, 0x320003840000, [⟨63, 48, .rw⟩, ⟨47, 40, .rw⟩, ⟨26, 16, .rw⟩, ⟨1, 0, .rw⟩]⟩,
  ⟨0x0402, 0, 1, 0x320003840000, [⟨63, 48, .rw⟩, ⟨47, 40, .rw⟩, ⟨26, 16, .rw⟩, ⟨1, 0, .rw⟩]⟩,
  ⟨0x0403, 0, 1, 0x0, [⟨3, 3, .wo⟩, ⟨2, 2, .wo⟩, ⟨1, 1, .wo⟩, ⟨0, 0, .wo⟩]⟩,
  ⟨0x0404, 0, 1, 0x0, [⟨63, 48, .rc⟩, ⟨47, 32, .rc⟩, ⟨31, 24, .rc⟩, ⟨11, 11, .ro⟩, ⟨10, 10, .ro⟩, ⟨9, 9, .w1c⟩, ⟨7, 7, .w1c⟩, ⟨6, 6, .w1c⟩, ⟨5, 5, .w1c⟩, ⟨1, 0, .ro⟩]⟩,
  ⟨0x0405, 0, 1, 0x0, [⟨63, 63, .rc⟩, ⟨62, 62, .ro⟩, ⟨61, 61, .ro⟩, ⟨60, 60, .ro⟩, ⟨46, 0, .ro⟩]⟩,
  ⟨0x0406, 0, 1, 0x0, [⟨63, 0, .ro⟩]⟩,
  ⟨0x0407, 0, 1, 0x0, [⟨19, 0, .ro⟩]⟩,
  ⟨0x0408, 0, 1, 0x3D09000000000, [⟨55, 32, .rw⟩, ⟨2, 2, .rw⟩, ⟨1, 0, .rw⟩]⟩,
  ⟨0x0409, 0, 1, 0x0, [⟨63, 63, .rc⟩, ⟨39, 0, .ro⟩]⟩,
  ⟨0x040A, 0, 1, 0x0, [⟨47, 0, .ro⟩]⟩,
  ⟨0x040B, 0, 1, 0x0, [⟨63, 0, .ro⟩]⟩,
  ⟨0x0410, 0, 1, 0x0, [⟨63, 32, .rwl⟩, ⟨31, 0, .ro⟩]⟩,
  ⟨0x0411, 0, 1, 0x0, [⟨63, 32, .ro⟩, ⟨23, 0, .ro⟩]⟩]

/-- The words of block LANE. -/
def regTableLANE : List RegDesc := [
  ⟨0x0500, 64, 4, 0x1701, [⟨19, 18, .rwl⟩, ⟨15, 14, .rwl⟩, ⟨13, 12, .rwl⟩, ⟨10, 8, .rwl⟩, ⟨5, 4, .rwl⟩, ⟨0, 0, .rwl⟩]⟩,
  ⟨0x0501, 64, 4, 0x1, [⟨63, 48, .rc⟩, ⟨42, 40, .ro⟩, ⟨26, 24, .w1c⟩, ⟨20, 20, .ro⟩, ⟨19, 19, .ro⟩, ⟨18, 16, .ro⟩, ⟨11, 11, .ro⟩, ⟨3, 0, .ro⟩]⟩,
  ⟨0x0502, 64, 4, 0x0, [⟨63, 63, .ro⟩, ⟨47, 0, .ro⟩]⟩,
  ⟨0x0503, 64, 4, 0x0, [⟨9, 8, .rw⟩, ⟨5, 4, .rw⟩, ⟨2, 1, .rw⟩, ⟨0, 0, .rw⟩]⟩,
  ⟨0x0504, 64, 4, 0x0, [⟨63, 32, .rc⟩, ⟨31, 2, .rc⟩, ⟨1, 1, .w1c⟩, ⟨0, 0, .ro⟩]⟩,
  ⟨0x0505, 64, 4, 0x0, [⟨63, 48, .rc⟩, ⟨47, 32, .rc⟩, ⟨31, 16, .rc⟩, ⟨15, 0, .rc⟩]⟩,
  ⟨0x0506, 64, 4, 0x0, [⟨18, 16, .rwl⟩, ⟨13, 8, .rwl⟩, ⟨5, 0, .rwl⟩]⟩,
  ⟨0x0507, 64, 4, 0x0, [⟨0, 0, .wo⟩]⟩]

/-- The words of block SW. -/
def regTableSW : List RegDesc := [
  ⟨0x0600, 0, 1, 0x88B5A3BA12C00001, [⟨63, 48, .rwl⟩, ⟨47, 32, .rwl⟩, ⟨31, 20, .rwl⟩, ⟨17, 16, .rwl⟩, ⟨8, 8, .rwl⟩, ⟨0, 0, .rwl⟩]⟩,
  ⟨0x0601, 0, 1, 0x0, [⟨47, 0, .rwl⟩]⟩,
  ⟨0x0602, 0, 1, 0x0, [⟨31, 0, .rwl⟩]⟩,
  ⟨0x0603, 0, 1, 0x0, [⟨63, 0, .rwl⟩]⟩,
  ⟨0x0604, 0, 1, 0x0, [⟨63, 0, .rwl⟩]⟩,
  ⟨0x0608, 0, 1, 0x0, [⟨11, 0, .rw⟩]⟩,
  ⟨0x0609, 0, 1, 0x0, [⟨9, 5, .rwl⟩, ⟨4, 0, .rwl⟩]⟩,
  ⟨0x0610, 1, 5, 0x1, [⟨24, 24, .w1c⟩, ⟨17, 16, .rwl⟩, ⟨14, 12, .rwl⟩, ⟨11, 0, .rwl⟩]⟩,
  ⟨0x0620, 0, 1, 0x0, [⟨7, 0, .rw⟩]⟩,
  ⟨0x0621, 0, 1, 0x0, [⟨63, 63, .rwl⟩, ⟨52, 48, .rwl⟩, ⟨47, 0, .rwl⟩]⟩,
  ⟨0x0630, 0, 1, 0x0, [⟨63, 48, .rc⟩, ⟨47, 32, .rc⟩, ⟨31, 16, .rc⟩, ⟨15, 0, .rc⟩]⟩,
  ⟨0x0631, 0, 1, 0x10000, [⟨19, 0, .rwl⟩]⟩,
  ⟨0x0640, 1, 5, 0x0, [⟨63, 48, .rc⟩, ⟨47, 32, .rc⟩, ⟨31, 16, .rc⟩, ⟨15, 0, .rc⟩]⟩]

/-- The words of block PAIR. -/
def regTablePAIR : List RegDesc := [
  ⟨0x0700, 0, 1, 0x25800000000, [⟨47, 32, .rwl⟩, ⟨0, 0, .rwl⟩]⟩,
  ⟨0x0701, 0, 1, 0x0, [⟨63, 56, .ro⟩, ⟨11, 11, .ro⟩, ⟨10, 10, .ro⟩, ⟨9, 9, .ro⟩, ⟨8, 8, .ro⟩, ⟨7, 7, .ro⟩, ⟨6, 6, .ro⟩, ⟨5, 5, .ro⟩, ⟨3, 2, .ro⟩]⟩,
  ⟨0x0702, 0, 1, 0xA800000384, [⟨47, 32, .rwl⟩, ⟨15, 0, .rwl⟩]⟩,
  ⟨0x0703, 0, 1, 0x0, [⟨3, 3, .wo⟩, ⟨2, 2, .wo⟩, ⟨1, 1, .wo⟩, ⟨0, 0, .wo⟩]⟩,
  ⟨0x0704, 0, 1, 0x0, [⟨63, 0, .rw⟩]⟩,
  ⟨0x0705, 0, 1, 0x0, [⟨63, 0, .ro⟩]⟩,
  ⟨0x0706, 0, 1, 0x0, [⟨63, 48, .rc⟩, ⟨47, 32, .rc⟩, ⟨31, 16, .rc⟩, ⟨15, 0, .rc⟩]⟩]

/-- The words of block ENG. -/
def regTableENG : List RegDesc := [
  ⟨0x0800, 64, 16, 0x81000010800, [⟨47, 40, .rw⟩, ⟨39, 32, .rw⟩, ⟨16, 16, .rws⟩, ⟨11, 8, .rws⟩, ⟨1, 0, .rw⟩]⟩,
  ⟨0x0801, 64, 16, 0x0, [⟨55, 52, .ro⟩, ⟨46, 40, .ro⟩, ⟨26, 16, .ro⟩, ⟨3, 3, .ro⟩, ⟨2, 2, .ro⟩, ⟨1, 1, .ro⟩, ⟨0, 0, .ro⟩]⟩,
  ⟨0x0802, 64, 16, 0x0, [⟨3, 0, .ro⟩]⟩,
  ⟨0x0803, 64, 16, 0x0, [⟨63, 0, .ro⟩]⟩,
  ⟨0x0804, 64, 16, 0x0, [⟨63, 0, .ro⟩]⟩,
  ⟨0x0805, 64, 16, 0x0, [⟨63, 48, .rc⟩, ⟨47, 32, .rc⟩, ⟨31, 16, .rc⟩, ⟨15, 0, .rc⟩]⟩,
  ⟨0x0806, 64, 16, 0x0, [⟨63, 48, .rc⟩, ⟨47, 32, .rc⟩, ⟨31, 16, .rc⟩, ⟨15, 0, .rc⟩]⟩,
  ⟨0x0807, 64, 16, 0x0, [⟨47, 40, .rws⟩, ⟨39, 24, .rws⟩, ⟨13, 0, .rws⟩]⟩,
  ⟨0x0808, 64, 16, 0x0, [⟨63, 0, .ro⟩]⟩]

/-- The words of block QUE. -/
def regTableQUE : List RegDesc := [
  ⟨0x0C00, 4, 64, 0x0, [⟨63, 40, .rw⟩, ⟨36, 32, .rw⟩, ⟨21, 21, .rw⟩, ⟨20, 16, .rw⟩, ⟨0, 0, .rws⟩]⟩,
  ⟨0x0C01, 4, 64, 0x0, [⟨63, 39, .ro⟩, ⟨38, 14, .ro⟩]⟩,
  ⟨0x0C02, 4, 64, 0x0, [⟨63, 48, .ro⟩, ⟨45, 45, .ro⟩, ⟨44, 44, .ro⟩, ⟨24, 0, .ro⟩]⟩,
  ⟨0x0C03, 4, 64, 0x0, [⟨63, 48, .rc⟩, ⟨47, 32, .rc⟩, ⟨31, 16, .rc⟩, ⟨0, 0, .wo⟩]⟩]

/-- The words of block STRM. -/
def regTableSTRM : List RegDesc := [
  ⟨0x0D00, 0, 1, 0x0, [⟨12, 2, .rw⟩, ⟨1, 0, .rw⟩]⟩,
  ⟨0x0D01, 0, 1, 0x0, [⟨63, 0, .rws⟩]⟩,
  ⟨0x0D02, 0, 1, 0x0, [⟨63, 48, .rc⟩, ⟨47, 32, .rc⟩, ⟨31, 16, .rc⟩, ⟨15, 0, .rc⟩]⟩,
  ⟨0x0D10, 2, 16, 0x0, [⟨63, 0, .rw⟩]⟩,
  ⟨0x0D11, 2, 16, 0x0, [⟨63, 0, .rw⟩]⟩,
  ⟨0x0D40, 0, 1, 0x2, [⟨1, 0, .rwl⟩]⟩,
  ⟨0x0D41, 0, 1, 0x0, [⟨63, 0, .ro⟩]⟩,
  ⟨0x0D42, 0, 1, 0x0, [⟨63, 0, .ro⟩]⟩,
  ⟨0x0D43, 0, 1, 0x0, [⟨63, 48, .ro⟩, ⟨47, 32, .rc⟩, ⟨31, 16, .ro⟩, ⟨15, 0, .rc⟩]⟩]

/-- The words of block CAP. -/
def regTableCAP : List RegDesc := [
  ⟨0x0E00, 0, 1, 0x0, [⟨39, 32, .ro⟩, ⟨24, 24, .w1c⟩, ⟨23, 16, .ro⟩, ⟨15, 8, .ro⟩, ⟨7, 0, .ro⟩]⟩,
  ⟨0x0E01, 0, 1, 0x0, [⟨11, 4, .rw⟩, ⟨3, 0, .rw⟩]⟩,
  ⟨0x0E02, 0, 1, 0x0, [⟨63, 0, .rw⟩]⟩,
  ⟨0x0E03, 0, 1, 0x0, [⟨63, 0, .ro⟩]⟩,
  ⟨0x0E04, 0, 1, 0x0, [⟨63, 63, .ro⟩, ⟨58, 56, .ro⟩, ⟨55, 48, .ro⟩, ⟨42, 32, .ro⟩, ⟨19, 0, .ro⟩]⟩,
  ⟨0x0E05, 0, 1, 0x0, [⟨0, 0, .wo⟩]⟩,
  ⟨0x0E06, 0, 1, 0x0, [⟨63, 32, .rc⟩, ⟨31, 0, .rc⟩]⟩,
  ⟨0x0E08, 0, 1, 0x0, [⟨63, 56, .rw⟩, ⟨39, 0, .rw⟩]⟩,
  ⟨0x0E09, 0, 1, 0x0, [⟨63, 0, .rw⟩]⟩,
  ⟨0x0E0A, 0, 1, 0x0, [⟨63, 63, .wo⟩, ⟨32, 0, .wo⟩]⟩,
  ⟨0x0E0B, 0, 1, 0x0, [⟨63, 63, .ro⟩, ⟨62, 62, .w1c⟩, ⟨61, 61, .w1c⟩, ⟨60, 60, .w1c⟩, ⟨39, 0, .ro⟩]⟩,
  ⟨0x0E80, 16, 8, 0x0, [⟨63, 55, .rws⟩, ⟨54, 54, .rws⟩, ⟨50, 48, .rws⟩, ⟨45, 44, .rws⟩, ⟨41, 40, .rws⟩]⟩,
  ⟨0x0E81, 16, 8, 0x0, [⟨39, 0, .rws⟩]⟩,
  ⟨0x0E82, 16, 8, 0x0, [⟨39, 0, .rws⟩]⟩,
  ⟨0x0E83, 16, 8, 0x0, [⟨63, 32, .rws⟩, ⟨31, 0, .rws⟩]⟩,
  ⟨0x0E84, 16, 8, 0x0, [⟨31, 0, .rws⟩]⟩,
  ⟨0x0E85, 16, 8, 0x0, [⟨15, 8, .wo⟩, ⟨1, 1, .wo⟩, ⟨0, 0, .wo⟩]⟩,
  ⟨0x0E86, 16, 8, 0x0, [⟨63, 60, .ro⟩, ⟨55, 48, .ro⟩, ⟨31, 16, .rc⟩, ⟨15, 0, .rc⟩]⟩,
  ⟨0x0E87, 16, 8, 0x0, [⟨63, 0, .ro⟩]⟩,
  ⟨0x0E88, 16, 8, 0x0, [⟨42, 32, .ro⟩, ⟨19, 0, .ro⟩]⟩]

/-- The words of block CAL. -/
def regTableCAL : List RegDesc := [
  ⟨0x0F00, 0, 1, 0x1E0400000001, [⟨47, 40, .rwl⟩, ⟨36, 32, .rwl⟩, ⟨31, 16, .rwl⟩, ⟨0, 0, .rwl⟩]⟩,
  ⟨0x0F01, 0, 1, 0x0, [⟨31, 0, .rwl⟩]⟩,
  ⟨0x0F02, 0, 1, 0x0, [⟨24, 24, .wo⟩, ⟨23, 0, .wo⟩]⟩,
  ⟨0x0F03, 0, 1, 0x0, [⟨55, 52, .ro⟩, ⟨47, 24, .ro⟩, ⟨23, 0, .ro⟩]⟩,
  ⟨0x0F04, 0, 1, 0x0, [⟨63, 32, .ro⟩, ⟨15, 8, .ro⟩, ⟨3, 2, .ro⟩, ⟨1, 1, .ro⟩, ⟨0, 0, .ro⟩]⟩,
  ⟨0x0F05, 0, 1, 0x0, [⟨31, 0, .ro⟩]⟩,
  ⟨0x0F06, 0, 1, 0x0, [⟨63, 0, .ro⟩]⟩,
  ⟨0x0F07, 0, 1, 0x0, [⟨63, 48, .rc⟩, ⟨47, 32, .rc⟩, ⟨31, 16, .rc⟩, ⟨15, 0, .rc⟩]⟩]

/-- The words of block UPD. -/
def regTableUPD : List RegDesc := [
  ⟨0x0F80, 0, 1, 0x0, [⟨50, 50, .ro⟩, ⟨49, 49, .ro⟩, ⟨48, 48, .ro⟩, ⟨34, 32, .ro⟩, ⟨25, 16, .ro⟩, ⟨12, 0, .ro⟩]⟩,
  ⟨0x0F81, 0, 1, 0x0, [⟨63, 32, .rw⟩, ⟨12, 0, .rw⟩]⟩,
  ⟨0x0F82, 0, 1, 0x0, [⟨63, 32, .ro⟩, ⟨31, 0, .ro⟩]⟩,
  ⟨0x0F83, 0, 1, 0x0, [⟨31, 0, .ro⟩]⟩,
  ⟨0x0F84, 0, 1, 0x0, [⟨4, 4, .wo⟩, ⟨3, 3, .wo⟩, ⟨2, 2, .wo⟩, ⟨1, 1, .wo⟩, ⟨0, 0, .wo⟩]⟩,
  ⟨0x0F85, 0, 1, 0x0, [⟨63, 0, .rw⟩]⟩,
  ⟨0x0F86, 0, 1, 0x0, [⟨63, 0, .ro⟩]⟩,
  ⟨0x0F87, 0, 1, 0x0, [⟨63, 48, .rc⟩, ⟨47, 32, .rc⟩, ⟨31, 16, .rc⟩, ⟨15, 0, .rc⟩]⟩,
  ⟨0x0F88, 0, 1, 0x0, [⟨6, 0, .rw⟩]⟩,
  ⟨0x0F89, 0, 1, 0x0, [⟨63, 0, .ro⟩]⟩,
  ⟨0x0F90, 0, 1, 0x0, [⟨63, 32, .rw⟩, ⟨31, 30, .rw⟩, ⟨12, 0, .rw⟩]⟩,
  ⟨0x0F91, 0, 1, 0x0, [⟨63, 0, .wo⟩]⟩]

/-- The words of block CH. -/
def regTableCH : List RegDesc := [
  ⟨0x1000, 8, 384, 0x0, [⟨11, 10, .rws⟩, ⟨9, 8, .rws⟩, ⟨0, 0, .rws⟩]⟩,
  ⟨0x1001, 8, 384, 0x645000000646, [⟨47, 40, .rws⟩, ⟨39, 34, .rws⟩, ⟨33, 20, .rws⟩, ⟨15, 4, .rws⟩, ⟨3, 1, .rws⟩, ⟨0, 0, .rws⟩]⟩,
  ⟨0x1002, 8, 384, 0x14000007, [⟨31, 24, .rws⟩, ⟨2, 2, .rws⟩, ⟨1, 1, .rws⟩, ⟨0, 0, .rws⟩]⟩,
  ⟨0x1003, 8, 392, 0x0, [⟨63, 56, .rc⟩, ⟨15, 15, .ro⟩, ⟨14, 14, .ro⟩, ⟨13, 13, .w1c⟩, ⟨12, 12, .ro⟩, ⟨11, 11, .ro⟩, ⟨10, 10, .w1c⟩, ⟨9, 9, .ro⟩, ⟨8, 8, .ro⟩, ⟨7, 7, .w1c⟩, ⟨6, 6, .w1c⟩, ⟨5, 5, .w1c⟩]⟩,
  ⟨0x1004, 8, 392, 0x10C0002, [⟨47, 40, .rws⟩, ⟨39, 36, .rws⟩, ⟨35, 35, .rws⟩, ⟨27, 20, .rws⟩, ⟨19, 16, .rws⟩, ⟨8, 8, .rws⟩, ⟨1, 0, .rws⟩]⟩,
  ⟨0x1005, 8, 384, 0x0, [⟨63, 48, .rc⟩, ⟨47, 32, .rc⟩, ⟨31, 16, .rc⟩, ⟨3, 3, .ro⟩, ⟨2, 2, .ro⟩, ⟨1, 1, .ro⟩]⟩,
  ⟨0x1006, 8, 392, 0xFF0000000002, [⟨51, 40, .rws⟩, ⟨34, 34, .rws⟩, ⟨33, 33, .rws⟩, ⟨32, 32, .rws⟩, ⟨31, 16, .rws⟩, ⟨2, 0, .rws⟩]⟩,
  ⟨0x1007, 8, 392, 0x0, [⟨27, 16, .rws⟩, ⟨7, 0, .rws⟩]⟩]

/-- The words of block BANK. -/
def regTableBANK : List RegDesc := [
  ⟨0x1C42, 16, 24, 0x0, [⟨8, 8, .ro⟩, ⟨4, 4, .rws⟩, ⟨3, 0, .rws⟩]⟩,
  ⟨0x1C40, 16, 24, 0x640000, [⟨25, 16, .rws⟩, ⟨1, 0, .rws⟩]⟩,
  ⟨0x1C41, 16, 24, 0x0, [⟨63, 0, .ro⟩]⟩,
  ⟨0x1C43, 16, 24, 0x0, [⟨7, 7, .ro⟩, ⟨6, 6, .ro⟩, ⟨5, 4, .ro⟩]⟩,
  ⟨0x1C44, 16, 24, 0x1, [⟨1, 1, .rw⟩, ⟨0, 0, .rw⟩]⟩,
  ⟨0x1C45, 16, 24, 0x0, [⟨63, 48, .rc⟩, ⟨47, 32, .rc⟩, ⟨23, 20, .ro⟩]⟩,
  ⟨0x1C46, 16, 24, 0x0, [⟨5, 5, .w1c⟩, ⟨4, 4, .ro⟩, ⟨3, 2, .ro⟩, ⟨1, 0, .rws⟩]⟩,
  ⟨0x1C47, 16, 24, 0x0, [⟨31, 16, .ro⟩, ⟨15, 0, .ro⟩]⟩,
  ⟨0x1C48, 16, 24, 0x0, [⟨7, 6, .ro⟩, ⟨5, 4, .ro⟩, ⟨3, 0, .ro⟩]⟩,
  ⟨0x1C49, 16, 24, 0x0, [⟨63, 0, .ro⟩]⟩,
  ⟨0x1C4A, 16, 24, 0x0, [⟨31, 0, .ro⟩]⟩]

/-- The words of block FC. -/
def regTableFC : List RegDesc := [
  ⟨0x1DC0, 8, 8, 0x0, [⟨7, 6, .rws⟩, ⟨5, 4, .rws⟩, ⟨0, 0, .rws⟩]⟩,
  ⟨0x1DC1, 8, 8, 0x0, [⟨63, 48, .rc⟩, ⟨1, 1, .w1c⟩, ⟨0, 0, .ro⟩]⟩,
  ⟨0x1DC2, 8, 8, 0x0, [⟨61, 48, .rws⟩, ⟨45, 32, .rws⟩, ⟨19, 16, .rws⟩, ⟨1, 1, .rws⟩, ⟨0, 0, .rws⟩]⟩,
  ⟨0x1DC3, 8, 8, 0x0, [⟨63, 48, .rc⟩, ⟨47, 32, .rc⟩, ⟨31, 16, .rc⟩, ⟨1, 1, .ro⟩, ⟨0, 0, .ro⟩]⟩,
  ⟨0x1DC4, 8, 8, 0x0, [⟨15, 0, .ro⟩]⟩,
  ⟨0x1DC5, 8, 8, 0x0, [⟨63, 32, .ro⟩, ⟨21, 0, .ro⟩]⟩]

/-- The words of block FLT. -/
def regTableFLT : List RegDesc := [
  ⟨0x1E00, 0, 1, 0x0, [⟨31, 31, .wo⟩, ⟨28, 24, .rw⟩, ⟨20, 20, .rw⟩, ⟨18, 16, .rw⟩, ⟨7, 0, .rw⟩]⟩,
  ⟨0x1E01, 0, 1, 0x0, [⟨23, 0, .rw⟩]⟩,
  ⟨0x1E02, 0, 1, 0x0, [⟨24, 24, .wo⟩, ⟨23, 0, .wo⟩]⟩,
  ⟨0x1E03, 0, 1, 0x0, [⟨63, 0, .rw⟩]⟩,
  ⟨0x1E10, 0, 1, 0x0, [⟨63, 48, .rc⟩, ⟨13, 13, .ro⟩, ⟨12, 0, .ro⟩]⟩,
  ⟨0x1E20, 1, 24, 0x10, [⟨4, 4, .ro⟩, ⟨3, 3, .ro⟩, ⟨0, 0, .ro⟩]⟩,
  ⟨0x1E40, 1, 24, 0x0, [⟨63, 0, .ro⟩]⟩]

/-- The words of block CMP. -/
def regTableCMP : List RegDesc := [
  ⟨0x1F00, 0, 1, 0x0, [⟨63, 32, .rc⟩, ⟨31, 0, .rc⟩]⟩,
  ⟨0x1F01, 0, 1, 0x0, [⟨63, 48, .rc⟩, ⟨47, 32, .rc⟩, ⟨31, 16, .rc⟩, ⟨15, 0, .rc⟩]⟩,
  ⟨0x1F02, 0, 1, 0x0, [⟨63, 48, .rc⟩, ⟨1, 1, .ro⟩]⟩,
  ⟨0x1F03, 0, 1, 0x0, [⟨5, 0, .ro⟩]⟩,
  ⟨0x1F10, 4, 8, 0x0, [⟨63, 63, .rw⟩, ⟨58, 48, .rw⟩, ⟨47, 0, .rw⟩]⟩,
  ⟨0x1F11, 4, 8, 0x0, [⟨63, 32, .rw⟩, ⟨4, 0, .rw⟩]⟩,
  ⟨0x1F12, 4, 8, 0x0, [⟨63, 0, .ro⟩]⟩,
  ⟨0x1F13, 4, 8, 0x0, [⟨63, 32, .rc⟩, ⟨31, 16, .rc⟩, ⟨15, 0, .rc⟩]⟩]

/-- The words of block SSP. -/
def regTableSSP : List RegDesc := [
  ⟨0x1F40, 16, 4, 0x11800, [⟨23, 16, .rw⟩, ⟨15, 8, .rw⟩, ⟨7, 0, .rw⟩]⟩,
  ⟨0x1F41, 16, 4, 0x0, [⟨2, 2, .wo⟩, ⟨1, 1, .wo⟩, ⟨0, 0, .wo⟩]⟩,
  ⟨0x1F42, 16, 4, 0x0, [⟨63, 48, .rc⟩, ⟨47, 32, .rc⟩, ⟨31, 16, .rc⟩, ⟨8, 8, .ro⟩, ⟨7, 0, .ro⟩]⟩,
  ⟨0x1F43, 16, 4, 0x0, [⟨63, 63, .ro⟩, ⟨62, 60, .ro⟩, ⟨59, 58, .ro⟩, ⟨55, 48, .ro⟩, ⟨47, 0, .ro⟩]⟩,
  ⟨0x1F44, 16, 4, 0x0, [⟨63, 0, .ro⟩]⟩,
  ⟨0x1F48, 1, 8, 0x0, [⟨63, 63, .rw⟩, ⟨57, 56, .rw⟩, ⟨55, 53, .rw⟩, ⟨47, 0, .rw⟩]⟩,
  ⟨0x1F58, 1, 8, 0x0, [⟨63, 63, .rw⟩, ⟨57, 56, .rw⟩, ⟨55, 53, .rw⟩, ⟨47, 0, .rw⟩]⟩,
  ⟨0x1F68, 1, 8, 0x0, [⟨63, 63, .rw⟩, ⟨57, 56, .rw⟩, ⟨55, 53, .rw⟩, ⟨47, 0, .rw⟩]⟩,
  ⟨0x1F78, 1, 8, 0x0, [⟨63, 63, .rw⟩, ⟨57, 56, .rw⟩, ⟨55, 53, .rw⟩, ⟨47, 0, .rw⟩]⟩]

/-- The words of block DBG. -/
def regTableDBG : List RegDesc := [
  ⟨0x1F80, 0, 1, 0x0, [⟨11, 8, .rw⟩, ⟨7, 0, .rw⟩]⟩,
  ⟨0x1F81, 0, 1, 0x0, [⟨63, 0, .ro⟩]⟩,
  ⟨0x1F88, 1, 2, 0x0, [⟨63, 32, .rc⟩, ⟨31, 16, .rc⟩]⟩,
  ⟨0x1F8A, 0, 1, 0x0, [⟨63, 0, .ro⟩]⟩]

/-- The block number B of a word address (R448). -/
def blockOf (a : Nat) : Nat :=
  if a < 0x100 then 0 else if a < 0x200 then 1 else if a < 0x300 then 2 else if a < 0x400 then 3
  else if a < 0x500 then 4 else if a < 0x600 then 5 else if a < 0x700 then 6 else if a < 0x800 then 7
  else if a < 0xC00 then 8 else if a < 0xD00 then 9 else if a < 0xE00 then 10 else if a < 0xF00 then 11
  else if a < 0xF80 then 12 else if a < 0x1000 then 13 else if a < 0x1C40 then 14 else if a < 0x1DC0 then 15
  else if a < 0x1E00 then 16 else if a < 0x1F00 then 17 else if a < 0x1F40 then 18 else if a < 0x1F80 then 19
  else 20

/-- The register table of a block. -/
def regTable (a : Nat) : List RegDesc :=
  match blockOf a with
  | 0 => regTableSYS
  | 1 => regTableCFG
  | 2 => regTableEVT
  | 3 => regTableTIME
  | 4 => regTableTIV
  | 5 => regTableLANE
  | 6 => regTableSW
  | 7 => regTablePAIR
  | 8 => regTableENG
  | 9 => regTableQUE
  | 10 => regTableSTRM
  | 11 => regTableCAP
  | 12 => regTableCAL
  | 13 => regTableUPD
  | 14 => regTableCH
  | 15 => regTableBANK
  | 16 => regTableFC
  | 17 => regTableFLT
  | 18 => regTableCMP
  | 19 => regTableSSP
  | _ => regTableDBG

/-- The word address lies in a register of the table. -/
def RegDesc.has (d : RegDesc) (a : Nat) : Bool :=
  if d.stride = 0 then a == d.base
  else decide (d.base ≤ a) && (a - d.base) % d.stride == 0 && decide ((a - d.base) / d.stride < d.count)

/-- The table's register at a word address; none where the word is unimplemented (R451). -/
def findReg (a : Nat) : Option RegDesc := (regTable a).find? (fun d => d.has a)

/-- A register of the table with a fixed reset value, or the value a trim, a fuse, a strap or an index gives it. -/
def Reg.resetValue (a : Nat) : W64 :=
  match findReg a with
  | none => 0
  | some d =>
    if a = Reg.SYS_ID then
      BitVec.ofNat 64 (0x0384 <<< 48 + Config.idGrade <<< 40 + Config.idRev <<< 16 + 0x5358)
    else if a = Reg.SYS_UID then BitVec.ofNat 64 Config.uid
    else if a = Reg.SYS_STRAPS then BitVec.ofNat 64 (Config.strapAuth * 16 + Config.strapRole * 8 + Config.strapSp * 2)
    else if a = Reg.SYS_AUTH then
      BitVec.ofNat 64 ((Config.strapAuth % 4) <<< 8 + Config.strapAuth / 4)
    else if a = Reg.PAIR_STAT then BitVec.ofNat 64 (Config.strapRole <<< 5)
    else if a = Reg.TB_STAT 0 then BitVec.ofNat 64 (d.reset + 1 <<< 31)
    else if a = Reg.SW_MAC then BitVec.ofNat 64 Config.fuseMac
    else if a = Reg.TIV_TRIM then BitVec.ofNat 64 Config.trimTivCode
    else if a = Reg.CAL_VINT then BitVec.ofNat 64 Config.trimVint
    else if blockOf a = 8 then
      if (a - 0x0800) % 64 = 2 then BitVec.ofNat 64 ((a - 0x0800) / 64) else BitVec.ofNat 64 d.reset
    else if blockOf a = 5 then
      if (a - 0x0500) % 64 = 6 then
        BitVec.ofNat 64 (Config.trimSwing <<< 16 + Config.trimPre <<< 8 + Config.trimPost)
      else BitVec.ofNat 64 d.reset
    else if blockOf a = 15 then
      if (a - 0x1C40) % 16 = 10 then BitVec.ofNat 64 Config.trimVref else BitVec.ofNat 64 d.reset
    else if blockOf a = 16 then
      if (a - 0x1DC0) % 8 = 4 then BitVec.ofNat 64 Config.trimSkew
      else if (a - 0x1DC0) % 8 = 5 then BitVec.ofNat 64 (Config.trimFcGain <<< 32 + Config.trimFcOffs)
      else BitVec.ofNat 64 d.reset
    else BitVec.ofNat 64 d.reset

/-- The word holds an RC field (R164). -/
def hasRc (a : Nat) : Bool :=
  match findReg a with
  | none => false
  | some d => d.fields.any (fun f => f.acc == .rc)

end Sys2Proof.Machine
end

