-- ==== Sys2Proof/Machine/State.lean ====
section
/-!
DEFINITION. Sys2Proof/Machine/State.lean: the state of the hub. Registers stand in one sparse table over the 13-bit word
address space (R448), every other piece of state the manual names in the record of its block. Each field's
default is its value after reset.
-/
namespace Sys2Proof.Machine
open Sys2Proof

/-- The clock: root ticks since reset, the slot in progress and the root tick within it, the step of the hold delay line and
the length in root ticks of the last converter clock period corrected, and the slot boundaries since reset (R17, R19). -/
structure ClockSt where
  uptime  : Nat := 0
  slot    : Nat := 0
  tick    : Nat := 0
  step    : Nat := 32
  period  : Nat := 32
  edges   : Nat := 0
  deriving DecidableEq, Repr

/-- How far start-up has come (R43): power or reset holds the hub, the straps are sampled, the root PLL is locked, the
loader has decided, the lanes are brought up, the configuration is loaded, the DRAM is trained, host service runs. -/
inductive Phase where
  | held | straps | locked | loaded | lanes | configured | trained | running
  deriving DecidableEq, Repr

/-- A record of the time-mark journal: word 0, the sequence number and the CRC-32C of word 1 (R46). -/
structure TimeMark where
  sec : Nat
  seq : Nat
  crc : Nat
  deriving DecidableEq, Repr

/-- What a pending or past mode change needs beyond SYS_MODE: the named slot of the pending transition (none while it waits
for the initial set), the port that asked (7 for the hub), its cause; the slot of the last entry into acquisition,
the slot acquisition was left at, its drain end; the spans of slots in which the hub acquired; whether streams and the
ledger write; the time marks by place of their journal, with the seconds of the last one at start-up and the slot of the last one written; the start-up phase and
the wait for the initial set; the slot from which excitation stops after a stop; the instruction of the test access port and
one that waits for the excitation to end (R33 to R48, R480, R501). -/
structure ModeSt where
  phase     : Phase := .held
  pendAt    : Option Nat := none
  pendPort  : Nat := 7
  pendCause : Nat := 0
  entry     : Option Nat := none
  leave     : Option Nat := none
  drain     : Option Nat := none
  spans     : List (Nat × Option Nat) := []
  writing   : Bool := false
  marks     : Sparse (Option TimeMark) := []
  lastMark  : Nat := 0
  setWaitEnd : Option Nat := none
  stopAt    : Option Nat := none
  markAt    : Option Nat := none
  tap       : TapOp := .bypass
  tapWait   : Option TapOp := none
  deriving DecidableEq, Repr

/-- A register record of a configuration or an overlay: word address, mask and value (R50). -/
structure CfgRec where
  addr  : Nat
  mask  : W64
  value : W64
  deriving DecidableEq, Repr

/-- An overlay: the mode it is bound to (255 none) and its records (R52). -/
structure OverlayDef where
  id   : Nat
  bind : Nat
  recs : List CfgRec
  deriving DecidableEq, Repr

/-- A program section of a configuration: the engine and its words (R499). -/
structure ProgDef where
  eng   : Nat
  words : List W32
  deriving DecidableEq, Repr

/-- The parameters of a configuration: START_MODE, TSET_WAIT in s, EPOCH, GROUP, the partition sizes in units of 64 MiB
(R51, R497). -/
structure CfgParams where
  startMode : Nat := 1
  tsetWait  : Nat := 0
  epoch     : Nat := 0
  group     : Nat := 0
  cap       : Nat := 16
  led       : Nat := 96
  bulk      : Nat := 12
  deriving DecidableEq, Repr

/-- A configuration store in flash: its image by word, its length in words, the sequence number and the
CRC-32C of its commit record (R53). -/
structure CfgStore where
  words : Sparse W64 := []
  len   : Nat := 0
  seq   : Option Nat := none
  crc   : Nat := 0
  deriving DecidableEq, Repr

/-- A sender of configuration TLVs: whether its last one differed in digest, its epoch (R61). -/
structure TlvPeer where
  sender : Nat
  differs : Bool
  epoch  : Nat
  deriving DecidableEq, Repr

/-- The configuration: the two stores, the port that writes the inactive one with the next offset, the active base's
parameters, the records of each of its sections that its blocks accepted, its programs, its overlays, the partition
sizes in force, whether a store was committed that is not loaded yet, the pending overlay with its slot and port, an
automatic activation that becomes pending after an explicit one, the TLV peers, when the last TLV of another epoch
arrived, the epochs logged, and the uptime
slot of the last beacons (R50 to R61). -/
structure CfgSt where
  stores  : Sparse CfgStore := []
  writer  : Option Nat := none
  nextOff : Nat := 0
  newer   : Bool := false
  params  : CfgParams := {}
  recs    : List (List CfgRec) := []
  progs   : List ProgDef := []
  ovls    : List OverlayDef := []
  parts   : Nat × Nat × Nat := (16, 96, 12)
  pendAt  : Option Nat := none
  pendPort : Nat := 7
  auto    : Bool := false
  autoNext : Bool := false
  peers   : List TlvPeer := []
  otherAt : Option Nat := none
  logged  : List (Nat × Nat) := []
  beaconAt : Option Nat := none
  deriving DecidableEq, Repr
/-- How a channel's excitation stands (R76): off, waiting for a zero crossing to start, ramping up, driven, waiting for a
zero crossing to stop or to change amplitude, ramping down, removed by a trip, or latched off. -/
inductive Drive where
  | off | waitStart | rampUp | on | waitStop | waitLevel | rampDown | removed | latched
  deriving DecidableEq, Repr

/-- A break of a lead: the slot in which it was seen and, once confirmed, the slot of its restoration (R83). -/
structure Break where
  lead  : Lead
  start : Nat
  fin   : Option Nat
  deriving DecidableEq, Repr

/-- The sums of the least-squares learning of G_ref and C_ref over the learning slots: of Q², Q·h, h², E·Q and E·h, where h is v_end² less
v_start² (R80). -/
structure Fit where
  qq : Int := 0
  qh : Int := 0
  hh : Int := 0
  eq : Int := 0
  eh : Int := 0
  deriving DecidableEq, Repr

/-- What was learned: G_ref = g / det, and ½·C_ref = c / det (R80). -/
structure GRef where
  g   : Int
  c   : Int
  det : Int
  deriving DecidableEq, Repr

/-- The sense detector of a channel: the newest raw values with their slots, newest first; the sum and count of the carrier period in progress; the
newest residue as numerator and denominator on the VALUE scale; the consecutive evaluations in which the lead was whole (R81 to R83). -/
structure SenseSt where
  last  : List (Nat × Int) := []
  sum   : Int := 0
  cnt   : Nat := 0
  resid : Option (Int × Nat) := none
  whole : Nat := 0
  deriving DecidableEq, Repr

/-- A standard channel's excitation, energy supervisor and wire-break detectors (R76 to R93). Energies are in pJ, voltages in mV, Q in mV²·µs.
`ac` and `k` are the kind and the carrier divisor of the drive that stands, `low` and `whole` the consecutive evaluated slots whose conductance was
below a quarter of G_ref, and not below half of it. -/
structure ChanSt where
  drive    : Drive := .off
  ac       : Bool := false
  k        : Nat := 100
  level    : Nat := 0
  target   : Nat := 0
  due      : Nat := 0
  startAt  : Option Nat := none
  lastOn   : Option Nat := none
  gRef     : Option GRef := none
  fit      : Fit := {}
  vEnd     : Int := 0
  low      : Nat := 0
  whole    : Nat := 0
  sense    : SenseSt := {}
  win      : List Int := []
  limRun   : Nat := 0
  lastTrip : Option Nat := none
  runTrips : Nat := 0
  retryAt  : Option Nat := none
  exlimFrom : Option Nat := none
  exlim    : List (Nat × Nat) := []
  breaks   : List Break := []
  lost     : Option Nat := none
  clipRun  : Nat := 0
  deriving DecidableEq, Repr

/-- A path committed for a position and a target slot, with the engine that committed it (R102, R107). -/
structure Pred where
  slot : Nat
  pos  : Nat
  fine : Bool
  eng  : Nat
  deriving DecidableEq, Repr

/-- The correction terms of one slice (R110, R113). -/
structure SliceTerms where
  o : Int := 0
  g : Int := 0
  q : Int := 0
  deriving DecidableEq, Repr

/-- What a bank's converter does in one slot: the predictions frozen for it (bit p: position p fine), which of them an
engine's CONVSET made for a POLICY 3 channel, the slice terms in force, the position the spare's crosspoint
connects at the hold strobe, whether the spare's calibration switch is closed and the spare's range; from tick 200 on the positions whose
own path converts its pins, those of them that take part in the arbitration, the position and path on the calibration
node, the clip states, the path after guard (bit 16: the spare path), the rescued positions in order F0 to F2, the
positions that deliver COARSE; and the codes by opportunity, 4 · cycle + lane (R98 to R109). -/
structure SlotPlan where
  slot    : Nat := 0
  live    : Bool := false
  pred    : Nat := 0
  csEng   : List (Nat × Nat) := []
  slices  : Sparse SliceTerms := []
  sparePos : Option Nat := none
  spareNode : Bool := false
  spareRange : Nat := 0
  refu    : Bool := false
  judged  : Bool := false
  pins    : Nat := 0
  arb     : Nat := 0
  calOwn  : Option (Nat × Bool) := none
  clip    : Nat := 0
  path    : Nat := 0
  rescued : List Nat := []
  coarse  : Nat := 0
  codes   : Sparse (Option (BitVec 18)) := []
  deriving DecidableEq, Repr

/-- The offset and gain term of a path and a half of a hold pair (R111, R113). -/
structure HalfTerms where
  d : Int := 0
  e : Int := 0
  deriving DecidableEq, Repr

/-- The gain term (the difference from the nominal gain, in the path's steps) and offset of a path onto the coarse
scale, with the traced bit (R113, R414). -/
structure ScaleTerms where
  g      : Int := 0
  o      : Int := 0
  traced : Bool := false
  deriving DecidableEq, Repr

/-- The sums of even-slot and odd-slot values of one path since the last offset update (R111). -/
structure HalfSums where
  even  : Int := 0
  nEven : Nat := 0
  odd   : Int := 0
  nOdd  : Nat := 0
  deriving DecidableEq, Repr

/-- A run of raw slots in which a position's samples come from the spare path as a · spare + b, with a = an / ad and
b = bn / bd (R123, R407, R435). -/
structure Subst where
  pos   : Nat
  first : Nat
  last  : Option Nat
  an    : Int := 1
  ad    : Nat := 1
  bn    : Int := 0
  bd    : Nat := 1
  deriving DecidableEq, Repr

/-- A bank: the prediction store, the last slot (plus 1) of each position's warning state, the plans of the slot in
progress and the one before it, the slice terms the injections have reached, the hold-half and scale terms by position
(16 to 18: the spare on ranges 0 to 2), the even and odd sums of the window that began in slot `trackFrom`, the last injection and the step in
the order of levels of each slice, the crosspoint and
the settling of the spare, the substitutions, the HANDOVER windows, the runs of slots without raw samples, the
reference monitor with the slot from which the reference has been quiet and a fallback that stands, the pair factor in 2^-20 with the slot since reset its window began at, the slots of the bank faults, the position that holds the spare under R435 and a
channel fault escalated to the bank, the code of the fault that the bank stands still for, and
the slot in which the return was seen open. -/
structure BankSt where
  preds    : List Pred := []
  lastWarn : Sparse Nat := []
  plan     : SlotPlan := {}
  prev     : SlotPlan := {}
  slices   : Sparse SliceTerms := []
  halves   : Sparse HalfTerms := []
  scales   : Sparse ScaleTerms := []
  sums     : Sparse HalfSums := []
  trackFrom : Nat := 0
  lastInj  : Sparse Nat := []
  injStep  : Sparse Nat := []
  xp       : Option Nat := none
  xpSettle : Nat := 0
  spareAaf : Nat := 0
  spareRange : Nat := 0
  node     : Bool := false
  subs     : List Subst := []
  hand     : List (Nat × Option Nat) := []
  gaps     : List (Nat × Option Nat) := []
  refOnAt  : Option Nat := none
  quietFrom : Nat := 0
  fellBack : Bool := false
  lateLogged : Bool := false
  factor   : Nat := 1048576
  factorFrom : Nat := 0
  faults   : List Nat := []
  holder   : Option Nat := none
  escal    : Option Nat := none
  restartOf : Nat := 0
  retAt    : Option Nat := none
  deriving DecidableEq, Repr
/-- One raw sample of a channel: its value on the coarse scale, the raw flags WIRE COARSE SUBST HANDOVER EXLIM TUNL POISON
in bits 6 to 0, and the reference and clip states (R13, R109, R116). -/
structure Raw where
  value : Int
  flags : Nat
  refu  : Bool
  clip  : Bool
  deriving DecidableEq, Repr

/-- The settings of a channel that decide its output words: preset, average mode, delay δ in 1/65,536 slot, phase trim,
detectors, excitation mode, carrier divisor, carrier zero and anti-alias setting (R118, R123 to R145). -/
structure FltSet where
  preset : Nat
  avg    : Bool
  n      : Nat
  sh     : Nat
  delta  : Int
  phi    : Int
  w      : Nat
  pk     : Bool
  rms    : Bool
  env    : Bool
  ac     : Bool
  k      : Nat
  aaf    : Nat
  s0     : Nat
  deriving DecidableEq, Repr

/-- Settings in force from a slot on: `winFrom` is the slot the window of their instants must not begin before, `cut` says
that the windows of the former settings must end before `start` (R119, R129, R133), `det` is the slot the detectors'
first window begins at after a change of R147; `grid` is the decimator phase P. -/
structure FltEntry where
  start   : Nat
  winFrom : Nat
  cut     : Bool
  det     : Option Nat
  grid    : Nat
  set     : FltSet
  deriving DecidableEq, Repr

/-- An output instant's word with what the detectors take from it: the start of the detectors it belongs to, VALUE,
the flags, I′ and Q′ (R123, R145, R147). -/
structure Out where
  at_   : Nat
  det   : Option Nat
  value : Int
  flags : Nat
  ip    : Int
  qp    : Int
  deriving DecidableEq, Repr

/-- A ring of the bank output buffer: the 8 newest words with their instants, newest first, and the instants whose words
were written and replaced (R149, R200). -/
structure OutRing where
  ring : List (Nat × W64) := []
  gone : List Nat := []
  deriving DecidableEq, Repr

/-- The filter pipeline of a channel: the raw samples by slot; the settings in force, newest first; the output words held
for the detectors, newest first; the gaps of grid restarts, between the last old and the first new instant, newest first; the rings of the output buffer by kind (0 VALUE, 1 MAX, 2 MIN, 3 RMS, 4 ENV)
(R123 to R149). -/
structure FltSt where
  raws    : Sparse (Option Raw) := []
  sets    : List FltEntry := []
  outs    : List Out := []
  gaps    : List (Nat × Nat) := []
  bufs    : Sparse OutRing := []
  deriving DecidableEq, Repr

/-- The coefficients of a bank: keyed 2,048 · set + 256 · preset + tap, unlisted ones being the ROM defaults; the pending
swap; the swaps that took effect, newest first, with the set active from then on (R138 to R140). -/
structure CoefSt where
  taps   : Sparse (Option Int) := []
  swapAt : Option Nat := none
  swaps  : List (Nat × Nat) := []
  deriving DecidableEq, Repr

/-- A fast channel: the codes taken, newest first, each with its edge index; an overrange in the slot in progress; the crossings
of comparators A and B, newest first, rising or not, with their corrected stamps in TDC bins (R120 to R122, R212 to R214). -/
structure FastSt where
  codes : List (Nat × Int) := []
  railed : Bool := false
  crossA : List (Bool × Nat) := []
  crossB : List (Bool × Nat) := []
  deriving DecidableEq, Repr

/-- The fabric: the slots' hold instants in TDC bins since reset, newest first; the pending grid restarts, earliest first; the reference of the
fast channels and the slot from which it has been quiet; the slots at which the sampling time base began or ceased to count as locked, newest first
(R133, R150, R252). -/
structure FabricSt where
  holds    : List (Nat × Nat) := []
  gridAt   : List Nat := []
  fastRefAt : Option Nat := none
  fastQuiet : Nat := 0
  fastSettled : Bool := false
  locks    : List (Nat × Bool) := []
  deriving DecidableEq, Repr
/-- An entry of an engine's commit buffer (R163). -/
inductive CbOp where
  | convset (bank mask paths target : Nat)
  | emit (queue : Nat) (start fin : Bool) (words : List W64)
  | event (code : Nat) (arg : W64) (notify : Bool)
  | trigarm (unit : Nat) (arm : Bool) (desc : Nat)
  | store (addr size value : Nat)
  | aadd (addr : Nat) (value : W64)
  deriving DecidableEq, Repr

/-- A commit-buffer entry with the program slot that placed it. -/
structure CbItem where
  slot : Nat
  op   : CbOp
  deriving DecidableEq, Repr

/-- An undo-log entry: the old word of a local data memory address (R162). -/
structure UndoItem where
  slot : Nat
  addr : Nat
  old  : W64
  deriving DecidableEq, Repr

/-- A checkpoint: what an engine holds at the start of a program slot (R160). -/
structure Checkpoint where
  slot : Nat
  w    : Sparse W64
  p    : Nat
  a    : Sparse (BitVec 128)
  pc   : Nat
  deriving DecidableEq, Repr

/-- A squash cause or redirect addressed to an engine that waits for it to resume or to reach its slot; one that a takeover holds has
its place in the order of arrival, from 1 up (R172, R177). -/
structure HeldCause where
  kind   : Nat
  code   : Nat
  detail : Nat
  slot   : Nat
  arr    : Nat := 0
  deriving DecidableEq, Repr

/-- One physical engine: its memories, its registers and its speculation; `reads` are the loads of window data words, with their
program slots, whose pointers advance at commit (R152, R162, R163). -/
structure EngSt where
  imem    : Sparse W32 := []
  shadow  : Sparse W32 := []
  lmem    : List Host.Cell := []
  w       : Sparse W64 := []
  p       : Nat := 1
  a       : Sparse (BitVec 128) := []
  slot    : Nat := 0
  ecause  : W64 := 0
  pc      : Nat := 0
  running : Bool := false
  sq      : Bool := false
  exc     : Option W64 := none
  vecSlot : Option Nat := none
  ckpts   : List Checkpoint := []
  undo    : List UndoItem := []
  cb      : List CbItem := []
  reads   : List (Nat × Nat) := []
  held    : List HeldCause := []
  redirs  : List HeldCause := []
  snapArmed : Bool := false
  snap    : Sparse W64 := []
  stallCb : Option Nat := none
  stallUndo : Option Nat := none
  lastCommit : Nat := 0
  used    : Bool := false
  deriving DecidableEq, Repr

/-- A commit group: the entries of one program slot of a logical engine (R165). -/
structure Group where
  slot : Nat
  eng  : Nat
  ops  : List CbOp
  seq  : Nat
  accSlot : Nat
  accTick : Nat
  deriving DecidableEq, Repr

/-- Work that a faulted engine left for a spare (R176). -/
structure Takeover where
  eng    : Nat
  phys   : Nat
  spare  : Option Nat
  detect : Nat
  q      : Nat
  deriving DecidableEq, Repr

/-- The commit arbiter and the takeovers in progress: groups that are ready, groups accepted in commit order, the next
commit sequence number, the last commit sequence number of each engine (R166, R176). -/
structure ArbSt where
  ready    : List Group := []
  accepted : List Group := []
  nextSeq  : Nat := 1
  takeovers : List Takeover := []
  lastTake : Sparse Nat := []
  deriving DecidableEq, Repr

/-- A trigger that waits for its stamp to be written: the converter clock of its frame, its instant in TDC bins, its slot, BIN
and FRAC (R220). -/
structure TrigPoint where
  clock : Nat
  bins  : Nat
  slot  : Nat
  bin   : Nat
  frac  : Nat
  deriving DecidableEq, Repr

/-- A trigger unit: the converter clock at which its arm takes effect and, for a decimated source, the instant the unit counts
from; the stamp up to which crossings are judged, the TIMEOUT reference used up; for a decimated source the states of
its thresholds and their crossings (rising, instant, FLAGS), newest first; the triggers whose stamp is not written yet;
the frames written since the arm, the index of the trigger frame, of frame 0 of the record, the frames from the trigger
frame on, the frames spilled; the last frame taken unlocked and the last with an overrange; the first trigger point's
data for words 4, 5 and 14; secondary triggers; a spill cut or overrun; a disarm or Summit exit that forbids re-arm with
its record flags; the converter clock at which REARM ends (R217 to R232). -/
structure TrigSt where
  armAt   : Nat := 0
  armM    : Nat := 0
  seen    : Nat := 0
  toUsed  : Option Nat := none
  lvlA    : Bool := false
  lvlB    : Bool := false
  decA    : List (Bool × Nat × Nat) := []
  decB    : List (Bool × Nat × Nat) := []
  stamps  : List TrigPoint := []
  nFrames : Nat := 0
  trig    : Nat := 0
  kept    : Nat := 0
  post    : Nat := 0
  spilled : Nat := 0
  unlocked : Option Nat := none
  railed  : Option Nat := none
  decM    : Nat := 0
  decFlags : Nat := 0
  secs    : Nat := 0
  secAt   : Nat × Nat := (0, 0)
  cut     : Bool := false
  ovr     : Bool := false
  noRearm : Bool := false
  disarmed : Bool := false
  modeExit : Bool := false
  exitAt  : Option Nat := none
  rearmAt : Nat := 0
  deriving DecidableEq, Repr

/-- An entry of the miss log (R231). -/
structure Miss where
  unit : Nat
  next : Nat
  slot : Nat
  bin  : Nat
  frac : Nat
  deriving DecidableEq, Repr

/-- A copy in progress: descriptor, record offset, destination and length in bytes (R229). -/
structure CopyJob where
  desc : Nat
  off  : Nat
  dst  : Nat
  len  : Nat
  deriving DecidableEq, Repr

/-- The capture engine: the trigger units, the descriptor words keyed 16 · index + word, the bytes of the capture region and
those of its bursts that fail their check, the miss log (oldest first), the copy in progress, the number of records
closed (R216 to R232). -/
structure CapSt where
  units  : Sparse TrigSt := []
  descs  : Sparse W64 := []
  mem    : List Host.Cell := []
  bad    : List Nat := []
  misses : List Miss := []
  copy   : Option CopyJob := none
  rseq   : Nat := 0
  deriving DecidableEq, Repr
/-- A frequency run: the instant of the slot edge that its gate waits from, none until that edge has come, and the edge t0 that opened the
gate with the edges counted since (R244). -/
structure FreqRun where
  from_ : Option Nat
  t0    : Option Nat
  n     : Nat
  deriving DecidableEq, Repr

/-- The time-interval unit: the last accepted edge of each pin (plus 1), the stamps on hold (source code, instant in TDC bins),
the instant from which edges count, the edge that began the measurement (whether it is the stop, instant), the frequency
run, the ageing term in units of 1 / 5,400,000,000 ppb, which one unit of SLOPE moves it by, the loop term in 2^-24 ppb, the uptime
slot since which the loop is locked, the trim limit logged, the loop frozen for want of a valid CLK_REF10, the uptime slot of
the last update of the ageing term, the loop terms of the last 7 days of lock with their uptime slots, newest first (R234 to
R246). -/
structure TivSt where
  last    : Sparse Nat := []
  stamps  : List (Nat × Nat) := []
  armAt   : Nat := 0
  start   : Option (Bool × Nat) := none
  freq    : Option FreqRun := none
  age     : Int := 0
  loop    : Int := 0
  lockedAt : Option Nat := none
  limited : Bool := false
  frozen  : Bool := false
  ageAt   : Nat := 0
  hist    : List (Nat × Int) := []
  deriving DecidableEq, Repr
/-- A foreign master of a PTP port: its last Announce, the number received, the uptime slot of the last (R260). -/
structure Foreign where
  ann   : AnnounceMsg
  count : Nat
  seen  : Nat
  deriving DecidableEq, Repr

/-- A PTP port of a time base: its portState, the Sync that waits for its Follow_Up, the origin and receive times of the last
complete Sync, the sequence and transmit time of the Delay_Req or Pdelay_Req in flight, the Pdelay_Resp that waits for
its Follow_Up, the measured path delay (2^-16 ns), the foreign masters, the sequence numbers sent, the uptime slot of
the last Sync and of the last Announce of the parent (R260 to R266). -/
structure PtpPort where
  wait    : Option PtpMsg := none
  sync    : Option (Int × Int) := none
  reqSeq  : Nat := 0
  reqTx   : Option Int := none
  presp   : Option PtpMsg := none
  delay   : Option Int := none
  foreign : List Foreign := []
  syncSeq : Nat := 0
  annSeq  : Nat := 0
  heard   : Nat := 0
  deriving DecidableEq, Repr

/-- A time command that waits for the next slot boundary: OP, its operands and the slot boundaries counted at its acceptance (R257). -/
structure TimeCmd where
  op    : Nat
  sec   : Nat
  ns    : Nat
  off   : Int
  maint : Bool
  edge  : Nat
  deriving DecidableEq, Repr

/-- A time base: its time in 2^-48 ns, the rest of a commanded SLEW in 2^-48 ns, consecutive offsets within LOCK_NS and beyond
four times it, consecutive offsets within STEPLIM while REFUSED, the refusal episode logged, LOCKED with SRC 2 before
HOLDOVER, the commands that wait in the order of acceptance, the instant in TDC bins at which the last command took effect, the uptime of the last
accepted offset or Sync, of the last write of TB_EXTOFF, and the time of the last valid PPS_IN edge;
whether a SET left the sub-second phase to the first PPS_IN edge (R253); the source in force, the interval of the last written offset in root ticks; its PTP ports, the
lane of the parent (R248 to R264). -/
structure TbSt where
  time     : Nat := 0
  slew     : Option Int := none
  inRow    : Nat := 0
  outRow   : Nat := 0
  okRow    : Nat := 0
  episode  : Bool := false
  ppsLock  : Bool := false
  cmds     : List TimeCmd := []
  cmdAt    : Nat := 0
  lastOff  : Nat := 0
  lastExt  : Option Nat := none
  lastPps  : Option Nat := none
  phaseDue : Bool := false
  srcNow   : Nat := 0
  tau      : Nat := 0
  ports    : Sparse PtpPort := []
  parentAt : Option Nat := none
  deriving DecidableEq, Repr

/-- PPS_OUT and the slot numbers: the second pulsed last, the uptime of an alarm's firing that asks for a pulse, the uptime at which the present pulse
ends, the highest slot number used since the ledger was last discarded (R250, R271). -/
structure PpsSt where
  last    : Option Nat := none
  sched   : Option Nat := none
  highTo  : Option Nat := none
  highest : Nat := 0
  deriving DecidableEq, Repr
/-- A frame that waits in an egress queue of the switch, or that left it: where it came from (0 to 3 a lane, 4 the hub), its
priority, addresses, EtherType, VLAN, encapsulation (R302), payload words, octets, and for a PTP message its fields,
ingress stamp with its adjustment and correction, and for a UDP message the port and the destination
address, and whether it is sent again after a loss (R261, R287, R292 to R302). -/
structure TxFrame where
  origin : Nat
  prio   : Nat
  dst    : Nat
  src    : Nat
  etype  : Nat
  vid    : Nat
  tagged : Bool
  encap  : Nat
  words  : List W64
  octets : Nat
  ptp    : Option PtpTag
  rx     : Int
  corr   : Int
  udp    : Option (Nat × Nat) := none
  again  : Bool := false
  deriving DecidableEq, Repr

/-- A learned address: VLAN, port and the time in slots it was last seen (R292). -/
structure Learned where
  mac  : Nat
  vid  : Nat
  port : Nat
  seen : Nat
  deriving DecidableEq, Repr

/-- A residence time held for a Follow_Up: egress port, message and time, in slots, it was held at (R299). -/
structure Residence where
  port : Nat
  tag  : PtpTag
  time : Int
  held : Nat
  deriving DecidableEq, Repr

/-- The switch: egress queues by port in order of arrival, the next source served by port and priority, learned addresses
(newest first), the VLAN and static tables, residences held, residence times waiting for a Follow_Up, and the frame
each port sent last, and by port the hub's replay frames of the last 64 slots with the slot ticks at which they ended (R287, R292 to
R301). -/
structure SwitchSt where
  egress  : Sparse (List TxFrame) := []
  turn    : Sparse Nat := []
  learned : List Learned := []
  vlan    : Sparse Nat := [(1, 1023)]
  fdb     : Sparse W64 := []
  held    : List Residence := []
  lastTx  : Sparse (Option TxFrame) := []
  kept    : Sparse (List (TxFrame × Nat)) := []
  deriving DecidableEq, Repr

/-- A lane's bring-up, loss and test: the partner's octets received last with the number of consecutive identical ordered sets, ACK
sent, the sets received since ACK was sent and the consecutive ones with ACK = 1, the rates that failed in this bring-up, the
rate in training, RS-FEC to be on with rate 3, the uptime in root ticks at which the exchange completed or the present
attempt began, the losses by rate with their uptime slot, the end of each rate's bar in uptime slots, the slot of a loss
of the active member that is not yet failed over, a MISMATCH of roles that repeats the exchange, checked PRBS bits not yet counted (R276 to R291). -/
structure LaneSt where
  octets  : Nat := 0
  seen    : Nat := 0
  ack     : Bool := false
  sent    : Nat := 0
  acked   : Nat := 0
  failed  : List Nat := []
  target  : Nat := 0
  fec     : Bool := false
  since   : Nat := 0
  losses  : List (Nat × Nat) := []
  bars    : Sparse Nat := []
  lostAt  : Option Nat := none
  retry   : Bool := false
  prbs    : Nat := 0
  deriving DecidableEq, Repr
/-- A packet of a queue: the stream, frame type, sequence number, first and last instant, position of its first word and
number of words, the H3 flags, CMODE, CHECK and the digest and epoch of H2 (R309 to R313). -/
structure Pkt where
  stream : Nat
  ftype  : Nat
  seq    : Nat
  first  : Nat
  fin    : Nat
  start  : Nat
  n      : Nat
  last   : Bool
  refu   : Bool
  clip   : Bool
  flush  : Bool
  drop   : Bool
  fst    : Bool
  cmode  : Nat
  check  : Nat
  h2     : Nat
  tag    : Nat
  deriving DecidableEq, Repr

/-- The open packet of a queue: its first word's position, its words so far, first and last instant, the running register
of CHECK, REFU and CLIP, whether its framing fault is logged, the records it holds (R310 to R314). -/
structure OpenPkt where
  start  : Nat
  n      : Nat
  first  : Nat
  fin    : Nat
  crc    : Nat
  refu   : Bool
  clip   : Bool
  framed : Bool
  deriving DecidableEq, Repr

/-- A discard of words of a queue whose bounds are still open: its condition, the items before the bounds, the first and the last instant
discarded so far (R317, R319). -/
structure Lost where
  cond  : Cond
  items : List W64
  first : Nat
  last  : Nat
  deriving DecidableEq, Repr

/-- A queue: the three pointers as counts, the closed packets that wait, the packets sent with the slot ticks at which their
transmission ended, those to be sent again, the open packet, whether words are discarded up to the next packet
start, and the discards to be logged then (R315 to R321, R287). -/
structure QueueSt where
  wp     : Nat := 0
  rp     : Nat := 0
  sp     : Nat := 0
  pkts   : List Pkt := []
  sent   : List (Pkt × Nat) := []
  resend : List Pkt := []
  open_  : Option OpenPkt := none
  disc   : Bool := false
  lost   : List Lost := []
  on     : Bool := false
  deriving DecidableEq, Repr

/-- A stream at work: enabled and taking words, an enable or a disable that waits for the slot boundary, the next sequence
number, the flags of its next packet, the runs of slots it was enabled in with their channels, the last instant taken
(R306, R311, R320). -/
structure StreamSt where
  on      : Bool := false
  rising  : Bool := false
  falling : Bool := false
  nextSeq : Nat := 0
  fst     : Bool := false
  flush   : Bool := false
  drop    : Bool := false
  runs    : List (Nat × Option Nat × Nat × Nat) := []
  taken   : Option Nat := none
  deriving DecidableEq, Repr

/-- A lane of the ledger coder, or the values of a record on its way to the coder: first instant, stride, values and flags
in order, the marks of the record, the digest and epoch it belongs to (R322 to R324). -/
structure LedLane where
  stream : Nat
  chan   : Nat
  first  : Nat
  stride : Nat
  vals   : List Int
  flags  : List Nat
  refu   : Bool
  clip   : Bool
  h2     : Nat
  deriving DecidableEq, Repr

/-- A ledger record: its header fields, the words as written, the original values CHECK is taken of, its octets' place in the ring, and whether its check fails on
readout (R323, R325). -/
structure LedRec where
  stream : Nat
  chan   : Nat
  first  : Nat
  count  : Nat
  stride : Nat
  ratio  : Nat
  words  : List W64
  orig   : List Int
  pos    : Nat
  bad    : Bool
  deriving DecidableEq, Repr

/-- A replay in progress: its request, the requester, the packet sequence, the FIRST and CHAN of the record sent last, the
spans sent (channel, first and last slot, failed check), the status entries still to send once the records are done,
the abort (R326 to R328). -/
structure Replay where
  port   : Nat
  tag    : Nat
  stream : Nat
  chlo   : Nat
  chhi   : Nat
  from_  : Nat
  to_    : Nat
  prio   : Nat
  dst    : Nat
  seq    : Nat
  cursor : Option (Nat × Nat)
  spans  : List (Nat × Nat × Nat × Bool)
  status : Option (List (Nat × Nat × Nat × Nat × Nat))
  cut    : Bool
  abort  : Bool
  deriving DecidableEq, Repr

/-- The ledger: lanes on die, records on their way to the coder, the ring (oldest first) and the next ring position, the raw
records of the slot index, the double self-check failures, the history of digest and epoch by slot, newest first
(R322 to R329, R38, R340). -/
structure LedgerSt where
  lanes   : List LedLane := []
  blocks  : List LedLane := []
  ring    : List LedRec := []
  pos     : Nat := 0
  raws    : List LedRec := []
  fails   : List Nat := []
  hist    : List (Nat × Nat) := []
  replays : List Replay := []
  deriving DecidableEq, Repr
/-- A valid pair frame's header as taken: the slot it carries, the sender's role, READY and fault bits, identity, and the low 32
bits of digest and epoch (R388). -/
structure PairHdr where
  slot   : Nat
  role   : Nat
  ready  : Bool
  fault  : Bool
  digest : Nat
  epoch  : Nat
  deriving DecidableEq, Repr

/-- The pair: the last valid STATE frame of the partner, the slot since which its frames carried equal slots, the slots of the
frames heard, the mirror of the Leader's state keyed 2^32 · kind + index and whether it is rebuilt since entry into Belay,
what the partner was sent of this hub's state, whether it was sent whole, the packets sent and not reported yet (stream, sequence, H1), the
shadow packets that have their number with the slot each is released in, the slot of a valid RELEASE, a handover
proposed (h, port, reason 0 commanded, 1 takeback, 2 proof, 3 handback, slot of PROPOSE), a handover pending (h, port,
whether this hub proposed it, reason), the banks of this hub handed over with c_b in half slots, READY since, the time
since reset in slots from which PERIOD counts, the end of the tenure of a proof, a failed proof uncleared, a fault seen in
the tenure, the slot of the last takeover, the first slot acquired in Belay, a fault raised by
this hub, the start of the next hourly retry (R381 to R401). -/
structure PairSt where
  partner  : Option PairHdr := none
  heardAt  : Option Nat := none
  equalFrom : Option Nat := none
  mirror   : Sparse W64 := []
  rebuilt  : Bool := false
  image    : Sparse W64 := []
  whole    : Bool := false
  reports  : List (Nat × Nat × Nat) := []
  shadow   : List (Nat × Nat × Nat) := []
  released : Option Nat := none
  asked    : Option (Nat × Nat × Nat × Nat) := none
  pend     : Option (Nat × Nat × Bool × Nat) := none
  handed   : Sparse Nat := []
  ramps    : Sparse Nat := []
  windowEnd : Sparse Nat := []
  readyFrom : Option Nat := none
  countFrom : Option Nat := none
  tenure   : Option Nat := none
  proofFail : Bool := false
  proofBad : Bool := false
  tookAt   : Option Nat := none
  belayFrom : Option Nat := none
  fault    : Bool := false
  listening : Option Nat := none
  deriving DecidableEq, Repr
/-- A response on its way: the sender of the command, OP, TAG, STATUS, DETAIL, its words after word 0, the slot since reset it was
ready in, and the number of a program command that it still waits for (R355, R358, R362, R374). -/
structure Resp where
  dst    : Nat
  op     : Nat
  tag    : Nat
  status : Nat
  detail : Nat
  words  : List W64
  ready  : Nat
  waits  : Option Nat := none
  deriving DecidableEq, Repr

/-- A command as received: source address and words (R356). -/
structure Cmd where
  src   : Nat
  words : List W64
  deriving DecidableEq, Repr

/-- A mailbox slot in use: the number of the command, the command and the slot since reset of its arrival (R362). -/
structure MailSlot where
  num  : Nat
  cmd  : Cmd
  slot : Nat
  deriving DecidableEq, Repr

/-- A lane as a command port: program commands that wait for a mailbox slot with their numbers, the next number, responses that
wait to leave in the order of their commands, the last 16 answered commands with their responses (newest first), the
notice subscriber, the mailbox (R353 to R362). -/
structure HostSt where
  waiting : List (Nat × Cmd) := []
  nextNum : Nat := 0
  resps   : List Resp := []
  store   : List (Cmd × Resp) := []
  sub     : Option Nat := none
  mail    : Sparse (Option MailSlot) := []
  deriving DecidableEq, Repr

/-- The management serial port: ERR, what the last transaction put on SP_SDO (R363 to R373). -/
structure SpSt where
  err : Bool := false
  out : List W64 := []
  status : Nat := 0
  deriving DecidableEq, Repr

/-- A sensor serial port: the descriptor of the transaction in progress, STOP written, the overrun of this sequence logged,
the receive ring with stamps, oldest first (R375 to R378). -/
structure SspSt where
  at_  : Option Nat := none
  stop : Bool := false
  ovr  : Bool := false
  ring : List (W64 × W64) := []
  deriving DecidableEq, Repr
/-- The sums of one half of a calibration interval: count, sum and sum of squares of the slice-corrected values u in
2^-62 (R408, R113). -/
structure CalSum where
  n  : Nat := 0
  s  : Int := 0
  s2 : Int := 0
  deriving DecidableEq, Repr

/-- A bank's calibration: the stage (0 idle, 1 spare phase, 2 channel), the ranges and positions still to
do (the present one first), the first slot of the present phase or channel as moved, the step of the channel (3 before its
start, 0 first overlap, 1 on the node, 2 second overlap), the extensions, the usable pairs (own, spare) of the overlap, the
interval in progress and the interval sums keyed 2 · interval + half, the former terms while the new ones are tried, whether the result is
refused, the positions completed, the channels that failed, the largest correction, the positions whose last result was
refused with CAL_RANGE and those with two such in a row, an abandonment asked for and the end of the substitution it leaves,
a wait for SETTLED, due again once the pass ends, the uptime slot of the last completed pass, a pass of Acclimatise still to
do, and no further pass until reset (R404 to R412, R435). -/
structure CalSt where
  stage    : Nat := 0
  ranges   : List Nat := []
  chans    : List Nat := []
  t0       : Nat := 0
  step     : Nat := 3
  ext      : Nat := 0
  overlap  : List (Int × Int) := []
  interval : Nat := 0
  sums     : Sparse CalSum := []
  oldHalves : Sparse HalfTerms := []
  oldScales : Sparse ScaleTerms := []
  refused  : Bool := false
  done     : List Nat := []
  failed   : Nat := 0
  moved    : Nat := 0
  rangeRef : Nat := 0
  rangeTwice : Nat := 0
  abandon  : Bool := false
  subEnd   : Option Nat := none
  restart  : Bool := false
  again    : Bool := false
  lastDone : Nat := 0
  acc      : Bool := false
  suspended : Bool := false
  deriving DecidableEq, Repr

/-- BANK_DATA of a bank: hold-half and scale terms, slice terms, the thirteen divider ratios, V_ref and TCAL (R414). -/
structure CalBank where
  bank   : Nat
  halves : Sparse HalfTerms
  scales : Sparse ScaleTerms
  slices : Sparse SliceTerms
  ratios : List Int
  vref   : Nat
  tcal   : Nat
  deriving DecidableEq, Repr

/-- A valid flash calibration bank: what its compaction wrote (the banks, FC_CAL and FC_CSKEW by fast channel, CAL_VINT,
CAL_EXTREF, CAL_ACCSLOT, whether it is an Acclimatise set) and the groups appended since, oldest first (R414, R415). -/
structure CalImage where
  banks  : List CalBank
  fast   : List (W64 × W64)
  vint   : Nat
  extref : Nat
  accSlot : Nat
  acc    : Bool
  seq    : Nat
  groups : List CalBank
  deriving DecidableEq, Repr

/-- The hub's calibration: the two flash banks, the groups that wait on die, a compaction that Acclimatise asks for, the
divider ratios in force by bank, in 2^-31 of the full scale of their level (empty: factory trim, the nominal levels), the sums of the standard check by bank (count, sum), the banks left
out of the present chain, HUB_OVERTEMP standing (R412 to R417, R488). -/
structure CalHub where
  flash   : Sparse (Option CalImage) := []
  waiting : List CalBank := []
  compact : Bool := false
  ratios  : Sparse (List Int) := []
  check   : Sparse (Nat × Int) := []
  deviant : List Nat := []
  hot     : Bool := false
  deriving DecidableEq, Repr
/-- A part of a piece as received: its number, the CRC it carries, its 128 words (R420). -/
structure UpdPart where
  part  : Nat
  crc   : Nat
  words : List W64
  deriving DecidableEq, Repr

/-- An assembly buffer: a piece of which not all parts are present (R421). -/
structure UpdAsm where
  index : Nat
  parts : List UpdPart
  deriving DecidableEq, Repr

/-- What a record of the copy journal says (R426). -/
inductive JournalKind where
  | copyBegin | blockDone | copyEnd | factory
  deriving DecidableEq, Repr

/-- A record of the copy journal (R426). -/
structure JournalRec where
  kind    : JournalKind
  block   : Nat
  image   : Nat
  version : Nat
  deriving DecidableEq, Repr

/-- Firmware update: the assembly buffers, oldest first; the complete pieces that wait for flash; the staging area and its bitmap by
word; the running region by word; the copy journal, newest first; the part words of UPD_PIECE_DATA by port; an
activation with its port, the engines whose programs are still to load, the engines that run from their shadow memory in a program slot
not committed yet, the program slot each logical engine switches at (0 none), the low half of the digest and the epoch of the base that
an activation brings; a reset into Bivouac (R418 to R432). The running region holds the factory image: the header alone, for every grade and revision, with
IMAGE and VERSION 0 (DESIGN CHOICE, log entry 28). -/
structure UpdSt where
  asm     : List UpdAsm := []
  ready   : List (Nat × List W64) := []
  stage   : Sparse W64 := []
  bmap    : Sparse W64 := []
  run     : Sparse W64 := [(0, 0x534B564900010000#64), (2, 0x0000020000000003#64)]
  journal : List JournalRec := [{ kind := .factory, block := 0, image := 0, version := 0 }]
  parts   : Sparse (List W64) := []
  act     : Option (Nat × Nat) := none
  loading : Bool := false
  switched : List Nat := []
  switches : Sparse Nat := []
  next    : Nat × Nat := (0, 0)
  recover : Bool := false
  deriving DecidableEq, Repr
/-- A record of the event log (R441). -/
structure EventRec where
  cls     : Nat
  level   : Nat
  code    : Nat
  unit    : Nat
  partner : Bool
  notify  : Bool
  cont    : Bool
  seq     : Nat
  slot    : W64
  d2      : W64
  d3      : W64
  deriving DecidableEq, Repr

/-- The event log and what hangs on it: the ring (newest first), the records that wait for flash, the persistent log
(newest first), the record latched by port, the notice frames that wait for each port's egress, the records not yet mirrored (R441 to R446). -/
structure EventSt where
  ring     : List EventRec := []
  nextSeq  : Nat := 0
  flashQ   : List EventRec := []
  flash    : List EventRec := []
  prec     : Sparse (List W64) := []
  notices  : Sparse (List EventRec) := []
  noticeSeq : Sparse Nat := []
  unmirrored : List EventRec := []
  deriving DecidableEq, Repr

/-- What the fault handling keeps: the slots of the uncorrectable bursts of the last 2^18 slots by DRAM channel, the checkpoint
items latched by port (R437, R459). -/
structure FaultSt where
  bursts : Sparse (List Nat) := []
  dbg    : Sparse (List W64) := []
  deriving DecidableEq, Repr

/-- Why the hub model stops with a fault. No command of the table stops on every path; each constructor says who raises
it. -/
inductive Fault where
  /-- Raised by no command today: kept for a bus address outside the 13-bit word space (safe). -/
  | noSuchAddress (addr : Nat)
  deriving DecidableEq, Repr

/-- Why the hub model refuses a command. -/
inductive Refusal where
  /-- Raised by the dispatcher for a command without a meaning (safe). -/
  | notModelled (mnemonic : String)
  deriving DecidableEq, Repr

/-- The state of the hub. `regs` lists the register words that differ from their reset value, `effOld` the RWS words whose
former value is still in force until the next slot boundary (R7, R453), `copies` the per-port copies of R455 keyed
8,192 · port + address with ports 0 to 4, 5 for programs and 6 for configuration records. -/
structure State where
  pending : List Instr := []
  regs    : Sparse W64 := []
  effOld  : Sparse (Option W64) := []
  copies  : Sparse W64 := []
  clk     : ClockSt := {}
  evt     : EventSt := {}
  engs    : Sparse EngSt := []
  arb     : ArbSt := {}
  sram    : List Host.Cell := []
  dram    : List Host.Cell := []
  poison  : List Nat := []
  sramBad : List Nat := []
  fresh   : Nat := 0
  mode    : ModeSt := {}
  cfg     : CfgSt := {}
  chans   : Sparse ChanSt := []
  banks   : Sparse BankSt := []
  flts    : Sparse FltSt := []
  coefs   : Sparse CoefSt := []
  fasts   : Sparse FastSt := []
  fabric  : FabricSt := {}
  cap     : CapSt := {}
  tiv     : TivSt := {}
  tbs     : Sparse TbSt := []
  pps     : PpsSt := {}
  sw      : SwitchSt := {}
  lanes   : Sparse LaneSt := []
  strm    : Sparse W64 := []
  strms   : Sparse StreamSt := []
  queues  : Sparse QueueSt := []
  qmem    : Sparse W64 := []
  led     : LedgerSt := {}
  peerSeq : Sparse (Option Nat) := []
  pair    : PairSt := {}
  hosts   : Sparse HostSt := []
  sp      : SpSt := {}
  ssps    : Sparse SspSt := []
  cals    : Sparse CalSt := []
  calh    : CalHub := {}
  upd     : UpdSt := {}
  ladder  : FaultSt := {}
  deriving DecidableEq, Repr

/-- The hub right after reset: no rail, clock or program has run. -/
def State.reset : State := {}

end Sys2Proof.Machine
end

