-- ==== Sys2Proof/Machine/Ops.lean ====
section
/-!
DEFINITION. Sys2Proof/Machine/Ops.lean: the named operations over the hub's state: registers and fields with their
access codes, byte memories, per-port copies, free values, and the event log with its notices.
-/
namespace Sys2Proof.Machine
open Sys2Proof

/-- The outcome of a command that runs to a next state. -/
abbrev Res := Host.Outcome State Fault Refusal

/-- The free value taken next; the counter moves on. Nothing constrains the value (log entry 2). -/
def State.free (s : State) : W64 × State := (Config.freeValue s.fresh, { s with fresh := s.fresh + 1 })

/-! ### Registers -/

/-- The word of a register as a read shows it before any view: written value or reset value. -/
def State.reg (s : State) (a : Nat) : W64 := s.regs.get Reg.resetValue a

/-- The state with a register word replaced. -/
def State.setReg (s : State) (a : Nat) (v : W64) : State := { s with regs := s.regs.set Reg.resetValue a v }

/-- The value of a register that is in force: for a word with an RWS write outstanding, the value before it (R7). -/
def State.eff (s : State) (a : Nat) : W64 := (s.effOld.get (fun _ => none) a).getD (s.reg a)

/-- The number in a field. -/
def State.getF (s : State) (f : Fld) : Nat := bits (s.reg f.addr) f.hi f.lo

/-- The number in a field as it is in force. -/
def State.effF (s : State) (f : Fld) : Nat := bits (s.eff f.addr) f.hi f.lo

/-- The state with a field replaced. -/
def State.setF (s : State) (f : Fld) (v : Nat) : State := s.setReg f.addr (setBits (s.reg f.addr) f.hi f.lo v)

/-- A one-bit field is 1. -/
def State.flag (s : State) (f : Fld) : Bool := s.getF f != 0

/-- A one-bit field in force is 1. -/
def State.effFlag (s : State) (f : Fld) : Bool := s.effF f != 0

/-- The greatest number of a field. -/
def Fld.max (f : Fld) : Nat := 2 ^ (f.hi + 1 - f.lo) - 1

/-- A counter field raised by n, saturating (R7, RC counters). -/
def State.addF (s : State) (f : Fld) (n : Nat) : State := s.setF f (capAt f.max (s.getF f + n))

/-- A counter field raised by 1, saturating. -/
def State.bump (s : State) (f : Fld) : State := s.addF f 1

/-- The field set to all ones of one bit: a status bit set. -/
def State.setFlag (s : State) (f : Fld) : State := s.setF f 1

/-- A status bit cleared. -/
def State.clrFlag (s : State) (f : Fld) : State := s.setF f 0

/-- A field read as two's complement. -/
def State.getS (s : State) (f : Fld) : Int := signed (f.hi + 1 - f.lo) (s.getF f)

/-- A field in force read as two's complement. -/
def State.effS (s : State) (f : Fld) : Int := signed (f.hi + 1 - f.lo) (s.effF f)

/-- A field written with a two's complement number. -/
def State.setS (s : State) (f : Fld) (i : Int) : State := s.setF f (unsigned (f.hi + 1 - f.lo) i)

/-- An RWS word written: reads show the new value, the former one stays in force until the next slot boundary (R453). -/
def State.setRws (s : State) (a : Nat) (v : W64) : State :=
  { s.setReg a v with effOld := s.effOld.set (fun _ => none) a (some (s.eff a)) }

/-- A word written so that the new value is in force at once. -/
def State.setNow (s : State) (a : Nat) (v : W64) : State :=
  { s.setReg a v with effOld := s.effOld.set (fun _ => none) a none }

/-- Every RWS write takes effect (slot boundary, R453). -/
def State.settleRws (s : State) : State := { s with effOld := [] }

/-! ### Per-port copies (R455) -/

/-- A port's copy of a register of R455: ports 0 to 4, 5 for programs, 6 for configuration records. -/
def State.copy (s : State) (port a : Nat) : W64 := s.copies.get (fun k => Reg.resetValue (k % 8192)) (8192 * port + a)

/-- A port's copy replaced. -/
def State.setCopy (s : State) (port a : Nat) (v : W64) : State :=
  { s with copies := s.copies.set (fun k => Reg.resetValue (k % 8192)) (8192 * port + a) v }

/-- The program copy's number (R455). -/
def progPort : Nat := 5
/-- The number of the copy for configuration and overlay records (R455). -/
def cfgPort : Nat := 6

/-- Every copy of configuration records back to its reset value (R50, R455). -/
def State.resetCfgCopies (s : State) : State :=
  { s with copies := s.copies.filter (fun c => c.1 / 8192 != cfgPort) }

/-! ### Byte memories -/

/-- What an unlisted byte of a memory reads as: 0 (DESIGN CHOICE, log entry 3). -/
def memDefault (_ : Nat) : Byte := 0

/-- The canonical form of a memory. -/
def Memory.wf (m : List Host.Cell) : Bool := Sparse.wf memDefault m

/-- One byte of a memory. -/
def Memory.get (m : List Host.Cell) (a : Nat) : Byte := Sparse.get memDefault m a

/-- One byte of a memory written. -/
def Memory.set (m : List Host.Cell) (a : Nat) (v : Byte) : List Host.Cell := Sparse.set memDefault m a v

/-- n bytes from an address up. -/
def Memory.bytes (m : List Host.Cell) (a n : Nat) : List Byte := (List.range n).map (fun i => Memory.get m (a + i))

/-- The number whose n bytes stand from an address up, most significant first (DEDUCED from R4 and R222,
log entry 4). -/
def Memory.read (m : List Host.Cell) (a n : Nat) : Nat := ofLeBytes (Memory.bytes m a n).reverse

/-- Bytes stored from an address up. -/
def Memory.setBytes (m : List Host.Cell) (a : Nat) : List Byte → List Host.Cell
  | [] => m
  | b :: r => Memory.setBytes (Memory.set m a b) (a + 1) r

/-- The n low bytes of a number stored from an address up, most significant first. -/
def Memory.write (m : List Host.Cell) (a n v : Nat) : List Host.Cell := Memory.setBytes m a (beBytes n v)

/-- The 64-bit word at an address. -/
def Memory.word (m : List Host.Cell) (a : Nat) : W64 := BitVec.ofNat 64 (Memory.read m a 8)

/-- A 64-bit word stored. -/
def Memory.setWord (m : List Host.Cell) (a : Nat) (v : W64) : List Host.Cell := Memory.write m a 8 v.toNat

/-- 64-bit words stored from an address up. -/
def Memory.setWords (m : List Host.Cell) (a : Nat) : List W64 → List Host.Cell
  | [] => m
  | v :: r => Memory.setWords (Memory.setWord m a v) (a + 8) r

/-! ### The event log (R441 to R446) -/

/-- Where the notice of a record goes (R446): every port whose mask takes the class, the port of one lane whatever the
mask, the port of a refused write, or no port. -/
inductive Dest where
  | all
  | lane (l : Nat)
  | refusal (port : Nat)
  | nobody
  deriving DecidableEq, Repr

/-- The slot a record is stamped with: 0 before the initial set (R441). -/
def State.logSlot (s : State) : W64 :=
  if s.getF (Reg.TB_STAT_STATE (s.getF Reg.TIME_CFG_SAMPLE_TB)) = 0 then 0 else BitVec.ofNat 64 s.clk.slot

/-- NMASK enables a class, or the record carries NOTIFY. -/
def State.noticeOn (s : State) (r : EventRec) : Bool :=
  r.notify || (s.getF Reg.EVT_CFG_NMASK).testBit r.cls

/-- The lanes of a list that have a notice subscriber (R358). -/
def State.subscribed (s : State) (ls : List Nat) : List Nat := ls.filter (fun l => (s.hosts.get (fun _ => {}) l).sub.isSome)

/-- The lanes whose subscriber a record goes to (R446). -/
def State.noticeLanes (s : State) (d : Dest) (r : EventRec) : List Nat :=
  s.subscribed (match d with
  | .all => if s.noticeOn r then [0, 1, 2, 3] else []
  | .lane l => [l]
  | .refusal p =>
    if p < 4 then (if s.noticeOn r then [p] else [])
    else if p = 4 then [] else if s.noticeOn r then [0, 1, 2, 3] else []
  | .nobody => [])

/-- A record put in the notice queue of a lane's port, which holds 64; beyond that it is dropped and counted (R446). -/
def State.noticeTo (s : State) (r : EventRec) (l : Nat) : State :=
  let q := s.evt.notices.get (fun _ => []) l
  if q.length < 64 then
    { s with evt := { s.evt with notices := s.evt.notices.set (fun _ => []) l (q ++ [r]) } }
  else s.bump Reg.EVT_CNT_NDROP

/-- A record of CLASS 2 or higher waits for the persistent log; beyond 1,024 waiting it is counted as lost (R443). -/
def State.toFlashQ (s : State) (r : EventRec) : State :=
  if r.cls < 2 then s
  else if s.evt.flashQ.length < 1024 then { s with evt := { s.evt with flashQ := s.evt.flashQ ++ [r] } }
  else s.bump Reg.EVT_CNT_PERSIST_LOST

/-- One record put in the ring under the next SEQ, with its PEND and NHOLD bits, its notices and its copy for flash and
for the partner (R441, R443 to R446). -/
def State.appendRec (s : State) (d : Dest) (r0 : EventRec) : State :=
  let r := { r0 with seq := s.evt.nextSeq }
  let s1 := { s with evt := { s.evt with
    ring := (r :: s.evt.ring).take 1024
    nextSeq := (s.evt.nextSeq + 1) % 2 ^ 28
    unmirrored := if r.partner then s.evt.unmirrored else (s.evt.unmirrored ++ [r]).drop (s.evt.unmirrored.length + 1 - 1024) } }
  let s2 := s1.setF Reg.EVT_INT_PEND (withBit (s1.getF Reg.EVT_INT_PEND) r.cls true)
  let s3 := if r.notify then s2.setF Reg.EVT_INT_NHOLD (withBit (s2.getF Reg.EVT_INT_NHOLD) r.cls true) else s2
  let s4 := s3.toFlashQ r
  (s4.noticeLanes d r).foldl (fun t l => t.noticeTo r l) s4

/-- The records of the detail items beyond two: CONT records with two items each (R441). -/
def State.appendCont (s : State) (d : Dest) (r : EventRec) : List W64 → State
  | [] => s
  | [a] => s.appendRec d { r with cont := true, d2 := a, d3 := 0 }
  | a :: b :: rest => (s.appendRec d { r with cont := true, d2 := a, d3 := b }).appendCont d r rest

/-- A UNIT index, 0 where it does not fit 9 bits (R441). -/
def unitIx (u : Nat) : Nat := if u < 512 then u else 0

/-- A hub condition logged with its unit and its detail items (R441, R442); it counts once in EVT_CNT.FAULTS or ESCAL. -/
def State.logTo (s : State) (d : Dest) (c : Cond) (unit : Nat) (items : List W64) : State :=
  let r : EventRec :=
    { cls := c.rank.1, level := c.rank.2, code := c.code, unit := unitIx unit, partner := false, notify := false,
      cont := false, seq := 0, slot := s.logSlot, d2 := items.getD 0 0, d3 := items.getD 1 0 }
  let s1 := if c.rank.1 = 3 then s.bump Reg.EVT_CNT_FAULTS else if c.rank.1 = 4 then s.bump Reg.EVT_CNT_ESCAL else s
  (s1.appendRec d r).appendCont d r (items.drop 2)

/-- A record of the hub that the manual names without a condition, with its detail items from word 2 on: its CODE is a free value (log
entries 22, 29 and 44). -/
def State.logUncoded (s : State) (unit : Nat) (items : List W64) : State :=
  let (f, s1) := s.free
  let r : EventRec :=
    { cls := 1, level := 0, code := 0x8000 + f.toNat % 2 ^ 15, unit := unit, partner := false, notify := false, cont := false, seq := 0
      slot := s1.logSlot, d2 := items.getD 0 0, d3 := items.getD 1 0 }
  (s1.appendRec .all r).appendCont .all r (items.drop 2)

/-- A hub condition logged to every port whose mask takes its class. -/
def State.log (s : State) (c : Cond) (unit : Nat) (items : List W64) : State := s.logTo .all c unit items

/-- A hub condition that concerns a queue, a stream or a lane: its record goes to the subscriber of that lane's port only, whatever
NMASK says (R446). -/
def State.logLane (s : State) (l : Nat) (c : Cond) (unit : Nat) (items : List W64) : State := s.logTo (.lane l) c unit items

/-- A refusal logged: detail word 2 the refused word address or OP, word 3 the port (R461). -/
def State.logRefusal (s : State) (c : Cond) (unit : Nat) (what port : Nat) : State :=
  s.logTo (.refusal port) c unit [BitVec.ofNat 64 what, BitVec.ofNat 64 port]

/-- INT_N is asserted while PEND holds a bit that IMASK enables or NHOLD holds (R445). -/
def State.intN (s : State) : Bool :=
  (s.getF Reg.EVT_INT_PEND &&& (s.getF Reg.EVT_CFG_IMASK ||| s.getF Reg.EVT_INT_NHOLD)) != 0

/-- Word w of a record (R441). -/
def EventRec.word (r : EventRec) (w : Nat) : W64 :=
  if w = 0 then
    BitVec.ofNat 64 (r.cls <<< 60 + r.level <<< 56 + r.code <<< 40 + r.unit <<< 31 + b2n r.partner <<< 30
      + b2n r.notify <<< 29 + b2n r.cont <<< 28 + r.seq)
  else if w = 1 then r.slot else if w = 2 then r.d2 else r.d3

/-- The record of the ring with a SEQ, if it still stands there. -/
def State.recordAt (s : State) (seq : Nat) : Option EventRec := s.evt.ring.find? (fun r => r.seq == seq)

/-! ### Modes -/

/-- SYS_MODE.CUR. -/
def State.cur (s : State) : Nat := s.getF Reg.SYS_MODE_CUR
/-- SYS_MODE.PRIOR. -/
def State.prior (s : State) : Nat := s.getF Reg.SYS_MODE_PRIOR
/-- The acquiring modes of R30. -/
def acquiringMode (m : Nat) : Bool := decide (2 ≤ m ∧ m ≤ 6)
/-- The hub is in an acquiring mode. -/
def State.acquiring (s : State) : Bool := acquiringMode s.cur
/-- The real slot r. -/
def State.now (s : State) : Nat := s.clk.slot
/-- The time since reset in slots of 12,800 root ticks. -/
def State.upSlots (s : State) : Nat := s.clk.uptime / 12800

/-- The instant in slots and root ticks since reset: 12,800 ticks for each slot boundary passed and those of the slot in progress. -/
def State.slotTicks (s : State) : Nat := s.clk.edges * 12800 + s.clk.tick
/-- 64 slots in root ticks (R287). -/
def heldTicks : Nat := 64 * 12800
/-- The hub is in Summit, or in Traverse with PRIOR Summit (R40). -/
def State.summitLike (s : State) : Bool := s.cur == 4 || (s.cur == 6 && s.prior == 4)

/-- The mode that holds in slot t: the target of the pending transition from its named slot on, else the present one. -/
def State.modeAt (s : State) (t : Nat) : Nat :=
  match s.mode.pendAt with
  | some p => if s.flag Reg.SYS_MODE_PENDV && decide (p ≤ t) then s.getF Reg.SYS_MODE_PEND else s.cur
  | none => s.cur

/-- A transition is due that has not taken effect yet. -/
def State.modeDue (s : State) : Bool :=
  s.flag Reg.SYS_MODE_PENDV && (match s.mode.pendAt with
    | some p => decide (p ≤ s.now)
    | none => false)

/-- An overlay activation is due that has not taken effect yet. -/
def State.overlayDue (s : State) : Bool :=
  s.flag Reg.CFG_STATUS_PENDV && (match s.cfg.pendAt with
    | some p => decide (p ≤ s.now)
    | none => false)

/-- The hub acquires in slot t. -/
def State.acquiringAt (s : State) (t : Nat) : Bool := acquiringMode (s.modeAt t)

/-- Excitation is on in the present mode: Acclimatise, Ascent, Summit, and Traverse as its prior mode (R31). -/
def State.exciting (s : State) : Bool :=
  let m := if s.cur = 6 then s.prior else s.cur
  m == 2 || m == 3 || m == 4

/-- The number of the sampling time base, TIME_CFG.SAMPLE_TB. -/
def State.sampTb (s : State) : Nat := s.getF Reg.TIME_CFG_SAMPLE_TB

/-- A time base counts as locked: LOCKED, or FREERUN with TB_CFG.FREE_LOCKED (R252). -/
def State.tbLocked (s : State) (t : Nat) : Bool :=
  let st := s.getF (Reg.TB_STAT_STATE t)
  st == 3 || (st == 1 && s.flag (Reg.TB_CFG_FREE_LOCKED t))

/-- The sampling time base counts as locked (R252). -/
def State.sampLocked (s : State) : Bool := s.tbLocked s.sampTb

/-- Some time base is in LOCKED; where none is, the hub is standalone (R133, R251). -/
def State.anyLocked (s : State) : Bool := [0, 1, 2, 3].any (fun t => s.getF (Reg.TB_STAT_STATE t) == 3)

/-- The sampling time base counted as locked at the hold instant of slot m; before the first hold strobe recorded it did
not (R252). -/
def State.lockedAt (s : State) (m : Nat) : Bool :=
  match s.fabric.locks.find? (fun e => decide (e.1 ≤ m)) with
  | some e => e.2
  | none => false

/-- The hub was in an acquiring mode in slot n (R39). -/
def State.acquired (s : State) (n : Nat) : Bool :=
  s.mode.spans.any (fun p => decide (p.1 ≤ n) && (match p.2 with
    | some l => decide (n < l)
    | none => true))

/-- Front end, converters and fabric run in slot n: from the entry slot to the end of slot s + 3 after a stop at s, and
not in Descent (R36, R37, R32). -/
def State.heldAt (s : State) (n : Nat) : Bool :=
  s.mode.spans.any (fun p => decide (p.1 ≤ n) && (match p.2 with
    | some l => decide (n < l + 4)
    | none => true)) &&
  (s.cur != 7 || decide (n < (s.reg Reg.SYS_MODE_SLOT).toNat))

/-- What a write of a register word meets: the port it comes from (R461), the slot its rules are judged for (the present
one, or the slot an overlay record is named for, R55), the slot of the request, and whether a leading slot is judged. -/
structure WCtx where
  port  : Nat
  slot  : Nat
  asked : Nat
  deriving DecidableEq, Repr

/-- A word is the record of a configuration or an overlay. -/
def WCtx.isCfg (w : WCtx) : Bool := w.port == cfgPort

/-- The context of a write that a port makes now. -/
def State.wctx (s : State) (port : Nat) : WCtx := { port := port, slot := s.now, asked := s.now }

/-- The hub acts as in Belay: in Belay, or in Traverse with PRIOR Belay, where a Second goes on listening (R31, R433; DEDUCED, log
entry 46). -/
def State.belay (s : State) : Bool := s.cur == 5 || (s.cur == 6 && s.prior == 5)

/-- A hub in Belay refuses the writes of a port to what the mirror supplies; records of its own configuration stand (R384). -/
def State.mirrored (s : State) (port : Nat) : Bool := s.belay && port != cfgPort

/-- The authority class of a port: SYS_AUTH's class, operator for a program, owner for configuration records
(R154, R347, R349). -/
def State.classOf (s : State) (port : Nat) : Nat :=
  if port = 0 then s.getF Reg.SYS_AUTH_L0 else if port = 1 then s.getF Reg.SYS_AUTH_L1
  else if port = 2 then s.getF Reg.SYS_AUTH_L2 else if port = 3 then s.getF Reg.SYS_AUTH_L3
  else if port = 4 then s.getF Reg.SYS_AUTH_SP else if port = 5 then 1 else 2

/-! ### What a port may do in the present phase and mode (R32, R352, R428) -/

/-- The host service runs (R43, R352). -/
def State.serviceRuns (s : State) : Bool := s.mode.phase == .running

/-- A read touches only blocks that are served whatever the phase: SYS, in Bivouac SYS and UPD (R352, R373, R428). -/
def State.openWord (s : State) (a : Nat) : Bool := blockOf a == 0 || (s.cur == 0 && blockOf a == 13)

/-- A port is answered: with no valid configuration, once the start-up has ended in Basecamp, only the management serial port and L0, whose
roles the AUTH straps give, are (R44, R349). -/
def State.answers (s : State) (port : Nat) : Bool :=
  s.cur == 0 || !s.serviceRuns || s.flag Reg.CFG_STATUS_LOADED || port == 0 || decide (4 ≤ port)

/-- A word that a port may read: once the host service runs every word, before it SYS, in Bivouac SYS and UPD (R352, R428). -/
def State.portReads (s : State) (port a : Nat) : Bool := s.answers port && (s.serviceRuns || s.openWord a)

/-- A word that a port may write: once the host service runs, in Descent with maintenance class, in Bivouac a UPD word with maintenance
class (R32, R352, R428). -/
def State.portOpen (s : State) (port a : Nat) : Bool :=
  if s.cur = 0 then blockOf a == 13 && decide (3 ≤ s.classOf port)
  else s.serviceRuns && s.answers port && (s.cur != 7 || decide (3 ≤ s.classOf port))

/-- What a write by a port answers where the port may write the word; else it is answered MODE and nothing changes (R32, R352, R428). -/
def State.whenOpen (s : State) (port a : Nat) (r : Res) : Res := if s.portOpen port a then r else .next s

/-- What a read of a word does where it may be read; else it is answered MODE and nothing changes (R352, R428). -/
def State.whenReads (s : State) (port a : Nat) (r : Res) : Res := if s.portReads port a then r else .next s

/-- A word of engine bulk memory written, by its index; that mends its failing check (R21; log entry 30). -/
def State.setDramWord (s : State) (w : Nat) (v : W64) : State :=
  { s with dram := Memory.setWord s.dram (8 * w) v, poison := s.poison.filter (fun x => x != w) }

/-- What a write ends in: applied, or refused under a condition. -/
abbrev WriteRes := State × Option Cond

/-- A refused write: logged with the address and the port, nothing else changed (R461). -/
def State.refuse (s : State) (c : Cond) (unit addr port : Nat) : WriteRes := (s.logRefusal c unit addr port, some c)

/-- The first condition of a list of tests that fails. -/
def firstFail : List (Bool × Cond) → Option Cond
  | [] => none
  | (ok, c) :: r => if ok then firstFail r else some c

end Sys2Proof.Machine
end

