-- ==== Sys2Proof/Machine/EngBase.lean ====
section
/-!
DEFINITION. Sys2Proof/Machine/EngBase.lean: the Koloux engines' registers, checkpoints, undo log and commit buffer, and the
squash as one shared operation (R160 to R175).
-/
namespace Sys2Proof.Machine
open Sys2Proof

/-- A physical engine. -/
def State.eng (s : State) (e : Nat) : EngSt := s.engs.get (fun _ => {}) e

/-- A physical engine replaced. -/
def State.setEng (s : State) (e : Nat) (en : EngSt) : State := { s with engs := s.engs.set (fun _ => {}) e en }

/-- The physical engine that does logical engine l's work (R177). -/
def State.host (s : State) (l : Nat) : Nat := s.getF (Reg.ENG_MAP_HOST l)

/-- The logical engine whose work physical engine e does; e itself where no map entry names it (R177). -/
def State.logical (s : State) (e : Nat) : Nat :=
  (((List.range 16).filter (fun l => s.host l == e)).head?).getD e

/-- ENG_CTL.ROLE of a logical engine: 0 off, 1 active, 2 spare (R155). -/
def State.role (s : State) (l : Nat) : Nat := s.getF (Reg.ENG_CTL_ROLE l)

/-- The active logical engines. -/
def State.activeEngines (s : State) : List Nat := (List.range 16).filter (fun l => s.role l == 1)

/-- Register w_r; w0 reads 0 (R180). -/
def EngSt.rw (en : EngSt) (r : Nat) : W64 := if r = 0 then 0 else en.w.get (fun _ => 0) r

/-- Register w_r written; a write of w0 is discarded (R180). -/
def EngSt.setW (en : EngSt) (r : Nat) (v : W64) : EngSt :=
  if r = 0 then en else { en with w := en.w.set (fun _ => 0) r v }

/-- Predicate p_k; p0 reads 1 (R180). -/
def EngSt.rp (en : EngSt) (k : Nat) : Bool := k == 0 || en.p.testBit k

/-- Predicate p_k written; a write of p0 is discarded (R180). -/
def EngSt.setP (en : EngSt) (k : Nat) (b : Bool) : EngSt := if k = 0 then en else { en with p := withBit en.p k b }

/-- Accumulator a_k. -/
def EngSt.ra (en : EngSt) (k : Nat) : BitVec 128 := en.a.get (fun _ => 0) k

/-- Accumulator a_k written. -/
def EngSt.setA (en : EngSt) (k : Nat) (v : BitVec 128) : EngSt := { en with a := en.a.set (fun _ => 0) k v }

/-- The guard of an instruction holds: p[PG] XOR PN (R185). -/
def EngSt.guardOk (en : EngSt) (g : Guard) : Bool := en.rp g.pg.val ^^ g.pn

/-- The oldest uncommitted program slot; SLOT where none is uncommitted (R182). -/
def EngSt.oldest (en : EngSt) : Nat := (minList (en.ckpts.map (fun c => c.slot))).getD en.slot

/-- The special CKPT (R182). -/
def EngSt.ckptWord (en : EngSt) : W64 := BitVec.ofNat 64 (en.ckpts.length <<< 60 + en.oldest % 2 ^ 60)

/-- The engine's state as a checkpoint of a program slot whose first instruction is at pc (R160). -/
def EngSt.snapshot (en : EngSt) (slot pc : Nat) : Checkpoint := { slot := slot, w := en.w, p := en.p, a := en.a, pc := pc }

/-- An engine at program entry: index 0, registers and local data memory zero, one checkpoint (R160, R181). -/
def EngSt.enter (en : EngSt) (slot : Nat) : EngSt :=
  { imem := en.imem, shadow := en.shadow, slot := slot, running := true, lastCommit := slot, used := en.used,
    ckpts := [{ slot := slot, w := [], p := 1, a := [], pc := 0 }] }

/-- The old words of undo-log entries written back, newest first (R169). The newest entry stands first. -/
def undoBack (m : List Host.Cell) (u : List UndoItem) : List Host.Cell :=
  u.foldl (fun m i => Memory.setWord m i.addr i.old) m

/-- ECAUSE of a cause (R183). -/
def ecauseWord (cause code detail slot : Nat) : W64 :=
  BitVec.ofNat 64 (cause <<< 60 + code <<< 48 + detail <<< 32 + slot % 2 ^ 32)

/-- A squash with return slot q: the undo entries of slots q and later are written back, their commit-buffer entries
removed, their loads of window data words forgotten and their checkpoints freed but checkpoint q, which is restored; ECAUSE and the squash indication are
written; execution resumes at pc, or at the checkpoint's PC (R169). An engine that holds no checkpoint q keeps its
program slots. -/
def EngSt.squash (en : EngSt) (q : Nat) (pc : Option Nat) (cause : W64) : EngSt :=
  match en.ckpts.find? (fun c => c.slot == q) with
  | none => en
  | some c =>
    { en with
      lmem := undoBack en.lmem (en.undo.filter (fun u => decide (q ≤ u.slot)))
      undo := en.undo.filter (fun u => decide (u.slot < q))
      cb := en.cb.filter (fun i => decide (i.slot < q)), reads := en.reads.filter (fun x => decide (x.1 < q))
      ckpts := en.ckpts.filter (fun k => decide (k.slot ≤ q))
      w := c.w, p := c.p, a := c.a, slot := q, pc := pc.getD c.pc, ecause := cause, sq := true, exc := none,
      vecSlot := (match en.vecSlot with
        | some v => if q ≤ v then none else some v
        | none => none)
      snapArmed := false, snap := [] }

/-- The place in the order of arrival of a cause addressed to a logical engine's work while a takeover holds it; 0 where none does
(R177). -/
def State.arrival (s : State) (l : Nat) (en : EngSt) : Nat :=
  if s.arb.takeovers.any (fun k => k.eng == l) then 1 + en.held.length + en.redirs.length else 0

/-- A squash cause of a mode change named for slot m, addressed to every active engine that may hold uncommitted program slots
from m on; SQUASH carries it out (R168, R173). -/
def State.squashMode (s : State) (m : Nat) : State :=
  s.activeEngines.foldl (fun t l =>
    let e := t.host l
    let en := t.eng e
    if en.running then t.setEng e { en with held := en.held ++ [{ kind := 3, code := 0, detail := 0, slot := m }] } else t) s

/-- A redirect of a trigger unit (code u) or an alarm (code 16 + a) named for a slot, raised for every engine whose ENG_REDIR
names the source (R172, R183). -/
def State.raiseRedirect (s : State) (code slot : Nat) : State :=
  (List.range 16).foldl (fun t l =>
    let named := if code < 8 then (t.effF (Reg.ENG_REDIR_TRG l)).testBit code else (t.effF (Reg.ENG_REDIR_ALARM l)).testBit (code - 16)
    let e := t.host l
    let en := t.eng e
    if named && (en.running || t.arb.takeovers.any (fun k => k.eng == l)) then
      t.setEng e { en with redirs := en.redirs ++ [{ kind := 2, code := code, detail := 0, slot := slot, arr := t.arrival l en }] }
    else t) s

/-- A stopped engine: it issues nothing and its uncommitted work is discarded; checkpoint q stays for a takeover (R32, R170, R176). -/
def EngSt.halt (en : EngSt) : EngSt :=
  { (en.squash en.oldest none en.ecause) with running := false, exc := none, sq := en.sq }

/-- Every engine stopped and its uncommitted work discarded (R32, R173). -/
def State.stopEngines (s : State) : State :=
  (List.range 16).foldl (fun t e => if (t.eng e).running then t.setEng e (t.eng e).halt else t) s

/-- Takeovers that have not ended are given up (R32, R173). -/
def State.dropTakeovers (s : State) : State := { s with arb := { s.arb with takeovers := [] } }

end Sys2Proof.Machine
end

