-- ==== Sys2Proof/Machine/ModeOps.lean ====
section
/-!
DEFINITION. Sys2Proof/Machine/ModeOps.lean: pending transitions with the overlay activations that come with them, their
cancelling, and the escalation of a fault to hub level (R32 to R41, R57, R438, R501).
-/
namespace Sys2Proof.Machine
open Sys2Proof

/-! ### Automatic overlay activations (R57) -/

/-- The overlay bound to a mode, if one is. -/
def State.boundTo (s : State) (m : Nat) : Option Nat := (s.cfg.ovls.find? (fun o => o.bind == m)).map (fun o => o.id)

/-- The overlay that a change from the present mode to another asks for: the one bound to the new mode, or deactivation (15) of an
active one bound to the mode left (R57). -/
def State.autoOverlay (s : State) (target : Nat) : Option Nat :=
  let act := s.getF Reg.CFG_STATUS_OVL_ACT
  match s.boundTo target with
  | some k => if k = act then none else some k
  | none => if act != 15 && s.boundTo s.cur == some act then some 15 else none

/-- An activation made pending: overlay, slot (none while its transition waits for the initial set) and port (R55). -/
def State.pendOverlay (s : State) (ovl : Nat) (at_ : Option Nat) (port : Nat) (auto : Bool) : State :=
  let s1 := (s.setF Reg.CFG_STATUS_PENDV 1).setF Reg.CFG_STATUS_OVL_PEND ovl
  { s1 with cfg := { s1.cfg with pendAt := at_, pendPort := port, auto := auto } }

/-- The pending activation withdrawn. -/
def State.dropOverlay (s : State) : State :=
  let s1 := (s.setF Reg.CFG_STATUS_PENDV 0).setF Reg.CFG_STATUS_OVL_PEND 15
  { s1 with cfg := { s1.cfg with pendAt := none, auto := false } }

/-- The automatic activation that a transition to a mode asks for becomes the pending one, if it asks for any. -/
def State.pendAuto (s : State) (target : Nat) (at_ : Option Nat) : State :=
  match s.autoOverlay target with
  | some k => s.pendOverlay k at_ 7 true
  | none => s

/-- A pending explicit activation withdrawn for an automatic one, with its port and its slot (R57). -/
def State.cancelOverlay (s : State) : State :=
  s.dropOverlay.log .CFG_OVL_CANCELLED 0 [BitVec.ofNat 64 s.cfg.pendPort, BitVec.ofNat 64 (s.cfg.pendAt.getD 0)]

/-- The automatic activation of a transition to a mode at a slot (none while it waits for the initial set) is scheduled: an explicit one
named earlier stands until its slot, one named for that slot or later is cancelled (R57). The manual gives the two cases for
a mode with a bound overlay; a mode without one that is entered from a mode whose bound overlay is active is treated
alike (DESIGN CHOICE, log entry 49). -/
def State.scheduleAuto (s : State) (target : Nat) (at_ : Option Nat) : State :=
  if s.flag Reg.CFG_STATUS_PENDV then
    let earlier := match s.cfg.pendAt, at_ with
      | some e, some t => decide (e < t)
      | some _, none => true
      | none, _ => false
    if earlier then { s with cfg := { s.cfg with autoNext := true } }
    else if (s.boundTo target).isSome || (s.autoOverlay target).isSome then s.cancelOverlay.pendAuto target at_
    else s
  else s.pendAuto target at_

/-- The automatic activation of a transition that no longer stands is withdrawn. -/
def State.dropAuto (s : State) : State :=
  let s1 : State := { s with cfg := { s.cfg with autoNext := false } }
  if s1.cfg.auto then s1.dropOverlay else s1

/-! ### Transitions (R33, R34) -/

/-- A transition becomes pending: its target, its slot (none while it waits for the initial set), the port that asked (7 for the
hub) and the cause it will have (R33). -/
def State.pendMode (s : State) (target : Nat) (at_ : Option Nat) (port cause : Nat) : State :=
  let s1 := (s.setF Reg.SYS_MODE_PENDV 1).setF Reg.SYS_MODE_PEND target
  let s2 : State := { s1 with mode := { s1.mode with pendAt := at_, pendPort := port, pendCause := cause } }
  s2.scheduleAuto target at_

/-- An update activation that no longer stands is withdrawn; engines that switched stay switched (R41, R429, R433). -/
def State.dropActivation (s : State) : State :=
  if s.upd.act.isSome then
    let s1 := (s.setF Reg.UPD_STAT_TPEND 0).setF Reg.UPD_STAT_SHADOW 0
    { s1 with upd := { s1.upd with act := none, loading := false, switches := [] } }
  else s

/-- The pending transition is cancelled: logged with its slot, squashed from that slot on, its automatic activation withdrawn and, for
Traverse, the update activation with it (R33, R41, R173, R430). -/
def State.cancelMode (s : State) : State :=
  if s.flag Reg.SYS_MODE_PENDV then
    let at_ := s.mode.pendAt
    let s0 := if s.getF Reg.SYS_MODE_PEND = 6 then s.dropActivation else s
    let s1 := (s0.setF Reg.SYS_MODE_PENDV 0).dropAuto
    let s2 : State := { s1 with mode := { s1.mode with pendAt := none } }
    let s3 := s2.log .SYS_MODE_CANCELLED 0 [BitVec.ofNat 64 (at_.getD 0)]
    match at_ with
    | some t => s3.squashMode t
    | none => s3
  else s

/-- SYS_MODE takes a new mode from a slot on, with its cause; the transition is logged with its slot and cause (R34, R39). -/
def State.setMode (s : State) (m slot cause : Nat) : State :=
  let s1 := ((s.setF Reg.SYS_MODE_CUR m).setF Reg.SYS_MODE_CAUSE cause).setReg Reg.SYS_MODE_SLOT (BitVec.ofNat 64 slot)
  s1.log .SYS_MODE_CHANGE 0 [BitVec.ofNat 64 slot, BitVec.ofNat 64 cause]

/-! ### Escalation to hub level (R438, R501) -/

/-- A pending transition is the hub's own entry into Descent (R501). -/
def State.falling (s : State) : Bool :=
  s.flag Reg.SYS_MODE_PENDV && s.getF Reg.SYS_MODE_PEND == 7 && s.mode.pendCause == 5

/-- A fault escalates to hub level: HUB_ESCALATED with its code and unit, any pending transition cancelled, and the entry into Descent
at the next slot boundary, or at once with slot 0 while the sampling time base is unset. A hub in Descent, in Bivouac or
on its way into Descent absorbs the fault (R438, R440, R501). -/
def State.escalate (s : State) (c : Cond) (unit : Nat) : State :=
  if s.cur = 7 ∨ s.cur = 0 ∨ s.falling = true then s
  else
    let s1 := (s.log .HUB_ESCALATED 0 [BitVec.ofNat 64 c.code, BitVec.ofNat 64 unit]).cancelMode
    let s2 : State := { s1 with pair := { s1.pair with fault := true } }
    if s2.getF (Reg.TB_STAT_STATE s2.sampTb) = 0 then ((s2.scheduleAuto 7 (some s2.now)).stopEngines.dropTakeovers.setMode 7 0 5)
    else s2.pendMode 7 (some (s2.now + 1)) 7 5

end Sys2Proof.Machine
end

