-- ==== Sys2Proof/Machine/EngOps.lean ====
section
/-!
DEFINITION. Sys2Proof/Machine/EngOps.lean: how an engine issues one Koloux instruction: guard, exceptions, stalls and the
advance of the PC (R156, R185, R210); engine faults (R176, R178).
-/
namespace Sys2Proof.Machine
open Sys2Proof

/-- The exception codes of R210. -/
inductive Exc where
  | illegal | addrRange | align | hubregScope | hubregSize | loadPoison | undoOvf | cbOvf | branchRange | fetchChan
  | convsetBank | convsetTarget | emitQueue | emitRegs | emitChan | eventCode | tbreadSel | tbreadReg
  deriving DecidableEq, Repr

/-- The code of an exception (R210). -/
def Exc.code : Exc → Nat
  | .illegal => 0x01 | .addrRange => 0x02 | .align => 0x03 | .hubregScope => 0x04 | .hubregSize => 0x05
  | .loadPoison => 0x06 | .undoOvf => 0x07 | .cbOvf => 0x08 | .branchRange => 0x09 | .fetchChan => 0x0A
  | .convsetBank => 0x0B | .convsetTarget => 0x0C | .emitQueue => 0x0D | .emitRegs => 0x0E | .emitChan => 0x0F
  | .eventCode => 0x10 | .tbreadSel => 0x11 | .tbreadReg => 0x12

/-- The physical engines that are free spares: role spare, not in use and not faulted (R176). -/
def State.freeSpares (s : State) : List Nat :=
  (List.range 16).filter (fun e => s.role e == 2 && !(s.eng e).used && !s.flag (Reg.ENG_STAT_FAULTED e))

/-- The takeovers that have not chosen their spare yet. -/
def State.openTakeovers (s : State) : List Takeover := s.arb.takeovers.filter (fun t => t.spare.isNone)

/-- The work of a logical engine has faulted on a spare within the last 1,024 slots (R178; DEDUCED, log entry 40). -/
def State.faultedOnSpare (s : State) (l : Nat) : Bool :=
  match (s.arb.lastTake.get (fun _ => 0) l) with
  | 0 => false
  | t => decide (s.now ≤ t - 1 + 1024)

/-- A logical engine that returns to a program slot before the one it switched at runs from its old instruction memory again (R431). -/
def State.unswitch (s : State) (l q : Nat) : State :=
  if q < s.upd.switches.get (fun _ => 0) l then
    { s with upd := { s.upd with switched := s.upd.switched.filter (fun k => k != l) } }
  else s

/-- An engine faults: it stops at once, its uncommitted program slots are squashed and their undo entries written back,
groups already accepted stand, the condition is logged, and its work waits for a spare at the next slot. Where the
work already faulted on a spare within 1,024 slots, or every spare is in use, the fault escalates to hub level
(R176, R178, R438, R440). -/
def State.engFault (s : State) (e : Nat) (c : Cond) : State :=
  let l := s.logical e
  let en := s.eng e
  let q := en.oldest
  let s0 := ((s.setEng e en.halt).unswitch l q).setF (Reg.ENG_STAT_FAULTED e) 1
  let s1 := (if e = l then s0 else { s0 with arb := { s0.arb with lastTake := s0.arb.lastTake.set (fun _ => 0) l (s.now + 1) } }).log c l []
  if s.faultedOnSpare l || decide (s.freeSpares.length ≤ s.openTakeovers.length) then s1.escalate c l
  else
    { s1 with arb := { s1.arb with
        takeovers := s1.arb.takeovers ++ [{ eng := l, phys := e, spare := none, detect := s.now, q := q }] } }

/-- The engine issues: it runs a program and no exception is pending (R174). -/
def EngSt.issues (en : EngSt) : Bool := en.running && en.exc.isNone

/-- An instruction of an engine raises an exception: it has no effect, the engine stops issuing and the exception waits
for the earlier program slots to commit (R174, R210). In a program slot that was entered at the exception vector the
engine is faulted (R211). -/
def State.raiseExc (s : State) (e : Nat) (x : Exc) : State :=
  let en := s.eng e
  if en.vecSlot = some en.slot then s.engFault e .ENG_FAULT
  else s.setEng e { en with exc := some (ecauseWord 4 x.code (en.pc % 2 ^ 14) en.slot) }

/-- What the body of an instruction does: it completes with the engine as given, jumps, raises an exception, or stalls. -/
inductive KRes where
  | done (s : State) (en : EngSt)
  | jump (s : State) (en : EngSt) (target : Nat)
  | raise (x : Exc)
  | stall (s : State)

/-- The engine with its PC at an index; an index past 16,383 raises BRANCH_RANGE (R197). -/
def State.retire (s : State) (e : Nat) (en : EngSt) (pc : Nat) : State :=
  if pc < 16384 then s.setEng e { en with pc := pc } else (s.setEng e en).raiseExc e .branchRange

/-- An engine issues one instruction whose guard has been judged: the body acts, and the PC advances by one or to the
jump's target. An engine that is stopped or holds a pending exception issues nothing. -/
def State.issue (s : State) (e : Nat) (ok : Bool) (body : State → EngSt → KRes) : Res :=
  let en := s.eng e
  if en.issues then
    if ok then
      match body s en with
      | .done t en' => .next (t.retire e en' (en'.pc + 1))
      | .jump t en' target => .next (t.retire e en' target)
      | .raise x => .next (s.raiseExc e x)
      | .stall t => .next t
    else .next (s.retire e en (en.pc + 1))
  else .next s

/-- A guarded instruction (R185). -/
def State.koloux (s : State) (e : Nat) (g : Guard) (body : State → EngSt → KRes) : Res :=
  s.issue e ((s.eng e).guardOk g) body

/-- A guarded instruction that only writes the engine's own registers. -/
def State.kolouxReg (s : State) (e : Nat) (g : Guard) (f : EngSt → EngSt) : Res :=
  s.koloux e g (fun s en => .done s (f en))

/-- An unguarded instruction that only writes the engine's own registers (R185, format I). -/
def State.kolouxImm (s : State) (e : Nat) (f : EngSt → EngSt) : Res := s.issue e true (fun s en => .done s (f en))

end Sys2Proof.Machine
end

