-- ==== Sys2Proof/Machine/FrontEnd.lean ====
section
/-!
DEFINITION. Sys2Proof/Machine/FrontEnd.lean: the sensor front end, excitation, wire-break detection, energy limits and the
spare crosspoint (R62 to R93).
-/
namespace Sys2Proof.Machine
open Sys2Proof

/-- A standard channel. -/
def State.ch (s : State) (c : Nat) : ChanSt := s.chans.get (fun _ => {}) c
/-- A standard channel replaced. -/
def State.setCh (s : State) (c : Nat) (x : ChanSt) : State := { s with chans := s.chans.set (fun _ => {}) c x }
/-- A bank. -/
def State.bk (s : State) (b : Nat) : BankSt := s.banks.get (fun _ => {}) b
/-- A bank replaced. -/
def State.setBk (s : State) (b : Nat) (x : BankSt) : State := { s with banks := s.banks.set (fun _ => {}) b x }

/-- The channels of a bank (R8). -/
def bankChans (b : Nat) : List Nat := (List.range 16).map (fun p => 16 * b + p)
/-- The bank of a channel (R8). -/
def chBank (c : Nat) : Nat := c / 16

/-- CH_CFG.EN in force. -/
def State.chOn (s : State) (c : Nat) : Bool := s.effFlag (Reg.CH_CFG_EN c)
/-- BANK_CFG.EXMODE in force: 0 off, 1 DC, 2 AC (R74). -/
def State.exMode (s : State) (b : Nat) : Nat := s.effF (Reg.BANK_CFG_EXMODE b)
/-- BANK_CFG.K in force (R75). -/
def State.carrierK (s : State) (b : Nat) : Nat := s.effF (Reg.BANK_CFG_K b)

/-- The hub puts out a drive on the channel: it is driven, ramping or changing its amplitude. -/
def Drive.driving : Drive → Bool
  | .rampUp | .on | .waitStop | .waitLevel | .rampDown => true
  | .off | .waitStart | .removed | .latched => false

/-- The hub drives the channel and is not taking the drive down (R85). -/
def Drive.held : Drive → Bool
  | .rampUp | .on | .waitLevel => true
  | .off | .waitStart | .removed | .latched | .waitStop | .rampDown => false

/-- A trip run ends 10 s after its last trip: 2,500,000 slots (R91). -/
def tripRunSlots : Nat := 2500000

/-- The channel's drive begins: a DC drive ramps to LEVEL over 16 slots, an AC drive waits for its zero crossing (R76).
Where `start`, it counts as a start for the learning of G_ref and C_ref (R80). The energy window starts at zero
after 250 slots without driving (R93). DRIVE_OFF clears (R91), and the pair factor of the bank becomes 1 (R382). -/
def State.beginDrive (s : State) (c : Nat) (start : Bool) : State :=
  let x := s.ch c
  let lvl := s.effF (Reg.CH_EXCFG_LEVEL c)
  let fresh := match x.lastOn with
    | some t => decide (t + 250 ≤ s.now)
    | none => true
  let y := { x with
    target := lvl, due := s.now + 16, retryAt := none
    ac := s.exMode (chBank c) == 2, k := s.carrierK (chBank c)
    drive := (if s.exMode (chBank c) = 2 then .waitStart else .rampUp)
    win := (if fresh then [] else x.win)
    startAt := (if start then some s.now else x.startAt)
    gRef := (if start then none else x.gRef)
    fit := (if start then {} else x.fit), low := (if start then 0 else x.low), whole := (if start then 0 else x.whole) }
  let b := chBank c
  ((s.setCh c y).setBk b { s.bk b with factor := 1048576 }).setF (Reg.CH_STATUS_DRIVE_OFF c) 0

/-- Excitation is on for a bank: by the mode, but between h and h_m of a planned handover not on a bank handed over, and already on
a bank taken over (R31, R395). -/
def State.bankExcited (s : State) (b : Nat) : Bool :=
  (s.exciting && s.pair.handed.get (fun _ => 0) b == 0) || s.pair.ramps.get (fun _ => 0) b != 0

/-- The channel's drive may stand: EXEN is set, the bank's EXMODE is not off, excitation is on and the channel is not latched off
(R31, R73, R91). -/
def State.mayDrive (s : State) (c : Nat) : Bool :=
  s.effFlag (Reg.CH_EXCFG_EXEN c) && s.exMode (chBank c) != 0 && s.bankExcited (chBank c)
    && !s.flag (Reg.CH_STATUS_EX_LATCH c)

/-- The handover ramp of a channel begins: full drive 4 slots on; R76 does not apply (R392). -/
def State.rampDrive (s : State) (c : Nat) : State :=
  let x := s.ch c
  ((s.setCh c { x with
    target := s.effF (Reg.CH_EXCFG_LEVEL c), due := s.now + 4, retryAt := none, drive := .rampUp
    ac := s.exMode (chBank c) == 2, k := s.carrierK (chBank c)
    win := [], startAt := some s.now, gRef := none, fit := {}, low := 0, whole := 0 }).setF (Reg.CH_STATUS_DRIVE_OFF c) 0).setF (Reg.CH_STATUS_EX_LATCH c) 0

/-- A start of the drive of a channel that may be driven (R76). -/
def State.startDrive (s : State) (c : Nat) : State := if s.mayDrive c then s.beginDrive c true else s

/-- A deliberate stop: a DC drive ramps down over 16 slots, an AC drive waits for a zero crossing, any other state ends (R76). A stop during a
hold-off drops the retry, and DRIVE_OFF stays 1 until the next start of the drive (DESIGN CHOICE, log entry 80). -/
def State.stopDrive (s : State) (c : Nat) : State :=
  let x := s.ch c
  if x.drive.driving then
    s.setCh c { x with due := s.now + 16, drive := (if x.ac then .waitStop else .rampDown) }
  else s.setCh c { x with drive := .off, retryAt := none }

/-- A drive removed at once, whatever its phase (R32, R76). -/
def State.cutDrive (s : State) (c : Nat) : State :=
  let x := s.ch c
  s.setCh c { x with
    drive := .off, level := 0, retryAt := none
    lastOn := (if x.drive.driving then some s.now else x.lastOn) }

/-- The drives of every channel of every bank removed at once. -/
def State.cutAllDrives (s : State) : State := (List.range 384).foldl (fun t c => t.cutDrive c) s

/-- The trip of a channel in slot t: the drive is removed at once, DRIVE_OFF is set, the trip is counted, and the channel
retries HOLDOFF ms later; the RETRY-th trip of one run latches the drive off (R76, R90, R91). EXLIM covers the raw
samples from the trip slot (R92). -/
def State.trip (s : State) (c t : Nat) : State :=
  let x := s.ch c
  let run := match x.lastTrip with
    | some u => if t < u + tripRunSlots then x.runTrips + 1 else 1
    | none => 1
  let retry := s.effF (Reg.CH_EXCFG_RETRY c)
  let latch := retry != 0 && decide (retry ≤ run)
  let y := { x with
    drive := (if latch then .latched else .removed)
    level := 0, limRun := 0, lastTrip := some t, runTrips := run, lastOn := some t
    retryAt := (if latch then none else some (t + 250 * s.effF (Reg.CH_EXCFG_HOLDOFF c)))
    exlimFrom := some (x.exlimFrom.getD t) }
  let s1 := ((s.setCh c y).setF (Reg.CH_STATUS_DRIVE_OFF c) 1).bump (Reg.CH_STATUS_TRIPS c)
  if latch then (s1.setF (Reg.CH_STATUS_EX_LATCH c) 1).log .EX_LATCHED c [BitVec.ofNat 64 t] else s1

/-- The drive of a channel reaches full level: the EXLIM run that a trip opened ends with the present slot. The run of a trip whose drive does not
come back lasts until a later start reaches full level (R92; DESIGN CHOICE, log entry 80). -/
def State.fullDrive (s : State) (c : Nat) : State :=
  let x := s.ch c
  s.setCh c { x with
    drive := .on, level := x.target
    exlim := (match x.exlimFrom with
      | some t => (t, s.now) :: x.exlim
      | none => x.exlim)
    exlimFrom := none }

/-- The raw slot n of a channel carries EXLIM (R92). -/
def ChanSt.exlimAt (x : ChanSt) (n : Nat) : Bool :=
  (match x.exlimFrom with
    | some t => decide (t ≤ n)
    | none => false) || x.exlim.any (fun r => decide (r.1 ≤ n) && decide (n ≤ r.2))

/-- The raw slot n of a channel carries WIRE: from the break slot b up to the slot c of the restoration (R83). -/
def ChanSt.wireAt (x : ChanSt) (n : Nat) : Bool :=
  x.breaks.any (fun b => decide (b.start ≤ n) && (match b.fin with
    | some c => decide (n ≤ c)
    | none => true))

/-- A break of a lead is standing. -/
def ChanSt.open_ (x : ChanSt) (l : Lead) : Bool := x.breaks.any (fun b => b.lead == l && b.fin.isNone)

/-- The bank's front end runs: the hub acquires, or its stop for Basecamp has not reached the end of slot s + 3 (R31, R37). -/
def State.frontOn (s : State) : Bool := s.acquiring || s.mode.stopAt.isSome

/-- The carrier of a bank runs: its EXMODE is AC while the front end runs, in Belay without excitation, and after that until its last AC drive
has ended (R31, R37, R75, R381). -/
def State.carrierOn (s : State) (b : Nat) : Bool :=
  (s.exMode b == 2 && s.frontOn) || (bankChans b).any (fun c => (s.ch c).drive.driving && (s.ch c).ac)

/-- A carrier zero crossing of the bank falls in slot n: at s0 + j·K/2 for some j (R75, R76). -/
def zeroCrossing (s0 k n : Nat) : Bool :=
  decide (s0 ≤ n) && (decide ((2 * (n - s0)) % k = 0) || decide ((2 * (n - s0) + 1) % k = 0))

/-- The bound of R79 on the slots in which a break is seen. -/
def breakBound (l : Lead) (exMode k : Nat) : Nat :=
  match l with
  | .exc => if exMode = 2 then 2 + ceilDiv (4 * k) 100 else 2
  | .sense => if exMode = 2 then k + 2 else 4

/-- A break seen in the present slot: the state bits, the WIRE run from slot b and the record with b and the bound of
R79 (R83, R84, R86). -/
def State.seeBreak (s : State) (c : Nat) (l : Lead) : State :=
  let x := s.ch c
  let b := s.now
  let s1 := s.setCh c { x with breaks := { lead := l, start := b, fin := none } :: x.breaks }
  let s2 := (match l with
    | .exc => s1.setF (Reg.CH_STATUS_WB_EXC c) 1
    | .sense => s1.setF (Reg.CH_STATUS_WB_SENSE c) 1).setF (Reg.CH_STATUS_WB_SEEN c) 1
  let bound := breakBound l (s.exMode (chBank c)) (s.carrierK (chBank c))
  s2.log (match l with | .exc => .WB_EXC_OPEN | .sense => .WB_SENSE_OPEN) c [BitVec.ofNat 64 b, BitVec.ofNat 64 bound]

/-- Every driven channel of the bank was seen open in the present slot: the return is open, which is logged once for the slot (R86). -/
def State.judgeReturn (s : State) (b : Nat) : State :=
  let driven := (bankChans b).filter (fun c => (s.ch c).drive.driving)
  let seen := driven.all (fun c => (s.ch c).breaks.any (fun k => k.fin.isNone && k.start == s.now))
  if seen && !driven.isEmpty && (s.bk b).retAt != some s.now then
    ((s.setBk b { s.bk b with retAt := some s.now }).setF (Reg.BANK_STATUS_RET_OPEN b) 1).log .WB_EXRET_OPEN b [BitVec.ofNat 64 s.now]
  else s

/-- A lead whole again at slot c: its break ends, and a return break of the bank that was seen in that break's slot with it
(R83, R86). -/
def State.restoreLead (s : State) (c : Nat) (l : Lead) : State :=
  let x := s.ch c
  let s1 := s.setCh c { x with breaks := x.breaks.map (fun b =>
    if b.lead == l && b.fin.isNone then { b with fin := some s.now } else b) }
  let s2 := match l with
    | .exc => s1.setF (Reg.CH_STATUS_WB_EXC c) 0
    | .sense => s1.setF (Reg.CH_STATUS_WB_SENSE c) 0
  let b := chBank c
  let ours := x.breaks.any (fun k => k.lead == l && k.fin.isNone && (s.bk b).retAt == some k.start)
  let s3 := if ours then (s2.setBk b { s2.bk b with retAt := none }).setF (Reg.BANK_STATUS_RET_OPEN b) 0 else s2
  s3.log .WB_RESTORED c [BitVec.ofNat 64 s.now]

/-- The settle time of the spare in slots after a connection, by AAF (R70). -/
def settleSlots (aaf : Nat) : Nat := if aaf = 0 then 8 else if aaf = 1 then 16 else 32

/-! ### Register writes of this chapter (R64 to R91) -/

/-- The anti-alias cutoff is at least four times the carrier: 100 kHz / 2^AAF ≥ 4 · 250 kHz / K (R64). -/
def aafOk (aaf k : Nat) : Bool := decide (10 * 2 ^ aaf ≤ k)
/-- The decimation of a preset (R126). -/
def presetD (p : Nat) : Nat := 8 * 4 ^ p
/-- The carrier rule of presets: D ≥ 4·K (R128). -/
def presetOk (p k : Nat) : Bool := decide (4 * k ≤ presetD p)

/-- The rules that bind AC excitation of a channel with given settings: R64 and R128. -/
def acOk (exMode exen k aaf preset : Nat) : Option Cond :=
  if exMode = 2 ∧ exen = 1 then firstFail [(aafOk aaf k, .CH_AAF_CARRIER), (presetOk preset k, .CH_FLT_CARRIER)] else none

/-- The tests of a write to CH_CFG (R62, R64, R65). -/
def State.checkChCfg (s : State) (w : WCtx) (c : Nat) (v : W64) : Option Cond :=
  let b := chBank c
  (firstFail [(bits v 11 10 != 3, .CH_AAF), (bits v 9 8 != 3, .CH_RANGE), (!s.acquiringAt w.slot, .CH_CFG_LIVE)]).orElse
    (fun _ => if s.getF (Reg.BANK_CFG_EXMODE b) = 2 ∧ s.getF (Reg.CH_EXCFG_EXEN c) = 1 then
      firstFail [(aafOk (bits v 11 10) (s.getF (Reg.BANK_CFG_K b)), .CH_AAF_CARRIER)] else none)

/-- The tests of a write to BANK_CFG (R73 to R75, R64, R128). A LEVEL of a channel that lies above the AC range is not tested again when EXMODE becomes
AC (DESIGN CHOICE, log entry 81). -/
def State.checkBankCfg (s : State) (w : WCtx) (b : Nat) (v : W64) : Option Cond :=
  let k := bits v 25 16
  let m := bits v 1 0
  (firstFail [(decide (10 ≤ k) && decide (k ≤ 1000), .BANK_K_RANGE), (m != 3, .BANK_EXMODE),
    (!s.acquiringAt w.slot, .BANK_CFG_LIVE)]).orElse (fun _ =>
    (bankChans b).foldl (fun r c => r.orElse (fun _ =>
      acOk m (s.getF (Reg.CH_EXCFG_EXEN c)) k (s.getF (Reg.CH_CFG_AAF c)) (s.getF (Reg.CH_FLT_PRESET c)))) none)

/-- The tests of a write to CH_EXCFG (R74, R77, R64, R128). The table of R74 gives no LEVEL range for EXMODE off; that of DC is taken (DESIGN CHOICE, log
entry 81). -/
def State.checkChExcfg (s : State) (w : WCtx) (c : Nat) (v : W64) : Option Cond :=
  let b := chBank c
  let m := s.getF (Reg.BANK_CFG_EXMODE b)
  let po := bits v 47 40
  let il := bits v 39 34
  let lvl := bits v 33 20
  let changes := lvl != s.getF (Reg.CH_EXCFG_LEVEL c) || bits v 0 0 != s.getF (Reg.CH_EXCFG_EXEN c)
  (firstFail [(decide (1 ≤ po) && decide (po ≤ 200), .CH_EX_LIMITS), (decide (5 ≤ il) && decide (il ≤ 60), .CH_EX_LIMITS),
    (decide (lvl ≤ if m = 2 then 2500 else 5000), .CH_EX_LEVEL), (bits v 15 4 != 0, .CH_EX_LIMITS),
    (!(changes && s.acquiringAt w.slot && !w.isCfg), .CH_EX_LIVE)]).orElse (fun _ =>
    acOk m (bits v 0 0) (s.getF (Reg.BANK_CFG_K b)) (s.getF (Reg.CH_CFG_AAF c)) (s.getF (Reg.CH_FLT_PRESET c)))

/-- The tests of a write to CH_WB. -/
def checkChWb (v : W64) : Option Cond :=
  firstFail [(bits v 31 24 != 0, .CH_WB_RANGE), (!(bits v 1 1 == 1 && bits v 2 2 == 0), .CH_WB_BIAS)]

/-- The tests of a write to BANK_SPARE (R72). -/
def State.checkBankSpare (s : State) (b : Nat) : Option Cond :=
  firstFail [(!s.flag (Reg.BANK_SPARE_CAL b), .BANK_SPARE_BUSY)]

/-- What an overlay's change of CH_EXCFG does at its slot, from the fields before the change to those after it: EXEN rising is a start, EXEN falling a
deliberate stop, a change of LEVEL ramps a DC drive, waits for an AC zero crossing, or is the amplitude of a drive that waits for its start (R77). -/
def State.excfgChanged (s old : State) (c : Nat) : State :=
  let en := s.effF (Reg.CH_EXCFG_EXEN c)
  let was := old.effF (Reg.CH_EXCFG_EXEN c)
  let lvl := s.effF (Reg.CH_EXCFG_LEVEL c)
  let x := s.ch c
  if was = 0 ∧ en = 1 then s.startDrive c
  else if was = 1 ∧ en = 0 then s.stopDrive c
  else if old.effF (Reg.CH_EXCFG_LEVEL c) = lvl then s
  else if x.drive.held then
    s.setCh c { x with target := lvl, due := s.now + 16, drive := (if x.ac then .waitLevel else .rampUp) }
  else if x.drive = .waitStart then s.setCh c { x with target := lvl }
  else s

/-- The changes of CH_EXCFG of every channel of an acquiring hub (R77). -/
def State.excitationChanged (s old : State) : State :=
  if s.acquiring then (List.range 384).foldl (fun t c => t.excfgChanged old c) s else s

/-! ### The commands -/

/-- CARRIER_ZERO_CROSSING: at a zero crossing of the bank's carrier the waiting AC drives start, stop or change
amplitude. The carrier of a drive that stops runs with the divisor it was started with (R75 to R77). -/
def execCarrierZeroCrossing (b : Fin 24) (s : State) : Res :=
  .next ((bankChans b).foldl (fun t c =>
    let x := t.ch c
    if x.ac && zeroCrossing (s.reg (Reg.BANK_PHASE b)).toNat x.k s.now then
      match x.drive with
      | .waitStart | .waitLevel => t.fullDrive c
      | .waitStop => t.cutDrive c
      | _ => t
    else t) s)

/-- EXCITATION_RAMP_END: a DC ramp of 16 slots ends at its target (R76). -/
def execExcitationRampEnd (c : Fin 384) (s : State) : Res :=
  let x := s.ch c
  if x.due ≤ s.now then
    match x.drive with
    | .rampUp => .next (s.fullDrive c)
    | .rampDown => .next (s.cutDrive c)
    | _ => .next s
  else .next s

/-- A slot of the learning adds to the sums of the least-squares fit E = G·Q + ½·C·h (R80). -/
def Fit.add (f : Fit) (e q h : Int) : Fit :=
  { qq := f.qq + q * q, qh := f.qh + q * h, hh := f.hh + h * h, eq := f.eq + e * q, eh := f.eh + e * h }

/-- The slot's conductance G lies below G_ref · num / den, where G = (E − ½·C_ref·h) / Q (R80). -/
def GRef.above (r : GRef) (num den : Int) (e q h : Int) : Bool := decide (den * (e * r.det - r.c * h) < num * (r.g * q))

/-- What the excitation detector takes from a slot: a learning slot adds to the fit; a slot that is evaluated, one with
Q ≥ LEVEL² · 4 µs / 64, counts as low below G_ref / 4 and as whole from G_ref / 2 on (R80, R83). -/
def ChanSt.conduct (x : ChanSt) (on : Bool) (level now : Nat) (e q h : Int) : ChanSt :=
  match x.gRef with
  | none => { x with fit := if x.startAt.any (fun t => decide (now < t + 64)) then x.fit.add e q h else x.fit }
  | some r =>
    if on && decide (((level * level : Nat) : Int) ≤ 16 * q) then
      { x with low := if r.above 1 4 e q h then x.low + 1 else 0, whole := if r.above 1 2 e q h then 0 else x.whole + 1 }
    else x

/-- The detectors of a lead run in the present mode: the hub acquires, not in Belay, the channel is enabled (R79, R85). -/
def State.detects (s : State) (c : Nat) : Bool := s.acquiring && !s.belay && s.chOn c

/-- The detector of a lead evaluates: the excitation detector while the hub drives the channel and is not stopping it, a sense detector while the
break-detect bias is on, which it is not up to the end of the HANDOVER window of a takeover (R81, R82, R85). -/
def State.evaluates (s : State) (c : Nat) (l : Lead) : Bool :=
  s.detects c && (match l with
    | .exc => s.effFlag (Reg.CH_WB_EXC c) && (s.ch c).drive.held
    | .sense => s.effFlag (Reg.CH_WB_SENSE c) && s.effFlag (Reg.CH_WB_BIAS c) && s.pair.windowEnd.get (fun _ => 0) (chBank c) == 0)

/-- SUPERVISOR_EVALUATION: at the end of slot t the supervisor has measured E (pJ), Q (mV²·µs) and the voltage at the end of the slot (mV): E
enters the 250-slot window W, the conductance is learned from or judged, the limiter's state is shown, and a channel with W above
PO · 50 nJ is tripped (R80, R83, R89, R90). -/
def execSupervisorEvaluation (c : Fin 384) (energy : Int) (square : Nat) (vEnd : Int) (limiter : Bool) (s : State) : Res :=
  let x0 := s.ch c
  let x := { x0.conduct (s.evaluates c .exc) (s.effF (Reg.CH_EXCFG_LEVEL c)) s.now energy square
    (vEnd * vEnd - x0.vEnd * x0.vEnd) with vEnd := vEnd }
  let w := (energy :: x.win).take 250
  let s1 := (s.setCh c { x with
      win := w
      limRun := (if limiter then x.limRun + 1 else 0)
      lastOn := (if x.drive.driving then some s.now else x.lastOn)
      exlim := (if limiter then (s.now, s.now) :: x.exlim else x.exlim) }).setF (Reg.CH_STATUS_ILIM c) (b2n limiter)
  if x.drive.driving && decide (((50000 * s.effF (Reg.CH_EXCFG_PO c) : Nat) : Int) < w.sum) then
    .next (((s1.log .EX_LIMIT c [BitVec.ofNat 64 s.now]).setF (Reg.CH_STATUS_LIMIT_SEEN c) 1).trip c s.now)
  else .next s1

/-- EX_SHORT: a limiter engaged for 64 consecutive slots removes the drive as a trip (R89). -/
def execExShort (c : Fin 384) (s : State) : Res :=
  if 64 ≤ (s.ch c).limRun ∧ (s.ch c).drive.driving = true then
    .next (((s.log .EX_SHORT c [BitVec.ofNat 64 s.now]).setF (Reg.CH_STATUS_SHORT_SEEN c) 1).trip c s.now)
  else .next s

/-- EXCITATION_RETRY: HOLDOFF ms after a trip the drive begins again, not as a start, and DRIVE_OFF clears (R76, R80,
R91). -/
def execExcitationRetry (c : Fin 384) (s : State) : Res :=
  match (s.ch c).retryAt with
  | some t =>
    if t ≤ s.now ∧ (s.ch c).drive = .removed ∧ s.mayDrive c = true then
      .next (s.beginDrive c false)
    else .next s
  | none => .next s

/-- TRIP_RUN_END: a run of trips ends after 10 s without a trip (R91). -/
def execTripRunEnd (c : Fin 384) (s : State) : Res :=
  let x := s.ch c
  match x.lastTrip with
  | some t => if t + tripRunSlots ≤ s.now then .next (s.setCh c { x with runTrips := 0, lastTrip := none }) else .next s
  | none => .next s

/-- The latch of a channel cleared: the trip run starts anew and the drive starts (R91). -/
def State.clearLatch (s : State) (c : Nat) : State :=
  if s.flag (Reg.CH_STATUS_EX_LATCH c) then
    let x := s.ch c
    (((s.setCh c { x with drive := .off, runTrips := 0, lastTrip := none }).setF (Reg.CH_STATUS_EX_LATCH c) 0).setF
      (Reg.CH_STATUS_DRIVE_OFF c) 0).startDrive c
  else s

/-- LATCH_CLEAR: a port with operator authority writes 1 to CH_STATUS.EX_LATCH (R91). -/
def execLatchClear (port : Port) (c : Fin 384) (s : State) : Res :=
  s.whenOpen port (Reg.CH_STATUS c) <|
  if s.classOf port < 1 then .next (s.logRefusal .SYS_AUTH_DENIED c (Reg.CH_STATUS c) port)
  else .next (s.clearLatch c)

/-- GREF_LEARNED: 64 slots after a start of the drive, G_ref and C_ref are the least-squares solution over those slots. Where it is not unique the
manual states none, and they are free values (R80, log entry 2). -/
def execGrefLearned (c : Fin 384) (s : State) : Res :=
  let x := s.ch c
  match x.startAt with
  | some t =>
    if t + 64 ≤ s.now ∧ x.gRef = none then
      let f := x.fit
      let det := f.qq * f.hh - f.qh * f.qh
      if 0 < det then
        .next (s.setCh c { x with gRef := some { g := f.eq * f.hh - f.eh * f.qh, c := f.eh * f.qq - f.eq * f.qh, det := det } })
      else
        let (g, s1) := s.free
        let (k, s2) := s1.free
        .next (s2.setCh c { x with gRef := some { g := (g.toNat : Int), c := (k.toNat : Int), det := 2 ^ 40 } })
    else .next s
  | none => .next s

/-- WB_EXC_OPEN: the conductances of two consecutive evaluated slots lay below G_ref / 4 (R80, R85, R86). -/
def execWbExcOpen (c : Fin 384) (s : State) : Res :=
  let x := s.ch c
  if s.evaluates c .exc && decide (2 ≤ x.low) && !x.open_ .exc then .next ((s.seeBreak c .exc).judgeReturn (chBank c))
  else .next s

/-- The demodulator tables of R124: s_n and c_n of carrier step j of K. -/
def demodSin (j k : Nat) : Int := let v := roundEven (2 ^ 23 * sinOf j k) (2 ^ 96); if 2 ^ 23 - 1 < v then 2 ^ 23 - 1 else v
/-- The cosine table of R124. -/
def demodCos (j k : Nat) : Int := let v := roundEven (2 ^ 23 * cosOf j k) (2 ^ 96); if 2 ^ 23 - 1 < v then 2 ^ 23 - 1 else v

/-- VTH on the VALUE scale, times 2,500 mV and the denominator of a residue, by the nominal full scale of the channel's RANGE (R62, R81). -/
def State.vthScaled (s : State) (c den : Nat) : Nat :=
  s.effF (Reg.CH_WB_VTH c) * 4 ^ s.effF (Reg.CH_CFG_RANGE c) * 2 ^ 31 * den

/-- The residue of the alternating bias after slot n: the difference between the means of the last two two-slot halves (R82). -/
def SenseSt.halves (x : SenseSt) (n : Nat) : Option (Int × Nat) :=
  match x.last with
  | [a, b, c, d] => if n % 2 = 1 ∧ d.1 + 3 = n then some (a.2 + b.2 - (c.2 + d.2), 2) else none
  | _ => none

/-- The residue of the quadrature bias at the end of a carrier period: the mean of Q_n over its K slots, scaled so that a square wave in quadrature
with the carrier gives its amplitude on the hub's samples (R81, R124). -/
def SenseSt.quadrature (x : SenseSt) (k : Nat) : Option (Int × Nat) :=
  if x.cnt = k then some (x.sum * 2 ^ 22, 2 ^ 8 * ((List.range k).map (fun j => (demodCos j k).natAbs)).sum) else none

/-- The raw value of slot n of a channel enters its sense detector, which forms a residue where a half or a carrier period ends and counts the
evaluations in which the lead is whole (R81 to R83). -/
def State.senseSample (s : State) (c n : Nat) (v : Int) : State :=
  let x := s.ch c
  if !s.evaluates c .sense then s.setCh c { x with sense := {} }
  else
    let b := chBank c
    let k := Nat.max 1 (s.carrierK b)
    let j := (((n : Int) - ((s.reg (Reg.BANK_PHASE b)).toNat : Int)) % (k : Int)).toNat
    let q := roundEven (v * demodCos j k) (2 ^ 14)
    let next := match x.sense.last.head? with
      | some p => p.1 + 1 == n
      | none => false
    let (sum, cnt) := if j = 0 then (q, 1) else if next && x.sense.cnt == j then (x.sense.sum + q, j + 1) else (0, 0)
    let y := { x.sense with last := ((n, v) :: x.sense.last).take 4, sum := sum, cnt := cnt }
    let r := if s.exMode b = 2 then (if j + 1 = k then y.quadrature k else none) else y.halves n
    match r with
    | none => s.setCh c { x with sense := y }
    | some r =>
      s.setCh c { x with sense := { y with
        resid := some r, whole := if 2 * 2500 * r.1.natAbs < s.vthScaled c r.2 then y.whole + 1 else 0 } }

/-- WB_SENSE_OPEN: the residue of the break-detect bias exceeds VTH in magnitude (R81, R82, R85, R86). -/
def execWbSenseOpen (c : Fin 384) (s : State) : Res :=
  let beyond := match (s.ch c).sense.resid with
    | some r => decide (s.vthScaled c r.2 < 2500 * r.1.natAbs)
    | none => false
  if s.evaluates c .sense && beyond && !(s.ch c).open_ .sense then
    .next ((s.seeBreak c .sense).judgeReturn (chBank c))
  else .next s

/-- WB_RESTORED: 256 consecutive evaluations in which the lead is whole end its break. The break of a lead whose detector CH_WB switches off
stands until the detector runs again (R83, R85, R86; DESIGN CHOICE, log entry 82). -/
def execWbRestored (c : Fin 384) (lead : Lead) (s : State) : Res :=
  let whole := match lead with
    | .exc => (s.ch c).whole
    | .sense => (s.ch c).sense.whole
  if s.evaluates c lead = true ∧ 256 ≤ whole ∧ (s.ch c).open_ lead = true then .next (s.restoreLead c lead) else .next s

/-- CROSSPOINT_SWITCH: the spare leaves its old pair and takes the position in force; it takes that channel's RANGE and
AAF, first holds at the next slot and settles after 8, 16 or 32 slots (R69, R70). -/
def execCrosspointSwitch (b : Fin 24) (s : State) : Res :=
  let want := if s.effFlag (Reg.BANK_SPARE_CONN b) then some (s.effF (Reg.BANK_SPARE_POS b)) else none
  let x := s.bk b
  if x.xp = want then .next s
  else
    let c := 16 * b.val + want.getD 0
    let aaf := s.effF (Reg.CH_CFG_AAF c)
    .next (s.setBk b { x with
      xp := want, xpSettle := s.now + settleSlots aaf
      spareAaf := (if want.isSome then aaf else x.spareAaf)
      spareRange := (if want.isSome then s.effF (Reg.CH_CFG_RANGE c) else x.spareRange) })

end Sys2Proof.Machine
end

