-- ==== Sys2Proof/Machine/Convert.lean ====
section
/-!
DEFINITION. Sys2Proof/Machine/Convert.lean: the bank converters: predictions, guard and rescue, slice codes and background
correction, the mapping onto one scale, references (R96 to R117).
-/
namespace Sys2Proof.Machine
open Sys2Proof

/-! ### The prediction (R100 to R102) -/

/-- The hardware predictor for slot n: coarse when the warning state was set in any of slots n − HOLD to n − 1 (R101). -/
def State.hwFine (s : State) (b p n : Nat) : Bool :=
  match (s.bk b).lastWarn.get (fun _ => 0) p with
  | 0 => true
  | w + 1 => decide (w + s.effF (Reg.CH_CONV_HOLD (16 * b + p)) < n)

/-- The prediction committed last for a position and slot (R102). -/
def BankSt.stored (x : BankSt) (p n : Nat) : Option Pred := x.preds.find? (fun q => q.slot == n && q.pos == p)

/-- The prediction of a position for slot n under its POLICY in force, with the engine of a CONVSET that made it (R100). -/
def State.predict (s : State) (b p n : Nat) : Bool × Option Nat :=
  let policy := s.effF (Reg.CH_CONV_POLICY (16 * b + p))
  if policy = 0 then (false, none)
  else if policy = 1 then (true, none)
  else if policy = 2 then (s.hwFine b p n, none)
  else match (s.bk b).stored p n with
    | some q => (q.fine, some q.eng)
    | none => (s.hwFine b p n, none)

/-- The positions of a bank. -/
def positions : List Nat := List.range 16

/-- A mask of the positions a test holds for. -/
def maskOf (f : Nat → Bool) : Nat := (positions.map (fun p => if f p then 2 ^ p else 0)).sum

/-- The predictions of bank b frozen for slot n and the plan of its own opportunities loaded; the slice terms that the
injections reached apply from here, and the hold strobe takes the spare's connection as it stands (R66, R70, R109,
R110). The plan of the slot before is kept for its raw values. -/
def State.freeze (s : State) (n b : Nat) : State :=
  let x := s.bk b
  let pr := positions.map (fun p => s.predict b p n)
  let plan : SlotPlan :=
    { slot := n, live := true, slices := x.slices, sparePos := x.xp, spareNode := x.node, spareRange := x.spareRange
      pred := maskOf (fun p => (pr.getD p (false, none)).1)
      csEng := positions.filterMap (fun p => (pr.getD p (false, none)).2.map (fun e => (p, e))) }
  s.setBk b { x with prev := x.plan, plan := plan, preds := x.preds.filter (fun q => decide (n < q.slot)) }

/-! ### Guard, rescue and the spare's path (R104 to R107) -/

/-- Position p of bank b takes its samples from the spare path in raw slot n. -/
def BankSt.substAt (x : BankSt) (p n : Nat) : Option Subst :=
  x.subs.find? (fun u => u.pos == p && decide (u.first ≤ n) && (match u.last with
    | some l => decide (n ≤ l)
    | none => true))

/-- The node level and path that calibration interval i converts: (level sign, fine level, fine path); none in interval 7
(R408). -/
def calLevel (i : Nat) : Option (Int × Bool × Bool) :=
  match i with
  | 0 => some (0, false, false) | 1 => some (1, false, false) | 2 => some (-1, false, false)
  | 3 => some (0, true, true) | 4 => some (1, true, true) | 5 => some (-1, true, true)
  | 6 => some (1, true, false) | _ => none

/-- The position whose own stage stands on the calibration node, with the path converted; R408 interval 7 converts none
(inner none). -/
def State.calOwn (s : State) (b : Nat) : Option (Nat × Option Bool) :=
  let k := s.cals.get (fun _ => {}) b
  if k.stage = 2 ∧ k.step = 1 then
    match k.chans.head? with
    | some p => some (p, (calLevel k.interval).map (fun l => l.2.2))
    | none => none
  else none

/-- The order in which misprediction is served in slot n: RPRI channels first, each group from position n mod 16 up and
wrapping (R105). -/
def State.rescueOrder (s : State) (b n mis : Nat) : List Nat :=
  let ring := (List.range 16).map (fun i => (n % 16 + i) % 16)
  let m := ring.filter (fun p => mis.testBit p)
  m.filter (fun p => s.effFlag (Reg.CH_CONV_RPRI (16 * b + p))) ++
    m.filter (fun p => !s.effFlag (Reg.CH_CONV_RPRI (16 * b + p)))

/-- A range misprediction reported to a logical engine: with RMSQ a squash cause that the engine holds for SQUASH, else
counted and written to ECAUSE; during a takeover it is held (R107, R171, R177). -/
def State.reportRange (s : State) (l chan n : Nat) : State :=
  let e := s.host l
  let en := s.eng e
  if (s.effFlag (Reg.ENG_CTL_RMSQ l) && en.running) || s.arb.takeovers.any (fun k => k.eng == l) then
    s.setEng e { en with held := en.held ++ [{ kind := 1, code := 0, detail := chan, slot := n, arr := s.arrival l en }] }
  else (s.setEng e { en with ecause := ecauseWord 1 0 chan n }).bump (Reg.ENG_SQ_RANGE l)

/-- The reports of a bank: per engine the lowest channel, the others counted (R107, R171). -/
def State.reportAll (s : State) (b n : Nat) (ps : List (Nat × Nat)) : State :=
  (List.range 16).foldl (fun t l =>
    match ps.filter (fun q => q.2 == l) with
    | [] => t
    | q :: r => r.foldl (fun u _ => u.bump (Reg.ENG_SQ_RANGE l)) (t.reportRange l (16 * b + q.1) n)) s

/-- RESCUE_ARBITRATION: at tick 200 the clip and warning states of the hold strobe (bit 16: the spare path) guard the fine
predictions, up to three mispredicted channels take F0 to F2, the spare's path is chosen, and range mispredictions of
CONVSET predictions are reported (R99, R103 to R107). CH_CONVSTAT.PATH shows the channel's own path also where it is not enabled or its
samples come from the spare (DESIGN CHOICE, log entry 83). -/
def execRescueArbitration (b : Fin 24) (clip warn : BitVec 17) (s : State) : Res :=
  let x := s.bk b
  let pl := x.plan
  let n := s.now
  if pl.live && pl.slot == n && !pl.judged && s.heldAt n then
    let c := clip.toNat
    let on (p : Nat) : Bool := s.chOn (16 * b + p)
    let own := s.calOwn b
    let onNode (p : Nat) : Bool := own.any (fun o => o.1 == p)
    let pins := maskOf (fun p => on p && !onNode p)
    let arb := maskOf (fun p => on p && (x.substAt p n).isNone)
    let guarded := maskOf (fun p => pins.testBit p && pl.pred.testBit p && c.testBit p)
    let path := maskOf (fun p => pl.pred.testBit p && !c.testBit p)
    let mis := maskOf (fun p => arb.testBit p && !path.testBit p && !c.testBit p)
    let order := s.rescueOrder b n mis
    let rescued := order.take 3
    let coarse := maskOf (fun p => (order.drop 3).contains p)
    let delivered (p : Nat) : Bool := path.testBit p || rescued.contains p
    let calOwn := own.bind (fun o => o.2.map (fun f => (o.1, f)))
    let lw := positions.foldl (fun m p => if warn.toNat.testBit p then m.set (fun _ => 0) p (n + 1) else m) x.lastWarn
    let pl' := { pl with
      judged := true, refu := x.refOnAt.isSome && !s.flag (Reg.BANK_REF_SETTLED b), pins := pins, arb := arb, calOwn := calOwn, clip := c
      path := path + (if c.testBit 16 then 0 else 2 ^ 16), rescued := rescued, coarse := coarse }
    let s1 := s.setBk b { x with plan := pl', lastWarn := lw }
    let s2 := positions.foldl (fun t p =>
      let ch := 16 * b.val + p
      let t1 := ((t.setF (Reg.CH_CONVSTAT_WARNST ch) (b2n (warn.toNat.testBit p))).setF (Reg.CH_CONVSTAT_CLIPST ch)
        (b2n (c.testBit p))).setF (Reg.CH_CONVSTAT_PATH ch) (b2n (delivered p))
      let t2 := if guarded.testBit p then t1.bump (Reg.CH_CONVSTAT_GUARDED ch) else t1
      let t3 := if rescued.contains p then t2.bump (Reg.CH_CONVSTAT_RESCUED ch) else t2
      if coarse.testBit p then t3.bump (Reg.CH_CONVSTAT_COARSED ch) else t3) s1
    let s3 := if rescued.isEmpty then s2 else s2.bump (Reg.BANK_CONVSTAT_RESC_SLOTS b)
    let s4 := if coarse = 0 then s3 else s3.bump (Reg.BANK_CONVSTAT_OVF_SLOTS b)
    .next (s4.reportAll b n (pl.csEng.filter (fun q => guarded.testBit q.1 || mis.testBit q.1)))
  else .next s

/-! ### Codes and injections (R97, R98, R110) -/

/-- The slice that converts a lane in slot n (R98). -/
def sliceOf (lane n : Nat) : Nat := (lane + n) % 4

/-- Opportunity 4·j + l of a slot converts a held value: a position's own (0 to 15), the spare path (16), a rescue
(17 to 19). -/
def SlotPlan.used (pl : SlotPlan) (o : Nat) : Bool :=
  if o < 16 then pl.pins.testBit o || pl.calOwn.any (fun q => q.1 == o)
  else if o = 16 then pl.sparePos.isSome || pl.spareNode
  else decide (o - 17 < pl.rescued.length)

/-! ### Injections (R110) -/

/-- A free value within −r to r. -/
def State.freeIn (s : State) (r : Nat) : Int × State :=
  let f := s.free
  (((f.1.toNat % (2 * r + 1) : Nat) : Int) - (r : Int), f.2)

/-- The corrected value u of a code in units of 2^-62 (R113, slice correction). -/
def sliceU (t : SliceTerms) (c : Int) : Int :=
  let x := c * 2 ^ 14 - t.o
  x * 2 ^ 62 + t.g * x * 2 ^ 31 + t.q * x * x

/-- The step of a coefficient for an error e on the scale of u: 2^-10 of it, to nearest, ties to even, within the range of R113 (R110). -/
def lmsStep (range : Nat) (old e : Int) (den : Nat) : Int :=
  clampI (-(range : Int)) range (old - roundEven e (2 ^ 10 * den))

/-- The least-mean-squares step of a slice that gave code c for injection level i, (2i − 15) / 16 of full scale: each coefficient moves against
the gradient of the squared error, with the converter's full scale as the unit. The manual gives the step and not its rounding (R110, R113;
DESIGN CHOICE, log entry 85). -/
def SliceTerms.inject (t : SliceTerms) (i : Nat) (c : Int) : SliceTerms :=
  let x := c * 2 ^ 14 - t.o
  let e := roundEven (sliceU t c) (2 ^ 62) - (2 * (i : Int) - 15) * 2 ^ 27
  { o := lmsStep (2 ^ 24) t.o (-e) 1, g := lmsStep (2 ^ 23) t.g (e * x) (2 ^ 31), q := lmsStep (2 ^ 21) t.q (e * x * x) (2 ^ 62) }

/-- An injection on a slice that gave code c: it takes the next level of its order, and its coefficients move unless BANK_CONV.FREEZE is 1; STARVED
clears (R110, R112). -/
def State.inject (s : State) (b k : Nat) (c : BitVec 18) : State :=
  if !s.flag (Reg.BANK_CONV_INJ b) then s
  else
    let x := s.bk b
    let n := x.injStep.get (fun _ => 0) k
    let y := { x with lastInj := x.lastInj.set (fun _ => 0) k s.now, injStep := x.injStep.set (fun _ => 0) k ((n + 1) % 16) }
    let level := (Config.injOrder k (Fin.ofNat 16 n)).val
    let z := if s.flag (Reg.BANK_CONV_FREEZE b) then y
      else { y with slices := y.slices.modify (fun _ => {}) k (fun t => t.inject level (signed 18 c.toNat)) }
    (s.setBk b z).setF (Reg.BANK_CONVSTAT_STARVED b) (withBit (s.getF (Reg.BANK_CONVSTAT_STARVED b)) k false)

/-- CONVERSION_CYCLE: in cycle j of the slot each lane's slice converts its held value, or the injection node where the
opportunity is unused, and latches its code (R96 to R99, R106, R110). -/
def execConversionCycle (b : Fin 24) (cycle : Fin 5) (c0 c1 c2 c3 : BitVec 18) (s : State) : Res :=
  let pl := (s.bk b).plan
  if pl.live && pl.slot == s.now && s.heldAt s.now then
    .next ((List.range 4).foldl (fun t l =>
      let o := 4 * cycle.val + l
      let c := [c0, c1, c2, c3].getD l 0
      if pl.used o then
        let x := t.bk b
        t.setBk b { x with plan := { x.plan with codes := x.plan.codes.set (fun _ => none) o (some c) } }
      else t.inject b (sliceOf l s.now) c) s)
  else .next s

/-! ### One scale (R113) -/

/-- VALUE of a corrected value u in 2^-62: hold-half correction, the path's gain with the pair factor in 2^-20, offset, one
rounding and sat32 (R113, R382). -/
def scaleValue (h : HalfTerms) (p : ScaleTerms) (fine : Bool) (factor : Nat) (u : Int) : Int :=
  let w := (2 ^ 31 + h.e) * (u - h.d * 2 ^ 62)
  let den := if fine then 2 ^ 149 else 2 ^ 144
  satS 32 (roundEven ((2 ^ 31 + p.g) * (factor : Int) * w + p.o * (den : Nat)) den)

/-- The key of the hold-half terms of a position (16 to 18: the spare by range), path and half. -/
def halfKey (p : Nat) (fine : Bool) (h : Nat) : Nat := (p * 2 + b2n fine) * 2 + h
/-- The key of the scale terms of a position and path. -/
def scaleKey (p : Nat) (fine : Bool) : Nat := p * 2 + b2n fine

/-- VALUE of code c converted in slot n by a lane for a position's path (R113). -/
def BankSt.value (x : BankSt) (pl : SlotPlan) (lane p : Nat) (fine : Bool) (c : BitVec 18) : Int :=
  let u := sliceU (pl.slices.get (fun _ => {}) (sliceOf lane pl.slot)) (signed 18 c.toNat)
  scaleValue (x.halves.get (fun _ => {}) (halfKey p fine (pl.slot % 2))) (x.scales.get (fun _ => {}) (scaleKey p fine))
    fine x.factor u

/-- The own value of a position in a slot and its path: the rescue's code where it was rescued, else its own
opportunity's (R105). -/
def BankSt.ownValue (x : BankSt) (pl : SlotPlan) (p : Nat) : Option (Int × Bool) :=
  if pl.pins.testBit p then
    let i := pl.rescued.idxOf p
    if i < pl.rescued.length then
      match pl.codes.get (fun _ => none) (17 + i) with
      | some c => some (x.value pl (1 + i) p true c, true)
      | none => none
    else
      match pl.codes.get (fun _ => none) p with
      | some c => some (x.value pl (p % 4) p (pl.path.testBit p) c, pl.path.testBit p)
      | none => none
  else none

/-- The value of the spare path in a slot and its path. -/
def BankSt.spareValue (x : BankSt) (pl : SlotPlan) : Option (Int × Bool) :=
  match pl.codes.get (fun _ => none) 16 with
  | some c => some (x.value pl 0 (16 + pl.spareRange) (pl.path.testBit 16) c, pl.path.testBit 16)
  | none => none

/-- a · v + b of a substitution, rounded as in R113 (R407). -/
def Subst.apply (u : Subst) (v : Int) : Int :=
  satS 32 (roundEven (u.an * (u.bd : Int) * v + u.bn * (u.ad : Int)) (u.ad * u.bd))

/-! ### Offset tracking and starvation (R111, R112) -/

/-- One value of a path added to the sums of its slot's half (R111). -/
def HalfSums.add (h : HalfSums) (n : Nat) (v : Int) : HalfSums :=
  if n % 2 = 0 then { h with even := h.even + v, nEven := h.nEven + 1 }
  else { h with odd := h.odd + v, nOdd := h.nOdd + 1 }

/-- Half the difference of the even-slot and odd-slot means of a path, in steps of d, held to 2^-24 of coarse full scale per
window: 128 for the coarse path, 32 times as many steps for the fine path (R111; DEDUCED, log entry 12). -/
def HalfSums.step (h : HalfSums) (fine : Bool) : Int :=
  if h.nEven = 0 ∨ h.nOdd = 0 then 0
  else
    let k : Int := if fine then 32 else 1
    clampI (-(128 * k)) (128 * k)
      (roundEven (k * (h.even * (h.nOdd : Int) - h.odd * (h.nEven : Int))) (2 * h.nEven * h.nOdd))

/-- OFFSET_TRACK_UPDATE: at the end of a window of 2^18 slots the offset terms of both halves of every path follow the
means, and a new window begins. The first window begins with the acquisition (R111; DESIGN CHOICE, log entry 84). -/
def execOffsetTrackUpdate (b : Fin 24) (s : State) : Res :=
  let x := s.bk b
  if s.acquiring = false ∨ s.now < x.trackFrom + 2 ^ 18 then .next s
  else
  let hv := (List.range 38).foldl (fun m i =>
    let p := i / 2
    let fine := i % 2 == 1
    let st := (x.sums.get (fun _ => {}) i).step fine
    let put (m : Sparse HalfTerms) (h : Nat) (dd : Int) : Sparse HalfTerms :=
      let k := halfKey p fine h
      let o := m.get (fun _ => {}) k
      m.set (fun _ => {}) k { o with d := clampI (-(2 ^ 26)) (2 ^ 26) (o.d + dd) }
    put (put m 0 st) 1 (-st)) x.halves
  .next (s.setBk b { x with halves := hv, sums := [], trackFrom := s.now })

/-- CONV_STARVED: a slice without an injection for 2^18 slots is marked and logged; its coefficients hold. The slots count from the later of the
last injection and the entry into acquisition (R112; DESIGN CHOICE, log entry 84). -/
def execConvStarved (b : Fin 24) (slice : Fin 4) (s : State) : Res :=
  if s.acquiring = true ∧ Nat.max ((s.bk b).lastInj.get (fun _ => 0) slice) (s.mode.entry.getD 0) + 2 ^ 18 ≤ s.now ∧
      (s.getF (Reg.BANK_CONVSTAT_STARVED b)).testBit slice = false then
    .next ((s.setF (Reg.BANK_CONVSTAT_STARVED b) (withBit (s.getF (Reg.BANK_CONVSTAT_STARVED b)) slice true)).log
      .CONV_STARVED b [BitVec.ofNat 64 slice.val])
  else .next s

/-! ### References (R115 to R117, R122) -/

/-- The reference of bank b (24: of the fast channels) is enabled since a slot. -/
def State.refAt (s : State) (b : Nat) : Option Nat := if b = 24 then s.fabric.fastRefAt else (s.bk b).refOnAt

/-- SETTLED of bank b's reference (24: of the fast channels). -/
def State.refSettled (s : State) (b : Nat) : Bool := if b = 24 then s.fabric.fastSettled else s.flag (Reg.BANK_REF_SETTLED b)

/-- The slot from which the reference of bank b (24: of the fast channels) has been quiet, as far as its monitor reported (R116). -/
def State.quietFrom (s : State) (b : Nat) : Nat := if b = 24 then s.fabric.fastQuiet else (s.bk b).quietFrom

/-- The monitor counts its 256 quiet slots from the present one (R116). -/
def State.noQuiet (s : State) (b : Nat) : State :=
  if b = 24 then { s with fabric := { s.fabric with fastQuiet := s.now } } else s.setBk b { s.bk b with quietFrom := s.now }

/-- SETTLED set or cleared. -/
def State.setSettled (s : State) (b : Nat) (v : Bool) : State :=
  if b = 24 then { s with fabric := { s.fabric with fastSettled := v } } else s.setF (Reg.BANK_REF_SETTLED b) (b2n v)

/-- The reference of a bank is enabled afresh: SETTLED waits for its criterion (R116). -/
def State.enableRef (s : State) (b : Nat) : State :=
  if b = 24 then { s with fabric := { s.fabric with fastRefAt := some s.now, fastQuiet := s.now, fastSettled := false } }
  else (s.setBk b { s.bk b with refOnAt := some s.now, quietFrom := s.now, lateLogged := false }).setSettled b false

/-- The reference of a bank (24: of the fast channels) is off. -/
def State.disableRef (s : State) (b : Nat) : State :=
  if b = 24 then { s with fabric := { s.fabric with fastRefAt := none } } else s.setBk b { s.bk b with refOnAt := none }

/-- The references of the banks are off with their front ends (R31, R116). -/
def State.disableBankRefs (s : State) : State := (List.range 24).foldl (fun t b => t.disableRef b) s

/-- REFERENCE_SETTLED: the monitor has seen the reference vary by less than 2^-20 across 256 slots (R116). -/
def execReferenceSettled (b : Fin 25) (s : State) : Res :=
  if (s.refAt b).isSome = true ∧ s.quietFrom b + 256 ≤ s.now then .next (s.setSettled b true) else .next s

/-- REF_SETTLE_LATE: REF_EXT is not settled by the 5,000th slot (R116). -/
def execRefSettleLate (b : Fin 24) (s : State) : Res :=
  let x := s.bk b
  match x.refOnAt with
  | some t =>
    if t + 5000 ≤ s.now ∧ s.getF (Reg.BANK_REF_ACT b) = 1 ∧ s.refSettled b = false ∧ x.lateLogged = false then
      .next ((s.setBk b { x with lateLogged := true }).log .REF_SETTLE_LATE b [])
    else .next s
  | none => .next s

/-- REF_UNSTABLE: a variation above 2^-18 within 64 slots clears SETTLED and is logged, for the fast channels with unit 24; the 256 quiet slots count
afresh (R116, R122). -/
def execRefUnstable (b : Fin 25) (s : State) : Res :=
  let s1 := s.noQuiet b
  if s1.refSettled b then .next ((s1.setSettled b false).log .REF_UNSTABLE b []) else .next s1

/-- The reference a bank runs on at an entry into acquisition: SEL, but after a fallback from REF_EXT only where REF_EXT lies inside its window, for
which the block has no command: a free value says it (R115, R117, log entry 76). -/
def State.selectRef (s : State) (b : Nat) : State :=
  let sel := s.effF (Reg.BANK_REF_SEL b)
  if sel = 1 ∧ (s.bk b).fellBack = true then
    let (f, s1) := s.free
    if f.toNat % 2 = 1 then (s1.setBk b { s1.bk b with fellBack := false }).setF (Reg.BANK_REF_ACT b) 1
    else s1.setF (Reg.BANK_REF_ACT b) 0
  else (s.setBk b { s.bk b with fellBack := false }).setF (Reg.BANK_REF_ACT b) sel

/-- REF_FALLBACK: REF_EXT outside its window for 16 slots of acquisition switches the bank to the internal reference, and a
running calibration of the bank is abandoned and begins again once SETTLED is set (R117, R411). -/
def execRefFallback (b : Fin 24) (s : State) : Res :=
  if s.acquiring = true ∧ s.getF (Reg.BANK_REF_ACT b) = 1 then
    let s0 := s.setBk b { s.bk b with fellBack := true }
    let s1 := (((s0.setF (Reg.BANK_REF_ACT b) 0).setF (Reg.BANK_REF_FALLBACK b) 1).enableRef b).log .REF_FALLBACK b []
    let k := s1.cals.get (fun _ => {}) b
    if k.stage = 0 then .next s1
    else .next { s1 with cals := s1.cals.set (fun _ => {}) b { k with abandon := true, restart := true } }
  else .next s

/-! ### Register writes of this chapter -/

/-- The tests of a write to CH_CONV (R101, R119): the ranges from the most significant field down, the rules while
acquiring, the relation to AC excitation. -/
def State.checkChConv (s : State) (w : WCtx) (c : Nat) (v : W64) : Option Cond :=
  let avgn := bits v 47 40
  let sh := bits v 39 36
  let avg := bits v 35 35
  let changes := avgn != s.getF (Reg.CH_CONV_AVGN c) || sh != s.getF (Reg.CH_CONV_AVGSH c) || avg != s.getF (Reg.CH_CONV_AVG c)
  (firstFail [(!(avg == 1 && avgn == 0), .CH_AVG_RANGE), (decide (sh ≤ 8), .CH_AVG_RANGE),
    (bits v 27 20 != 0, .CH_PRED_RANGE), (decide (4 ≤ bits v 19 16), .CH_PRED_RANGE),
    (!(changes && s.acquiringAt w.slot && !w.isCfg), .CH_AVG_LIVE)]).orElse (fun _ =>
    if c < 384 ∧ avg = 1 ∧ s.getF (Reg.BANK_CFG_EXMODE (chBank c)) = 2 then some .CH_AVG_AC else none)

/-- The tests of a write to BANK_REF (R115). -/
def State.checkBankRef (s : State) (w : WCtx) (v : W64) : Option Cond :=
  firstFail [(bits v 1 0 != 3, .BANK_REF_SEL), (!s.acquiringAt w.slot, .BANK_REF_LIVE)]

/-- The tests of a write to FC_CFG (R121). -/
def State.checkFcCfg (s : State) (w : WCtx) (v : W64) : Option Cond :=
  firstFail [(decide (bits v 7 6 < 2), .FC_TERM), (decide (bits v 5 4 < 2), .FC_BW), (!s.acquiringAt w.slot, .FC_CFG_LIVE)]

end Sys2Proof.Machine
end

