-- ==== Sys2Proof/Machine/Filter.lean ====
section
/-!
DEFINITION. Sys2Proof/Machine/Filter.lean: the filter pipeline as functions of the raw samples and the settings: settings in
force, output instants, windows, demodulation, CIC, FIR, fractional delay, rotation, average mode, detectors
(R118, R119, R123 to R147), and the coefficient sets and SYNC_N (R133 to R140).
-/
namespace Sys2Proof.Machine
open Sys2Proof

/-- A channel's pipeline. -/
def State.flt (s : State) (c : Nat) : FltSt := s.flts.get (fun _ => {}) c
/-- A channel's pipeline replaced. -/
def State.setFlt (s : State) (c : Nat) (x : FltSt) : State := { s with flts := s.flts.set (fun _ => {}) c x }

/-! ### Settings and instants -/

/-- The settings of a channel in force now. A fast channel has no excitation and no bank (R150). -/
def State.fltNow (s : State) (c : Nat) : FltSet :=
  let b := chBank c
  let std := decide (c < 384)
  { preset := s.effF (Reg.CH_FLT_PRESET c), avg := s.effFlag (Reg.CH_CONV_AVG c)
    n := s.effF (Reg.CH_CONV_AVGN c) + 1, sh := s.effF (Reg.CH_CONV_AVGSH c)
    delta := s.effS (Reg.CH_FD_DELAY c) * 256 + (s.effF (Reg.CH_FD_TRIM c) : Int)
    phi := s.effS (Reg.CH_FLT_PHI c), w := s.effF (Reg.CH_FLT_DETW c) + 1
    pk := s.effFlag (Reg.CH_FLT_PK c), rms := s.effFlag (Reg.CH_FLT_RMS c), env := s.effFlag (Reg.CH_FLT_ENV c)
    ac := std && s.exMode b == 2 && s.effFlag (Reg.CH_EXCFG_EXEN c)
    k := if std then s.carrierK b else 25, aaf := if std then s.effF (Reg.CH_CFG_AAF c) else 0
    s0 := if std then (s.reg (Reg.BANK_PHASE b)).toNat else 0 }

/-- R_c of a preset: D / 4 (R126). -/
def presetR (p : Nat) : Nat := presetD p / 4

/-- The spacing of the output instants: N in average mode, D of the preset else (R118, R130). -/
def FltSet.spacing (x : FltSet) : Nat := if x.avg then x.n else presetD x.preset

/-- m is an output instant under a setting and a decimator phase P (R118, R130). -/
def FltEntry.instant (e : FltEntry) (m : Nat) : Bool :=
  if e.set.avg then m % e.set.n == 0 else ((m : Int) - (e.grid : Int)) % (presetD e.set.preset : Int) == 0

/-- m is a detector instant (R142). -/
def FltEntry.detInstant (e : FltEntry) (m : Nat) : Bool :=
  if e.set.avg then m % (e.set.w * e.set.n) == 0
  else ((m : Int) - (e.grid : Int)) % ((e.set.w * presetD e.set.preset : Nat) : Int) == 0

/-- i = ⌊m − 3 − δ⌋ and the 16-bit fraction μ of R136. -/
def delaySplit (m : Nat) (delta : Int) : Int × Nat :=
  let p := ((m : Int) - 3) * 65536 - delta
  (Int.fdiv p 65536, (p % 65536).toNat)

/-- The filter window of output instant m: its first and last raw slot (R118, R132). -/
def FltSet.window (x : FltSet) (m : Nat) : Int × Int :=
  if x.avg then ((m : Int) - (x.n : Int) + 1, m)
  else
    let i := (delaySplit m x.delta).1
    (i + 2 - 259 * (presetR x.preset : Int), i + 3)

/-- The least instant from slot lo on. -/
def FltEntry.nextInstant (e : FltEntry) (lo : Int) : Int :=
  let p : Int := if e.set.avg then 0 else e.grid
  lo + (p - lo) % (e.set.spacing : Int)

/-- The greatest instant up to slot hi. -/
def FltEntry.lastInstant (e : FltEntry) (hi : Int) : Int :=
  let p : Int := if e.set.avg then 0 else e.grid
  hi - (hi - p) % (e.set.spacing : Int)

/-- The first instant whose window begins at slot lo or after it (R132). -/
def FltEntry.firstFrom (e : FltEntry) (lo : Int) : Int := e.nextInstant (lo - (e.set.window 0).1)

/-- The settings in force for instant m with those that follow them. -/
def FltSt.entryAt (f : FltSt) (m : Nat) : Option (FltEntry × Option FltEntry) :=
  (f.sets.foldl (fun (r : Option (FltEntry × Option FltEntry) × Option FltEntry) e =>
    match r.1 with
    | some _ => r
    | none => if e.start ≤ m then (some (e, r.2), r.2) else (none, some e)) (none, none)).1

/-- A change of settings that restarts the detectors (R147). -/
def detChange (a b : FltEntry) : Bool :=
  a.set.preset != b.set.preset || a.set.w != b.set.w || a.set.pk != b.set.pk || a.set.rms != b.set.rms
    || a.set.env != b.set.env || a.grid != b.grid || a.set.avg != b.set.avg || a.set.n != b.set.n

/-- A change of average mode or of its numbers (R119). -/
def avgChange (a b : FltSet) : Bool :=
  a.avg != b.avg || ((a.avg || b.avg) && (a.n != b.n || a.sh != b.sh))

/-- The settings of a channel recorded as in force from slot t on, where they changed; `regrid` a restart of the grid at t
(R119, R129, R133, R135). -/
def FltSt.record (f : FltSt) (t : Nat) (x : FltSet) (grid : Nat) (regrid : Bool) : FltSt :=
  match f.sets with
  | [] => { f with sets := [{ start := t, winFrom := t, cut := false, det := none, grid := grid, set := x }] }
  | e :: rest =>
    if e.set = x ∧ e.grid = grid then f
    else
      let av := avgChange e.set x
      let y : FltEntry :=
        { start := t, winFrom := if av || (regrid && !x.avg) then t else e.winFrom, cut := av || (e.cut && e.start == t)
          det := none, grid := grid, set := x }
      let z := { y with det := if detChange e y then some t else e.det }
      { f with sets := z :: (if e.start = t then rest else e :: rest) }

/-- The decimator phase P (R133). -/
def State.gridP (s : State) : Nat := s.getF Reg.FLT_SYNC_PHASE

/-- The settings of every channel recorded from slot t on, where they changed. -/
def State.recordSettings (s : State) (t : Nat) (regrid : Bool) : State :=
  (List.range 392).foldl (fun u c =>
    let f := u.flt c
    match f.sets with
    | [] => u
    | _ => u.setFlt c (f.record t (u.fltNow c) u.gridP regrid)) s

/-- At the entry into acquisition at slot t every channel starts anew: its acquisition start is t + 64 (R36). -/
def State.startFilters (s : State) (t : Nat) : State :=
  (List.range 392).foldl (fun u c =>
    let f := u.flt c
    let e : FltEntry := { start := t, winFrom := t + 64, cut := false, det := none, grid := u.gridP, set := u.fltNow c }
    u.setFlt c { f with sets := e :: f.sets, outs := [] }) s

/-! ### From raw samples to y (R123 to R127) -/

/-- The raw sample of a slot, 0 where there is none. -/
def FltSt.x (f : FltSt) (n : Int) : Int :=
  match f.raws.get (fun _ => none) n.toNat with
  | some r => if n < 0 then 0 else r.value
  | none => 0

/-- An integer held to n bits of two's complement: it wraps. -/
def wrapS (n : Nat) (i : Int) : Int := signed n (unsigned n i)

/-- I_n (or Q_n) of a raw slot with 8 fraction bits in 40 bits, in which a demodulated value beyond them wraps: demodulated for AC, scaled up else
(R123, R124; DEDUCED, log entry 86). -/
def FltSt.iq (f : FltSt) (x : FltSet) (quad : Bool) (n : Int) : Int :=
  if x.ac then
    let j := ((n - (x.s0 : Int)) % (x.k : Int)).toNat
    wrapS 40 (roundEven (f.x n * (if quad then demodCos j x.k else demodSin j x.k)) (2 ^ 14))
  else if quad then 0 else f.x n * 2 ^ 8

/-- The weight of a raw slot d slots before the newest in four cascaded boxcars of R slots: the number of ways to write d as
four numbers below R (R127). -/
def cicWeight (r d : Nat) : Int :=
  let c (n : Int) : Int := if n < 0 then 0 else (n + 3) * (n + 2) * (n + 1) / 6
  let e (i : Nat) : Int := c ((d : Int) - ((i * r : Nat) : Int))
  e 0 - 4 * e 1 + 6 * e 2 - 4 * e 3 + e 4

/-- The CIC output whose last boxcar ends at raw slot t, in 40 bits (R123, R127). -/
def FltSt.cic (f : FltSt) (x : FltSet) (quad : Bool) (t : Int) : Int :=
  let r := presetR x.preset
  wrapS 40 (roundEven (((List.range (4 * r - 3)).map (fun d => cicWeight r d * f.iq x quad (t - (d : Int)))).sum) (r ^ 4))

/-- The FIR output at raw slot t with coefficients h (R127). -/
def FltSt.fir (f : FltSt) (x : FltSet) (h : Nat → Int) (quad : Bool) (t : Int) : Int :=
  satS 40 (roundEven (((List.range 256).map (fun k =>
    h k * f.cic x quad (t - ((k * presetR x.preset : Nat) : Int)))).sum) (2 ^ 23))

/-- The 24-bit quintic Lagrange weight w_j of R136 for j = −2 to 3 and fraction μ / 65,536. -/
def quinticWeight (mu : Nat) (j : Int) : Int :=
  let others := ([-2, -1, 0, 1, 2, 3] : List Int).filter (fun k => k != j)
  let num := others.foldl (fun a k => a * ((mu : Int) - k * 65536)) 1
  let den := others.foldl (fun a k => a * ((j - k) * 65536)) 1
  if 0 < den then roundEven (num * 2 ^ 22) den.toNat else roundEven (-num * 2 ^ 22) (-den).toNat

/-- The quintic interpolation of six values y(i − 2) to y(i + 3) (R136). -/
def quintic (mu : Nat) (y : Int → Int) : Int :=
  satS 40 (roundEven ((([-2, -1, 0, 1, 2, 3] : List Int).map (fun j => quinticWeight mu j * y j)).sum) (2 ^ 22))

/-- z of output instant m (R136). -/
def FltSt.delayed (f : FltSt) (x : FltSet) (h : Nat → Int) (quad : Bool) (m : Nat) : Int :=
  let (i, mu) := delaySplit m x.delta
  quintic mu (fun j => f.fir x h quad (i + j))

/-- The rotation constants C = a·cos φ and S = a·sin φ with 22 fraction bits (R125): with x = f_c / f_AAF = 5·2^AAF / 2K,
a·cos φ = (1 − x²)·cos β + √2·x·sin β and a·sin φ = (1 − x²)·sin β − √2·x·cos β, β = 2π·PHI / 65,536. -/
def rotation (x : FltSet) : Int × Int :=
  let n : Int := (5 * 2 ^ x.aaf : Nat)
  let d : Int := (2 * x.k : Nat)
  let cb := cosOf x.phi 65536
  let sb := sinOf x.phi 65536
  let u := (d * d - n * n) * 2 ^ 96
  let v := sqrt2 * n * d
  let den := 2 ^ 170 * (d * d).toNat
  (roundEven (u * cb + v * sb) den, roundEven (u * sb - v * cb) den)

/-- VALUE, I′ and Q′ of output instant m (R118, R123, R125). -/
def FltSt.output (f : FltSt) (x : FltSet) (h : Nat → Int) (m : Nat) : Int × Int × Int :=
  if x.avg then
    let sum := ((List.range x.n).map (fun d : Nat => f.x ((m : Int) - (d : Int)))).sum
    (satS 32 (roundEven sum (2 ^ x.sh)), 0, 0)
  else
    let zi := f.delayed x h false m
    if x.ac then
      let zq := f.delayed x h true m
      let (c, s) := rotation x
      let ip := satS 40 (roundEven (zi * c + zq * s) (2 ^ 22))
      let qp := satS 40 (roundEven (zq * c - zi * s) (2 ^ 22))
      (satS 32 (roundEven ip (2 ^ 8)), ip, qp)
    else (satS 32 (roundEven zi (2 ^ 8)), zi, 0)

/-! ### Which words are delivered, and their flags (R36, R119, R129, R132, R133, R436) -/

/-- The raw slots of a window, as a list; none where it reaches below slot 0. -/
def windowSlots (w : Int × Int) : Option (List Nat) :=
  if w.1 < 0 then none else some ((List.range (w.2 - w.1 + 1).toNat).map (fun d => w.1.toNat + d))

/-- The raw samples of a window; none where one is missing. -/
def FltSt.windowRaws (f : FltSt) (w : Int × Int) : Option (List Raw) :=
  match windowSlots w with
  | none => none
  | some l => l.mapM (fun n => f.raws.get (fun _ => none) n)

/-- The window flags WIRE, COARSE, SUBST, HANDOVER and EXLIM of raw samples: bits 6 to 2 (R132). -/
def orFlags (l : List Raw) : Nat := l.foldl (fun a r => a ||| (r.flags &&& 0b1111100)) 0

/-- A sample word (R11): VALUE, CHAN, FLAGS, SLOT_LO. -/
def sampleWord (value : Int) (chan flags m : Nat) : W64 :=
  BitVec.ofNat 64 ((unsigned 32 value) <<< 32 + (chan % 512) <<< 23 + (flags % 128) <<< 16 + m % 65536)

/-- The channel delivers words: it is enabled, and not removed from delivery (R436). -/
def State.delivers (s : State) (c m : Nat) : Bool :=
  (if c < 384 then s.chOn c else s.effFlag (Reg.FC_CFG_EN (c - 384))) &&
  (match (s.ch c).lost with
    | some l => decide (m < l) || decide (384 ≤ c)
    | none => true)

/-- The raw samples that give channel c an output word at instant m under a setting, with the one that follows it; none where it delivers none. -/
def State.outputUnder (s : State) (c m : Nat) (e : FltEntry) (nxt : Option FltEntry) : Option (FltEntry × Option FltEntry × List Raw) :=
  let w := e.set.window m
  let cutOk := match nxt with
    | some g => !g.cut || decide (w.2 < (g.start : Int))
    | none => true
  if e.instant m && s.acquired m && s.delivers c m && decide ((e.winFrom : Int) ≤ w.1) && cutOk then
    ((s.flt c).windowRaws w).map (fun l => (e, nxt, l))
  else none

/-- The settings and raw samples that give channel c an output word at instant m; none where it delivers none. After a change of average mode an
instant of the old setting whose window ended before the change is delivered yet, where the new setting delivers none for the same instant (R119;
DESIGN CHOICE, log entry 86). -/
def State.outputAt (s : State) (c m : Nat) : Option (FltEntry × Option FltEntry × List Raw) :=
  let f := s.flt c
  match f.entryAt m with
  | none => none
  | some (e, nxt) =>
    (s.outputUnder c m e nxt).orElse (fun _ =>
      match f.sets.filter (fun g => decide (g.start < e.start)) with
      | o :: _ => if e.cut then s.outputUnder c m o (some e) else none
      | [] => none)

/-- REFU and CLIP of a word with a window: some raw slot of it was taken with the reference unsettled, or with the input
clipped (R312). -/
def FltSt.marks (f : FltSt) (w : Int × Int) : Bool × Bool :=
  match windowSlots w with
  | none => (false, false)
  | some l =>
    let rs := l.filterMap (fun n => f.raws.get (fun _ => none) n)
    (rs.any (fun r => r.refu), rs.any (fun r => r.clip))

/-! ### Detectors (R141 to R147) -/

/-- The RMS word of values: s saturates at 2^64 − 1 (R144). -/
def rmsOf (vals : List Int) : Int :=
  let s := capAt (2 ^ 64 - 1) ((vals.map (fun v => let u := roundEven v 32; (u * u).toNat)).sum)
  (capAt (2 ^ 31 - 1) (32 * roundSqrt s (Nat.max 1 vals.length)) : Nat)

/-- The Hilbert coefficient g_k of 0 to 62, antisymmetric. The manual does not give its number format; it is taken as that of h_k, a signed 24-bit number
in 2^-23 (R145; DESIGN CHOICE, log entry 5). -/
def hilbert (k : Nat) : Int :=
  if k < 31 then signed 24 (Config.hilbertTap k).toNat
  else if k = 31 then 0 else -(signed 24 (Config.hilbertTap (62 - k)).toNat)

/-- The envelope of an AC output (R145). -/
def envAc (ip qp : Int) : Int := (capAt (2 ^ 31 - 1) (roundSqrt ((ip * ip + qp * qp).toNat) (2 ^ 16)) : Nat)

/-- The Hilbert envelope of 63 values, newest first (R145). -/
def envDc (vals : List Int) : Int :=
  let a := vals.getD 31 0 * 2 ^ 23
  let b := ((List.range 63).map (fun k => hilbert k * vals.getD k 0)).sum
  (capAt (2 ^ 31 - 1) (roundSqrt ((a * a + b * b).toNat) (2 ^ 46)) : Nat)

/-! ### Coefficients (R138 to R140) -/

/-- The coefficient state of a bank. -/
def State.coef (s : State) (b : Nat) : CoefSt := s.coefs.get (fun _ => {}) b
/-- The coefficient state of a bank replaced. -/
def State.setCoef (s : State) (b : Nat) (x : CoefSt) : State := { s with coefs := s.coefs.set (fun _ => {}) b x }

/-- The default coefficient h_k of a preset in on-die ROM; the default sets are linear-phase (R127, R138). -/
def defaultTap (preset k : Nat) : Int := signed 24 (Config.romTap preset (if k < 128 then k else 255 - k)).toNat

/-- Coefficient h_k of a set and preset; unlisted ones are the ROM defaults (R138). -/
def CoefSt.tap (x : CoefSt) (set preset k : Nat) : Int :=
  (x.taps.get (fun _ => none) (2048 * set + 256 * preset + k)).getD (defaultTap preset k)

/-- The set that computes output instant m of a bank (R140). -/
def CoefSt.setAt (x : CoefSt) (m : Nat) : Nat :=
  match x.swaps.find? (fun w => decide (w.1 ≤ m)) with
  | some w => w.2
  | none => 0

/-- The coefficients that compute output instant m of a channel; the fast-channel pipeline has the defaults
(DEDUCED, log entry 6). -/
def State.tapsFor (s : State) (c preset m : Nat) : Nat → Int :=
  if c < 384 then
    let x := s.coef (chBank c)
    x.tap (x.setAt m) preset
  else defaultTap preset

/-- A port's FLT_COEF_PTR fields: bank, set, preset, tap. -/
def State.coefPtr (s : State) (port : Nat) : Nat × Nat × Nat × Nat :=
  let v := s.copy port Reg.FLT_COEF_PTR
  (bits v 28 24, bits v 20 20, bits v 18 16, bits v 7 0)

/-- FLT_COEF_PTR advanced by a data access: TAP wraps from 255 to 0 and advances PRESET; what PRESET does past 5 is not
stated and is a free value of 0 to 5 (R139, log entry 7). -/
def State.advanceCoef (s : State) (port : Nat) : State :=
  let v := s.copy port Reg.FLT_COEF_PTR
  let tap := bits v 7 0
  let preset := bits v 18 16
  if tap < 255 then s.setCopy port Reg.FLT_COEF_PTR (setBits v 7 0 (tap + 1))
  else if preset < 5 then s.setCopy port Reg.FLT_COEF_PTR (setBits (setBits v 7 0 0) 18 16 (preset + 1))
  else
    let (f, s1) := s.free
    s1.setCopy port Reg.FLT_COEF_PTR (setBits (setBits v 7 0 0) 18 16 (f.toNat % 6))

/-- FLT_COEF_DATA as a port reads it (R139). -/
def State.coefRead (s : State) (port : Nat) : W64 :=
  let (b, set, preset, tap) := s.coefPtr port
  BitVec.ofNat 64 (unsigned 24 ((s.coef b).tap set preset tap))

/-- A write of FLT_COEF_DATA: refused into the active set or a set whose swap is pending; else the coefficient is taken, READY
clears and the pointer advances. The configuration loads set A before it is active at start-up, READY being that of set B (R138, R139). A refused
write leaves TAP as it is (DESIGN CHOICE, log entry 7). -/
def State.coefWrite (s : State) (port : Nat) (v : W64) : WriteRes :=
  let (b, set, preset, tap) := s.coefPtr port
  let active := decide (set = s.getF (Reg.FLT_BSTAT_ACTIVE b))
  let loads := active && port == cfgPort && s.mode.phase == .lanes
  if (active && !loads) || s.flag (Reg.FLT_BSTAT_PENDV b) then
    s.refuse .FLT_COEF_ACTIVE b Reg.FLT_COEF_DATA port
  else
    let x := s.coef b
    let s1 := s.setCoef b { x with
      taps := x.taps.set (fun _ => none) (2048 * set + 256 * preset + tap) (some (signed 24 (bits v 23 0))) }
    ((if loads then s1 else s1.setF (Reg.FLT_BSTAT_READY b) 0).advanceCoef port, none)

/-- A write of FLT_COEF_PTR: the bank and preset must exist; COMMIT = 1 needs operator authority and marks the bank's
inactive set ready (R139, R456). -/
def State.coefPtrWrite (s : State) (port : Nat) (v : W64) : WriteRes :=
  let commit := bit v 31
  if commit = true ∧ s.classOf port < 1 then s.refuse .SYS_AUTH_DENIED 0 Reg.FLT_COEF_PTR port
  else if 24 ≤ bits v 28 24 then s.refuse .FLT_COEF_BANK 0 Reg.FLT_COEF_PTR port
  else if 6 ≤ bits v 18 16 then s.refuse .SYS_FIELD_RANGE 0 Reg.FLT_COEF_PTR port
  else
    let s1 := s.setCopy port Reg.FLT_COEF_PTR (v &&& 0x1F1700FF#64)
    (if commit then s1.setF (Reg.FLT_BSTAT_READY (bits v 28 24)) 1 else s1, none)

/-- A swap request, tested in the order of R140 and scheduled. -/
def State.swapRequest (s : State) (port : Nat) (at_ : Bool) (banks : Nat) : WriteRes :=
  let bs := bitsSet 24 banks
  let t := if at_ then (s.copy port Reg.FLT_SWAP_AT).toNat else s.now + 16
  let u := bs.getD 0 0
  if s.classOf port < 1 then s.refuse .SYS_AUTH_DENIED 0 Reg.FLT_SWAP_REQ port
  else match firstFail [(bs.all (fun b => s.flag (Reg.FLT_BSTAT_READY b)), .FLT_SWAP_NOTREADY),
      (bs.all (fun b => !s.flag (Reg.FLT_BSTAT_PENDV b)), .FLT_SWAP_BUSY), (decide (s.now + 16 ≤ t), .FLT_SWAP_LATE)] with
    | some c => s.refuse c u Reg.FLT_SWAP_REQ port
    | none => (bs.foldl (fun r b => (r.setF (Reg.FLT_BSTAT_PENDV b) 1).setCoef b { r.coef b with swapAt := some t }) s, none)

/-- A pending swap of a bank takes effect in the present slot where it is named for it (R140). -/
def State.swapBank (s : State) (b : Nat) : State :=
  let x := s.coef b
  match x.swapAt with
  | some t =>
    if t ≤ s.now then
      let a := 1 - s.getF (Reg.FLT_BSTAT_ACTIVE b)
      let s1 := s.setCoef b { x with swapAt := none, swaps := (t, a) :: x.swaps }
      ((((s1.setF (Reg.FLT_BSTAT_PENDV b) 0).setF (Reg.FLT_BSTAT_ACTIVE b) a).setF (Reg.FLT_BSTAT_READY b) 1).setReg
        (Reg.FLT_SWAP_SLOT b) (BitVec.ofNat 64 t))
    else s
  | none => s

/-- COEF_DATA_ACCESS: a read returns the coefficient and advances the pointer; a write needs operator authority
(R139, R456). -/
def execCoefDataAccess (port : Port) (write : Option W64) (s : State) : Res :=
  match write with
  | none => s.whenReads port Reg.FLT_COEF_DATA (.next (s.advanceCoef port))
  | some v => s.whenOpen port Reg.FLT_COEF_DATA <| if s.classOf port < 1 then .next (s.logRefusal .SYS_AUTH_DENIED 0 Reg.FLT_COEF_DATA port)
    else .next (s.coefWrite port v).1

/-- COEF_COMMIT: a write of FLT_COEF_PTR with COMMIT = 1 (R139). -/
def execCoefCommit (port : Port) (ptr : W64) (s : State) : Res :=
  s.whenOpen port Reg.FLT_COEF_PTR <| .next (s.coefPtrWrite port (setBits ptr 31 31 1)).1

/-- SWAP_REQUEST: a write of FLT_SWAP_REQ (R140). -/
def execSwapRequest (port : Port) (at_ : Bool) (banks : BitVec 24) (s : State) : Res :=
  s.whenOpen port Reg.FLT_SWAP_REQ <|
  .next (s.swapRequest port at_ banks.toNat).1

/-- A coefficient swap is due that has not taken effect yet. -/
def State.swapDue (s : State) : Bool :=
  (List.range 24).any (fun b => match (s.coef b).swapAt with
    | some t => decide (t ≤ s.now)
    | none => false)

/-- COEFFICIENT_SWAP: at the named slot the named banks make the other set active, after an overlay activation and a mode transition
of that slot (R28, R41, R140). -/
def execCoefficientSwap (s : State) : Res :=
  if s.overlayDue || (s.modeDue && s.mode.pendCause != 4) then .next s else .next ((List.range 24).foldl (fun t b => t.swapBank b) s)

/-! ### SYNC_N (R133, R134) -/

/-- SYNC_N_EDGE: a filtered falling edge names the restart slot while the hub is standalone; while a time base is locked it is
counted and ignored (R133, R134). -/
def execSyncNEdge (s : State) : Res :=
  if s.anyLocked then .next ((s.bump Reg.FLT_SYNC_IGNORED).log .FLT_SYNC_IGNORED 0 [])
  else
    let t := if s.clk.tick < 12000 then s.now + 1 else s.now + 2
    if s.fabric.gridAt.contains t then .next s else .next { s with fabric := { s.fabric with gridAt := s.fabric.gridAt ++ [t] } }

/-- The first instant of a preset's new grid whose window begins at or after t, with δ = 0 (R132, R133). -/
def firstNew (p preset t : Nat) : Nat :=
  let d := presetD preset
  let lo := t + 1 + 259 * presetR preset
  lo + (d - ((lo + 8192 - p) % d)) % d

/-- A channel's outputs pause at a restart of the grid at slot t: from the last instant of the old grid before t to the first of the new one
whose window begins at or after t (R133). -/
def FltSt.regridGap (f : FltSt) (t : Nat) : FltSt :=
  match f.sets with
  | e :: o :: _ =>
    if e.start = t ∧ e.winFrom = t ∧ o.grid ≠ e.grid then
      { f with gaps := ((o.lastInstant ((t : Int) - 1)).toNat, (e.firstFrom t).toNat) :: f.gaps }
    else f
  | _ => f

/-- GRID_RESTART: at the named slot t, P becomes t mod 8,192; where it differs, every channel outside average mode goes on at
the new grid's first instant whose window begins at or after t; FLT_SYNC is logged with t and, where the grid
restarted, the first new instant of each preset in use. An overlay activation of that slot comes first (R133, R134). -/
def execGridRestart (s : State) : Res :=
  match s.fabric.gridAt with
  | [] => .next s
  | t :: rest =>
    if s.now < t ∨ s.overlayDue = true then .next s
    else
      let p := t % 8192
      let s1 : State := { s with fabric := { s.fabric with gridAt := rest } }
      if p = s1.gridP then .next (s1.log .FLT_SYNC 0 [BitVec.ofNat 64 t])
      else
        let s2 := ((s1.setF Reg.FLT_SYNC_PHASE p).setF Reg.FLT_SYNC_PSET (b2n (p != 0))).recordSettings t true
        let used := (List.range 6).filter (fun r => (List.range 392).any (fun c =>
          s2.delivers c t && !(s2.fltNow c).avg && (s2.fltNow c).preset == r))
        let s3 := (List.range 392).foldl (fun u c => if u.delivers c t then u.setFlt c ((u.flt c).regridGap t) else u) s2
        .next (s3.log .FLT_SYNC 0 (BitVec.ofNat 64 t :: used.map (fun r => BitVec.ofNat 64 (firstNew p r t))))

/-! ### Register writes of this chapter -/

/-- The tests of a write to CH_FLT (R126, R129, R141, R128). The lead of a record that changes PRESET is judged from the slot
of the request (R129). -/
def State.checkChFlt (s : State) (w : WCtx) (c : Nat) (v : W64) : Option Cond :=
  let pr := bits v 2 0
  let live := pr != s.getF (Reg.CH_FLT_PRESET c) || bits v 51 40 != s.getF (Reg.CH_FLT_DETW c)
    || bits v 34 32 != bits (s.reg (Reg.CH_FLT c)) 34 32
  let lead := !(w.isCfg && s.acquiringAt w.slot && pr != s.getF (Reg.CH_FLT_PRESET c)
    && decide (w.slot < w.asked + 259 * presetR pr + 2 + 16))
  (firstFail [(bits v 51 40 != 0, .CH_DETW), (decide (pr < 6), .CH_PRESET),
    (!(live && s.acquiringAt w.slot && !w.isCfg), .CH_FLT_LIVE), (lead, .CH_FLT_LIVE)]).orElse (fun _ =>
    if c < 384 then
      acOk (s.getF (Reg.BANK_CFG_EXMODE (chBank c))) (s.getF (Reg.CH_EXCFG_EXEN c)) (s.getF (Reg.BANK_CFG_K (chBank c)))
        (s.getF (Reg.CH_CFG_AAF c)) pr
    else none)

/-- The tests of a write to CH_FD: −4 ≤ δ ≤ 4 (R135). -/
def checkChFd (v : W64) : Option Cond :=
  let d := signed 12 (bits v 27 16) * 256 + (bits v 7 0 : Int)
  firstFail [(decide (-262144 ≤ d) && decide (d ≤ 262144), .CH_FD_RANGE)]

end Sys2Proof.Machine
end

