-- ==== Sys2Proof/Machine/HostOps.lean ====
section
/-!
DEFINITION. Sys2Proof/Machine/HostOps.lean: frames of the hub's own on their way to an egress port, and how a command of a
lane is served: repeats, mode, authority, response (R285, R296, R302, R347 to R360).
-/
namespace Sys2Proof.Machine
open Sys2Proof

/-! ### Lanes and frames of the hub -/

/-- LANE_STAT.STATE is UP. -/
def State.laneUp (s : State) (l : Nat) : Bool := s.getF (Reg.LANE_STAT_STATE l) == 4

/-- The redundancy group of a lane, 0 for none. -/
def State.laneGroup (s : State) (l : Nat) : Nat := s.getF (Reg.LANE_CFG_GROUP l)

/-- The lane in the role of the pair link. -/
def State.pairRole (s : State) (l : Nat) : Bool := s.getF (Reg.LANE_CFG_ROLE l) == 2

/-- The lane that carries what is sent to lane l: the active member of its group, l itself outside a group (R285). -/
def State.carrier (s : State) (l : Nat) : Nat :=
  if s.laneGroup l = 0 then l
  else ((List.range 4).find? (fun k => s.laneGroup k == s.laneGroup l && s.flag (Reg.LANE_STAT_ACTIVE k))).getD l

/-- A lane may carry what is sent to its group: it lies outside a group, or is the active member (R285, R286). -/
def State.laneCarries (s : State) (p : Nat) : Bool := s.laneGroup p == 0 || s.flag (Reg.LANE_STAT_ACTIVE p)

/-- The hub's own PTP messages and configuration beacons, which every member of a group sends for itself (R285). -/
def TxFrame.own (f : TxFrame) : Bool := f.origin == 4 && (f.ptp.isSome || f.dst == 0x034E50000001)

/-- The root ticks a frame of so many octets with its FCS takes on the wire at a lane rate, with preamble and gap, 20 octets: 8 bits of 3.2,
0.32 or 0.128 ticks an octet (R274; the example of R303, DEDUCED, log entry 18). -/
def frameTicks (rate octets : Nat) : Nat :=
  (octets + 20) * (if rate = 3 then 128 else if rate = 2 then 320 else 3200) / 125

/-- The frames that wait at an egress port. -/
def State.egressOf (s : State) (p : Nat) : List TxFrame := s.sw.egress.get (fun _ => []) p

/-- The egress queue of a port replaced. -/
def State.setEgress (s : State) (p : Nat) (l : List TxFrame) : State :=
  { s with sw := { s.sw with egress := s.sw.egress.set (fun _ => []) p l } }

/-- A frame put at the end of an egress port's queue. -/
def State.pushFrame (s : State) (p : Nat) (f : TxFrame) : State := s.setEgress p (s.egressOf p ++ [f])

/-- The octets that an encapsulation adds to a Neilpol payload: header, tag, IP and UDP headers, FCS (R302). -/
def encapOctets (encap : Nat) : Nat := 22 + (if encap = 1 then 28 else if encap = 2 then 48 else 0)

/-- A Neilpol frame of the hub for a destination through a lane, in the encapsulation of SW_CFG.ENCAP (R301, R302). -/
def State.neilFrame (s : State) (prio dst vid : Nat) (words : List W64) : TxFrame :=
  { origin := 4, prio := prio, dst := dst, src := s.getF Reg.SW_MAC_MAC, etype := s.getF Reg.SW_CFG_ETYPE
    vid := vid, tagged := false, encap := s.getF Reg.SW_CFG_ENCAP, words := words
    octets := 8 * words.length + encapOctets (s.getF Reg.SW_CFG_ENCAP), ptp := none, rx := 0, corr := 0 }

/-- A Neilpol frame of the hub queued at the egress port of a lane's carrier, in the port's PVID. -/
def State.sendNeil (s : State) (l prio dst : Nat) (words : List W64) : State :=
  let p := s.carrier l
  s.pushFrame p (s.neilFrame prio dst (s.getF (Reg.SW_PORT_PVID p)) words)

/-! ### Host contexts -/

/-- A lane's host context. -/
def State.hostOf (s : State) (l : Nat) : HostSt := s.hosts.get (fun _ => {}) l
/-- A lane's host context replaced. -/
def State.setHost (s : State) (l : Nat) (x : HostSt) : State := { s with hosts := s.hosts.set (fun _ => {}) l x }

/-- What a command comes to: the state after it, its STATUS, DETAIL and response words (R358). -/
structure Answer where
  st     : State
  status : Nat := 0
  detail : Nat := 0
  words  : List W64 := []

/-- Refused for authority: logged as SYS_AUTH_DENIED with the OP (R461). -/
def State.denied (s : State) (op port : Nat) : Answer := { st := s.logRefusal .SYS_AUTH_DENIED 0 op port, status := 1 }

/-- Refused under a condition: logged with the OP (R461). -/
def State.refused (s : State) (c : Cond) (unit op port : Nat) : Answer := { st := s.logRefusal c unit op port, status := 2 }

/-- Answered ILLEGAL. -/
def State.illegal (s : State) : Answer := { st := s, status := 3 }

/-- The response frame's words (R358). -/
def Resp.frame (r : Resp) : List W64 :=
  BitVec.ofNat 64 (0x15 <<< 56 + r.op <<< 48 + r.tag <<< 32 + r.words.length <<< 24 + r.status <<< 16 + r.detail) :: r.words

/-- The words of a command frame with header h, OP and operands (R356). -/
def cmdFrame (h : CmdHdr) (op : Nat) (ops : List W64) : List W64 :=
  BitVec.ofNat 64 (0x14 <<< 56 + op <<< 48 + h.tag.toNat <<< 32 + ops.length <<< 24 + b2n h.sub <<< 23) :: ops

/-- An OP is served in the present mode: before host service only a READ of the SYS block, in Descent reads and replay from every port
and the rest from a maintenance port, in Bivouac UPD_STATUS and reads of the SYS and UPD blocks from every port, the
staging commands from a maintenance port (R32, R352, R373, R428). `sysRead`: a READ of the SYS block, in Bivouac of SYS
or UPD. -/
def State.served (s : State) (l op : Nat) (sysRead : Bool) : Bool :=
  if s.cur = 0 then sysRead || op == 0x32 || ((op == 0x30 || op == 0x31 || op == 0x33 || op == 0x34) && decide (3 ≤ s.classOf l))
  else if !s.serviceRuns then sysRead
  else if s.cur = 7 then
    op == 1 || op == 3 || op == 0x10 || op == 0x11 || op == 0x32 || decide (3 ≤ s.classOf l)
  else true

/-- The counts of an answered command: executed, and refused with STATUS 1 to 5. -/
def State.countCmd (s : State) (l status : Nat) : State :=
  let s1 := s.bump (Reg.SYS_HOST_CMDS l)
  if status = 0 then s1 else s1.bump (Reg.SYS_HOST_REFUSED l)

/-- An answer given to a port: counted, queued as a response and stored for repeats (R358, R360). -/
def State.answer (s : State) (l : Nat) (c : Cmd) (op tag : Nat) (a : Answer) : State :=
  let r : Resp := { dst := c.src, op := op, tag := tag, status := a.status, detail := a.detail, words := a.words, ready := s.upSlots }
  let s1 := a.st.countCmd l a.status
  let x := s1.hostOf l
  s1.setHost l { x with resps := x.resps ++ [r], store := ((c, r) :: x.store).take 16 }

/-- The commands a lane's context holds: those whose response has not left, among them those that wait for the program (R353). -/
def HostSt.held (x : HostSt) : Nat := x.resps.length

/-- A command of a lane that is served: a lane that is not answered takes none (R44); a frame beyond the context's 8 is dropped; a repeat is answered from the store; a
command not served in this mode is answered MODE, one below the class it needs AUTH; else the body answers; a hub that the
command reset answers nothing. An accepted command with SUB makes its sender the notice subscriber (R348, R352 to R360). -/
def State.command (s : State) (l : Nat) (h : CmdHdr) (op : Nat) (ops : List W64) (cls : Nat) (sysRead : Bool)
    (body : State → Answer) : State :=
  let c : Cmd := { src := h.src.toNat, words := cmdFrame h op ops }
  let x := s.hostOf l
  if s.pairRole l || !s.answers l then s
  else if 8 ≤ x.held then s.bump (Reg.SYS_HOST_CMD_DROP l)
  else
    match (if h.tag = 0 then none else x.store.find? (fun e => e.1 == c)) with
    | some e => (s.setHost l { x with resps := x.resps ++ [{ e.2 with ready := s.upSlots }] }).bump (Reg.SYS_HOST_DUPS l)
    | none =>
      let a :=
        if !s.served l op sysRead then { st := s, status := 4, detail := s.cur }
        else if s.classOf l < cls then s.denied op l
        else body s
      let t := if a.st.mode.phase = .held then a.st else s.answer l c op h.tag.toNat a
      if a.status = 0 ∧ h.sub = true then t.setHost l { t.hostOf l with sub := some h.src.toNat } else t

/-- A word of operands cut to n words: ILLEGAL where the number differs (R356, R357). -/
def State.needWords (s : State) (ops : List W64) (n : Nat) (body : Answer) : Answer :=
  if ops.length = n then body else s.illegal

/-- RESPONSE: the oldest response of a lane leaves for its egress queue while the lane's carrier is UP, unless it waits for the
program (R355, R358, R374). -/
def execResponse (l : Fin 4) (s : State) : Res :=
  let x := s.hostOf l
  match x.resps with
  | [] => .next s
  | r :: rest =>
    if s.laneUp (s.carrier l) && r.waits.isNone then .next ((s.setHost l { x with resps := rest }).sendNeil l 6 r.dst r.frame) else .next s

/-- RESPONSE_DISCARD: a response that has waited 1 s (250,000 slots) for a lane that is not UP is discarded (R374). -/
def execResponseDiscard (l : Fin 4) (s : State) : Res :=
  let x := s.hostOf l
  match x.resps with
  | [] => .next s
  | r :: rest =>
    if s.laneUp (s.carrier l) = false ∧ r.waits = none ∧ r.ready + 250000 ≤ s.upSlots then .next (s.setHost l { x with resps := rest }) else .next s

/-- ILLEGAL_COMMAND: an unknown OP or a wrong NW is answered ILLEGAL (R356, R357). -/
def execIllegalCommand (l : Fin 4) (h : CmdHdr) (op : BitVec 8) (s : State) : Res :=
  .next (s.command l h op.toNat [] 0 false (fun t => t.illegal))

end Sys2Proof.Machine
end

