-- ==== Sys2Proof/Machine/StreamOps.lean ====
section
/-!
DEFINITION. Sys2Proof/Machine/StreamOps.lean: the stream table, the queues, packets, and the ledger coder as shared
operations (R304 to R325, R337 to R340).
-/
namespace Sys2Proof.Machine
open Sys2Proof

/-! ### The stream table (R304) -/

/-- A word of a stream table entry; word 3 shows the next sequence number. -/
def State.strmWord (s : State) (st w : Nat) : W64 :=
  if w = 3 then BitVec.ofNat 64 (s.strms.get (fun _ => {}) st).nextSeq else s.strm.get (fun _ => 0) (4 * st + w)

/-- A stream at work. -/
def State.strmSt (s : State) (st : Nat) : StreamSt := s.strms.get (fun _ => {}) st
/-- A stream at work replaced. -/
def State.setStrmSt (s : State) (st : Nat) (x : StreamSt) : State := { s with strms := s.strms.set (fun _ => {}) st x }

/-- KIND of a stream (R305). -/
def State.kind (s : State) (st : Nat) : Nat := bits (s.strmWord st 0) 62 60
/-- RATIO of a stream. -/
def State.ratio (s : State) (st : Nat) : Nat := bits (s.strmWord st 0) 59 58
/-- PRIO of a stream. -/
def State.strmPrio (s : State) (st : Nat) : Nat := bits (s.strmWord st 0) 57 55
/-- QUEUE of a stream. -/
def State.strmQueue (s : State) (st : Nat) : Nat := bits (s.strmWord st 0) 53 48
/-- CHHI of a stream. -/
def State.chhi (s : State) (st : Nat) : Nat := bits (s.strmWord st 0) 35 27
/-- CHLO of a stream. -/
def State.chlo (s : State) (st : Nat) : Nat := bits (s.strmWord st 0) 26 18

/-- The streams. -/
def allStreams : List Nat := List.range 2048

/-- The streams that have left their reset state, in order. -/
def State.liveStreams (s : State) : List Nat := s.strms.map (fun c => c.1)

/-- The enabled stream that names a queue. -/
def State.streamOf (s : State) (q : Nat) : Option Nat :=
  s.liveStreams.find? (fun st => (s.strmSt st).on && s.strmQueue st == q)

/-! ### Queues (R315, R316) -/

/-- A queue. -/
def State.que (s : State) (q : Nat) : QueueSt := s.queues.get (fun _ => {}) q
/-- A queue replaced. -/
def State.setQue (s : State) (q : Nat) (x : QueueSt) : State := { s with queues := s.queues.set (fun _ => {}) q x }

/-- The words of a queue's ring: 2^SIZE. -/
def State.queSize (s : State) (q : Nat) : Nat := 2 ^ s.getF (Reg.QUE_CFG_SIZE q)

/-- The room of a queue: held words count against it (R316). -/
def State.room (s : State) (q : Nat) : Nat := s.queSize q - ((s.que q).wp - (s.que q).rp)

/-- The word index of a position of a queue's ring, in the queue memory or in engine bulk memory (R315). -/
def State.queIndex (s : State) (q pos : Nat) : Nat := s.getF (Reg.QUE_CFG_BASE q) * 1024 + pos % s.queSize q

/-- A word of a queue's ring. -/
def State.queWord (s : State) (q pos : Nat) : W64 :=
  if s.flag (Reg.QUE_CFG_LOC q) then Memory.word s.dram (8 * s.queIndex q pos)
  else s.qmem.get (fun _ => 0) (s.queIndex q pos)

/-- A word of a queue's ring written. -/
def State.setQueWord (s : State) (q pos : Nat) (v : W64) : State :=
  if s.flag (Reg.QUE_CFG_LOC q) then s.setDramWord (s.queIndex q pos) v
  else { s with qmem := s.qmem.set (fun _ => 0) (s.queIndex q pos) v }

/-- Words written at the write pointer of a queue, which moves past them. -/
def State.putWords (s : State) (q : Nat) : List W64 → State
  | [] => s
  | v :: r =>
    let t := s.setQueWord q (s.que q).wp v
    (t.setQue q { t.que q with wp := (t.que q).wp + 1 }).putWords q r

/-! ### Packets (R309 to R314) -/

/-- The H2 word in force at slot m: the low 32 bits of CFG_DIGEST and EPOCH (R309, R59). -/
def State.h2At (s : State) (m : Nat) : Nat :=
  match s.led.hist.find? (fun e => decide (e.1 ≤ m)) with
  | some e => e.2
  | none => match s.led.hist.getLast? with
    | some e => e.2
    | none => (s.reg Reg.CFG_DIGEST).toNat % 2 ^ 32 * 2 ^ 32 + s.getF Reg.CFG_EPOCH_EPOCH

/-- The digest or epoch in force changed at the present slot: noted in the configuration history (R325). -/
def State.noteConfig (s : State) : State :=
  let v := (s.reg Reg.CFG_DIGEST).toNat % 2 ^ 32 * 2 ^ 32 + s.getF Reg.CFG_EPOCH_EPOCH
  { s with led := { s.led with hist := (s.now, v) :: s.led.hist } }

/-- The mark of a shadow packet that has no sequence number yet (R385): no number of 32 bits. -/
def noSeq : Nat := 2 ^ 32

/-- A packet of a stream joins the closed packets of its queue and takes the next sequence number; a Second in Belay gives its
shadow packets no number of their own (R311, R385). The flags of the next packet clear. -/
def State.addPacket (s : State) (q st : Nat) (p : Pkt) : State :=
  let x := s.strmSt st
  let shadow := s.belay
  let pk := { p with stream := st, seq := (if shadow then noSeq else x.nextSeq), fst := x.fst, flush := x.flush, drop := x.drop }
  let s1 := s.setStrmSt st { x with
    nextSeq := (if shadow then x.nextSeq else (x.nextSeq + 1) % 2 ^ 32)
    fst := false, flush := false, drop := false }
  s1.setQue q { s1.que q with pkts := (s1.que q).pkts ++ [pk] }

/-- The open packet of a queue closes (R311). -/
def State.closePkt (s : State) (q st : Nat) (last : Bool) (cmode : Nat) : State :=
  match (s.que q).open_ with
  | none => s
  | some o =>
    let s1 := s.setQue q { s.que q with open_ := none }
    s1.addPacket q st
      { stream := st, ftype := 1, seq := 0, first := o.first, fin := o.fin, start := o.start, n := o.n, last := last
        refu := o.refu, clip := o.clip, flush := false, drop := false, fst := false, cmode := cmode
        check := o.crc ^^^ 0xFFFFFFFF, h2 := s.h2At o.first, tag := 0 }

/-- A packet of WORDS = 0 with LAST (R311). The manual names no first slot for it: H1 is a free value (log entry 8). -/
def State.emptyLast (s : State) (q st : Nat) : State :=
  let (f, s1) := s.free
  s1.addPacket q st
    { stream := st, ftype := (if s.kind st = 6 then 3 else 1), seq := 0, first := f.toNat, fin := s.now, start := (s1.que q).wp, n := 0, last := true
      refu := false, clip := false, flush := false, drop := false, fst := false
      cmode := (if s.kind st = 6 then 10 else s.ratio st), check := 0, h2 := s.h2At s.now, tag := 0 }

/-- The discards of a queue whose bounds are known are logged (R317, R319). -/
def State.logLost (s : State) (q : Nat) : State :=
  (s.que q).lost.foldl (fun t e => t.logLane (q / 16) e.cond 0 (e.items ++ [BitVec.ofNat 64 e.first, BitVec.ofNat 64 e.last]))
    (s.setQue q { s.que q with lost := [] })

/-- The stream's open packet closes with LAST, or an empty packet with LAST is made (R311, R37). A discard that was to go on to the next packet
start ends here and is logged (log entry 93). -/
def State.lastPacket (s0 : State) (q st : Nat) : State :=
  let s := s0.logLost q
  match (s.que q).open_ with
  | some _ => s.closePkt q st true (s.ratio st)
  | none => s.emptyLast q st

/-- A framing fault counted, and logged once per packet (R310). -/
def State.framing (s : State) (q st : Nat) : State :=
  let s1 := s.bump Reg.STRM_CNT_FRAMING
  match (s1.que q).open_ with
  | some o =>
    if o.framed then s1
    else (s1.setQue q { s1.que q with open_ := some { o with framed := true } }).logLane (q / 16) .STRM_FRAMING 0 [BitVec.ofNat 64 st]
  | none => s1.logLane (q / 16) .STRM_FRAMING 0 [BitVec.ofNat 64 st]

/-- A packet opens at the write pointer. -/
def State.openPkt (s : State) (q m : Nat) : State :=
  let x := s.que q
  s.setQue q { x with open_ := some { start := x.wp, n := 0, first := m, fin := m, crc := 0xFFFFFFFF, refu := false, clip := false, framed := false } }

/-- The open packet of a queue is discarded with its words (R317, R319). -/
def State.dropOpen (s : State) (q : Nat) : State :=
  let x := s.que q
  match x.open_ with
  | none => s
  | some o => s.setQue q { x with open_ := none, wp := o.start }

/-- The register of CHECK after octets. -/
def crcStep (c : Nat) (bs : List Byte) : Nat := bs.foldl (crcByteR 0x82F63B78) c

/-- One word joins the open packet of an uncompressed stream, with its instant and marks. -/
def State.addWord (s : State) (q : Nat) (w : W64) (m : Nat) (marks : Bool × Bool) : State :=
  let s1 := s.putWords q [w]
  let x := s1.que q
  match x.open_ with
  | none => s1
  | some o =>
    s1.setQue q { x with open_ := some { o with
      n := o.n + 1, fin := m, crc := crcStep o.crc (beBytes 8 w.toNat), refu := o.refu || marks.1, clip := o.clip || marks.2 } }

/-! ### The ledger coder (R322 to R325) -/

/-- The first channel word fields of a sample word (R11): VALUE, CHAN, FLAGS, SLOT_LO. -/
def wordValue (w : W64) : Int := signed 32 (bits w 63 32)
/-- CHAN of a sample word. -/
def wordChan (w : W64) : Nat := bits w 31 23
/-- FLAGS of a sample word. -/
def wordFlags (w : W64) : Nat := bits w 22 16
/-- SLOT_LO of a sample word. -/
def wordSlotLo (w : W64) : Nat := bits w 15 0

/-- The full instant of a streamed word applied in real slot r: the largest m ≤ r − 6 with that SLOT_LO (R308). -/
def fullInstant (r lo : Nat) : Nat := (r - 6) - ((r - 6) % 65536 + 65536 - lo) % 65536

/-- The words of a ledger record: eight header words and the coded or raw block (R323). -/
def LedLane.recordWords (l : LedLane) (ratio : Nat) (block : List W64) : List W64 :=
  let n := l.vals.length
  let map (b : Nat) : W64 :=
    BitVec.ofNat 64 (((List.range n).map (fun i => if (l.flags.getD i 0).testBit b then 2 ^ i else 0)).sum)
  let poison := l.flags.any (fun f => f.testBit 0)
  [BitVec.ofNat 64 l.first,
   BitVec.ofNat 64 (l.stream <<< 53 + l.chan <<< 44 + (n - 1) <<< 38 + ratio <<< 36 + b2n poison <<< 35 + b2n l.refu <<< 34
     + b2n l.clip <<< 33 + l.stride % 2 ^ 24),
   map 6, map 5, map 4, map 3, map 2, map 1] ++ block

/-- The last instant of a lane's values. -/
def LedLane.lastInstant (l : LedLane) : Nat := l.first + (l.vals.length - 1) * l.stride

/-- The octets of the ledger partition in force (R21). -/
def State.ledSize (s : State) : Nat := s.cfg.parts.2.1 * 2 ^ 26

/-- The octets of a record. -/
def LedRec.octets (r : LedRec) : Nat := 8 * r.words.length

/-- The last instant of a record. -/
def LedRec.lastInstant (r : LedRec) : Nat := r.first + (r.count - 1) * r.stride

/-- The oldest records dropped until the ring holds no more than n octets; with the last instant among those dropped (R325). -/
def trimRing (n : Nat) : List LedRec → List LedRec × Option Nat
  | [] => ([], none)
  | r :: rest =>
    if ((r :: rest).map LedRec.octets).sum ≤ n then (r :: rest, none)
    else
      let (k, d) := trimRing n rest
      (k, some (Nat.max r.lastInstant (d.getD 0)))

/-- A record written to the ring: the oldest ones are overwritten, LED_HORIZON and LED_NEWEST follow (R325). -/
def State.writeRecord (s : State) (l : LedLane) (ratio : Nat) (words : List W64) : State :=
  let r : LedRec :=
    { stream := l.stream, chan := l.chan, first := l.first, count := l.vals.length, stride := l.stride, ratio := ratio
      words := words, orig := l.vals, pos := s.led.pos, bad := false }
  let (ring, gone) := trimRing s.ledSize (s.led.ring ++ [r])
  let s1 : State := { s with led := { s.led with ring := ring, pos := (s.led.pos + 8 * words.length) % Nat.max 1 s.ledSize } }
  let s2 := s1.setReg Reg.LED_NEWEST (BitVec.ofNat 64 l.first)
  match gone with
  | some g => s2.setReg Reg.LED_HORIZON (BitVec.ofNat 64 (Nat.max (g + 1) (s.reg Reg.LED_HORIZON).toNat))
  | none => s2

/-- A raw record of the slot index (R38). -/
def State.writeRaw (s : State) (l : LedLane) : State :=
  { s with led := { s.led with raws := s.led.raws ++
    [{ stream := l.stream, chan := l.chan, first := l.first, count := l.vals.length, stride := l.stride, ratio := 0
       words := l.recordWords 0 (rawWords (fill64 l.vals)), orig := l.vals, pos := 0, bad := false }] } }

/-- The lane whose last value is oldest (R322). -/
def oldestLane : List LedLane → Option LedLane
  | [] => none
  | l :: r => match oldestLane r with
    | none => some l
    | some k => if k.lastInstant < l.lastInstant then some k else some l

/-- The ledger coder takes a value for a lane: the lane's record is closed before a value that breaks it, the lane whose last
value is oldest is closed where a 4,097th is needed, and a lane of 64 values goes to the coder (R322, R324). -/
def State.ledTake (s : State) (st chan m : Nat) (v : Int) (flags : Nat) (marks : Bool × Bool) : State :=
  let h2 := s.h2At m
  let fresh : LedLane :=
    { stream := st, chan := chan, first := m, stride := 0, vals := [v], flags := [flags], refu := marks.1, clip := marks.2, h2 := h2 }
  let mine (l : LedLane) : Bool := l.stream == st && l.chan == chan
  match s.led.lanes.find? mine with
  | none =>
    if s.led.lanes.length < 4096 then { s with led := { s.led with lanes := s.led.lanes ++ [fresh] } }
    else match oldestLane s.led.lanes with
      | some o =>
        ({ s with led := { s.led with lanes := s.led.lanes.filter (fun l => l != o) ++ [fresh], blocks := s.led.blocks ++ [o] } } : State).bump
          Reg.LED_STAT_EVICT
      | none => s
  | some l =>
    let others := s.led.lanes.filter (fun k => !mine k)
    let ok := l.h2 == h2 && (if l.vals.length = 1 then decide (l.first < m ∧ m - l.first < 2 ^ 24)
      else decide (m = l.first + l.vals.length * l.stride))
    if ok then
      let l' := { l with
        stride := (if l.vals.length = 1 then m - l.first else l.stride), vals := l.vals ++ [v], flags := l.flags ++ [flags]
        refu := l.refu || marks.1, clip := l.clip || marks.2 }
      if l'.vals.length = 64 then { s with led := { s.led with lanes := others, blocks := s.led.blocks ++ [l'] } }
      else { s with led := { s.led with lanes := others ++ [l'] } }
    else { s with led := { s.led with lanes := others ++ [fresh], blocks := s.led.blocks ++ [l] } }

/-- The octets over which CHECK is taken for a record: its first COUNT original values (R313). -/
def LedLane.originals (l : LedLane) : List Byte := valueBytes l.vals

/-- A record enters the queue of its stream: whole records to a packet of 128 words, a raw record alone in a packet with
CMODE 8, a record that does not fit the room discarded with the open packet (R314, R317, R338). -/
def State.queueRecord (s : State) (q st : Nat) (l : LedLane) (ratio : Nat) (words : List W64) (alone : Bool) : State :=
  let cmode := s.ratio st
  let n := words.length
  let s1 := match (s.que q).open_ with
    | some o => if alone || decide (128 < o.n + n) || s.h2At o.first != l.h2 then s.closePkt q st false cmode else s
    | none => s
  if s1.room q < n then
    let o := (s1.que q).open_
    let first := (o.map (fun k => k.first)).getD l.first
    let s2 := ((s1.dropOpen q).bump (Reg.QUE_CTL_OVF q)).logLane (q / 16) .QUE_OVF 0
      [BitVec.ofNat 64 st, BitVec.ofNat 64 first, BitVec.ofNat 64 l.lastInstant]
    s2.setStrmSt st { s2.strmSt st with drop := true }
  else
    let s2 := match (s1.que q).open_ with
      | some _ => s1
      | none => s1.openPkt q l.first
    let s3 := s2.putWords q words
    let x := s3.que q
    match x.open_ with
    | none => s3
    | some o =>
      let s4 := s3.setQue q { x with open_ := some { o with
        n := o.n + n, fin := l.lastInstant, crc := crcStep o.crc l.originals, refu := o.refu || l.refu, clip := o.clip || l.clip } }
      if alone then s4.closePkt q st false 8
      else if 128 < o.n + n + n ∧ ratio = cmode then s4.closePkt q st false cmode else s4

/-- What the coder makes of a block: the record's ratio code and words, whether it was unfit, and its shift (R337, R338). -/
def codeLane (l : LedLane) (ratio : Nat) : Option (Nat × List W64) :=
  let v := fill64 l.vals
  (chooseCoding ratio v).map (fun c => (c.1, l.recordWords ratio (blockWords ratio c.1 c.2 v)))

/-- A record of a lane completes: written to the ledger and, on a compressed stream that is enabled, to its queue
(R314, R325). -/
def State.completeRecord (s : State) (l : LedLane) (ratio : Nat) (words : List W64) (alone : Bool) : State :=
  let s1 := s.writeRecord l ratio words
  let st := l.stream
  if s.ratio st ≠ 0 ∧ (s.strmSt st).on = true ∧ s.kind st < 6 then
    s1.queueRecord (s.strmQueue st) st l ratio words alone
  else s1

/-- The ratio of a lane: the stream's, or LED_CFG.DEFRATIO (R322). -/
def State.laneRatio (s : State) (st : Nat) : Nat := if s.ratio st = 0 then s.getF Reg.LED_CFG_DEFRATIO else s.ratio st

/-! ### The store is discarded (R22, R250) -/

/-- The capture region and the ledger's ring are discarded: the horizon moves past them, replays in progress end, no slot number counts as used any more, and the
discard is logged with the slot; the manual names no condition for the record, so its CODE is a free value (R22, R250, R325, R329; log
entry 44). -/
def State.discardStore (s : State) (slot : Nat) : State :=
  let h := (s.led.ring ++ s.led.raws).foldl (fun a r => Nat.max a (r.lastInstant + 1)) (s.reg Reg.LED_HORIZON).toNat
  let s1 : State := { s with
    cap := { s.cap with mem := [], bad := [] }
    led := { s.led with
      ring := [], raws := [], pos := 0
      replays := s.led.replays.map (fun r => { r with cut := r.cut || r.status.isNone }) }
    pps := { s.pps with highest := 0 } }
  (s1.setReg Reg.LED_HORIZON (BitVec.ofNat 64 h)).logUncoded 0 [BitVec.ofNat 64 slot]

/-! ### EMIT applied (R310, R317, R320, R38) -/

/-- The filter window of a word: that of its channel's settings at its instant, reaching back by the detector window for MAX,
MIN, RMS and program-built words of a channel with detectors (R312). -/
def State.wordMarks (s : State) (st chan m : Nat) : Bool × Bool :=
  let f := s.flt chan
  match f.entryAt m with
  | none => (false, false)
  | some (e, _) =>
    let w := e.set.window m
    let k := s.kind st
    let det := (k == 1 || k == 2 || k == 3 || (k == 5 && (e.set.pk || e.set.rms)))
    let back : Nat := if det then (e.set.w - 1) * e.set.spacing else if k = 4 ∧ e.set.ac = false then 62 * e.set.spacing else 0
    f.marks (w.1 - (back : Int), w.2)

/-- A word of instant m stands under another digest or epoch than the open packet of its queue (R59). -/
def State.crosses (s : State) (q m : Nat) : Bool :=
  match (s.que q).open_ with
  | some o => s.h2At o.first != s.h2At m
  | none => false

/-- One word of an EMIT entry that its stream takes, framed into its packet (R310). An open packet closes before a word under another
digest or epoch, which then begins the next one without a fault (R59); `split` says that this happened before the word. -/
def State.frameWord (s0 : State) (q st : Nat) (w : W64) (m : Nat) (marks : Bool × Bool) (start fin split : Bool) : State :=
  let cut := s0.crosses q m
  let s := if cut then s0.closePkt q st false 0 else s0
  let s1 := match (s.que q).open_ with
    | some _ => if start then ((s.framing q st).closePkt q st false 0).openPkt q m else s
    | none => if start || cut || split then s.openPkt q m else (s.openPkt q m).framing q st
  let s2 := s1.addWord q w m marks
  match (s2.que q).open_ with
  | none => s2
  | some o =>
    if fin then s2.closePkt q st false 0
    else if 128 ≤ o.n then (s2.framing q st).closePkt q st false 0 else s2

/-- The words of an entry that lie within the stream's channels, each with its instant; the others are counted and logged. The entry's packet
start belongs to the first word taken, its packet end to the last (R204, R310; DEDUCED, log entry 93). -/
def State.takeWords (s : State) (st : Nat) (start fin : Bool) (ws : List W64) : State × List (W64 × Nat × Bool × Bool) :=
  let r := ws.foldl (fun (r : State × List W64) w =>
    let c := wordChan w
    if s.chlo st ≤ c ∧ c ≤ s.chhi st then (r.1, r.2 ++ [w])
    else ((r.1.bump Reg.STRM_CNT_CHAN_OUT).logLane (s.strmQueue st / 16) .STRM_CHAN_OUT 0 [BitVec.ofNat 64 st, BitVec.ofNat 64 c], r.2)) (s, [])
  (r.1, (List.range r.2.length).map (fun i =>
    (r.2.getD i 0, fullInstant s.now (wordSlotLo (r.2.getD i 0)), start && i == 0, fin && i == r.2.length - 1)))

/-- Words of a producer that are discarded up to the next packet start: their instants join the bounds of the discards that go on
(R317, R319). -/
def State.loseWords (s : State) (q : Nat) (ms : List Nat) : State :=
  let x := s.que q
  s.setQue q { x with lost := x.lost.map (fun e =>
    { e with first := ms.foldl Nat.min e.first, last := ms.foldl Nat.max e.last }) }

/-- An EMIT entry applied: discarded where its stream is disabled, and in Descent, whose last instant is fixed at its entry; after a drain end each word of an instant before the stop
becomes a raw record of its own; else every word goes to the ledger coder, and on an uncompressed stream into the queue
with its framing, the open packet being discarded where the entry does not fit the room, and what follows it up to the next packet start,
which ends the bounds of QUE_OVF (R38, R310, R314, R317, R320). -/
def State.applyEmit (s : State) (q : Nat) (start fin : Bool) (words : List W64) : State :=
  let n := words.length
  match s.streamOf q with
  | none => s.addF Reg.STRM_CNT_OFFWORDS n
  | some st =>
    if 6 ≤ s.kind st then s.addF Reg.STRM_CNT_OFFWORDS n
    else
      let (s1, taken) := s.takeWords st start fin words
      if s.cur = 7 then s1
      else if !s.mode.writing then
        taken.foldl (fun t w =>
          let t1 := t.bump Reg.STRM_CNT_LATEWORDS
          if s.acquired w.2.1 then
            t1.writeRaw { stream := st, chan := wordChan w.1, first := w.2.1, stride := 0, vals := [wordValue w.1]
                          flags := [wordFlags w.1], refu := (s.wordMarks st (wordChan w.1) w.2.1).1
                          clip := (s.wordMarks st (wordChan w.1) w.2.1).2, h2 := s.h2At w.2.1 }
          else t1) s1
      else
        let s2 := taken.foldl (fun t w =>
          t.ledTake st (wordChan w.1) w.2.1 (wordValue w.1) (wordFlags w.1) (s.wordMarks st (wordChan w.1) w.2.1)) s1
        let s3 := match taken.getLast? with
          | some w => s2.setStrmSt st { s2.strmSt st with taken := some w.2.1 }
          | none => s2
        if s.ratio st ≠ 0 then s3
        else
          let begins := (taken.head?.map (fun w => w.2.2.1)).getD false
          if (s3.que q).disc = true ∧ begins = false then s3.loseWords q (taken.map (fun w => w.2.1))
          else
            let split := (taken.head?.map (fun w => s3.crosses q w.2.1)).getD false
            let s3' := if split then s3.closePkt q st false 0 else s3
            let s4 := (s3'.setQue q { s3'.que q with disc := false }).logLost q
            let s5 := match (s4.que q).open_ with
              | some _ => if begins then (s4.framing q st).closePkt q st false 0 else s4
              | none => s4
            if taken.length ≤ s5.room q then
              let put (t : State) (w : W64 × Nat × Bool × Bool) (cut : Bool) : State :=
                t.frameWord q st w.1 w.2.1 (s.wordMarks st (wordChan w.1) w.2.1) w.2.2.1 w.2.2.2 cut
              match taken with
              | [] => s5
              | w :: r => r.foldl (fun t v => put t v false) (put s5 w split)
            else
              let first := (((s5.que q).open_.map (fun o => o.first)).orElse (fun _ => taken.head?.map (fun w => w.2.1))).getD 0
              let s6 := (s5.dropOpen q).bump (Reg.QUE_CTL_OVF q)
              let gone : Lost := { cond := .QUE_OVF, items := [BitVec.ofNat 64 st], first := first, last := first }
              let s7 := (s6.setQue q { s6.que q with disc := true, lost := [gone] }).loseWords q (taken.map (fun w => w.2.1))
              s7.setStrmSt st { s7.strmSt st with drop := true }

/-! ### Stops, disables and the slot boundary (R37, R38, R306, R320) -/

/-- Every value that the ledger coder holds is written as a raw record; `send` also queues those of an enabled compressed
stream in packets of CMODE 8 (R38, R37). -/
def State.flushLedger (s : State) (send : Bool) : State :=
  let ls := s.led.blocks ++ s.led.lanes
  let s1 : State := { s with led := { s.led with lanes := [], blocks := [] } }
  ls.foldl (fun t l =>
    let t1 := t.writeRaw l
    if send && decide (t.ratio l.stream ≠ 0) && (t.strmSt l.stream).on then
      t1.queueRecord (t.strmQueue l.stream) l.stream l 0 (l.recordWords 0 (rawWords (fill64 l.vals))) true
    else t1) s1

/-- LAST at the drain end, before which n closed packets waited: put on the last raw packet that the drain end has queued for the stream;
else the open packet or an empty one carries it (R37). -/
def State.lastOfStream (s : State) (st n : Nat) : State :=
  let q := s.strmQueue st
  let x := s.que q
  match x.open_, x.pkts.getLast? with
  | none, some p =>
    if s.ratio st ≠ 0 ∧ n < x.pkts.length ∧ p.cmode = 8 ∧ p.stream = st then
      s.setQue q { x with pkts := x.pkts.dropLast ++ [{ p with last := true }] }
    else s.lastPacket q st
  | _, _ => s.lastPacket q st

/-- An enabled stream ends at the present slot: LAST, STRM_DISABLED with the last instant taken (R320). -/
def State.endStream (s : State) (st : Nat) : State :=
  let x := s.strmSt st
  if x.on then
    let s1 := s.lastPacket (s.strmQueue st) st
    let y := s1.strmSt st
    let s2 := s1.setStrmSt st { y with
      on := false, falling := false, rising := false
      runs := y.runs.map (fun r => match r.2.1 with
        | none => (r.1, some s.now, r.2.2)
        | some _ => r) }
    let s3 : State := { s2 with strm := s2.strm.set (fun _ => 0) (4 * st) (setBits (s2.strmWord st 0) 63 63 0) }
    s3.logLane (s.strmQueue st / 16) .STRM_DISABLED 0 (BitVec.ofNat 64 st :: (match x.taken with
      | some m => [BitVec.ofNat 64 m]
      | none => []))
  else s

/-- A stream whose enable waits begins with the present slot; its first packet carries FIRST (R306). -/
def State.beginStream (s : State) (st : Nat) : State :=
  let x := s.strmSt st
  if x.rising then
    s.setStrmSt st { x with
      on := true, rising := false, fst := true, taken := none
      runs := (s.now, none, s.chlo st, s.chhi st) :: x.runs }
  else s

/-- Enables and disables of streams, queues and lanes that wait for the slot boundary take effect (R306, R320). -/
def State.streamsBoundary (s : State) : State :=
  let off := (List.range 64).filter (fun q => (s.que q).on && !s.effFlag (Reg.QUE_CFG_EN q))
  let s1 := off.foldl (fun t q => match t.streamOf q with
    | some st => t.endStream st
    | none => t) s
  let s2 := s1.liveStreams.foldl (fun t st => if (t.strmSt st).falling then t.endStream st else t) s1
  let s3 := s2.liveStreams.foldl (fun t st => t.beginStream st) s2
  (List.range 64).foldl (fun t q =>
    if (t.que q).on = t.effFlag (Reg.QUE_CFG_EN q) then t else t.setQue q { t.que q with on := t.effFlag (Reg.QUE_CFG_EN q) }) s3

end Sys2Proof.Machine
end

