-- ==== Sys2Proof/Machine/Streams.lean ====
section
/-!
DEFINITION. Sys2Proof/Machine/Streams.lean: the commands of streams, queues, the ledger, replay and the block decoders
(R304 to R346).
-/
namespace Sys2Proof.Machine
open Sys2Proof

/-! ### Authority over a lane's resources (R351) -/

/-- A port may write a resource of a lane: owner class, a program or a record, or operator class on that lane. -/
def State.laneScope (s : State) (port lane : Nat) : Bool := decide (2 ≤ s.classOf port) || port == 5 || port == lane

/-- The authority tests of a write that needs a class, on a resource of a lane (R496 tests 1 and 2). -/
def State.laneAuth (s : State) (port cls lane : Nat) : Option Cond :=
  if s.classOf port < cls then some .SYS_AUTH_DENIED else if s.laneScope port lane then none else some .SYS_AUTH_LANE

/-! ### The stream table (R304 to R307) -/

/-- The tests of setting EN to 1, in the order of R306. -/
def State.checkEnable (s : State) (port st : Nat) (v : W64) : Option Cond :=
  let kind := bits v 62 60
  let q := bits v 53 48
  let lo := bits v 26 18
  let hi := bits v 35 27
  let prod := s.getF (Reg.QUE_CFG_PROD q)
  let others := s.strm.any (fun c => c.1 % 4 == 0 && c.1 / 4 != st && bit c.2 63 && bits c.2 53 48 == q)
  firstFail [(decide (kind < 7), .STRM_KIND), (if kind = 6 then lo == 0 && hi == 0 else decide (lo ≤ hi) && decide (hi ≤ 391), .STRM_CHANS),
    (kind != 6 || bits v 59 58 == 0, .STRM_RATIO),
    (s.flag (Reg.QUE_CFG_EN q) && (if kind = 6 then prod == 16 else decide (prod < 16)) && !others, .STRM_QUEUE),
    (decide (2 ≤ s.classOf port) || (decide (1 ≤ s.classOf port) && (port == q / 16 || port == 5)), .STRM_AUTH)]

/-- The bits of a stream table word that are not reserved (R304). -/
def strmMask (w : Nat) : W64 :=
  if w = 0 then 0xFFFF000FFFFC0000#64 else if w = 1 then 0x0FFFFFFFFFFFFFFF#64 else if w = 2 then 0x0000000FFFFFFFFF#64 else 0

/-- A stream table word stored. -/
def State.storeStrm (s : State) (st w : Nat) (v : W64) : State :=
  { s with strm := s.strm.set (fun _ => 0) (4 * st + w) (v &&& strmMask w) }

/-- An enabled stream whose words an overlay changes: its open packet closes and its channels are noted (R307). -/
def State.overlayStream (s : State) (st w : Nat) (v : W64) : State :=
  let s1 := if (s.strmSt st).on then s.closePkt (s.strmQueue st) st false (s.ratio st) else s
  let s2 := s1.storeStrm st w v
  let x := s2.strmSt st
  if x.on then
    s2.setStrmSt st { x with
      runs := (s2.now, none, s2.chlo st, s2.chhi st) ::
        x.runs.map (fun r => if r.2.1.isNone then (r.1, some s2.now, r.2.2) else r) }
  else s2

/-- A write of a stream table word by a port: enabling under R306, an enabled entry only switched off (R307), a disabled one
free for the lane's operator (R351); word 3 is the hub's; refused in Belay (R384). -/
def State.strmWrite (s : State) (port st w : Nat) (v0 : W64) : WriteRes :=
  let v := v0 &&& strmMask w
  let old := s.strmWord st 0
  let en := bit old 63
  let lane := bits old 53 48 / 16
  let lane' := if w = 0 ∧ en = false then bits v 53 48 / 16 else lane
  let done (t : State) : WriteRes := (t, none)
  let no (c : Cond) : WriteRes := s.refuse c 0 Reg.STRM_DATA port
  if s.mirrored port then no (if s.classOf port < 1 then .SYS_AUTH_DENIED else .PAIR_MIRRORED)
  else if 3 ≤ w then done s
  else if w = 0 ∧ en = false ∧ bit v 63 = true then
    match s.checkEnable port st v with
    | some c => no c
    | none =>
      let t := s.storeStrm st 0 v
      done (t.setStrmSt st { t.strmSt st with rising := true, falling := false })
  else match (s.laneAuth port 1 lane').orElse (fun _ => s.laneAuth port 1 lane) with
    | some c => no c
    | none =>
      if en then
        if port = cfgPort then
          if w = 0 ∧ bit v 63 = false then
            done ((s.setStrmSt st { s.strmSt st with falling := true, rising := false }).storeStrm st 0 v)
          else done (s.overlayStream st w v)
        else if w = 0 ∧ v = setBits old 63 63 0 then
          done ((s.setStrmSt st { s.strmSt st with falling := (s.strmSt st).on, rising := false }).storeStrm st 0 v)
        else no .STRM_LIVE
      else done (s.storeStrm st w v)

/-- STRM_PTR of a port advanced by a data access: WORD wraps to 0 and advances ENTRY, which wraps in its 11 bits (R456). -/
def State.advanceStrm (s : State) (port : Nat) : State :=
  s.setCopy port Reg.STRM_PTR (BitVec.ofNat 64 ((bits (s.copy port Reg.STRM_PTR) 12 0 + 1) % 8192))

/-- STRM_DATA as a port reads it. -/
def State.strmRead (s : State) (port : Nat) : W64 :=
  let p := bits (s.copy port Reg.STRM_PTR) 12 0
  s.strmWord (p / 4) (p % 4)

/-- A write of STRM_DATA through a port's pointer; an accepted one advances it. -/
def State.strmDataWrite (s : State) (port : Nat) (v : W64) : WriteRes :=
  let p := bits (s.copy port Reg.STRM_PTR) 12 0
  match s.strmWrite port (p / 4) (p % 4) v with
  | (t, none) => (t.advanceStrm port, none)
  | r => r

/-- STREAM_ENABLE: a write of a stream's word 0 with EN = 1 (R306). -/
def execStreamEnable (port : Port) (st : Fin 2048) (value : W64) (s : State) : Res :=
  s.whenOpen port Reg.STRM_DATA <|
  .next (s.strmWrite port st 0 (setBits value 63 63 1)).1

/-- STREAM_DISABLE: a write of a stream's word 0 that sets EN to 0 (R320). -/
def execStreamDisable (port : Port) (st : Fin 2048) (s : State) : Res :=
  s.whenOpen port Reg.STRM_DATA <|
  .next (s.strmWrite port st 0 (setBits (s.strmWord st 0) 63 63 0)).1

/-- STREAM_DATA_ACCESS: a read or a write of STRM_DATA (R456). -/
def execStreamDataAccess (port : Port) (write : Option W64) (s : State) : Res :=
  match write with
  | none => s.whenReads port Reg.STRM_DATA (.next (s.advanceStrm port))
  | some v => s.whenOpen port Reg.STRM_DATA <| .next (s.strmDataWrite port v).1

/-! ### Queues (R315, R319, R320) -/

/-- The first and the end word index of a queue's ring as a QUE_CFG word places it, with its LOC. -/
def quePlace (v : W64) : Nat × Nat × Nat := (bits v 63 40 * 1024, bits v 63 40 * 1024 + 2 ^ bits v 36 32, bits v 21 21)

/-- The words of engine bulk memory in force (R21). -/
def State.bulkWords (s : State) : Nat := s.cfg.parts.2.2 * 2 ^ 23

/-- The tests of a write to QUE_CFG (R315): limits of the placement and the producer, only EN = 0 while enabled, no overlap
with another enabled queue. -/
def State.checkQueCfg (s : State) (q : Nat) (v : W64) : Option Cond :=
  let old := s.reg (Reg.QUE_CFG q)
  let en := bit old 0
  if en = true ∧ v = setBits old 0 0 0 then none
  else
    let size := bits v 36 32
    let loc := bits v 21 21
    let p := quePlace v
    let fits := if loc = 0 then decide (10 ≤ size ∧ size ≤ 18) && decide (p.2.1 ≤ 262144)
      else decide (10 ≤ size ∧ size ≤ 24) && decide (p.2.1 ≤ s.bulkWords)
    let aligned := decide (bits v 63 40 % 2 ^ (size - 10) = 0)
    let clash := (List.range 64).any (fun k => k != q && s.flag (Reg.QUE_CFG_EN k) &&
      (let r := quePlace (s.reg (Reg.QUE_CFG k))
       r.2.2 == loc && decide (r.1 < p.2.1) && decide (p.1 < r.2.1)))
    firstFail [(fits && aligned, .QUE_PLACE), (decide (bits v 20 16 ≤ 16), .QUE_PROD), (!en, .QUE_CFG_LIVE),
      (!(bit v 0 && clash), .QUE_OVERLAP)]

/-- The effects of a flush, between two commit groups; one that discards no packet leaves no FLUSH. With an open packet of sample words the
words that follow are discarded to the next packet start, and QUE_FLUSH is logged once its bounds are known; on a compressed stream framing
bits have no effect, and none follow. The record names the numbers of closed packets where there are any (R309, R314, R319; log entry 93). -/
def State.flushQueue (s : State) (q : Nat) : State :=
  let x := s.que q
  let st := (s.streamOf q).getD ((x.pkts.head?.map (fun p => p.stream)).getD 0)
  let open_ := x.open_.isSome
  let firsts := x.pkts.map (fun p => p.first) ++ (match x.open_ with
    | some o => [o.first]
    | none => [])
  let fins := x.pkts.map (fun p => p.fin) ++ (match x.open_ with
    | some o => [o.fin]
    | none => [])
  let goes := open_ && s.ratio st == 0
  let s1 := s.setQue q { x with pkts := [], open_ := none, wp := x.sp, disc := x.disc || goes }
  match firsts with
  | [] => s1
  | first :: _ =>
    let s2 := s1.setStrmSt st { s1.strmSt st with flush := true }
    let s3 := s2.addF (Reg.QUE_CTL_FLUSHED q) x.pkts.length
    let seqs := match x.pkts.head?, x.pkts.getLast? with
      | some a, some b => [BitVec.ofNat 64 a.seq, BitVec.ofNat 64 b.seq]
      | _, _ => []
    let gone : Lost := { cond := .QUE_FLUSH, items := BitVec.ofNat 64 st :: seqs, first := first, last := fins.foldl Nat.max first }
    let s4 := s3.setQue q { s3.que q with lost := (s3.que q).lost ++ [gone] }
    if (s4.que q).disc then s4 else s4.logLost q

/-- QUEUE_FLUSH: a write of QUE_CTL.FLUSH = 1 with operator authority on the queue's lane, or owner (R319). -/
def execQueueFlush (port : Port) (q : Fin 64) (s : State) : Res :=
  s.whenOpen port (Reg.QUE_CTL q) <|
  match s.laneAuth port 1 (q.val / 16) with
  | some c => .next (s.logRefusal c q (Reg.QUE_CTL q) port)
  | none => .next (s.flushQueue q)

/-- QUEUE_DISABLE: a write of QUE_CFG.EN = 0 takes effect at the next slot boundary (R320). -/
def execQueueDisable (port : Port) (q : Fin 64) (s : State) : Res :=
  s.whenOpen port (Reg.QUE_CFG q) <|
  match s.laneAuth port 1 (q.val / 16) with
  | some c => .next (s.logRefusal c q (Reg.QUE_CFG q) port)
  | none => .next (s.setRws (Reg.QUE_CFG q) (setBits (s.reg (Reg.QUE_CFG q)) 0 0 0))

/-- HELD_WORDS_RELEASE: 64 slots after a frame left, its words are released (R287, R316). -/
def execHeldWordsRelease (q : Fin 64) (s : State) : Res :=
  let x := s.que q
  match x.sent with
  | [] => .next s
  | (p, t) :: rest =>
    if t + heldTicks ≤ s.slotTicks ∧ x.resend = [] then .next (s.setQue q { x with sent := rest, rp := p.start + p.n }) else .next s

/-! ### The ledger coder (R337 to R340) -/

/-- A record written raw, alone in its packet on a compressed stream (R338). -/
def State.rawRecord (s : State) (l : LedLane) : State :=
  s.completeRecord l 0 (l.recordWords 0 (rawWords (fill64 l.vals))) true

/-- The detail items of a block: stream, CHAN and FIRST. -/
def LedLane.items (l : LedLane) : List W64 := [BitVec.ofNat 64 l.stream, BitVec.ofNat 64 l.chan, BitVec.ofNat 64 l.first]

/-- A block that failed its self-check twice: counted, logged and written raw; the 16th within 2^18 slots raises
CMP_CODER_FAULT (R340). -/
def State.selfCheckFailed (s : State) (l : LedLane) : State :=
  let s1 := ((s.bump Reg.CMP_CNT_SELFCHK).logLane (s.strmQueue l.stream / 16) .CMP_SELFCHECK 0 l.items).rawRecord l
  let fails := (s.clk.edges :: s1.led.fails).filter (fun t => decide (s.clk.edges < t + 2 ^ 18))
  let s2 : State := { s1 with led := { s1.led with fails := fails.take 16 } }
  if 16 ≤ fails.length then (s2.setF Reg.CMP_LAST_CODER_FAULT 1).log .CMP_CODER_FAULT 0 [] else s2

/-- BLOCK_CODE: the oldest record of a lane that waits for the coder is coded, self-checked and written (R337 to R340). -/
def execBlockCode (st : Fin 2048) (chan : Fin 392) (selfCheckFailures : Fin 3) (s : State) : Res :=
  match s.led.blocks.find? (fun l => l.stream == st.val && l.chan == chan.val) with
  | none => .next s
  | some l =>
    let s1 : State := { s with led := { s.led with blocks := s.led.blocks.erase l } }
    let ratio := s1.laneRatio st
    if s1.flag Reg.CMP_LAST_CODER_FAULT then .next (s1.rawRecord l)
    else match codeLane l ratio with
      | none => .next (((s1.bump Reg.CMP_CNT_UNFIT).logLane (s.strmQueue l.stream / 16) .CMP_UNFIT 0 l.items).rawRecord l)
      | some (shift, words) =>
        if selfCheckFailures.val = 2 then .next (s1.selfCheckFailed l)
        else
          let s2 := s1.bump Reg.CMP_STAT_BLOCKS
          let s3 := if shift = 0 then s2 else s2.bump Reg.CMP_STAT_LOSSY
          .next (s3.completeRecord l ratio words false)

/-! ### The block decoders (R342 to R344) -/

/-- Two 32-bit values in a word. -/
def pairWord (a b : Int) : W64 := BitVec.ofNat 64 ((unsigned 32 a) <<< 32 + unsigned 32 b)

/-- The values d_0 to d_63 in 32 words, d_2i in the upper half (R357). -/
def valueWords (d : List Int) : List W64 := (List.range 32).map (fun i => pairWord (d.getD (2 * i) 0) (d.getD (2 * i + 1) 0))

/-- The words of a block of a ratio code (R357). -/
def blockLen (ratio : Nat) : Nat := if ratio = 0 then 32 else budget ratio / 64

/-- DECODE: a block from a host is fully checked; a mask of 0 returns its values, any other the mask alone (R342). -/
def execDecode (l : Fin 4) (h : CmdHdr) (ratio : BitVec 2) (block : List W64) (s : State) : Res :=
  .next (s.command l h 0x12 (BitVec.ofNat 64 ratio.toNat :: block) 0 false (fun t =>
    t.needWords block (blockLen ratio.toNat) (
      if ratio.toNat = 0 then { st := t.setF Reg.CMP_MASK_MASK 0, words := 0 :: block }
      else
        let (m, d) := decodeHost ratio.toNat block
        let t1 := t.setF Reg.CMP_MASK_MASK m
        if m = 0 then { st := t1, words := 0 :: valueWords d }
        else { st := t1.bump Reg.CMP_CNT_HOST_FAULT, words := [BitVec.ofNat 64 m] })))

/-- The records of a packet's payload, n at most: header words 0 to 7 and the block. -/
def splitRecords : Nat → List W64 → List (List W64 × List W64)
  | 0, _ => []
  | n + 1, l =>
    if l.length < 9 then []
    else
      let len := blockLen (bits (l.getD 1 0) 37 36)
      (l.take 8, (l.drop 8).take len) :: splitRecords n (l.drop (8 + len))

/-- The ring words of a peer's record and whether its CRC16 failed: words 0 and 1, then COUNT sample words (R343, R344). -/
def peerRecord (hdr block : List W64) : List W64 × Bool :=
  let w1 := hdr.getD 1 0
  let ratio := bits w1 37 36
  let count := bits w1 43 38 + 1
  let first := (hdr.getD 0 0).toNat
  let stride := bits w1 23 0
  let (d, ok) := if ratio = 0 then (rawValues block, true) else decodePeer ratio block
  let poison := bit w1 35 || !ok
  let flag (i : Nat) : Nat :=
    ((List.range 6).map (fun b => if bit (hdr.getD (2 + b) 0) i then 2 ^ (6 - b) else 0)).sum + b2n poison
  (hdr.getD 0 0 :: w1 :: (List.range count).map (fun i =>
    sampleWord (d.getD i 0) (bits w1 52 44) (flag i) ((first + i * stride) % 65536)), !ok)

/-- Words written into a peer receive ring in engine bulk memory (R344). -/
def State.putRing (s : State) (j : Nat) : List W64 → State
  | [] => s
  | v :: r =>
    let wp := (s.reg (Reg.CMP_RX_WP j)).toNat
    let a := s.getF (Reg.CMP_RX_RING_BASE j) * 1024 + wp % 2 ^ s.getF (Reg.CMP_RX_RING_SIZE j)
    ((s.setDramWord a v).setReg (Reg.CMP_RX_WP j) (BitVec.ofNat 64 (wp + 1))).putRing j r

/-- PEER_PACKET: a compressed stream packet of a peer on a chain port, addressed to SW_MAC, is decoded into the ring of the
entry that it matches; a block that fails CRC16 is delivered with POISON (R343, R344). -/
def execPeerPacket (l : Fin 4) (smac dmac : BitVec 48) (words : List W64) (s : State) : Res :=
  let h0 := words.getD 0 0
  let h3 := words.getD 3 0
  let cmode := bits h3 39 36
  let coded := cmode == 1 || cmode == 2 || cmode == 3 || cmode == 8
  if s.getF (Reg.LANE_CFG_ROLE l) ≠ 1 ∨ dmac.toNat ≠ s.getF Reg.SW_MAC_MAC ∨ bits h0 59 56 ≠ 1 then .next s
  else
    match (List.range 8).find? (fun j => s.flag (Reg.CMP_RX_CFG_EN j) && s.getF (Reg.CMP_RX_CFG_STREAM j) == bits h0 55 45
        && s.getF (Reg.CMP_RX_CFG_SMAC j) == smac.toNat) with
    | none => if coded then .next (s.bump Reg.CMP_LAST_RX_UNMATCHED) else .next s
    | some j =>
      if !coded then .next (s.bump Reg.CMP_LAST_RX_UNMATCHED)
      else
        let seq := bits h0 31 0
        let recs := splitRecords 16 (words.drop 4)
        let out := recs.map (fun r => peerRecord r.1 r.2)
        let bad := (out.filter (fun o => o.2)).length
        let gap := match s.peerSeq.get (fun _ => none) j with
          | some p => decide (seq ≠ (p + 1) % 2 ^ 32)
          | none => false
        let s1 := out.foldl (fun t o => t.putRing j o.1) s
        let s2 := ((s1.bump (Reg.CMP_RX_CNT_PKTS j)).addF (Reg.CMP_RX_CNT_CRCFAIL j) bad).addF Reg.CMP_CNT_PEER_CRC bad
        let s3 := if gap then s2.bump (Reg.CMP_RX_CNT_SEQGAP j) else s2
        let s4 : State := { s3 with peerSeq := s3.peerSeq.set (fun _ => none) j (some seq) }
        if bad = 0 then .next s4
        else .next (s4.log .CMP_PEER_CRC 0 [BitVec.ofNat 64 smac.toNat, BitVec.ofNat 64 (bits h0 55 45), BitVec.ofNat 64 seq])

/-- The tests of a write to CMP_RX_RING or CMP_RX_CFG: an enabled entry only takes EN = 0 (R344); the ring's place. -/
def State.checkRxRing (s : State) (j : Nat) (v : W64) : Option Cond :=
  let size := bits v 4 0
  let base := bits v 63 32
  firstFail [(decide (10 ≤ size ∧ size ≤ 24) && decide (base * 1024 + 2 ^ size ≤ s.bulkWords) &&
      decide (base % 2 ^ (size - 10) = 0), .CMP_RX_PLACE), (!s.flag (Reg.CMP_RX_CFG_EN j), .CMP_RX_LIVE)]

/-- The tests of a write to CMP_RX_CFG. -/
def State.checkRxCfg (s : State) (j : Nat) (v : W64) : Option Cond :=
  if s.flag (Reg.CMP_RX_CFG_EN j) && bit v 63 then some .CMP_RX_LIVE else none

/-- An entry that is enabled counts its words from 0 and knows no packet before (R344). -/
def State.rxCfgWritten (s : State) (j : Nat) (old : W64) : State :=
  if !bit old 63 && s.flag (Reg.CMP_RX_CFG_EN j) then
    { s.setReg (Reg.CMP_RX_WP j) 0 with peerSeq := s.peerSeq.set (fun _ => none) j none }
  else s

/-! ### Replay (R326 to R329) -/

/-- The replay of a port with a tag. -/
def State.replay (s : State) (port tag : Nat) : Option Replay := s.led.replays.find? (fun r => r.port == port && r.tag == tag)

/-- A replay replaced, or ended. -/
def State.setReplay (s : State) (port tag : Nat) (x : Option Replay) : State :=
  { s with led := { s.led with replays := s.led.replays.flatMap (fun r =>
    if r.port == port && r.tag == tag then x.toList else [r]) } }

/-- A record holds an instant from a to b. -/
def LedRec.holds (r : LedRec) (a b : Nat) : Bool := (List.range r.count).any (fun i => decide (a ≤ r.first + i * r.stride) && decide (r.first + i * r.stride ≤ b))

/-- The contents of a lane on die as a raw short record (R327). -/
def LedLane.asRecord (l : LedLane) : LedRec :=
  { stream := l.stream, chan := l.chan, first := l.first, count := l.vals.length, stride := l.stride, ratio := 0
    words := l.recordWords 0 (rawWords (fill64 l.vals)), orig := l.vals, pos := 0, bad := false }

/-- Record r comes before record k: FIRST, then CHAN. -/
def recBefore (r k : Nat × Nat) : Bool := decide (r.1 < k.1) || (r.1 == k.1 && decide (r.2 < k.2))

/-- The next record of a replay: the first in order of FIRST after the one sent last. -/
def State.nextRecord (s : State) (r : Replay) : Option LedRec :=
  let all := s.led.ring ++ s.led.raws ++ (s.led.blocks ++ s.led.lanes).map LedLane.asRecord
  let fit := all.filter (fun k => k.stream == r.stream && decide (r.chlo ≤ k.chan) && decide (k.chan ≤ r.chhi) && k.holds r.from_ r.to_
    && (match r.cursor with
      | some c => recBefore c (k.first, k.chan)
      | none => true))
  fit.foldl (fun best k => match best with
    | none => some k
    | some b => if recBefore (k.first, k.chan) (b.first, b.chan) then some k else some b) none

/-- The records of the next replay packet: up to n more, within the words that are left. -/
def State.packRecords (s : State) : Nat → Nat → Replay → List LedRec × Replay
  | 0, _, r => ([], r)
  | n + 1, room, r =>
    match s.nextRecord r with
    | none => ([], r)
    | some k =>
      if k.words.length ≤ room then
        let r' := { r with
          cursor := some (k.first, k.chan)
          spans := (k.chan, k.first, k.lastInstant + (k.stride - 1), k.bad) :: r.spans }
        let (ks, r2) := s.packRecords n (room - k.words.length) r'
        (k :: ks, r2)
      else ([], r)

/-- The header words of a packet (R309). -/
def packetHeader (ftype stream tag seq first h2 flags words cmode check : Nat) : List W64 :=
  [BitVec.ofNat 64 (1 <<< 60 + ftype <<< 56 + stream <<< 45 + tag <<< 32 + seq % 2 ^ 32), BitVec.ofNat 64 first,
   BitVec.ofNat 64 h2, BitVec.ofNat 64 (flags <<< 57 + words <<< 40 + cmode <<< 36 + check)]

/-- REPLAY: a replay request is tested in the order of R326 and begun. -/
def execReplay (l : Fin 4) (h : CmdHdr) (w1 w2 w3 : W64) (s : State) : Res :=
  .next (s.command l h 0x10 [w1, w2, w3] 0 false (fun t =>
    let st := bits w1 63 53
    let hi := bits w1 52 44
    let lo := bits w1 43 35
    match firstFail [(!(t.kind st == 6), .LED_REPLAY_STREAM),
        (decide (lo ≤ hi) && decide (hi ≤ 391) && decide (w2.toNat ≤ w3.toNat), .LED_REPLAY_RANGE),
        (decide ((t.led.replays.filter (fun r => r.port == l.val)).length < 4), .LED_REPLAY_BUSY)] with
    | some c => t.refused c 0 0x10 l
    | none =>
      { st := { t with led := { t.led with replays := t.led.replays ++
          [{ port := l, tag := bits w1 12 0, stream := st, chlo := lo, chhi := hi, from_ := w2.toNat, to_ := w3.toNat
             prio := bits w1 34 32, dst := h.src.toNat, seq := 0, cursor := none, spans := [], status := none
             cut := false, abort := false }] } } }))

/-- REPLAY_ABORT: the port's replay with the tag ends; what is not yet sent is reported with code 5 (R326). -/
def execReplayAbort (l : Fin 4) (h : CmdHdr) (tag : BitVec 13) (s : State) : Res :=
  .next (s.command l h 0x11 [BitVec.ofNat 64 tag.toNat] 0 false (fun t =>
    match t.replay l tag.toNat with
    | some r => { st := t.setReplay l tag.toNat (some { r with abort := true }) }
    | none => { st := t }))

/-- REPLAY_PACKET: the next packet of records, up to 129 payload words with CMODE 8, goes to the requester while the lane can
take it (R327). -/
def execReplayPacket (l : Fin 4) (tag : BitVec 13) (s : State) : Res :=
  match s.replay l tag.toNat with
  | none => .next s
  | some r =>
    if r.abort || r.cut || r.status.isSome || !s.laneUp (s.carrier l) then .next s
    else
      match s.packRecords 16 129 r with
      | ([], _) => .next s
      | (k :: ks, r') =>
        let recs := k :: ks
        let words := recs.flatMap (fun x => x.words)
        let check := crc32c (recs.flatMap (fun x => valueBytes x.orig))
        let bad := (recs.filter (fun x => x.bad)).length
        let s1 := s.addF Reg.LED_STAT_RDFAIL bad
        let mark (b : Nat) : Bool := recs.any (fun x => bit (x.words.getD 1 0) b)
        let fl := 32 * b2n (mark 34) + 16 * b2n (mark 33) + (if bad = 0 then 0 else 8)
        let frame := packetHeader 2 r.stream r.tag r.seq k.first (s.h2At k.first) fl words.length 8 check ++ words
        .next ((s1.setReplay l tag.toNat (some { r' with seq := r.seq + 1 })).sendNeil l r.prio r.dst frame)

/-- No output word of a channel was delivered at slot n between the instants of a restart of the grid or of its bank (R133, R436). -/
def State.paused (s : State) (c n : Nat) : Bool := (s.flt c).gaps.any (fun g => decide (g.1 < n) && decide (n < g.2))

/-- The status code of a channel and slot (R328). -/
def State.replayCode (s : State) (r : Replay) (c n : Nat) : Nat :=
  match r.spans.find? (fun p => p.1 == c && decide (p.2.1 ≤ n) && decide (n ≤ p.2.2.1)) with
  | some p => if p.2.2.2 then 4 else 0
  | none =>
    let x := s.strmSt r.stream
    let streamed := x.runs.any (fun q => decide (q.1 ≤ n) && (match q.2.1 with
      | some e => decide (n < e)
      | none => true) && decide (q.2.2.1 ≤ c) && decide (c ≤ q.2.2.2))
    if r.cut then 3
    else if !s.acquired n || decide (s.now < n) || s.paused c n then 1
    else if !streamed then 2
    else if n < (s.reg Reg.LED_HORIZON).toNat then 3
    else if r.abort then 5 else 2

/-- The slots at which a status code of a channel may change, within the request. -/
def State.replayBreaks (s : State) (r : Replay) (c : Nat) : List Nat :=
  let opt (o : Option Nat) : List Nat := o.toList
  let all := [r.from_, s.now + 1, (s.reg Reg.LED_HORIZON).toNat] ++
    s.mode.spans.flatMap (fun p => p.1 :: opt p.2) ++ (s.strmSt r.stream).runs.flatMap (fun q => q.1 :: opt q.2.1) ++
    (r.spans.filter (fun p => p.1 == c)).flatMap (fun p => [p.2.1, p.2.2.1 + 1]) ++ (s.flt c).gaps.flatMap (fun g => [g.1 + 1, g.2])
  ((all.filter (fun n => decide (r.from_ ≤ n) && decide (n ≤ r.to_))).mergeSort (fun a b => decide (a ≤ b))).eraseDups

/-- The runs of equal status code of a channel: (code, first slot, last slot). -/
def State.replayRuns (s : State) (r : Replay) (c : Nat) : List (Nat × Nat × Nat) :=
  let bs := s.replayBreaks r c
  let raw := (List.range bs.length).map (fun i =>
    let a := bs.getD i 0
    (s.replayCode r c a, a, if i + 1 < bs.length then bs.getD (i + 1) 0 - 1 else r.to_))
  raw.foldl (fun acc x => match acc.getLast? with
    | some y => if y.1 = x.1 then acc.dropLast ++ [(y.1, y.2.1, x.2.2)] else acc ++ [x]
    | none => [x]) []

/-- The status entries of a replay: runs of consecutive channels with the same codes share their entries (R328). -/
def State.replayStatus (s : State) (r : Replay) : List (Nat × Nat × Nat × Nat × Nat) :=
  let chans := (List.range (r.chhi + 1 - r.chlo)).map (fun i => r.chlo + i)
  let groups := chans.foldl (fun (acc : List (Nat × Nat × List (Nat × Nat × Nat))) c =>
    let rs := s.replayRuns r c
    match acc.getLast? with
    | some g => if g.2.2 = rs then acc.dropLast ++ [(g.1, c, rs)] else acc ++ [(c, c, rs)]
    | none => [(c, c, rs)]) []
  groups.flatMap (fun g => g.2.2.map (fun x => (x.1, g.1, g.2.1, x.2.1, x.2.2)))

/-- The three words of a status entry (R328). -/
def statusWords (e : Nat × Nat × Nat × Nat × Nat) : List W64 :=
  [BitVec.ofNat 64 (e.1 <<< 60 + e.2.2.1 <<< 9 + e.2.1), BitVec.ofNat 64 e.2.2.2.1, BitVec.ofNat 64 e.2.2.2.2]

/-- REPLAY_STATUS_PACKET: once no record is left to send, packets of up to 43 status entries go out; the last carries LAST and
the replay ends (R328). -/
def execReplayStatusPacket (l : Fin 4) (tag : BitVec 13) (s : State) : Res :=
  match s.replay l tag.toNat with
  | none => .next s
  | some r =>
    if !s.laneUp (s.carrier l) || !(r.abort || r.cut || r.status.isSome || (s.nextRecord r).isNone) then .next s
    else
      let es := r.status.getD (s.replayStatus r)
      let now := es.take 43
      let rest := es.drop 43
      let words := now.flatMap statusWords
      let fl := if rest.isEmpty then 64 else 0
      let at_ := (now.head?.map (fun e => e.2.2.2.1)).getD r.from_
      let frame := packetHeader 2 r.stream r.tag r.seq at_ (s.h2At at_) fl words.length 9
        (crc32c (words.flatMap (fun w => beBytes 8 w.toNat))) ++ words
      let x := if rest.isEmpty then none else some { r with seq := r.seq + 1, status := some rest }
      .next ((s.setReplay l tag.toNat x).sendNeil l r.prio r.dst frame)

end Sys2Proof.Machine
end

