-- ==== Sys2Proof/Machine/Clock.lean ====
section
/-!
DEFINITION. Sys2Proof/Machine/Clock.lean: the root clock, the time bases' increments and the slot edge on the sampling time base
(R17 to R20, R214, R248 to R252).
-/
namespace Sys2Proof.Machine
open Sys2Proof

/-- A time base. -/
def State.tb (s : State) (t : Nat) : TbSt := s.tbs.get (fun _ => {}) t
/-- A time base replaced. -/
def State.setTb (s : State) (t : Nat) (x : TbSt) : State := { s with tbs := s.tbs.set (fun _ => {}) t x }

/-- Nanoseconds in units of 2^-48 ns. -/
def nsUnits (ns : Nat) : Nat := ns * 2 ^ 48
/-- A second in units of 2^-48 ns. -/
def secUnits : Nat := 10 ^ 9 * 2 ^ 48
/-- A slot in units of 2^-48 ns. -/
def slotUnits : Nat := 4000 * 2 ^ 48

/-- INC of a frequency term in units of 2^-40: 87,960,930,222,080 · (1 + y) = 80 · (2^40 + 2^40·y), exactly (R248). -/
def incOf (y : Int) : Nat := (80 * (2 ^ 40 + y)).toNat

/-- SEC, and NS with FRAC as TB_NS shows them (R248). -/
def TbSt.sec (x : TbSt) : Nat := x.time / secUnits
/-- NS. -/
def TbSt.ns (x : TbSt) : Nat := x.time % secUnits / 2 ^ 48
/-- FRAC. -/
def TbSt.frac (x : TbSt) : Nat := x.time % 2 ^ 48 / 2 ^ 16

/-- A time base after k root ticks: each adds INC; a commanded SLEW runs at y until it has moved the time by its offset
against a run at YI, and at YI from there (R248, R258); where the servo runs the other way meanwhile, what is left grows. -/
def TbSt.run (x : TbSt) (y yi : Int) (k : Nat) : TbSt :=
  match x.slew with
  | none => { x with time := x.time + k * incOf y }
  | some rest =>
    let r := 80 * (y - yi)
    let need := ceilDiv rest.natAbs (Nat.max 1 r.natAbs)
    if (rest = 0 ∨ 0 < rest * r) ∧ need ≤ k then { x with time := x.time + need * incOf y + (k - need) * incOf yi, slew := some 0 }
    else { x with time := x.time + k * incOf y, slew := some (rest - k * r) }

/-- k root ticks pass: the time bases run in every mode but Bivouac (R17, R248, R249). -/
def State.advance (s : State) (k : Nat) : State :=
  let s1 : State := { s with clk := { s.clk with uptime := s.clk.uptime + k, tick := s.clk.tick + k } }
  if s.cur = 0 then s1
  else [0, 1, 2, 3].foldl (fun u t => u.setTb t ((u.tb t).run (u.getS (Reg.TB_FREQ_Y t)) (u.getS (Reg.TB_FREQ_YI t)) k)) s1

/-- The slot an instant of a time base lies in (R250). -/
def State.tbSlot (s : State) (t : Nat) : Nat := (s.tb t).time / slotUnits

/-- The slot in progress taken afresh from the sampling time base, after a set, a step or a selection; what was recorded
of the lock under slot numbers that come again is let go (R250, R252, R258). -/
def State.reslot (s : State) : State :=
  let x := s.tb s.sampTb
  { s with clk := { s.clk with slot := x.time / slotUnits, tick := x.time % slotUnits / (80 * 2 ^ 40) }
           fabric := { s.fabric with locks := s.fabric.locks.filter (fun e => decide (e.1 < x.time / slotUnits)) } }

/-- The difference in TDC bins, rounded to the nearest, between a hold strobe at step 32 after the present root tick and
slot n's instant on the sampling time base; positive when the strobe would come late (R19). -/
def State.edgeError (s : State) (n : Nat) : Int :=
  let inc := incOf (s.getS (Reg.TB_FREQ_Y s.sampTb))
  roundAway (((s.tb s.sampTb).time : Int) * 64 + 32 * (inc : Int) - ((n * slotUnits : Nat) : Int) * 64) inc

/-- The slot edge of slot n: the rest of the slot passes, its last converter clock period 31, 32 or 33 root ticks long so
that the error lies within half a root tick, and the delay line takes the step that puts the hold instant on
n × 4 µs (R19). -/
def State.placeEdge (s : State) (n : Nat) : State :=
  let k := 12800 - s.clk.tick
  let d := (s.advance k).edgeError n
  let k' := if 32 < d then k - 1 else if d < -32 then k + 1 else k
  let s1 := s.advance k'
  let step := (clampI 0 63 (32 - s1.edgeError n)).toNat
  { s1 with clk := { s1.clk with slot := n, tick := 0, step := step, period := 32 + k' - k, edges := s1.clk.edges + 1 } }

/-- The hold instant of the present slot, in TDC bins since reset, recorded with those that may still be asked for: the 64
newest and all from `need` on (R66, R214). -/
def State.recordHold (s : State) (need : Nat) : State :=
  let h := (s.now, s.clk.uptime * 64 + s.clk.step) :: s.fabric.holds
  { s with fabric := { s.fabric with holds := h.take 64 ++ (h.drop 64).takeWhile (fun e => decide (need ≤ e.2 + 1000000)) } }

/-- The slot and BIN of an instant in TDC bins since reset (R214). -/
def State.place (s : State) (bins : Nat) : Nat × Nat :=
  match s.fabric.holds.find? (fun h => decide (h.2 ≤ bins)) with
  | some h => (h.1, bins - h.2)
  | none => (0, 0)

/-- The hold instant of a slot in TDC bins since reset, if it is recorded. -/
def State.holdOf (s : State) (n : Nat) : Option Nat := (s.fabric.holds.find? (fun h => h.1 == n)).map (fun h => h.2)

/-- The number of converter clock edges since reset: one each 32 root ticks. -/
def State.edgeNow (s : State) : Nat := s.clk.uptime / 32

/-- TDC bins since reset. -/
def State.binsNow (s : State) : Nat := s.clk.uptime * 64

/-- TIME_BASE_TICK: one root tick: each time base adds INC and carries nanoseconds into seconds (R248). -/
def execTimeBaseTick (s : State) : Res := .next (s.advance 1)

end Sys2Proof.Machine
end

