-- ==== Sys2Proof/Machine/Capture.lean ====
section
/-!
DEFINITION. Sys2Proof/Machine/Capture.lean: fast capture and triggering: crossings, trigger units, records and descriptors, the
miss log, spill and copies (R212 to R233).
-/
namespace Sys2Proof.Machine
open Sys2Proof

/-! ### Descriptors and units -/

/-- A trigger unit. -/
def State.unit (s : State) (u : Nat) : TrigSt := s.cap.units.get (fun _ => {}) u
/-- A trigger unit replaced. -/
def State.setUnit (s : State) (u : Nat) (x : TrigSt) : State :=
  { s with cap := { s.cap with units := s.cap.units.set (fun _ => {}) u x } }

/-- Word w of a descriptor (R221). -/
def State.desc (s : State) (i w : Nat) : W64 := s.cap.descs.get (fun _ => 0) (16 * i + w)
/-- Word w of a descriptor replaced. -/
def State.setDesc (s : State) (i w : Nat) (v : W64) : State :=
  { s with cap := { s.cap with descs := s.cap.descs.set (fun _ => 0) (16 * i + w) v } }

/-- STATE of a descriptor: 0 FREE, 1 ARMED, 2 OPEN, 3 CLOSED, 4 DISARMED. -/
def State.descState (s : State) (i : Nat) : Nat := bits (s.desc i 3) 63 60
/-- STATE of a descriptor replaced. -/
def State.setDescState (s : State) (i v : Nat) : State := s.setDesc i 3 (setBits (s.desc i 3) 63 60 v)

/-- The region of a descriptor in bytes of the capture region: start and length. -/
def State.descBase (s : State) (i : Nat) : Nat := bits (s.desc i 0) 63 32 * 4096
/-- LEN_PG in bytes. -/
def State.descLen (s : State) (i : Nat) : Nat := bits (s.desc i 0) 31 0 * 4096
/-- PRE. -/
def State.descPre (s : State) (i : Nat) : Nat := bits (s.desc i 1) 63 32
/-- NEXT. -/
def State.descNext (s : State) (i : Nat) : Nat := bits (s.desc i 1) 23 16
/-- SPILL. -/
def State.descSpill (s : State) (i : Nat) : Bool := bit (s.desc i 1) 8
/-- CHMASK. -/
def State.descMask (s : State) (i : Nat) : Nat := bits (s.desc i 1) 7 0
/-- SPILL_STREAM. -/
def State.descStream (s : State) (i : Nat) : Nat := bits (s.desc i 2) 58 48
/-- POST. -/
def State.descPost (s : State) (i : Nat) : Nat := bits (s.desc i 2) 39 0
/-- The bytes of a frame (R222). -/
def State.frameBytes (s : State) (i : Nat) : Nat := 2 * popcount 8 (s.descMask i)

/-- TRG_STAT.STATE of a unit. -/
def State.trgState (s : State) (u : Nat) : Nat := s.getF (Reg.TRG_STAT_STATE u)
/-- The descriptor in use. -/
def State.trgDesc (s : State) (u : Nat) : Nat := s.getF (Reg.TRG_STAT_DESC u)
/-- TRG_STAT.STATE written, with the bits of CAP_STATUS that follow it. -/
def State.setTrg (s : State) (u st : Nat) : State :=
  let put (t : State) (f : Fld) (b : Bool) : State := t.setF f (withBit (t.getF f) u b)
  put (put (put (s.setF (Reg.TRG_STAT_STATE u) st) Reg.CAP_STATUS_ARMED (st == 1 || st == 2)) Reg.CAP_STATUS_OPEN (st == 3))
    Reg.CAP_STATUS_REARM (decide (4 ≤ st))

/-- Some record is OPEN. -/
def State.anyOpen (s : State) : Bool := (List.range 8).any (fun u => s.trgState u == 3)

/-- The octets of the capture region (R21). -/
def State.capSize (s : State) : Nat := s.cfg.parts.1 * 2 ^ 26

/-! ### The trigger configuration (R216 to R219) -/

/-- TRG_CFG.DEC: a decimated source. -/
def State.trgDec (s : State) (u : Nat) : Bool := s.effFlag (Reg.TRG_CFG_DEC u)
/-- TRG_CFG.SRC. -/
def State.trgSrc (s : State) (u : Nat) : Nat := s.effF (Reg.TRG_CFG_SRC u)

/-- The configuration of a unit is valid (R219); a source index that names no channel is not (DEDUCED from R216, log 13). -/
def State.trgValid (s : State) (u : Nat) : Bool :=
  let ty := s.getF (Reg.TRG_CFG_TYPE u)
  let mode := s.getF (Reg.TRG_CFG_MODE u)
  let dec := s.flag (Reg.TRG_CFG_DEC u)
  let src := s.getF (Reg.TRG_CFG_SRC u)
  let t1 := s.getF (Reg.TRG_T1_T u)
  let t2 := s.getF (Reg.TRG_T2_T u)
  let two := ty == 2 || ty == 4
  let k := src - 384
  decide (ty ≤ 4) && decide (s.getF (Reg.TRG_CFG_POL u) ≤ 2) &&
  decide (mode ≤ if ty = 1 then 1 else if ty = 4 then 2 else 0) &&
  !(ty == 1 && mode == 0 && decide (t2 < t1)) && !(ty == 3 && t1 == 0) &&
  (if dec then decide (src ≤ 391) && (!two || decide (s.getS (Reg.TRG_DTH_DTH_B u) < s.getS (Reg.TRG_DTH_DTH_A u)))
   else decide (384 ≤ src) && decide (src ≤ 391) && s.flag (Reg.FC_CMP_EN_A k) && (!two || s.flag (Reg.FC_CMP_EN_B k)) &&
    (!two || decide (s.getS (Reg.FC_CMP_TH_B k) < s.getS (Reg.FC_CMP_TH_A k))))

/-- The tests of a write to TRG_CFG, TRG_T1, TRG_T2, TRG_DTH or TRG_DHYS (R219). -/
def State.checkTrg (s : State) (u : Nat) : Option Cond := if s.trgState u = 0 then none else some .TRG_CFG_LIVE

/-- The tests of a write to FC_CMP: any unit with the channel as its source, by its comparators or its output words (R216, R219). -/
def State.checkFcCmp (s : State) (k : Nat) : Option Cond :=
  if (List.range 8).any (fun u => s.trgState u != 0 && s.getF (Reg.TRG_CFG_SRC u) == 384 + k) then
    some .FC_CMP_LIVE else none

/-! ### Arming (R223) -/

/-- Two byte ranges meet. -/
def rangesMeet (a n b m : Nat) : Bool := decide (a < b + m) && decide (b < a + n)

/-- Tests 5 to 10 of R223 on a descriptor. A POST of 0 fails the size test (DEDUCED from R221, log 13). -/
def State.armRecord (s : State) (i : Nat) : Option Cond :=
  let mask := s.descMask i
  let n := popcount 8 mask
  let fb := s.frameBytes i
  let base := s.descBase i
  let len := s.descLen i
  let busy := (List.range 255).any (fun j => (s.descState j == 1 || s.descState j == 2 || s.descState j == 3) &&
    rangesMeet base len (s.descBase j) (s.descLen j))
  let copying := match s.cap.copy with
    | some c => rangesMeet base len (s.descBase c.desc) (s.descLen c.desc)
    | none => false
  let st := s.descStream i
  firstFail [(s.descState i == 0, .CAP_DESC_STATE),
    ((n == 1 || n == 2 || n == 4 || n == 8) && (bitsSet 8 mask).all (fun k => s.flag (Reg.FC_CFG_EN k)), .CAP_ARM_MASK),
    (decide (4096 ≤ len) && decide (len ≤ 1048576 * 4096) && decide (base + len ≤ s.capSize), .CAP_ARM_RANGE),
    (!(busy || copying), .CAP_ARM_OVERLAP),
    (s.descSpill i || (decide (1 ≤ s.descPost i) && decide ((s.descPre i + s.descPost i) * fb ≤ len)), .CAP_ARM_SIZE),
    (!s.descSpill i || (decide (1 ≤ s.descPost i) && decide (s.descPre i * fb + 8192 ≤ len) && (s.strmSt st).on && s.kind st == 6),
      .CAP_ARM_SPILL)]

/-- The tests of an arm, in the order of R223; a program's arm outside Summit is logged as ENG_TRIGARM_MODE (R206). -/
def State.armTests (s : State) (program : Bool) (u i : Nat) : Option Cond :=
  (firstFail [(s.summitLike, if program then .ENG_TRIGARM_MODE else .TRG_ARM_MODE), (s.trgState u == 0, .TRG_BUSY),
    (s.trgValid u, .TRG_CFG_INVALID), (decide (i ≤ 255), .CAP_DESC_INDEX)]).orElse
    (fun _ => if i = 255 then none else s.armRecord i)

/-- A unit armed from converter clock `at_` on: PREFILL with its descriptor ARMED, or READY without a record; it works on crossings
from frame 0 on (R223, R224, R233). -/
def State.armAt (s : State) (u i at_ : Nat) : State :=
  let old := s.unit u
  let x : TrigSt := { armAt := at_, armM := s.now - 6, lvlA := old.lvlA, lvlB := old.lvlB, decA := old.decA,
                      decB := old.decB, stamps := old.stamps
                      seen := (if s.flag (Reg.TRG_CFG_DEC u) then s.now - 7 else (at_ - 14) * 2048 - 1) }
  let s1 := (s.setUnit u x).setF (Reg.TRG_STAT_DESC u) i
  if i = 255 then s1.setTrg u 2 else (s1.setDescState i 1).setTrg u 1

/-- An arm of a unit with a descriptor, at the first converter clock after it (R223). -/
def State.arm (s : State) (program : Bool) (port u i : Nat) : WriteRes :=
  match s.armTests program u i with
  | some c => (s.logTo (.refusal port) c u [BitVec.ofNat 64 i, BitVec.ofNat 64 port], some c)
  | none => (s.armAt u i (s.edgeNow + 1), none)

/-! ### Frames and records (R222, R225) -/

/-- The aperture of frame 0 of a unit's pre-fill, as a converter clock (R223). -/
def TrigSt.first (x : TrigSt) : Nat := x.armAt - 14

/-- The 16-bit code of a fast channel taken at an edge, 0 where none is held. -/
def State.fastCode (s : State) (k e : Nat) : Option Int :=
  ((s.fasts.get (fun _ => {}) k).codes.find? (fun c => c.1 == e)).map (fun c => c.2)

/-- A code at an end of the converter's range (R121). -/
def overCode (v : Int) : Bool := v == 32767 || v == -32768

/-- The codes of a frame at aperture a, in ascending channel order. -/
def State.frameCodes (s : State) (i a : Nat) : List Int := (bitsSet 8 (s.descMask i)).map (fun k => (s.fastCode k a).getD 0)

/-- The frame at aperture a reaches the capture engine and is written into the region of a unit that holds it; an overrun of a
spill ends the record before it (R222, R225, R232). -/
def State.writeFrame (s : State) (a u : Nat) : State :=
  let st := s.trgState u
  let i := s.trgDesc u
  let x := s.unit u
  if (st = 1 ∨ st = 2 ∨ st = 3) ∧ i ≠ 255 ∧ x.armAt ≤ a + 14 ∧ x.first ≤ a then
    let j := a - x.first
    let fb := s.frameBytes i
    let len := s.descLen i
    if st = 3 ∧ x.trig + x.post ≤ j then s
    else if st = 3 ∧ s.descSpill i = true ∧ len < (j + 1 - x.kept - x.spilled) * fb then
      s.setUnit u { x with post := j - x.trig, ovr := true }
    else
      let codes := s.frameCodes i a
      let at_ := s.descBase i + (j * fb) % Nat.max 1 len
      let s1 : State := { s with cap := { s.cap with
        mem := Memory.setBytes s.cap.mem at_ (codes.flatMap (fun c => beBytes 2 (unsigned 16 c)))
        bad := s.cap.bad.filter (fun b => b / 64 != at_ / 64) } }
      s1.setUnit u { x with
        nFrames := j + 1
        unlocked := (if s.sampLocked then x.unlocked else some j)
        railed := (if codes.any overCode then some j else x.railed) }
  else s

/-! ### Triggers (R220, R225, R226, R231) -/

/-- What a trigger does beside its record: it is counted and its stamp waits to be written (R220). -/
def State.trigActions (s : State) (u : Nat) (p : TrigPoint) : State :=
  (s.setUnit u { s.unit u with stamps := (s.unit u).stamps ++ [p] }).bump (Reg.TRG_STAT_TRIGS u)

/-- A miss: counted, and logged while the miss log has room (R231). -/
def State.missTrig (s : State) (u : Nat) (p : TrigPoint) : State :=
  let s1 := (s.bump (Reg.TRG_STAT_MISSES u)).bump Reg.CAP_MISS_CNT_TOTAL
  if s1.cap.misses.length < 64 then
    let i := s1.trgDesc u
    let m : Miss := { unit := u, next := (if i = 255 then 255 else s1.descNext i), slot := p.slot, bin := p.bin, frac := p.frac }
    { s1 with cap := { s1.cap with misses := s1.cap.misses ++ [m] } }
  else (s1.bump Reg.CAP_MISS_CNT_LOST).setF Reg.CAP_STATUS_MISS_OVF 1

/-- A trigger opens the record of a unit: the trigger frame, the frames kept before it, words 4 to 7 and 14 (R225, R227). -/
def State.openRecord (s : State) (u : Nat) (p : TrigPoint) (decM decFlags : Nat) : State :=
  let i := s.trgDesc u
  let x := s.unit u
  let j := p.clock - x.first
  let pre := capAt (s.descPre i) j
  let kept := j - pre
  let s1 := ((s.setUnit u { x with trig := j, kept := kept, post := s.descPost i, decM := decM, decFlags := decFlags }).setTrg u 3).setDescState i 2
  let f := s1.place ((x.first + kept) * 2048)
  ((((s1.setDesc i 4 (BitVec.ofNat 64 p.slot)).setDesc i 5 (BitVec.ofNat 64 (p.frac <<< 32 + p.bin))).setDesc i 14
    (BitVec.ofNat 64 decM)).setDesc i 6 (BitVec.ofNat 64 f.1)).setDesc i 7 (BitVec.ofNat 64 f.2)

/-- A qualified trigger at an instant in TDC bins, with the output instant and FLAGS of a decimated one: it opens a record, is a
secondary trigger, a miss, or is not taken; from a Summit exit on it is neither a secondary trigger nor a miss (R40, R224 to R226, R231,
R233). -/
def State.fire (s : State) (u bins decM decFlags : Nat) : State :=
  let pl := s.place bins
  let p : TrigPoint := { clock := bins / 2048, bins := bins, slot := pl.1, bin := pl.2, frac := bins % 2048 }
  let st := s.trgState u
  let x := s.unit u
  if st = 0 then s
  else if st = 1 ∨ st = 2 then
    if s.trgDesc u = 255 then (if p.clock < x.armAt then s else s.trigActions u p)
    else if p.clock < x.first then s
    else (s.openRecord u p decM decFlags).trigActions u p
  else if x.exitAt.any (fun lim => decide (lim ≤ p.clock * 2048)) then s
  else if st = 3 ∧ p.clock < x.first + x.trig + x.post then
    let s1 := s.setUnit u { x with
      secs := capAt (2 ^ 32 - 1) (x.secs + 1), secAt := (if x.secs = 0 then (p.slot, p.bin) else x.secAt) }
    s1.trigActions u p
  else s.missTrig u p

/-! ### Conditions (R217, R218) -/

/-- A polarity takes a crossing that rises or falls. -/
def polTakes (pol : Nat) (rising : Bool) : Bool := pol == 2 || (rising == (pol == 0))

/-- The newest crossing of one direction at or before time t (R217). -/
def lastOf (l : List (Bool × Nat)) (rising : Bool) (t : Nat) : Option Nat :=
  (l.find? (fun c => c.1 == rising && decide (c.2 ≤ t))).map (fun c => c.2)

/-- No crossing of a list that satisfies a test lies from time a up to time b, b excluded: one that falls in the word of a decimated source
in which the first one falls lies between (R217, R218; DEDUCED, log entry 90). -/
def noneBetween (l : List (Bool × Nat)) (p : Bool → Bool) (a b : Nat) : Bool :=
  !(l.any (fun c => p c.1 && decide (a ≤ c.2) && decide (c.2 < b)))

/-- The window of WIDTH and SLEW on an exact time. -/
def timeTakes (ty mode t1 t2 d : Nat) : Bool :=
  if ty = 1 then (if mode = 0 then decide (t1 ≤ d ∧ d ≤ t2) else decide (d < t1) || decide (t2 < d))
  else if mode = 0 then decide (d < t1) else if mode = 1 then decide (t2 < d) else decide (d < t1) || decide (t2 < d)

/-- A crossing of A (or B) completes the condition of a type (R217). `scale` is what one unit of T1 and T2 spans. -/
def completes (ty pol mode t1 t2 scale : Nat) (la lb : List (Bool × Nat)) (isA rising : Bool) (t : Nat) : Bool :=
  let took (from_ : Nat) : Bool := timeTakes ty mode (t1 * scale) (t2 * scale) (t - from_)
  if ty = 0 then isA && polTakes pol rising
  else if ty = 1 then
    isA && polTakes pol (!rising) && (match lastOf la (!rising) t with
      | some a => took a
      | none => false)
  else if ty = 2 then
    !isA && polTakes pol (!rising) && (match lastOf lb (!rising) t with
      | some b => noneBetween la (fun r => r == !rising) b t
      | none => false)
  else if ty = 4 then
    polTakes pol rising && (isA == rising) && (match lastOf (if rising then lb else la) rising t with
      | some a => noneBetween (if rising then la else lb) (fun r => r == rising) a t && took a
      | none => false)
  else false

/-- The crossings a unit works on: (rising, time) of A and of B, newest first, and what one unit of T1 and T2 spans. -/
def State.unitCross (s : State) (u : Nat) : List (Bool × Nat) × List (Bool × Nat) × Nat :=
  if s.trgDec u then
    let x := s.unit u
    (x.decA.map (fun c => (c.1, c.2.1)), x.decB.map (fun c => (c.1, c.2.1)), presetD ((s.effF (Reg.CH_FLT_PRESET (s.trgSrc u)))))
  else
    let f := s.fasts.get (fun _ => {}) (s.trgSrc u - 384)
    (f.crossA, f.crossB, 1)

/-- The trigger point in TDC bins of a unit's time: the stamp itself, or the hold instant of slot m + 6 (R217, R218). In REARM none
that belongs to the frames of the record to come: it waits until the re-arm takes effect (DEDUCED from R230, R231, R233, log 56). -/
def State.pointOf (s : State) (u t : Nat) : Option Nat :=
  (if s.trgDec u then s.holdOf (t + 6) else some t).filter (fun b =>
    s.trgState u != 6 || decide (b / 2048 + 14 < (s.unit u).rearmAt))

/-- The FLAGS of the word at instant m that completed a decimated condition. -/
def TrigSt.flagsAt (x : TrigSt) (m : Nat) : Nat := (((x.decA ++ x.decB).find? (fun c => c.2.1 == m)).map (fun c => c.2.2)).getD 0

/-- The earliest crossing after those judged that completes the condition of a unit, with its trigger point (R217). -/
def State.nextPoint (s : State) (u : Nat) : Option (Nat × Nat) :=
  let (la, lb, scale) := s.unitCross u
  let x := s.unit u
  let ty := s.effF (Reg.TRG_CFG_TYPE u)
  let done (isA : Bool) (c : Bool × Nat) : Bool := decide (x.seen < c.2) &&
    completes ty (s.effF (Reg.TRG_CFG_POL u)) (s.effF (Reg.TRG_CFG_MODE u)) (s.effF (Reg.TRG_T1_T u)) (s.effF (Reg.TRG_T2_T u))
      scale la lb isA c.1 c.2
  let hits := (la.filter (done true) ++ lb.filter (done false)).map (fun c => c.2)
  match minList hits with
  | none => none
  | some t => (s.pointOf u t).map (fun b => (t, b))

/-- The next trigger of a unit, six converter clocks after its point at the earliest (R220). -/
def State.nextTrigger (s : State) (u : Nat) : Option (Nat × Nat) :=
  (s.nextPoint u).filter (fun p => decide (p.2 / 2048 + 6 ≤ s.edgeNow))

/-- A unit takes the trigger of its time t with trigger point b. -/
def State.takePoint (s : State) (u t b : Nat) : State :=
  let x := s.unit u
  (s.setUnit u { x with seen := t }).fire u b (if s.trgDec u then t else 0) (if s.trgDec u then x.flagsAt t else 0)

/-- A unit's next trigger taken. -/
def State.takeTrigger (s : State) (u : Nat) : State :=
  match s.nextTrigger u with
  | none => s
  | some (t, b) => s.takePoint u t b

/-- TRIGGER_QUALIFIED: a unit qualifies its next trigger: it opens a record, or is a secondary trigger, a miss or not taken
(R220, R224 to R226, R231). -/
def execTriggerQualified (u : Fin 8) (s : State) : Res := .next (s.takeTrigger u)

/-- The first of the references, oldest first, with no later one within T1, whose instant T1 after it satisfies a test (R217). -/
def firstQuiet (t1 : Nat) (ok : Nat → Bool) : List Nat → Option Nat
  | [] => none
  | r :: l => match l with
    | [] => if ok (r + t1) then some r else none
    | q :: _ => if decide (r + t1 ≤ q) && ok (r + t1) then some r else firstQuiet t1 ok l

/-- The output word of an instant of a unit's decimated source, if the channel delivered one (R218). -/
def State.sourceWord (s : State) (u m : Nat) : Option Out := (s.flt (s.trgSrc u)).outs.find? (fun o => o.at_ == m)

/-- The reference of a TIMEOUT unit and the instant T1 after it: its arm taking effect or a crossing of its polarity, the earliest after
the one it fired for that no crossing of its polarity follows within T1. A decimated source is evaluated at its output words, so one
that does not acquire at the instant brings no trigger (R217, R218; DEDUCED, log entry 90). -/
def State.timeoutRef (s : State) (u : Nat) : Option (Nat × Nat) :=
  let (la, _, scale) := s.unitCross u
  let x := s.unit u
  let t1 := s.effF (Reg.TRG_T1_T u) * scale
  let armed := if s.trgDec u then x.armM else x.armAt * 2048
  let later := ((la.filter (fun c => polTakes (s.effF (Reg.TRG_CFG_POL u)) c.1 && decide (armed < c.2))).map (fun c => c.2)).reverse
  let fresh := (armed :: later).filter (fun r => match x.toUsed with
    | some n => decide (n < r)
    | none => true)
  (firstQuiet t1 (fun t => !s.trgDec u || (s.sourceWord u t).isSome) fresh).map (fun r => (r, r + t1))

/-- The next timeout of a TIMEOUT unit: its reference, its time and its trigger point (R217). -/
def State.nextTimeout (s : State) (u : Nat) : Option (Nat × Nat × Nat) :=
  if s.effF (Reg.TRG_CFG_TYPE u) ≠ 3 ∨ s.trgState u = 0 then none
  else match s.timeoutRef u with
    | none => none
    | some (r, t) => (s.pointOf u t).map (fun b => (r, t, b))

/-- A TIMEOUT unit takes the trigger of its reference r at time t with trigger point b, with the FLAGS of a decimated source's word at t
(R217, R218). -/
def State.takeTimeout (s : State) (u r t b : Nat) : State :=
  let word := if s.trgDec u then s.sourceWord u t else none
  (s.setUnit u { s.unit u with toUsed := some r }).fire u b (if s.trgDec u then t else 0) ((word.map (fun o => o.flags)).getD 0)

/-- TRIGGER_TIMEOUT: no crossing for T1 after the reference of a TIMEOUT unit: the reference plus T1 is the trigger point,
qualified six converter clocks after it (R217, R220). -/
def execTriggerTimeout (u : Fin 8) (s : State) : Res :=
  match s.nextTimeout u with
  | none => .next s
  | some (r, t, b) => if b / 2048 + 6 ≤ s.edgeNow then .next (s.takeTimeout u r t b) else .next s

/-- CROSSING: a comparator of a fast channel changes; the stamp, in TDC bins since reset, is corrected by FC_CSKEW. Two crossings
of a comparator within 16 root ticks are both discarded and counted as a pair (R212 to R214). -/
def execCrossing (k : Fin 8) (cmp : Comparator) (rising : Bool) (stamp : Nat) (s : State) : Res :=
  let isA := cmp == .a
  let on := s.effFlag (if isA then Reg.FC_CMP_EN_A k else Reg.FC_CMP_EN_B k)
  if !on then .next s
  else
    let t := ((stamp : Int) - s.getS (Reg.FC_CSKEW_SKEW k)).toNat
    let f := s.fasts.get (fun _ => {}) k
    let l := if isA then f.crossA else f.crossB
    let put (t : State) (l : List (Bool × Nat)) : State :=
      { t with fasts := t.fasts.set (fun _ => {}) k (if isA then { f with crossA := l } else { f with crossB := l }) }
    let lvl := if isA then Reg.FC_CSTAT_LVL_A k else Reg.FC_CSTAT_LVL_B k
    let cnt := if isA then Reg.FC_CSTAT_CROSS_A k else Reg.FC_CSTAT_CROSS_B k
    match l with
    | c :: rest =>
      if t ≤ c.2 + 1024 then
        .next ((((put s rest).setF cnt (s.getF cnt - 1)).bump (Reg.FC_CSTAT_MERGED k)).setF lvl (b2n (!c.1)))
      else .next (((put s ((rising, t) :: l)).bump cnt).setF lvl (b2n rising))
    | [] => .next (((put s [(rising, t)]).bump cnt).setF lvl (b2n rising))

/-! ### Stamps, arm and disarm -/

/-- TRIGGER_STAMP_WRITE: 16 converter clocks after a trigger frame the stamp is written, the redirect is raised and the stamp
goes to the time-interval unit as source 2 + u (R220, R234). -/
def execTriggerStampWrite (u : Fin 8) (s : State) : Res :=
  let x := s.unit u
  match x.stamps with
  | [] => .next s
  | p :: rest =>
    if p.clock + 16 ≤ s.edgeNow then
      let s1 := ((s.setUnit u { x with stamps := rest }).setReg (Reg.TRG_TSLOT u) (BitVec.ofNat 64 p.slot)).setReg (Reg.TRG_TBIN u)
        (BitVec.ofNat 64 (p.frac <<< 32 + p.bin))
      let s2 := s1.raiseRedirect u p.slot
      .next { s2 with tiv := { s2.tiv with stamps := s2.tiv.stamps ++ [(2 + u.val, p.bins)] } }
    else .next s

/-- TRIGGER_ARM: a write of TRG_CTL.ARM = 1 (R223), refused in Belay (R384). -/
def execTriggerArm (port : Port) (u : Fin 8) (desc : BitVec 8) (s : State) : Res :=
  s.whenOpen port (Reg.TRG_CTL u) <|
  if s.classOf port < 1 then .next (s.logRefusal .SYS_AUTH_DENIED u (Reg.TRG_CTL u) port)
  else if s.mirrored port then .next (s.logRefusal .PAIR_MIRRORED u (Reg.TRG_CTL u) port)
  else .next (s.arm false port u desc.toNat).1

/-- As many triggers as a unit's crossings can bring. -/
def State.trigFuel (s : State) (u : Nat) : Nat := (s.unitCross u).1.length + (s.unitCross u).2.1.length + 1

/-- Triggers of a unit with a trigger frame whose aperture lies before an instant in TDC bins are taken, up to n of them (R233). -/
def State.takeBefore (s : State) (u lim : Nat) : Nat → State
  | 0 => s
  | n + 1 => match s.nextPoint u, s.nextTimeout u with
    | some (t, b), _ => if b / 2048 * 2048 < lim then (s.takePoint u t b).takeBefore u lim n else s
    | none, some (r, t, b) => if b / 2048 * 2048 < lim ∧ b ≤ s.binsNow then (s.takeTimeout u r t b).takeBefore u lim n else s
    | none, none => s

/-- The instant in TDC bins of the first converter clock after the present one, at which a disarm takes effect (R224). -/
def State.nextEdge (s : State) : Nat := (s.edgeNow + 1) * 2048

/-- A unit disarmed: PREFILL and READY end with the descriptor DISARMED, an OPEN record goes on and no re-arm follows, the other
states complete without one (R224, R233). -/
def State.disarm (s : State) (u : Nat) : State :=
  let st := s.trgState u
  let i := s.trgDesc u
  if st = 1 ∨ st = 2 then
    let s1 := if i = 255 then s else s.setDescState i 4
    s1.setTrg u 0
  else if st = 3 then s.setUnit u { s.unit u with noRearm := true, disarmed := true }
  else if st = 4 ∨ st = 5 then s.setUnit u { s.unit u with noRearm := true }
  else if st = 6 then s.setTrg u 0
  else s

/-- TRIGGER_DISARM: a write of TRG_CTL.DISARM = 1 (R224), refused in Belay (R384). -/
def execTriggerDisarm (port : Port) (u : Fin 8) (s : State) : Res :=
  s.whenOpen port (Reg.TRG_CTL u) <|
  if s.classOf port < 1 then .next (s.logRefusal .SYS_AUTH_DENIED u (Reg.TRG_CTL u) port)
  else if s.mirrored port then .next (s.logRefusal .PAIR_MIRRORED u (Reg.TRG_CTL u) port)
  else .next ((s.takeBefore u s.nextEdge (s.trigFuel u)).disarm u)

/-- Every unit disarmed at a Summit exit at slot m: triggers whose trigger frame lies before its hold instant are taken, an OPEN record
carries CAP_MODE_EXIT, a record that drains or closes does so, a REARM is abandoned (R40, R233). -/
def State.summitExit (s : State) (m : Nat) : State :=
  (List.range 8).foldl (fun t u =>
    let lim := (t.holdOf m).getD t.binsNow
    let t1 := t.takeBefore u lim (t.trigFuel u)
    let st := t1.trgState u
    let t2 := if st = 3 then t1.setUnit u { t1.unit u with noRearm := true, modeExit := true } else t1.disarm u
    t2.setUnit u { t2.unit u with exitAt := some lim }) s

/-- A write of TRG_CTL: ARM and DISARM together are refused (R223, R224). -/
def State.trgCtlWrite (s : State) (port u : Nat) (v : W64) : WriteRes :=
  if s.mirrored port then s.refuse .PAIR_MIRRORED u (Reg.TRG_CTL u) port
  else if bit v 0 ∧ bit v 1 then s.refuse .TRG_CTL_BOTH u (Reg.TRG_CTL u) port
  else if bit v 0 then s.arm false port u (bits v 15 8)
  else if bit v 1 then ((s.takeBefore u s.nextEdge (s.trigFuel u)).disarm u, none)
  else (s, none)

/-- A TRIGARM entry applied: a disarm always, an arm under R223 (R206). -/
def State.applyTrigarm (s : State) (u : Nat) (arm : Bool) (desc : Nat) : State :=
  if arm then (s.arm true progPort u desc).1 else (s.takeBefore u s.nextEdge (s.trigFuel u)).disarm u

/-! ### The unit's course (R224, R227, R230) -/

/-- PREFILL_COMPLETE: PRE frames are held: READY (R224). -/
def execPrefillComplete (u : Fin 8) (s : State) : Res :=
  if s.trgState u = 1 ∧ s.descPre (s.trgDesc u) ≤ (s.unit u).nFrames then .next (s.setTrg u 2) else .next s

/-- RECORD_POST_COMPLETE: the last post frame is written: CLOSING, or DRAINING for a spill (R224, R225). -/
def execRecordPostComplete (u : Fin 8) (s : State) : Res :=
  let x := s.unit u
  if s.trgState u = 3 ∧ x.trig + x.post ≤ x.nFrames then .next (s.setTrg u (if s.descSpill (s.trgDesc u) then 4 else 5))
  else .next s

/-- The record flags of word 3 (R221). -/
def State.recordFlags (s : State) (u i : Nat) : Nat :=
  let x := s.unit u
  let from_ (o : Option Nat) : Bool := match o with
    | some j => decide (x.kept ≤ j)
    | none => false
  b2n (decide (x.trig - x.kept < s.descPre i)) + 2 * b2n (s.descSpill i) + 4 * b2n x.ovr + 8 * b2n x.cut
    + 16 * b2n (decide (0 < x.secs)) + 32 * b2n (from_ x.railed) + 64 * b2n (from_ x.unlocked) + 128 * b2n x.disarmed + 256 * b2n x.modeExit

/-- The descriptor words the hub writes back at close (R221, R227). -/
def State.writeBack (s : State) (u i : Nat) : State :=
  let x := s.unit u
  let last := s.place ((x.first + (x.trig + x.post - 1)) * 2048)
  let start := (x.kept * s.frameBytes i) % Nat.max 1 (s.descLen i)
  let w3 := 3 <<< 60 + s.recordFlags u i <<< 48 + u <<< 44 + s.trgSrc u <<< 32 + (x.trig - x.kept)
  ((((((((s.setDesc i 3 (BitVec.ofNat 64 w3)).setDesc i 8 (BitVec.ofNat 64 last.1)).setDesc i 9 (BitVec.ofNat 64 last.2)).setDesc i 10
    (BitVec.ofNat 64 x.post)).setDesc i 11 (BitVec.ofNat 64 start)).setDesc i 12 (BitVec.ofNat 64 (x.secs <<< 32 + x.secAt.2))).setDesc i 13
    (BitVec.ofNat 64 x.secAt.1)).setDesc i 14 (BitVec.ofNat 64 x.decM)).setDesc i 15
    (BitVec.ofNat 64 (s.cap.rseq % 2 ^ 32 * 2 ^ 32 + x.decFlags <<< 16))

/-- A re-arm refused: IDLE, and logged with the index of NEXT and the condition (R224). -/
def State.refuseRearm (s : State) (u next : Nat) (c : Cond) : State :=
  (s.setTrg u 0).log .CAP_REARM_REFUSED u [BitVec.ofNat 64 next, BitVec.ofNat 64 c.code]

/-- RECORD_CLOSE: the write-back completes: CLOSED, CAP_CLOSED where NOTIFY asks for it, then REARM for 64 converter clocks where
NEXT names a descriptor that passes tests 5 to 10 of R223 and nothing forbids it, else IDLE (R224, R227, R230). -/
def execRecordClose (u : Fin 8) (s : State) : Res :=
  if s.trgState u ≠ 5 then .next s
  else
    let i := s.trgDesc u
    let s0 : State := { s with cap := { s.cap with rseq := s.cap.rseq + 1 } }
    let s1 := s0.writeBack u i
    let s2 := if bit (s.desc i 1) 9 then s1.log .CAP_CLOSED u [BitVec.ofNat 64 i, BitVec.ofNat 64 s1.cap.rseq] else s1
    if s2.descNext i ≠ 255 ∧ (s2.unit u).noRearm = false then
      match s2.armRecord (s2.descNext i) with
      | some c => .next (s2.refuseRearm u (s2.descNext i) c)
      | none => .next ((s2.setUnit u { s2.unit u with rearmAt := s2.edgeNow + 64 }).setTrg u 6)
    else .next (s2.setTrg u 0)

/-- REARM: 64 converter clocks after the write-back NEXT is armed, or refused with the condition where it no longer passes tests 5 to 10 of
R223: R230 tests it on entry to REARM and R224 checks it when the clocks have elapsed (R224, R230; DEDUCED, log entry 91). -/
def execRearm (u : Fin 8) (s : State) : Res :=
  if s.trgState u ≠ 6 ∨ s.edgeNow < (s.unit u).rearmAt then .next s
  else
    let next := s.descNext (s.trgDesc u)
    match s.armRecord next with
    | some c => .next (s.refuseRearm u next c)
    | none => .next (s.armAt u next (s.unit u).rearmAt)

/-- The oldest entry of the miss log removed (R231). -/
def State.missPop (s : State) : State := { s with cap := { s.cap with misses := s.cap.misses.drop 1 } }

/-- MISS_POP: a write of CAP_MISS_POP = 1 (R231). -/
def execMissPop (port : Port) (s : State) : Res :=
  s.whenOpen port Reg.CAP_MISS_POP <|
  if s.classOf port < 1 then .next (s.logRefusal .SYS_AUTH_DENIED 0 Reg.CAP_MISS_POP port) else .next s.missPop

/-! ### Spill (R232) -/

/-- Byte o of a record, counted from frame 0 across the wrap of the ring, as an address of the capture region (R222). -/
def State.recordAddr (s : State) (i start o : Nat) : Nat := s.descBase i + (start + o) % Nat.max 1 (s.descLen i)

/-- n bytes of a record from offset o. -/
def State.recordBytes (s : State) (i start o n : Nat) : List Byte :=
  (List.range n).map (fun d => Memory.get s.cap.mem (s.recordAddr i start (o + d)))

/-- A list of bytes as 64-bit words, most significant byte first, zero-filled. -/
def bytesToWords (n : Nat) (l : List Byte) : List W64 :=
  (List.range n).map (fun w => BitVec.ofNat 64 (ofLeBytes ((List.range 8).map (fun b => l.getD (8 * w + (7 - b)) 0))))

/-- A spill ends its drain: CLOSING. -/
def State.endSpill (s : State) (u : Nat) (cut : Bool) : State :=
  (s.setUnit u { s.unit u with cut := (s.unit u).cut || cut }).setTrg u 5

/-- SPILL_PACKET: the next spill packet of a record enters its stream's queue where the queue has room for it: the word with the
descriptor, CHMASK and first frame, then up to 128 data words; every packet but the last is full. Once the last frame is
spilled, or the stream has stopped, a DRAINING unit closes (R232). -/
def execSpillPacket (u : Fin 8) (s : State) : Res :=
  let st := s.trgState u
  let i := s.trgDesc u
  let x := s.unit u
  if (st ≠ 3 ∧ st ≠ 4) ∨ s.descSpill i = false then .next s
  else
    let strm := s.descStream i
    let fb := s.frameBytes i
    let per := 1024 / Nat.max 1 fb
    let total := (if st = 4 then x.trig + x.post else x.nFrames) - x.kept
    let left := total - x.spilled
    if (s.strmSt strm).on = false then
      if st = 4 then .next (s.endSpill u true) else .next s
    else if left = 0 then (if st = 4 then .next (s.endSpill u false) else .next s)
    else if st = 3 ∧ left < per then .next s
    else
      let n := capAt per left
      let dw := ceilDiv (n * fb) 8
      let q := s.strmQueue strm
      if s.room q < dw + 1 then .next s
      else
        let start := (x.kept * fb) % Nat.max 1 (s.descLen i)
        let data := bytesToWords dw (s.recordBytes i start (x.spilled * fb) (n * fb))
        let words := BitVec.ofNat 64 (i <<< 56 + s.descMask i <<< 48 + x.spilled % 2 ^ 40) :: data
        let slot := (s.place ((x.first + x.kept + x.spilled) * 2048)).1
        let pos := (s.que q).wp
        let s1 := (s.putWords q words).addPacket q strm
          { stream := strm, ftype := 3, seq := 0, first := slot, fin := slot, start := pos, n := dw + 1, last := false, refu := false, clip := false
            flush := false, drop := false, fst := false, cmode := 10
            check := crcStep 0xFFFFFFFF (words.flatMap (fun w => beBytes 8 w.toNat)) ^^^ 0xFFFFFFFF, h2 := s.h2At slot, tag := 0 }
        let s2 := s1.setUnit u { x with spilled := x.spilled + n }
        if st = 4 ∧ left = n then .next (s2.endSpill u false) else .next s2

/-! ### Descriptor access and copies (R228, R229) -/

/-- CAP_DESC_PTR of a port advanced: WORD wraps to 0 and advances INDEX, which wraps in its field past 254 (R456). -/
def State.advanceDesc (s : State) (port : Nat) : State :=
  s.setCopy port Reg.CAP_DESC_PTR (BitVec.ofNat 64 ((bits (s.copy port Reg.CAP_DESC_PTR) 11 0 + 1) % 4080))

/-- CAP_DESC_DATA as a port reads it. -/
def State.descRead (s : State) (port : Nat) : W64 :=
  let p := bits (s.copy port Reg.CAP_DESC_PTR) 11 0
  s.desc (p / 16) (p % 16)

/-- The bits of a descriptor word that are not reserved (R221). -/
def descMaskOf (w : Nat) : W64 :=
  if w = 0 then 0xFFFFFFFFFFFFFFFF#64 else if w = 1 then 0xFFFFFFFF00FF03FF#64 else 0x07FF00FFFFFFFFFF#64

/-- A write of a descriptor word: refused while the descriptor is in use; a CLOSED or DISARMED one is released; words 3 to 15 are
the hub's (R221, R228). -/
def State.descWrite (s : State) (port i w : Nat) (v : W64) : WriteRes :=
  let st := s.descState i
  let copying := match s.cap.copy with
    | some c => c.desc == i
    | none => false
  if 3 ≤ w then (s, none)
  else if st = 1 ∨ st = 2 ∨ ((st = 3 ∨ st = 4) ∧ copying = true) then s.refuse .CAP_DESC_BUSY 0 Reg.CAP_DESC_DATA port
  else
    let s1 := if st = 0 then s else (List.range 13).foldl (fun t k => t.setDesc i (3 + k) 0) s
    (s1.setDesc i w (v &&& descMaskOf w), none)

/-- A write of CAP_DESC_DATA through a port's pointer; an accepted one advances it; refused in Belay (R384). -/
def State.descDataWrite (s : State) (port : Nat) (v : W64) : WriteRes :=
  let p := bits (s.copy port Reg.CAP_DESC_PTR) 11 0
  if s.mirrored port then s.refuse .PAIR_MIRRORED 0 Reg.CAP_DESC_DATA port
  else match s.descWrite port (p / 16) (p % 16) v with
  | (t, none) => (t.advanceDesc port, none)
  | r => r

/-- DESC_DATA_ACCESS: a read or a write of CAP_DESC_DATA (R228, R456). -/
def execDescDataAccess (port : Port) (write : Option W64) (s : State) : Res :=
  match write with
  | none => s.whenReads port Reg.CAP_DESC_DATA (.next (s.advanceDesc port))
  | some v => s.whenOpen port Reg.CAP_DESC_DATA <| if s.classOf port < 1 then .next (s.logRefusal .SYS_AUTH_DENIED 0 Reg.CAP_DESC_DATA port)
    else .next (s.descDataWrite port v).1

/-- The bytes of a record: (ACT_PRE + ACT_POST) · fb (R229). -/
def State.recordLen (s : State) (i : Nat) : Nat := (bits (s.desc i 3) 31 0 + bits (s.desc i 10) 39 0) * s.frameBytes i

/-- A record may be read: CLOSED, or DISARMED with a spill cut that left data (R229). -/
def State.readable (s : State) (i : Nat) : Bool := s.descState i == 3 || (s.descState i == 4 && bit (s.desc i 3) 51)

/-- The tests of a copy or of a host read of n bytes at an offset (R229). -/
def State.recordTest (s : State) (i off n : Nat) : Option Cond :=
  firstFail [(s.readable i, .CAP_LOCKED), (decide (off % 8 = 0) && decide (off + n ≤ s.recordLen i), .CAP_COPY_RANGE)]

/-- A write of CAP_COPY_GO with GO = 1 (R229). -/
def State.copyGo (s : State) (port : Nat) (len : Nat) : WriteRes :=
  let i := s.getF Reg.CAP_COPY_SRC_DESC
  let off := s.getF Reg.CAP_COPY_SRC_OFF
  let dst := (s.reg Reg.CAP_COPY_DST).toNat
  if s.flag Reg.CAP_COPY_STAT_BUSY then s.refuse .CAP_COPY_BUSY 0 Reg.CAP_COPY_GO port
  else match (s.recordTest i off len).orElse (fun _ => firstFail
      [(decide (8 ≤ len) && decide (len % 8 = 0) && decide (len ≤ 2 ^ 32), .CAP_COPY_RANGE),
       (decide (dst % 8 = 0) && decide (dst + len ≤ 8 * s.bulkWords), .CAP_COPY_RANGE)]) with
    | some c => (s.setF Reg.CAP_COPY_STAT_REFUSED 1).refuse c 0 Reg.CAP_COPY_GO port
    | none =>
      ({ (s.setF Reg.CAP_COPY_STAT_BUSY 1) with cap := { s.cap with copy := some { desc := i, off := off, dst := dst, len := len } } }, none)

/-- CAPTURE_COPY: a write of CAP_COPY_GO with GO = 1 (R229). -/
def execCaptureCopy (port : Port) (len : BitVec 33) (s : State) : Res :=
  s.whenOpen port Reg.CAP_COPY_GO <|
  if s.classOf port < 1 then .next (s.logRefusal .SYS_AUTH_DENIED 0 Reg.CAP_COPY_GO port)
  else .next (s.copyGo port len.toNat).1

/-- CAPTURE_COPY_DONE: the copy completes; a burst of 64 bytes that meets an uncorrectable error (its record offset given, or noted
by DRAM_ECC_ERROR) is written as 0, POISON is set and POFF takes the first failing offset (R229). -/
def execCaptureCopyDone (failing : List Nat) (s : State) : Res :=
  match s.cap.copy with
  | none => .next s
  | some c =>
    let start := bits (s.desc c.desc 11) 31 0
    let badAt (o : Nat) : Bool := failing.any (fun f => f / 64 == o / 64) ||
      s.cap.bad.any (fun a => a / 64 == s.recordAddr c.desc start o / 64)
    let offs := (List.range (c.len / 8)).map (fun w => c.off + 8 * w)
    let words := offs.map (fun o =>
      if badAt o then (0 : W64) else (bytesToWords 1 (s.recordBytes c.desc start o 8)).getD 0 0)
    let within (w : Nat) : Bool := decide (c.dst / 8 ≤ w) && decide (w < (c.dst + c.len) / 8)
    let s1 : State := { s with
      dram := Memory.setWords s.dram c.dst words, poison := s.poison.filter (fun w => !within w), cap := { s.cap with copy := none } }
    let s2 := (s1.setF Reg.CAP_COPY_STAT_BUSY 0).setF Reg.CAP_COPY_STAT_DONE 1
    match offs.find? badAt with
    | some o => .next ((s2.setF Reg.CAP_COPY_STAT_POISON 1).setF Reg.CAP_COPY_STAT_POFF o)
    | none => .next s2

end Sys2Proof.Machine
end

