-- ==== Sys2Proof/Machine/Tiv.lean ====
section
/-!
DEFINITION. Sys2Proof/Machine/Tiv.lean: the time-interval unit, the frequency counter, and the crystal's trim (R234 to R247).
-/
namespace Sys2Proof.Machine
open Sys2Proof

/-- The time-interval unit replaced. -/
def State.setTiv (s : State) (x : TivSt) : State := { s with tiv := x }

/-- TIV_STAT.STATE: 0 IDLE, 1 ARMED, 2 STARTED. -/
def State.tivState (s : State) : Nat := s.getF Reg.TIV_STAT_STATE

/-- The register of a pin: 0 TIV_START, 1 TIV_STOP. -/
def pinReg (pin : Nat) : Nat := if pin = 0 then Reg.TIV_PIN_START else Reg.TIV_PIN_STOP

/-- A source of the interval measurement uses a pin while it is not IDLE, or the counter runs on it (R235). -/
def State.pinUsed (s : State) (pin : Nat) : Bool :=
  (s.tivState != 0 && (s.getF Reg.TIV_CFG_START_SRC == pin || s.getF Reg.TIV_CFG_STOP_SRC == pin)) ||
  (s.flag Reg.TIV_STAT_FBUSY && s.getF Reg.TIV_FCFG_INPUT == pin)

/-! ### Register writes (R234, R235, R237, R239, R244) -/

/-- The tests of a write to TIV_CFG (R234, R237, R239). -/
def State.checkTivCfg (s : State) (v : W64) : Option Cond :=
  let stop := bits v 15 12
  let start := bits v 11 8
  firstFail [(decide (bits v 25 21 < 24), .SYS_FIELD_RANGE), (decide (bits v 20 16 < 24), .SYS_FIELD_RANGE),
    (decide (stop < 12), .TIV_CFG_SRC), (decide (start < 12), .TIV_CFG_SRC), (s.tivState == 0, .TIV_CFG_LIVE),
    (!(bit v 0 && stop == start), .TIV_CFG_SAME)]

/-- The tests of a write to a pin register (R235). -/
def State.checkTivPin (s : State) (pin : Nat) (v : W64) : Option Cond :=
  firstFail [(decide (bits v 47 40 ≤ 200), .TIV_PIN_RANGE), (decide (bits v 26 16 ≤ 1800), .TIV_PIN_RANGE),
    (bits v 1 0 != 3, .TIV_PIN_RANGE), (!s.pinUsed pin, .TIV_CFG_LIVE)]

/-- The tests of a write to TIV_FCFG; no condition is named for INPUT (R244, R496). -/
def checkTivFcfg (v : W64) : Option Cond :=
  firstFail [(bits v 55 32 != 0, .TIV_PIN_RANGE), (decide (bits v 1 0 < 2), .SYS_FIELD_RANGE)]

/-! ### Arm and abort (R237, R247) -/

/-- An arm of the unit: edges count from the first converter clock after the write (R237). -/
def State.tivArm (s : State) (port : Nat) : WriteRes :=
  if s.tivState ≠ 0 then s.refuse .TIV_BUSY 0 Reg.TIV_CTL port
  else ((s.setTiv { s.tiv with armAt := (s.edgeNow + 1) * 2048, start := none }).setF Reg.TIV_STAT_STATE 1, none)

/-- FSTART: a run opens at the next slot edge (R244). -/
def State.fstart (s : State) (port : Nat) : WriteRes :=
  if s.flag Reg.TIV_STAT_FBUSY then s.refuse .TIV_BUSY 0 Reg.TIV_CTL port
  else ((s.setTiv { s.tiv with freq := some { from_ := none, t0 := none, n := 0 } }).setF Reg.TIV_STAT_FBUSY 1, none)

/-- FSTOP: the run ends and its open gate is discarded (R244). -/
def State.fstop (s : State) : State := (s.setTiv { s.tiv with freq := none }).setF Reg.TIV_STAT_FBUSY 0

/-! ### Frequency (R244) -/

/-- GATE in TDC bins: 819,200 to a slot. -/
def State.gateBins (s : State) : Nat := s.getF Reg.TIV_FCFG_GATE * 819200

/-- FREQ in 2^-24 Hz: N × 204.8 × 10^9 × 2^24 / T, rounded with ties to even (R244). -/
def freqWord (n t : Nat) : Nat := (roundEven ((n * 204800000000 * 2 ^ 24 : Nat) : Int) (Nat.max 1 t)).toNat

/-- A frequency result written. -/
def State.freqResult (s : State) (n t : Nat) : State :=
  let f := if t = 0 then 0 else freqWord n t
  (((s.setReg Reg.TIV_FN (BitVec.ofNat 64 (2 ^ 63 + n % 2 ^ 40))).setReg Reg.TIV_FT (BitVec.ofNat 64 (t % 2 ^ 48))).setReg Reg.TIV_FREQ
    (BitVec.ofNat 64 f)).setF Reg.TIV_STAT_FDONE 1

/-- An edge accepted on the counter's pin: it opens the gate, is counted, or closes the gate; with CONT the closing edge opens
the next gate (R244). -/
def State.freqEdge (s : State) (stamp : Nat) : State :=
  match s.tiv.freq with
  | none => s
  | some r => match r.t0 with
    | none =>
      if r.from_.any (fun f => decide (f ≤ stamp)) then s.setTiv { s.tiv with freq := some { r with t0 := some stamp, n := 0 } } else s
    | some t0 =>
      if t0 + s.gateBins ≤ stamp then
        let s1 := s.freqResult (r.n + 1) (stamp - t0)
        if s.flag Reg.TIV_FCFG_CONT then s1.setTiv { s1.tiv with freq := some { r with t0 := some stamp, n := 0 } }
        else s1.fstop
      else s.setTiv { s.tiv with freq := some { r with n := r.n + 1 } }

/-- TIV_NO_SIGNAL: the gate has waited more than GATE slots for one of its edges: a result of zeros (R244). -/
def execTivNoSignal (s : State) : Res :=
  match (if s.cur = 0 then none else s.tiv.freq) with
  | none => .next s
  | some r =>
    let ended := match r.t0 with
      | none => r.from_.any (fun f => decide (f + s.gateBins < s.binsNow))
      | some t0 => decide (t0 + 2 * s.gateBins < s.binsNow)
    if ended then
      let s1 := ((s.freqResult 0 0).setF Reg.TIV_STAT_NOSIG 1).log .TIV_NO_SIGNAL 0 []
      if s.flag Reg.TIV_FCFG_CONT then
        .next (s1.setTiv { s1.tiv with freq := some { from_ := none, t0 := none, n := 0 } })
      else .next s1.fstop
    else .next s

/-! ### Edges (R234 to R236) -/

/-- A source delivers a stamp (in TDC bins since reset): held while a measurement is armed that uses the source (R234, R236). -/
def State.tivStamp (s : State) (code bins : Nat) : State :=
  if s.tivState ≠ 0 ∧ (s.getF Reg.TIV_CFG_START_SRC = code ∨ s.getF Reg.TIV_CFG_STOP_SRC = code) then
    s.setTiv { s.tiv with stamps := s.tiv.stamps ++ [(code, bins)] }
  else s

/-- TIV_PIN_EDGE: a pin comparator changes. During the hold-off after an accepted edge the change is ignored and counted; a
selected edge is accepted, counts for the frequency gate and its stamp is held (R235, R236, R247). -/
def execTivPinEdge (pin : Fin 2) (rising : Bool) (stamp : Nat) (s : State) : Res :=
  if s.cur = 0 then .next s
  else
    let r := s.reg (pinReg pin)
    let hold := bits r 63 48
    let sel := bits r 1 0
    let held := match s.tiv.last.get (fun _ => 0) pin with
      | 0 => false
      | t + 1 => decide (stamp < t + 64 * hold)
    if held then .next (s.bump Reg.TIV_STAT_IGNORED)
    else if sel = 2 ∨ (sel = 0 ∧ rising = true) ∨ (sel = 1 ∧ rising = false) then
      let s1 := s.setTiv { s.tiv with last := s.tiv.last.set (fun _ => 0) pin (stamp + 1) }
      let s2 := if s.getF Reg.TIV_FCFG_INPUT = pin.val then s1.freqEdge stamp else s1
      .next (s2.tivStamp pin stamp)
    else .next s

/-- The stamps that the carriers of START_BANK and STOP_BANK and the slot edge deliver at the hold instant of the present slot:
a rising zero crossing of a running AC carrier falls on the hold instants n with (n − s0) mod K = 0. A frequency run that was opened before
waits from it (R75, R234, R244). -/
def State.tivSlotStamps (s : State) : State :=
  match s.holdOf s.now with
  | none => s
  | some h =>
    let carrier (b : Nat) : Bool := s.carrierOn b &&
      decide ((s.reg (Reg.BANK_PHASE b)).toNat ≤ s.now) && (s.now - (s.reg (Reg.BANK_PHASE b)).toNat) % Nat.max 1 (s.carrierK b) == 0
    let startC := s.getF Reg.TIV_CFG_START_SRC == 10 && carrier (s.getF Reg.TIV_CFG_START_BANK)
    let stopC := s.getF Reg.TIV_CFG_STOP_SRC == 10 && carrier (s.getF Reg.TIV_CFG_STOP_BANK) &&
      !(startC && s.getF Reg.TIV_CFG_STOP_BANK == s.getF Reg.TIV_CFG_START_BANK)
    let run := s.tiv.freq.map (fun r => { r with from_ := r.from_.orElse (fun _ => some h) })
    let s1 := (s.setTiv { s.tiv with freq := run }).tivStamp 11 h
    if s.tivState = 0 then s1
    else
      -- code 10 stands for the start input's carrier, 12 for the stop input's
      let add (t : State) (c : Nat) : State := t.setTiv { t.tiv with stamps := t.tiv.stamps ++ [(c, h)] }
      let s2 := if startC then add s1 10 else s1
      if stopC then add s2 12 else s2

/-! ### The measurement (R237 to R242) -/

/-- The result written: RESULT, its marks, and where the measurement began; an unread one is counted (R240 to R242). -/
def State.tivResult (s : State) (first : Bool) (began : Nat) (res : Int) (timeout : Bool) : State :=
  let s1 := if bit (s.reg Reg.TIV_RESULT) 63 then s.bump Reg.TIV_STAT_OVW else s
  let w := 2 ^ 63 + (b2n (res == 0 && !timeout)) <<< 62 + (b2n timeout) <<< 61 + (b2n (first && res != 0)) <<< 60 + unsigned 47 res
  let p := s.place began
  (((s1.setReg Reg.TIV_RESULT (BitVec.ofNat 64 w)).setReg Reg.TIV_RSLOT (BitVec.ofNat 64 p.1)).setReg Reg.TIV_RBIN
    (BitVec.ofNat 64 p.2)).setF Reg.TIV_STAT_DONE 1

/-- After a result ended at an instant: IDLE, or with CONT armed again for edges after it; with equal sources in strict mode a stop
edge is the next start (R242). -/
def State.tivAgain (s : State) (edge : Bool) (end_ : Nat) : State :=
  if s.flag Reg.TIV_CFG_CONT then
    if edge = true ∧ s.flag Reg.TIV_CFG_SIGNED = false ∧ s.getF Reg.TIV_CFG_START_SRC = s.getF Reg.TIV_CFG_STOP_SRC ∧
        (s.getF Reg.TIV_CFG_START_SRC ≠ 10 ∨ s.getF Reg.TIV_CFG_START_BANK = s.getF Reg.TIV_CFG_STOP_BANK) then
      s.setTiv { s.tiv with armAt := end_ + 1, start := some (false, end_) }
    else (s.setTiv { s.tiv with armAt := end_ + 1, start := none }).setF Reg.TIV_STAT_STATE 1
  else (s.setTiv { s.tiv with start := none }).setF Reg.TIV_STAT_STATE 0

/-- Which inputs a stamp's source serves: (start, stop). -/
def State.tivInputs (s : State) (code : Nat) : Bool × Bool :=
  if code = 12 then (false, true)
  else if code = 10 then (true, s.getF Reg.TIV_CFG_STOP_SRC == 10 && s.getF Reg.TIV_CFG_STOP_BANK == s.getF Reg.TIV_CFG_START_BANK)
  else (s.getF Reg.TIV_CFG_START_SRC == code, s.getF Reg.TIV_CFG_STOP_SRC == code)

/-- The measurement ends without an ending edge within 2^46 bins of the edge at t0 that began it (R240). -/
def State.tivExpire (s : State) (t0 : Nat) : State := ((s.tivResult false t0 0 true).log .TIV_TIMEOUT 0 []).tivAgain false (t0 + 2 ^ 46)

/-- A measurement that began 2^46 bins before an instant or earlier has ended (R240). -/
def State.tivUpTo (s : State) (t : Nat) : State :=
  match s.tiv.start with
  | some (_, t0) => if s.tivState = 2 ∧ t0 + 2 ^ 46 ≤ t then s.tivExpire t0 else s
  | none => s

/-- One ordered stamp meets the measurement (R237 to R241). In signed mode a result of 0 has FIRST 0. -/
def State.tivMeet (s : State) (code t : Nat) : State :=
  let (isStart, isStop) := s.tivInputs code
  let signed := s.flag Reg.TIV_CFG_SIGNED
  if s.tivState = 0 ∨ t < s.tiv.armAt ∨ (isStart = false ∧ isStop = false) then s
  else match s.tiv.start with
    | none =>
      if isStart then (s.setTiv { s.tiv with start := some (false, t) }).setF Reg.TIV_STAT_STATE 2
      else if signed then (s.setTiv { s.tiv with start := some (true, t) }).setF Reg.TIV_STAT_STATE 2
      else s.bump Reg.TIV_STAT_EARLY_STOP
    | some (stopFirst, t0) =>
      let ends := if stopFirst then isStart else isStop
      if ends then
        let d : Int := if stopFirst then (t0 : Int) - t else (t : Int) - t0
        (s.tivResult stopFirst t0 d false).tivAgain true t
      else s.bump Reg.TIV_STAT_IGNORED

/-- One ordered stamp meets the measurement, or what follows one that has timed out (R240). -/
def State.tivTake (s : State) (code t : Nat) : State := (s.tivUpTo t).tivMeet code t

/-- The earliest stamp on hold; of two in one instant a start comes before a stop (R236, R241). -/
def State.firstStamp (s : State) : Option (Nat × Nat) :=
  s.tiv.stamps.foldl (fun r c => match r with
    | none => some c
    | some d => if c.2 < d.2 ∨ (c.2 = d.2 ∧ (s.tivInputs c.1).1 = true ∧ (s.tivInputs d.1).1 = false) then some c else some d) none

/-- The instant up to which stamps have passed their hold (R236). -/
def State.tivHeld (s : State) : Nat := s.binsNow - 24 * 2048

/-- The earliest stamp on hold, if its hold has passed, leaves it and meets the measurement (R236). -/
def State.tivNext (s : State) : State :=
  match s.firstStamp with
  | none => s
  | some c =>
    if c.2 + 24 * 2048 ≤ s.binsNow then (s.setTiv { s.tiv with stamps := s.tiv.stamps.erase c }).tivTake c.1 c.2 else s

/-- Up to n stamps whose hold has passed, in order (R236). -/
def State.tivDrain (s : State) : Nat → State
  | 0 => s
  | n + 1 => s.tivNext.tivDrain n

/-- TIV_STAMP_ORDERED: 24 converter clocks after its instant the earliest stamp on hold leaves it and meets the measurement; in Bivouac
the unit stands (R236 to R242, R247). -/
def execTivStampOrdered (s : State) : Res := if s.cur = 0 then .next s else .next s.tivNext

/-- TIV_TIMEOUT: no ending edge within 2^46 bins of the start, once the stamps that were on hold have met the measurement: the result is 0
with TIMEOUT (R236, R240, R247). -/
def execTivTimeout (s : State) : Res :=
  match s.tiv.start with
  | some (_, t0) =>
    if s.cur ≠ 0 ∧ s.tivState = 2 ∧ t0 + 2 ^ 46 ≤ s.tivHeld then .next ((s.tivDrain s.tiv.stamps.length).tivUpTo s.tivHeld)
    else .next s
  | none => .next s

/-! ### Abort and the control register (R237, R244, R247) -/

/-- ABORT: a result that falls due with it is written; then IDLE, any start discarded, ABORTED set (R237, R247). -/
def State.tivAbort (s : State) : State :=
  let s1 := (s.tivDrain s.tiv.stamps.length).tivUpTo s.tivHeld
  ((s1.setTiv { s1.tiv with start := none }).setF Reg.TIV_STAT_STATE 0).setF Reg.TIV_STAT_ABORTED 1

/-- A write of TIV_CTL (R237, R244). -/
def State.tivCtlWrite (s : State) (port : Nat) (v : W64) : WriteRes :=
  if bit v 0 && bit v 1 then s.refuse .TIV_CTL_BOTH 0 Reg.TIV_CTL port
  else if bit v 0 && s.tivState != 0 then s.refuse .TIV_BUSY 0 Reg.TIV_CTL port
  else if bit v 2 && s.flag Reg.TIV_STAT_FBUSY then s.refuse .TIV_BUSY 0 Reg.TIV_CTL port
  else
    let s1 := if bit v 0 then (s.tivArm port).1 else s
    let s2 := if bit v 1 then s1.tivAbort else s1
    let s3 := if bit v 2 then (s2.fstart port).1 else s2
    (if bit v 3 then s3.fstop else s3, none)

/-- TIV_ARM: a write of TIV_CTL.ARM = 1 with operator authority (R237). -/
def execTivArm (port : Port) (s : State) : Res :=
  s.whenOpen port Reg.TIV_CTL <|
  if s.classOf port < 1 then .next (s.logRefusal .SYS_AUTH_DENIED 0 Reg.TIV_CTL port) else .next (s.tivArm port).1

/-- TIV_ABORT: a write of TIV_CTL.ABORT = 1 (R237). -/
def execTivAbort (port : Port) (s : State) : Res :=
  s.whenOpen port Reg.TIV_CTL <|
  if s.classOf port < 1 then .next (s.logRefusal .SYS_AUTH_DENIED 0 Reg.TIV_CTL port) else .next s.tivAbort

/-- FSTART: a write of TIV_CTL.FSTART = 1 (R244). -/
def execFstart (port : Port) (s : State) : Res :=
  s.whenOpen port Reg.TIV_CTL <|
  if s.classOf port < 1 then .next (s.logRefusal .SYS_AUTH_DENIED 0 Reg.TIV_CTL port) else .next (s.fstart port).1

/-- FSTOP: a write of TIV_CTL.FSTOP = 1 (R244). -/
def execFstop (port : Port) (s : State) : Res :=
  s.whenOpen port Reg.TIV_CTL <|
  if s.classOf port < 1 then .next (s.logRefusal .SYS_AUTH_DENIED 0 Reg.TIV_CTL port) else .next s.fstop

/-! ### The crystal's trim (R17, R245, R246) -/

/-- The ageing term in 2^-24 ppb, rounded to nearest (R245). -/
def TivSt.ageTerm (x : TivSt) : Int := roundAway (x.age * 2 ^ 24) 5400000000

/-- The trim code: factory centre, loop term and ageing term in steps of 50,000 ppb / 2^24, rounded to the nearest and held to the
range; reaching an end is logged once (R245; log entry 92). -/
def State.setTrim (s : State) : State :=
  let sum := (Config.trimTivCode : Int) + roundAway (s.tiv.loop + s.tiv.ageTerm) 50000
  let code := clampI 0 (2 ^ 24 - 1) sum
  let s1 := (s.setF Reg.TIV_TRIM_CODE code.toNat).setS Reg.TIV_TRIM_AGETERM (Int.fdiv s.tiv.ageTerm (2 ^ 16))
  if 0 < sum ∧ sum < 2 ^ 24 - 1 then s1.setTiv { s1.tiv with limited := false }
  else if s.tiv.limited = true then s1
  else (s1.setTiv { s1.tiv with limited := true }).log .TIV_TRIM_LIMIT 0 []

/-- The newest samples of the loop term that 7 days of lock hold, one each 2^18 slots (R246; DESIGN CHOICE, log entry 92). -/
def histLen : Nat := 576782

/-- AGEING_UPDATE: 2^18 slots after the update before it the ageing term moves by SLOPE · 1.048576 s / 86,400 s, which is SLOPE units of its
exact sum; a locked loop absorbs it, and its term is sampled for MEAS. In Bivouac the unit stands (R245 to R247). -/
def execAgeingUpdate (s : State) : Res :=
  let x := s.tiv
  if s.cur = 0 ∨ s.upSlots < x.ageAt + 2 ^ 18 then .next s
  else
    let y := { x with age := x.age + s.getS Reg.TIV_AGE_SLOPE, ageAt := x.ageAt + 2 ^ 18 }
    let locked := s.flag Reg.TIV_STAT_REFLOCK
    let l := if locked then x.loop - (y.ageTerm - x.ageTerm) else x.loop
    .next (s.setTiv { y with loop := l, hist := (if locked then ((s.upSlots, l) :: x.hist).take histLen else x.hist) }).setTrim

/-- The least-squares slope of samples (uptime slot, value) in units of value to a day, times a scale, rounded to nearest: a day has
21,600,000,000 slots (R246). -/
def fitSlope (l : List (Nat × Int)) (num den : Nat) : Int :=
  let n : Int := l.length
  let sum (f : Nat × Int → Int) : Int := (l.map f).sum
  let st := sum (fun p => p.1)
  let sy := sum (fun p => p.2)
  let a := n * sum (fun p => (p.1 : Int) * p.2) - st * sy
  let b := n * sum (fun p => (p.1 : Int) * (p.1 : Int)) - st * st
  roundAway (a * 21600000000 * num) (Nat.max 1 (b.toNat * den))

/-- AGE_MEAS_UPDATE: after 24 hours of lock (21,600,000,000 slots) MEAS reports the fitted slope of the loop term over the last 7 days of
lock together with SLOPE, in 2^-16 ppb per day; until then it is 0 (R246). -/
def execAgeMeasUpdate (s : State) : Res :=
  match s.tiv.lockedAt with
  | some t =>
    if t + 21600000000 ≤ s.upSlots then
      .next (s.setS Reg.TIV_AGE_MEAS (satS 32 (fitSlope s.tiv.hist 1 256 + s.getS Reg.TIV_AGE_SLOPE)))
    else .next (s.setF Reg.TIV_AGE_MEAS 0)
  | none => .next s

/-- REF10_LOCK: the CLK_REF10 loop locks with a term (2^-24 ppb) that makes the crystal follow five times the reference
(R17, R245). -/
def execRef10Lock (loopTerm : Int) (s : State) : Res :=
  if s.tiv.frozen then .next s
  else .next (((s.setTiv { s.tiv with loop := loopTerm, lockedAt := (if s.tiv.lockedAt.isNone then some s.upSlots else s.tiv.lockedAt) }).setF
    Reg.TIV_STAT_REFLOCK 1).setTrim)

/-- REF10_FREEZE: CLK_REF10 is absent or outside its window: the loop's term is held and the ageing goes on from there
(R17, R245). -/
def execRef10Freeze (loopTerm : Int) (s : State) : Res :=
  .next (((s.setTiv { s.tiv with loop := loopTerm, lockedAt := none, frozen := true }).setF Reg.TIV_STAT_REFLOCK 0).setTrim)

/-- CLK_REF10_VALID: CLK_REF10 is back in its valid window: the loop acts on the trim again, from its frozen value (R17, R486). -/
def execClkRef10Valid (s : State) : Res := .next (s.setTiv { s.tiv with frozen := false })

end Sys2Proof.Machine
end

