-- ==== Sys2Proof/Machine/Ssp.lean ====
section
/-!
DEFINITION. Sys2Proof/Machine/Ssp.lean: the sensor serial ports (R375 to R378).
-/
namespace Sys2Proof.Machine
open Sys2Proof

/-- A sensor serial port. -/
def State.ssp (s : State) (n : Nat) : SspSt := s.ssps.get (fun _ => {}) n
/-- A sensor serial port replaced. -/
def State.setSsp (s : State) (n : Nat) (x : SspSt) : State := { s with ssps := s.ssps.set (fun _ => {}) n x }

/-- The stamp word of a firmware stamp on TIME_CFG.FWTB (R267, R377). -/
def State.sspStamp (s : State) : W64 :=
  let t := s.getF Reg.TIME_CFG_FWTB
  let x := s.tb t
  if s.getF (Reg.TB_STAT_STATE t) = 0 then 0
  else BitVec.ofNat 64 (x.sec % 2 ^ 30 * 2 ^ 34 + x.ns * 2 ^ 4 + 1)

/-- A start of the sequence of a port: refused, counted and logged while one runs; none runs in Descent or Bivouac. A sequence
whose first descriptor is not in use completes at once (R376). -/
def State.sspStart (s : State) (n : Nat) : State :=
  if s.flag (Reg.SSP_STAT_BUSY n) then (s.bump (Reg.SSP_STAT_LATE n)).log .SSP_LATE n []
  else if s.cur = 7 ∨ s.cur = 0 then s
  else if s.flag (Reg.SSP_SEQ_V n 0) then
    (s.setSsp n { s.ssp n with at_ := some 0, stop := false, ovr := false }).setF (Reg.SSP_STAT_BUSY n) 1
  else s.bump (Reg.SSP_STAT_RUNS n)

/-- STOP: the transaction in progress completes and none starts after it (R376). -/
def State.sspStop (s : State) (n : Nat) : State :=
  if s.flag (Reg.SSP_STAT_BUSY n) then s.setSsp n { s.ssp n with stop := true } else s

/-- RXCNT follows the ring. -/
def State.sspCount (s : State) (n : Nat) : State := s.setF (Reg.SSP_STAT_RXCNT n) (s.ssp n).ring.length

/-- POP: the oldest record leaves the ring (R377). -/
def State.sspPop (s : State) (n : Nat) : State := (s.setSsp n { s.ssp n with ring := (s.ssp n).ring.drop 1 }).sspCount n

/-- A write of SSP_CTL (R376, R377). -/
def State.sspCtlWrite (s : State) (n : Nat) (v : W64) : State :=
  let s1 := if bit v 2 then s.sspPop n else s
  let s2 := if bit v 1 then s1.sspStop n else s1
  if bit v 0 then s2.sspStart n else s2

/-- The tests of a write to SSP_CFG (R375, R378). -/
def State.checkSspCfg (s : State) (n : Nat) (v : W64) : Option Cond :=
  firstFail [(bits v 23 16 != 0, .SSP_DIV), (decide (bits v 15 8 ≤ 249), .SSP_DIV), (!s.flag (Reg.SSP_STAT_BUSY n), .SSP_LIVE)]

/-- The tests of a write to SSP_SEQ (R378). -/
def State.checkSspSeq (s : State) (n : Nat) (v : W64) : Option Cond :=
  firstFail [(decide (bits v 55 53 < 6), .SSP_NB), (!s.flag (Reg.SSP_STAT_BUSY n), .SSP_LIVE)]

/-- SSP_GO: a write of SSP_CTL.GO = 1 with operator authority (R376). -/
def execSspGo (port : Port) (n : Fin 4) (s : State) : Res :=
  s.whenOpen port (Reg.SSP_CTL n) <|
  if s.classOf port < 1 then .next (s.logRefusal .SYS_AUTH_DENIED n (Reg.SSP_CTL n) port) else .next (s.sspStart n)

/-- SSP_STOP: a write of SSP_CTL.STOP = 1 (R376). -/
def execSspStop (port : Port) (n : Fin 4) (s : State) : Res :=
  s.whenOpen port (Reg.SSP_CTL n) <|
  if s.classOf port < 1 then .next (s.logRefusal .SYS_AUTH_DENIED n (Reg.SSP_CTL n) port) else .next (s.sspStop n)

/-- SSP_POP: a write of SSP_CTL.POP = 1 (R377). -/
def execSspPop (port : Port) (n : Fin 4) (s : State) : Res :=
  s.whenOpen port (Reg.SSP_CTL n) <|
  if s.classOf port < 1 then .next (s.logRefusal .SYS_AUTH_DENIED n (Reg.SSP_CTL n) port) else .next (s.sspPop n)

/-- The record word of a transaction of descriptor k that received given bytes (R377). -/
def State.sspRecord (s : State) (n k : Nat) (rx : BitVec 48) : W64 :=
  let nb := s.getF (Reg.SSP_SEQ_NB n k) + 1
  let data := rx.toNat / 2 ^ (8 * (6 - nb)) * 2 ^ (8 * (6 - nb))
  BitVec.ofNat 64 (2 ^ 63 + k <<< 60 + s.getF (Reg.SSP_SEQ_SEL n k) <<< 58 + (s.getF (Reg.SSP_STAT_RUNS n) % 256) <<< 48 + data)

/-- SSP_TRANSACTION_COMPLETE: the transaction of the descriptor in progress ends with the bytes received: its stamped record joins
the ring, or is discarded where 64 are held; the next descriptor follows unless none is in use, STOP was written, or the
hub is in Descent or Bivouac (R376, R377). -/
def execSspTransactionComplete (n : Fin 4) (rx : BitVec 48) (s : State) : Res :=
  let x := s.ssp n
  match x.at_ with
  | none => .next s
  | some k =>
    let s1 :=
      if x.ring.length < 64 then (s.setSsp n { x with ring := x.ring ++ [(s.sspRecord n k rx, s.sspStamp)] }).sspCount n
      else
        let t := s.bump (Reg.SSP_STAT_OVR n)
        if x.ovr then t else (t.setSsp n { x with ovr := true }).log .SSP_OVR n []
    let y := s1.ssp n
    let halted := x.stop || s.cur == 7 || s.cur == 0
    if !halted && decide (k < 7) && s1.flag (Reg.SSP_SEQ_V n (k + 1)) then .next (s1.setSsp n { y with at_ := some (k + 1) })
    else
      let s2 := (s1.setSsp n { y with at_ := none, stop := false }).setF (Reg.SSP_STAT_BUSY n) 0
      .next (if halted then s2 else s2.bump (Reg.SSP_STAT_RUNS n))

end Sys2Proof.Machine
end

