-- ==== Sys2Proof/Machine/TimeBase.lean ====
section
/-!
DEFINITION. Sys2Proof/Machine/TimeBase.lean: the time bases' states, servo, commands, alarms and PPS (R45, R248 to R259,
R268 to R273).
-/
namespace Sys2Proof.Machine
open Sys2Proof

/-! ### States (R251, R263) -/

/-- TB_STAT.STATE of a time base: 0 UNSET, 1 FREERUN, 2 ACQUIRE, 3 LOCKED, 4 HOLDOVER, 5 REFUSED. -/
def State.tbState (s : State) (t : Nat) : Nat := s.getF (Reg.TB_STAT_STATE t)

/-- clockClass announced, shown in TB_STAT.CLASS: TB_DS.CLASS, or chosen by state where that is 0 (R263). -/
def State.clockClass (s : State) (t : Nat) : Nat :=
  let c := s.getF (Reg.TB_DS_CLASS t)
  if c ≠ 0 then c
  else if s.flag (Reg.TB_DS_SLAVE_ONLY t) then 255
  else if s.tbState t = 3 ∧ (s.tb t).srcNow = 2 then 6
  else if s.tbState t = 4 ∧ (s.tb t).ppsLock = true then 7
  else 248

/-- TB_STAT.CLASS brought up to date. -/
def State.refreshClass (s : State) (t : Nat) : State := s.setF (Reg.TB_STAT_CLASS t) (s.clockClass t)

/-- The state of a time base changes: logged, LOCKED and its loss by name, and a lock while P is not 0 as FLT_OFFGRID (R134); entering ACQUIRE begins the lock counts afresh and ends a
refusal episode (R251, R256). -/
def State.setTbState (s : State) (t v : Nat) : State :=
  let o := s.tbState t
  if o = v then s
  else
    let x := s.tb t
    let y := { x with
      inRow := 0, outRow := 0, okRow := 0
      episode := (if v = 5 then x.episode else false)
      ppsLock := (v == 4 && o == 3 && x.srcNow == 2) }
    let s1 := (s.setTb t y).setF (Reg.TB_STAT_STATE t) v
    let s2 := if v = 5 then s1 else s1.setF (Reg.TB_STAT_REFPEND t) 0
    let c := if v = 3 then Cond.TIME_LOCKED else if o = 3 then .TIME_UNLOCKED else .TIME_STATE
    let s3 := (s2.refreshClass t).log c t [BitVec.ofNat 64 o, BitVec.ofNat 64 v]
    if v = 3 ∧ s3.getF Reg.FLT_SYNC_PHASE ≠ 0 then s3.log .FLT_OFFGRID t [] else s3

/-- YI put in force as y (R251). -/
def State.holdYi (s : State) (t : Nat) : State := s.setS (Reg.TB_FREQ_Y t) (s.getS (Reg.TB_FREQ_YI t))

/-- A frequency in ppb in units of 2^-40, rounded to the nearest. -/
def ppbUnits (ppb : Nat) : Int := roundEven ((ppb * 2 ^ 40 : Nat) : Int) (10 ^ 9)

/-- The last time mark plus 2^26 slots, in 2^-48 ns (R46). -/
def State.markTime (s : State) : Nat := s.mode.lastMark * secUnits + 2 ^ 26 * slotUnits

/-- Where a transition still waits for the initial set, it is named: 16 slots on, and for the start mode no earlier than 400 ms
(R33, R48); a hub that listens on its pair link names none yet (R389). -/
def State.nameStart (s : State) : State :=
  if s.mode.phase = .running ∧ s.flag Reg.SYS_MODE_PENDV = true ∧ s.mode.pendAt.isNone = true ∧ s.pair.listening.isNone = true then
    let early := s.now + ceilDiv (1280000000 - s.clk.uptime) 12800
    let at_ := if s.mode.pendCause = 0 then Nat.max (s.now + 16) early else s.now + 16
    let s1 : State := { s with mode := { s.mode with pendAt := some at_, setWaitEnd := none } }
    s1.dropAuto.scheduleAuto (s1.getF Reg.SYS_MODE_PEND) (some at_)
  else s

/-- The initial set of a time base: the time is taken whole and is no step; on the sampling time base the slot numbers follow,
which the records of the change then carry, a set below the last time mark is logged, and a start mode that waits is named (R45, R47, R48, R251). -/
def State.initialSet (s : State) (t time state : Nat) (fromMark : Bool) : State :=
  let s0 := s.setTb t { s.tb t with time := time }
  let s1 := (if t = s0.sampTb then s0.reslot else s0).setTbState t state
  if t = s1.sampTb then
    let s2 := s1
    let s3 := if !fromMark && decide (time < s.markTime) then
      s2.log .TIME_SET_BACK t [BitVec.ofNat 64 s.mode.lastMark, BitVec.ofNat 64 (time / secUnits)] else s2
    s3.nameStart
  else s1

/-- A time base without a domain takes its initial set from the last time mark plus 2^26 slots (R46). -/
def State.setFromMark (s : State) (t : Nat) : State := if s.tbState t = 0 then s.initialSet t s.markTime 1 true else s

/-! ### The servo (R254 to R256) -/

/-- STEPLIM in 2^-16 ns. -/
def State.stepLim (s : State) (t : Nat) : Nat := s.getF (Reg.TB_LIMITS_STEPLIM t) * 65536

/-- An accepted offset moves the servo: the terms of R254 in units of 2^-40, each rounded to the nearest, ties to even; a
commanded slew ends once the offset lies within STEPLIM. θ is in 2^-16 ns and τ in root ticks, so that
θ · 1e-9 / τ = θ · 2^28 / (5 τ) in units of 2^-40 (R254, R258). -/
def State.servo (s : State) (t : Nat) (theta : Int) (tau : Nat) : State :=
  let fmax := ppbUnits (s.getF (Reg.TB_SERVO_FMAX t))
  let smax := ppbUnits (s.getF (Reg.TB_SERVO_SLEWMAX t))
  let num := theta * 2 ^ 28
  let den := 5 * Nat.max 1 tau
  let e := roundEven num den
  let yp0 := roundEven e (2 ^ s.getF (Reg.TB_SERVO_KP t))
  let clamped := decide (smax < yp0.natAbs)
  let yp := if clamped then (if yp0 < 0 then -smax else smax) else yp0
  let cslew := s.flag (Reg.TB_STAT_CSLEW t)
  let yi0 := s.getS (Reg.TB_FREQ_YI t)
  let yi := if !clamped && !cslew then clampI (-fmax) fmax (yi0 + roundEven e (2 ^ s.getF (Reg.TB_SERVO_KI t))) else yi0
  let y := clampI (-fmax) fmax (yi + yp)
  let s1 := ((s.setS (Reg.TB_FREQ_Y t) y).setS (Reg.TB_FREQ_YI t) yi).setF (Reg.TB_STAT_PCLAMP t) (b2n clamped)
  if cslew && decide (theta.natAbs ≤ s.stepLim t) then (s1.setTb t { s1.tb t with slew := none }).setF (Reg.TB_STAT_CSLEW t) 0 else s1

/-- The lock and unlock criteria after an applied offset (R254). -/
def State.lockCriterion (s : State) (t : Nat) (theta : Int) : State :=
  let lim := s.getF (Reg.TB_LIMITS_LOCK_NS t) * 65536
  let x := s.tb t
  let inRow := if theta.natAbs ≤ lim ∧ s.flag (Reg.TB_STAT_PCLAMP t) = false then x.inRow + 1 else 0
  let outRow := if 4 * lim < theta.natAbs then x.outRow + 1 else 0
  let s1 := s.setTb t { x with inRow := inRow, outRow := outRow }
  if s.tbState t = 2 ∧ 16 ≤ inRow then s1.setTbState t 3
  else if s.tbState t = 3 ∧ 2 ≤ outRow then s1.setTbState t 2
  else s1

/-- An offset beyond STEPLIM is refused: it is stored and counted, the time base runs at YI, and the episode is logged once
(R256). -/
def State.refuseOffset (s : State) (t : Nat) (theta : Int) : State :=
  let s1 := (((s.setTbState t 5).holdYi t).setReg (Reg.TB_ROFF t) (BitVec.ofInt 64 theta)).setF (Reg.TB_STAT_REFPEND t) 1
  let s2 := (s1.bump (Reg.TB_CNT_REFUSED t)).setTb t { s1.tb t with okRow := 0, episode := true }
  if (s1.tb t).episode then s2 else s2.log .TIME_JUMP_REFUSED t [BitVec.ofInt 64 theta]

/-- An offset applied under R254. -/
def State.takeOffset (s : State) (t : Nat) (theta : Int) (tau : Nat) : State :=
  let s1 := (s.servo t theta tau).bump (Reg.TB_CNT_UPDATES t)
  let s2 := if s1.tbState t = 2 ∨ s1.tbState t = 3 then s1 else s1.setTbState t 2
  s2.lockCriterion t theta

/-- An offset of the source of a set time base: applied, held back while REFUSED, or refused (R251, R254, R256). -/
def State.offset (s0 : State) (t : Nat) (theta : Int) (tau : Nat) : State :=
  let s1 := s0.setReg (Reg.TB_OFFSET t) (BitVec.ofInt 64 theta)
  let s := s1.setTb t { s1.tb t with lastOff := s1.clk.uptime }
  let beyond := decide (s.stepLim t < theta.natAbs)
  let cslew := s.flag (Reg.TB_STAT_CSLEW t)
  if s.tbState t = 0 then s
  else if s.tbState t = 5 ∧ cslew = false then
    if beyond then s.refuseOffset t theta
    else
      let n := (s.tb t).okRow + 1
      let s2 := s.setTb t { s.tb t with okRow := n }
      if 8 ≤ n then (s2.setTbState t 2).takeOffset t theta tau else s2
  else if beyond ∧ cslew = false then s.refuseOffset t theta
  else s.takeOffset t theta tau

/-- A slew under the servo is given up: CSLEW and REFPEND clear (R273). -/
def State.abandonSlew (s : State) (t : Nat) : State :=
  if s.flag (Reg.TB_STAT_CSLEW t) ∧ (s.tb t).slew.isNone then
    ((s.setF (Reg.TB_STAT_CSLEW t) 0).setF (Reg.TB_STAT_REFPEND t) 0).log .TIME_SLEW_ABANDONED t []
  else s

/-- The rate of a SLEW command: YI, more or less SLEWMAX by the sign of its offset, held to FMAX (R258). -/
def State.slewRate (s : State) (t : Nat) (off : Int) : Int :=
  let smax := ppbUnits (s.getF (Reg.TB_SERVO_SLEWMAX t))
  let fmax := ppbUnits (s.getF (Reg.TB_SERVO_FMAX t))
  let yi := s.getS (Reg.TB_FREQ_YI t)
  clampI (-fmax) fmax (if 0 ≤ off then yi + smax else yi - smax)

/-- The frequency of a time base whose servo stands: the rate of a commanded SLEW that runs, else YI (R251, R258, R273). -/
def State.holdRate (s : State) (t : Nat) : State :=
  match (s.tb t).slew with
  | some rest => s.setS (Reg.TB_FREQ_Y t) (s.slewRate t rest)
  | none => s.holdYi t

/-- The source of a time base is lost: HOLDOVER at YI (R251, R255). A commanded SLEW runs on to its end at its rate (R258, R273). The
PPS_IN edge that comes next is the first of a new run of valid ones, for none could be valid again (R251, R272; DEDUCED, log 14). -/
def State.loseSource (s : State) (t : Nat) : State :=
  let st := s.tbState t
  let s1 := s.abandonSlew t
  if st = 2 ∨ st = 3 ∨ st = 5 then
    let s2 := s1.setTbState t 4
    (s2.setTb t { s2.tb t with lastPps := none }).holdRate t
  else s1

/-- The sync interval of a time base in root ticks: 2^LOGSYNC s (R253). -/
def State.syncTicks (s : State) (t : Nat) : Nat :=
  let k := s.getS (Reg.TB_CFG_LOGSYNC t)
  if k < 0 then 3200000000 / 2 ^ k.natAbs else 3200000000 * 2 ^ k.natAbs

/-- SOURCE_LOST: no Sync with its Follow_Up for 3 sync intervals (SRC 1), no valid PPS_IN edge for 3 s (SRC 2), no write for 4
intervals and at least 1 s (SRC 3): HOLDOVER (R255). -/
def execSourceLost (t : Fin 4) (s : State) : Res :=
  let x := s.tb t
  let since := s.clk.uptime - x.lastOff
  let st := s.tbState t
  if ¬(st = 2 ∨ st = 3 ∨ st = 5) then .next s
  else if x.srcNow = 1 ∧ 3 * s.syncTicks t ≤ since then .next ((s.bump (Reg.TB_CNT_SYNC_TO t)).loseSource t)
  else if x.srcNow = 2 ∧ 9600000000 ≤ since then .next (s.loseSource t)
  else if x.srcNow = 3 ∧ Nat.max (4 * x.tau) 3200000000 ≤ since then .next (s.loseSource t)
  else .next s

/-- A written offset: τ is the time since the previous write, held to 1/128 s to 16 s; the first one has no previous write, and its
τ is taken as 1/128 s (R253; DEDUCED, log 14). -/
def State.extOffset (s : State) (t : Nat) (theta : W64) : State :=
  let x := s.tb t
  let tau := match x.lastExt with
    | some u => Nat.min 51200000000 (Nat.max 25000000 (s.clk.uptime - u))
    | none => 25000000
  let s1 := s.setTb t { x with lastExt := some s.clk.uptime, tau := tau }
  if x.srcNow = 3 then s1.offset t theta.toInt tau else s1

/-- EXTERNAL_OFFSET: a write of TB_EXTOFF with owner authority (R253). -/
def execExternalOffset (port : Port) (t : Fin 4) (theta : W64) (s : State) : Res :=
  s.whenOpen port (Reg.TB_EXTOFF t) <|
  if s.classOf port < 2 then .next (s.logRefusal .SYS_AUTH_DENIED t (Reg.TB_EXTOFF t) port) else .next (s.extOffset t theta)

/-! ### Register writes (R250, R253, R254, R260 to R262) -/

/-- The tests of a write to TB_CFG, the fields from the most significant down, then the rule that binds two time bases. -/
def State.checkTbCfg (s : State) (t : Nat) (v : W64) : Option Cond :=
  let ls := signed 4 (bits v 15 12)
  let la := signed 4 (bits v 11 8)
  let arto := bits v 7 4
  let dup := bits v 2 0 == 1 && [0, 1, 2, 3].any (fun u => u != t && s.getF (Reg.TB_CFG_SRC u) == 1 &&
    s.getF (Reg.TB_CFG_DOMAIN u) == bits v 39 32 && s.getF (Reg.TB_CFG_TRANSPORT u) == bits v 21 20)
  firstFail [(decide (bits v 39 32 ≤ 127), .TIME_DOMAIN), (bits v 21 20 != 3, .TIME_TRANSPORT),
    (decide (-7 ≤ ls ∧ ls ≤ 1), .TIME_PTP_RANGE), (decide (-3 ≤ la ∧ la ≤ 4), .TIME_PTP_RANGE),
    (decide (2 ≤ arto ∧ arto ≤ 10), .TIME_PTP_RANGE), (decide (bits v 2 0 < 4), .TIME_SRC), (!dup, .TIME_DOMAIN_DUP)]

/-- The tests of a write to TB_SERVO (R254). -/
def checkTbServo (v : W64) : Option Cond :=
  let f := bits v 56 40
  let m := bits v 32 16
  firstFail [(decide (1 ≤ f ∧ f ≤ 62500), .TIME_SERVO_RANGE), (decide (1 ≤ m ∧ m ≤ f), .TIME_SERVO_RANGE)]

/-- A new FMAX bounds the frequency and the integrator in force (R249). -/
def State.servoWritten (s : State) (t : Nat) : State :=
  let fmax := ppbUnits (s.getF (Reg.TB_SERVO_FMAX t))
  (s.setS (Reg.TB_FREQ_Y t) (clampI (-fmax) fmax (s.getS (Reg.TB_FREQ_Y t)))).setS (Reg.TB_FREQ_YI t)
    (clampI (-fmax) fmax (s.getS (Reg.TB_FREQ_YI t)))

/-- The tests of a write to TB_LIMITS. -/
def checkTbLimits (v : W64) : Option Cond :=
  firstFail [(bits v 63 32 != 0, .TIME_SERVO_RANGE), (bits v 15 0 != 0, .TIME_SERVO_RANGE)]

/-- What a write of TB_CFG changes at once: a change of DOMAIN, PORTS or TRANSPORT of a time base on a PTP domain returns its ports
to INITIALIZING and loses the source (R260). -/
def State.tbCfgWritten (s : State) (t : Nat) (old : W64) : State :=
  let v := s.reg (Reg.TB_CFG t)
  let moved := bits old 39 32 != bits v 39 32 || bits old 27 24 != bits v 27 24 || bits old 21 20 != bits v 21 20
  if moved then
    let ps := ((List.range 4).map (fun l => if (bits v 27 24).testBit l && bits v 2 0 == 1 then 16 ^ l else 0)).sum
    let s1 := ((s.setF (Reg.TB_STAT_PSTATE t) ps).setF (Reg.TB_STAT_GM t) 0).setTb t { s.tb t with ports := [], parentAt := none }
    if (s1.tb t).srcNow = 1 then s1.loseSource t else s1
  else s

/-- A write of SRC takes effect at the slot boundary: SRC 0 leaves a set time base in FREERUN at YI, a commanded SLEW running
on to its end (R258); the ports of a time base that
joins PTP begin, those of one that leaves end (R251, R253, R260). -/
def State.tbSrcBoundary (s : State) (t : Nat) : State :=
  let x := s.tb t
  let v := s.getF (Reg.TB_CFG_SRC t)
  if x.srcNow = v then s
  else
    let ps := if v = 1 then ((List.range 4).map (fun l => if (s.getF (Reg.TB_CFG_PORTS t)).testBit l then 16 ^ l else 0)).sum else 0
    let s1 := (s.setTb t { x with srcNow := v, lastOff := s.clk.uptime, ports := [], parentAt := none, lastPps := none }).setF
      (Reg.TB_STAT_PSTATE t) ps
    let s2 := if v = 1 then s1 else s1.setF (Reg.TB_STAT_GM t) 0
    if v = 0 ∧ s.tbState t ≠ 0 then ((s2.abandonSlew t).setTbState t 1).holdRate t else s2.refreshClass t

/-- The tests of a write of SAMPLE_TB, but for a base record at start-up (R250). -/
def State.checkSampleTb (s : State) (port t : Nat) : Option Cond :=
  firstFail [(!s.acquiring, .TIME_SAMPLE_LIVE), (s.tbState t != 0, .TIME_CMD_UNSET),
    (decide (s.pps.highest ≤ s.tbSlot t) || decide (3 ≤ s.classOf port), .TIME_STEP_BACK)]

/-- What is stored under slot numbers that come again is discarded (R250, R257): the store and the values that the ledger coder holds. -/
def State.discardAbove (s : State) (slot : Nat) : State :=
  if slot < s.pps.highest then
    let h := (s.led.lanes ++ s.led.blocks).foldl (fun a l => Nat.max a (l.lastInstant + 1)) (s.reg Reg.LED_HORIZON).toNat
    (({ s with led := { s.led with lanes := [], blocks := [] } } : State).setReg Reg.LED_HORIZON (BitVec.ofNat 64 h)).discardStore slot
  else s

/-- The sampling time base becomes t: the slot numbers follow it (R250). -/
def State.selectSampleTb (s : State) (t : Nat) : State :=
  let s0 := s.discardAbove (s.tbSlot t)
  if t = s.sampTb then s0
  else
    let s1 := [0, 1, 2, 3].foldl (fun u k => u.setF (Reg.TB_STAT_SAMPLING k) (b2n (k == t))) (s0.setF Reg.TIME_CFG_SAMPLE_TB t)
    if s1.tbState t = 0 then s1 else s1.reslot.nameStart

/-- A write of TIME_CFG: every one writes SAMPLE_TB and is tested; a base record at start-up by the first test alone (R250). -/
def State.timeCfgWrite (s : State) (w : WCtx) (v : W64) : WriteRes :=
  let t := bits v 1 0
  let startUp := w.isCfg && s.mode.phase != .running
  let c := if startUp then firstFail [(!s.acquiring, .TIME_SAMPLE_LIVE)] else s.checkSampleTb w.port t
  match c with
  | some c => s.refuse c t Reg.TIME_CFG w.port
  | none =>
    let s1 := s.setF Reg.TIME_CFG_FWTB (bits v 5 4)
    (s1.selectSampleTb t, none)

/-! ### Owner commands (R257, R258) -/

/-- The time a command would set a time base to, in 2^-48 ns; OP 1, 2 and 4. -/
def State.newTime (s : State) (t : Nat) (c : TimeCmd) : Nat :=
  if c.op = 1 then c.sec * secUnits + nsUnits c.ns
  else if c.op = 2 then (((s.tb t).time : Int) + c.off * 2 ^ 32).toNat
  else (((s.tb t).time : Int) + (s.reg (Reg.TB_ROFF t)).toInt * 2 ^ 32).toNat

/-- A TIME_CMD of a port with its copies as operands (R257). -/
def State.timeCmdOf (s : State) (port op : Nat) : TimeCmd :=
  { op := op, sec := (s.copy port Reg.TIME_CMDSEC).toNat, ns := bits (s.copy port Reg.TIME_CMDNS) 29 0
    off := (s.copy port Reg.TIME_CMDOFF).toInt, maint := decide (3 ≤ s.classOf port), edge := s.clk.edges }

/-- The tests of a time command, in the order of R257. -/
def State.checkTimeCmd (s : State) (port t op : Nat) : Option Cond :=
  let c := s.timeCmdOf port op
  let steps := op == 1 || op == 2 || op == 4
  let st := s.tbState t
  let fmax := ppbUnits (s.getF (Reg.TB_SERVO_FMAX t))
  let yi := s.getS (Reg.TB_FREQ_YI t)
  firstFail [(decide (1 ≤ op ∧ op ≤ 5), .TIME_CMD_ILLEGAL), (decide (2 ≤ s.classOf port), .TIME_CMD_AUTH),
    (op == 1 || st != 0, .TIME_CMD_UNSET), (!(op == 4 || op == 5) || s.flag (Reg.TB_STAT_REFPEND t), .TIME_CMD_NOREF),
    (op != 3 || st == 1 || st == 4, .TIME_CMD_SRC), (!(steps && t == s.sampTb && s.acquiring), .TIME_STEP_LIVE),
    (!(steps && t == s.sampTb && decide (s.newTime t c / slotUnits < s.pps.highest) && !c.maint), .TIME_STEP_BACK),
    (!(op == 3 && ((decide (0 < c.off) && decide (fmax ≤ yi)) || (decide (c.off < 0) && decide (yi ≤ -fmax)))), .TIME_SLEW_LIMIT)]

/-- A write of TIME_CMD: refused by the first test that fails, else it waits for the next slot boundary, behind those
accepted before it (R257). -/
def State.timeCmd (s : State) (port t op : Nat) : WriteRes :=
  match s.checkTimeCmd port t op with
  | some c => s.refuse c t Reg.TIME_CMD port
  | none => (s.setTb t { s.tb t with cmds := (s.tb t).cmds ++ [s.timeCmdOf port op] }, none)

/-- SET: TIME_CMD with OP 1 (R257). -/
def execSet (port : Port) (t : Fin 4) (s : State) : Res :=
  s.whenOpen port Reg.TIME_CMD <| .next (s.timeCmd port t 1).1
/-- STEP: TIME_CMD with OP 2 (R257). -/
def execStep (port : Port) (t : Fin 4) (s : State) : Res :=
  s.whenOpen port Reg.TIME_CMD <| .next (s.timeCmd port t 2).1
/-- SLEW: TIME_CMD with OP 3 (R257). -/
def execSlew (port : Port) (t : Fin 4) (s : State) : Res :=
  s.whenOpen port Reg.TIME_CMD <| .next (s.timeCmd port t 3).1
/-- ACCEPT_STEP: TIME_CMD with OP 4 (R257). -/
def execAcceptStep (port : Port) (t : Fin 4) (s : State) : Res :=
  s.whenOpen port Reg.TIME_CMD <| .next (s.timeCmd port t 4).1
/-- ACCEPT_SLEW: TIME_CMD with OP 5 (R257). -/
def execAcceptSlew (port : Port) (t : Fin 4) (s : State) : Res :=
  s.whenOpen port Reg.TIME_CMD <| .next (s.timeCmd port t 5).1

/-! ### Alarms (R268 to R270) -/

/-- The instant of an alarm in 2^-48 ns. -/
def State.alarmAt (s : State) (a : Nat) : Nat :=
  (s.reg (Reg.ALM_SEC a)).toNat * secUnits + nsUnits (s.getF (Reg.ALM_NS_NS a))

/-- The instant of an alarm replaced. -/
def State.setAlarmAt (s : State) (a time : Nat) : State :=
  (s.setReg (Reg.ALM_SEC a) (BitVec.ofNat 64 (time / secUnits))).setF (Reg.ALM_NS_NS a) (time % secUnits / 2 ^ 48)

/-- The actions of a firing: redirects, the log, PPS_OUT, the sensor serial ports (R268, R270). -/
def State.alarmActions (s : State) (a : Nat) : State :=
  let act := s.getF (Reg.ALM_CFG_ACT a)
  let s1 := if act.testBit 0 then s.raiseRedirect (16 + a) s.now else s
  let s2 := if act.testBit 1 then
    s1.log .TIME_ALARM a [BitVec.ofNat 64 a, s.reg (Reg.ALM_SEC a), s.reg (Reg.ALM_NS a), BitVec.ofNat 64 s.now] else s1
  let s3 : State := if act.testBit 2 ∧ s.getF Reg.TIME_PPS_OUT_SRC = 2 then
    { s2 with pps := { s2.pps with sched := some s.clk.uptime } } else s2
  (List.range 4).foldl (fun t n => if act.testBit (3 + n) then t.sspStart n else t) s3

/-- An alarm fires: counted, its actions raised; with a PERIOD the next instant is the first of the instants one period apart that
lies after `past`, those passed over being counted, else EN clears (R270, R273). -/
def State.fireAlarm (s : State) (a past : Nat) (late : Bool) : State :=
  let p := nsUnits (s.getF (Reg.ALM_CFG_PERIOD a))
  let t := s.alarmAt a
  let s1 := (s.alarmActions a).bump (Reg.ALM_STAT_FIRES a)
  let s2 := if late then s1.setF (Reg.ALM_STAT_LATE a) 1 else s1
  if p = 0 then (s2.setF (Reg.ALM_CFG_EN a) 0).setF (Reg.ALM_STAT_ARMED a) 0
  else if late then
    let k := (past - t) / p + 1
    (s2.setAlarmAt a (t + k * p)).addF (Reg.ALM_STAT_SKIPPED a) (k - 1)
  else s2.setAlarmAt a (t + p)

/-- ALARM_FIRE: the alarm's time base has reached its instant (R270). -/
def execAlarmFire (a : Fin 16) (s : State) : Res :=
  if s.flag (Reg.ALM_CFG_EN a) = true ∧ s.alarmAt a ≤ (s.tb (s.getF (Reg.ALM_CFG_TB a))).time then
    .next (s.fireAlarm a 0 false)
  else .next s

/-- The tests of an arm with a new ALM_CFG word, in the order of R269; with SKIP the instant that passes. -/
def State.armAlarm (s : State) (a : Nat) (v : W64) : Option Cond × Nat :=
  let t := bits v 2 1
  let p := nsUnits (bits v 63 16)
  let lim := (s.tb t).time + 2 * slotUnits
  let at_ := s.alarmAt a
  let skipped := if bit v 3 ∧ p ≠ 0 ∧ at_ < lim then ceilDiv (lim - at_) p else 0
  (firstFail [(s.tbState t != 0, .TIME_ALARM_UNSET),
    (decide (s.getF (Reg.ALM_NS_NS a) < 10 ^ 9) && (bits v 63 16 == 0 || decide (4000 ≤ bits v 63 16)), .TIME_ALARM_RANGE),
    (decide (lim ≤ at_ + skipped * p), .TIME_ALARM_PAST)], skipped)

/-- A write of ALM_CFG: while EN = 1 only EN = 0 is taken; EN = 1 arms under R269. -/
def State.almCfgWrite (s : State) (port a : Nat) (v0 : W64) : WriteRes :=
  let v := v0 &&& 0xFFFFFFFFFFFF7F0F#64
  let old := s.reg (Reg.ALM_CFG a)
  if bit old 0 then
    if bit v 0 then s.refuse .TIME_ALARM_LIVE a (Reg.ALM_CFG a) port
    else ((s.setReg (Reg.ALM_CFG a) v).setF (Reg.ALM_STAT_ARMED a) 0, none)
  else if bit v 0 then
    match s.armAlarm a v with
    | (some c, _) => s.refuse c a (Reg.ALM_CFG a) port
    | (none, k) =>
      let s1 := (s.setReg (Reg.ALM_CFG a) v).setF (Reg.ALM_STAT_ARMED a) 1
      ((s1.setAlarmAt a (s.alarmAt a + k * nsUnits (bits v 63 16))).addF (Reg.ALM_STAT_SKIPPED a) k, none)
  else (s.setReg (Reg.ALM_CFG a) v, none)

/-- The tests of a write to ALM_SEC or ALM_NS (R269). -/
def State.checkAlm (s : State) (a : Nat) : Option Cond := if s.flag (Reg.ALM_CFG_EN a) then some .TIME_ALARM_LIVE else none

/-- ALARM_ARM: a write of ALM_CFG with EN = 1 and operator authority (R269). -/
def execAlarmArm (port : Port) (a : Fin 16) (value : W64) (s : State) : Res :=
  s.whenOpen port (Reg.ALM_CFG a) <|
  if s.classOf port < 1 then .next (s.logRefusal .SYS_AUTH_DENIED a (Reg.ALM_CFG a) port)
  else .next (s.almCfgWrite port a (setBits value 0 0 1)).1

/-! ### The effect of a time command (R258, R273) -/

/-- Armed alarms of a time base whose instant a forward step passes over fire once, late (R273). -/
def State.alarmsPassed (s : State) (t old new : Nat) : State :=
  (List.range 16).foldl (fun u a =>
    if u.flag (Reg.ALM_CFG_EN a) && u.getF (Reg.ALM_CFG_TB a) == t && decide (old < u.alarmAt a) && decide (u.alarmAt a ≤ new) then
      u.fireAlarm a new true
    else u) s

/-- A step of a set time base in one root tick: YI is kept, the step is logged with the old and new times; the last valid PPS_IN edge keeps
its place in real time (R258, R272). -/
def State.stepTime (s : State) (t new : Nat) : State :=
  let x := s.tb t
  let old := x.time
  let s0 := if t = s.sampTb then s.discardAbove (new / slotUnits) else s
  let y := { x with time := new, lastPps := x.lastPps.map (fun p => ((p : Int) + new - old).toNat) }
  let p := if t = s.getF Reg.TIME_PPS_OUT_TB then { s0.pps with last := none } else s0.pps
  let s1 := (({ s0 with pps := p } : State).setTb t y).log .TIME_STEP t
    [BitVec.ofNat 64 (old / secUnits), BitVec.ofNat 64 (old % secUnits / 2 ^ 48), BitVec.ofNat 64 (new / secUnits),
     BitVec.ofNat 64 (new % secUnits / 2 ^ 48)]
  let s2 := if t = s1.sampTb then s1.reslot else s1
  if old < new then s2.alarmsPassed t old new else s2

/-- The first command that waits is taken out; the instant of its effect is kept, against which the stamps of later offsets are held
(R257, R273). -/
def State.takeCmd (s : State) (t : Nat) : State :=
  let x := s.tb t
  s.setTb t { x with cmdAt := s.binsNow, cmds := x.cmds.drop 1 }

/-- A command of a time base takes effect (R258). -/
def State.timeEffect (s0 : State) (t : Nat) (c : TimeCmd) : State :=
  let s := s0.takeCmd t
  if c.op = 3 then
    ((s.setS (Reg.TB_FREQ_Y t) (s.slewRate t c.off)).setF (Reg.TB_STAT_CSLEW t) 1).setTb t { s.tb t with slew := some (c.off * 2 ^ 32) }
  else if c.op = 5 then
    ((s.setTbState t 2).setF (Reg.TB_STAT_CSLEW t) 1).setTb t { (s.setTbState t 2).tb t with slew := none }
  else if c.op = 4 then (s.stepTime t (s.newTime t c)).setTbState t 2
  else if c.op = 1 ∧ s.tbState t = 0 then
    (s.setTb t { s.tb t with phaseDue := decide ((s.tb t).srcNow = 2) }).initialSet t (s.newTime t c) 1 false
  else s.stepTime t (s.newTime t c)

/-- TIME_COMMAND_EFFECT: at the slot boundary after its acceptance a time command takes effect; of several the one accepted first,
and each next one with the command sent again in the slot (R257, R258). -/
def execTimeCommandEffect (t : Fin 4) (s : State) : Res :=
  match (s.tb t).cmds with
  | [] => .next s
  | c :: _ => if c.edge < s.clk.edges then .next (s.timeEffect t c) else .next s

/-- SLEW_COMPLETE: a commanded SLEW has moved the time by its offset: CSLEW clears and the time base runs at YI (R258). -/
def execSlewComplete (t : Fin 4) (s : State) : Res :=
  if (s.tb t).slew = some 0 then
    .next (((s.setTb t { s.tb t with slew := none }).setF (Reg.TB_STAT_CSLEW t) 0).holdYi t)
  else .next s

/-! ### PPS (R271, R272) -/

/-- The tests of a write to TIME_PPS (R271). -/
def checkTimePps (v : W64) : Option Cond :=
  firstFail [(decide (1 ≤ bits v 27 8 ∧ bits v 27 8 ≤ 500000), .TIME_PPS_RANGE), (bits v 1 0 != 3, .TIME_PPS_SRC)]

/-- PPS_OUT stands high; with OUT_SRC 0 it is low (R271). -/
def State.ppsHigh (s : State) : Bool := match s.pps.highTo with
  | some u => decide (s.clk.uptime < u) && s.getF Reg.TIME_PPS_OUT_SRC != 0
  | none => false

/-- What a write of TIME_PPS does: with another OUT_SRC a pulse asked for is let go, and with OUT_SRC 0 the pulse ends (R271). -/
def State.ppsWritten (s : State) (old : Nat) : State :=
  let v := s.getF Reg.TIME_PPS_OUT_SRC
  { s with pps := { s.pps with
      sched := (if v = old then s.pps.sched else none), highTo := (if v = 0 then none else s.pps.highTo) } }

/-- PPS_OUT rises for WIDTH µs, unless the last pulse is still high (R271). -/
def State.ppsPulse (s : State) : State :=
  if s.ppsHigh then s
  else { s with pps := { s.pps with highTo := some (s.clk.uptime + 3200 * s.getF Reg.TIME_PPS_WIDTH) } }

/-- PPS_OUT_PULSE: the scheduled rising edge: each whole second of OUT_TB less OFFSET ns, taken within the slot after it (OUT_SRC 1), or the firing of an alarm
with ACT bit 10 (OUT_SRC 2) (R271). -/
def execPpsOutPulse (s : State) : Res :=
  let src := s.getF Reg.TIME_PPS_OUT_SRC
  if src = 1 then
    let t := s.getF Reg.TIME_PPS_OUT_TB
    let at_ := (((s.tb t).time : Int) + s.getS Reg.TIME_PPS_OFFSET * 2 ^ 48).toNat
    let sec := at_ / secUnits
    if s.tbState t = 0 ∨ s.pps.last = some sec ∨ slotUnits ≤ at_ % secUnits then .next s
    else .next ({ s with pps := { s.pps with last := some sec } } : State).ppsPulse
  else if src = 2 then
    match s.pps.sched with
    | some _ => .next ({ s with pps := { s.pps with sched := none } } : State).ppsPulse
    | none => .next s
  else .next s

/-- The time of a time base at an instant in TDC bins since reset (2^-48 ns). -/
def State.tbTimeAt (s : State) (t : Nat) (bins : Int) : Nat :=
  (((s.tb t).time : Int) - Int.fdiv (((s.clk.uptime * 64 : Nat) - bins) * (incOf (s.getS (Reg.TB_FREQ_Y t)) : Int)) 64).toNat

/-- The nearest whole second of a time in 2^-48 ns, in s. -/
def nearestSec (time : Nat) : Nat := (time + secUnits / 2) / secUnits

/-- A PPS_IN edge on one time base at SRC 2: an unset one takes the second of the last time mark plus 2^26 slots, rounded up, and
the phase of the edge, one that a SET command set the nearest second to its time and the phase of the edge; a valid edge gives an offset,
which is discarded and counted where the edge was stamped before a command took effect (R253, R272, R273). The flag says that the edge was valid. -/
def State.ppsOn (s : State) (t : Nat) (bins : Int) : State × Bool :=
  let time := s.tbTimeAt t bins
  let x := s.tb t
  if s.tbState t = 0 then
    let sec := ceilDiv s.markTime secUnits
    let s1 := s.initialSet t (sec * secUnits + (x.time - time)) 2 false
    (s1.setTb t { s1.tb t with lastPps := some (sec * secUnits), lastOff := s.clk.uptime }, true)
  else if x.phaseDue = true ∧ !(t == s.sampTb && s.acquiring) = true then
    let sec := nearestSec time
    let s1 := (s.setTb t { x with phaseDue := false }).initialSet t ((((sec * secUnits + x.time : Nat) : Int) - time).toNat) 2 false
    (s1.setTb t { s1.tb t with lastPps := some (sec * secUnits), lastOff := s.clk.uptime }, true)
  else
    let ok := match x.lastPps with
      | some p => decide (((time : Int) - p - secUnits).natAbs ≤ 10000 * 2 ^ 48)
      | none => true
    if !ok then (s, false)
    else if bins < x.cmdAt then ((s.setTb t { x with lastPps := some time }).bump (Reg.TB_CNT_REFUSED t), true)
    else
      let theta := roundEven (((nearestSec time * secUnits : Nat) : Int) - time) (2 ^ 32)
      let s1 := s.setTb t { x with lastPps := some time, phaseDue := false }
      (s1.offset t theta 3200000000, true)

/-- PPS_IN_EDGE: a rising edge, its stamp in TDC bins since reset; DLY ns is subtracted for the cable. With no time base at SRC 2
the edge only counts, as one not valid (R272; DEDUCED, log 14). -/
def execPpsInEdge (stamp : Int) (s : State) : Res :=
  let bins := stamp - (s.getF Reg.TIME_PPSIN_DLY * 1024 / 5 : Nat)
  let (s1, ok) := [0, 1, 2, 3].foldl (fun r t =>
    if (r.1.tb t).srcNow = 2 then
      let q := r.1.ppsOn t bins
      (q.1, r.2 || q.2)
    else r) (s, false)
  .next (s1.bump (if ok then Reg.TIME_PPSIN_ACCEPTED else Reg.TIME_PPSIN_BAD))

end Sys2Proof.Machine
end

