-- ==== Sys2Proof/Machine/Ptp.lean ====
section
/-!
DEFINITION. Sys2Proof/Machine/Ptp.lean: the PTP instances of the time bases: ports, best master choice, path delay, messages
(R60, R255, R259 to R266). The best master choice, the port states and the delay mechanisms are those of the default
profiles of IEEE 1588-2019, which R260 names and does not restate (PRESUMED, log 15). The receive and transmit stamps of a lane
are on the root clock, in 2^-16 ns since reset, as R265 has them; the times that messages carry are in 2^-16 ns on a time base.
-/
namespace Sys2Proof.Machine
open Sys2Proof

/-- A PTP port of a time base on a lane. -/
def State.ptp (s : State) (t l : Nat) : PtpPort := (s.tb t).ports.get (fun _ => {}) l
/-- A PTP port replaced. -/
def State.setPtp (s : State) (t l : Nat) (p : PtpPort) : State :=
  s.setTb t { s.tb t with ports := (s.tb t).ports.set (fun _ => {}) l p }

/-- portState of a lane: 1 INITIALIZING, 4 LISTENING, 6 MASTER, 7 PASSIVE, 8 UNCALIBRATED, 9 SLAVE; 0 when it is no port. -/
def State.pstate (s : State) (t l : Nat) : Nat := (s.getF (Reg.TB_STAT_PSTATE t) >>> (4 * l)) % 16
/-- portState replaced. -/
def State.setPstate (s : State) (t l v : Nat) : State :=
  let w := s.getF (Reg.TB_STAT_PSTATE t)
  s.setF (Reg.TB_STAT_PSTATE t) (w - s.pstate t l * 16 ^ l + v * 16 ^ l)

/-- A lane is a PTP port of a time base (R260). -/
def State.isPort (s : State) (t l : Nat) : Bool := (s.tb t).srcNow == 1 && (s.getF (Reg.TB_CFG_PORTS t)).testBit l

/-- A message is of the instance: the lane is a port, and the domain and the transport agree (R260, R261). -/
def State.ptpMine (s : State) (t l : Nat) (domain : BitVec 8) (tr : BitVec 2) : Bool :=
  s.isPort t l && s.getF (Reg.TB_CFG_DOMAIN t) == domain.toNat && s.getF (Reg.TB_CFG_TRANSPORT t) == tr.toNat

/-- The time of a time base, in 2^-16 ns, at an instant of the root clock in 2^-16 ns since reset, rounded to the nearest: a root tick is
20,480 such units and adds 80 · (2^40 + y) units of 2^-48 ns (R248, R265; DEDUCED, log entry 14). -/
def State.localAt (s : State) (t : Nat) (stamp : Int) : Int :=
  roundEven (((s.tb t).time : Int) * 2 ^ 8 - (((s.clk.uptime * 20480 : Nat) : Int) - stamp) * (2 ^ 40 + s.getS (Reg.TB_FREQ_Y t))) (2 ^ 40)

/-- clockIdentity of TBt (R263). -/
def State.clockId (s : State) (t : Nat) : W64 := setBits (s.reg Reg.SYS_UID) 1 0 t

/-- A receive stamp with TIME_LAT.ING (R266). -/
def State.ingress (s : State) (l : Nat) (rx : Int) : Int := rx + s.getS (Reg.TIME_LAT_ING l)
/-- A transmit stamp with TIME_LAT.EGR (R266). -/
def State.egress (s : State) (l : Nat) (tx : Int) : Int := tx + s.getS (Reg.TIME_LAT_EGR l)

/-- The configuration TLV of R60, most significant octet first and filled with 0: tlvType ORGANIZATION_EXTENSION_DO_NOT_PROPAGATE (0x8000 in
IEEE 1588-2019, PRESUMED, log 15), the length of what follows, organizationId 0x6E_4F2B (R263), organizationSubType 1; digest, epoch, group,
SYS_MODE.CUR, a reserved octet. -/
def State.tlvWords (s : State) : List W64 :=
  let v : BitVec 256 := 0x8000#16 ++ 22#16 ++ 0x6E4F2B#24 ++ 1#24 ++ s.reg Reg.CFG_DIGEST ++ BitVec.ofNat 32 (s.getF Reg.CFG_EPOCH_EPOCH)
    ++ BitVec.ofNat 16 (s.getF Reg.CFG_EPOCH_GROUP) ++ BitVec.ofNat 8 s.cur ++ 0#56
  [v.extractLsb' 192 64, v.extractLsb' 128 64, v.extractLsb' 64 64, v.extractLsb' 0 64]

/-- EtherType, Ethernet destination, UDP port and IP destination of a PTP message by TRANSPORT: event messages (types 0 to 3) to port 319,
the others to port 320 (R261); the Ethernet addresses of the IP groups are those of RFC 1112 and RFC 2464 (PRESUMED, log 15). -/
def ptpRoute (tr kind : Nat) : Nat × Nat × Option (Nat × Nat) :=
  let peer := kind == 2 || kind == 3 || kind == 10
  let port := if kind < 4 then 319 else 320
  match tr with
  | 0 => (0x88F7, (if peer then 0x0180C200000E else 0x011B19000000), none)
  | 1 => (0x0800, (if peer then 0x01005E00006B else 0x01005E000181), some (port, if peer then 0xE000006B else 0xE0000181))
  | _ => (0x86DD, (if peer then 0x33330000006B else 0x333300000181),
      some (port, if peer then 0xFF02 * 2 ^ 112 + 0x6B else 0xFF0E * 2 ^ 112 + 0x181))

/-- A PTP message of the hub at a lane's egress: its type, sequence number, its time and correction in 2^-16 ns and the identity it
answers, or the words of an Announce. The octets that IEEE 1588 lays these out in are not modelled (log 15). -/
def State.sendPtp (s : State) (t l kind seq : Nat) (time corr : Int) (req : W64) (body : List W64 := []) : State :=
  if !s.laneUp l then s
  else
    let tr := s.getF (Reg.TB_CFG_TRANSPORT t)
    let (etype, dst, udp) := ptpRoute tr kind
    let tag : PtpTag :=
      { kind := BitVec.ofNat 4 kind, domain := BitVec.ofNat 8 (s.getF (Reg.TB_CFG_DOMAIN t)), seq := BitVec.ofNat 16 seq
        srcId := s.clockId t, srcPort := BitVec.ofNat 16 (l + 1), twoStep := !s.flag (Reg.TB_CFG_ONESTEP t), csum := 0
        tr := BitVec.ofNat 2 tr }
    s.pushFrame l
      { origin := 4, prio := 7, dst := dst, src := s.getF Reg.SW_MAC_MAC, etype := etype, vid := s.getF (Reg.SW_PORT_PVID l)
        tagged := false, encap := tr, words := (if body.isEmpty then [BitVec.ofInt 64 time, BitVec.ofInt 64 corr, req] else body)
        octets := 68 + (if tr = 1 then 28 else if tr = 2 then 48 else 0), ptp := some tag, rx := 0, corr := corr, udp := udp }

/-- The time base whose PTP instance a message on a lane belongs to (R260). -/
def State.instanceOf (s : State) (l : Nat) (g : PtpTag) : Option Nat := [0, 1, 2, 3].find? (fun t => s.ptpMine t l g.domain g.tr)

/-- The time, on the time base of its instance, at which a message of the hub left lane l (R265, R266). -/
def State.sentAt (s : State) (l : Nat) (g : PtpTag) (tx : Int) : Int :=
  match s.instanceOf l g with
  | some t => s.localAt t (s.egress l tx)
  | none => s.egress l tx

/-- A PTP event message of the hub has left lane l with a transmit stamp: a request keeps it, a two-step Sync and a Pdelay_Resp
send its time in their Follow_Up (R253, R262, R265, R266). -/
def State.ptpSent (s : State) (l : Nat) (g : PtpTag) (f : TxFrame) (tx : Int) : State :=
  match s.instanceOf l g with
  | none => s
  | some t =>
    let at_ := s.sentAt l g tx
    let corr := (f.words.getD 1 0).toInt
    if g.kind = 1 ∨ g.kind = 2 then s.setPtp t l { s.ptp t l with reqTx := some (s.egress l tx) }
    else if g.kind = 0 ∧ g.twoStep = true then s.sendPtp t l 8 g.seq.toNat at_ corr 0
    else if g.kind = 3 then s.sendPtp t l 10 g.seq.toNat at_ corr (f.words.getD 2 0)
    else s

/-! ### The best master (R259, R260) -/

/-- Lexicographic order of lists: the first is less. -/
def rankLt : List Nat → List Nat → Bool
  | a :: r, b :: q => decide (a < b) || (a == b && rankLt r q)
  | _, _ => false

/-- The comparison of two data sets: under one grandmaster the shorter way, then the sender's identity; else priority1, class with accuracy
and variance, priority2, and the grandmaster's identity. The first is better, or better by topology (log 15). -/
def annBetter (a b : AnnounceMsg) : Bool :=
  if a.gmId = b.gmId then
    rankLt [a.steps.toNat, a.srcId.toNat, a.srcPort.toNat] [b.steps.toNat, b.srcId.toNat, b.srcPort.toNat]
  else
    rankLt [a.priority1.toNat, a.clsAccVar.toNat, a.priority2.toNat, a.gmId.toNat]
      [b.priority1.toNat, b.clsAccVar.toNat, b.priority2.toNat, b.gmId.toNat]

/-- The first data set, which is the better one, is better by topology alone, as the receiver with the given identity sees it (log 15). -/
def annTopology (me : W64) (a b : AnnounceMsg) : Bool :=
  a.gmId == b.gmId && (a.steps == b.steps || (a.steps.toNat + 1 == b.steps.toNat && decide (b.srcId.toNat < me.toNat)))

/-- The hub's own data set, which no port received; its variance is the standard's "not known", 0xFFFF (R263, log 15). -/
def State.ownAnn (s : State) (t : Nat) : AnnounceMsg :=
  { domain := BitVec.ofNat 8 (s.getF (Reg.TB_CFG_DOMAIN t)), srcId := s.clockId t, srcPort := 0, gmId := s.clockId t
    priority1 := BitVec.ofNat 8 (s.getF (Reg.TB_DS_PRIORITY1 t))
    clsAccVar := BitVec.ofNat 32 (s.getF (Reg.TB_STAT_CLASS t) * 2 ^ 24 + s.getF (Reg.TB_DS_ACC t) * 2 ^ 16 + 0xFFFF)
    priority2 := BitVec.ofNat 8 (s.getF (Reg.TB_DS_PRIORITY2 t)), steps := 0
    utcOff := BitVec.ofNat 16 (s.getF (Reg.TB_DS_UTCOFF t)), own := true, tr := BitVec.ofNat 2 (s.getF (Reg.TB_CFG_TRANSPORT t)) }

/-- The announce interval in root ticks: 2^LOGANN s. -/
def State.annTicks (s : State) (t : Nat) : Nat :=
  let k := s.getS (Reg.TB_CFG_LOGANN t)
  if k < 0 then 3200000000 / 2 ^ k.natAbs else 3200000000 * 2 ^ k.natAbs

/-- The better of two offers. -/
def betterOf (a b : Option AnnounceMsg) : Option AnnounceMsg :=
  match a, b with
  | none, _ => b
  | _, none => a
  | some x, some y => if annBetter y x then some y else some x

/-- The best qualified foreign master of a port: two Announce messages within four intervals. -/
def State.bestOf (s : State) (t l : Nat) : Option AnnounceMsg :=
  (s.ptp t l).foreign.foldl (fun r f =>
    if 2 ≤ f.count ∧ s.clk.uptime ≤ f.seen + 4 * s.annTicks t then betterOf r (some f.ann) else r) none

/-- The parent of a time base changes: logged with the old and new identity and the slot; the servo keeps YI; a slew under the
servo is given up; the offsets of the new parent are judged afresh, from counts and messages of its own and, end to end, a path delay of its
own (R254, R256, R259, R273). -/
def State.setParent (s : State) (t : Nat) (id gm : W64) (port : Option Nat) : State :=
  let old := s.reg (Reg.TB_PARENT t)
  let s1 := ((s.setReg (Reg.TB_PARENT t) id).setReg (Reg.TB_GMID t) gm).setTb t { s.tb t with parentAt := port }
  if old = id then s1
  else
    let p2p := s1.flag (Reg.TB_CFG_P2P t)
    let anew (p : PtpPort) : PtpPort :=
      { p with wait := none, sync := none, reqTx := none, presp := none, delay := (if p2p then p.delay else none) }
    let x := s1.tb t
    let y := { x with
      inRow := 0, outRow := 0, okRow := 0
      ports := [0, 1, 2, 3].foldl (fun m l => m.set (fun _ => {}) l (anew (m.get (fun _ => {}) l))) x.ports }
    ((s1.setTb t y).abandonSlew t).log .TIME_MASTER_CHANGE t [old, id, BitVec.ofNat 64 s.now]

/-- The state that the default best master choice gives a port with its own best offer, where `best` is the best offer of all with its port: the
port of the best offer follows it (SLAVE); a clock of class 1 to 127 never follows, and its ports are PASSIVE where a better clock is
heard; a port is PASSIVE where the best offer beats its own by topology alone, else MASTER (R260, log 15). -/
def portChoice (own : AnnounceMsg) (best : Option (Nat × AnnounceMsg)) (l : Nat) (mine : Option AnnounceMsg) : Nat :=
  let beats (o : Option AnnounceMsg) : Bool := (o.map (fun a => annBetter own a)).getD true
  let cls := own.clsAccVar.toNat / 2 ^ 24
  if 1 ≤ cls ∧ cls ≤ 127 then (if beats mine then 6 else 7)
  else match best with
    | none => 6
    | some (p, b) =>
      if annBetter own b then 6
      else if p = l then 9
      else match mine with
        | some a => if annTopology own.srcId b a then 7 else 6
        | none => 6

/-- The port states after a best master choice. FAULTY ports, and those whose lane is not UP, take no part; a port that listens goes on
listening without an offer, and where there is no offer at all a port that follows its parent stays until its receipt timeout. The parent
is the best offer's sender, or the own clock where a port is MASTER and none follows (R259, R260). -/
def State.bmca (s : State) (t : Nat) : State :=
  let slaveOnly := s.flag (Reg.TB_DS_SLAVE_ONLY t)
  let ports := (List.range 4).filter (fun l => s.isPort t l && s.pstate t l != 2 && s.laneUp l)
  let offers := ports.map (fun l => (l, s.bestOf t l))
  let best : Option (Nat × AnnounceMsg) := offers.foldl (fun r o =>
    match o.2, r with
    | none, _ => r
    | some a, none => some (o.1, a)
    | some a, some (p, b) => if annBetter a b then some (o.1, a) else some (p, b)) none
  let next (o : Nat × Option AnnounceMsg) : Nat :=
    let was := s.pstate t o.1
    if o.2.isNone && (was == 1 || was == 4) then 4
    else if best.isNone && (was == 8 || was == 9) then was
    else if slaveOnly then (if best.any (fun b => b.1 == o.1) then 9 else 4)
    else portChoice (s.ownAnn t) best o.1 o.2
  let states := offers.map (fun o => (o.1, next o))
  let follow := best.isSome && states.any (fun o => o.2 == 9)
  let own := !states.any (fun o => o.2 == 8 || o.2 == 9) && states.any (fun o => o.2 == 6)
  let s1 := match best with
    | some (l, b) =>
      if follow then ((s.setParent t b.srcId b.gmId (some l)).setF (Reg.TB_DS_UTCOFF t) b.utcOff.toNat)
      else if own then s.setParent t (s.clockId t) (s.clockId t) none else s
    | none => if own then s.setParent t (s.clockId t) (s.clockId t) none else s
  let s2 := s1.setF (Reg.TB_STAT_GM t) (b2n own)
  states.foldl (fun u o =>
    u.setPstate t o.1 (if o.2 = 9 ∧ (u.ptp t o.1).delay.isNone = true then 8 else o.2)) s2

/-- ANNOUNCE: a foreign master's offer is noted and the best master chosen; the hub's own messages, those of other
domains, and those of 255 steps or more are not taken (R260, log 15). -/
def execAnnounce (t : Fin 4) (l : Fin 4) (a : AnnounceMsg) (s : State) : Res :=
  if s.ptpMine t l a.domain a.tr = false ∨ s.pstate t l = 2 ∨ a.own = true ∨ a.srcId = s.clockId t ∨ 255 ≤ a.steps.toNat then .next s
  else
    let p := s.ptp t l
    let old := p.foreign.find? (fun f => f.ann.srcId == a.srcId && f.ann.srcPort == a.srcPort)
    let n := match old with
      | some f => if s.clk.uptime ≤ f.seen + 4 * s.annTicks t then f.count + 1 else 1
      | none => 1
    let rest := p.foreign.filter (fun f => !(f.ann.srcId == a.srcId && f.ann.srcPort == a.srcPort))
    let s1 := s.setPtp t l { p with foreign := ({ ann := a, count := n, seen := s.clk.uptime } :: rest).take 5, heard := s.clk.uptime }
    .next (s1.bmca t)

/-- ANNOUNCE_RECEIPT_TIMEOUT: ARTO intervals without an Announce: the offers of the port are dropped, a parent on it is lost with
the source, and the port becomes MASTER unless SLAVE_ONLY; INITIALIZING and FAULTY last (R255, R260, R262, R284). -/
def execAnnounceReceiptTimeout (t : Fin 4) (l : Fin 4) (s : State) : Res :=
  let p := s.ptp t l
  let lim := s.getF (Reg.TB_CFG_ARTO t) * s.annTicks t
  let st := s.pstate t l
  if s.isPort t l = false ∨ st = 1 ∨ st = 2 ∨ s.clk.uptime < p.heard + lim then .next s
  else
    let s1 := s.setPtp t l { p with foreign := [], wait := none }
    let s2 := if (s.tb t).parentAt = some l.val then s1.loseSource t else s1
    let s3 := if s2.flag (Reg.TB_DS_SLAVE_ONLY t) then s2.setPstate t l 4 else s2.setPstate t l 6
    .next (s3.bmca t)

/-! ### Offsets (R253, R264) -/

/-- A Sync with its origin time t1 and its receive stamp is complete: with a path delay it gives an offset, or the initial set of an unset time
base; an offset whose Sync was stamped before a command took effect is discarded and counted (R253, R264, R273). -/
def State.syncDone (s : State) (t l : Nat) (t1 rx : Int) : State :=
  let p := s.ptp t l
  let s0 := s.setPtp t l { p with wait := none, sync := some (t1, rx) }
  let s1 := s0.setTb t { s0.tb t with lastOff := s.clk.uptime }
  match p.delay with
  | none => s1
  | some d =>
    let theta := t1 + d - s1.localAt t rx
    if rx < ((s1.tb t).cmdAt * 320 : Nat) then s1.bump (Reg.TB_CNT_REFUSED t)
    else if s1.tbState t = 0 then
      let time := (((s1.tb t).time : Int) + theta * 2 ^ 32).toNat
      s1.initialSet t time 2 false
    else s1.offset t theta (s1.syncTicks t)

/-- A message comes from the parent on a port that follows it. -/
def State.fromParent (s : State) (t l : Nat) (m : PtpMsg) : Bool :=
  s.ptpMine t l m.domain m.tr && (s.pstate t l == 8 || s.pstate t l == 9) && s.reg (Reg.TB_PARENT t) == m.srcId

/-- SYNC: a Sync of the parent is stamped; a one-step one is complete, a two-step one waits for its Follow_Up (R253, R262). -/
def execSync (t : Fin 4) (l : Fin 4) (m : PtpMsg) (s : State) : Res :=
  if !s.fromParent t l m then .next s
  else
    let rx := s.ingress l m.rx
    if m.twoStep then .next (s.setPtp t l { s.ptp t l with wait := some { m with rx := rx } })
    else .next (s.syncDone t l (m.ts + m.corr) rx)

/-- FOLLOW_UP: it completes the Sync of its sequence number (R253). -/
def execFollowUp (t : Fin 4) (l : Fin 4) (m : PtpMsg) (s : State) : Res :=
  match (s.ptp t l).wait with
  | none => .next s
  | some y =>
    if s.fromParent t l m = true ∧ y.seq = m.seq then .next (s.syncDone t l (m.ts + m.corr + y.corr) y.rx) else .next s

/-! ### Path delay (R260, R264) -/

/-- A path delay measured on a port, in 2^-16 ns; a port that follows its parent becomes SLAVE. -/
def State.gotDelay (s : State) (t l : Nat) (d : Int) : State :=
  let s1 := s.setPtp t l { s.ptp t l with delay := some d, reqTx := none, presp := none }
  if s1.pstate t l = 8 then s1.setPstate t l 9 else s1

/-- DELAY_REQ_INTERVAL: a port that follows a parent sends Delay_Req, every port of a peer-to-peer instance Pdelay_Req; its transmit
stamp is kept as it leaves (R260, R262, R266). -/
def execDelayReqInterval (t : Fin 4) (l : Fin 4) (s : State) : Res :=
  let p2p := s.flag (Reg.TB_CFG_P2P t)
  let p := s.ptp t l
  if s.isPort t l = false ∨ s.laneUp l = false then .next s
  else if p2p = true ∨ s.pstate t l = 8 ∨ s.pstate t l = 9 then
    let seq := (p.reqSeq + 1) % 65536
    let s1 := s.setPtp t l { p with reqSeq := seq, reqTx := none, presp := none }
    .next (s1.sendPtp t l (if p2p then 2 else 1) seq 0 0 0)
  else .next s

/-- DELAY_REQ: a MASTER port answers with Delay_Resp and the time of receipt (R262). -/
def execDelayReq (t : Fin 4) (l : Fin 4) (m : PtpMsg) (s : State) : Res :=
  if s.ptpMine t l m.domain m.tr = true ∧ s.flag (Reg.TB_CFG_P2P t) = false ∧ s.pstate t l = 6 then
    .next (s.sendPtp t l 9 m.seq.toNat (s.localAt t (s.ingress l m.rx)) m.corr m.srcId)
  else .next s

/-- DELAY_RESP: the path delay is half of (t2 − t1) + (t4 − t3), the hub's stamps t2 and t3 on one timescale (R260, R265). -/
def execDelayResp (t : Fin 4) (l : Fin 4) (m : PtpMsg) (s : State) : Res :=
  let p := s.ptp t l
  match p.sync, p.reqTx with
  | some (t1, rx), some tx =>
    let (t2, t3) := (s.localAt t rx, s.localAt t tx)
    if s.fromParent t l m = true ∧ m.reqId = s.clockId t ∧ m.seq.toNat = p.reqSeq then
      .next (s.gotDelay t l (Int.fdiv ((t2 - t1) + (m.ts - m.corr - t3)) 2))
    else .next s
  | _, _ => .next s

/-- PDELAY_REQ: a peer-to-peer port answers with Pdelay_Resp, whose Follow_Up goes out once it has left (R260, R262, R265). -/
def execPdelayReq (t : Fin 4) (l : Fin 4) (m : PtpMsg) (s : State) : Res :=
  if s.ptpMine t l m.domain m.tr = true ∧ s.flag (Reg.TB_CFG_P2P t) = true then
    .next (s.sendPtp t l 3 m.seq.toNat (s.localAt t (s.ingress l m.rx)) m.corr m.srcId)
  else .next s

/-- A peer's answer is for the request in flight. -/
def State.peerMine (s : State) (t l : Nat) (m : PtpMsg) : Bool :=
  s.ptpMine t l m.domain m.tr && s.flag (Reg.TB_CFG_P2P t) && m.reqId == s.clockId t && m.seq.toNat == (s.ptp t l).reqSeq

/-- PDELAY_RESP: a one-step answer gives the path delay, half of t4 − t1 less the turnaround in its correction; a two-step one waits
for its Follow_Up (R260). -/
def execPdelayResp (t : Fin 4) (l : Fin 4) (m : PtpMsg) (s : State) : Res :=
  let p := s.ptp t l
  match p.reqTx with
  | some t1 =>
    if !s.peerMine t l m then .next s
    else if m.twoStep then .next (s.setPtp t l { p with presp := some { m with rx := s.ingress l m.rx } })
    else .next (s.gotDelay t l (Int.fdiv (s.localAt t (s.ingress l m.rx) - s.localAt t t1 - m.corr) 2))
  | none => .next s

/-- PDELAY_RESP_FOLLOW_UP: the path delay is half of (t4 − t1) − (t3 − t2) less the corrections (R260). -/
def execPdelayRespFollowUp (t : Fin 4) (l : Fin 4) (m : PtpMsg) (s : State) : Res :=
  let p := s.ptp t l
  match p.reqTx, p.presp with
  | some t1, some r =>
    if s.peerMine t l m = true ∧ r.seq = m.seq then .next (s.gotDelay t l (Int.fdiv ((s.localAt t r.rx - s.localAt t t1) - (m.ts - r.ts) - r.corr - m.corr) 2))
    else .next s
  | _, _ => .next s

/-- PTP_DROP: a Signaling or Management message, or one of another version, is discarded and counted (R262). -/
def execPtpDrop (t : Fin 4) (s : State) : Res := .next (s.bump (Reg.TB_CNT_PTP_DROP t))

/-! ### Intervals (R260, R262) -/

/-- SYNC_INTERVAL: a MASTER port sends Sync; its stamp, and a two-step Sync's Follow_Up, come as it leaves (R262, R265). -/
def execSyncInterval (t : Fin 4) (l : Fin 4) (s : State) : Res :=
  if s.isPort t l = true ∧ s.pstate t l = 6 ∧ s.laneUp l = true then
    let p := s.ptp t l
    let seq := (p.syncSeq + 1) % 65536
    let s1 := s.setPtp t l { p with syncSeq := seq }
    .next (s1.sendPtp t l 0 seq 0 0 0)
  else .next s

/-- What an Announce of the hub carries: currentUtcOffset, priority1, the clock's class, accuracy and variance, priority2, the grandmaster's
identity and the steps removed, of the own clock or of the parent's offer with one step more, and the configuration TLV (R60, R263). -/
def State.annWords (s : State) (t : Nat) : List W64 :=
  let own := s.ownAnn t
  let a : AnnounceMsg := match (s.tb t).parentAt with
    | some l =>
      match (s.ptp t l).foreign.find? (fun f => f.ann.srcId == s.reg (Reg.TB_PARENT t)) with
      | some f => { f.ann with steps := f.ann.steps + 1 }
      | none => own
    | none => own
  [(BitVec.ofNat 16 (s.getF (Reg.TB_DS_UTCOFF t)) ++ a.priority1 ++ a.clsAccVar ++ a.priority2 : BitVec 64), a.gmId,
    (a.steps ++ 0#48 : BitVec 64)] ++ s.tlvWords

/-- ANNOUNCE_INTERVAL: a MASTER port sends Announce with its data set (R260, R263). The configuration TLV of R60
goes with it. -/
def execAnnounceInterval (t : Fin 4) (l : Fin 4) (s : State) : Res :=
  if s.isPort t l = true ∧ s.pstate t l = 6 ∧ s.laneUp l = true then
    let p := s.ptp t l
    let seq := (p.annSeq + 1) % 65536
    let s1 := s.setPtp t l { p with annSeq := seq }
    .next (s1.sendPtp t l 11 seq 0 0 0 (s.annWords t))
  else .next s

end Sys2Proof.Machine
end

