-- ==== Sys2Proof/Machine/PairOps.lean ====
section
/-!
DEFINITION. Sys2Proof/Machine/PairOps.lean: what paired operation shares with the lanes and the modes: roles, pair frames, the
mirror, readiness (R379 to R388).
-/
namespace Sys2Proof.Machine
open Sys2Proof

/-! ### Roles and frames -/

/-- PAIR_STAT.ROLE: 0 none, 1 acting Leader, 2 acting Second. -/
def State.pairRoleNow (s : State) : Nat := s.getF Reg.PAIR_STAT_ROLE
/-- PAIR_CFG.EN. -/
def State.pairOn (s : State) : Bool := s.flag Reg.PAIR_CFG_EN
/-- PAIR_STAT.READY. -/
def State.pairReady (s : State) : Bool := s.flag Reg.PAIR_STAT_READY

/-- The lane pair frames leave on: the active one of the lowest pair-role lane that is UP (R388). -/
def State.pairLane (s : State) : Option Nat := (List.range 4).find? (fun l => s.pairRole l && s.laneUp (s.carrier l))

/-- The low 32 bits of the hub identity (R388). -/
def State.id32 (s : State) : Nat := (s.reg Reg.SYS_UID).toNat % 2 ^ 32

/-- The low 32 bits of the digest and the epoch that the pair compares: those in force, in Traverse from h on the ones its activation
brings (R387, R433; DEDUCED, log entry 17). -/
def State.pairConfig (s : State) : Nat × Nat :=
  if s.cur = 6 ∧ s.upd.act.isSome = true then s.upd.next else ((s.reg Reg.CFG_DIGEST).toNat % 2 ^ 32, s.getF Reg.CFG_EPOCH_EPOCH)

/-- The four header words of a pair frame of a subtype with its handover slot (R388). -/
def State.pairHead (s : State) (sub h : Nat) : List W64 :=
  [BitVec.ofNat 64 (1 <<< 60 + 8 <<< 56 + sub <<< 52 + s.pairRoleNow <<< 50 + b2n s.pairReady <<< 49 + b2n s.pair.fault <<< 48 + s.id32),
   BitVec.ofNat 64 s.now,
   BitVec.ofNat 64 (s.pairConfig.1 <<< 32 + s.pairConfig.2),
   BitVec.ofNat 64 h]

/-- A pair frame queued at the pair link. The manual gives pair frames no destination address: it is a free value
(log 16). -/
def State.sendPair (s : State) (sub h : Nat) (rest : List W64) : State :=
  match s.pairLane with
  | none => s
  | some l =>
    let (f, s1) := s.free
    s1.sendNeil l 6 (f.toNat % 2 ^ 48) (s.pairHead sub h ++ rest)

/-- A pair frame as received on a lane is valid: pair role and UP, version, type and subtype, the identity of LANE_PCAP, the
receiver's real slot or the one before it (R388). -/
def State.pairValid (s : State) (l sub : Nat) (ws : List W64) : Bool :=
  let w0 := ws.getD 0 0
  let t := (ws.getD 1 0).toNat
  s.pairOn && s.pairRole l && s.laneUp l && bits w0 63 60 == 1 && bits w0 59 56 == 8 && bits w0 55 52 == sub
    && bits w0 31 0 == bits (s.reg (Reg.LANE_PCAP l)) 31 0 && (t == s.now || t + 1 == s.now)

/-- The header of a pair frame. -/
def pairHdr (ws : List W64) : PairHdr :=
  let w0 := ws.getD 0 0
  let w2 := ws.getD 2 0
  { slot := (ws.getD 1 0).toNat, role := bits w0 51 50, ready := bit w0 49, fault := bit w0 48
    digest := bits w2 63 32, epoch := bits w2 31 0 }

/-! ### The mirror (R383). The manual gives change records no layout: a record is two words, the key 2^32 · kind + index
and the value (DESIGN CHOICE, log 16). -/

/-- A key of the mirror. Kinds: 1 stream table words, 2 register words by address, 3 descriptor words, 4 the slot in which a
channel's hold-off ends, 5 words of an event record, 6 the begin (0) and the end (1) of a whole image, 7 G_ref of a
channel in 2^-40 S. -/
def mirrorKey (kind ix : Nat) : Nat := kind * 2 ^ 32 + ix

/-- A word of the mirror. -/
def State.mir (s : State) (kind ix : Nat) : W64 := s.pair.mirror.get (fun _ => 0) (mirrorKey kind ix)

/-- A field of a mirrored register. -/
def State.mirF (s : State) (f : Fld) : Nat := bits (s.mir 2 f.addr) f.hi f.lo

/-- The registers the Leader mirrors: modes, digest, epoch and overlay, LED_HORIZON, the trigger units, the banks' carrier and
excitation, the channels' excitation and status, the sampling time base (R383). -/
def State.mirrorRegs (s : State) : List Nat :=
  let t := s.sampTb
  [Reg.SYS_MODE, Reg.CFG_DIGEST, Reg.CFG_EPOCH, Reg.CFG_STATUS, Reg.LED_HORIZON, Reg.TB_STAT t, Reg.TB_PARENT t, Reg.TB_OFFSET t] ++
  (List.range 8).flatMap (fun u => [Reg.TRG_CFG u, Reg.TRG_T1 u, Reg.TRG_T2 u, Reg.TRG_DTH u, Reg.TRG_DHYS u, Reg.TRG_STAT u]) ++
  (List.range 24).flatMap (fun b => [Reg.BANK_PHASE b, Reg.BANK_CFG b]) ++
  (List.range 384).flatMap (fun c => [Reg.CH_EXCFG c, Reg.CH_STATUS c])

/-- What the Leader mirrors as it stands: keys and words (R383). -/
def State.mirrorImage (s : State) : List (Nat × W64) :=
  (s.strm.map (fun c => (mirrorKey 1 c.1, c.2))) ++
  (s.strms.map (fun c => (mirrorKey 1 (4 * c.1 + 3), BitVec.ofNat 64 c.2.nextSeq))) ++
  (s.mirrorRegs.map (fun a => (mirrorKey 2 a, s.reg a))) ++
  ((s.cap.descs.filter (fun c => decide (c.1 % 16 < 3))).map (fun c => (mirrorKey 3 c.1, c.2))) ++
  (s.chans.flatMap (fun c => (match c.2.retryAt with
    | some t => [(mirrorKey 4 c.1, BitVec.ofNat 64 t)]
    | none => []) ++ (match c.2.gRef with
    | some g => [(mirrorKey 7 c.1, BitVec.ofNat 64 (roundEven (g.g * 2 ^ 40) g.det.toNat).toNat)]
    | none => [])))

/-- The records that bring the partner from what it was sent to the present image: changed words, and 0 for words gone. -/
def mirrorDiff (old : Sparse W64) (img : List (Nat × W64)) : List (Nat × W64) :=
  img.filter (fun k => old.get (fun _ => 0) k.1 != k.2) ++
  (old.filter (fun k => !img.any (fun i => i.1 == k.1))).map (fun k => (k.1, 0))

/-- Records cut into frames of at most 60. -/
def chunks {α : Type} (n : Nat) : Nat → List α → List (List α)
  | 0, _ => []
  | _, [] => []
  | f + 1, l => l.take n :: chunks n f (l.drop n)

/-- Records sent in MIRROR frames. -/
def State.sendMirror (s : State) (rs : List (Nat × W64)) : State :=
  (chunks 60 rs.length rs).foldl (fun t c => t.sendPair 2 0 (c.flatMap (fun k => [BitVec.ofNat 64 k.1, k.2]))) s

/-- The event records that wait for the partner, as change records (R383, R444). -/
def eventRecs (l : List EventRec) : List (Nat × W64) :=
  l.flatMap (fun r => (List.range 4).map (fun w => (mirrorKey 5 w, r.word w)))

/-- What the hub sends its partner in a slot beside STATE: event records, and, as acting Leader to an acting Second, the changes of
its image, whole with begin and end at first (R383, R444). -/
def State.mirrorOut (s : State) : State :=
  let ev := eventRecs s.evt.unmirrored
  let s1 : State := { s with evt := { s.evt with unmirrored := [] } }
  let lead := s.pairRoleNow == 1 && (match s.pair.partner with
    | some p => p.role == 2
    | none => false)
  if lead then
    let img := s.mirrorImage
    let old := if s.pair.whole then s.pair.image else []
    let d := mirrorDiff old img
    let recs := if s.pair.whole then d else (mirrorKey 6 0, 0) :: d ++ [(mirrorKey 6 1, 0)]
    let new := d.foldl (fun m k => m.set (fun _ => 0) k.1 k.2) old
    { s1.sendMirror (ev ++ recs) with pair := { s1.pair with image := new, whole := true } }
  else { s1.sendMirror ev with pair := { s1.pair with whole := false, image := [] } }

/-! ### Readiness (R387) -/

/-- The partner's sampling time base counts as locked: an acting Second judges the mirrored state, an acting Leader takes READY of
the Second's frames (DEDUCED, log 17). -/
def State.partnerLocked (s : State) (p : PairHdr) : Bool :=
  if s.pairRoleNow = 2 then
    let st := s.mirF (Reg.TB_STAT_STATE s.sampTb)
    st == 3 || (st == 1 && s.flag (Reg.TB_CFG_FREE_LOCKED s.sampTb))
  else p.ready || p.role != 2

/-- The mirror is rebuilt since entry into Belay: known to the Second, told to the Leader by READY. -/
def State.mirrorDone (s : State) (p : PairHdr) : Bool :=
  if s.pairRoleNow = 2 then s.pair.rebuilt else p.role == 2 && p.ready

/-- The code of the first condition of R387 that does not hold, 0 when the pair is ready; to an acting Leader a silent Second has failed
(R401). -/
def State.notReady (s : State) : Nat :=
  match s.pair.partner with
  | none => 1
  | some p =>
    let equal := match s.pair.equalFrom with
      | some f => decide (f + 256 ≤ s.now)
      | none => false
    let tests : List (Bool × Nat) :=
      [(s.pairOn, 1), (s.pairLane.isSome, 2), ((p.digest, p.epoch) == s.pairConfig, 3),
       (s.sampLocked && s.partnerLocked p && equal, 4), (s.mirrorDone p, 5), (!s.pair.proofFail, 6),
       (!p.fault && p.role != 0 && (s.pairRoleNow != 1 || s.flag Reg.PAIR_STAT_PARTNER), 7), (!s.flag Reg.PAIR_STAT_CONTEND, 8)]
    ((tests.find? (fun t => !t.1)).map (fun t => t.2)).getD 0

/-- READY and NRCAUSE follow the conditions; a change of READY is logged with the cause, a digest or epoch found unequal as
PAIR_CFG_MISMATCH (R387). -/
def State.refreshReady (s : State) : State :=
  let c := s.notReady
  let old := s.getF Reg.PAIR_STAT_NRCAUSE
  let s1 := (s.setF Reg.PAIR_STAT_NRCAUSE c).setF Reg.PAIR_STAT_READY (b2n (c == 0))
  let s2 := if c = 3 ∧ old ≠ 3 then s1.log .PAIR_CFG_MISMATCH 0 [] else s1
  if s.pairReady = (c == 0) then s2
  else if c = 0 then
    { s2.log .PAIR_READY 0 [0] with pair := { s2.pair with
        readyFrom := some s.now, countFrom := some (s2.pair.countFrom.getD s.upSlots) } }
  else { s2.log .PAIR_NOT_READY 0 [BitVec.ofNat 64 c] with pair := { s2.pair with readyFrom := none } }

end Sys2Proof.Machine
end

