-- ==== Sys2Proof/Machine/Lanes.lean ====
section
/-!
DEFINITION. Sys2Proof/Machine/Lanes.lean: the serial lanes: bring-up, loss, barred rates, redundancy, test (R274 to R291, R303).
-/
namespace Sys2Proof.Machine
open Sys2Proof

/-- A lane. -/
def State.lane (s : State) (l : Nat) : LaneSt := s.lanes.get (fun _ => {}) l
/-- A lane replaced. -/
def State.setLane (s : State) (l : Nat) (x : LaneSt) : State := { s with lanes := s.lanes.set (fun _ => {}) l x }
/-- LANE_STAT.STATE: 0 DISABLED, 1 EXCHANGE, 2 CL37, 3 TRAIN, 4 UP, 5 TEST, 6 MISMATCH. -/
def State.laneState (s : State) (l : Nat) : Nat := s.getF (Reg.LANE_STAT_STATE l)
/-- LANE_CFG.ROLE. -/
def State.laneRole (s : State) (l : Nat) : Nat := s.getF (Reg.LANE_CFG_ROLE l)
/-- The lanes have begun bring-up since start-up (R43). -/
def State.lanesRun (s : State) : Bool :=
  match s.mode.phase with
  | .held | .straps | .locked | .loaded => s.cur == 0
  | .lanes | .configured | .trained | .running => true

/-- The other lanes of a lane's redundancy group. -/
def State.peersOf (s : State) (l : Nat) : List Nat :=
  if s.laneGroup l = 0 then [] else (List.range 4).filter (fun k => k != l && s.laneGroup k == s.laneGroup l)

/-- Frames that wait at a member of a group move to the member that is now active; the hub's own PTP messages and beacons stay with
their lane (R285, R286). -/
def State.moveEgress (s : State) (a b : Nat) : State :=
  if a = b then s
  else
    let fs := s.egressOf a
    (s.setEgress a (fs.filter TxFrame.own)).setEgress b (s.egressOf b ++ fs.filter (fun f => !f.own))

/-! ### Bring-up (R276 to R281) -/

/-- The exchange anew: what it heard is forgotten; losses and bars stand, and until the lane is UP the rates that failed (R280). -/
def LaneSt.fresh (x : LaneSt) : LaneSt := { losses := x.losses, bars := x.bars, lostAt := x.lostAt, failed := x.failed }

/-- The lane begins its bring-up: EXCHANGE, or training at the fixed rate, or DISABLED with EN = 0 (R277, R281). -/
def State.bringUp (s : State) (l : Nat) : State :=
  let x := (s.lane l).fresh
  let fix := s.getF (Reg.LANE_CFG_FIXRATE l)
  if s.getF (Reg.LANE_CFG_EN l) = 0 then (s.setLane l x).setF (Reg.LANE_STAT_STATE l) 0
  else if fix = 0 then (s.setLane l x).setF (Reg.LANE_STAT_STATE l) 1
  else (s.setLane l { x with target := fix, fec := decide (1 ≤ s.getF (Reg.LANE_CFG_FEC l)), since := s.clk.uptime }).setF
    (Reg.LANE_STAT_STATE l) 3

/-- The PTP ports on a lane take a portState; a port that begins anew forgets its messages and its path delay (R284). -/
def State.lanePorts (s : State) (l v : Nat) : State :=
  [0, 1, 2, 3].foldl (fun t k =>
    if t.isPort k l then
      let p := t.ptp k l
      (t.setPtp k l { syncSeq := p.syncSeq, annSeq := p.annSeq, reqSeq := p.reqSeq }).setPstate k l v
    else t) s

/-- The lane comes UP at a rate: logged with the rate; outside a group, or with no active member in its group, it is active, which is a
failover where another member had been; its PTP ports begin anew (R280, R282, R284 to R286). -/
def State.laneGoesUp (s : State) (l rate : Nat) (fec neil : Bool) : State :=
  let act := !(s.peersOf l).any (fun k => s.flag (Reg.LANE_STAT_ACTIVE k))
  let s1 := ((((s.setF (Reg.LANE_STAT_STATE l) 4).setF (Reg.LANE_STAT_RATE l) rate).setF (Reg.LANE_STAT_FEC_ON l) (b2n fec)).setF
    (Reg.LANE_STAT_PARTNER_NEIL l) (b2n neil)).setF (Reg.LANE_STAT_ACTIVE l) (b2n act)
  let s2 := s1.setLane l { s1.lane l with failed := [], lostAt := (if act then none else (s1.lane l).lostAt) }
  let lost := (s.peersOf l).find? (fun k => (s.lane k).lostAt.isSome)
  let s3 := if act then (s2.peersOf l).foldl (fun t k => (t.setLane k { t.lane k with lostAt := none }).moveEgress k l) s2 else s2
  let s4 := (s3.logLane l .LANE_UP l [BitVec.ofNat 64 rate]).lanePorts l 1
  let s5 := match (if act then lost else none) with
    | some a => s4.logLane l .LANE_FAILOVER a [BitVec.ofNat 64 a, BitVec.ofNat 64 l, BitVec.ofNat 64 s.now]
    | none => s4
  s5.refreshReady

/-- The rates a lane offers, bit r − 1 for rate r: those enabled, without the barred ones and those that failed twice in one bring-up; in
Bivouac rate 1 alone (R276, R280, R428). -/
def State.ratesOffered (s : State) (l : Nat) : Nat :=
  maskOf (fun i => decide (i < 3) && (s.cur != 0 || i == 0) && (s.getF (Reg.LANE_CFG_RATES l)).testBit i
    && !(s.getF (Reg.LANE_STAT_BARRED l)).testBit i && decide (((s.lane l).failed.filter (fun f => f == i + 1)).length < 2))

/-- The octets O0 to O5 of the ordered set /N/ that a lane in EXCHANGE sends: version 1, ACK, the rates offered; ROLE, FEC, the lane's
number; the low 32 bits of the hub's identity (R276, R277). -/
def State.octetsSent (s : State) (l : Nat) : BitVec 48 :=
  1#4 ++ BitVec.ofBool (s.lane l).ack ++ BitVec.ofNat 3 (s.ratesOffered l) ++ BitVec.ofNat 2 (s.laneRole l)
    ++ BitVec.ofNat 2 (s.getF (Reg.LANE_CFG_FEC l)) ++ BitVec.ofNat 2 l ++ 0#2 ++ BitVec.ofNat 32 s.id32

/-- The rates both partners offer; rate 3 as the FEC fields allow (R279, R280). -/
def State.commonRates (s : State) (l : Nat) : List Nat :=
  let x := s.lane l
  let own := (s.octetsSent l).toNat >>> 40 % 8
  let part := x.octets >>> 40 % 8
  let pf := x.octets >>> 36 % 4
  let of := s.getF (Reg.LANE_CFG_FEC l)
  [3, 2, 1].filter (fun r => own.testBit (r - 1) && part.testBit (r - 1)
    && (r != 3 || !((of == 0 && pf == 2) || (of == 2 && pf == 0))))

/-- RS-FEC is on at rate 3 when neither partner's FEC field is 0 (R279). -/
def State.fecOn (s : State) (l : Nat) : Bool := s.getF (Reg.LANE_CFG_FEC l) != 0 && (s.lane l).octets >>> 36 % 4 != 0

/-- The lane is left in MISMATCH under a condition; where `retry` says so the exchange is repeated (R277, R278). -/
def State.mismatch (s : State) (l : Nat) (c : Cond) (retry : Bool) : State :=
  (s.setLane l { s.lane l with since := s.clk.uptime, retry := retry }).setF (Reg.LANE_STAT_STATE l) 6 |>.logLane l c l []

/-- The exchange is complete: the octets are recorded, roles and identity are checked and the target rate is chosen (R277 to R279). -/
def State.exchangeDone (s : State) (l : Nat) : State :=
  let x := s.lane l
  let s1 := s.setReg (Reg.LANE_PCAP l) (BitVec.ofNat 64 (2 ^ 63 + x.octets % 2 ^ 48)) |>.setF (Reg.LANE_STAT_PARTNER_NEIL l) 1
  if x.octets >>> 38 % 4 ≠ s.laneRole l then s1.mismatch l .LANE_ROLE_MISMATCH true
  else if x.octets % 2 ^ 32 = (s.octetsSent l).toNat % 2 ^ 32 then s1.mismatch l .LANE_SELF false
  else s1.setLane l { x with target := ((s1.commonRates l).head?).getD 1, fec := s1.fecOn l, since := s.clk.uptime }

/-- CAPABILITY_SET: a received /N/. Three identical sets in a row make the lane send ACK; the exchange is complete once it has sent
eight sets with ACK (one for each set received since, DEDUCED, log 18) and received three in a row with ACK = 1 (R277). -/
def execCapabilitySet (l : Fin 4) (octets : BitVec 48) (s : State) : Res :=
  let x := s.lane l
  if s.lanesRun = false ∨ s.laneState l ≠ 1 ∨ x.target ≠ 0 then .next s
  else
    let o := octets.toNat
    let y := { x with
      octets := o
      seen := (if o = x.octets ∧ 0 < x.seen then x.seen + 1 else 1)
      sent := (if x.ack then x.sent + 1 else 0)
      acked := (if o.testBit 43 then x.acked + 1 else 0) }
    let z := { y with ack := y.ack || decide (3 ≤ y.seen) }
    let s1 := s.setLane l z
    if z.ack = true ∧ 8 ≤ z.sent ∧ 3 ≤ z.acked then .next (s1.exchangeDone l) else .next s1

/-- A partner that sends no /N/ is met in EXCHANGE: a host port goes on, another role stays in MISMATCH (R277). -/
def State.withoutNeil (s : State) (l : Nat) (host : State) : State :=
  if s.lanesRun = false ∨ s.laneState l ≠ 1 ∨ (s.lane l).target ≠ 0 then s
  else if s.laneRole l = 0 then host
  else s.mismatch l .LANE_ROLE_MISMATCH false

/-- CL37_AUTONEGOTIATION: /C/ sets received in EXCHANGE are answered under Clause 37, STATE 2; the command in that state is the end of the
autonegotiation, and the lane is UP at rate 1 (R277; DEDUCED, log entry 18). -/
def execCl37Autonegotiation (l : Fin 4) (s : State) : Res :=
  if s.lanesRun = true ∧ s.laneState l = 2 then .next (s.laneGoesUp l 1 false false)
  else .next (s.withoutNeil l (s.setF (Reg.LANE_STAT_STATE l) 2))

/-- IDLE_TIMEOUT: 10 ms of idles without /N/ or /C/ (R277). -/
def execIdleTimeout (l : Fin 4) (s : State) : Res := .next (s.withoutNeil l (s.laneGoesUp l 1 false false))

/-- EXCHANGE_RETRY: a lane in MISMATCH for unequal roles repeats the exchange every 1 s; a looped lane, and one whose partner sends no /N/,
stay (R277, R278). -/
def execExchangeRetry (l : Fin 4) (s : State) : Res :=
  if s.laneState l = 6 ∧ (s.lane l).retry = true ∧ (s.lane l).since + 3200000000 ≤ s.clk.uptime then .next (s.bringUp l) else .next s

/-- TRAINING_START: 20 µs after E the lane trains at the target rate (R280). -/
def execTrainingStart (l : Fin 4) (s : State) : Res :=
  if s.laneState l = 1 ∧ (s.lane l).target ≠ 0 ∧ (s.lane l).since + 64000 ≤ s.clk.uptime then
    .next (s.setF (Reg.LANE_STAT_STATE l) 3)
  else .next s

/-- TRAINING_DEADLINE: a rate not trained by 12 ms gives way to the next lower common one, with a new deadline; a fixed rate and rate
1 go on training (R280, R281). -/
def execTrainingDeadline (l : Fin 4) (s : State) : Res :=
  let x := s.lane l
  if s.laneState l = 3 ∧ 1 < x.target ∧ s.getF (Reg.LANE_CFG_FIXRATE l) = 0 ∧ x.since + 38400000 ≤ s.clk.uptime then
    .next (s.setLane l { x with
      failed := x.target :: x.failed
      target := (((s.commonRates l).filter (fun r => decide (r < x.target))).head?).getD 1
      since := s.clk.uptime })
  else .next s

/-- LANE_UP: the rate in training has trained and held for 1 ms (R280). -/
def execLaneUp (l : Fin 4) (s : State) : Res :=
  let x := s.lane l
  if s.laneState l = 3 then
    .next (s.laneGoesUp l x.target (x.fec && x.target == 3) (s.getF (Reg.LANE_CFG_FIXRATE l) == 0))
  else .next s

/-! ### Loss (R282 to R288) -/

/-- A transmission that ended at an instant in slot ticks, or was to end after now, is due again: within the 64 slots before now, to the tick
(R287). -/
def State.dueAgain (s : State) (ended : Nat) : Bool := decide (s.slotTicks < ended + heldTicks)

/-- The queues of a group are to send again what ended within the 64 slots before now or is cut off, in order, then what was not sent; the
replay frames that lane l sent wait again at its port, before the others (R287). -/
def State.resendFrom (s : State) (l : Nat) (ls : List Nat) : State :=
  let s1 := (List.range 64).foldl (fun t q =>
    if ls.contains (q / 16) then
      let x := t.que q
      let due := x.sent.filter (fun p => t.dueAgain p.2)
      if due.isEmpty then t
      else t.setQue q { x with
        sent := x.sent.filter (fun p => !t.dueAgain p.2), resend := due.map (fun p => p.1) ++ x.resend }
    else t) s
  let again := (s1.sw.kept.get (fun _ => []) l).filter (fun f => s1.dueAgain f.2)
  let s2 : State := { s1 with sw := { s1.sw with kept := s1.sw.kept.erase l } }
  s2.setEgress l (again.map (fun f => { f.1 with again := true }) ++ s2.egressOf l)

/-- The third loss of a rate by hi_ber or RS-FEC errors within 600 s bars it for 3,600 s (R283). -/
def State.barRate (s : State) (l rate cause : Nat) : State :=
  if rate < 2 ∨ (cause ≠ 3 ∧ cause ≠ 5 ∧ cause ≠ 6) then s
  else
    let x := s.lane l
    let losses := ((rate, s.upSlots) :: x.losses).filter (fun e => decide (s.upSlots < e.2 + 150000000))
    let s1 := s.setLane l { x with losses := losses }
    if 3 ≤ (losses.filter (fun e => e.1 == rate)).length then
      let s2 := s1.setLane l { s1.lane l with bars := (s1.lane l).bars.set (fun _ => 0) rate (s.upSlots + 900000000) }
      let b := s2.getF (Reg.LANE_STAT_BARRED l)
      (s2.setF (Reg.LANE_STAT_BARRED l) (withBit b (rate - 1) true)).logLane l .LANE_RATE_BARRED l [BitVec.ofNat 64 rate]
    else s1

/-- A lane that is UP declares loss: its cause is recorded, counted and logged with the slot, its PTP ports become FAULTY, its group's
frames are due again, and it returns to its bring-up (R282 to R287). -/
def State.declareLoss (s : State) (l cause : Nat) : State :=
  let rate := s.getF (Reg.LANE_STAT_RATE l)
  let active := s.flag (Reg.LANE_STAT_ACTIVE l)
  let s1 := (((s.setF (Reg.LANE_STAT_LASTLOSS l) cause).bump (Reg.LANE_STAT_RETRAINS l)).setF (Reg.LANE_STAT_RATE l) 0).setF
    (Reg.LANE_STAT_FEC_ON l) 0
  let s2 := (s1.setF (Reg.LANE_STAT_ACTIVE l) 0).logLane l .LANE_DOWN l [BitVec.ofNat 64 s.now]
  let s3 := (s2.barRate l rate cause).lanePorts l 2
  let s4 := if active then s3.resendFrom l (l :: s3.peersOf l) else s3
  let s5 := s4.setLane l { s4.lane l with lostAt := (if active && !(s4.peersOf l).isEmpty then some s.now else none) }
  (s5.bringUp l).refreshReady

/-- LANE_DOWN: a loss criterion holds on a lane that is UP; hi_ber and fault sequences count at rates 2 and 3, RS-FEC
with RS-FEC on (R282). -/
def execLaneDown (l : Fin 4) (cause : LossCause) (s : State) : Res :=
  let c := cause.val
  let may := c == 1 || c == 2 || ((c == 3 || c == 4) && decide (2 ≤ s.getF (Reg.LANE_STAT_RATE l)))
    || ((c == 5 || c == 6) && s.flag (Reg.LANE_STAT_FEC_ON l))
  if s.laneUp l = true ∧ may = true then .next (s.declareLoss l c) else .next s

/-- RATE_BAR_EXPIRY: a bar ends after 3,600 s (R283). -/
def execRateBarExpiry (l : Fin 4) (rate : Fin 4) (s : State) : Res :=
  let x := s.lane l
  let t := x.bars.get (fun _ => 0) rate
  if 0 < t ∧ t ≤ s.upSlots then
    let b := s.getF (Reg.LANE_STAT_BARRED l)
    .next ((s.setLane l { x with bars := x.bars.erase rate }).setF (Reg.LANE_STAT_BARRED l) (withBit b (rate - 1) false))
  else .next s

/-- The bars of the rates whose bits are 1 end (R283). -/
def State.clearBars (s : State) (l bits : Nat) : State :=
  [2, 3].foldl (fun t r =>
    if bits.testBit (r - 1) then
      let x := t.lane l
      (t.setLane l { x with bars := x.bars.erase r }).setF (Reg.LANE_STAT_BARRED l)
        (withBit (t.getF (Reg.LANE_STAT_BARRED l)) (r - 1) false)
    else t) s

/-- A write by a port that needs owner class on the LANE block (R351, R496). -/
def State.ownerWrite (s : State) (port unit addr : Nat) (f : State → State) : State :=
  if s.classOf port < 2 then s.logRefusal .SYS_AUTH_DENIED unit addr port else f s

/-- RATE_BAR_CLEAR: an owner writes 1 to bits of LANE_STAT.BARRED (R283). -/
def execRateBarClear (port : Port) (l : Fin 4) (bits : BitVec 3) (s : State) : Res :=
  s.whenOpen port (Reg.LANE_STAT l) <|
  .next (s.ownerWrite port l (Reg.LANE_STAT l) (fun t => t.clearBars l bits.toNat))

/-- LANE_FAILOVER: at the slot boundary after the active member's loss the standby that is UP becomes active; logged with both lanes
and the slot (R286). -/
def execLaneFailover (group : Fin 4) (s : State) : Res :=
  let ms := (List.range 4).filter (fun l => s.laneGroup l == group.val)
  let lost := ms.find? (fun l => match (s.lane l).lostAt with
    | some t => decide (t < s.now)
    | none => false)
  let up := ms.find? (fun l => s.laneUp l)
  match lost, up with
  | some a, some b =>
    if group.val = 0 ∨ ms.any (fun l => s.flag (Reg.LANE_STAT_ACTIVE l)) = true then .next s
    else
      let s1 := ms.foldl (fun t k => (t.setLane k { t.lane k with lostAt := none }).moveEgress k b) (s.setF (Reg.LANE_STAT_ACTIVE b) 1)
      .next (s1.logLane b .LANE_FAILOVER a [BitVec.ofNat 64 a, BitVec.ofNat 64 b, BitVec.ofNat 64 s.now])
  | _, _ => .next s

/-- MAKE_ACTIVE by an owner: a standby that is not UP is refused; a lane outside a group has no other member (R286, R303). -/
def State.makeActive (s : State) (port l : Nat) : WriteRes :=
  if s.laneGroup l = 0 then (s, none)
  else if s.laneUp l = false then s.refuse .LANE_GROUP_DOWN l (Reg.LANE_CTL l) port
  else ((s.peersOf l).foldl (fun t k => ((t.setF (Reg.LANE_STAT_ACTIVE k) 0).setLane k { t.lane k with lostAt := none }).moveEgress k l)
    (s.setF (Reg.LANE_STAT_ACTIVE l) 1), none)

/-- MAKE_ACTIVE: a write of LANE_CTL.MAKE_ACTIVE with owner authority (R286). -/
def execMakeActive (port : Port) (l : Fin 4) (s : State) : Res :=
  s.whenOpen port (Reg.LANE_CTL l) <|
  .next (s.ownerWrite port l (Reg.LANE_CTL l) (fun t => (t.makeActive port l).1))

/-! ### Test (R289 to R291) -/

/-- A write of LANE_TEST: with EN = 1 the tests of R291 in order, then the lane leaves service as after a loss with cause 7; with EN = 0 the
test ends and the lane returns to its bring-up. -/
def State.laneTestWrite (s : State) (port l : Nat) (v : W64) : WriteRes :=
  let no (c : Cond) : WriteRes := s.refuse c l (Reg.LANE_TEST l) port
  let pat := bits v 5 4
  if pat = 3 then no .LANE_TEST_PAT
  else if bit v 0 then
    let others := s.peersOf l
    match firstFail [(!(bits v 2 1 == 3 && pat != 0), .LANE_TEST_COMBO), (port != l, .LANE_TEST_SELF),
        (!(s.laneRole l == 2 && s.acquiring), .LANE_TEST_ROLE),
        (!(s.flag (Reg.LANE_STAT_ACTIVE l) && !others.isEmpty && !others.any (fun k => s.laneUp k)), .LANE_TEST_GROUP)] with
    | some c => no c
    | none =>
      let rate := if bits v 9 8 = 0 then s.getF (Reg.LANE_STAT_RATE l) else bits v 9 8
      let s1 := if s.laneUp l then s.declareLoss l 7 else s
      let s2 := (s1.setReg (Reg.LANE_TEST l) v).setLane l { s1.lane l with target := 0, prbs := 0 }
      (((s2.setF (Reg.LANE_STAT_STATE l) 5).setF (Reg.LANE_STAT_RATE l) rate).setF (Reg.LANE_PRBS_LOCK l) 0, none)
  else if s.laneState l = 5 then
    ((((s.setReg (Reg.LANE_TEST l) v).setF (Reg.LANE_STAT_RATE l) 0).setF (Reg.LANE_PRBS_LOCK l) 0).bringUp l, none)
  else (s.setReg (Reg.LANE_TEST l) v, none)

/-- The bits of LANE_TEST that are not reserved. -/
def laneTestMask : W64 := 0x337#64

/-- LANE_TEST: a write with EN = 1 by an owner (R291). -/
def execLaneTest (port : Port) (l : Fin 4) (value : W64) (s : State) : Res :=
  s.whenOpen port (Reg.LANE_TEST l) <|
  .next (s.ownerWrite port l (Reg.LANE_TEST l) (fun t => (t.laneTestWrite port l (setBits (value &&& laneTestMask) 0 0 1)).1))

/-- LANE_TEST_END: a write with EN = 0 by an operator of the lane (R291, R347). -/
def execLaneTestEnd (port : Port) (l : Fin 4) (s : State) : Res :=
  s.whenOpen port (Reg.LANE_TEST l) <|
  match s.laneAuth port 1 l with
  | some c => .next (s.logRefusal c l (Reg.LANE_TEST l) port)
  | none => .next (s.laneTestWrite port l (setBits (s.reg (Reg.LANE_TEST l)) 0 0 0)).1

/-- Bits checked in lock and the errors among them are counted: BITS in units of 2^20 (R290). -/
def State.prbsCount (s : State) (l errors bits : Nat) : State :=
  let x := s.lane l
  let n := x.prbs + bits
  ((s.setLane l { x with prbs := n % 2 ^ 20 }).addF (Reg.LANE_PRBS_ERR l) errors).addF (Reg.LANE_PRBS_BITS l) (n / 2 ^ 20)

/-- PRBS_LOCK: 64 consecutive correct bits put the checker in lock; the bits it has checked since then, or in lock since the last such
command, are counted with their errors (R290; log entry 18). -/
def execPrbsLock (l : Fin 4) (errors bits : Nat) (s : State) : Res :=
  if s.laneState l = 5 ∧ s.getF (Reg.LANE_TEST_PAT l) ≠ 0 then .next ((s.setF (Reg.LANE_PRBS_LOCK l) 1).prbsCount l errors bits)
  else .next s

/-- PRBS_LOCKLOST: the bits checked in lock since the last count and their errors are counted; the last 64 errors lie within `span` bits, and
where that is at most 1,024 the lock ends (R290). -/
def execPrbsLocklost (l : Fin 4) (errors bits span : Nat) (s : State) : Res :=
  if s.flag (Reg.LANE_PRBS_LOCK l) = true ∧ 64 ≤ errors ∧ span ≤ 1024 then
    .next (((s.prbsCount l errors bits).setF (Reg.LANE_PRBS_LOCK l) 0).setF (Reg.LANE_PRBS_LOCKLOST l) 1)
  else .next s

/-! ### LANE_CFG, LANE_EQ (R275, R281, R285, R303, R320) -/

/-- The tests of a write to LANE_CFG: field values, the fixed rate's role, ROLE and GROUP outside Basecamp but for the records loaded at
start-up, the group (R275, R281, R285). -/
def State.checkLaneCfg (s : State) (w : WCtx) (l : Nat) (v : W64) : Option Cond :=
  let role := bits v 5 4
  let group := bits v 19 18
  let live := role != s.laneRole l || group != s.laneGroup l
  let mates := (List.range 4).filter (fun k => k != l && s.laneGroup k == group)
  let cls (k : Nat) : Nat := s.classOf k
  let groupOk := group == 0 || (decide (mates.length ≤ 1) && mates.all (fun k =>
    s.laneRole k == role && (role != 0 || cls k == cls l)))
  firstFail [(bits v 13 12 != 3, .LANE_FEC), (bit v 8, .LANE_RATES), (role != 3, .LANE_ROLE),
    (!(live && s.cur != 1 && !(w.isCfg && s.mode.phase != .running)), .LANE_ROLE_LIVE), (bits v 15 14 == 0 || role == 0, .LANE_FIXRATE_ROLE), (groupOk, .LANE_GROUP)]

/-- The tests of a write to LANE_EQ. -/
def checkLaneEq (v : W64) : Option Cond := firstFail [(decide (bits v 13 8 ≤ 31) && decide (bits v 5 0 ≤ 47), .LANE_EQ_RANGE)]

/-- Whether the streams of a lane's queues stop with a lane disabled: not while its group has another member that is UP (R320). -/
def State.disableStreams (s : State) (l : Nat) : State :=
  if (s.peersOf l).any (fun k => s.laneUp k) then s
  else s.liveStreams.foldl (fun t st =>
    let x := t.strmSt st
    if x.on && t.strmQueue st / 16 == l then t.setStrmSt st { x with falling := true, rising := false } else t) s

/-- A lane leaves a group: where it was the active member, the member that is UP takes its place (R285). -/
def State.leaveGroup (s : State) (l group : Nat) : State :=
  if group = 0 ∨ s.flag (Reg.LANE_STAT_ACTIVE l) = false then s
  else
    match (List.range 4).find? (fun k => k != l && s.laneGroup k == group && s.laneUp k) with
    | some k => (s.setF (Reg.LANE_STAT_ACTIVE k) 1).moveEgress l k
    | none => s

/-- What a written LANE_CFG does: EN = 0 declares loss and stops the lane's streams; a change of role retrains a lane that is UP; a write
during bring-up begins it anew; ACTIVE follows the group (R275, R282, R285, R303, R320). -/
def State.laneCfgWritten (s0 : State) (l : Nat) (old : W64) : State :=
  let st := s0.laneState l
  let v := s0.reg (Reg.LANE_CFG l)
  let s := if bits v 19 18 = bits old 19 18 then s0 else s0.leaveGroup l (bits old 19 18)
  if !bit v 0 then
    let s1 := if st = 4 then s.declareLoss l 7 else if st = 5 then s else s.bringUp l
    if bit old 0 then s1.disableStreams l else s1
  else if st = 4 then
    if bits v 5 4 ≠ bits old 5 4 then s.declareLoss l 7
    else
      let act := !(s.peersOf l).any (fun k => s.flag (Reg.LANE_STAT_ACTIVE k))
      if bits v 19 18 = bits old 19 18 then s else s.setF (Reg.LANE_STAT_ACTIVE l) (b2n act)
  else if st = 5 then s
  else s.bringUp l

end Sys2Proof.Machine
end

