-- ==== Sys2Proof/Machine/Switch.lean ====
section
/-!
DEFINITION. Sys2Proof/Machine/Switch.lean: the embedded switch: learning, forwarding, VLANs, priorities, the transparent clock, the
hub's own port P4 and the frames that leave each port (R292 to R302, R318).
-/
namespace Sys2Proof.Machine
open Sys2Proof

/-! ### Tables (R292, R295) -/

/-- A word of the VLAN table: UNTAG in [9:5], MEMBER in [4:0]. -/
def State.vlan (s : State) (vid : Nat) : Nat := s.sw.vlan.get (fun _ => 0) vid
/-- Port p is a member of a VLAN. -/
def State.vlanMember (s : State) (vid p : Nat) : Bool := (s.vlan vid).testBit p
/-- Port p sends a VLAN untagged. -/
def State.vlanUntag (s : State) (vid p : Nat) : Bool := (s.vlan vid).testBit (p + 5)

/-- SW_VLAN_DATA as a port reads it. -/
def State.vlanRead (s : State) (port : Nat) : W64 :=
  BitVec.ofNat 64 (s.vlan (bits (s.copy port Reg.SW_VLAN_PTR) 11 0))

/-- A write of SW_VLAN_DATA; the entry of VID 0 or 4,095 does not exist. -/
def State.vlanWrite (s : State) (port : Nat) (v : W64) : State :=
  let vid := bits (s.copy port Reg.SW_VLAN_PTR) 11 0
  if vid = 0 ∨ vid = 4095 then s
  else { s with sw := { s.sw with vlan := s.sw.vlan.set (fun _ => 0) vid (bits v 9 0) } }

/-- A static entry of SW_FDB. -/
def State.fdbEntry (s : State) (i : Nat) : W64 := s.sw.fdb.get (fun _ => 0) i

/-- SW_FDB_DATA as a port reads it. -/
def State.fdbRead (s : State) (port : Nat) : W64 := s.fdbEntry (bits (s.copy port Reg.SW_FDB_PTR) 7 0)

/-- A write of SW_FDB_DATA. -/
def State.fdbWrite (s : State) (port : Nat) (v : W64) : State :=
  let i := bits (s.copy port Reg.SW_FDB_PTR) 7 0
  { s with sw := { s.sw with fdb := s.sw.fdb.set (fun _ => 0) i (v &&& 0x801FFFFFFFFFFFFF#64) } }

/-- The ports a static entry names for a destination, if one is valid. -/
def State.staticPorts (s : State) (mac : Nat) : Option Nat :=
  (s.sw.fdb.find? (fun e => bit e.2 63 && bits e.2 47 0 == mac)).map (fun e => bits e.2 52 48)

/-- The port learned for a destination in a VLAN. -/
def State.learnedPort (s : State) (mac vid : Nat) : Option Nat :=
  (s.sw.learned.find? (fun e => e.mac == mac && e.vid == vid)).map (fun e => e.port)

/-- A source address learned on a host or chain port; the table holds 4,096 entries, of which the one seen longest ago gives way
(DESIGN CHOICE, log 19). -/
def State.learn (s : State) (mac vid port : Nat) : State :=
  let rest := s.sw.learned.filter (fun e => !(e.mac == mac && e.vid == vid))
  { s with sw := { s.sw with learned := ({ mac := mac, vid := vid, port := port, seen := s.upSlots } :: rest).take 4096 } }

/-! ### What a frame is -/

/-- A multicast or broadcast address. -/
def multicast (mac : Nat) : Bool := mac.testBit 40
/-- The address of configuration beacons (R302). -/
def beaconMac : Nat := 0x034E50000001
/-- The link-local range 01-80-C2-00-00-00 to -0F (R292). -/
def linkLocal (mac : Nat) : Bool := mac / 16 == 0x0180C200000
/-- A Neilpol frame: by EtherType or UDP port (R302). -/
def State.isNeil (s : State) (f : Frame) : Bool :=
  f.etype.toNat == s.getF Reg.SW_CFG_ETYPE || (match f.udp with
    | some u => u.toNat == s.getF Reg.SW_CFG_UDPPORT
    | none => false)
/-- The frame type of a Neilpol frame. -/
def neilType (ws : List W64) : Nat := bits (ws.getD 0 0) 59 56
/-- The version of a Neilpol frame. -/
def neilVersion (ws : List W64) : Nat := bits (ws.getD 0 0) 63 60

/-- The VLAN of a frame on its ingress port (R295). -/
def State.vidOf (s : State) (l : Nat) (f : Frame) : Nat :=
  match f.vid with
  | some v => if v.toNat = 0 then s.getF (Reg.SW_PORT_PVID l) else v.toNat
  | none => s.getF (Reg.SW_PORT_PVID l)

/-- The form of a frame that SW_PORT.ACCEPT lets in (R295). -/
def State.accepts (s : State) (l : Nat) (f : Frame) : Bool :=
  let tagged := match f.vid with
    | some v => v.toNat != 0
    | none => false
  let a := s.getF (Reg.SW_PORT_ACCEPT l)
  a == 0 || (a == 1 && tagged) || (a == 2 && !tagged)

/-- The priority of a frame (R296). -/
def State.prioOf (s : State) (l : Nat) (f : Frame) : Nat :=
  if f.ptp.isSome || f.etype == 0x88F7 || f.udp == some 319 || f.udp == some 320 then 7
  else if s.isNeil f && decide (4 ≤ neilType f.words ∧ neilType f.words ≤ 8) then 6
  else if f.vid.isSome then f.pcp.toNat else s.getF (Reg.SW_PORT_PCP l)

/-! ### Egress queues (R296, R297) -/

/-- The octets of forwarded frames in a list. -/
def forwarded (l : List TxFrame) : Nat := ((l.filter (fun f => f.origin < 4)).map (fun f => f.octets)).sum

/-- A received frame queued at an egress port; one that finds its queue at the limit, or the buffer of 1 MiB full, is dropped and counted
on the egress port; to P4 the limit is the ingress lane's receive queue of 16 KiB, counted on that lane. Its receive stamp takes the ingress adjustment in force as it
comes (R266, R296, R297). -/
def State.forward (s : State) (l p vid : Nat) (f : Frame) (rx : Int) : State :=
  let prio := s.prioOf l f
  let g : TxFrame :=
    { origin := l, prio := prio, dst := f.dst.toNat, src := f.src.toNat, etype := f.etype.toNat, vid := vid
      tagged := !s.vlanUntag vid p, encap := (if s.isNeil f && f.udp.isSome then 1 else 0), words := f.words, octets := f.octets
      ptp := f.ptp, rx := s.ingress l rx, corr := 0 }
  let q := s.egressOf p
  if p = 4 then
    if ((q.filter (fun h => h.origin == l)).map (fun h => h.octets)).sum + f.octets ≤ 16384 then s.pushFrame 4 g
    else s.bump (Reg.SW_CNT_DROP_Q l)
  else
    let mine := forwarded (q.filter (fun h => h.prio == prio))
    let all := ((List.range 4).map (fun k => forwarded (s.egressOf k))).sum
    if mine + f.octets ≤ s.getF Reg.SW_QLIM_BYTES ∧ all + f.octets ≤ 2 ^ 20 then s.pushFrame p g
    else s.bump (Reg.SW_CNT_DROP_Q p)

/-- The lanes a frame may be flooded to: UP host and chain ports of its VLAN, one for each group, not the ingress lane or its group, nor
a port whose flooding is blocked unless the frame is PTP (R285, R292, R298). -/
def State.floodPorts (s : State) (l vid : Nat) (ptp : Bool) : List Nat :=
  (List.range 4).filter (fun p => p != l && s.laneUp p && !s.pairRole p && s.vlanMember vid p && s.flag (Reg.LANE_STAT_ACTIVE p)
    && !(s.laneGroup l != 0 && s.laneGroup p == s.laneGroup l) && (ptp || !s.flag (Reg.SW_PORT_LOOPBLK p)))

/-- A PTP message of a domain in which the lane is a port of a time base, whatever carries it (R299). -/
def State.ptpPort (s : State) (l : Nat) (g : PtpTag) : Bool :=
  [0, 1, 2, 3].any (fun t => s.isPort t l && s.getF (Reg.TB_CFG_DOMAIN t) == g.domain.toNat)

/-- Where a frame goes: lanes, and P4 (port 4); in Bivouac nothing is forwarded (R292, R299, R428). -/
def State.destinations (s : State) (l vid : Nat) (f : Frame) : List Nat :=
  let dst := f.dst.toNat
  if s.cur = 0 then (if dst = s.getF Reg.SW_MAC_MAC ∨ dst = 2 ^ 48 - 1 then [4] else []) else
  let only (ps : List Nat) : List Nat :=
    ps.filter (fun p => s.vlanMember vid p && (p == 4 || (p != l && !s.pairRole p
      && !(s.laneGroup l != 0 && s.laneGroup p == s.laneGroup l))))
  match f.ptp with
  | some g =>
    let ps := if multicast dst then s.floodPorts l vid true else only (match s.staticPorts dst with
      | some m => (bitsSet 5 m).map s.carrier
      | none => match s.learnedPort dst vid with
        | some p => [s.carrier p]
        | none => s.floodPorts l vid true)
    ps.filter (fun p => p < 4 && !s.ptpPort p g)
  | none =>
    if s.pairRole l ∨ dst = beaconMac ∨ linkLocal dst = true then [4]
    else if dst = s.getF Reg.SW_MAC_MAC then [4]
    else match s.staticPorts dst with
      | some m => only (((bitsSet 5 m).map (fun p => if p < 4 then s.carrier p else p)).eraseDups)
      | none =>
        if multicast dst then s.floodPorts l vid false ++ (if s.vlanMember vid 4 then [4] else [])
        else match s.learnedPort dst vid with
          | some p => only [s.carrier p]
          | none => s.floodPorts l vid false

/-- A frame begins to leave a port before it is in whole: cut-through to an idle port of no higher MAC rate (R293). -/
def State.cutsThrough (s : State) (l p : Nat) (f : Frame) : Bool :=
  p < 4 && s.flag Reg.SW_CFG_CT && decide (s.getF (Reg.LANE_STAT_RATE p) ≤ s.getF (Reg.LANE_STAT_RATE l)) && (s.egressOf p).isEmpty
    && decide (64 < f.octets) && s.laneUp p

/-- A pair link takes PTP, pair frames and beacons only (R275, R292). -/
def State.pairTakes (s : State) (f : Frame) : Bool :=
  f.ptp.isSome || (s.isNeil f && (neilType f.words == 8 || neilType f.words == 7))

/-- What TCMODE 1 does not forward: Delay_Req is dropped, peer-delay messages are consumed (R299). -/
def State.tcStops (s : State) (g : PtpTag) : Option Bool :=
  if s.getF Reg.SW_CFG_TCMODE = 0 then none
  else if g.kind = 1 then some true
  else if g.kind = 2 ∨ g.kind = 3 ∨ g.kind = 10 then some false
  else none

/-- FRAME_RECEIVED: a frame in on a lane that is UP: counted and dropped, consumed at P4's queue, or forwarded (R292 to R299). -/
def execFrameReceived (l : Fin 4) (f : Frame) (rx : Int) (s : State) : Res :=
  let vid := s.vidOf l f
  if s.laneUp l = false then .next s
  else if f.fcsOk = false then
    let s1 := s.bump (Reg.LANE_CNT_FCS_ERR l)
    let cut := (s.destinations l vid f).filter (fun p => s.cutsThrough l p f)
    if cut.isEmpty then .next (s1.bump (Reg.SW_CNT_DROP_FILT l))
    else .next (cut.foldl (fun t p => t.bump (Reg.SW_CNT_STOMP p)) s1)
  else if f.etype = 0x8808 then .next (s.bump (Reg.SW_CNT_PAUSE_RX l))
  else if f.src.toNat = s.getF Reg.SW_MAC_MAC then
    .next (((s.bump Reg.SW_TCCNT_LOOPS).setF (Reg.SW_PORT_LOOPBLK l) 1).logLane l .SW_LOOP l [])
  else if s.pairRole l && !s.pairTakes f then .next (s.bump (Reg.SW_CNT_DROP_FILT l))
  else if !s.vlanMember vid l || !s.accepts l f then .next (s.bump (Reg.SW_CNT_DROP_FILT l))
  else
    let s1 := if s.pairRole l || multicast f.src.toNat then s else s.learn f.src.toNat vid l
    match f.ptp with
    | some g =>
      if s1.ptpPort l g || s.pairRole l then .next s1
      else match s1.tcStops g with
        | some true => .next (s1.bump (Reg.SW_CNT_DROP_FILT l))
        | some false => .next s1
        | none => .next ((s1.destinations l vid f).foldl (fun t p => t.forward l p vid f rx) s1)
    | none => .next ((s1.destinations l vid f).foldl (fun t p => t.forward l p vid f rx) s1)

/-! ### The transparent clock (R299, R300) -/

/-- The link delay of a lane that peer-to-peer mode adds: as a time base's port measured it, else a free value (log 19). -/
def State.linkDelay (s : State) (l : Nat) : Int × State :=
  match [0, 1, 2, 3].findSome? (fun t => (s.ptp t l).delay) with
  | some d => (d, s)
  | none =>
    let (f, s1) := s.free
    (f.toInt, s1)

/-- A forwarded PTP message leaves with a transmit stamp: its correction grows by its residence time, a two-step Sync's is held for its
Follow_Up, and a changed message with a checksum to update is counted in TC_SF (R299, R300). -/
def State.correct (s : State) (p : Nat) (g : PtpTag) (f : TxFrame) (tx : Int) : State × TxFrame :=
  let res := s.egress p tx - f.rx
  let sf (t : State) : State := if g.csum = 1 ∨ g.csum = 3 then t.bump Reg.SW_TCCNT_TC_SF else t
  let p2p := s.getF Reg.SW_CFG_TCMODE = 1
  if g.kind = 0 then
    let (d, s1) := if p2p then s.linkDelay f.origin else (0, s)
    if g.twoStep then
      if s1.sw.held.length < 64 then
        ({ s1 with sw := { s1.sw with held := s1.sw.held ++ [{ port := p, tag := g, time := res + d, held := s1.upSlots }] } }, f)
      else (s1, f)
    else (sf s1, { f with corr := f.corr + res + d })
  else if g.kind = 8 then
    let mine (h : Residence) : Bool :=
      h.port == p && h.tag.domain == g.domain && h.tag.seq == g.seq && h.tag.srcId == g.srcId && h.tag.srcPort == g.srcPort
    match s.sw.held.find? mine with
    | some h =>
      (sf { s with sw := { s.sw with held := s.sw.held.filter (fun k => !mine k) } }, { f with corr := f.corr + h.time })
    | none => (s, f)
  else if g.kind = 1 ∨ g.kind = 2 ∨ g.kind = 3 ∨ g.kind = 10 then (sf s, { f with corr := f.corr + res })
  else (s, f)

/-- TC_NOMATCH: residences held for 1 s without a Follow_Up are discarded and counted (R299). -/
def execTcNomatch (s : State) : Res :=
  let old := s.sw.held.filter (fun h => decide (h.held + 250000 ≤ s.upSlots))
  .next ({ s with sw := { s.sw with held := s.sw.held.filter (fun h => !decide (h.held + 250000 ≤ s.upSlots)) } }.addF
    Reg.SW_TCCNT_TC_NOMATCH old.length)

/-! ### P4 (R301, R302) -/

/-- The octets of 64-bit words, most significant first. -/
def wordsToBytes (ws : List W64) : List Nat := ws.flatMap (fun w => (List.range 8).map (fun i => w.toNat / 256 ^ (7 - i) % 256))

/-- 64-bit words of octets, filled with 0. -/
def bytesToW64 (bs : List Nat) : List W64 :=
  (List.range ((bs.length + 7) / 8)).map (fun i =>
    BitVec.ofNat 64 ((List.range 8).foldl (fun a k => a * 256 + bs.getD (8 * i + k) 0) 0))

/-- The number in n octets from an offset. -/
def octetsAt (bs : List Nat) (o n : Nat) : Nat := (List.range n).foldl (fun a k => a * 256 + bs.getD (o + k) 0) 0

/-- A number as n octets. -/
def octets (n v : Nat) : List Nat := (List.range n).map (fun i => v / 256 ^ (n - 1 - i) % 256)

/-- The Internet checksum of octets (RFC 1071). -/
def inetSum (bs : List Nat) : Nat :=
  let t := ((List.range ((bs.length + 1) / 2)).map (fun i => bs.getD (2 * i) 0 * 256 + bs.getD (2 * i + 1) 0)).sum
  let f (x : Nat) : Nat := x % 65536 + x / 65536
  65535 - f (f (f t))

/-- The payload with which the hub answers an ARP request, an ICMP or ICMPv6 echo request or a neighbour solicitation for its own
addresses (R302; the message layouts are those of RFC 826, 792, 4443 and 4861, PRESUMED, log 19). -/
def State.p4Answer (s : State) (f : TxFrame) : Option (List W64) :=
  let b := wordsToBytes f.words
  let mac := octets 6 (s.getF Reg.SW_MAC_MAC)
  let ip4 := s.getF Reg.SW_IP4_ADDR
  let ip6 := (s.reg Reg.SW_IP6_HI).toNat * 2 ^ 64 + (s.reg Reg.SW_IP6_LO).toNat
  if f.etype = 0x0806 then
    if ip4 ≠ 0 ∧ octetsAt b 0 8 = 0x0001080006040001 ∧ octetsAt b 24 4 = ip4 then
      some (bytesToW64 (octets 8 0x0001080006040002 ++ mac ++ octets 4 ip4 ++ (b.drop 8).take 10))
    else none
  else if f.etype = 0x0800 then
    if ip4 ≠ 0 ∧ octetsAt b 0 1 = 0x45 ∧ octetsAt b 9 1 = 1 ∧ octetsAt b 16 4 = ip4 ∧ octetsAt b 20 1 = 8 then
      let data := (b.drop 24).take (octetsAt b 2 2 - 24)
      let hd (c : Nat) : List Nat :=
        [0x45, 0] ++ (b.drop 2).take 2 ++ [0, 0, 0x40, 0, 64, 1] ++ octets 2 c ++ octets 4 ip4 ++ (b.drop 12).take 4
      let ic (c : Nat) : List Nat := [0, 0] ++ octets 2 c ++ data
      some (bytesToW64 (hd (inetSum (hd 0)) ++ ic (inetSum (ic 0))))
    else none
  else if f.etype = 0x86DD then
    let src := (b.drop 8).take 16
    let wrap (dst body : List Nat) : List Nat :=
      [0x60, 0, 0, 0] ++ octets 2 body.length ++ [58, 255] ++ octets 16 ip6 ++ dst ++ body
    let sum (body : List Nat) : Nat := inetSum (octets 16 ip6 ++ src ++ octets 4 body.length ++ octets 4 58 ++ body)
    if ip6 = 0 ∨ octetsAt b 6 1 ≠ 58 then none
    else if octetsAt b 40 1 = 128 ∧ octetsAt b 24 16 = ip6 then
      let data := (b.drop 44).take (octetsAt b 4 2 - 4)
      let ic (c : Nat) : List Nat := [129, 0] ++ octets 2 c ++ data
      some (bytesToW64 (wrap src (ic (sum (ic 0)))))
    else if octetsAt b 40 1 = 135 ∧ octetsAt b 48 16 = ip6 then
      let na (c : Nat) : List Nat := [136, 0] ++ octets 2 c ++ [0x60, 0, 0, 0] ++ octets 16 ip6 ++ [2, 1] ++ mac
      some (bytesToW64 (wrap src (na (sum (na 0)))))
    else none
  else none

/-- The hub takes a frame from P4: a Neilpol frame of another version or a type without an owner is dropped and counted; ARP, neighbour
discovery and echo requests are answered through the active member of the lane's group; what a served frame does is the command that it carries (R297, R301, R302). -/
def State.p4Take (s : State) (f : TxFrame) : State :=
  let neil := f.encap != 0 || f.etype == s.getF Reg.SW_CFG_ETYPE
  if neil then
    let ty := neilType f.words
    if neilVersion f.words ≠ 1 ∨ ty = 0 ∨ 9 ≤ ty then s.bump Reg.SW_TCCNT_NEIL_BAD else s
  else match s.p4Answer f with
    | some ws =>
      let p := s.carrier f.origin
      s.pushFrame p { f with
        origin := 4, dst := f.src, src := s.getF Reg.SW_MAC_MAC, words := ws, octets := 8 * ws.length + 22
        tagged := !s.vlanUntag f.vid p }
    | none => s

/-! ### Egress (R296, R309, R318) -/

/-- The next packet of a queue to send, with whether it is sent again: those due again come first (R287). -/
def QueueSt.next (x : QueueSt) : Option (Pkt × Bool) :=
  match x.resend with
  | p :: _ => some (p, true)
  | [] => x.pkts.head?.map (fun p => (p, false))

/-- The payload words of a packet whose check fails: those the sender names, and on a queue in engine bulk memory those that an error in
the DRAM has struck (R13, R21, R318). -/
def State.failing (s : State) (q : Nat) (p : Pkt) (bad : List Nat) : List Nat :=
  (List.range p.n).filter (fun i =>
    bad.contains i || (s.flag (Reg.QUE_CFG_LOC q) && s.poison.contains (s.queIndex q (p.start + i))))

/-- The words of a packet frame: H0 to H3 and the payload, with POISON in the words whose check fails (R309, R318). -/
def State.pktWords (s : State) (q : Nat) (p : Pkt) (bad : List Nat) : List W64 :=
  let fail := s.failing q p bad
  let mark (i : Nat) (w : W64) : W64 := if p.cmode = 0 ∧ fail.contains i then w ||| 0x10000#64 else w
  let hit := !fail.isEmpty
  [BitVec.ofNat 64 (1 <<< 60 + p.ftype <<< 56 + p.stream <<< 45 + p.tag <<< 32 + p.seq % 2 ^ 32), BitVec.ofNat 64 p.first,
   BitVec.ofNat 64 p.h2,
   BitVec.ofNat 64 (b2n p.last <<< 63 + b2n p.refu <<< 62 + b2n p.clip <<< 61 + b2n hit <<< 60 + b2n p.flush <<< 59 + b2n p.drop <<< 58
     + b2n p.fst <<< 57 + p.n <<< 40 + p.cmode <<< 36 + p.check % 2 ^ 32)] ++
  (List.range p.n).map (fun i => mark i (s.queWord q (p.start + i)))

/-- A packet of a queue leaves on a port: it is held for 64 slots from the end of its transmission, counted where it is sent again, reported to the pair partner, and a
failing word is logged (R287, R318, R385). -/
def State.sendPkt (s : State) (p q : Nat) (pk : Pkt) (again : Bool) (bad : List Nat) : State × TxFrame :=
  let w1 := s.strmWord pk.stream 1
  let vid := if bits w1 59 48 = 0 then s.getF (Reg.SW_PORT_PVID p) else bits w1 59 48
  let f := s.neilFrame (s.strmPrio pk.stream) (bits w1 47 0) vid (s.pktWords q pk bad)
  let x := s.que q
  let fin := s.slotTicks + frameTicks (s.getF (Reg.LANE_STAT_RATE p)) f.octets
  let s1 := if again then (s.setQue q { x with resend := x.resend.drop 1, sent := x.sent ++ [(pk, fin)] }).bump (Reg.LANE_CNT_RESENT p)
    else s.setQue q { x with pkts := x.pkts.drop 1, sent := x.sent ++ [(pk, fin)], sp := pk.start + pk.n }
  let s2 : State := if s1.pairOn && s1.pairRoleNow == 1 then
    { s1 with pair := { s1.pair with reports := s1.pair.reports ++ [(pk.stream, pk.seq, pk.first)] } } else s1
  let fails := (s.failing q pk bad).length
  let s3 := if fails = 0 then s2 else (s2.bump (Reg.QUE_CTL_POISON q)).logLane (q / 16) .QUE_POISON 0
    [BitVec.ofNat 64 pk.stream, BitVec.ofNat 64 pk.seq, BitVec.ofNat 64 fails]
  (s3, { f with tagged := !s.vlanUntag vid p })

/-- The queues whose packets leave on a port: those of the lanes that the port carries, not in Belay, nor in Descent, where streams are held; none on a standby, nor on a pair link
(R31, R275, R285, R286, R315, R385). -/
def State.queuesOf (s : State) (p : Nat) : List Nat :=
  if s.belay = true ∨ s.cur = 0 ∨ s.cur = 7 ∨ 4 ≤ p ∨ s.pairRole p = true ∨ s.laneCarries p = false then [] else (List.range 64).filter (fun q => s.carrier (q / 16) == p)

/-- The first queue of a port with a packet of a priority. -/
def State.queueAt (s : State) (p prio : Nat) : Option (Nat × Pkt × Bool) :=
  (s.queuesOf p).findSome? (fun q => match (s.que q).next with
    | some (pk, again) => if s.strmPrio pk.stream = prio then some (q, pk, again) else none
    | none => none)

/-- The first waiting frame of a source and priority that a port may send: a standby sends PTP and beacons of its own only (R285, R286). -/
def State.frameAt (s : State) (p prio src : Nat) : Option TxFrame :=
  (s.egressOf p).find? (fun f => f.origin == src && f.prio == prio && (decide (4 ≤ p) || s.laneCarries p || f.own))

/-- Frames of a list without the first one that is a given frame. -/
def dropFrame (g : TxFrame) : List TxFrame → List TxFrame
  | [] => []
  | f :: r => if f = g then r else f :: dropFrame g r

/-- The priorities from 7 down and, in each, the sources in turn from the one to be served next: the first that holds a frame
(R296). -/
def State.pick (s : State) (p : Nat) : Option (Nat × Nat) :=
  ([7, 6, 5, 4, 3, 2, 1, 0] : List Nat).findSome? (fun prio =>
    let t := s.sw.turn.get (fun _ => 0) (8 * p + prio)
    ((List.range 5).map (fun i => (t + i) % 5)).findSome? (fun src =>
      if (s.frameAt p prio src).isSome || (src == 4 && (s.queueAt p prio).isSome) then some (prio, src) else none))

/-- The frame a port sent last. -/
def State.setLastTx (s : State) (p : Nat) (f : TxFrame) : State :=
  { s with sw := { s.sw with lastTx := s.sw.lastTx.set (fun _ => none) p (some f) } }

/-- A frame of an egress queue that is no PTP message leaves on a lane: one sent again is counted, and a replay frame of the hub is kept for 64
slots, as a queue keeps its packets (R287, R288; DEDUCED, log entry 18). -/
def State.sendFrame (s : State) (p : Nat) (f : TxFrame) : State :=
  let s1 := if f.again then s.bump (Reg.LANE_CNT_RESENT p) else s
  let s2 : State := if f.origin = 4 ∧ neilType f.words = 2 then
    let fin := s.slotTicks + frameTicks (s.getF (Reg.LANE_STAT_RATE p)) f.octets
    let old := (s.sw.kept.get (fun _ => []) p).filter (fun k => s.dueAgain k.2)
    { s1 with sw := { s1.sw with kept := s1.sw.kept.set (fun _ => []) p (old ++ [(f, fin)]) } } else s1
  s2.setLastTx p f

/-- FRAME_TRANSMIT: a port that can take a frame sends the next one; P4's frames are taken by the hub. `badWords` are the payload words
of a hub packet whose check fails, `tx` the transmit stamp in 2^-16 ns (R265, R296, R299, R318). -/
def execFrameTransmit (p : Fin 5) (badWords : List Nat) (tx : Int) (s : State) : Res :=
  if p.val < 4 ∧ s.laneUp p = false then .next s
  else match s.pick p with
    | none => .next s
    | some (prio, src) =>
      let s0 : State := { s with sw := { s.sw with turn := s.sw.turn.set (fun _ => 0) (8 * p.val + prio) ((src + 1) % 5) } }
      match s0.frameAt p prio src with
      | some f =>
        let s1 := s0.setEgress p (dropFrame f (s0.egressOf p))
        if p.val = 4 then .next (s1.p4Take f)
        else match f.ptp with
          | none => .next (s1.sendFrame p f)
          | some g =>
            if f.origin = 4 then
              let stamped := if g.kind = 0 ∧ g.twoStep = false then { f with words := BitVec.ofInt 64 (s1.sentAt p g tx) :: f.words.drop 1 } else f
              .next ((s1.ptpSent p g f tx).setLastTx p stamped)
            else
              let (s2, f2) := s1.correct p g f tx
              .next (s2.setLastTx p f2)
      | none =>
        match s0.queueAt p prio with
        | some (q, pk, again) =>
          let (s1, f) := s0.sendPkt p q pk again badWords
          .next (s1.setLastTx p f)
        | none => .next s0

/-- FDB_AGE_OUT: a learned address not seen for AGE seconds leaves the table (R292). -/
def execFdbAgeOut (mac : BitVec 48) (vid : BitVec 12) (s : State) : Res :=
  let old (e : Learned) : Bool :=
    e.mac == mac.toNat && e.vid == vid.toNat && decide (e.seen + 250000 * s.getF Reg.SW_CFG_AGE ≤ s.upSlots)
  .next { s with sw := { s.sw with learned := s.sw.learned.filter (fun e => !old e) } }

/-- LOOP_BLOCK_CLEAR: an owner writes 1 to SW_PORT.LOOPBLK (R298). -/
def execLoopBlockClear (port : Port) (p : Fin 5) (s : State) : Res :=
  s.whenOpen port (Reg.SW_PORT p) <|
  .next (s.ownerWrite port p (Reg.SW_PORT p) (fun t => t.setF (Reg.SW_PORT_LOOPBLK p) 0))

/-! ### Register tests of the SW block -/

/-- The tests of a write to SW_CFG. -/
def checkSwCfg (v : W64) : Option Cond := firstFail [(decide (10 ≤ bits v 31 20), .SW_AGE), (bits v 17 16 != 3, .SW_ENCAP)]
/-- The test of a write to SW_MAC. -/
def checkSwMac (v : W64) : Option Cond := firstFail [(!multicast (bits v 47 0), .SW_MAC_BAD)]
/-- The tests of a write to SW_PORT: no condition is named for them (R496). -/
def checkSwPort (v : W64) : Option Cond :=
  firstFail [(bits v 17 16 != 3 && bits v 11 0 != 0 && bits v 11 0 != 4095, .SYS_FIELD_RANGE)]
/-- The test of a write to SW_VLAN_PTR. -/
def checkSwVlanPtr (v : W64) : Option Cond := firstFail [(bits v 11 0 != 0 && bits v 11 0 != 4095, .SW_VID)]
/-- The test of a write to SW_QLIM. -/
def checkSwQlim (v : W64) : Option Cond :=
  firstFail [(decide (2048 ≤ bits v 19 0) && decide (bits v 19 0 ≤ 262144), .SW_QLIM_RANGE)]

end Sys2Proof.Machine
end

