-- ==== Sys2Proof/Machine/Cal.lean ====
section
/-!
DEFINITION. Sys2Proof/Machine/Cal.lean: rolling recalibration, Acclimatise and the calibration journal in flash
(R402 to R417, R488).
-/
namespace Sys2Proof.Machine
open Sys2Proof

/-- A bank's calibration. -/
def State.cal (s : State) (b : Nat) : CalSt := s.cals.get (fun _ => {}) b
/-- A bank's calibration replaced. -/
def State.setCal (s : State) (b : Nat) (k : CalSt) : State := { s with cals := s.cals.set (fun _ => {}) b k }
/-- The hub's calibration replaced. -/
def State.setCalh (s : State) (k : CalHub) : State := { s with calh := k }

/-! ### Becoming due (R404) -/

/-- A bit of CAL_STAT.DUE. -/
def State.calDue (s : State) (b : Nat) : Bool := (s.getF Reg.CAL_STAT_DUE).testBit b
/-- A bit of CAL_STAT.ACTIVE. -/
def State.calActive (s : State) (b : Nat) : Bool := (s.getF Reg.CAL_STAT_ACTIVE).testBit b
/-- A bit of CAL_STAT.DUE written. -/
def State.setDue (s : State) (b : Nat) (v : Bool) : State := s.setF Reg.CAL_STAT_DUE (withBit (s.getF Reg.CAL_STAT_DUE) b v)
/-- A bit of CAL_STAT.ACTIVE written. -/
def State.setActive (s : State) (b : Nat) (v : Bool) : State :=
  s.setF Reg.CAL_STAT_ACTIVE (withBit (s.getF Reg.CAL_STAT_ACTIVE) b v)

/-- A bank becomes due; while its pass runs it becomes due again when the pass ends (R404). -/
def State.makeDue (s : State) (b : Nat) : State :=
  if s.calActive b then s.setCal b { s.cal b with again := true } else s.setDue b true

/-- |T − TCAL| in 1/16 °C. -/
def State.tempMoved (s : State) (b : Nat) : Nat := (s.getS (Reg.BANK_TEMP_T b) - s.getS (Reg.BANK_TEMP_TCAL b)).natAbs

/-- The temperature or the age makes a bank due: |T − TCAL| in 1/16 °C against TDELTA in 0.1 °C, MAXAGE in hours of
900,000,000 slots since the last completed pass, counted from reset where none completed (R404; DEDUCED, log entry 20). -/
def State.evaluateDue (s : State) (b : Nat) : State :=
  let hot := s.flag Reg.CAL_CFG_EN && decide (16 * s.getF Reg.CAL_CFG_TDELTA < 10 * s.tempMoved b)
  let age := s.getF Reg.CAL_CFG_MAXAGE
  let old := age != 0 && decide ((s.cal b).lastDone + age * 900000000 ≤ s.upSlots)
  if hot || old then s.makeDue b else s

/-- The modes in which rolling recalibration runs: Ascent, Summit and Traverse (R31). -/
def State.rolling (s : State) : Bool := s.cur == 3 || s.cur == 4 || s.cur == 6

/-- Every bank evaluated at once, as on the entry into an acquiring mode other than Belay (R404). -/
def State.evaluateAll (s : State) : State := (List.range 24).foldl (fun t b => t.evaluateDue b) s

/-- The grade's highest junction temperature in 1/16 °C: 105 °C for grade 1, 125 °C for grade 2 (R1, R488). -/
def junctionLimit : Nat := if Config.idGrade = 1 then 1680 else 2000

/-- TEMPERATURE_EVALUATION: the averages of the die sensors (16 bits for each bank, bank 0 lowest) enter BANK_TEMP.T; in the modes
of rolling recalibration banks become due; the highest T plus 6 °C beyond the grade's limit is logged once and once
on its return (R404, R488). -/
def execTemperatureEvaluation (temps : BitVec 384) (s : State) : Res :=
  let s1 := (List.range 24).foldl (fun t b => t.setF (Reg.BANK_TEMP_T b) (temps.toNat / 2 ^ (16 * b) % 65536)) s
  let hi := (List.range 24).foldl (fun m b => let t := s1.getS (Reg.BANK_TEMP_T b); if m < t then t else m) (-32768)
  let lim := (junctionLimit : Int)
  let hot := decide (lim < hi + 96) || (s1.calh.hot && decide (hi + 96 = lim))
  let s2 := if hot != s1.calh.hot then
    (s1.setCalh { s1.calh with hot := hot }).log .HUB_OVERTEMP 0 [W64.ofInt hi] else s1
  .next (if s2.rolling then s2.evaluateAll else s2)

/-- CAL_BANKS_DUE: a write of CAL_CTL.BANKS with operator authority makes the named banks due (R404). -/
def execCalBanksDue (port : Port) (banks : BitVec 24) (s : State) : Res :=
  s.whenOpen port Reg.CAL_CTL <|
  if s.classOf port < 1 then .next (s.logRefusal .SYS_AUTH_DENIED 0 Reg.CAL_CTL port)
  else .next ((bitsSet 24 banks.toNat).foldl (fun t b => t.makeDue b) s)

/-! ### Abandoning (R411) -/

/-- Every running pass is to be abandoned at the next slot boundary (R411). -/
def State.abandonAll (s : State) : State :=
  (List.range 24).foldl (fun t b =>
    if (t.cal b).stage = 0 then t else t.setCal b { t.cal b with abandon := true }) s

/-- CAL_ABORT: a write of CAL_CTL.ABORT with owner authority abandons every pass (R411). -/
def execCalAbort (port : Port) (s : State) : Res :=
  s.whenOpen port Reg.CAL_CTL <|
  if s.classOf port < 2 then .next (s.logRefusal .SYS_AUTH_DENIED 0 Reg.CAL_CTL port) else .next s.abandonAll

/-! ### Stored results (R414, R415) -/

/-- BANK_DATA of a bank: the terms in force (R414). -/
def State.calBank (s : State) (b : Nat) : CalBank :=
  let x := s.bk b
  { bank := b, halves := x.halves, scales := x.scales, slices := x.slices, ratios := s.calh.ratios.get (fun _ => []) b
    vref := s.getF (Reg.BANK_VREF_VALUE b), tcal := s.getF (Reg.BANK_TEMP_TCAL b) }

/-- A result waits for flash; a newer one of a bank replaces its waiting one (R415). -/
def State.storeResult (s : State) (b : Nat) : State :=
  let w := s.calh.waiting.filter (fun r => r.bank != b) ++ [s.calBank b]
  (s.setCalh { s.calh with waiting := w }).setF Reg.CAL_SET_PENDING w.length

/-- The set in force as a compaction writes it (R414, R415). -/
def State.calImage (s : State) (acc : Bool) (seq : Nat) : CalImage :=
  { banks := (List.range 24).map (fun b => s.calBank b)
    fast := (List.range 8).map (fun k => (s.reg (Reg.FC_CAL k), s.reg (Reg.FC_CSKEW k)))
    vint := s.getF Reg.CAL_VINT_VALUE, extref := s.getF Reg.CAL_EXTREF_VALUE
    accSlot := (s.reg Reg.CAL_ACCSLOT).toNat, acc := acc, seq := seq, groups := [] }

/-- The sequence of the last commit of a flash bank that holds a valid set (R417). -/
def CalImage.last (i : CalImage) : Nat := i.seq + i.groups.length

/-- The flash calibration bank f. -/
def State.calFlash (s : State) (f : Nat) : Option CalImage := s.calh.flash.get (fun _ => none) f

/-- CAL_GROUP_WRITE: the oldest waiting result is appended to the active flash bank as a group with the next sequence number,
unless a copy uses the flash or the active bank holds no set yet (a group is then part of the compaction); `failures`
failed read-backs, of which one is retried (R415). -/
def execCalGroupWrite (failures : Fin 3) (s : State) : Res :=
  match s.calh.waiting with
  | [] => .next s
  | g :: rest =>
    if s.flag Reg.UPD_STAT_COPYING then .next s
    else
      let f := s.getF Reg.CAL_SET_FBANK
      match s.calFlash f with
      | none => .next s
      | some i =>
        let s1 := (s.setCalh { s.calh with waiting := rest }).setF Reg.CAL_SET_PENDING rest.length
        if failures.val = 2 then .next (s1.log .CAL_STORE_FAIL g.bank [])
        else
          let j := { i with groups := i.groups ++ [g] }
          let s2 := s1.setCalh { s1.calh with flash := s1.calh.flash.set (fun _ => none) f (some j) }
          .next ((s2.setF Reg.CAL_SET_SEQ j.last).setF Reg.CAL_SET_SRC 2)

/-- CAL_COMPACTION: after Acclimatise, or when a group does not fit the active flash bank, the terms in force are written whole into
the other bank, which becomes active with its COMMIT; the groups that waited are part of it. Whether a group fits
depends on record lengths that the manual does not give, so the command decides (R415; DESIGN CHOICE, log entry 21). -/
def execCalCompaction (failures : Fin 3) (s : State) : Res :=
  if s.flag Reg.UPD_STAT_COPYING || (s.calh.waiting.isEmpty && !s.calh.compact) then .next s
  else
    let acc := s.calh.compact
    let old := s.getF Reg.CAL_SET_FBANK
    let f := 1 - old
    let s1 := (s.setCalh { s.calh with
      waiting := [], compact := false, flash := s.calh.flash.set (fun _ => none) f none }).setF Reg.CAL_SET_PENDING 0
    if failures.val = 2 then .next ((s1.setF Reg.CAL_SET_OTHER_VALID 0).log .CAL_STORE_FAIL 0 [])
    else
      let seq := s1.getF Reg.CAL_SET_SEQ + 1
      let s2 := s1.setCalh { s1.calh with flash := s1.calh.flash.set (fun _ => none) f (some (s1.calImage acc seq)) }
      .next ((((s2.setF Reg.CAL_SET_FBANK f).setF Reg.CAL_SET_SEQ seq).setF Reg.CAL_SET_SRC (if acc then 1 else 2)).setF
        Reg.CAL_SET_OTHER_VALID (b2n (s2.calFlash old).isSome))

/-- A bank's terms taken from BANK_DATA (R417). -/
def State.takeBank (s : State) (r : CalBank) : State :=
  let x := s.bk r.bank
  let s1 := s.setBk r.bank { x with halves := r.halves, scales := r.scales, slices := r.slices }
  let s2 := s1.setCalh { s1.calh with ratios := s1.calh.ratios.set (fun _ => []) r.bank r.ratios }
  (s2.setF (Reg.BANK_VREF_VALUE r.bank) r.vref).setF (Reg.BANK_TEMP_TCAL r.bank) r.tcal

/-- The calibration set chosen at start-up: the flash bank with the higher last sequence number, its SET_BEGIN state and every
group; factory trim where neither holds a valid set, which is logged as the manual's cal_none: the condition list has no such
condition, so its CODE is a free value. CAL_SET_LOADED carries bank, sequence, source and whether the other bank holds a set
(R417; log entry 22). -/
def State.loadCalSet (s : State) : State :=
  let l (f : Nat) : Nat := match s.calFlash f with
    | some i => i.last
    | none => 0
  let f := if l 0 < l 1 then 1 else 0
  let report (t : State) : State :=
    t.log .CAL_SET_LOADED 0 [BitVec.ofNat 64 (t.getF Reg.CAL_SET_FBANK), BitVec.ofNat 64 (t.getF Reg.CAL_SET_SEQ),
      BitVec.ofNat 64 (t.getF Reg.CAL_SET_SRC), BitVec.ofNat 64 (t.getF Reg.CAL_SET_OTHER_VALID)]
  match s.calFlash f with
  | none => report ((s.setF Reg.CAL_SET_SRC 0).logUncoded 0 [])
  | some i =>
    let s1 := (i.banks ++ i.groups).foldl (fun t r => t.takeBank r) s
    let s2 := (List.range 8).foldl (fun t k =>
      match i.fast[k]? with
      | some (c, w) => (t.setReg (Reg.FC_CAL k) c).setReg (Reg.FC_CSKEW k) w
      | none => t) s1
    let s3 := ((s2.setF Reg.CAL_VINT_VALUE i.vint).setF Reg.CAL_EXTREF_VALUE i.extref).setReg Reg.CAL_ACCSLOT
      (BitVec.ofNat 64 i.accSlot)
    report ((((s3.setF Reg.CAL_SET_FBANK f).setF Reg.CAL_SET_SEQ i.last).setF Reg.CAL_SET_SRC
      (if i.acc && i.groups.isEmpty then 1 else 2)).setF Reg.CAL_SET_OTHER_VALID (b2n (s.calFlash (1 - f)).isSome))

/-! ### A pass (R405, R406) -/

/-- The enabled positions of a bank in ascending order. -/
def State.enabledPos (s : State) (b : Nat) : List Nat := positions.filter (fun p => s.chOn (16 * b + p))

/-- The ranges the enabled channels of a bank use, in the order of RANGE. -/
def State.usedRanges (s : State) (b : Nat) : List Nat :=
  [0, 1, 2].filter (fun r => (s.enabledPos b).any (fun p => s.effF (Reg.CH_CFG_RANGE (16 * b + p)) == r))

/-- A due bank may begin: the mode runs calibration, no pass or held spare on the bank, and in a rolling pass CONC leaves room and
no due bank goes before it (R404, R411, R412, R117). -/
def State.passMayStart (s : State) (b : Nat) : Bool :=
  let k := s.cal b
  let able (c : Nat) : Bool := !(s.cal c).suspended && (s.cal c).subEnd.isNone && (!(s.cal c).restart || s.flag (Reg.BANK_REF_SETTLED c))
  let waits (c : Nat) : Bool := s.calDue c && able c
  let first := (List.range 24).all (fun c => c == b || !waits c || decide (s.tempMoved c < s.tempMoved b)
    || (decide (s.tempMoved c = s.tempMoved b) && decide (b < c)))
  k.stage == 0 && able b && ((s.cur == 2 && s.getF Reg.CAL_STAT_ACC_STEP == 5 && k.acc)
    || (s.rolling && s.calDue b && first && decide (popcount 24 (s.getF Reg.CAL_STAT_ACTIVE) < s.getF Reg.CAL_CFG_CONC)))

/-- The spare of a bank goes to the calibration node for a spare phase of a range. -/
def State.spareToNode (s : State) (b r : Nat) : State :=
  let s1 := s.setBk b { s.bk b with node := true, spareRange := r }
  (s1.setF (Reg.BANK_SPARE_CONN b) 0).setF (Reg.BANK_CAL_STATE b) 1

/-- CAL_PASS_START: at slot b0 a due bank begins its pass: TCAL takes T, the controller takes the spare (logging
BANK_SPARE_PREEMPT where it was connected by hand), and the first spare phase begins (R72, R404, R405). -/
def execCalPassStart (b : Fin 24) (s : State) : Res :=
  if s.passMayStart b then
    let s0 := if s.effFlag (Reg.BANK_SPARE_CONN b) then s.log .BANK_SPARE_PREEMPT b [BitVec.ofNat 64 s.now] else s
    let s1 := (((s0.setDue b false).setActive b true).setF (Reg.BANK_SPARE_CAL b) 1).setF (Reg.BANK_TEMP_TCAL b)
      (s0.getF (Reg.BANK_TEMP_T b))
    let rs := s1.usedRanges b
    let k := s1.cal b
    let k1 : CalSt := { k with
      stage := if rs.isEmpty then 2 else 1, t0 := s1.now, ranges := rs, chans := s1.enabledPos b, step := 3
      ext := 0, overlap := [], interval := 0, sums := [], refused := false, done := [], failed := 0, moved := 0
      abandon := false, restart := false, again := false }
    let s2 := (s1.setCal b k1).log .CAL_PASS_START b [BitVec.ofNat 64 s1.now]
    match rs with
    | [] => .next s2
    | r :: _ => .next (s2.spareToNode b r)
  else .next s

/-- The terms of a path: those of its two hold halves and those of the path (R111, R113). -/
structure PathTerms where
  d0 : Int
  e0 : Int
  d1 : Int
  e1 : Int
  g  : Int
  o  : Int
  deriving DecidableEq, Repr

/-- Terms put in force for a path of a key in the tables. -/
def State.putTerms (s : State) (b p : Nat) (fine traced : Bool) (t : PathTerms) : State :=
  let x := s.bk b
  s.setBk b { x with
    halves := (x.halves.set (fun _ => {}) (halfKey p fine 0) { d := t.d0, e := t.e0 }).set (fun _ => {}) (halfKey p fine 1)
      { d := t.d1, e := t.e1 }
    scales := x.scales.set (fun _ => {}) (scaleKey p fine) { g := t.g, o := t.o, traced := traced } }

/-- New terms for a spare path: the manual names no levels for its 256 slots on the node and no formula, so they are free values in the
ranges of R113 (R405; log entry 23). -/
def State.newTerms (s : State) (b p : Nat) (fine : Bool) (traced : Bool) : State :=
  let (d0, s1) := s.freeIn (2 ^ 26)
  let (e0, s2) := s1.freeIn (2 ^ 23)
  let (d1, s3) := s2.freeIn (2 ^ 26)
  let (e1, s4) := s3.freeIn (2 ^ 23)
  let (g, s5) := s4.freeIn (2 ^ 27)
  let (o, s6) := s5.freeIn (2 ^ 24)
  s6.putTerms b p fine traced { d0 := d0, e0 := e0, d1 := d1, e1 := e1, g := g, o := o }

/-- The nominal ratio of node level i of R402: 0, then plus and minus 15/16 of the coarse and of the fine full scale of ranges 0 to 2. -/
def nominalRatio (i : Nat) : Int := if i = 0 then 0 else if i % 2 = 1 then 15 * 2 ^ 27 else -(15 * 2 ^ 27)

/-- The divider ratio of a node level in the set in force, in 2^-31 of its full scale (R402, R408). -/
def State.nodeRatio (s : State) (b i : Nat) : Int := ((s.calh.ratios.get (fun _ => []) b)[i]?).getD (nominalRatio i)

/-- The terms that the intervals i, i + 1 and i + 2 of a channel yield, at the divider ratios r0, r1 and r2 of their levels: d is the mean of u of
each half on level 0, whose true value is O; e makes the two halves alike at the second level; G is the slope between the second and
the third. A result that no term can hold lies outside its range (R408, R113; DEDUCED, log entry 23). -/
def pathTerms (m : Sparse CalSum) (i : Nat) (r0 r1 r2 : Int) : PathTerms :=
  let a (j h : Nat) : CalSum := m.get (fun _ => {}) (2 * (i + j) + h)
  let n (j h : Nat) : Int := Nat.max 1 (a j h).n
  let d (h : Nat) : Int := roundEven (a 0 h).s ((n 0 h).toNat * 2 ^ 62)
  let off (j h : Nat) : Int := (a j h).s - ((a j h).n : Int) * d h * 2 ^ 62
  let e (h : Nat) : Int :=
    let mine := off 1 h * n 1 (1 - h)
    let other := off 1 (1 - h) * n 1 h
    if mine ≤ 0 then 2 ^ 24 else roundEven (2 ^ 31 * (other - mine)) (2 * mine).toNat
  let q (h : Nat) : Int := (2 ^ 31 + e h) * (off 1 h * n 2 h - off 2 h * n 1 h)
  let den := q 0 * (n 1 1 * n 2 1) + q 1 * (n 1 0 * n 2 0)
  let g : Int := if den ≤ 0 then 2 ^ 28
    else roundEven ((r1 - r2) * 2 ^ 125 * (n 1 0 * n 2 0 * n 1 1 * n 2 1)) den.toNat - 2 ^ 31
  { d0 := d 0, e0 := e 0, d1 := d 1, e1 := e 1, g := g, o := r0 }

/-- The new terms of a path of position p from the sums of its intervals, at the divider ratios in force (R408). -/
def State.measuredTerms (s : State) (b p : Nat) (fine : Bool) : PathTerms :=
  let lvl := 1 + 4 * s.effF (Reg.CH_CFG_RANGE (16 * b + p)) + 2 * b2n fine
  pathTerms (s.cal b).sums (3 * b2n fine) (s.nodeRatio b 0) (s.nodeRatio b lvl) (s.nodeRatio b (lvl + 1))

/-- CAL_SPARE_PHASE_END: 288 slots after a spare phase began the spare's terms of the range are set, and the next range or the first
channel follows (R405). -/
def execCalSparePhaseEnd (b : Fin 24) (s : State) : Res :=
  let k := s.cal b
  match k.ranges with
  | [] => .next s
  | r :: rest =>
    if k.stage = 1 ∧ k.t0 + 288 ≤ s.now ∧ k.abandon = false then
      let tr := s.cur == 2
      let s1 := (s.newTerms b (16 + r) false tr).newTerms b (16 + r) true tr
      let k1 : CalSt := { k with ranges := rest, t0 := k.t0 + 288, stage := if rest.isEmpty then 2 else 1 }
      let s2 := s1.setCal b k1
      match rest with
      | r2 :: _ => .next (s2.spareToNode b r2)
      | [] => .next (s2.setBk b { s2.bk b with node := false })
    else .next s

/-- CAL_CHANNEL_START: at t0 the crosspoint goes to the position of the next channel (R406, R70). -/
def execCalChannelStart (b : Fin 24) (s : State) : Res :=
  let k := s.cal b
  match k.chans with
  | [] => .next s
  | p :: _ =>
    if k.stage = 2 ∧ k.step = 3 ∧ k.t0 ≤ s.now ∧ k.abandon = false then
      let k1 : CalSt := { k with step := 0, ext := 0, overlap := [], interval := 0, sums := [], refused := false }
      .next (((((s.setCal b k1).setF (Reg.BANK_SPARE_CONN b) 1).setF (Reg.BANK_SPARE_POS b) p).setF (Reg.BANK_CAL_STATE b) 2).setF
        (Reg.BANK_CAL_POS b) p |>.setF (Reg.BANK_CAL_EXT b) 0)
    else .next s

/-! ### The first overlap (R407) -/

/-- The least-squares gain of own on spare as a fraction: n·Σxy − Σx·Σy over n·Σxx − (Σx)², 1 where the own values span less than
2^-6 of coarse full scale or the spare values do not vary (R407; DEDUCED, log entry 24). -/
def fitGain (l : List (Int × Int)) : Int × Nat :=
  let n : Int := l.length
  let ys := l.map (fun q => q.1)
  let span := (ys.foldl (fun m y => if m < y then y else m) (-2147483648)) - (ys.foldl (fun m y => if y < m then y else m) 2147483647)
  let sx := (l.map (fun q => q.2)).sum
  let sy := ys.sum
  let sxy := (l.map (fun q => q.1 * q.2)).sum
  let sxx := (l.map (fun q => q.2 * q.2)).sum
  let den := n * sxx - sx * sx
  if span < 2 ^ 25 ∨ den ≤ 0 then (1, 1) else (n * sxy - sx * sy, den.toNat)

/-- The substitution of a position by its overlap: a by `fitGain`, b the mean of own − a·spare, from `first` to `last`
(R407). -/
def matchOf (l : List (Int × Int)) (p first last : Nat) : Subst :=
  let (an, ad) := fitGain l
  let sx := (l.map (fun q => q.2)).sum
  let sy := (l.map (fun q => q.1)).sum
  { pos := p, first := first, last := some last, an := an, ad := ad, bn := sy * (ad : Int) - an * sx, bd := ad * Nat.max 1 l.length }

/-- A channel of the pass is behind: the next one begins 4,256 slots after its t0. -/
def State.nextChannel (s : State) (b : Nat) : State :=
  let k := s.cal b
  s.setCal b { k with chans := k.chans.drop 1, t0 := k.t0 + 4256, step := 3 }

/-- FIRST_OVERLAP_END: with 32 usable slots or more the substitution begins at t0 + 96; else the overlap is extended by 64
slots, and after four extensions the channel is skipped (R407). The schedule of later channels stands
(DEDUCED, log entry 24). -/
def execFirstOverlapEnd (b : Fin 24) (s : State) : Res :=
  let k := s.cal b
  match k.chans with
  | [] => .next s
  | p :: _ =>
    let c := 16 * b.val + p
    if k.stage = 2 ∧ k.step = 0 ∧ k.t0 + 96 ≤ s.now ∧ k.abandon = false then
      if 32 ≤ k.overlap.length then
        let x := s.bk b
        let u := matchOf k.overlap p (k.t0 + 96) (k.t0 + 4255)
        let k1 : CalSt := { k with step := 1, interval := 0, overlap := [], sums := [] }
        .next ((s.setBk b { x with subs := u :: x.subs }).setCal b k1)
      else if k.ext < 4 then
        .next (((s.setCal b { k with ext := k.ext + 1, t0 := k.t0 + 64 }).setF (Reg.BANK_CAL_EXT b) (capAt 3 (k.ext + 1))).log
          .CAL_EXTEND c [BitVec.ofNat 64 s.now])
      else
        .next (((((s.setCal b { k with failed := k.failed + 1 }).nextChannel b).setF (Reg.BANK_SPARE_CONN b) 0).bump
          Reg.CAL_CNT_SKIPS).log .CAL_SKIP c [BitVec.ofNat 64 s.now])
    else .next s

/-! ### The intervals (R408) -/

/-- The RMS deviation of an interval exceeds 4 LSB of the converted path, each half taken about its own mean
(R408; DEDUCED, log entry 25). -/
def intervalNoisy (m : Sparse CalSum) (i : Nat) : Bool :=
  let a := m.get (fun _ => {}) (2 * i)
  let b := m.get (fun _ => {}) (2 * i + 1)
  let na : Int := Nat.max 1 a.n
  let nb : Int := Nat.max 1 b.n
  decide (2 ^ 156 * ((a.n + b.n : Nat) : Int) * na * nb < (na * a.s2 - a.s * a.s) * nb + (nb * b.s2 - b.s * b.s) * na)

/-- The terms of a path lie in the ranges of R113. -/
def BankSt.termsInRange (x : BankSt) (p : Nat) (fine : Bool) : Bool :=
  let t := x.scales.get (fun _ => {}) (scaleKey p fine)
  decide (t.g.natAbs ≤ 2 ^ 27) && decide (t.o.natAbs ≤ 2 ^ 24) && [0, 1].all (fun h =>
    let y := x.halves.get (fun _ => {}) (halfKey p fine h)
    decide (y.d.natAbs ≤ 2 ^ 26) && decide (y.e.natAbs ≤ 2 ^ 23))

/-- The sum of VALUE over an interval under the terms of a path, in units of 2^-149 (fine) or 2^-144 (coarse), with its
count (R113). -/
def BankSt.intervalSum (x : BankSt) (m : Sparse CalSum) (i p : Nat) (fine : Bool) : Int × Nat :=
  let t := x.scales.get (fun _ => {}) (scaleKey p fine)
  let den : Int := if fine then 2 ^ 149 else 2 ^ 144
  [0, 1].foldl (fun r h =>
    let a := m.get (fun _ => {}) (2 * i + h)
    let y := x.halves.get (fun _ => {}) (halfKey p fine h)
    (r.1 + (2 ^ 31 + t.g) * 2 ^ 20 * (2 ^ 31 + y.e) * (a.s - (a.n : Int) * y.d * 2 ^ 62) + (a.n : Int) * t.o * den, r.2 + a.n)) (0, 0)

/-- Interval 6 on the coarse path disagrees with the fine result of interval 4 by more than 2^-20 of coarse full scale
(R408, R114). -/
def BankSt.pathsDisagree (x : BankSt) (m : Sparse CalSum) (p : Nat) : Bool :=
  let (f, nf) := x.intervalSum m 4 p true
  let (c, nc) := x.intervalSum m 6 p false
  decide (2048 * (nf * nc * 2 ^ 149 : Nat) < (f * (nc : Int) - 32 * c * (nf : Int)).natAbs)

/-- The former terms of a position return. -/
def State.restoreTerms (s : State) (b p : Nat) : State :=
  let k := s.cal b
  let x := s.bk b
  let hv := [halfKey p false 0, halfKey p false 1, halfKey p true 0, halfKey p true 1].foldl
    (fun m i => m.set (fun _ => {}) i (k.oldHalves.get (fun _ => {}) i)) x.halves
  let sv := [scaleKey p false, scaleKey p true].foldl (fun m i => m.set (fun _ => {}) i (k.oldScales.get (fun _ => {}) i)) x.scales
  s.setBk b { x with halves := hv, scales := sv }

/-- A refused result of a channel: reported, counted, the old terms kept; in Acclimatise it is marked untraced (R408, R412). -/
def State.refuseResult (s : State) (b p : Nat) (c : Cond) (items : List W64) : State :=
  let s1 := ((s.restoreTerms b p).log c (16 * b + p) items).bump Reg.CAL_CNT_REFUSED
  let k := s1.cal b
  let s2 := s1.setCal b { k with refused := true, failed := k.failed + 1 }
  if s2.cur = 2 then
    let x := s2.bk b
    let sv := [scaleKey p false, scaleKey p true].foldl (fun m i =>
      m.set (fun _ => {}) i { m.get (fun _ => {}) i with traced := false }) x.scales
    s2.setBk b { x with scales := sv }
  else s2

/-- The result of a channel judged at the end of interval 6: the terms that its intervals yield, refused with CAL_RANGE or CAL_NOISY (R408). Two CAL_RANGE in
consecutive passes are kept for CH_STAGE_FAULT (R435). -/
def State.judgeResult (s : State) (b p : Nat) : State :=
  let x := s.bk b
  let k := s.cal b
  let s1 := s.setCal b { k with oldHalves := x.halves, oldScales := x.scales }
  let tr (fine : Bool) : Bool := s.cur == 2 || (x.scales.get (fun _ => {}) (scaleKey p fine)).traced
  let s2 := (s1.putTerms b p false (tr false) (s.measuredTerms b p false)).putTerms b p true (tr true) (s.measuredTerms b p true)
  let y := s2.bk b
  let bad := !(y.termsInRange p false && y.termsInRange p true)
  let noisy := [0, 1, 2, 3, 4, 5, 6].any (fun i => intervalNoisy k.sums i)
  let apart := y.pathsDisagree k.sums p
  let range := bad || (!noisy && apart)
  let mark (t : State) : State :=
    let q := t.cal b
    t.setCal b { q with
      rangeTwice := withBit q.rangeTwice p (range && q.rangeRef.testBit p), rangeRef := withBit q.rangeRef p range }
  mark (if bad then s2.refuseResult b p .CAL_RANGE [] else if noisy then s2.refuseResult b p .CAL_NOISY []
    else if apart then s2.refuseResult b p .CAL_RANGE [] else s2)

/-- CAL_INTERVAL_END: an interval of 512 slots ends: the next node level follows; after interval 6 the result is judged, after
interval 7 the second overlap begins with the own path under its new terms (R408, R409). -/
def execCalIntervalEnd (b : Fin 24) (s : State) : Res :=
  let k := s.cal b
  match k.chans with
  | [] => .next s
  | p :: _ =>
    if k.stage = 2 ∧ k.step = 1 ∧ k.t0 + 96 + 512 * (k.interval + 1) ≤ s.now ∧ k.abandon = false then
      if k.interval = 7 then .next (s.setCal b { k with step := 2, overlap := [] })
      else
        let s1 := if k.interval = 6 then s.judgeResult b p else s
        .next (s1.setCal b { s1.cal b with interval := k.interval + 1 })
    else .next s

/-! ### The second overlap and the end of a pass (R409, R406) -/

/-- SECOND_OVERLAP_END: at t0 + 4,256 the new terms apply, unless the mean of own − (a·spare + b) over 32 or more usable slots
exceeds 2^-16 of coarse full scale in magnitude: CAL_OUTLIER, and the old terms return (R409). -/
def execSecondOverlapEnd (b : Fin 24) (s : State) : Res :=
  let k := s.cal b
  match k.chans with
  | [] => .next s
  | p :: _ =>
    if k.stage = 2 ∧ k.step = 2 ∧ k.t0 + 4256 ≤ s.now ∧ k.abandon = false then
      if k.refused then .next (s.nextChannel b)
      else
        let n := k.overlap.length
        let sum := (k.overlap.map (fun q => q.1 - q.2)).sum
        let mean := roundEven sum (Nat.max 1 n)
        if 32 ≤ n ∧ n * 2 ^ 15 < sum.natAbs then
          .next ((s.refuseResult b p .CAL_OUTLIER [W64.ofInt mean]).nextChannel b)
        else
          let d := if n < 32 then 0 else mean.natAbs
          .next ((s.setCal b { k with done := k.done ++ [p], moved := if k.moved < d then d else k.moved }).nextChannel b)
    else .next s

/-- CAL_PASS_END: after the last channel the crosspoint is released, the pass is logged with its final slot, BANK_CALSLOT is set,
the largest correction is reported and the result waits for flash (R405, R406, R409). -/
def execCalPassEnd (b : Fin 24) (s : State) : Res :=
  let k := s.cal b
  if k.stage = 2 ∧ k.step = 3 ∧ k.chans = [] ∧ k.t0 ≤ s.now ∧ k.abandon = false then
    let s1 := (((s.setF (Reg.BANK_SPARE_CONN b) 0).setF (Reg.BANK_SPARE_CAL b) 0).setReg (Reg.BANK_CAL b) 0).setReg
      (Reg.BANK_CALSLOT b) (BitVec.ofNat 64 s.now)
    let s2 := ((s1.setActive b false).bump Reg.CAL_CNT_PASSES).log .CAL_PASS_END b [BitVec.ofNat 64 s.now]
    let s3 := if k.done.isEmpty then s2 else s2.log .CAL_APPLIED b [BitVec.ofNat 64 k.moved]
    let s4 := (s3.setCal b { k with stage := 0, again := false, acc := false, lastDone := s.upSlots }).storeResult b
    .next (if k.again then s4.setDue b true else s4)
  else .next s

/-- In steps 1 to 4 of Acclimatise the controller holds the spare of a bank, which measures REFCAL on range 0, unless the spare still
delivers a channel (R72, R411, R412). -/
def State.accSpare (s : State) (b : Nat) : State :=
  let k := s.cal b
  let step := s.getF Reg.CAL_STAT_ACC_STEP
  if s.cur = 2 ∧ 1 ≤ step ∧ step ≤ 4 ∧ k.stage = 0 ∧ k.subEnd = none ∧ k.suspended = false then
    let s1 := (s.setF (Reg.BANK_SPARE_CONN b) 0).setF (Reg.BANK_SPARE_CAL b) 1
    s1.setBk b { s1.bk b with node := true, spareRange := 0 }
  else s

/-- CAL_ABANDON: at the next slot boundary a a pass asked to end is abandoned: a channel in substitution is reconnected to its pins
with its old terms and delivered from the spare through a + 511, completed channels keep their terms and are stored,
the bank stays due (R411). -/
def execCalAbandon (b : Fin 24) (s : State) : Res :=
  let k := s.cal b
  if k.stage ≠ 0 ∧ k.abandon = true then
    let a := s.now
    let p := k.chans.headD 0
    let on := k.stage = 2 ∧ (k.step = 1 ∨ k.step = 2)
    let sub := on ∧ k.suspended = false
    let s0 := if on ∧ k.refused = false ∧ (k.step = 2 ∨ k.interval = 7) then s.restoreTerms b p else s
    let x := s0.bk b
    let subs := if sub then
      (match x.subs with
        | u :: r => { u with last := some (a + 511) } :: r
        | [] => []) else x.subs
    let s1 := s0.setBk b { x with subs := subs, node := false }
    let s2 := (if sub ∨ k.suspended = true then s1 else (s1.setF (Reg.BANK_SPARE_CONN b) 0).setF (Reg.BANK_SPARE_CAL b) 0).setReg (Reg.BANK_CAL b) 0
    let s3 := ((s2.setActive b false).bump Reg.CAL_CNT_ABANDONS).log .CAL_ABANDON b
      [BitVec.ofNat 64 a, BitVec.ofNat 64 (16 * b.val + p)]
    let s4 := s3.setCal b { k with stage := 0, abandon := false, again := false, subEnd := if sub then some (a + 512) else none }
    let s5 := if k.done.isEmpty then s4 else s4.storeResult b
    .next ((s5.setDue b true).accSpare b)
  else .next s

/-- SUBSTITUTION_END: 512 slots after an abandonment the channel is back on its own path and the crosspoint is released
(R411). -/
def execSubstitutionEnd (b : Fin 24) (s : State) : Res :=
  let k := s.cal b
  match k.subEnd with
  | some t =>
    if t ≤ s.now then
      .next ((((s.setCal b { k with subEnd := none }).setF (Reg.BANK_SPARE_CONN b) 0).setF (Reg.BANK_SPARE_CAL b) (b2n k.suspended)).accSpare b)
    else .next s
  | none => .next s

/-! ### Acclimatise (R412, R413) -/

/-- The banks that take part in the chain: not left out as deviant, not suspended. -/
def State.accBanks (s : State) : List Nat :=
  (List.range 24).filter (fun b => !s.calh.deviant.contains b && !(s.cal b).suspended)

/-- The standard check failed for some bank whose spare is free for it: the mean of its 2,048 spare values differs from CAL_EXTREF (nV on a coarse full scale of
2.5 V) by more than 0.1 %, or CAL_EXTREF lies outside 1.000 V to 2.450 V (R412, R413). -/
def State.standardFails (s : State) : Bool :=
  let e := s.getF Reg.CAL_EXTREF_VALUE
  decide (e < 1000000000) || decide (2450000000 < e) || (List.range 24).any (fun b =>
    let (n, sum) := s.calh.check.get (fun _ => (0, 0)) b
    !(s.cal b).suspended && (n == 0 || decide (n * e * 2 ^ 31 < 1000 * (sum * 2500000000 - (n * e * 2 ^ 31 : Nat)).natAbs)))

/-- The spare of a bank is taken off REFCAL; the controller lets it go unless a pass or a channel still holds it (R72, R412). -/
def State.accRelease (s : State) (b : Nat) : State :=
  let k := s.cal b
  let s1 := s.setBk b { s.bk b with node := false }
  if k.stage = 0 ∧ k.subEnd = none ∧ k.suspended = false then s1.setF (Reg.BANK_SPARE_CAL b) 0 else s1

/-- The chain of Acclimatise is over: no step, no spare on REFCAL, no bank still to do (R412). -/
def State.accEnd (s : State) : State :=
  let s1 := s.setF Reg.CAL_STAT_ACC_STEP 0
  (List.range 24).foldl (fun t b => (t.accRelease b).setCal b { t.cal b with acc := false }) s1

/-- The chain ends and the mode returns to PRIOR at the next slot boundary, without notice: program slots from there on are squashed; unless a
request to PRIOR is pending already (R35, R173). -/
def State.endChain (s : State) : State :=
  let s2 := s.accEnd
  if s2.flag Reg.SYS_MODE_PENDV then s2 else (s2.pendMode s2.prior (some (s2.now + 1)) 7 2).squashMode (s2.now + 1)

/-- The middle one of numbers in rising order (R412, the median over the banks). -/
def insertSorted (x : Nat) : List Nat → List Nat
  | [] => [x]
  | y :: r => if x ≤ y then x :: y :: r else y :: insertSorted x r

/-- The median of numbers, the mean of the two middle ones rounded down where their count is even. -/
def median (l : List Nat) : Nat :=
  let q := l.foldl (fun a x => insertSorted x a) []
  let n := q.length
  if n % 2 = 1 then q.getD (n / 2) 0 else (q.getD (n / 2 - 1) 0 + q.getD (n / 2) 0) / 2

/-- Step 2 of R412: V_ref of every bank (a free value, log entry 23), their median for the internal reference, the banks more than
4 ppm off it left out. -/
def State.referenceTransfer (s : State) : State :=
  let s1 := (List.range 24).foldl (fun t b => let f := t.free; f.2.setF (Reg.BANK_VREF_VALUE b) (f.1.toNat % 2 ^ 32)) s
  let internal := (List.range 24).filter (fun b => s1.effF (Reg.BANK_REF_SEL b) == 0)
  let m := median (internal.map (fun b => s1.getF (Reg.BANK_VREF_VALUE b)))
  let bad := internal.filter (fun b =>
    decide (4 * m < 1000000 * ((s1.getF (Reg.BANK_VREF_VALUE b) : Int) - (m : Int)).natAbs))
  let s2 := if internal.isEmpty then s1 else s1.setF Reg.CAL_VINT_VALUE m
  let s3 := s2.setCalh { s2.calh with deviant := bad }
  bad.foldl (fun t b => t.log .CAL_BANK_DEVIANT b []) s3

/-- Step 3 of R412: the thirteen divider ratios of every bank that is not left out, free values (log entry 23). -/
def State.dividerRatios (s : State) : State :=
  s.accBanks.foldl (fun t b =>
    let r := (List.range 13).foldl (fun (q : List Int × State) _ => let f := q.2.freeIn (2 ^ 31); (q.1 ++ [f.1], f.2)) ([], t)
    r.2.setCalh { r.2.calh with ratios := r.2.calh.ratios.set (fun _ => []) b r.1 }) s

/-- Step 4 of R412: a fast channel with EN = 0 takes new terms, free values in their ranges; one with EN = 1 keeps its terms, logged
as CAL_FC_SKIPPED. -/
def State.fastTerms (s : State) : State :=
  (List.range 8).foldl (fun t k =>
    if t.effFlag (Reg.FC_CFG_EN k) then t.log .CAL_FC_SKIPPED k []
    else
      let (g, t1) := t.freeIn (2 ^ 27)
      let (o, t2) := t1.freeIn (2 ^ 20)
      let f := t2.free
      ((f.2.setS (Reg.FC_CAL_GAIN k) g).setS (Reg.FC_CAL_OFFS k) o).setF (Reg.FC_CSKEW_SKEW k) (f.1.toNat % 65536)) s

/-- Acclimatise begins: rolling passes are abandoned, the controller takes the spares, logging BANK_SPARE_PREEMPT where one was connected
by hand, and they go to REFCAL on range 0 (R72, R412). -/
def State.accBegin (s : State) : State :=
  let s1 := (s.abandonAll.setF Reg.CAL_STAT_ACC_STEP 1).setCalh { s.calh with check := [], deviant := [] }
  (List.range 24).foldl (fun t b =>
    let t1 := if t.effFlag (Reg.BANK_SPARE_CONN b) && !t.flag (Reg.BANK_SPARE_CAL b) then t.log .BANK_SPARE_PREEMPT b [BitVec.ofNat 64 t.now] else t
    (t1.setCal b { t1.cal b with failed := 0 }).accSpare b) s1

/-- The steps of Acclimatise by the slots since its entry: 1 for 2,048 slots, 2 for 16,384, 3 for 13 · 1,024, 4 up to 37,888 in
all, then the channels' passes (R412). Called at every slot boundary. -/
def State.accStep (s : State) : State :=
  if s.cur ≠ 2 then s
  else
    let t := s.now - (s.reg Reg.SYS_MODE_SLOT).toNat
    let st := s.getF Reg.CAL_STAT_ACC_STEP
    if st = 1 ∧ 2048 ≤ t then
      if s.standardFails then (s.log .CAL_EXTREF_MISMATCH 0 []).endChain else s.setF Reg.CAL_STAT_ACC_STEP 2
    else if st = 2 ∧ 18432 ≤ t then s.referenceTransfer.setF Reg.CAL_STAT_ACC_STEP 3
    else if st = 3 ∧ 31744 ≤ t then s.dividerRatios.setF Reg.CAL_STAT_ACC_STEP 4
    else if st = 4 ∧ 37888 ≤ t then
      let s1 := s.fastTerms.setF Reg.CAL_STAT_ACC_STEP 5
      let s2 := (List.range 24).foldl (fun u b => u.accRelease b) s1
      s2.accBanks.foldl (fun u b => u.setCal b { u.cal b with acc := true }) s2
    else s

/-- CAL_ACC_DONE: when every remaining bank has run its pass, the full set is stored, CAL_ACCSLOT is set, the numbers of banks and
channels that failed are logged and the mode returns to PRIOR (R412). -/
def execCalAccDone (s : State) : Res :=
  if s.cur = 2 ∧ s.getF Reg.CAL_STAT_ACC_STEP = 5 ∧ (List.range 24).all (fun b => !(s.cal b).acc && (s.cal b).stage == 0) = true then
    let failed := ((List.range 24).map (fun b => (s.cal b).failed)).sum
    let s1 := (s.setReg Reg.CAL_ACCSLOT (BitVec.ofNat 64 s.now)).setCalh { s.calh with compact := true }
    .next ((s1.log .CAL_ACC_DONE 0 [BitVec.ofNat 64 s.calh.deviant.length, BitVec.ofNat 64 failed]).endChain)
  else .next s

/-! ### Register writes of this chapter -/

/-- The tests of a write to CAL_CFG. -/
def checkCalCfg (v : W64) : Option Cond :=
  firstFail [(decide (5 ≤ bits v 47 40) && decide (bits v 47 40 ≤ 200), .CAL_TDELTA_RANGE),
    (decide (1 ≤ bits v 36 32) && decide (bits v 36 32 ≤ 24), .CAL_CONC_RANGE)]

end Sys2Proof.Machine
end

