-- ==== Sys2Proof/Machine/Sample.lean ====
section
/-!
DEFINITION. Sys2Proof/Machine/Sample.lean: the way of a sample: raw values of the banks and of the fast-channel pipeline, output
and detector words in the output buffer, decimated triggers, and the fast converters (R109, R111, R113, R116, R120 to
R122, R132, R141 to R150, R218, R222, R381, R407 to R410).
-/
namespace Sys2Proof.Machine
open Sys2Proof

/-! ### Raw values of a bank (R109, R113, R407, R410) -/

/-- No raw sample of slot n: the bank is stopped by a fault in it (R436). -/
def BankSt.missing (x : BankSt) (n : Nat) : Bool :=
  x.gaps.any (fun g => decide (g.1 ≤ n) && (match g.2 with
    | some l => decide (n ≤ l)
    | none => true))

/-- Raw slot n of the bank lies in a HANDOVER window (R396). -/
def BankSt.handoverAt (x : BankSt) (n : Nat) : Bool :=
  x.hand.any (fun g => decide (g.1 ≤ n) && (match g.2 with
    | some l => decide (n ≤ l)
    | none => true))

/-- WIRE and EXLIM of a channel's raw slot; in Belay as the mirrored state of the channel gives them (R83, R92, R381). -/
def State.wireExlim (s : State) (c n : Nat) : Bool × Bool :=
  if s.belay then
    (s.mirF (Reg.CH_STATUS_WB_EXC c) == 1 || s.mirF (Reg.CH_STATUS_WB_SENSE c) == 1,
     s.mirF (Reg.CH_STATUS_DRIVE_OFF c) == 1 || s.mirF (Reg.CH_STATUS_ILIM c) == 1)
  else ((s.ch c).wireAt n, (s.ch c).exlimAt n)

/-- The raw flags of a channel's raw slot: WIRE COARSE SUBST HANDOVER EXLIM TUNL in bits 6 to 1 (R13, R252). -/
def rawFlags (wire coarse subst hand exlim tunl : Bool) : Nat :=
  64 * b2n wire + 32 * b2n coarse + 16 * b2n subst + 8 * b2n hand + 4 * b2n exlim + 2 * b2n tunl

/-- Raw samples older than any window reaches are let go: the longest window holds 259 · 2,048 + 2 slots, and detectors keep
output words (R132). -/
def FltSt.putRaw (f : FltSt) (n : Nat) (r : Raw) : FltSt :=
  { f with raws := Sparse.set (fun _ => none) (f.raws.filter (fun e => decide (n < e.1 + 600000))) n (some r) }

/-- The raw sample of position p of bank b in the slot of a plan: from the spare path while a substitution names it, else its own
path; none where the path delivered no value. -/
def State.rawOf (s : State) (x : BankSt) (pl : SlotPlan) (b p : Nat) (clip : Bool) : Option Raw :=
  let c := 16 * b + p
  let n := pl.slot
  let (wire, exlim) := s.wireExlim c n
  let hand := x.handoverAt n
  match x.substAt p n with
  | some u => (x.spareValue pl).map (fun v =>
      { value := u.apply v.1, flags := rawFlags wire false true hand exlim (!s.lockedAt n), refu := pl.refu, clip := clip })
  | none => (x.ownValue pl p).map (fun v =>
      { value := v.1, flags := rawFlags wire (pl.coarse.testBit p) false hand exlim (!s.lockedAt n), refu := pl.refu, clip := clip })

/-- The own and spare values of a slot enter the sums of offset tracking by path and half (R111). -/
def BankSt.track (x : BankSt) (pl : SlotPlan) : BankSt :=
  let add (m : Sparse HalfSums) (p : Nat) (v : Option (Int × Bool)) : Sparse HalfSums :=
    match v with
    | some (a, fine) => m.modify (fun _ => {}) (scaleKey p fine) (fun h => h.add pl.slot a)
    | none => m
  let m := positions.foldl (fun m p => add m p (x.ownValue pl p)) x.sums
  { x with sums := add m (16 + pl.spareRange) (x.spareValue pl) }

/-- What a slot's values give the calibration of the bank: an overlap pair where the slot is usable, or u of the converted own path
past the first 32 slots of an interval (R407 to R409). -/
def State.calSample (s : State) (b : Nat) (x : BankSt) (pl : SlotPlan) : State :=
  let k := s.cal b
  let n := pl.slot
  match k.chans with
  | [] => s
  | p :: _ =>
    if k.stage ≠ 2 then s
    else
      let (wire, exlim) := s.wireExlim (16 * b + p) n
      let usable := !wire && !exlim && !x.handoverAt n
      if k.step = 0 ∧ k.t0 + 32 ≤ n + 64 * k.ext ∧ n < k.t0 + 96 then
        match x.ownValue pl p, x.spareValue pl with
        | some o, some v => if usable then s.setCal b { k with overlap := (o.1, v.1) :: k.overlap } else s
        | _, _ => s
      else if k.step = 2 ∧ k.t0 + 4192 ≤ n ∧ n < k.t0 + 4256 then
        match x.ownValue pl p, x.spareValue pl, x.substAt p n with
        | some o, some v, some u => if usable then s.setCal b { k with overlap := (o.1, u.apply v.1) :: k.overlap } else s
        | _, _, _ => s
      else if k.t0 + 96 ≤ n ∧ 32 ≤ (n - (k.t0 + 96)) % 512 then
        match pl.calOwn, pl.codes.get (fun _ => none) p with
        | some _, some c =>
          let u := sliceU (pl.slices.get (fun _ => {}) (sliceOf (p % 4) n)) (signed 18 c.toNat)
          let i := 2 * ((n - (k.t0 + 96)) / 512) + n % 2
          s.setCal b { k with sums := k.sums.modify (fun _ => {}) i (fun a => { n := a.n + 1, s := a.s + u, s2 := a.s2 + u * u }) }
        | _, _ => s
      else s

/-- The spare's values of the standard check of Acclimatise (R412, step 1). -/
def State.checkSample (s : State) (b : Nat) (x : BankSt) (pl : SlotPlan) : State :=
  if s.cur = 2 ∧ s.getF Reg.CAL_STAT_ACC_STEP = 1 ∧ pl.spareNode = true then
    match x.spareValue pl with
    | some v =>
      s.setCalh { s.calh with check := s.calh.check.modify (fun _ => (0, 0)) b (fun a => (a.1 + 1, a.2 + v.1)) }
    | none => s
  else s

/-- The raw values of the slot before, of bank b, enter the pipeline (R109). -/
def State.rawBank (s : State) (b : Nat) (clip : BitVec 16) : State :=
  let x := s.bk b
  let pl := x.prev
  let n := pl.slot
  if pl.live && pl.judged && decide (n + 1 = s.now) && s.heldAt n && !x.missing n then
    let s1 := (s.enabledPos b).foldl (fun t p =>
      let c := 16 * b + p
      let cl := clip.toNat.testBit p
      let t1 := t.setF (Reg.CH_STATUS_CLIP c) (b2n cl)
      let t2 := if cl then t1.setF (Reg.CH_STATUS_CLIP_SEEN c) 1 else t1
      match t2.rawOf x pl b p cl with
      | some r =>
        let low := pl.clip.testBit p && decide (r.value.natAbs ≤ 2 ^ 25)
        let t3 := t2.setCh c { t2.ch c with clipRun := if low then (t2.ch c).clipRun + 1 else 0 }
        (t3.setFlt c ((t3.flt c).putRaw n r)).senseSample c n r.value
      | none => t2) s
    let s2 := s1.setBk b { x.track pl with prev := { pl with live := false } }
    (s2.calSample b x pl).checkSample b x pl
  else s

/-! ### The fast-channel pipeline (R120, R150) -/

/-- VALUE of a fast channel's code: sat32(round(G_fc · f · 2^16 + O_fc)) (R120). -/
def State.fastValue (s : State) (k : Nat) (f : Int) : Int :=
  satS 32 (roundEven ((2 ^ 31 + s.getS (Reg.FC_CAL_GAIN k)) * f * 2 ^ 16 + s.getS (Reg.FC_CAL_OFFS k) * 2 ^ 31) (2 ^ 31))

/-- The weight of a code d edges before the newest in five cascaded boxcars of 100 edges (R150). -/
def cic5Weight (d : Nat) : Int :=
  let c (n : Int) : Int := if n < 0 then 0 else (n + 4) * (n + 3) * (n + 2) * (n + 1) / 24
  let e (i : Nat) : Int := c ((d : Int) - ((i * 100 : Nat) : Int))
  e 0 - 5 * e 1 + 10 * e 2 - 10 * e 3 + 5 * e 4 - e 5

/-- The CIC output whose last boxcar ends at edge t: the exact sum times the 32-bit reciprocal 3,689,348,815 / 2^65 of 100^5,
rounded to 8 fraction bits (R150; DEDUCED, log entry 26). -/
def State.fastCic (s : State) (k : Nat) (t : Int) : Int :=
  let sum := ((List.range 496).map (fun d : Nat => cic5Weight d * s.fastValue k ((s.fastCode k (t - (d : Int)).toNat).getD 0))).sum
  satS 40 (roundEven (sum * 3689348815) (2 ^ 57))

/-- Tap j of the 32-tap linear-phase FIR at 1 MS/s, in 2^-23 (R150). -/
def fastFirTap (j : Nat) : Int := signed 24 (Config.fastTap (if j < 16 then j else 31 - j)).toNat

/-- The FIR output at sample j of the 1 MS/s grid, edge 100 · j (R150). -/
def State.fastFir (s : State) (k : Nat) (j : Int) : Int :=
  satS 40 (roundEven (((List.range 32).map (fun i : Nat => fastFirTap i * s.fastCic k (100 * (j - (i : Int))))).sum) (2 ^ 23))

/-- The raw value of slot n of a fast channel: the quintic interpolation at the hold instant of slot n − 6, moved by the 247.5
edges of the CIC and the 15.5 µs of the FIR; none while the codes it needs are not all taken
(R150; DEDUCED, log entry 26). -/
def State.fastRaw (s : State) (k n : Nat) : Option Int :=
  match s.holdOf (n - 6) with
  | none => none
  | some h =>
    let t := h + 3681280
    let i := t / 204800
    let mu := t % 204800 * 65536 / 204800
    let oldest := 100 * (i - 33) - 495
    let newest := 100 * (i + 3)
    if (s.fastCode k oldest).isSome && (s.fastCode k newest).isSome then
      some (satS 32 (roundEven (quintic mu (fun d => s.fastFir k ((i : Int) + d))) (2 ^ 8)))
    else none

/-- The raw values of the fast channels for the slot before (R150). -/
def State.rawFast (s : State) : State :=
  let n := s.now - 1
  if s.heldAt n then
    (List.range 8).foldl (fun t k =>
      if t.effFlag (Reg.FC_CFG_EN k) then
        match t.fastRaw k n with
        | some v =>
          let c := 384 + k
          t.setFlt c ((t.flt c).putRaw n { value := v, flags := rawFlags false false false false false (!t.lockedAt n), refu := !t.fabric.fastSettled, clip := false })
        | none => t
      else t) s
  else s

/-- RAW_VALUE_TO_PIPELINE: at tick 3,200 of slot n + 1 all values of slot n of a bank (24: of the fast channels) are at the filter
pipeline input with their raw flags; `inputClip` says which inputs lay beyond the range of R63 at the hold instant
(R109, R150). -/
def execRawValueToPipeline (p : Fin 25) (inputClip : BitVec 16) (s : State) : Res :=
  if p.val = 24 then .next s.rawFast else .next (s.rawBank p inputClip)

/-- FAST_CONVERTER_SAMPLE: at a fast converter clock edge the eight channels take a code each (16 bits, channel 0 lowest); the
codes taken 14 edges before reach the capture engine, which writes a frame for each record that holds it; a code at an
end of the range is an overrange of the slot. In Descent they go on while a record is OPEN, which runs to its close (R40, R120 to R122,
R222, R233). Whether FC_CFG.EN is set makes no difference to the codes taken and the overranges counted (DESIGN CHOICE, log
entry 89). -/
def execFastConverterSample (codes : BitVec 128) (s : State) : Res :=
  if s.cur = 0 ∨ (s.cur = 7 ∧ s.anyOpen = false) then .next s
  else
    let e := s.edgeNow
    let s1 := (List.range 8).foldl (fun t k =>
      let v := signed 16 (codes.toNat / 2 ^ (16 * k))
      let f := t.fasts.get (fun _ => {}) k
      let g : FastSt := { f with codes := (e, v) :: f.codes.take 8191, railed := f.railed || overCode v }
      { t with fasts := t.fasts.set (fun _ => {}) k g }) s
    .next ((List.range 8).foldl (fun t u => t.writeFrame (e - 14) u) s1)

/-- At the end of a slot FC_STATUS shows whether it held an overrange (R121). -/
def State.fastOverrange (s : State) : State :=
  (List.range 8).foldl (fun t k =>
    let f := t.fasts.get (fun _ => {}) k
    let t1 := t.setF (Reg.FC_STATUS_OVR k) (b2n f.railed)
    let t2 := if f.railed then (t1.setF (Reg.FC_STATUS_OVR_SEEN k) 1).bump (Reg.FC_STATUS_OVR_SLOTS k) else t1
    { t2 with fasts := t2.fasts.set (fun _ => {}) k { f with railed := false } }) s

/-! ### The output buffer (R148, R149) -/

/-- A word of a kind enters its ring of 8; the word it replaces is remembered as gone (R149, R200). -/
def FltSt.putWord (f : FltSt) (kind m : Nat) (w : W64) : FltSt :=
  { f with bufs := f.bufs.modify (fun _ => {}) kind (fun r =>
      { ring := ((m, w) :: r.ring).take 8, gone := (r.ring.drop 7).map (fun e => e.1) ++ r.gone }) }

/-- The word of a kind at an instant, if the ring still holds it. -/
def FltSt.word (f : FltSt) (kind m : Nat) : Option W64 :=
  (((f.bufs.get (fun _ => {}) kind).ring.find? (fun e => e.1 == m))).map (fun e => e.2)

/-- The output words of a detector window: those after instant `lo` up to m that were formed under the restarted detectors. -/
def FltSt.windowOuts (f : FltSt) (e : FltEntry) (lo m : Int) : List Out :=
  f.outs.filter (fun o => decide (lo < (o.at_ : Int)) && decide ((o.at_ : Int) ≤ m) && o.det == e.det)

/-- The detector instant at or before m less one window, after which the window of m begins (R142, R147). -/
def FltEntry.windowLow (e : FltEntry) (m : Nat) : Int :=
  let sp := e.set.w * e.set.spacing
  let p : Int := if e.set.avg then 0 else e.grid
  let d := ((m : Int) - p) % (sp : Int)
  if d = 0 then (m : Int) - sp else (m : Int) - d

/-- The output instants of a detector window: those after its lower end. -/
def FltEntry.windowCount (e : FltEntry) (lo : Int) (m : Nat) : Nat :=
  (((m : Int) - lo + e.set.spacing - 1) / (e.set.spacing : Int)).toNat

/-- The window after lo is the first one of restarted detectors: it is delivered with the words it holds (R147). -/
def FltSt.firstWindow (f : FltSt) (e : FltEntry) (lo : Int) : Bool :=
  e.det.isSome && !f.outs.any (fun o => o.det == e.det && decide ((o.at_ : Int) ≤ lo))

/-- The flags of a detector word: those of its output words but TUNL, with TUNL by its own instant (R146). -/
def detFlags (l : List Out) (tunl : Bool) : Nat := (l.foldl (fun a o => a ||| (o.flags &&& 0b1111100)) 0) ||| (2 * b2n tunl)

/-- MAX, MIN and RMS of the window that ends at instant m delivered, where all its words exist, or with the words it holds in the first window after a
restart of the detectors (R142 to R144, R147). -/
def FltSt.closeWindow (f : FltSt) (c : Nat) (e : FltEntry) (m : Nat) (tunl : Bool) : FltSt :=
  let lo := e.windowLow m
  let l := f.windowOuts e lo m
  if l.isEmpty || (l.length != e.windowCount lo m && !f.firstWindow e lo) then f
  else
    let vals := l.map (fun o => o.value)
    let fl := detFlags l tunl
    let mx := vals.foldl (fun a v => if a < v then v else a) (-2147483648)
    let mn := vals.foldl (fun a v => if v < a then v else a) 2147483647
    let f1 := if e.set.pk then (f.putWord 1 m (sampleWord mx c fl m)).putWord 2 m (sampleWord mn c fl m) else f
    if e.set.rms then f1.putWord 3 m (sampleWord (rmsOf vals) c fl m) else f1

/-- The envelope word of an instant: of I′ and Q′ for AC, else of the 63 newest words where they all exist (R145). -/
def FltSt.envelope (f : FltSt) (c : Nat) (e : FltEntry) (o : Out) (tunl : Bool) : FltSt :=
  if !e.set.env then f
  else if e.set.ac && !e.set.avg then f.putWord 4 o.at_ (sampleWord (envAc o.ip o.qp) c (detFlags [o] tunl) o.at_)
  else
    let l := (f.windowOuts e ((o.at_ : Int) - ((63 * e.set.spacing : Nat) : Int)) o.at_)
    if l.length = 63 then f.putWord 4 o.at_ (sampleWord (envDc (l.map (fun w => w.value))) c (detFlags l tunl) o.at_) else f

/-- A new state of a threshold of a decimated source: whether VALUE crosses it, and which way (R218). -/
def thresholdCross (lvl : Bool) (v th hys : Int) : Option Bool :=
  if !lvl && decide (th + hys < v) then some true else if lvl && decide (v < th - hys) then some false else none

/-- Decimated triggers take the new VALUE word of their source channel (R218). -/
def State.decEvaluate (s : State) (c m : Nat) (v : Int) (flags : Nat) : State :=
  (List.range 8).foldl (fun t u =>
    if t.trgDec u && t.trgSrc u == c then
      let x := t.unit u
      let h : Int := t.effF (Reg.TRG_DHYS_DHYS u)
      let x1 := match thresholdCross x.lvlA v (t.effS (Reg.TRG_DTH_DTH_A u)) h with
        | some r => { x with lvlA := r, decA := (r, m, flags) :: x.decA }
        | none => x
      let x2 := match thresholdCross x.lvlB v (t.effS (Reg.TRG_DTH_DTH_B u)) h with
        | some r => { x1 with lvlB := r, decB := (r, m, flags) :: x1.decB }
        | none => x1
      t.setUnit u x2
    else t) s

/-- OUTPUT_WORD_READY: at tick 0 of slot m + 6 the output word of instant m of a channel and the detector words it completes are in
the output buffer, and decimated triggers take the word (R118, R132, R141 to R149, R218). -/
def execOutputWordReady (c : Fin 392) (s : State) : Res :=
  let m := s.now - 6
  match s.outputAt c m with
  | none => .next s
  | some (e, nxt, l) =>
    let f := s.flt c
    if f.outs.any (fun o => o.at_ == m) then .next s
    else
      let tunl := !s.lockedAt m
      let flags := orFlags l ||| (2 * b2n tunl)
      let (v, ip, qp) := f.output e.set (s.tapsFor c e.set.preset m) m
      let o : Out := { at_ := m, det := e.det, value := v, flags := flags, ip := ip, qp := qp }
      let f1 := ({ f with outs := o :: f.outs.take 8191 }).putWord 0 m (sampleWord v c flags m)
      let last := match nxt with
        | some g => (match g.det with
          | some d => decide (m < d) && decide (d ≤ m + e.set.spacing)
          | none => false)
        | none => false
      let late := match nxt with
        | some g => decide (g.start ≤ m)
        | none => false
      let f2 := if e.detInstant m || last then f1.closeWindow c e m tunl else f1
      .next ((s.setFlt c (if late then f1 else f2.envelope c e o tunl)).decEvaluate c m v flags)

/-- A change at slot t that restarts the detectors closes the window of a channel whose last word before t is in the buffer already
(R147). -/
def State.closeDetectors (s : State) (t : Nat) : State :=
  (List.range 392).foldl (fun u c =>
    let f := u.flt c
    match f.sets, f.outs with
    | g :: e :: _, o :: _ =>
      if g.start = t ∧ g.det = some t ∧ o.at_ + 6 < t ∧ e.detInstant o.at_ = false ∧ t ≤ o.at_ + e.set.spacing then
        u.setFlt c (f.closeWindow c e o.at_ (!u.lockedAt o.at_))
      else u
    | _, _ => u) s

end Sys2Proof.Machine
end

