-- ==== Sys2Proof/Machine/Pair.lean ====
section
/-!
DEFINITION. Sys2Proof/Machine/Pair.lean: paired operation: frames and mirror, shadow packets, switchover, planned handover,
takeback and proof exchange (R379 to R401, R439).
-/
namespace Sys2Proof.Machine
open Sys2Proof

/-! ### Sending (R383, R388) -/

/-- PAIR_STATE_SEND: in every slot the hub sends its STATE frame with up to 32 reports of packets sent, then what it has to mirror
(R383, R385, R388). -/
def execPairStateSend (s : State) : Res :=
  if s.pairOn && s.serviceRuns && s.pairLane.isSome then
    let rs := s.pair.reports.take 32
    let s1 : State := { s with pair := { s.pair with reports := s.pair.reports.drop 32 } }
    let ws := rs.flatMap (fun r => [BitVec.ofNat 64 (r.1 <<< 48 + r.2.1 % 2 ^ 32), BitVec.ofNat 64 r.2.2])
    .next (s1.sendPair 1 0 ws).mirrorOut
  else .next s

/-! ### Shadow packets (R385) -/

/-- The ring position up to which a queue is free once its first packets are gone. -/
def QueueSt.firstPos (x : QueueSt) : Nat :=
  match x.pkts with
  | p :: _ => p.start
  | [] => match x.open_ with
    | some o => o.start
    | none => x.wp

/-- Waiting packets of a queue that a test names are discarded. -/
def State.dropPkts (s : State) (q : Nat) (f : Pkt → Bool) : State :=
  let x := s.que q
  let y := { x with pkts := x.pkts.filter (fun p => !f p) }
  let z := { y with sp := y.firstPos }
  s.setQue q (if x.sent.isEmpty then { z with rp := z.sp } else z)

/-- A report of the Leader: the shadow packet of the same stream and H1 takes its number and is released 64 slots later, NEXTSEQ
becomes one more, and unmatched packets before it are discarded (R385). -/
def State.takeReport (s : State) (st seq h1 : Nat) : State :=
  let q := s.strmQueue st
  let x := s.que q
  let old (p : Pkt) : Bool := p.stream == st && p.seq == noSeq && decide (p.first < h1)
  let hit (p : Pkt) : Bool := p.stream == st && p.first == h1
  let skew := x.pkts.filter old
  let s1 := s.setQue q { x with pkts := x.pkts.map (fun p => if hit p then { p with seq := seq } else p) }
  let s2 := s1.setStrmSt st { s1.strmSt st with nextSeq := (seq + 1) % 2 ^ 32 }
  let s3 : State := if x.pkts.any hit then { s2 with pair := { s2.pair with shadow := s2.pair.shadow ++ [(st, seq, s2.now + 64)] } } else s2
  skew.foldl (fun t p => t.logLane (q / 16) .PAIR_SEQ_SKEW 0 [BitVec.ofNat 64 st, BitVec.ofNat 64 p.first])
    (if skew.isEmpty then s3 else s3.dropPkts q old)

/-- The reports of a STATE frame, two words each. -/
def State.takeReports (s : State) : List W64 → State
  | a :: b :: r => (s.takeReport (bits a 58 48) (bits a 31 0) b.toNat).takeReports r
  | _ => s

/-- SHADOW_PACKET_RELEASE: 64 slots after its report a shadow packet of a stream is let go (R385). -/
def execShadowPacketRelease (st : Fin 2048) (s : State) : Res :=
  match s.pair.shadow.find? (fun e => e.1 == st.val) with
  | none => .next s
  | some e =>
    if e.2.2 ≤ s.now ∧ s.belay = true then
      let s1 : State := { s with pair := { s.pair with shadow := s.pair.shadow.erase e } }
      .next (s1.dropPkts (s.strmQueue st) (fun p => p.stream == st.val && p.seq == e.2.1))
    else .next s

/-- A packet put in a list by H1. -/
def insertPkt (p : Pkt) : List Pkt → List Pkt
  | [] => [p]
  | q :: r => if p.first < q.first then p :: q :: r else q :: insertPkt p r

/-- The held packets of a queue in order of H1; those without a number take theirs from NEXTSEQ (R385). -/
def State.numberQueue (s : State) (q : Nat) : State :=
  let l := (s.que q).pkts.foldl (fun a p => insertPkt p a) []
  let r := l.foldl (fun (a : List Pkt × State) p =>
    if p.seq = noSeq then
      let x := a.2.strmSt p.stream
      (a.1 ++ [{ p with seq := x.nextSeq }], a.2.setStrmSt p.stream { x with nextSeq := (x.nextSeq + 1) % 2 ^ 32 })
    else (a.1 ++ [p], a.2)) ([], s)
  r.2.setQue q { r.2.que q with pkts := r.1 }

/-- The hub starts to send: every held packet has its number (R385). -/
def State.startSending (s : State) : State :=
  let s1 := (List.range 64).foldl (fun t q => if (t.que q).pkts.isEmpty then t else t.numberQueue q) s
  { s1 with pair := { s1.pair with shadow := [] } }

/-! ### Receiving (R383, R385, R387, R439, R444) -/

/-- PAIR_STATE: a STATE frame: a valid one shows the partner, its reports number the shadow packets of a Second, and one with another
slot ends the run of equal slots. A hub in Belay that is not ready enters Descent beside a partner in Descent
(R385, R387, R388, R401, R439). -/
def execPairState (l : Fin 4) (words : List W64) (s : State) : Res :=
  if s.pairValid l 1 words then
    let h := pairHdr words
    let s1 : State := { s with pair := { s.pair with
      partner := some h, heardAt := some s.now
      equalFrom := (if h.slot = s.now then some (s.pair.equalFrom.getD s.now) else none) } }
    let s2 := s1.setF Reg.PAIR_STAT_PARTNER 1
    let s3 := if s2.belay then s2.takeReports (words.drop 4) else s2
    let down := h.role == 0 && h.fault
    let s4 : State := if down && s3.flag Reg.PAIR_STAT_PROOF && s3.pairRoleNow == 1 then
      { s3.setF Reg.PAIR_STAT_PROOF 0 with pair := { s3.pair with tenure := none } } else s3
    if down && s4.belay && !s4.pairReady && s4.pair.released.isNone && !s4.falling then
      .next (s4.cancelMode.pendMode 7 (some (s4.now + 1)) 7 5)
    else .next s4
  else if s.pairOn && s.pairRole l && bits (words.getD 0 0) 55 52 == 1 then
    .next { s with pair := { s.pair with equalFrom := none } }
  else .next s

/-- A partner's event record appended to this hub's log with PARTNER and the partner's SEQ in a CONT record (R444). -/
def State.partnerRecord (s : State) (w0 w1 w2 w3 : W64) : State :=
  let r : EventRec :=
    { cls := bits w0 63 60, level := bits w0 59 56, code := bits w0 55 40, unit := bits w0 39 31, partner := true
      notify := bit w0 29, cont := bit w0 28, seq := 0, slot := w1, d2 := w2, d3 := w3 }
  (s.appendRec .all r).appendRec .all { r with cont := true, d2 := BitVec.ofNat 64 (bits w0 27 0), d3 := 0 }

/-- The settings of the excitation that a Second takes from the mirror: EXMODE of a bank, EXEN and LEVEL of a channel (R381, R383,
R392). -/
def mirroredBits (a : Nat) : W64 :=
  if blockOf a = 15 ∧ (a - 0x1C40) % 16 = 0 then mask 1 0
  else if blockOf a = 14 ∧ (a - 0x1000) % 8 = 1 then mask 33 20 ||| mask 0 0 else 0

/-- One change record of the mirror; a Second takes what its own blocks use at once: stream table words, the trigger units'
configuration, the carrier phase, the settings of the excitation and descriptor words (R381, R383, R385). -/
def State.takeChange (s : State) (key : Nat) (v : W64) : State :=
  let kind := key / 2 ^ 32
  let ix := key % 2 ^ 32
  let s1 : State := { s with pair := { s.pair with mirror := s.pair.mirror.set (fun _ => 0) key v } }
  if kind = 5 then
    if ix = 3 then s1.partnerRecord (s1.mir 5 0) (s1.mir 5 1) (s1.mir 5 2) (s1.mir 5 3) else s1
  else if s1.belay = false then s1
  else if kind = 6 then { s1 with pair := { s1.pair with rebuilt := ix == 1 } }
  else if kind = 1 then
    let st := ix / 4 % 2048
    let w := ix % 4
    if w = 3 then s1.setStrmSt st { s1.strmSt st with nextSeq := v.toNat % 2 ^ 32 }
    else
      let x := s1.strmSt st
      let s2 := s1.overlayStream st w v
      let en := bit v 63
      if w = 0 ∧ en ≠ x.on then
        s2.setStrmSt st { s2.strmSt st with rising := en, falling := !en }
      else s2
  else if kind = 2 then
    if (List.range 8).any (fun u => ix == Reg.TRG_CFG u || ix == Reg.TRG_T1 u || ix == Reg.TRG_T2 u || ix == Reg.TRG_DTH u || ix == Reg.TRG_DHYS u)
        || (List.range 24).any (fun b => ix == Reg.BANK_PHASE b) then s1.setReg ix v
    else
      let own := mirroredBits ix
      if own = 0 then s1 else s1.setNow ix ((s1.reg ix &&& ~~~ own) ||| (v &&& own))
  else if kind = 3 then (if ix / 16 < 255 ∧ ix % 16 < 3 then s1.setDesc (ix / 16) (ix % 16) v else s1)
  else s1

/-- The change records of a MIRROR frame, two words each. -/
def State.takeChanges (s : State) : List W64 → State
  | a :: b :: r => (s.takeChange a.toNat b).takeChanges r
  | _ => s

/-- MIRROR: change records of a valid MIRROR frame (R383, R444). -/
def execMirror (l : Fin 4) (words : List W64) (s : State) : Res :=
  if s.pairValid l 2 words then .next (s.takeChanges (words.drop 4)) else .next s

/-! ### Planned handover (R394) -/

/-- The mode a taking-over hub enters: the mirrored Ascent or Summit; from another mode the mirrored PRIOR, Ascent where that is
neither (R35, R392; DEDUCED, log entry 27). -/
def State.mirroredMode (s : State) : Nat :=
  let cur := bits (s.mir 2 Reg.SYS_MODE) 2 0
  let prior := bits (s.mir 2 Reg.SYS_MODE) 5 3
  if cur = 3 ∨ cur = 4 then cur else if prior = 3 ∨ prior = 4 then prior else 3

/-- A handover is proposed or pending. -/
def State.handoverOpen (s : State) : Bool := s.pair.asked.isSome || s.pair.pend.isSome

/-- The earliest slot of a handover: the first multiple of 8,192 at least 256 slots on (R394). -/
def State.earliestHandover (s : State) : Nat := ceilDiv (s.now + 256) 8192 * 8192

/-- A handover at h proposed to the partner for a reason (0 commanded, 1 takeback, 2 proof, 3 handback); word 4 of PROPOSE carries the
reason, for which the manual names no place (R394; DESIGN CHOICE, log entry 16). -/
def State.propose (s : State) (h port reason : Nat) : State :=
  let s1 := s.sendPair 3 h [BitVec.ofNat 64 reason]
  { s1 with pair := { s1.pair with asked := some (h, port, reason, s.now) } }

/-- The tests of a planned handover in the order of R394, with the slot it is named for. -/
def State.handoverTests (s : State) (at_ : Nat) : Option Cond :=
  firstFail [(s.pairRoleNow == 1 && (s.cur == 3 || s.cur == 4), .PAIR_ROLE_STATE), (s.pairReady, .PAIR_NOT_READY),
    (!s.handoverOpen && !s.flag Reg.SYS_MODE_PENDV, .PAIR_BUSY), (at_ == 0 || decide (s.now + 256 ≤ at_), .PAIR_LATE)]

/-- A handover pending on this hub: HPEND and the mode change at h + 512 (R394, R395). -/
def State.pendHandover (s : State) (h port : Nat) (out : Bool) (reason : Nat) : State :=
  let s1 : State := { s.setF Reg.PAIR_STAT_HPEND 1 with pair := { s.pair with asked := none, pend := some (h, port, out, reason) } }
  let s2 := if reason = 2 then s1.setF Reg.PAIR_STAT_PROOF 1 else s1
  s2.pendMode (if out then 5 else s2.mirroredMode) (some (h + 512)) 7 4

/-- A pending handover withdrawn. -/
def State.withdrawHandover (s : State) : State :=
  match s.pair.pend with
  | none => s
  | some p =>
    let s1 : State := { s.setF Reg.PAIR_STAT_HPEND 0 with pair := { s.pair with pend := none, handed := [] } }
    let s2 := if p.2.2.2 = 2 then s1.setF Reg.PAIR_STAT_PROOF 0 else s1
    if s2.mode.pendCause = 4 then s2.cancelMode else s2

/-- A write of PAIR_CTL.SWITCH by a port (R394). -/
def State.pairSwitch (s : State) (port : Nat) : WriteRes :=
  let at_ := (s.copy port Reg.PAIR_AT).toNat
  match s.handoverTests at_ with
  | some c => s.refuse c 0 Reg.PAIR_CTL port
  | none => (s.propose (if at_ = 0 then s.earliestHandover else at_) port 0, none)

/-- A write of PAIR_CTL.CANCEL: the proposing port withdraws its handover up to h − 16; later it is refused with PAIR_LATE, and with
nothing of its own pending it has no effect (R394; DEDUCED, log entry 27). -/
def State.pairCancel (s : State) (port : Nat) : WriteRes :=
  let mine : Option Nat := match s.pair.pend, s.pair.asked with
    | some p, _ => if p.2.1 = port ∧ p.2.2.1 = true then some p.1 else none
    | none, some a => if a.2.1 = port then some a.1 else none
    | none, none => none
  match mine with
  | none => (s, none)
  | some h =>
    if h < s.now + 16 then s.refuse .PAIR_LATE 0 Reg.PAIR_CTL port
    else
      let s1 := (s.sendPair 5 h []).withdrawHandover
      ({ s1 with pair := { s1.pair with asked := none } }, none)

/-- A write of PAIR_CTL.PROOF: the designated Leader, acting Leader and READY, hands over for a proof (R394, R399). -/
def State.pairProof (s : State) (port : Nat) : WriteRes :=
  match (if s.flag Reg.PAIR_STAT_DESIG then some Cond.PAIR_ROLE_STATE else s.handoverTests 0) with
  | some c => s.refuse c 0 Reg.PAIR_CTL port
  | none => (s.propose s.earliestHandover port 2, none)

/-- A write of PAIR_CTL.CLEARPF: NRCAUSE 6 and 8 clear (R393, R399). -/
def State.pairClear (s : State) : State :=
  { s.setF Reg.PAIR_STAT_CONTEND 0 with pair := { s.pair with proofFail := false } }

/-- A write of PAIR_CTL (owner authority): its bits from the least significant up. -/
def State.pairCtlWrite (s : State) (port : Nat) (v : W64) : WriteRes :=
  let step (r : WriteRes) (b : Bool) (f : State → WriteRes) : WriteRes :=
    if b then (match f r.1 with
      | (t, some c) => (t, some (r.2.getD c))
      | (t, none) => (t, r.2)) else r
  let r0 := step (s, none) (bit v 0) (fun t => t.pairSwitch port)
  let r1 := step r0 (bit v 1) (fun t => t.pairProof port)
  let r2 := step r1 (bit v 2) (fun t => t.pairCancel port)
  step r2 (bit v 3) (fun t => (t.pairClear, none))

/-- A write of PAIR_CTL from a port below owner is refused. -/
def State.pairOwner (s : State) (port : Nat) (f : State → WriteRes) : Res :=
  if s.classOf port < 2 then .next (s.logRefusal .SYS_AUTH_DENIED 0 Reg.PAIR_CTL port) else .next (f s).1

/-- PAIR_SWITCH: a write of PAIR_CTL.SWITCH (R394). -/
def execPairSwitch (port : Port) (s : State) : Res :=
  s.whenOpen port Reg.PAIR_CTL <| s.pairOwner port (fun t => t.pairSwitch port)
/-- PAIR_CANCEL: a write of PAIR_CTL.CANCEL (R394). -/
def execPairCancel (port : Port) (s : State) : Res :=
  s.whenOpen port Reg.PAIR_CTL <| s.pairOwner port (fun t => t.pairCancel port)
/-- PAIR_PROOF_START: a write of PAIR_CTL.PROOF (R399). -/
def execPairProofStart (port : Port) (s : State) : Res :=
  s.whenOpen port Reg.PAIR_CTL <| s.pairOwner port (fun t => t.pairProof port)
/-- CLEARPF: a write of PAIR_CTL.CLEARPF (R393, R399). -/
def execClearpf (port : Port) (s : State) : Res :=
  s.whenOpen port Reg.PAIR_CTL <| s.pairOwner port (fun t => (t.pairClear, none))

/-- PROPOSE: a proposal for slot h is accepted where this hub is READY and acting Second with no transition pending, else refused
(R394). -/
def execPropose (l : Fin 4) (words : List W64) (s : State) : Res :=
  if s.pairValid l 3 words then
    let h := (words.getD 3 0).toNat
    if s.pairReady && s.cur == 5 && !s.handoverOpen && !s.flag Reg.SYS_MODE_PENDV then
      .next ((s.sendPair 4 h []).pendHandover h 7 false (words.getD 4 0).toNat)
    else .next (s.sendPair 5 h [])
  else .next s

/-- The proposal on its way is refused: logged; a proof is deferred by an hour (R394, R399). -/
def State.handoverRefused (s : State) : State :=
  match s.pair.asked with
  | none => s
  | some a =>
    let hour := 900000000
    let period := s.getF Reg.PAIR_PROOF_PERIOD * hour
    let from_ := if a.2.2.1 = 2 then some (s.upSlots + hour - period) else s.pair.countFrom
    let s1 : State := { s with pair := { s.pair with asked := none, countFrom := from_ } }
    s1.log .PAIR_HANDOVER_REFUSED 0 [BitVec.ofNat 64 a.1]

/-- ACCEPT: the handover proposed is pending on this hub too; one that meets another pending transition is withdrawn (R394). -/
def execAccept (l : Fin 4) (words : List W64) (s : State) : Res :=
  if s.pairValid l 4 words then
    let h := (words.getD 3 0).toNat
    match s.pair.asked with
    | some a =>
      if a.1 = h ∧ s.now ≤ a.2.2.2 + 8 then
        if s.flag Reg.SYS_MODE_PENDV then .next ((s.sendPair 5 h []).handoverRefused) else .next (s.pendHandover h a.2.1 true a.2.2.1)
      else .next s
    | none => .next s
  else .next s

/-- REFUSE: the proposal is refused, or a handover that the partner withdraws ends (R394). -/
def execRefuse (l : Fin 4) (words : List W64) (s : State) : Res :=
  if s.pairValid l 5 words then
    let h := (words.getD 3 0).toNat
    let s1 := match s.pair.asked with
      | some a => if a.1 = h then s.handoverRefused else s
      | none => s
    match s1.pair.pend with
    | some p => if p.1 = h then .next s1.withdrawHandover else .next s1
    | none => .next s1
  else .next s

/-- PAIR_HANDOVER_REFUSED: no ACCEPT within 8 slots (R394). -/
def execPairHandoverRefused (s : State) : Res :=
  match s.pair.asked with
  | some a => if a.2.2.2 + 8 < s.now then .next s.handoverRefused else .next s
  | none => .next s

/-- RELEASE: a Second that is ready, or not ready only because its Leader has raised a fault, notes the slot of a valid RELEASE
(R387, R390, R438; DEDUCED, log entry 62). -/
def execRelease (l : Fin 4) (words : List W64) (s : State) : Res :=
  let ready := s.pairReady || (s.getF Reg.PAIR_STAT_NRCAUSE == 7 && !s.flag Reg.PAIR_STAT_CONTEND)
  if s.pairValid l 6 words && ready && s.pairRoleNow == 2 then
    .next { s with pair := { s.pair with released := some s.now } }
  else .next s

/-- PAIR_TAKEBACK: the pair has been READY for TAKEBACK seconds while the designated Second acts as Leader outside a proof: it hands
back at the earliest slot (R398). -/
def execPairTakeback (s : State) : Res :=
  let t := s.getF Reg.PAIR_CFG_TAKEBACK
  match s.pair.readyFrom with
  | some f =>
    if s.flag Reg.PAIR_STAT_DESIG && t != 0 && decide (f + t * 250000 ≤ s.now) && !s.flag Reg.PAIR_STAT_PROOF
        && (s.handoverTests 0).isNone then
      .next ((s.log .PAIR_TAKEBACK 0 []).propose s.earliestHandover 7 1)
    else .next s
  | none => .next s

/-- PROOF_EXCHANGE: PERIOD hours after the last proof, or after the pair first became READY, the designated Leader begins a proof; one
that is not READY is deferred by an hour (R399). -/
def execProofExchange (s : State) : Res :=
  let p := s.getF Reg.PAIR_PROOF_PERIOD * 900000000
  match s.pair.countFrom with
  | some f =>
    if p = 0 ∨ s.upSlots < f + p ∨ s.flag Reg.PAIR_STAT_DESIG = true ∨ s.pairRoleNow ≠ 1 ∨ s.handoverOpen = true then .next s
    else if (s.handoverTests 0).isNone then .next (s.propose s.earliestHandover 7 2)
    else .next { s with pair := { s.pair with countFrom := some (s.upSlots + 900000000 - p) } }
  | none => .next s

/-- The tests of a proof in the tenure that began at slot t: no trip, no excitation break that the mirror did not show, every driven
channel's G_ref within 2 % of the mirrored one (R399). -/
def State.proofOk (s : State) (t : Nat) : Bool :=
  (List.range 384).all (fun c =>
    let x := s.ch c
    let tripped := match x.lastTrip with
      | some u => decide (t ≤ u)
      | none => false
    let broken := x.breaks.any (fun b => b.lead == .exc && decide (t ≤ b.start)) && s.mirF (Reg.CH_STATUS_WB_EXC c) == 0
    let gBad := x.drive.driving && (match x.gRef with
      | some g =>
        let m := (s.mir 7 c).toNat
        decide (2 * (m : Int) * g.det < 100 * ((g.g * 2 ^ 40 - (m : Int) * g.det).natAbs : Int))
      | none => false)
    !tripped && !broken && !gBad)

/-- PROOF_HANDBACK: after LEN seconds, or at once on a failure, the designated Second proposes to hand back; without a partner the
proof ends (R399, R401). -/
def execProofHandback (s : State) : Res :=
  match s.pair.tenure with
  | none => .next s
  | some t =>
    let ok := s.proofOk (s.reg Reg.PAIR_HSLOT).toNat
    if s.flag Reg.PAIR_STAT_PARTNER = false then
      .next { s.setF Reg.PAIR_STAT_PROOF 0 with pair := { s.pair with tenure := none } }
    else if (t ≤ s.now ∨ ok = false) ∧ (s.handoverTests 0).isNone = true then
      .next (({ s with pair := { s.pair with proofBad := !ok } } : State).propose s.earliestHandover 7 3)
    else .next s

/-! ### The excitation handover (R395, R396) -/

/-- c_b of a bank for a handover at h, in half slots: h for DC, for AC the first zero crossing at or after it (R395). -/
def State.handoverC (s : State) (b h : Nat) : Nat :=
  if s.exMode b = 2 then
    let k := Nat.max 1 (s.carrierK b)
    2 * h + ((2 * ((s.reg (Reg.BANK_PHASE b)).toNat : Int) - ((2 * h : Nat) : Int)) % (k : Int)).toNat
  else 2 * h

/-- A HANDOVER window of a bank from slot x to x + 63 (R396). -/
def State.openWindow (s : State) (b x : Nat) : State :=
  s.setBk b { s.bk b with hand := (x, some (x + 63)) :: (s.bk b).hand }

/-- What R28 places before an excitation handover of the present slot has not taken effect yet: an overlay activation, a mode transition of
another cause, a coefficient swap (R28, R41). -/
def State.handoverWaits (s : State) : Bool := s.overlayDue || s.swapDue || (s.modeDue && s.mode.pendCause != 4)

/-- DRIVE_REMOVAL: at c_b of a planned handover the outgoing hub removes the bank's drive; the bank's HANDOVER window opens on both
hubs (R395, R396). -/
def execDriveRemoval (b : Fin 24) (s : State) : Res :=
  match s.pair.pend with
  | none => .next s
  | some p =>
    let c := s.handoverC b p.1
    if s.handoverWaits = true ∨ 2 * s.now + 1 < c ∨ s.pair.handed.get (fun _ => 0) b ≠ 0 then .next s
    else
      let s1 : State := { s.openWindow b (c / 2) with pair := { s.pair with handed := s.pair.handed.set (fun _ => 0) b (c + 1) } }
      if p.2.2.1 then
        let s2 : State := { s1 with pair := { s1.pair with ramps := s1.pair.ramps.set (fun _ => 0) b 0 } }
        .next ((bankChans b).foldl (fun t ch => t.cutDrive ch) s2)
      else .next { s1 with pair := { s1.pair with windowEnd := s1.pair.windowEnd.set (fun _ => 0) b (c / 2 + 64) } }

/-- The handover ramp of a bank starts on every channel whose mirrored state has EXEN = 1 and is neither tripped nor latched; a
channel in a mirrored hold-off keeps it, a latched one stays latched; the pair factor becomes 1 (R382, R392). -/
def State.rampBank (s : State) (b : Nat) : State :=
  let s0 : State := { s with pair := { s.pair with ramps := s.pair.ramps.set (fun _ => 0) b (s.now + 1) } }
  let s1 := s0.setBk b { s0.bk b with factor := 1048576 }
  (bankChans b).foldl (fun t c =>
    if t.mirF (Reg.CH_EXCFG_EXEN c) = 0 ∨ t.exMode b = 0 then t
    else if t.mirF (Reg.CH_STATUS_EX_LATCH c) = 1 then
      ((t.setCh c { t.ch c with drive := .latched }).setF (Reg.CH_STATUS_EX_LATCH c) 1).setF (Reg.CH_STATUS_DRIVE_OFF c) 1
    else if t.mirF (Reg.CH_STATUS_DRIVE_OFF c) = 1 then
      (t.setCh c { t.ch c with drive := .removed, retryAt := some (t.mir 4 c).toNat }).setF (Reg.CH_STATUS_DRIVE_OFF c) 1
    else t.rampDrive c) s1

/-- HANDOVER_RAMP_START: the ramp of a bank starts at slot ⌈c_b⌉ + 2 of a planned handover on the incoming hub, or at d of a
switchover (R392, R395). -/
def execHandoverRampStart (b : Fin 24) (s : State) : Res :=
  if s.handoverWaits = true ∨ s.pair.ramps.get (fun _ => 0) b ≠ 0 then .next s
  else
    match s.pair.pend, s.pair.tookAt with
    | some p, _ =>
      if p.2.2.1 = false ∧ ceilDiv (s.handoverC b p.1) 2 + 2 ≤ s.now then .next (s.rampBank b) else .next s
    | none, some d => if d ≤ s.now ∧ s.pairRoleNow = 1 then .next (s.rampBank b) else .next s
    | none, none => .next s

/-- HANDOVER_RAMP_FULL: four slots after its start the ramp of a bank is at full drive (R392). -/
def execHandoverRampFull (b : Fin 24) (s : State) : Res :=
  let r := s.pair.ramps.get (fun _ => 0) b
  if r ≠ 0 ∧ r + 3 ≤ s.now then
    .next ((bankChans b).foldl (fun t c =>
      if (t.ch c).drive = .rampUp ∧ (t.ch c).due ≤ t.now then t.fullDrive c else t) s)
  else .next s

/-- HANDOVER_WINDOW_END: the HANDOVER window of a bank has ended and its break-detect bias turns on (R392, R396). -/
def execHandoverWindowEnd (b : Fin 24) (s : State) : Res :=
  let w := s.pair.windowEnd.get (fun _ => 0) b
  if w ≠ 0 ∧ w ≤ s.now then .next { s with pair := { s.pair with windowEnd := s.pair.windowEnd.set (fun _ => 0) b 0 } } else .next s

/-- BANK_FACTOR_UPDATE: in Belay, after each window of 2^16 slots, the factor of an excited bank becomes the expected amplitude over the measured one, `measured` being the
measured one in 2^-20 of the expected (R382). -/
def execBankFactorUpdate (b : Fin 24) (measured : Nat) (s : State) : Res :=
  if s.belay = true ∧ measured ≠ 0 ∧ s.exMode b ≠ 0 ∧ (s.bk b).factorFrom + 2 ^ 16 ≤ s.upSlots then
    .next (s.setBk b { s.bk b with factor := (roundEven (2 ^ 40) measured).toNat, factorFrom := s.upSlots })
  else .next s

/-! ### Switchover (R390 to R393) -/

/-- The Leader is lost: three slots after RELEASE, or after two slots without a STATE frame while READY (R390). -/
def State.leaderLost (s : State) : Bool :=
  s.belay && s.pairRoleNow == 2 && ((match s.pair.released with
    | some e => decide (e + 3 ≤ s.now)
    | none => false) || (s.pairReady && (match s.pair.partner with
    | some p => decide (p.slot + 3 ≤ s.now)
    | none => false)))

/-- The mirrored breaks of a channel stand on the new Leader from slot d on. -/
def State.takeBreaks (s : State) (d c : Nat) : State :=
  let add (t : State) (f : Fld) (l : Lead) : State :=
    if t.mirF f = 1 then
      (t.setCh c { t.ch c with breaks := { lead := l, start := d, fin := none } :: (t.ch c).breaks }).setF f 1
    else t
  add (add s (Reg.CH_STATUS_WB_EXC c) .exc) (Reg.CH_STATUS_WB_SENSE c) .sense

/-- The takeover at slot d: an unannounced transition to the mirrored mode; any pending one is cancelled, held packets get their
numbers, a hub in Traverse goes on with it towards the mirrored mode (R433), LED_HORIZON moves up, in Summit the mirrored arming is applied, the HANDOVER windows open at x (R385, R386,
R390, R392, R396, R401). -/
def State.takeOver (s : State) (d : Nat) : State :=
  let m := s.mirroredMode
  let x := match s.pair.released with
    | some e => e
    | none => d - 2
  let proof := s.flag Reg.PAIR_STAT_PROOF && !s.flag Reg.PAIR_STAT_DESIG
  let s1 := (if s.cur = 6 then s else s.cancelMode.scheduleAuto m (some d)).squashMode d
  let s1' := if s.cur = 6 then s1.setF Reg.SYS_MODE_PRIOR m
    else (s1.setMode m d 3).setF Reg.SYS_MODE_PRIOR (bits (s1.mir 2 Reg.SYS_MODE) 5 3)
  let s2 := (s1'.setF Reg.PAIR_STAT_ROLE 1).setF Reg.PAIR_STAT_HPEND 0
  let s3 := ((s2.setReg Reg.PAIR_HSLOT (BitVec.ofNat 64 d)).bump Reg.PAIR_CNT_SWITCHOVERS).setF Reg.PAIR_STAT_GUARD 0
  let last := (s.pair.partner.map (fun p => p.slot)).getD 0
  let s4 := s3.log .PAIR_SWITCHOVER 0 [BitVec.ofNat 64 d, BitVec.ofNat 64 last, BitVec.ofNat 64 (s3.mirF (Reg.TB_STAT_STATE s3.sampTb))]
  let s5 : State := { s4 with pair := { s4.pair with
    pend := none, asked := none, released := none, tookAt := some d, whole := false, handed := []
    countFrom := (if s.flag Reg.PAIR_STAT_PROOF then some s4.upSlots else s4.pair.countFrom)
    proofFail := s4.pair.proofFail || proof, tenure := none } }
  let s6 := if s.flag Reg.PAIR_STAT_PROOF then (if proof then (s5.log .PAIR_PROOF_FAIL 0 []).bump Reg.PAIR_CNT_PROOF_FAIL else s5).setF
    Reg.PAIR_STAT_PROOF 0 else s5
  let h := [(s6.reg Reg.LED_HORIZON).toNat, (s6.mir 2 Reg.LED_HORIZON).toNat, s6.pair.belayFrom.getD 0].foldl Nat.max 0
  let s7 := (s6.setReg Reg.LED_HORIZON (BitVec.ofNat 64 h)).startSending
  let s8 := (List.range 24).foldl (fun t b =>
    if s.pair.ramps.get (fun _ => 0) b ≠ 0 then t
    else
      let u := t.openWindow b x
      { u with pair := { u.pair with windowEnd := u.pair.windowEnd.set (fun _ => 0) b (x + 64) } }) s7
  let s9 := (List.range 384).foldl (fun t c => t.takeBreaks d c) s8
  let s10 := if m = 4 then (List.range 8).foldl (fun t u =>
    let st := t.mirF (Reg.TRG_STAT_STATE u)
    if st = 1 ∨ st = 2 then (t.arm false 7 u (t.mirF (Reg.TRG_STAT_DESC u))).1 else t) s9 else s9
  s10.evaluateAll

/-- LEADER_LOST: at slot d a ready Second declares the Leader lost; with a foreign drive in slot d − 1 it withholds the takeover and
checks again, else it takes over (R390 to R392). -/
def execLeaderLost (foreign : Bool) (s : State) : Res :=
  if s.leaderLost then
    if foreign then
      if s.flag Reg.PAIR_STAT_GUARD then .next s
      else .next ((s.setF Reg.PAIR_STAT_GUARD 1).log .PAIR_SPLIT_GUARD 0 [BitVec.ofNat 64 s.now])
    else .next (s.takeOver s.now)
  else .next s

/-- PAIR_CONTENTION: within 2 · max(64, K) slots of a takeover the limiter is engaged in four consecutive slots on at least half of a
bank's driven channels: every drive is removed and the hub returns to Belay as an unannounced transition (R393). -/
def execPairContention (b : Fin 24) (s : State) : Res :=
  match s.pair.tookAt with
  | none => .next s
  | some d =>
    let driven := (bankChans b).filter (fun c => (s.ch c).drive.driving)
    let hit := driven.filter (fun c => decide (4 ≤ (s.ch c).limRun))
    if s.pairRoleNow = 1 ∧ s.now < d + 2 * Nat.max 64 (s.carrierK b) ∧ driven ≠ [] ∧ driven.length ≤ 2 * hit.length then
      let s1 := ((s.cutAllDrives.cancelMode.log .PAIR_CONTENTION b [BitVec.ofNat 64 s.now]).setF Reg.PAIR_STAT_CONTEND 1)
      let s2 := (s1.pendMode 5 (some (s.now + 1)) 7 7).squashMode (s.now + 1)
      .next { s2 with pair := { s2.pair with tookAt := none } }
    else .next s

/-! ### The first mode of a pair (R389) -/

/-- The first mode is named: its entry waits for the initial set, or lies 16 slots on and no earlier than 400 ms (R43, R48). -/
def State.firstMode (s : State) (m : Nat) : State :=
  let s1 := s.dropAuto.pendMode m none 7 0
  if s1.getF (Reg.TB_STAT_STATE s1.sampTb) = 0 then s1 else s1.nameStart

/-- PAIR_STARTUP_DECISION: 260 to 400 ms after t = 0 a hub with PAIR_CFG.EN = 1 has listened on its pair link: Belay where the partner
acts as Leader; a designated Leader else enters START, or Belay where a foreign drive is present; a designated Second
enters Belay (R389). -/
def execPairStartupDecision (foreign : Bool) (s : State) : Res :=
  match s.pair.listening with
  | none => .next s
  | some _ =>
    let s1 : State := { s with pair := { s.pair with listening := none } }
    let lead := match s.pair.partner with
      | some p => p.role == 1
      | none => false
    if s.flag Reg.CFG_STATUS_LOADED = false ∨ s.cur ≠ 1 ∨ s.falling = true then .next s1
    else if lead || s.flag Reg.PAIR_STAT_DESIG then .next (s1.firstMode 5)
    else if foreign then .next ((s1.log .PAIR_SPLIT_GUARD 0 []).firstMode 5)
    else
      let m := s1.getF Reg.SYS_MODE_START
      .next (if m = 1 then s1 else s1.firstMode m)

/-! ### Register writes of this chapter -/

/-- The tests of a write to PAIR_CFG: only in Basecamp, EN only with a lane in pair role (R275). -/
def State.checkPairCfg (s : State) (v : W64) : Option Cond :=
  firstFail [(s.cur == 1, .PAIR_CFG_LIVE), (!bit v 0 || [0, 1, 2, 3].any (fun l => s.pairRole l), .PAIR_NO_LINK)]

/-- The tests of a write to PAIR_PROOF. -/
def checkPairProof (v : W64) : Option Cond := if bits v 15 0 < 60 then some .PAIR_PROOF_RANGE else none

end Sys2Proof.Machine
end

