-- ==== Sys2Proof/Machine/Image.lean ====
section
/-!
DEFINITION. Sys2Proof/Machine/Image.lean: sections of configuration and firmware images, their checks, the configuration digest
(R50, R58, R418, R500).
-/
namespace Sys2Proof.Machine
open Sys2Proof

/-- A section of an image: its type, index, the position of its header word and its number of words (R50). -/
structure Sect where
  ty  : Nat
  ix  : Nat
  pos : Nat
  len : Nat
  deriving DecidableEq, Repr

/-- The octets of words, most significant octet first. -/
def wordOctets (l : List W64) : List Byte := l.flatMap (fun w => beBytes 8 w.toNat)

/-- Words of an image from a position on. -/
def imageWords (g : Nat → W64) (pos n : Nat) : List W64 := (List.range n).map (fun i => g (pos + i))

/-- The words of a section after its header. -/
def Sect.words (x : Sect) (g : Nat → W64) : List W64 := imageWords g (x.pos + 1) x.len

/-- Every word of a section, header and check word included. -/
def Sect.whole (x : Sect) (g : Nat → W64) : List W64 := imageWords g x.pos (x.len + 2)

/-- The check word of a section is right: 0 in its upper half, the CRC-32C of the section's words in the lower (R50). -/
def Sect.checks (x : Sect) (g : Nat → W64) : Bool := (g (x.pos + 1 + x.len)).toNat == crc32c (wordOctets (x.words g))

/-- The sections of an image from word `pos` to `fin`, each of a type that a test admits and with its check right; the position of
the first that fails (R50, R500). -/
def sections (g : Nat → W64) (admits : Nat → Nat → Bool) (fin : Nat) : Nat → Nat → List Sect × Option Nat
  | 0, pos => ([], if pos < fin then some pos else none)
  | f + 1, pos =>
    if fin ≤ pos then ([], none)
    else
      let h := g pos
      let x : Sect := { ty := bits h 63 56, ix := bits h 55 48, pos := pos, len := bits h 47 24 }
      let next := pos + x.len + 2
      if decide (next ≤ fin) && admits x.ty x.ix && x.checks g then
        let r := sections g admits fin f next
        (x :: r.1, r.2)
      else ([], some pos)

/-- CRC-64 of the ECMA-182 polynomial, start value 0, not reflected (R58). -/
def crc64 (bs : List Byte) : Nat := crcF 64 0x42F0E1EBA9EA3693 0 bs

end Sys2Proof.Machine
end

