-- ==== Sys2Proof/Machine/Update.lean ====
section
/-!
DEFINITION. Sys2Proof/Machine/Update.lean: firmware pieces, verification, the journaled copy, and reset (R418 to R428, R422).
-/
namespace Sys2Proof.Machine
open Sys2Proof

/-- The firmware update state replaced. -/
def State.setUpd (s : State) (x : UpdSt) : State := { s with upd := x }

/-- UPD_STAT.STAGE: 0 EMPTY, 1 RECEIVING, 2 VERIFYING, 3 VERIFIED, 4 FAILED. -/
def State.stageSt (s : State) : Nat := s.getF Reg.UPD_STAT_STAGE
/-- A copy is in progress. -/
def State.copying (s : State) : Bool := s.flag Reg.UPD_STAT_COPYING
/-- A word of the staging area. -/
def State.stageWord (s : State) (i : Nat) : W64 := s.upd.stage.get (fun _ => 0) i
/-- A word of the running region. -/
def State.runWord (s : State) (i : Nat) : W64 := s.upd.run.get (fun _ => 0) i

/-! ### The header (R418) -/

/-- MAGIC and FORMAT are right. -/
def headerMagic (g : Nat → W64) : Bool := bits (g 0) 63 16 == 0x534B56490001
/-- IMAGE of a header. -/
def headerImage (g : Nat → W64) : Nat := bits (g 1) 63 32
/-- VERSION of a header. -/
def headerVersion (g : Nat → W64) : Nat := bits (g 1) 31 0
/-- LEN of a header in octets. -/
def headerLen (g : Nat → W64) : Nat := bits (g 2) 63 32
/-- PART includes the grade, and MINREV does not exceed the revision (R424, test 3). -/
def headerPart (g : Nat → W64) : Bool :=
  (bits (g 2) 31 0).testBit (Config.idGrade - 1) && decide (bits (g 3) 63 48 ≤ Config.idRev)

/-- A section type that a firmware image holds (R418). -/
def firmwareType (ty ix : Nat) : Bool := (ty == 3 && decide (ix < 16)) || (ty == 4 && ix == 0) || (ty == 16 && ix == 0)

/-- The sections of a firmware image fill it up to LEN, and each one checks (R424, test 6). -/
def firmwareSections (g : Nat → W64) : List Sect × Bool :=
  let n := headerLen g / 8
  let r := sections g firmwareType n n 64
  (r.1, headerLen g % 8 == 0 && r.2.isNone && decide (64 ≤ n))

/-- The section of type 3 for an engine. -/
def engineSection (g : Nat → W64) (e : Nat) : Option Sect := (firmwareSections g).1.find? (fun x => x.ty == 3 && x.ix == e)

/-! ### Staging (R421 to R423) -/

/-- UPD_BEGIN or a write of UPD_STAGE (R423). -/
def State.updBegin (s : State) (image n : Nat) : State × Option Cond :=
  if n < 1 ∨ 6128 < n then (s, some .SYS_FIELD_RANGE)
  else if image = s.getF Reg.UPD_STAGE_IMAGE ∧ n = s.getF Reg.UPD_STAGE_NPIECES ∧ s.stageSt ≠ 4 then (s, none)
  else if s.copying then (s, some .UPD_BUSY)
  else
    let s1 := ((s.setF Reg.UPD_STAGE_IMAGE image).setF Reg.UPD_STAGE_NPIECES n).setUpd { s.upd with asm := [], ready := [], bmap := [] }
    ((((s1.setF Reg.UPD_STAT_STAGE 1).setF Reg.UPD_STAT_STORED 0).setReg Reg.UPD_SVER 0), none)

/-- The bitmap bit of a piece. -/
def State.pieceStored (s : State) (i : Nat) : Bool := (s.upd.bmap.get (fun _ => 0) (i / 64)).toNat.testBit (i % 64)

/-- The tests of a part in the order of R421; a FAILED staging area takes none either (R424; DEDUCED, log entry 28). -/
def State.partTests (s : State) (image index : Nat) : Option Cond :=
  firstFail [(s.stageSt != 2 && s.stageSt != 4 && !s.copying, .UPD_BUSY), (image == s.getF Reg.UPD_STAGE_IMAGE, .UPD_PIECE_IMAGE),
    (decide (index < s.getF Reg.UPD_STAGE_NPIECES), .UPD_PIECE_INDEX)]

/-- A part put in a buffer, in place of one of its number. -/
def UpdAsm.put (a : UpdAsm) (p : UpdPart) : UpdAsm := { a with parts := p :: a.parts.filter (fun q => q.part != p.part) }

/-- The words of a complete piece in octet order. -/
def UpdAsm.words (a : UpdAsm) : List W64 :=
  [0, 1, 2, 3].flatMap (fun k => ((a.parts.find? (fun p => p.part == k)).map (fun p => p.words)).getD [])

/-- A buffer whose four parts are present: discarded where their CRCs differ or the piece fails its CRC, a duplicate where the piece is
stored, else it waits for flash (R421, R422). -/
def State.pieceComplete (s : State) (a : UpdAsm) : State :=
  let crc := (a.parts.head?.map (fun p => p.crc)).getD 0
  if a.parts.any (fun p => p.crc != crc) || crc32c (wordOctets a.words) != crc then s.bump Reg.UPD_CNT_CRCFAIL
  else if s.pieceStored a.index then s.bump Reg.UPD_CNT_DUPS
  else s.setUpd { s.upd with ready := s.upd.ready ++ [(a.index, a.words)] }

/-- An accepted part enters its assembly buffer; a sixteenth incomplete piece is evicted for a new one (R421). -/
def State.takePart (s : State) (index : Nat) (p : UpdPart) : State :=
  let s0 := s.bump Reg.UPD_CNT_PARTS
  let a := ((s0.upd.asm.find? (fun x => x.index == index)).getD { index := index, parts := [] }).put p
  if a.parts.length = 4 then
    (s0.setUpd { s0.upd with asm := s0.upd.asm.filter (fun x => x.index != index) }).pieceComplete a
  else if s0.upd.asm.any (fun x => x.index == index) then
    s0.setUpd { s0.upd with asm := s0.upd.asm.map (fun x => if x.index = index then a else x) }
  else if s0.upd.asm.length < 16 then s0.setUpd { s0.upd with asm := s0.upd.asm ++ [a] }
  else (s0.setUpd { s0.upd with asm := s0.upd.asm.drop 1 ++ [a] }).bump Reg.UPD_CNT_EVICT

/-- A part as a command port brings it (R421). -/
def State.updPart (s : State) (image index part crc : Nat) (words : List W64) : State × Option Cond :=
  match s.partTests image index with
  | some c => (s, some c)
  | none => (s.takePart index { part := part, crc := crc, words := words }, none)

/-- Words stored in a table from a key up. -/
def storeWords (m : Sparse W64) (a : Nat) : List W64 → Sparse W64
  | [] => m
  | w :: r => storeWords (m.set (fun _ => 0) a w) (a + 1) r

/-- PIECE_STORE: the oldest complete piece is written to the staging area, read back and marked stored; a second failed read-back leaves it
missing; the last missing piece starts verification (R422, R424). -/
def execPieceStore (failures : Fin 3) (s : State) : Res :=
  match s.upd.ready with
  | [] => .next s
  | (i, ws) :: rest =>
    let s1 := s.setUpd { s.upd with ready := rest }
    if s1.pieceStored i then .next (s1.bump Reg.UPD_CNT_DUPS)
    else if failures.val = 2 then .next (s1.log .UPD_FLASH_FAIL 0 [BitVec.ofNat 64 i])
    else
      let b := s1.upd.bmap.get (fun _ => 0) (i / 64)
      let s2 := s1.setUpd { s1.upd with
        stage := storeWords s1.upd.stage (512 * i) ws
        bmap := s1.upd.bmap.set (fun _ => 0) (i / 64) (BitVec.ofNat 64 (withBit b.toNat (i % 64) true)) }
      let n := s2.getF Reg.UPD_STAT_STORED + 1
      let s3 := s2.setF Reg.UPD_STAT_STORED n
      .next (if n = s3.getF Reg.UPD_STAGE_NPIECES then s3.setF Reg.UPD_STAT_STAGE 2 else s3)

/-! ### Verification (R424) -/

/-- Verification begins: refused while it runs or the area is a copy source; a FAILED area stays FAILED (R424). -/
def State.updVerify (s : State) : State × Option Cond :=
  if s.stageSt = 2 ∨ s.copying = true then (s, some .UPD_BUSY)
  else if s.stageSt = 4 then (s, none)
  else (s.setF Reg.UPD_STAT_STAGE 2, none)

/-- The octets 0 to LEN − 1 of the staged image. -/
def State.stagedImage (s : State) : List Byte :=
  let len := headerLen s.stageWord
  (wordOctets (imageWords s.stageWord 0 (ceilDiv len 8))).take len

/-- The first test of verification that fails (R419, R424). -/
def State.verifyTests (s : State) : Option Cond :=
  let g := s.stageWord
  let n := s.getF Reg.UPD_STAGE_NPIECES
  let len := headerLen g
  firstFail [(s.getF Reg.UPD_STAT_STORED == n && n != 0, .UPD_INCOMPLETE),
    (headerMagic g && headerImage g == s.getF Reg.UPD_STAGE_IMAGE && ceilDiv len 4096 == n, .UPD_HEADER),
    (headerPart g, .UPD_PART), (keyAccepted ((s.stagedImage.drop 64).take 97), .UPD_KEY),
    (imageSigned s.stagedImage, .UPD_SIG), ((firmwareSections g).2, .UPD_SECTION)]

/-! ### The copy (R425, R426) -/

/-- The blocks of 32 KiB of an image. -/
def imageBlocks (g : Nat → W64) : Nat := ceilDiv (headerLen g) 32768

/-- A journal record appended. -/
def State.journal (s : State) (k : JournalKind) (block : Nat) : State :=
  let g := s.stageWord
  s.setUpd { s.upd with journal := { kind := k, block := block, image := headerImage g, version := headerVersion g } :: s.upd.journal }

/-- A copy begins: the journal is erased where it lacks room for a whole copy, then COPY_BEGIN (R425, R426). -/
def State.beginCopy (s : State) : State :=
  let s1 := if s.upd.journal.length + imageBlocks s.stageWord + 2 ≤ 16384 then s else s.setUpd { s.upd with journal := [] }
  ((s1.journal .copyBegin 0).setF Reg.UPD_STAT_COPYING 1).setF Reg.UPD_STAT_BLOCKS 0

/-- VERIFICATION_COMPLETE: the tests of R424; the first that fails sets FAILED and logs its condition. In Bivouac the ROM starts the copy
(R419, R424, R428). -/
def execVerificationComplete (s : State) : Res :=
  if s.stageSt ≠ 2 then .next s
  else match s.verifyTests with
    | some c => .next ((s.setF Reg.UPD_STAT_STAGE 4).log c 0 [])
    | none =>
      let s1 := (s.setF Reg.UPD_STAT_STAGE 3).setReg Reg.UPD_SVER (BitVec.ofNat 64 (headerVersion s.stageWord))
      .next (if s1.cur = 0 ∧ s1.copying = false then s1.beginCopy else s1)

/-- The tests of UPD_INSTALL (R425). -/
def State.installTests (s : State) (port : Nat) : Option Cond :=
  firstFail [(s.stageSt == 3, .UPD_NOT_VERIFIED), (!s.copying && !s.flag Reg.UPD_STAT_TPEND && s.cur != 6, .UPD_BUSY),
    (decide (s.getF Reg.UPD_VER_RUN ≤ headerVersion s.stageWord) || decide (3 ≤ s.classOf port), .UPD_OLDER)]

/-- UPD_INSTALL of a port (R425). -/
def State.updInstall (s : State) (port : Nat) : State × Option Cond :=
  match s.installTests port with
  | some c => (s, some c)
  | none => (s.beginCopy, none)

/-! ### Reset (R43, R47, R390, R428) -/

/-- The hub after a reset: every register, memory and block as after reset, but flash keeps its content: configuration stores, time
marks, calibration banks, persistent log, staging area, running region and journal; commands that wait outside, the free
values taken and the RELEASE that a ready Leader sent last stay too. -/
def State.resetHub (s : State) : State :=
  let rel := s.pairRoleNow == 1 && s.pairReady
  let last : Sparse (Option TxFrame) := match (if rel then s.pairLane else none) with
    | some l =>
      let p := s.carrier l
      (s.sw.lastTx).set (fun _ => none) p (((s.sendPair 6 0 []).egressOf p).getLast?)
    | none => []
  let st := s.stageSt
  let r : State := { State.reset with
    pending := s.pending, fresh := s.fresh + 1
    cfg := { State.reset.cfg with stores := s.cfg.stores }
    mode := { State.reset.mode with marks := s.mode.marks }
    calh := { State.reset.calh with flash := s.calh.flash }
    evt := { State.reset.evt with flash := s.evt.flash }
    upd := { State.reset.upd with stage := s.upd.stage, bmap := s.upd.bmap, run := s.upd.run, journal := s.upd.journal }
    sw := { State.reset.sw with lastTx := last } }
  let r1 := r.setReg Reg.UPD_STAGE (s.reg Reg.UPD_STAGE)
  let r2 := (r1.setF Reg.UPD_STAT_STAGE (if st = 2 then 1 else st)).setF Reg.UPD_STAT_STORED (s.getF Reg.UPD_STAT_STORED)
  let r3 := if st = 3 then r2.setReg Reg.UPD_SVER (s.reg Reg.UPD_SVER) else r2
  r3.setF Reg.UPD_VER_RUN (headerVersion s.runWord)

/-- RESET: RESET_N or a maintenance reset: the hub is held until start-up (R35, R42, R390). -/
def execReset (s : State) : Res := .next s.resetHub

/-- UPD_RECOVER: a write of UPD_CTL.RECOVER with maintenance authority resets the hub into Bivouac (R428). -/
def State.updRecover (s : State) : State := let r := s.resetHub; r.setUpd { r.upd with recover := true }

/-- UPD_RECOVER from a port. -/
def execUpdRecover (port : Port) (s : State) : Res :=
  s.whenOpen port Reg.UPD_CTL <|
  if s.classOf port < 3 then .next (s.logRefusal .SYS_AUTH_DENIED 0 Reg.UPD_CTL port) else .next s.updRecover

/-- The words of a block of the staging area copied to the running region. -/
def State.copyWords (s : State) (block : Nat) : State :=
  let n := ceilDiv (headerLen s.stageWord) 8
  let ks := (List.range 4096).filter (fun i => decide (4096 * block + i < n))
  let r := ks.foldl (fun m i => m.set (fun _ => 0) (4096 * block + i) (s.stageWord (4096 * block + i))) s.upd.run
  s.setUpd { s.upd with run := r }

/-- COPY_BLOCK: the next block is erased, programmed, compared with staging and journaled; a third failed comparison stops the copy; the
last block ends it with COPY_END. In start-up the hub then starts from the new image; in Bivouac it resets into start-up
(R425 to R428). -/
def execCopyBlock (failures : Fin 4) (s : State) : Res :=
  if s.copying = false then .next s
  else
    let b := s.getF Reg.UPD_STAT_BLOCKS
    if failures.val = 3 then .next ((s.setF Reg.UPD_STAT_COPYING 0).log .UPD_COPY_FAIL 0 [BitVec.ofNat 64 b])
    else
      let s1 := ((s.copyWords b).journal .blockDone b).setF Reg.UPD_STAT_BLOCKS (b + 1)
      if b + 1 < imageBlocks s1.stageWord then .next s1
      else
        let s2 := ((s1.journal .copyEnd b).setF Reg.UPD_STAT_COPYING 0).setF Reg.UPD_VER_RUN (headerVersion s1.stageWord)
        if s2.cur = 0 ∧ s2.upd.recover = false then .next s2.resetHub else .next s2

/-! ### Commands (R420) -/

/-- An update command's outcome as an answer. -/
def State.updAnswer (s : State) (op port : Nat) (r : State × Option Cond) : Answer :=
  match r.2 with
  | some c => s.refused c 0 op port
  | none => { st := r.1 }

/-- UPD_BEGIN (OP 0x30). -/
def execUpdBegin (l : Fin 4) (h : CmdHdr) (w1 : W64) (s : State) : Res :=
  .next (s.command l h 0x30 [w1] 2 false (fun t => t.updAnswer 0x30 l (t.updBegin (bits w1 63 32) (bits w1 12 0))))

/-- UPD_PIECE (OP 0x31): a part of 128 data words (R421). -/
def execUpdPiece (l : Fin 4) (h : CmdHdr) (w1 w2 : W64) (data : List W64) (s : State) : Res :=
  .next (s.command l h 0x31 (w1 :: w2 :: data) 2 false (fun t =>
    if data.length = 128 then
      t.updAnswer 0x31 l (t.updPart (bits w1 63 32) (bits w1 12 0) (bits w1 29 28) (bits w2 31 0) data)
    else t.illegal))

/-- UPD_STATUS (OP 0x32): the registers and the bitmap. -/
def execUpdStatus (l : Fin 4) (h : CmdHdr) (s : State) : Res :=
  .next (s.command l h 0x32 [] 0 false (fun t =>
    { st := t, words := [t.reg Reg.UPD_STAT, t.reg Reg.UPD_STAGE, t.reg Reg.UPD_VER, t.reg Reg.UPD_SVER] ++
        (List.range 96).map (fun i => t.upd.bmap.get (fun _ => 0) i) }))

/-- UPD_VERIFY (OP 0x33). -/
def execUpdVerify (l : Fin 4) (h : CmdHdr) (s : State) : Res :=
  .next (s.command l h 0x33 [] 2 false (fun t => t.updAnswer 0x33 l t.updVerify))

/-- UPD_INSTALL (OP 0x34). -/
def execUpdInstall (l : Fin 4) (h : CmdHdr) (s : State) : Res :=
  .next (s.command l h 0x34 [] 2 false (fun t => t.updAnswer 0x34 l (t.updInstall l)))

/-- An activation withdrawn by its port up to h − 16 (R429). With none of the port's pending the withdrawal has no effect
(DEDUCED, log entry 28). -/
def State.updCancel (s : State) (port : Nat) : State × Option Cond :=
  match s.upd.act with
  | some a =>
    if a.2 = port then
      if a.1 < s.now + 16 then (s, some .UPD_LATE_CANCEL)
      else (s.dropActivation.cancelMode, none)
    else (s, none)
  | none => (s, none)

/-- UPD_CANCEL (OP 0x36). -/
def execUpdCancel (l : Fin 4) (h : CmdHdr) (s : State) : Res :=
  .next (s.command l h 0x36 [] 2 false (fun t => t.updAnswer 0x36 l (t.updCancel l)))

/-- BMAP_DATA_READ: the bitmap word at a port's pointer, which advances and wraps at 96 (R456). -/
def State.bmapRead (s : State) (port : Nat) : W64 × State :=
  let p := bits (s.copy port Reg.UPD_BMAP_PTR) 6 0
  (s.upd.bmap.get (fun _ => 0) p, s.setCopy port Reg.UPD_BMAP_PTR (BitVec.ofNat 64 (if p < 95 then p + 1 else 0)))

/-- BMAP_DATA_READ from a port. -/
def execBmapDataRead (port : Port) (s : State) : Res :=
  s.whenReads port Reg.UPD_BMAP_DATA <| .next (s.bmapRead port).2

/-- A write of UPD_PIECE_DATA: the 128th word submits the part of UPD_PIECE_HDR (R420, R421, R455). -/
def State.pieceData (s : State) (port : Nat) (v : W64) : State × Option Cond :=
  let ws := s.upd.parts.get (fun _ => []) port ++ [v]
  if ws.length < 128 then (s.setUpd { s.upd with parts := s.upd.parts.set (fun _ => []) port ws }, none)
  else
    let h := s.copy port Reg.UPD_PIECE_HDR
    let s1 := s.setUpd { s.upd with parts := s.upd.parts.set (fun _ => []) port [] }
    s1.updPart (s1.getF Reg.UPD_STAGE_IMAGE) (bits h 12 0) (bits h 31 30) (bits h 63 32) ws

end Sys2Proof.Machine
end

