-- ==== Sys2Proof/Machine/Faults.lean ====
section
/-!
DEFINITION. Sys2Proof/Machine/Faults.lean: the containment ladder: channel, bank, DRAM and hub faults, the persistent log, notices, and
what a checkpoint shows through the debug block (R434 to R447, R459).
-/
namespace Sys2Proof.Machine
open Sys2Proof

/-- The hub has fallen: it is in Descent or Bivouac or on its way into Descent, and absorbs what it logs (R440). -/
def State.down (s : State) : Bool := s.cur == 7 || s.cur == 0 || s.falling

/-! ### Channel and bank (R435, R436, R440) -/

/-- The bank stands still after a bank fault (R436). -/
def BankSt.stopped (x : BankSt) : Bool := x.gaps.any (fun g => g.2.isNone)

/-- A stage fault of a channel is present: its own path's result was refused with CAL_RANGE in two consecutive passes, or the fine
clip state stood for 256 consecutive slots with a small coarse value (R435). -/
def State.stageFault (s : State) (c : Nat) : Bool :=
  (s.cal (chBank c)).rangeTwice.testBit (c % 16) || decide (256 ≤ (s.ch c).clipRun)

/-- What showed a stage fault is taken note of. -/
def State.stageSeen (s : State) (c : Nat) : State :=
  let b := chBank c
  let s1 := s.setCh c { s.ch c with clipRun := 0 }
  s1.setCal b { s1.cal b with rangeTwice := withBit (s1.cal b).rangeTwice (c % 16) false }

/-- The first raw slot that the spare substitutes for a channel faulted in the present slot, and the slot its spare is settled at
(R435, R70). -/
def State.spareSlots (s : State) (c : Nat) : Nat × Nat :=
  let x := s.bk (chBank c)
  if x.xp = some (c % 16) then (s.now + 1, x.xpSettle)
  else (s.now + 2, s.now + 1 + settleSlots (s.effF (Reg.CH_CFG_AAF c)))

/-- The spare takes a channel until reset: the crosspoint is held with CAL at 1, its raw samples come from the spare with the terms
of its last spare phase, a running pass is abandoned and no other follows (R435). -/
def State.takeSpare (s : State) (c : Nat) : State :=
  let b := chBank c
  let p := c % 16
  let first := (s.spareSlots c).1
  let s1 := ((s.setF (Reg.BANK_SPARE_CAL b) 1).setF (Reg.BANK_SPARE_CONN b) 1).setF (Reg.BANK_SPARE_POS b) p
  let s2 := s1.setNow (Reg.BANK_SPARE b) (s1.reg (Reg.BANK_SPARE b))
  let x := s2.bk b
  let old := x.subs.map (fun u => { u with last := some (Nat.min (u.last.getD (first - 1)) (first - 1)) })
  let s3 := s2.setBk b { x with
    holder := some p, node := false, subs := { pos := p, first := first, last := none } :: old }
  let k := s3.cal b
  let s4 := s3.setCal b { k with suspended := true, subEnd := none, abandon := k.stage != 0 }
  s4.log .CAL_SUSPENDED b []

/-- CH_STAGE_FAULT: a channel with a stage fault is put on its bank's spare path; where another channel of the bank holds it, the fault
escalates to the bank; a hub that is down and a bank that stands still absorb it (R435, R440). -/
def execChStageFault (c : Fin 384) (s : State) : Res :=
  let b := chBank c
  let x := s.bk b
  if s.stageFault c = false ∨ x.holder = some (c.val % 16) then .next s
  else
    let at_ := s.spareSlots c
    let s1 := (s.stageSeen c).log .CH_STAGE_FAULT c [BitVec.ofNat 64 at_.1, BitVec.ofNat 64 at_.2]
    if s1.down || x.stopped || (s1.ch c).lost.isSome then .next s1
    else if x.holder.isSome then .next (s1.setBk b { s1.bk b with escal := some (c.val % 16) })
    else .next (s1.takeSpare c)

/-- The condition of a bank fault (R436). -/
def bankFaultCond : BankFaultCause → Cond
  | .conv => .BANK_CONV_FAULT
  | .pipe => .BANK_PIPE_FAULT
  | .dds => .BANK_DDS_FAULT
  | .supv => .BANK_SUPV_FAULT
  | .escalated => .BANK_CH_ESCALATED

/-- The excitation of a bank removed at once. -/
def State.cutBank (s : State) (b : Nat) : State := (bankChans b).foldl (fun t c => t.cutDrive c) s

/-- A bank fault is noted; the ones of the last 3,600 s (900,000,000 slots) are kept, newest first (R436). -/
def State.noteFault (s : State) (b : Nat) : State :=
  let x := s.bk b
  s.setBk b { x with faults := s.upSlots :: x.faults.filter (fun t => decide (s.upSlots < t + 900000000)), escal := none }

/-- BANK_FAULT: the drive goes first where the supervisor failed. In a ready pair, on the third fault of the bank within 3,600 s, and
on one that comes before the bank's restart, the fault is the hub's. Else a channel escalated to the bank leaves delivery
from the next slot on, and any other cause stops the bank at the next slot until BANK_RESTART (R434, R436, R440). -/
def execBankFault (b : Fin 24) (cause : BankFaultCause) (s0 : State) : Res :=
  let x := s0.bk b
  let c := bankFaultCond cause
  match cause, x.escal with
  | .escalated, none => .next s0
  | _, e =>
    let s := (if cause = .supv then s0.cutBank b else s0).noteFault b
    let named := [BitVec.ofNat 64 (s.now + 1)]
    if s.down then .next (s.log c b named)
    else if s.pairReady || x.stopped || decide (3 ≤ (s.bk b).faults.length) then .next ((s.log c b named).escalate c b)
    else if cause = .escalated then
      let ch := 16 * b.val + e.getD 0
      let s1 := (s.log c b (BitVec.ofNat 64 ch :: named)).setCh ch { s.ch ch with lost := some (s.now + 1) }
      .next (s1.log .CH_LOST ch named)
    else
      let t := s.cutBank b
      .next (t.setBk b { t.bk b with gaps := (s.now + 1, none) :: (t.bk b).gaps, restartOf := c.code })

/-- The condition of a bank-fault code. -/
def bankCond (code : Nat) : Cond :=
  ([Cond.BANK_CONV_FAULT, .BANK_PIPE_FAULT, .BANK_DDS_FAULT].find? (fun c => c.code == code)).getD .BANK_SUPV_FAULT

/-- A channel's outputs pause over the raw slots f to l that its bank did not take: from the last instant whose window ends before them to the first
whose window begins after them (R436). -/
def FltSt.bankGap (x : FltSt) (f l : Nat) : FltSt :=
  match x.sets with
  | e :: _ => { x with gaps := ((e.lastInstant ((f : Int) - 1 - (e.set.window 0).2)).toNat, (e.firstFrom ((l : Int) + 1)).toNat) :: x.gaps }
  | [] => x

/-- The slice terms of a bank in the calibration set in force in flash; those of the factory trim where no set was loaded (R110, R414). -/
def State.storedSlices (s : State) (b : Nat) : Sparse SliceTerms :=
  match (if s.getF Reg.CAL_SET_SRC = 0 then none else s.calFlash (s.getF Reg.CAL_SET_FBANK)) with
  | some i => match (i.banks ++ i.groups).reverse.find? (fun r => r.bank == b) with
    | some r => r.slices
    | none => []
  | none => []

/-- BANK_RESTART: a bank that stands still takes its slice terms again and its first hold, within 5,000 slots of its fault: the record of the fault names
the first and last raw slots missing, and the excitation starts under R76 (R436; log entry 31). -/
def execBankRestart (b : Fin 24) (s : State) : Res :=
  let x := s.bk b
  match x.gaps with
  | (f, none) :: r =>
    if f < s.now ∧ s.now < f + 5000 then
      let s1 := (s.setBk b { x with gaps := (f, some (s.now - 1)) :: r, slices := s.storedSlices b }).log (bankCond x.restartOf) b
        [BitVec.ofNat 64 f, BitVec.ofNat 64 (s.now - 1)]
      let s2 := (bankChans b).foldl (fun t c => t.setFlt c ((t.flt c).bankGap f (s.now - 1))) s1
      .next ((bankChans b).foldl (fun t c => t.startDrive c) s2)
    else .next s
  | _ => .next s

/-! ### DRAM (R21, R437) -/

/-- The words of a burst of 64 bytes. -/
def burstWords (a : Nat) : List Nat := (List.range 8).map (fun k => a / 64 * 8 + k)

/-- An uncorrectable burst strikes a record of the ledger's ring, whose last record may run over the ring's end (R21). -/
def State.struck (s : State) (addr : Nat) (r : LedRec) : Bool :=
  let a := addr / 64 * 64
  let meets (a : Nat) : Bool := decide (r.pos < a + 64) && decide (a < r.pos + r.octets)
  meets a || meets (a + s.ledSize)

/-- The capture records whose region an address of the capture region lies in (R221). -/
def State.capStruck (s : State) (addr : Nat) : List Nat :=
  (List.range 255).filter (fun i => (s.descState i == 2 || s.readable i) && decide (s.descBase i ≤ addr) && decide (addr < s.descBase i + s.descLen i))

/-- The slot bounds of what an uncorrectable burst strikes: the first and last instants of the ledger records, or the first and last slots of the
capture records, an OPEN one up to the present slot; none for other data (R21; DESIGN CHOICE, log entry 29). -/
def State.burstBounds (s : State) (part : DramPart) (addr : Nat) : List W64 :=
  let spans : List (Nat × Nat) := match part with
    | .ledger => (s.led.ring.filter (s.struck addr)).map (fun r => (r.first, r.lastInstant))
    | .capture => (s.capStruck addr).map (fun i =>
        ((s.desc i 6).toNat, if s.descState i = 2 then s.now else (s.desc i 8).toNat))
    | _ => []
  match minList (spans.map (fun x => x.1)) with
  | some lo => [BitVec.ofNat 64 lo, BitVec.ofNat 64 ((spans.map (fun x => x.2)).foldl Nat.max 0)]
  | none => []

/-- DRAM_ECC_ERROR: an uncorrectable burst is counted on its channel and logged with its address and the slot bounds of ledger and capture
data; in a partition that holds data it marks what it struck, in the reserved partition it escalates, as does the 65th burst of
a channel within 2^18 slots. A queue's words in engine bulk memory are marked as they are sent (R318). In shared SRAM a word is
marked for the loads that meet it (R13, R21, R196, R437; log entries 29, 30, 88). -/
def execDramEccError (ch : Fin 2) (part : DramPart) (addr : Nat) (s : State) : Res :=
  if part = .sram then .next { s with sramBad := addr / 8 :: s.sramBad }
  else
    let old := (s.ladder.bursts.get (fun _ => []) ch).filter (fun t => decide (s.upSlots < t + 2 ^ 18))
    let new := (s.upSlots :: old).take 65
    let s0 : State := { s.bump (Reg.DBG_DRAM_UNCORR ch) with ladder := { s.ladder with
      bursts := s.ladder.bursts.set (fun _ => []) ch new } }
    let s1 := s0.logUncoded ch (BitVec.ofNat 64 addr :: s.burstBounds part addr)
    let s2 : State := match part with
      | .bulk | .queue => { s1 with poison := burstWords addr ++ s1.poison }
      | .capture => { s1 with cap := { s1.cap with bad := addr :: s1.cap.bad } }
      | .ledger => { s1 with led := { s1.led with ring := s1.led.ring.map (fun r =>
          if s.struck addr r then { r with bad := true } else r) } }
      | .reserved => s1.escalate .DRAM_CHANNEL_FAIL ch
      | .sram => s1
    if new.length = 65 then .next ((s2.log .DRAM_CHANNEL_FAIL ch []).escalate .DRAM_CHANNEL_FAIL ch) else .next s2

/-- SCRUB: a scrub pass over every partition completes: the single-bit errors it corrected are counted by channel, and DBG_SCRUB
takes the slot (R437). -/
def execScrub (corrected : List Nat) (s : State) : Res :=
  let s1 := [0, 1].foldl (fun t ch => t.addF (Reg.DBG_DRAM_CORR ch) (corrected.getD ch 0)) s
  .next (s1.setReg Reg.DBG_SCRUB (BitVec.ofNat 64 s.now))

/-- ROM_UNCORRECTABLE_ERROR: an uncorrectable error in on-die ROM or in the loader's working state escalates to hub level; the manual names no condition for it
(R438; log entry 33). -/
def execRomUncorrectableError (s : State) : Res := .next (s.escalate .HUB_ESCALATED 0)

/-! ### The persistent log and notices (R443, R445, R446) -/

/-- PERSISTENT_LOG_WRITE: the oldest record that waits goes to the persistent log; a copy yields the flash between its blocks, each of which is a
command of its own (R24, R426, R443). -/
def execPersistentLogWrite (s : State) : Res :=
  match s.evt.flashQ with
  | [] => .next s
  | r :: rest =>
    let g := (r :: s.evt.flash).take 1024
    .next { s with evt := { s.evt with flashQ := rest, flash := g } }

/-- EVT_PRD_PTR written by a port: the record INDEX counts back from the newest one in flash is latched for that port
(R443, R456). -/
def State.persistPtr (s : State) (port : Nat) (v : W64) : State :=
  let ws := match s.evt.flash[bits v 9 0]? with
    | some r => (List.range 4).map (fun w => r.word w)
    | none => []
  let s1 := s.setCopy port Reg.EVT_PRD_PTR (v &&& mask 9 0)
  { s1 with evt := { s1.evt with prec := s1.evt.prec.set (fun _ => []) port ws } }

/-- Word w of the persistent record that a port has latched; 0 where none is. -/
def State.persistWord (s : State) (port w : Nat) : W64 := (s.evt.prec.get (fun _ => []) port).getD w 0

/-- PEND bits cleared together with their NHOLD bits (R445). -/
def State.clearInt (s : State) (bits_ : Nat) : State :=
  let keep (v : Nat) : Nat := v &&& (31 ^^^ (bits_ % 32))
  (s.setF Reg.EVT_INT_PEND (keep (s.getF Reg.EVT_INT_PEND))).setF Reg.EVT_INT_NHOLD (keep (s.getF Reg.EVT_INT_NHOLD))

/-- NOTICE: up to 32 records that wait for a lane's port leave in a frame of type 6 at priority 6 to its subscriber, while the lane's
carrier is UP; a pair link carries none (R275, R446). -/
def execNotice (l : Fin 4) (s : State) : Res :=
  let q := s.evt.notices.get (fun _ => []) l
  match (s.hostOf l).sub with
  | none => .next s
  | some dst =>
    if q.isEmpty || s.pairRole l || !s.laneUp (s.carrier l) then .next s
    else
      let rs := q.take 32
      let n := s.evt.noticeSeq.get (fun _ => 0) l
      let w0 := BitVec.ofNat 64 (0x16 <<< 56 + rs.length <<< 48 + n)
      let e := { s.evt with
        notices := s.evt.notices.set (fun _ => []) l (q.drop 32)
        noticeSeq := s.evt.noticeSeq.set (fun _ => 0) l ((n + 1) % 2 ^ 32) }
      let s1 : State := { s with evt := e }
      .next (s1.sendNeil l 6 dst (w0 :: rs.flatMap (fun r => (List.range 4).map (fun w => r.word w))))

/-! ### The engine checkpoint of the debug block (R459) -/

/-- The items of the checkpoint that begins the oldest uncommitted program slot, ENG_CSLOT + 1, of a logical engine: w0 to w31, the predicates, the halves of
the accumulators, SLOT, CKPT, ECAUSE and PC; CKPT shows the one checkpoint it is (R459; DESIGN CHOICE, log entry 32). -/
def State.checkpointItems (s : State) (l : Nat) : List W64 :=
  let en := s.eng (s.host l)
  match en.ckpts.find? (fun c => c.slot == en.oldest) with
  | none => []
  | some c =>
    let acc (i : Nat) : BitVec 128 := c.a.get (fun _ => 0) i
    (List.range 32).map (fun r => if r = 0 then 0 else c.w.get (fun _ => 0) r) ++ [BitVec.ofNat 64 c.p] ++
    (List.range 4).flatMap (fun i => [(acc i).extractLsb' 64 64, (acc i).extractLsb' 0 64]) ++
    [BitVec.ofNat 64 c.slot, BitVec.ofNat 64 (2 ^ 60 + c.slot % 2 ^ 60), en.ecause, BitVec.ofNat 64 c.pc]

/-- DBG_ENG_PTR written by a port (R459). -/
def State.dbgPtr (s : State) (port : Nat) (v : W64) : State :=
  let s1 := s.setCopy port Reg.DBG_ENG_PTR (v &&& mask 11 0)
  { s1 with ladder := { s1.ladder with dbg := s1.ladder.dbg.set (fun _ => []) port (s1.checkpointItems (bits v 11 8)) } }

/-- DBG_ENG_DATA as a port reads it. -/
def State.dbgWord (s : State) (port : Nat) : W64 :=
  (s.ladder.dbg.get (fun _ => []) port).getD (bits (s.copy port Reg.DBG_ENG_PTR) 7 0) 0

/-- ITEM advances with each data read (R456). -/
def State.dbgAdvance (s : State) (port : Nat) : State :=
  let p := s.copy port Reg.DBG_ENG_PTR
  s.setCopy port Reg.DBG_ENG_PTR (setBits p 7 0 (bits p 7 0 + 1))

end Sys2Proof.Machine
end

