-- ==== Sys2Proof/Machine/Modes.lean ====
section
/-!
DEFINITION. Sys2Proof/Machine/Modes.lean: requests and transitions of the operating modes, entering and leaving acquisition, start-up,
time marks, the configuration TLV (R30 to R49, R60, R61, R427, R466, R480).
-/
namespace Sys2Proof.Machine
open Sys2Proof

/-! ### Requests (R33, R35) -/

/-- The class that the transition table asks of a request from the present mode to a target; none where the table has no such
request (R35). -/
def State.modeClass (s : State) (t : Nat) : Option Nat :=
  let c := s.cur
  if t = 7 then (if c = 0 then none else some 3)
  else if c = 2 ∧ t = s.prior then some 2
  else if (c = 1 ∧ (t = 3 ∨ t = 4)) ∨ (c = 3 ∧ (t = 4 ∨ t = 1)) ∨ (c = 4 ∧ (t = 3 ∨ t = 1)) then some 1
  else if (c = 1 ∨ c = 3) ∧ t = 2 then some 2
  else if c = 1 ∧ t = 5 ∧ (List.range 4).any (fun l => s.pairRole l) = true then some 2
  else none

/-- Acclimatise or Traverse runs and the request is none of the two that R41 exempts. -/
def State.modeHeld (s : State) (t : Nat) : Bool := (s.cur == 6 && t != 7) || (s.cur == 2 && t != 7 && t != s.prior)

/-- The sampling time base is unset. -/
def State.unset (s : State) : Bool := s.getF (Reg.TB_STAT_STATE s.sampTb) == 0

/-- The tests of a request in the order of R33, `at_` the slot it names with AT = 1. -/
def State.modeTests (s : State) (port t : Nat) (at_ : Option Nat) : Option Cond :=
  match s.modeClass t with
  | none => some .SYS_MODE_ILLEGAL
  | some cls =>
    firstFail [(decide (cls ≤ s.classOf port), .SYS_MODE_AUTH), (!s.flag Reg.SYS_MODE_PENDV && !s.modeHeld t, .SYS_MODE_BUSY),
      (match at_ with
        | some n => !s.unset && decide (s.now + 16 ≤ n)
        | none => true, .SYS_MODE_LATE)]

/-- The ledger coder, the engines with their takeovers, the excitation, the banks' references and the streams stop at once (R32, R38, R116,
R173). -/
def State.stopAll (s : State) : State :=
  let s1 := (s.cutAllDrives.disableBankRefs.stopEngines.dropTakeovers).flushLedger false
  { s1 with mode := { s1.mode with writing := false, drain := none, stopAt := none } }

/-- The span of acquired slots that is open ends before slot m (R39). -/
def State.closeSpan (s : State) (m : Nat) : State :=
  let sp := s.mode.spans.map (fun p => match p.2 with
    | none => (p.1, some m)
    | some _ => p)
  { s with mode := { s.mode with leave := some m, spans := sp } }

/-- Every active engine that does not run yet enters its program at slot m (R160). -/
def State.startEngines (s : State) (m : Nat) : State :=
  s.activeEngines.foldl (fun t l =>
    let e := t.host l
    if (t.eng e).running || t.flag (Reg.ENG_STAT_FAULTED e) then t
    else t.setEng e ((t.eng e).enter m)) s

/-- The carrier of every AC bank starts at slot m: its rising zero crossings count from there (R75, R76). -/
def State.startCarriers (s : State) (m : Nat) : State :=
  (List.range 24).foldl (fun t b => if t.exMode b = 2 then t.setReg (Reg.BANK_PHASE b) (BitVec.ofNat 64 m) else t) s

/-- Acquisition begins at slot m: the references selected are in force and enabled, P returns to 0, every channel starts anew, excitation begins where the
mode drives it, streams and the ledger write, the engines run (R31, R36, R115, R134, R160). -/
def State.startAcq (s : State) (m : Nat) : State :=
  let mo := { s.mode with
    entry := some m, spans := (m, none) :: s.mode.spans, writing := true, drain := none, stopAt := none }
  let s1 : State := { s with mode := mo }
  let s2 := (List.range 24).foldl (fun t b => ((t.setBk b { t.bk b with trackFrom := m, sums := [] }).selectRef b).enableRef b)
    ((s1.setF Reg.FLT_SYNC_PHASE 0).setF Reg.FLT_SYNC_PSET 0)
  let s3 := ((s2.startCarriers m).startFilters m).startEngines m
  if s3.exciting then (List.range 384).foldl (fun t c => t.startDrive c) s3 else s3

/-- The largest LAGMAX of the active engines (R37). -/
def State.lagMax (s : State) : Nat := (s.activeEngines.map (fun l => s.getF (Reg.ENG_CTL_LAGMAX l))).foldl Nat.max 0

/-- Acquisition ends for Basecamp at slot m: the drain end is the end of slot m + 6 + L, the excitation ends with slot m + 3 (R37). -/
def State.stopAcq (s : State) (m : Nat) : State :=
  let s1 := s.closeSpan m
  { s1 with mode := { s1.mode with drain := some (m + 7 + s1.lagMax), stopAt := some (m + 4) } }

/-- The excitation and the front end of a stop end (R37, R116); called at each slot boundary. -/
def State.stopExcitation (s : State) : State :=
  match s.mode.stopAt with
  | none => s
  | some t =>
    if t ≤ s.now then
      let s1 : State := { s with mode := { s.mode with stopAt := none } }
      (List.range 384).foldl (fun u c => if (u.ch c).drive = .off then u else u.stopDrive c) s1.disableBankRefs
    else s

/-! ### The pair at a transition (R385, R386, R390, R395, R399, R439) -/

/-- A planned handover that this hub takes over ends at h_m: it starts to send; its ledger horizon covers both hubs (R385, R386). -/
def State.takeRole (s : State) (m reason : Nat) : State :=
  let h := [(s.reg Reg.LED_HORIZON).toNat, (s.mir 2 Reg.LED_HORIZON).toNat, s.pair.belayFrom.getD 0].foldl Nat.max 0
  let s1 := (s.setReg Reg.LED_HORIZON (BitVec.ofNat 64 h)).startSending
  let s2 := s1.setF Reg.SYS_MODE_PRIOR (bits (s1.mir 2 Reg.SYS_MODE) 5 3)
  if reason = 2 then { s2 with pair := { s2.pair with tenure := some (m + s2.getF Reg.PAIR_PROOF_LEN * 250000), proofBad := false } }
  else s2

/-- A proof exchange ends with its handback (R399). -/
def State.proofEnd (s : State) : State :=
  let s1 : State := { s.setF Reg.PAIR_STAT_PROOF 0 with pair := { s.pair with tenure := none, countFrom := some s.upSlots } }
  if !s1.flag Reg.PAIR_STAT_DESIG then s1
  else if s1.pair.proofBad then
    let s2 := (s1.log .PAIR_PROOF_FAIL 0 []).bump Reg.PAIR_CNT_PROOF_FAIL
    { s2 with pair := { s2.pair with proofFail := true, proofBad := false } }
  else s1.log .PAIR_PROOF_PASS 0 []

/-- The mode change of a planned handover at h_m (R394, R395). -/
def State.handoverDone (s : State) (m : Nat) : State :=
  match s.pair.pend with
  | none => s
  | some p =>
    let s1 : State := { s.setF Reg.PAIR_STAT_HPEND 0 with pair := { s.pair with pend := none, handed := [] } }
    let s2 := ((s1.bump Reg.PAIR_CNT_HANDOVERS).setReg Reg.PAIR_HSLOT (BitVec.ofNat 64 m)).log .PAIR_HANDOVER 0 [BitVec.ofNat 64 m]
    let s3 := if p.2.2.1 then s2 else s2.takeRole m p.2.2.2
    if p.2.2.2 = 3 then s3.proofEnd else s3

/-- The role of a hub of a pair after a transition from a mode into another at slot m; Traverse keeps the role (R379, R387, R433,
R439). -/
def State.pairMode (s : State) (old t m cause : Nat) : State :=
  if !s.pairOn || t == 6 || (old == 6 && acquiringMode t) then s
  else
    let s0 := if cause = 4 then s.handoverDone m else s
    if t = 5 then
      let p := { s0.pair with
        ramps := [], handed := [], tookAt := none, belayFrom := some m, rebuilt := false, released := none, windowEnd := [] }
      let s1 : State := { s0 with pair := p }
      ((List.range 24).foldl (fun u b => u.setBk b { u.bk b with factorFrom := u.upSlots }) s1).setF Reg.PAIR_STAT_ROLE 2
    else if acquiringMode t then s0.setF Reg.PAIR_STAT_ROLE 1
    else
      let took := match s0.pair.tookAt with
        | some d => t == 7 && cause == 5 && decide (m < d + 64)
        | none => false
      let s1 := (if took then s0.log .PAIR_DOUBLE_FAULT 0 [] else s0).setF Reg.PAIR_STAT_ROLE 0
      { s1 with pair := { s1.pair with ramps := [], handed := [], tookAt := none, windowEnd := [] } }

/-- An acting Leader of a ready pair sends RELEASE in the slot of its entry into Descent (R390, R438). -/
def State.sendRelease (s : State) (t : Nat) : State :=
  if t = 7 ∧ s.pairRoleNow = 1 ∧ s.pairReady = true then s.sendPair 6 0 [] else s

/-! ### The transition (R34 to R41) -/

/-- What the calibration does at a transition: passes are abandoned where rolling calibration ends, the chain of Acclimatise ends with
it, Acclimatise begins its own (R404, R411, R412). -/
def State.calMode (s : State) (old t : Nat) : State :=
  let s1 := if old = 2 then s.accEnd.abandonAll else s
  if t = 2 then s1.accBegin.evaluateAll
  else if t = 3 ∨ t = 4 ∨ t = 6 then s1.evaluateAll
  else s1.abandonAll

/-- At start-up and on entry to Basecamp at slot m a changed partition set is applied: the capture region and the ledger are discarded and the change is
logged with its slot (R22). -/
def State.applyParts (s : State) (m : Nat) : State :=
  let p := s.cfg.params
  if s.cfg.parts = (p.cap, p.led, p.bulk) then s
  else
    ({ s with cfg := { s.cfg with parts := (p.cap, p.led, p.bulk) } } : State).discardStore m

/-- A transition takes effect at the start of slot m (R34, R36 to R41). -/
def State.transit (s : State) (t m cause : Nat) : State :=
  let old := s.cur
  let s1 : State := { (s.sendRelease t).setF Reg.SYS_MODE_PENDV 0 with mode := { s.mode with pendAt := none } }
  let s2 := if t = 2 ∨ t = 6 then s1.setF Reg.SYS_MODE_PRIOR old else s1
  let s3 := s2.setMode t m cause
  let s4 := if (old = 4 ∧ t ≠ 6) ∨ (old = 6 ∧ t ≠ 4) then s3.summitExit m else s3
  let s5 := s4.calMode old t
  let s6 := if acquiringMode t = true ∧ acquiringMode old = false then s5.startAcq m
    else if acquiringMode old = true ∧ t = 1 then (s5.stopAcq m).applyParts m
    else if t = 7 then (if acquiringMode old then s5.closeSpan m else s5).stopAll.dropActivation
    else s5
  let s7 : State := match (if t = 7 then s6.mode.tapWait else none) with
    | some op => { s6 with mode := { s6.mode with tap := op, tapWait := none } }
    | none => s6
  s7.pairMode old t m cause

/-- A request accepted: pending for its slot, at the earliest one without AT; while the sampling time base is unset it waits for the
initial set, but Descent comes at once (R33, R501). -/
def State.takeRequest (s : State) (port t : Nat) (at_ : Option Nat) : State :=
  let cause := if t = 7 then 6 else 1
  if s.unset then (if t = 7 then (s.scheduleAuto 7 (some s.now)).transit 7 0 cause else s.pendMode t none port cause)
  else s.pendMode t (some (at_.getD (s.now + 16))) port cause

/-- A write of SYS_MODE_REQ: a request or a cancel; in Belay all but Descent from a maintenance port is refused (R33, R384). -/
def State.modeReqWrite (s : State) (port : Nat) (v : W64) : WriteRes :=
  let no (c : Cond) : WriteRes := s.refuse c 0 Reg.SYS_MODE_REQ port
  if bit v 4 then
    if s.belay then no .PAIR_MIRRORED
    else if s.flag Reg.SYS_MODE_PENDV = false then no .SYS_MODE_NOPEND
    else if s.mode.pendPort ≠ port then no .SYS_MODE_CANCEL_PORT
    else match s.mode.pendAt with
      | some p => if p < s.now + 2 then no .SYS_MODE_LATE else (s.cancelMode, none)
      | none => (s.cancelMode, none)
  else
    let t := bits v 2 0
    let at_ := if bit v 3 then some (s.copy port Reg.SYS_MODE_AT).toNat else none
    if s.belay = true ∧ ¬ (t = 7 ∧ 3 ≤ s.classOf port) then no .PAIR_MIRRORED
    else match s.modeTests port t at_ with
      | some c => no c
      | none => (s.takeRequest port t at_, none)

/-- MODE_REQUEST: a write of SYS_MODE_REQ with CANCEL = 0 (R33). -/
def execModeRequest (port : Port) (at_ : Bool) (target : BitVec 3) (s : State) : Res :=
  s.whenOpen port Reg.SYS_MODE_REQ <|
  .next (s.modeReqWrite port (BitVec.ofNat 64 (8 * b2n at_ + target.toNat))).1

/-- MODE_CANCEL: a write of SYS_MODE_REQ with CANCEL = 1 (R33). -/
def execModeCancel (port : Port) (s : State) : Res :=
  s.whenOpen port Reg.SYS_MODE_REQ <| .next (s.modeReqWrite port 16).1

/-- MODE_TRANSITION: the pending transition takes effect at its slot, after an overlay activation of the same slot; one that an
excitation handover causes comes last, after a coefficient swap too (R28, R34, R41). -/
def execModeTransition (s : State) : Res :=
  match s.mode.pendAt with
  | some m =>
    if s.modeDue && !s.overlayDue && !(s.mode.pendCause == 4 && s.swapDue) then .next (s.transit (s.getF Reg.SYS_MODE_PEND) m s.mode.pendCause) else .next s
  | none => .next s

/-- DRAIN_END: at the drain end of a stop the ledger coder writes what it holds, each enabled sample stream closes with LAST, and
streams and ledger writing are held (R37, R38). -/
def execDrainEnd (s : State) : Res :=
  match s.mode.drain with
  | some d =>
    if d ≤ s.now then
      let s1 := s.flushLedger true
      let s2 := s1.liveStreams.foldl (fun t st =>
        if (t.strmSt st).on && decide (t.kind st < 6) then t.lastOfStream st (s.que (t.strmQueue st)).pkts.length else t) s1
      .next { s2 with mode := { s2.mode with drain := none, writing := false } }
    else .next s
  | none => .next s

/-- The CRC-32C of a time mark, over its seconds and its sequence number (R46, R313). -/
def markCrc (sec seq : Nat) : Nat := crc32c (beBytes 8 sec ++ beBytes 4 seq)

/-- The valid record of the time-mark journal with the highest sequence number, with its place (R46). -/
def State.newestMark (s : State) : Option (Nat × TimeMark) :=
  s.mode.marks.foldl (fun best c => match c.2 with
    | none => best
    | some m =>
      let above := match best with
        | some b => decide (b.2.seq < m.seq)
        | none => true
      if m.crc == markCrc m.sec m.seq && above then some (c.1, m) else best) none

/-- A record written in the place after the last one of the 4,096, its sector of 256 places erased before its first place is written. The
first record of an empty journal takes place 0 and sequence number 0 (DESIGN CHOICE, log entry 34) (R46). -/
def State.putMark (s : State) (sec : Nat) : State :=
  let at_ := match s.newestMark with
    | some b => ((b.1 + 1) % 4096, (b.2.seq + 1) % 2 ^ 32)
    | none => (0, 0)
  let left : Sparse (Option TimeMark) := if at_.1 % 256 = 0 then s.mode.marks.filter (fun c => c.1 / 256 != at_.1 / 256) else s.mode.marks
  let m : TimeMark := { sec := sec, seq := at_.2, crc := markCrc sec at_.2 }
  { s with mode := { s.mode with marks := left.set (fun _ => none) at_.1 (some m), markAt := some s.now } }

/-- TIME_MARK: while acquiring, 2^26 slots after the mark before, the sampling time base's seconds are written to the journal under the
next sequence number (R46; log entry 34). -/
def execTimeMark (s : State) : Res :=
  let due := match s.mode.markAt with
    | some t => decide (t + 2 ^ 26 ≤ s.now)
    | none => true
  if s.acquiring && due then .next (s.putMark (s.tb s.sampTb).sec) else .next s

/-! ### Hub-level faults and the test access port (R438, R466, R480) -/

/-- The hub runs: past the lock of its root PLL. -/
def State.runs (s : State) : Bool :=
  match s.mode.phase with
  | .held | .straps => false
  | _ => true

/-- A hub-level fault that the manual gives no condition: HUB_ESCALATED names itself (R438; log entry 33). -/
def State.hubFault (s : State) (unit : Nat) : State := if s.runs then s.escalate .HUB_ESCALATED unit else s

/-- SUPPLY_MONITOR_FAULT: a rail is out of range for more than 16 slots: a hub-level fault; an excursion of VDDA_18 or VDD_EX (rails 2
and 3 of R463) also counts in every bank as a reference variation (R466). -/
def execSupplyMonitorFault (rail : Fin 10) (s : State) : Res :=
  let unstable (t : State) (b : Nat) : State :=
    if t.refSettled b then (t.setSettled b false).log .REF_UNSTABLE b [] else t
  let s1 := if (rail.val = 2 ∨ rail.val = 3) ∧ s.runs = true then (List.range 25).foldl unstable s else s
  .next (s1.hubFault rail)

/-- ROOT_PLL_UNLOCK: the root PLL loses lock: a hub-level fault (R438). -/
def execRootPllUnlock (s : State) : Res := .next (s.hubFault 0)

/-- SERVICE_WATCHDOG: 1 s without service of the service firmware: a hub-level fault (R438). -/
def execServiceWatchdog (s : State) : Res := .next (s.hubFault 0)

/-- An instruction of the test access port that acts on the pins. -/
def tapActs : TapOp → Bool
  | .extest | .clamp | .highz => true
  | .bypass | .idcode | .samplePreload => false

/-- TAP_INSTRUCTION_LOAD: EXTEST, CLAMP and HIGHZ force an acquiring hub into Descent with cause 6 first and act once the excitation
is gone; an entry into Descent that a fault has scheduled stands; there is no identification register, so IDCODE selects BYPASS
(R480, R501). -/
def execTapInstructionLoad (op : TapOp) (s : State) : Res :=
  if tapActs op && s.acquiring && s.falling then .next { s with mode := { s.mode with tapWait := some op } }
  else if tapActs op && s.acquiring then
    let s1 := s.cancelMode
    let s2 : State := { s1 with mode := { s1.mode with tapWait := some op } }
    .next (s2.pendMode 7 (some (s2.now + 1)) 7 6)
  else
    let op' := if op = .idcode then .bypass else op
    .next { s with mode := { s.mode with tap := op', tapWait := none } }

/-! ### Start-up (R42 to R48, R427) -/

/-- START_UP: with every rail in range PWR_OK and RESET_N begin start-up: the straps are sampled and SYS_AUTH takes its classes from
them; the last time mark is read (R42, R46, R349, R465). -/
def execStartUp (straps : Straps) (railsOk : Bool) (s : State) : Res :=
  if s.mode.phase = .held ∧ railsOk = true then
    let a := straps.auth.toNat
    let s1 := s.setReg Reg.SYS_STRAPS (BitVec.ofNat 64 (a * 16 + b2n straps.pairRole * 8 + straps.spMode.toNat * 2))
    let s2 := (s1.setF Reg.SYS_AUTH_L0 (a / 4)).setF Reg.SYS_AUTH_SP (a % 4)
    let s3 := s2.setF Reg.PAIR_STAT_DESIG (b2n straps.pairRole)
    let last := match s3.newestMark with
      | some m => m.2.sec
      | none => 0
    .next { s3 with mode := { s3.mode with phase := .straps, lastMark := last } }
  else .next s

/-- The start-up phase moves on. -/
def State.toPhase (s : State) (p : Phase) : State := { s with mode := { s.mode with phase := p } }

/-- ROOT_PLL_LOCK: the root PLL is locked to the crystal, the management serial port answers and the reference of the fast channels is
enabled (R43, R120). -/
def execRootPllLock (s : State) : Res := if s.mode.phase = .straps then .next ((s.toPhase .locked).enableRef 24) else .next s

/-- The copy journal shows a copy that is not complete (R427). -/
def State.copyPending (s : State) : Bool :=
  match s.upd.journal with
  | r :: _ => r.kind == .copyBegin || r.kind == .blockDone
  | [] => false

/-- The running image is usable: the journal ends with COPY_END or FACTORY and the header passes tests 2 and 3 of R424. -/
def State.runUsable (s : State) : Bool :=
  (match s.upd.journal with
    | r :: _ => r.kind == .copyEnd || r.kind == .factory
    | [] => false) && headerMagic s.runWord && headerPart s.runWord

/-- A pending copy goes on at its first block without BLOCK_DONE (R427). -/
def State.resumeCopy (s : State) : State :=
  let done := (s.upd.journal.takeWhile (fun r => r.kind == .blockDone)).length
  (s.setF Reg.UPD_STAT_COPYING 1).setF Reg.UPD_STAT_BLOCKS done

/-- The hub is in Bivouac: only the ROM runs; a staging area found VERIFIED is copied without a command, a copy begun before
goes on (R427, R428, R433). -/
def State.toBivouac (s : State) : State :=
  let s1 := (s.setMode 0 0 0).toPhase .loaded
  let s2 := (s1.setUpd { s1.upd with recover := false }).disableRef 24
  if s2.stageSt = 3 then (if s2.copyPending then s2.resumeCopy else s2.beginCopy) else s2

/-- LOADER_DECISION: the loader resumes a copy, starts up from the running image, copies a VERIFIED staging area, or enters Bivouac;
a reset by RECOVER leads into Bivouac (R44, R427, R428). -/
def execLoaderDecision (s : State) : Res :=
  if s.mode.phase ≠ .locked ∨ s.copying = true then .next s
  else if s.upd.recover then .next s.toBivouac
  else if s.copyPending then
    (if s.stageSt = 3 then .next s.resumeCopy else .next (s.log .UPD_RUN_UNUSABLE 0 []).toBivouac)
  else if s.runUsable then .next (s.toPhase .loaded)
  else if s.stageSt = 3 then .next s.beginCopy
  else .next (s.log .UPD_RUN_UNUSABLE 0 []).toBivouac

/-- LANE_BRING_UP: 10 ms after t = 0 the lanes begin their bring-up, in Bivouac as well (R43, R428). -/
def execLaneBringUp (s : State) : Res :=
  if s.mode.phase = .loaded then .next ((List.range 4).foldl (fun t l => t.bringUp l) (s.toPhase .lanes)) else .next s

/-- DRAM_TRAINING: the DRAM is trained and partitioned and holds nothing of before (R43, R47). -/
def execDramTraining (s : State) : Res :=
  if s.mode.phase = .configured then
    let s1 : State := { s with dram := [], poison := [], cap := { s.cap with mem := [], bad := [] } }
    .next (s1.toPhase .trained)
  else .next s

/-- The instructions of a program section: two a word, the first in the upper half (R499). -/
def sectionInstrs (ws : List W64) : List W32 := ws.flatMap (fun w => [w.extractLsb' 32 32, w.extractLsb' 0 32])

/-- What an instruction memory holds past its program: 0xFFFF_FFFF, which raises ILLEGAL (R499). -/
def noInstr (_ : Nat) : W32 := 0xFFFFFFFF#32

/-- An instruction memory that holds a program from index 0. -/
def instrMemory (l : List W32) : Sparse W32 :=
  (l.zip (List.range l.length)).foldl (fun m p => m.set noInstr p.2 p.1) []

/-- The program of an engine: of the configuration, else of the running image; none where neither has one (R50, R430). -/
def State.programOf (s : State) (progs : List ProgDef) (e : Nat) : Option (List W32) :=
  match progs.find? (fun p => p.eng == e) with
  | some p => some p.words
  | none => (engineSection s.runWord e).map (fun x => sectionInstrs (x.words s.runWord))

/-- The programs in the active engines' instruction memories. -/
def State.loadPrograms (s : State) : State :=
  s.activeEngines.foldl (fun t e => t.setEng e { t.eng e with imem := instrMemory ((t.programOf t.cfg.progs e).getD []) }) s

/-- The first mode is named: that of START, with Belay only on a designated Second and Ascent in its place on a designated Leader;
in a pair the hub listens first,
and the entry stands pending without a slot until the decision (R44, R48, R389). -/
def State.nameFirst (s : State) : State :=
  if s.flag Reg.CFG_STATUS_LOADED = false then s
  else
    let m := s.getF Reg.SYS_MODE_START
    let t := if m = 5 ∧ s.flag Reg.PAIR_STAT_DESIG = false then 3 else m
    let s1 : State := if s.pairOn then { s with pair := { s.pair with listening := some s.upSlots } } else s
    if t = 1 then s1 else s1.firstMode t

/-- PROGRAM_LOAD: every section of the running image is checked; one that fails leads to another copy, or into Bivouac. The programs
of a hub with a configuration are in the engines, the hub is in Basecamp, its host service runs, and the wait for the initial set begins
(R43, R44, R48, R427). -/
def execProgramLoad (s : State) : Res :=
  if s.mode.phase ≠ .trained then .next s
  else if (firmwareSections s.runWord).2 = false then
    if s.stageSt = 3 ∧ headerImage s.stageWord = headerImage s.runWord ∧ headerVersion s.stageWord = headerVersion s.runWord then
      .next ((s.log .UPD_RUN_CORRUPT 0 []).beginCopy.toPhase .locked)
    else .next s.toBivouac
  else
    let s0 := if s.flag Reg.CFG_STATUS_LOADED then s.loadPrograms else s
    let s1 := (s0.setF Reg.UPD_VER_ACT (headerVersion s.runWord)).toPhase .running
    let w := if s1.unset then some (s1.clk.uptime + s1.cfg.params.tsetWait * 3200000000) else none
    let s2 : State := { s1 with mode := { s1.mode with setWaitEnd := w } }
    .next s2.nameFirst

/-- TSET_WAIT_EXPIRY: TSET_WAIT has run out and the sampling time base is unset: it is set from the time mark (R46, R48). -/
def execTsetWaitExpiry (s : State) : Res :=
  match s.mode.setWaitEnd with
  | some t =>
    if t ≤ s.clk.uptime then
      let s1 : State := { s with mode := { s.mode with setWaitEnd := none } }
      if s1.unset then .next ((s1.log .TIME_START_MARK s1.sampTb []).setFromMark s1.sampTb) else .next s1
    else .next s
  | none => .next s

/-! ### The configuration TLV (R60, R61) -/

/-- CONFIG_BEACON: every 250,000 slots the TLV goes in a beacon on each chain or pair lane that is in no master state
(R60; log entry 35). -/
def execConfigBeacon (s0 : State) : Res :=
  let due := match s0.cfg.beaconAt with
    | some t => decide (t + 250000 ≤ s0.upSlots)
    | none => true
  if s0.serviceRuns && due then
    let s : State := { s0 with cfg := { s0.cfg with beaconAt := some s0.upSlots } }
    let on (l : Nat) : Bool := s.laneUp l && (s.laneRole l == 1 || s.laneRole l == 2)
      && !([0, 1, 2, 3].any (fun t => s.pstate t l == 6))
    .next ((List.range 4).foldl (fun t l =>
      if on l then
        t.pushFrame l { t.neilFrame 6 beaconMac (t.getF (Reg.SW_PORT_PVID l)) (0x1700000000000000#64 :: t.tlvWords) with encap := 0 }
      else t) s)
  else .next s0

/-- TLV_RECEIVED: a TLV of the hub's group: a second differing digest in a row under one epoch is a divergence; another epoch is a
mismatch, logged once per sender and epoch (R61). -/
def execTlvReceived (sender digest : W64) (epoch : BitVec 32) (group : BitVec 16) (s : State) : Res :=
  if group.toNat ≠ s.getF Reg.CFG_EPOCH_GROUP then .next s
  else
    let k := sender.toNat
    let e := epoch.toNat
    let old := s.cfg.peers.find? (fun p => p.sender == k)
    let same := e == s.getF Reg.CFG_EPOCH_EPOCH
    let differs := same && digest != s.reg Reg.CFG_DIGEST
    let c := { s.cfg with
      peers := { sender := k, differs := differs, epoch := e } :: s.cfg.peers.filter (fun p => p.sender != k) }
    let s1 : State := { s with cfg := c }
    if same then
      let twice := match old with
        | some p => p.differs && p.epoch == e
        | none => false
      if differs && twice then
        .next ((((s1.setReg Reg.CFG_DIV_PEER sender).setReg Reg.CFG_DIV_DIGEST digest).setF Reg.CFG_STATUS_DIVERGED 1).log
          .CFG_DIVERGED 0 [sender, digest])
      else .next s1
    else
      let s2 := ({ s1 with cfg := { s1.cfg with otherAt := some s.upSlots } } : State).setF Reg.CFG_STATUS_EPOCH_MISMATCH 1
      if s2.cfg.logged.contains (k, e) then .next s2
      else
        let s3 : State := { s2 with cfg := { s2.cfg with logged := (k, e) :: s2.cfg.logged } }
        .next (s3.log .CFG_EPOCH_MISMATCH 0 [sender, BitVec.ofNat 64 e])

/-- EPOCH_MISMATCH_CLEAR: no TLV of another epoch has arrived for 8 s (R61). -/
def execEpochMismatchClear (s : State) : Res :=
  match s.cfg.otherAt with
  | some t => if s.upSlots < t + 2000000 then .next s else .next (s.setF Reg.CFG_STATUS_EPOCH_MISMATCH 0)
  | none => .next (s.setF Reg.CFG_STATUS_EPOCH_MISMATCH 0)

end Sys2Proof.Machine
end

