-- ==== Sys2Proof/Machine/RegRead.lean ====
section
/-!
DEFINITION. Sys2Proof/Machine/RegRead.lean: what a read of a register word shows and does: per-port copies, windows, views
that follow the state of a block, the clearing of RC fields, SNAPSHOT groups (R7, R449 to R459).
-/
namespace Sys2Proof.Machine
open Sys2Proof

/-! ### Per-port copies (R455, R456) -/

/-- The word is held separately for each port: the registers of R455 and the window pointers of R456. -/
def copiedWord (a : Nat) : Bool :=
  [Reg.SYS_MODE_AT, Reg.CFG_OVL_AT, Reg.FLT_SWAP_AT, Reg.TIME_CMDSEC, Reg.TIME_CMDNS, Reg.TIME_CMDOFF, Reg.PAIR_AT,
   Reg.UPD_AT, Reg.UPD_PIECE_HDR, Reg.FLT_COEF_PTR, Reg.STRM_PTR, Reg.CAP_DESC_PTR, Reg.SW_VLAN_PTR, Reg.SW_FDB_PTR,
   Reg.UPD_BMAP_PTR, Reg.EVT_RDPTR, Reg.EVT_PRD_PTR, Reg.DBG_ENG_PTR].contains a

/-! ### Views -/

/-- The record that SEQ of a port's EVT_RDPTR names has been overwritten: it lies behind a full ring, by less than half the numbers
(R441; DESIGN CHOICE, log entry 37). -/
def State.evtGone (s : State) (seq : Nat) : Bool :=
  let d := (s.evt.nextSeq + 2 ^ 28 - seq) % 2 ^ 28
  decide (s.evt.ring.length = 1024 ∧ 1024 < d ∧ d < 2 ^ 27)

/-- EVT words as a port reads them. -/
def State.viewEvt (s : State) (port a : Nat) : W64 :=
  let seq := bits (s.copy port Reg.EVT_RDPTR) 27 0
  if a = Reg.EVT_STAT then BitVec.ofNat 64 (s.evt.nextSeq <<< 36 + s.evt.ring.length)
  else if a = Reg.EVT_RDPTR then BitVec.ofNat 64 (b2n (s.evtGone seq) <<< 63 + seq)
  else if Reg.EVT_REC 0 ≤ a ∧ a ≤ Reg.EVT_REC 3 then
    match s.recordAt seq with
    | some r => r.word (a - Reg.EVT_REC 0)
    | none => 0
  else if a = Reg.EVT_PRD_PTR then
    BitVec.ofNat 64 (capAt 1023 s.evt.flash.length <<< 32 + bits (s.copy port Reg.EVT_PRD_PTR) 9 0)
  else if Reg.EVT_PREC 0 ≤ a ∧ a ≤ Reg.EVT_PREC 3 then s.persistWord port (a - Reg.EVT_PREC 0)
  else s.reg a

/-- TIME words: TB_SEC and TB_NS show the time base, 0 while it is unset (R248). -/
def State.viewTime (s : State) (a : Nat) : W64 :=
  let t := (a - 0x0300) / 32
  let o := (a - 0x0300) % 32
  if 0x0380 ≤ a ∨ (o ≠ 2 ∧ o ≠ 3) then s.reg a
  else if s.getF (Reg.TB_STAT_STATE t) = 0 then 0
  else if o = 2 then BitVec.ofNat 64 (s.tb t).sec
  else BitVec.ofNat 64 ((s.tb t).ns <<< 32 + (s.tb t).frac)

/-- ENG words of a logical engine: its counts and its program slot on whichever physical engine does its work; FAULTED and
SPARE_FREE of the physical engine of that number (R155, R176, R177). -/
def State.viewEng (s : State) (a : Nat) : W64 :=
  let e := (a - 0x0800) / 64
  let en := s.eng (s.host e)
  let o := (a - 0x0800) % 64
  if o = 1 then
    BitVec.ofNat 64 (en.ckpts.length <<< 52 + en.cb.length <<< 40 + en.undo.length <<< 16 + b2n en.running <<< 1
      + b2n (s.freeSpares.contains e)) ||| s.reg a
  else if o = 4 then BitVec.ofNat 64 en.slot
  else s.reg a

/-- QUE words: QUE_PTR and QUE_STAT show the pointers modulo 2^(SIZE+1) (R316). -/
def State.viewQue (s : State) (a : Nat) : W64 :=
  let q := (a - 0x0C00) / 4
  let x := s.que q
  let m := 2 * s.queSize q
  if (a - 0x0C00) % 4 = 1 then BitVec.ofNat 64 ((x.wp % m) <<< 39 + (x.rp % m) <<< 14)
  else if (a - 0x0C00) % 4 = 2 then
    BitVec.ofNat 64 ((x.pkts.length + x.resend.length) <<< 48 + b2n x.disc <<< 45 + b2n x.open_.isSome <<< 44 + x.sp % m)
  else s.reg a

/-- CAP words: the miss log (R231) and the descriptor window. -/
def State.viewCap (s : State) (port a : Nat) : W64 :=
  if a = Reg.CAP_DESC_DATA then s.descRead port
  else if a = Reg.CAP_STATUS then s.reg a ||| BitVec.ofNat 64 (s.cap.misses.length <<< 32)
  else match s.cap.misses with
    | [] => s.reg a
    | m :: _ =>
      if a = Reg.CAP_MISS_SLOT then BitVec.ofNat 64 m.slot
      else if a = Reg.CAP_MISS_INFO then
        BitVec.ofNat 64 (2 ^ 63 + m.unit <<< 56 + m.next <<< 48 + m.frac <<< 32 + m.bin)
      else s.reg a

/-- CH words: REFU while the front end is on and the bank's reference is enabled and not settled (R116); on a fast channel CH_STATUS reports its
overrange (R450). -/
def State.viewCh (s : State) (a : Nat) : W64 :=
  let c := (a - 0x1000) / 8
  if (a - 0x1000) % 8 ≠ 3 then s.reg a
  else if c < 384 then
    let b := chBank c
    s.reg a ||| BitVec.ofNat 64 (b2n (s.acquiring && (s.refAt b).isSome && !s.refSettled b) <<< 15)
  else
    BitVec.ofNat 64 (b2n (s.flag (Reg.FC_STATUS_OVR (c - 384))) <<< 14 + b2n (s.flag (Reg.FC_STATUS_OVR_SEEN (c - 384))) <<< 13)

/-- BANK words: BANK_STATUS shows the carrier that runs and the excitation mode in force, which after a stop lasts until its last drive has
ended; in Belay the carrier runs without excitation (R31, R37, R75, R76, R382). -/
def State.viewBank (s : State) (a : Nat) : W64 :=
  let b := (a - 0x1C40) / 16
  if (a - 0x1C40) % 16 ≠ 3 then s.reg a
  else
    let drives := (bankChans b).filter (fun c => (s.ch c).drive.driving)
    let act := match drives with
      | c :: _ => if (s.ch c).ac then 2 else 1
      | [] => if s.bankExcited b || s.mode.stopAt.isSome then s.exMode b else 0
    s.reg a ||| BitVec.ofNat 64 (b2n (s.carrierOn b) <<< 6 + act <<< 4)

/-- SSP words: the oldest record of the receive ring (R377). -/
def State.viewSsp (s : State) (a : Nat) : W64 :=
  let n := (a - 0x1F40) / 16
  let o := (a - 0x1F40) % 16
  match (if o = 3 ∨ o = 4 then (s.ssp n).ring.head? else none) with
  | some r => if o = 3 then r.1 else r.2
  | none => s.reg a

/-- What a read of a word by a port shows; an unimplemented word shows 0 (R451). -/
def State.view (s : State) (port a : Nat) : W64 :=
  match blockOf a with
  | 2 => s.viewEvt port a
  | 3 => if copiedWord a then s.copy port a else s.viewTime a
  | 6 => if a = Reg.SW_VLAN_DATA then s.vlanRead port else if a = Reg.SW_FDB_DATA then s.fdbRead port
    else if copiedWord a then s.copy port a else s.reg a
  | 8 => s.viewEng a
  | 9 => s.viewQue a
  | 10 => if a = Reg.STRM_DATA then s.strmRead port
    else if a = Reg.LED_STAT then s.reg a ||| BitVec.ofNat 64 (s.led.lanes.length <<< 48 + s.led.replays.length <<< 16)
    else if copiedWord a then s.copy port a else s.reg a
  | 11 => if copiedWord a then s.copy port a else s.viewCap port a
  | 13 => if a = Reg.UPD_BMAP_DATA then (s.bmapRead port).1 else if copiedWord a then s.copy port a else s.reg a
  | 14 => s.viewCh a
  | 15 => s.viewBank a
  | 17 => if a = Reg.FLT_COEF_DATA then s.coefRead port else if copiedWord a then s.copy port a else s.reg a
  | 19 => s.viewSsp a
  | 20 => if a = Reg.DBG_ENG_DATA then s.dbgWord port else if copiedWord a then s.copy port a else s.reg a
  | _ => if copiedWord a then s.copy port a else s.reg a

/-! ### What a read does -/

/-- The mask of a register's fields with an access code. -/
def RegDesc.accMask (d : RegDesc) (p : Acc → Bool) : W64 :=
  d.fields.foldl (fun m f => if p f.acc then m ||| mask f.hi f.lo else m) 0

/-- The RC fields of a word cleared (R7). -/
def State.clearRc (s : State) (a : Nat) : State :=
  match findReg a with
  | none => s
  | some d =>
    let m := d.accMask (fun c => c == .rc)
    if m = 0 then s else s.setReg a (s.reg a &&& ~~~ m)

/-- A read of the word advances a window pointer (R456). -/
def readAdvances (a : Nat) : Bool :=
  [Reg.FLT_COEF_DATA, Reg.STRM_DATA, Reg.CAP_DESC_DATA, Reg.UPD_BMAP_DATA, Reg.DBG_ENG_DATA, Reg.EVT_REC 3].contains a

/-- What a read of a word by a port does beside showing it: RC fields clear, a window's pointer advances (R7, R456), a read of
SYS_SPLOST clears LOSTV. -/
def State.readEffect (s : State) (port a : Nat) : State :=
  if a = Reg.FLT_COEF_DATA then s.advanceCoef port
  else if a = Reg.STRM_DATA then s.advanceStrm port
  else if a = Reg.CAP_DESC_DATA then s.advanceDesc port
  else if a = Reg.UPD_BMAP_DATA then (s.bmapRead port).2
  else if a = Reg.DBG_ENG_DATA then s.dbgAdvance port
  else if a = Reg.EVT_REC 3 then
    s.setCopy port Reg.EVT_RDPTR (BitVec.ofNat 64 ((bits (s.copy port Reg.EVT_RDPTR) 27 0 + 1) % 2 ^ 28))
  else if a = Reg.SYS_SPLOST then (s.clearRc a).setF Reg.SYS_SPSTAT_LOSTV 0
  else s.clearRc a

/-- The state after the loads of window data words that an engine's program slots hold: each advances its pointer in the programs'
copy (R163, R455; DEDUCED, log entry 87). -/
def State.afterReads (s : State) (l : List (Nat × Nat)) : State := l.foldl (fun t x => t.readEffect progPort x.2) s

/-- A word read by a port: what it shows and the state after it. -/
def State.readWord (s : State) (port a : Nat) : W64 × State := (s.view port a, s.readEffect port a)

/-- n words read in one command, from an address up or all from it, one after the other (R357, R451). Addresses past 0x1FFF
read 0. -/
def State.readWords (s : State) (port : Nat) (inc : Bool) : Nat → Nat → List W64 × State
  | _, 0 => ([], s)
  | a, n + 1 =>
    let r := if a < 8192 then s.readWord port a else (0, s)
    let t := r.2.readWords port inc (if inc then a + 1 else a) n
    (r.1 :: t.1, t.2)

/-! ### SNAPSHOT groups (R457) -/

/-- The words of the group that an address names by its first word, in ascending order; none where it names no group. -/
def snapGroup (a : Nat) : Option (List Nat) :=
  let two (b : Nat) : Option (List Nat) := some [a, b]
  if a = Reg.SYS_MODE then two Reg.SYS_MODE_SLOT
  else if a = Reg.CFG_DIGEST then two Reg.CFG_EPOCH
  else if a = Reg.CFG_STATUS then two Reg.CFG_OVL_SLOT
  else if a = Reg.CFG_DIV_PEER then two Reg.CFG_DIV_DIGEST
  else if a = Reg.EVT_REC 0 ∨ a = Reg.EVT_PREC 0 then some [a, a + 1, a + 2, a + 3]
  else if 0x0300 ≤ a ∧ a < 0x0380 ∧ ((a - 0x0300) % 32 = 2 ∨ (a - 0x0300) % 32 = 6) then two (a + 1)
  else if 0x0380 ≤ a ∧ a < 0x03C0 ∧ (a - 0x0380) % 4 = 1 then two (a + 1)
  else if a = Reg.TIV_RESULT ∨ a = Reg.TIV_FN then some [a, a + 1, a + 2]
  else if 0x0C00 ≤ a ∧ a < 0x0D00 ∧ (a - 0x0C00) % 4 = 1 then two (a + 1)
  else if a = Reg.LED_HORIZON ∨ a = Reg.CAP_MISS_SLOT then two (a + 1)
  else if 0x0E80 ≤ a ∧ a < 0x0F00 ∧ (a - 0x0E80) % 16 = 7 then two (a + 1)
  else if 0x1C40 ≤ a ∧ a < 0x1DC0 ∧ (a - 0x1C40) % 16 = 7 then two (a + 1)
  else if 0x1E20 ≤ a ∧ a < 0x1E38 then two (a + 0x20)
  else if 0x1F40 ≤ a ∧ a < 0x1F80 ∧ (a - 0x1F40) % 16 = 3 then two (a + 1)
  else none

/-- The words of a group, all latched in one management clock, and then the effects of their reads (R371). -/
def State.snapWords (s : State) (port : Nat) (l : List Nat) : List W64 × State :=
  (l.map (fun a => s.view port a), l.foldl (fun t a => t.readEffect port a) s)

end Sys2Proof.Machine
end

