-- ==== Sys2Proof/Machine/KolouxMem.lean ====
section
/-!
DEFINITION. Sys2Proof/Machine/KolouxMem.lean: the data address map, stores, AADD, branches and jumps of the Koloux engines (R153, R154, R193 to
R197).
-/
namespace Sys2Proof.Machine
open Sys2Proof

/-! ### The data address map (R153) -/

/-- A range of the data address map (R153). -/
inductive Range where
  | lmem | sram | hub | dram
  deriving DecidableEq, Repr

/-- The range that n bytes from an address lie in; none outside the map or past the configured bulk memory (R153). -/
def State.range (s : State) (a n : Nat) : Option Range :=
  if a + n ≤ 0x20000 then some .lmem
  else if 0x100000 ≤ a ∧ a + n ≤ 0x500000 then some .sram
  else if 0x1000000 ≤ a ∧ a + n ≤ 0x1010000 then some .hub
  else if 0x100000000 ≤ a ∧ a + n ≤ 0x100000000 + 8 * s.bulkWords then some .dram
  else none

/-- The hub word address of an address in the hub register window (R153). -/
def hubWord (a : Nat) : Nat := (a - 0x1000000) / 8

/-- A program may store into the block of a word address (R154). -/
def storeScope (a : Nat) : Bool := [2, 4, 9, 10, 11, 14, 15, 16, 17, 18, 19].contains (blockOf a)

/-- A byte of shared SRAM or of the DRAM window. -/
def State.sharedByte (s : State) (a : Nat) : Byte :=
  if a < 0x500000 then Memory.get s.sram (a - 0x100000) else Memory.get s.dram (a - 0x100000000)

/-- Bytes written to shared SRAM or to the DRAM window; a whole word written mends its failing check (R437; log entry 30). -/
def State.sharedWrite (s : State) (a n v : Nat) : State :=
  if a < 0x500000 then
    let o := a - 0x100000
    { s with sram := Memory.write s.sram o n v, sramBad := if n = 8 then s.sramBad.filter (fun w => w != o / 8) else s.sramBad }
  else
    let o := a - 0x100000000
    { s with dram := Memory.write s.dram o n v, poison := if n = 8 then s.poison.filter (fun w => w != o / 8) else s.poison }

/-- The byte at an address after the plain stores of a list of entries, newest last (R194). -/
def forwardByte (ops : List CbOp) (a : Nat) (b : Byte) : Byte :=
  ops.foldl (fun v o => match o with
    | .store ad sz val => if ad ≤ a ∧ a < ad + sz then BitVec.ofNat 8 (val >>> (8 * (ad + sz - 1 - a))) else v
    | _ => v) b

/-- The stores of an engine that are not applied yet, in program order: those of its groups on their way and those in its commit
buffer (R159, R194; DEDUCED, log entry 38). -/
def State.ownStores (s : State) (e : Nat) : List CbOp :=
  let l := s.logical e
  ((s.arb.accepted ++ s.arb.ready).filter (fun g => g.eng == l)).flatMap (fun g => g.ops) ++ (s.eng e).cb.map (fun i => i.op)

/-- The number that a load from shared SRAM or the DRAM window returns: memory overlaid with the engine's own stores (R194). -/
def State.sharedLoad (s : State) (e a n : Nat) : Nat :=
  let ops := s.ownStores e
  ofLeBytes ((List.range n).map (fun i => forwardByte ops (a + i) (s.sharedByte (a + i)))).reverse

/-! ### The commit buffer and the undo log (R162, R163) -/

/-- The entries of the program slot in progress fill the commit buffer: one more raises CB_OVF (R163). -/
def EngSt.cbOver (en : EngSt) : Bool := decide (64 ≤ (en.cb.filter (fun i => i.slot == en.slot)).length)

/-- A stall on a full commit buffer, counted once a slot (R163). -/
def State.cbStall (s : State) (e : Nat) : State :=
  let en := s.eng e
  if en.stallCb = some s.now then s
  else (s.setEng e { en with stallCb := some s.now }).bump (Reg.ENG_CB_CB_STALLS (s.logical e))

/-- A stall on a full undo log, counted once a slot (R162). -/
def State.undoStall (s : State) (e : Nat) : State :=
  let en := s.eng e
  if en.stallUndo = some s.now then s
  else (s.setEng e { en with stallUndo := some s.now }).bump (Reg.ENG_CB_UNDO_STALLS (s.logical e))

/-- An instruction that places one entry in the commit buffer: it raises the first of its exceptions, in the order of R193 or by their
codes, or CB_OVF, else it stalls while the buffer is full (R163, R193, R210). The tests stand before and after CB_OVF. -/
def State.commitEntry (s : State) (e : Nat) (en : EngSt) (low high : List (Bool × Exc)) (op : CbOp) : KRes :=
  let tests : List (Bool × Exc) := low ++ (en.cbOver, Exc.cbOvf) :: high
  match tests.find? (fun t => t.1) with
  | some t => .raise t.2
  | none =>
    if 64 ≤ en.cb.length then .stall (s.cbStall e)
    else .done s { en with cb := en.cb ++ [{ slot := en.slot, op := op }] }

/-! ### Addresses (R193) -/

/-- The effective address ra + OFF × size (R193). -/
def EngSt.address (en : EngSt) (ra : WReg) (off : BitVec 12) (size : Nat) : Nat :=
  (en.rw ra + BitVec.ofInt 64 (off.toInt * (size : Int))).toNat

/-- An access of n bytes at an address passes the first tests of R193, in their order: the address is a multiple of n, and it lies in the map
(R153, R193; DEDUCED, log entry 36). -/
def State.access (s : State) (a n : Nat) : Except Exc Range :=
  if a % n ≠ 0 then .error .align
  else match s.range a n with
    | none => .error .addrRange
    | some r => .ok r

/-! ### Stores (R193 to R195) -/

/-- The old word of a local data memory word goes to the undo log, newest first, and the store acts at once; a full log stalls
it and the 1,025th store of a program slot raises UNDO_OVF (R162, R194). -/
def State.localStore (s : State) (e : Nat) (en : EngSt) (a n v : Nat) : KRes :=
  if 1024 ≤ (en.undo.filter (fun u => u.slot == en.slot)).length then .raise .undoOvf
  else if 1024 ≤ en.undo.length then .stall (s.undoStall e)
  else
    let w := a / 8 * 8
    .done s { en with
      undo := { slot := en.slot, addr := w, old := Memory.word en.lmem w } :: en.undo, lmem := Memory.write en.lmem a n v }

/-- A store of the n low bytes of rd (R193, R194). -/
def State.store (s : State) (e : Nat) (g : Guard) (rd ra : WReg) (off : BitVec 12) (n : Nat) : Res :=
  s.koloux e g (fun s en =>
    let a := en.address ra off n
    let v := (en.rw rd).toNat % 2 ^ (8 * n)
    match s.access a n with
    | .error x => .raise x
    | .ok .lmem => s.localStore e en a n v
    | .ok .hub => s.commitEntry e en [(n != 8, .hubregSize), (!storeScope (hubWord a), .hubregScope)] [] (.store a n v)
    | .ok _ => s.commitEntry e en [] [] (.store a n v))

/-- ST (R193). -/
def execSt (e : Fin 16) (g : Guard) (rd ra : WReg) (off : BitVec 12) (s : State) : Res := s.store e g rd ra off 8
/-- SW (R193). -/
def execSw (e : Fin 16) (g : Guard) (rd ra : WReg) (off : BitVec 12) (s : State) : Res := s.store e g rd ra off 4
/-- SH (R193). -/
def execSh (e : Fin 16) (g : Guard) (rd ra : WReg) (off : BitVec 12) (s : State) : Res := s.store e g rd ra off 2
/-- SB (R193). -/
def execSb (e : Fin 16) (g : Guard) (rd ra : WReg) (off : BitVec 12) (s : State) : Res := s.store e g rd ra off 1

/-- AADD: one entry that adds rd to a word of shared SRAM or of the DRAM window when it is applied (R195). -/
def execAadd (e : Fin 16) (g : Guard) (rd ra : WReg) (off : BitVec 12) (s : State) : Res :=
  s.koloux e g (fun s en =>
    let a := en.address ra off 8
    let shared := match s.range a 8 with
      | some .sram | some .dram => true
      | _ => false
    s.commitEntry e en [(a % 8 != 0, .align), (!shared, .addrRange)] [] (.aadd a (en.rw rd)))

/-! ### Branches and jumps (R197) -/

/-- A jump to an index, or BRANCH_RANGE where it is none (R197). -/
def jumpTo (s : State) (en : EngSt) (t : Int) : KRes :=
  if 0 ≤ t ∧ t < 16384 then .jump s en t.toNat else .raise .branchRange

/-- BR: taken when p[PC] XOR PN is 1, to i + DISP (R197). -/
def execBr (e : Fin 16) (pc : PReg) (pn : Bool) (disp : BitVec 22) (s : State) : Res :=
  s.issue e true (fun s en => if en.rp pc ^^ pn then jumpTo s en ((en.pc : Int) + disp.toInt) else .done s en)

/-- BL: a BR that, when taken, writes i + 1 into w31 (R197). -/
def execBl (e : Fin 16) (pc : PReg) (pn : Bool) (disp : BitVec 22) (s : State) : Res :=
  s.issue e true (fun s en =>
    if en.rp pc ^^ pn then jumpTo s (en.setW 31 (BitVec.ofNat 64 (en.pc + 1))) ((en.pc : Int) + disp.toInt) else .done s en)

/-- JR: a jump to ra[13:0]; any higher bit raises BRANCH_RANGE (R197). -/
def execJr (e : Fin 16) (g : Guard) (ra : WReg) (s : State) : Res :=
  s.koloux e g (fun s en => jumpTo s en (en.rw ra).toNat)

/-- JRL: a JR that writes i + 1 into rd (R197). -/
def execJrl (e : Fin 16) (g : Guard) (rd ra : WReg) (s : State) : Res :=
  s.koloux e g (fun s en => jumpTo s (en.setW rd (BitVec.ofNat 64 (en.pc + 1))) (en.rw ra).toNat)

/-- A command is the one that an engine issues next: the one that the instruction word at its PC spells (R164, R186; log entry 11). -/
def State.NextInstr (s : State) (e : Fin 16) (i : Instr) : Prop := IssuedBy (Sparse.get 0 (s.eng e).imem (s.eng e).pc) e i

/-- ILLEGAL_INSTRUCTION: an unassigned encoding raises ILLEGAL, whatever its guard (R186, R210). -/
def execIllegalInstruction (e : Fin 16) (s : State) : Res := s.issue e true (fun _ _ => .raise .illegal)

end Sys2Proof.Machine
end

