-- ==== Sys2Proof/Machine/KolouxHub.lean ====
section
/-!
DEFINITION. Sys2Proof/Machine/KolouxHub.lean: the hub instructions of the Koloux engines (R198 to R209).
-/
namespace Sys2Proof.Machine
open Sys2Proof

/-- WAITSLOT: stalls until the real slot is at least ra (R199). -/
def execWaitslot (e : Fin 16) (g : Guard) (ra : WReg) (s : State) : Res :=
  s.koloux e g (fun s en => if (en.rw ra).toNat ≤ s.now then .done s en else .stall s)

/-! ### FETCH (R200 to R202) -/

/-- The ring of the output buffer that a kind names (R149). -/
def kindIx : WordKind → Nat
  | .value => 0 | .max => 1 | .min => 2 | .rms => 3 | .env => 4

/-- The word of instant m may be in the buffer: tick 0 of slot m + 6 has come and the pipeline has written what it delivers
at that tick (R200, R202). -/
def State.bufferReady (s : State) (c m : Nat) : Bool :=
  decide (m + 6 ≤ s.now) &&
  !(m + 6 == s.now && (s.outputAt c m).isSome && !((s.flt c).outs.any (fun o => o.at_ == m)))

/-- m is an instant of a kind for a channel, under the settings in force at m or, where none are recorded, the present ones: a
detector's also where its window closed early (R118, R130, R142, R147; DEDUCED, log entry 39). -/
def State.instantOf (s : State) (c kind m : Nat) : Bool :=
  let f := s.flt c
  let e := match f.entryAt m with
    | some r => r.1
    | none => { start := 0, winFrom := 0, cut := false, det := none, grid := s.gridP, set := s.fltNow c }
  if kind = 0 ∨ kind = 4 then e.instant m
  else e.detInstant m || (f.word kind m).isSome || (f.bufs.get (fun _ => {}) kind).gone.contains m

/-- A status word of FETCH: CHAN 511 with its code in FLAGS (R200). -/
def statusWord (code m : Nat) : W64 := sampleWord 0 511 code m

/-- What FETCH returns from the tick the word of instant m may be in the buffer on (R200). -/
def State.fetchWord (s : State) (c kind m : Nat) : W64 :=
  if !s.instantOf c kind m then statusWord 3 m
  else match (s.flt c).word kind m with
    | some w => w
    | none => if ((s.flt c).bufs.get (fun _ => {}) kind).gone.contains m then statusWord 2 m else statusWord 4 m

/-- FETCH (R200, R201). -/
def execFetch (e : Fin 16) (g : Guard) (rd ra rb : WReg) (kind : WordKind) (s : State) : Res :=
  s.koloux e g (fun s en =>
    let c := bits (en.rw ra) 8 0
    let m := (en.rw rb).toNat
    if 391 < c then .raise .fetchChan
    else if s.bufferReady c m then .done s (en.setW rd (s.fetchWord c (kindIx kind) m))
    else if bit (en.rw ra) 16 = true ∨ s.now + 16 < m + 6 then .done s (en.setW rd (statusWord 1 m))
    else .stall s)

/-! ### Entries of the commit buffer (R203 to R206) -/

/-- CONVSET: the paths of positions of a bank for a target slot k + 1 to k + 8 (R203). -/
def execConvset (e : Fin 16) (g : Guard) (ra rb : WReg) (s : State) : Res :=
  s.koloux e g (fun s en =>
    let w := en.rw ra
    let t := (en.rw rb).toNat
    s.commitEntry e en [] [(decide (23 < bits w 36 32), .convsetBank), (!(decide (en.slot + 1 ≤ t) && decide (t ≤ en.slot + 8)), .convsetTarget)]
      (.convset (bits w 36 32) (bits w 15 0) (bits w 31 16) t))

/-- The words that EMIT carries, from rb up. -/
def EngSt.emitWords (en : EngSt) (rb : WReg) (n : Nat) : List W64 := (List.range n).map (fun i => en.rw (rb.val + i))

/-- EMIT: one to four words for a queue bound to this engine (R204). -/
def execEmit (e : Fin 16) (g : Guard) (ra rb : WReg) (n : Fin 4) (s : State) : Res :=
  s.koloux e g (fun s en =>
    let w := en.rw ra
    let ws := en.emitWords rb (n.val + 1)
    s.commitEntry e en [] [(s.getF (Reg.QUE_CFG_PROD (bits w 5 0)) != s.logical e, .emitQueue),
        (decide (31 < rb.val + n.val), .emitRegs), (ws.any (fun x => decide (391 < wordChan x)), .emitChan)]
      (.emit (bits w 5 0) (bit w 8) (bit w 9) ws))

/-- EVENT: a record of the event log, with a notice where asked (R205). -/
def execEvent (e : Fin 16) (g : Guard) (ra rb : WReg) (notify : Bool) (s : State) : Res :=
  s.koloux e g (fun s en =>
    s.commitEntry e en [] [(bit (en.rw ra) 15, .eventCode)] (.event (bits (en.rw ra) 15 0) (en.rw rb) notify))

/-- TRIGARM: an arm or a disarm of a trigger unit (R206). -/
def execTrigarm (e : Fin 16) (g : Guard) (ra rb : WReg) (s : State) : Res :=
  s.koloux e g (fun s en =>
    s.commitEntry e en [] [] (.trigarm (bits (en.rw ra) 2 0) (bit (en.rw ra) 8) (en.rw rb).toNat))

/-! ### TBREAD, CKPT and SQUASHED? (R207 to R209) -/

/-- The two words that TBREAD reads of a time base (R207). -/
def State.tbPair (s : State) (t field : Nat) : W64 × W64 :=
  if field = 0 then (s.viewTime (Reg.TB_SEC t), s.viewTime (Reg.TB_NS t))
  else if field = 1 then (BitVec.ofNat 64 s.now, BitVec.ofNat 64 s.clk.tick)
  else (s.viewTime (Reg.TB_STAT t), 0)

/-- TBREAD: a field of a time base into rd and rd + 1 (R207). -/
def execTbread (e : Fin 16) (g : Guard) (rd ra : WReg) (field : Fin 3) (s : State) : Res :=
  s.koloux e g (fun s en =>
    let sel := bits (en.rw ra) 2 0
    if 4 < sel then .raise .tbreadSel
    else if rd.val = 0 ∨ rd.val = 31 then .raise .tbreadReg
    else
      let p := s.tbPair (if sel = 4 then s.sampTb else sel) field
      .done s ((en.setW rd p.1).setW (rd.val + 1) p.2))

/-- The engine at the start of program slot k + 1, whose first instruction is at pc, with its checkpoint (R160, R208). -/
def EngSt.nextSlot (en : EngSt) (pc : Nat) : EngSt :=
  { en with
    slot := en.slot + 1, sq := false, snapArmed := false, snap := []
    ckpts := en.ckpts ++ [en.snapshot (en.slot + 1) pc] }

/-- The registers at the first instruction of a program that a logical engine switches to: w1 the record address, w2 the agreed
slot h + e, w3 the old VERSION (R431). -/
def State.switchRegs (s : State) (l : Nat) (en : EngSt) : EngSt :=
  let z : EngSt := { en with w := [], p := 1, a := [] }
  ((z.setW 1 (BitVec.ofNat 64 (0x004D0000 + 0x1000 * l))).setW 2 (BitVec.ofNat 64 ((s.reg Reg.UPD_TSLOT).toNat + l))).setW 3
    (BitVec.ofNat 64 (s.getF Reg.UPD_VER_ACT))

/-- CKPT ends the program slot once k + 1 ≤ r + AHEAD and fewer than 8 checkpoints are held; where it begins the slot at which the
engine switches in Traverse, execution goes on at index 2 of the shadow memory (R160, R161, R208, R431). -/
def execCkpt (e : Fin 16) (g : Guard) (s : State) : Res :=
  s.koloux e g (fun s en =>
    let l := s.logical e
    if en.slot + 1 ≤ s.now + s.effF (Reg.ENG_CTL_AHEAD l) ∧ en.ckpts.length < 8 then
      if s.upd.switches.get (fun _ => 0) l = en.slot + 1 ∧ s.upd.switched.contains l = false then
        .jump { s with upd := { s.upd with switched := s.upd.switched ++ [l] } } ((s.switchRegs l en).nextSlot 2) 2
      else .done s (en.nextSlot (en.pc + 1))
    else .stall s)

/-- SQUASHED?: pd takes the squash indication (R209). -/
def execSquashed (e : Fin 16) (g : Guard) (pd : PReg) (s : State) : Res :=
  s.kolouxReg e g (fun en => en.setP pd en.sq)

end Sys2Proof.Machine
end

