-- ==== Sys2Proof/Machine/EngEvents.lean ====
section
/-!
DEFINITION. Sys2Proof/Machine/EngEvents.lean: commit of program slots, squashes, redirects, exception entry, engine faults and
takeovers, lateness (R165 to R179, R211, R431).
-/
namespace Sys2Proof.Machine
open Sys2Proof

/-! ### Commit (R165, R166) -/

/-- The oldest program slot of an engine has ended and r has reached it (R165). -/
def State.commits (s : State) (en : EngSt) : Bool := en.running && decide (en.oldest < en.slot) && decide (en.oldest ≤ s.now)

/-- The engine without its oldest program slot: checkpoint, undo-log and commit-buffer entries freed (R162, R165). -/
def EngSt.committed (en : EngSt) (now : Nat) : EngSt :=
  { en with
    ckpts := en.ckpts.filter (fun c => decide (en.oldest < c.slot)), undo := en.undo.filter (fun u => decide (en.oldest < u.slot))
    cb := en.cb.filter (fun i => decide (en.oldest < i.slot)), reads := en.reads.filter (fun x => decide (en.oldest < x.1))
    lastCommit := now }

/-- The old instruction memory becomes the shadow memory once the program slot an engine switched at has committed (R431). -/
def State.swapMemories (s : State) (e l k : Nat) : State :=
  if s.upd.switches.get (fun _ => 0) l = k ∧ s.upd.switched.contains l = true then
    let en := s.eng e
    let u := { s.upd with
      switched := s.upd.switched.filter (fun j => j != l), switches := s.upd.switches.set (fun _ => 0) l 0 }
    ({ s with upd := u } : State).setEng e { en with imem := en.shadow, shadow := en.imem }
  else s

/-- LATE clears when the engine is within LAGMAX again (R179). -/
def State.clearLate (s : State) (e : Nat) : State :=
  let l := s.logical e
  if s.now ≤ (s.eng e).oldest + s.getF (Reg.ENG_CTL_LAGMAX l) then s.setF (Reg.ENG_STAT_LATE l) 0 else s

/-- PROGRAM_SLOT_COMMIT: the oldest program slot of an engine commits and passes its entries as one group; the pointers that its loads of
window data words used advance (R163, R165). -/
def execProgramSlotCommit (e : Fin 16) (s : State) : Res :=
  let en := s.eng e
  if s.commits en then
    let l := s.logical e
    let k := en.oldest
    let g : Group :=
      { slot := k, eng := l, ops := (en.cb.filter (fun i => i.slot == k)).map (fun i => i.op), seq := 0, accSlot := 0, accTick := 0 }
    let s1 := ((s.afterReads (en.reads.filter (fun x => x.1 == k))).setEng e (en.committed s.now)).setReg (Reg.ENG_CSLOT l) (BitVec.ofNat 64 k)
    let s2 : State := { s1 with arb := { s1.arb with ready := s1.arb.ready ++ [g] } }
    .next ((s2.swapMemories e l k).clearLate e)
  else .next s

/-- The group that the arbiter accepts next: the least program slot, then the least engine (R166). -/
def firstGroup : List Group → Option Group
  | [] => none
  | g :: r => match firstGroup r with
    | some h => if h.slot < g.slot ∨ (h.slot = g.slot ∧ h.eng < g.eng) then some h else some g
    | none => some g

/-- COMMIT_GROUP_ACCEPT: the arbiter accepts a ready group under the next commit sequence number (R166). -/
def execCommitGroupAccept (s : State) : Res :=
  match firstGroup s.arb.ready with
  | none => .next s
  | some g =>
    let seq := s.arb.nextSeq
    let a := { s.arb with
      ready := s.arb.ready.erase g, nextSeq := (seq + 1) % 2 ^ 64
      accepted := s.arb.accepted ++ [{ g with seq := seq, accSlot := s.now, accTick := s.clk.tick }] }
    .next (({ s with arb := a } : State).setReg (Reg.ENG_CSEQ g.eng) (BitVec.ofNat 64 seq))

/-! ### Squash causes (R168 to R175) -/

/-- The return slot of a cause and its row in the table of R168. -/
def EngSt.causeRank (en : EngSt) (c : HeldCause) : Nat × Nat :=
  if c.kind = 1 then (en.oldest, 0) else (Nat.max c.slot en.oldest, if c.kind = 2 then 1 else 2)

/-- The cause reaches a program slot in progress or complete; one that does not waits, or has nothing to discard (R172, R173). -/
def EngSt.reached (en : EngSt) (c : HeldCause) : Bool := decide ((en.causeRank c).1 ≤ en.slot)

/-- A cause goes before another: those that a takeover held first, in order of arrival; of the others the earlier return slot, then the
earlier row, then the lower channel (R171, R175, R177). -/
def EngSt.before (en : EngSt) (a b : HeldCause) : Bool :=
  if a.arr ≠ b.arr then a.arr != 0 && (b.arr == 0 || decide (a.arr < b.arr)) else
  let x := en.causeRank a
  let y := en.causeRank b
  decide (x.1 < y.1) || (x.1 == y.1 && (decide (x.2 < y.2) || (x.2 == y.2 && decide (a.detail < b.detail))))

/-- The cause that goes first. -/
def EngSt.firstCause (en : EngSt) : List HeldCause → Option HeldCause
  | [] => none
  | c :: r => match en.firstCause r with
    | some d => if en.before d c then some d else some c
    | none => some c

/-- The word that a cause writes to ECAUSE (R183). -/
def HeldCause.ecause (c : HeldCause) : W64 := ecauseWord c.kind c.code c.detail c.slot

/-- Range reports and mode changes that an engine holds, counted (R171, R175). -/
def State.countCauses (s : State) (l : Nat) (cs : List HeldCause) : State :=
  cs.foldl (fun t c => if c.kind = 1 then t.bump (Reg.ENG_SQ_RANGE l) else t.bump (Reg.ENG_SQ_MODE l)) s

/-- The causes of an engine that fall with one that is carried out: those that a takeover did not hold; of one that it held, none
(R175, R177). -/
def HeldCause.rivals (c : HeldCause) (l : List HeldCause) : List HeldCause := if c.arr = 0 then l else []

/-- A pending exception whose earlier program slots have committed; one that loses to another cause is counted (R168, R174, R175). -/
def EngSt.excDue (en : EngSt) : Bool := en.exc.isSome && en.oldest == en.slot

/-- A cause carried out: the squash, and the causes of other kinds that lose to it counted: redirects, which are taken when the engine
next enters their slot, and an exception that was due (R169, R172, R175). -/
def State.loseTo (s : State) (e : Nat) (c : HeldCause) (redirs : List HeldCause) : State :=
  let en := s.eng e
  let l := s.logical e
  let s1 := s.addF (Reg.ENG_SQ_REDIR l) (c.rivals redirs).length
  if c.arr = 0 ∧ en.excDue = true then s1.bump (Reg.ENG_SQ_EXC l) else s1

/-- An engine squashed to return slot q, at a PC or at that of checkpoint q; where q lies before the slot it switched at, it runs
from its old instruction memory again (R169, R431). -/
def State.squashTo (s : State) (e q : Nat) (pc : Option Nat) (cause : W64) : State :=
  ((s.setEng e ((s.eng e).squash q pc cause)).unswitch (s.logical e) q)

/-- The due redirect of an engine that goes first. -/
def EngSt.dueRedirect (en : EngSt) : Option HeldCause := en.firstCause (en.redirs.filter (fun c => en.reached c))

/-- SQUASH: of the range mispredictions and mode changes that an engine holds the first takes effect and the others are counted, with the
redirects and the exception that lose to it; a redirect that goes before them is carried out first; with RMSQ = 0 a report is
counted and written to ECAUSE; causes held by a takeover wait for it and are carried out one by one (R168 to R177). -/
def execSquash (e : Fin 16) (s : State) : Res :=
  let en := s.eng e
  let l := s.logical e
  if s.arb.takeovers.any (fun k => k.phys == e.val) then .next s
  else if !en.running then .next (s.setEng e { en with held := [] })
  else
    let squashes (c : HeldCause) : Bool := (c.kind != 1 || s.effFlag (Reg.ENG_CTL_RMSQ l)) && en.reached c
    match en.firstCause (en.held.filter squashes) with
    | none =>
      let s1 := s.countCauses l (en.held.filter (fun c => c.kind == 1))
      match (en.held.filter (fun c => c.kind == 1)).getLast? with
      | some c => .next (s1.setEng e { en with held := [], ecause := c.ecause })
      | none => .next (s1.setEng e { en with held := [] })
    | some c =>
      let yields := match en.dueRedirect with
        | some r => en.before r c
        | none => false
      if yields then .next s
      else
        let gone := if c.arr = 0 then en.held else [c]
        let s1 := (s.countCauses l (gone.filter (fun k => k.kind == 1 || en.reached k))).loseTo e c (en.redirs.filter (fun r => en.reached r))
        .next ((s1.setEng e { en with held := en.held.filter (fun k => !gone.contains k) }).squashTo e (en.causeRank c).1 none c.ecause)

/-- REDIRECT: a trigger or alarm redirect whose program slot has begun squashes to it and resumes at ENG_REDIR.VEC; a held cause that
goes before it is carried out first; one that it goes before is counted, with an exception and other redirects that lose to it (R172, R175,
R177). -/
def execRedirect (e : Fin 16) (s : State) : Res :=
  let en := s.eng e
  let l := s.logical e
  match (if en.running then en.dueRedirect else none) with
  | none => .next s
  | some r =>
    let squashes (c : HeldCause) : Bool := (c.kind != 1 || s.effFlag (Reg.ENG_CTL_RMSQ l)) && en.reached c
    let yields := match en.firstCause (en.held.filter squashes) with
      | some c => en.before c r
      | none => false
    if yields then .next s
    else
      let lost := r.rivals (en.held.filter squashes)
      let others := en.redirs.erase r
      let s1 := (s.countCauses l lost).loseTo e r (others.filter (fun c => en.reached c))
      let en1 := { en with held := en.held.filter (fun k => !lost.contains k), redirs := others }
      .next (((s1.setEng e en1).squashTo e (en.causeRank r).1 (some (s.effF (Reg.ENG_REDIR_VEC l))) r.ecause).bump (Reg.ENG_SQ_REDIR l))

/-- EXCEPTION_ENTRY: once every earlier program slot has committed, the excepting slot is squashed and execution goes on at the
exception vector, index 4; any other cause that is due is carried out first (R168, R174, R211). -/
def execExceptionEntry (e : Fin 16) (s : State) : Res :=
  let en := s.eng e
  match en.exc with
  | none => .next s
  | some w =>
    if en.running && en.oldest == en.slot && en.held.isEmpty && en.dueRedirect.isNone then
      let s1 := s.squashTo e en.slot (some 4) w
      .next ((s1.setEng e { s1.eng e with vecSlot := some en.slot }).bump (Reg.ENG_SQ_EXC (s.logical e)))
    else .next s

/-! ### Faults and takeover (R176 to R178) -/

/-- ENG_FAULT: an uncorrectable error in a memory or a parity error of a physical engine. An engine that runs, or is active, stops and its
work waits for a spare; a free spare goes out of service; one that is taking work over escalates the fault (R176, R440). An
engine that is off, or faulted before, does nothing. -/
def execEngFault (e : Fin 16) (cause : EngFaultCause) (s : State) : Res :=
  match cause with
  | .imemEcc | .lmemEcc | .parity =>
    if s.flag (Reg.ENG_STAT_FAULTED e) then .next s
    else if (s.eng e).running = true ∨ (s.role e = 1 ∧ s.host e = e.val) then .next (s.engFault e .ENG_FAULT)
    else match s.arb.takeovers.find? (fun k => k.spare == some e.val) with
      | some k => .next (((s.setF (Reg.ENG_STAT_FAULTED e) 1).log .ENG_FAULT k.eng []).escalate .ENG_FAULT k.eng)
      | none => if s.role e = 2 then .next ((s.setF (Reg.ENG_STAT_FAULTED e) 1).log .ENG_FAULT e []) else .next s

/-- ENG_WATCHDOG: no program slot of an engine has committed for WDOG × 256 slots: it is faulted (R176). -/
def execEngWatchdog (e : Fin 16) (s : State) : Res :=
  let en := s.eng e
  if en.running && decide (en.lastCommit + s.getF (Reg.ENG_CTL_WDOG (s.logical e)) * 256 < s.now) then
    .next (s.engFault e .ENG_WATCHDOG)
  else .next s

/-- A takeover replaced by another, or taken out. -/
def State.setTakeover (s : State) (l : Nat) (x : Option Takeover) : State :=
  { s with arb := { s.arb with takeovers := s.arb.takeovers.filterMap (fun k => if k.eng = l then x else some k) } }

/-- SPARE_TAKEOVER: from the slot after detection on, the lowest free spare is chosen for the work of a logical engine (R176). -/
def execSpareTakeover (e : Fin 16) (s : State) : Res :=
  match s.arb.takeovers.find? (fun k => k.eng == e.val && k.spare.isNone) with
  | none => .next s
  | some k =>
    if s.now ≤ k.detect then .next s
    else match s.freeSpares with
      | [] => .next ((s.setTakeover e none).escalate .ENG_FAULT e)
      | sp :: _ => .next ((s.setTakeover e (some { k with spare := some sp })).setEng sp { s.eng sp with used := true })

/-- The spare with the memories and checkpoint q of the engine whose work it takes over, and the causes held for it (R176, R177). -/
def EngSt.takeover (old : EngSt) (q now : Nat) : EngSt :=
  let base : EngSt :=
    { imem := old.imem, shadow := old.shadow, lmem := old.lmem, used := true, ecause := ecauseWord 5 0 0 q
      held := old.held, redirs := old.redirs, lastCommit := now, sq := true, slot := q }
  match old.ckpts.find? (fun c => c.slot == q) with
  | some c => { base with w := c.w, p := c.p, a := c.a, pc := c.pc, running := true, ckpts := [c] }
  | none => { base with ecause := old.ecause, sq := old.sq, slot := old.slot }

/-- SPARE_RESUME: at tick 8,320 of the slot after detection the copy is complete: ENG_MAP names the spare and it resumes program slot q; a
copy that met an error escalates the fault. An agreed switch of Traverse that has passed is made at the next program slot
(R176 to R178). -/
def execSpareResume (e : Fin 16) (copyError : Bool) (s : State) : Res :=
  match s.arb.takeovers.find? (fun k => k.eng == e.val) with
  | none => .next s
  | some k =>
    match k.spare with
    | none => .next s
    | some sp =>
      if s.now ≤ k.detect ∨ (s.now = k.detect + 1 ∧ s.clk.tick < 8320) then .next s
      else if copyError then .next ((s.setTakeover e none).escalate .ENG_FAULT e)
      else
        let old := s.eng k.phys
        let t := s.upd.switches.get (fun _ => 0) e
        let s1 := ((s.setTakeover e none).setEng sp (old.takeover k.q s.now)).setF (Reg.ENG_MAP_HOST e) sp
        let s2 := s1.setEng k.phys { old with held := [], redirs := [], ckpts := [], undo := [], cb := [] }
        if k.q < t ∧ t ≤ s.now then
          .next { s2 with upd := { s2.upd with switches := s2.upd.switches.set (fun _ => 0) e (k.q + 1) } }
        else .next s2

/-- ENG_LATE: a program slot k of an engine has not committed by the end of slot k + LAGMAX: LATE is set, logged once a run (R179). -/
def execEngLate (e : Fin 16) (s : State) : Res :=
  let en := s.eng e
  let l := s.logical e
  if en.running && !s.flag (Reg.ENG_STAT_LATE l) && decide (en.oldest + s.getF (Reg.ENG_CTL_LAGMAX l) < s.now) then
    .next ((s.setF (Reg.ENG_STAT_LATE l) 1).log .ENG_LATE l [])
  else .next s

end Sys2Proof.Machine
end

