-- ==== Sys2Proof/Machine/RegWrite.lean ====
section
/-!
DEFINITION. Sys2Proof/Machine/RegWrite.lean: what a write of a register word meets and does (R7, R347 to R351, R451 to R456, R496): the
class it needs, lane scope, locks, the tests of its block, the store under its access codes and what follows from it.
-/
namespace Sys2Proof.Machine
open Sys2Proof

/-! ### Tests 1 to 3 (R347, R351, R454, R496) -/

/-- The class a write of a word needs before the block's own tests (R347, R456): observer where the block tests the class itself or
the word is a window pointer, owner and maintenance where a rule says so, else operator. -/
def State.needClass (s : State) (w : WCtx) (a : Nat) (v : W64) : Nat :=
  let b := blockOf a
  if [Reg.SYS_MODE_REQ, Reg.TIME_CMD, Reg.STRM_DATA, Reg.FLT_COEF_PTR, Reg.STRM_PTR, Reg.CAP_DESC_PTR, Reg.SW_VLAN_PTR,
      Reg.SW_FDB_PTR, Reg.UPD_BMAP_PTR, Reg.EVT_RDPTR, Reg.EVT_PRD_PTR].contains a then 0
  else if [Reg.SYS_AUTH, Reg.SYS_LOCK, Reg.TIV_AGE, Reg.PAIR_CFG, Reg.PAIR_CTL].contains a || b == 6 then 2
  else if b = 3 ∧ a < 0x0380 ∧ (a - 0x0300) % 32 = 12 then 2
  else if b = 5 then (if [0, 1, 6, 7].contains ((a - 0x0500) % 64) || ((a - 0x0500) % 64 == 3 && bit v 0) then 2 else 1)
  else if b = 8 ∧ (a - 0x0800) % 64 = 0 then (if bits v 1 0 = bits (s.reg a) 1 0 then 1 else 2)
  else if a = Reg.CAL_CTL then (if bit v 24 then 2 else 1)
  else if a = Reg.UPD_CTL then (if bit v 4 then 3 else 2)
  else if a = Reg.UPD_STAGE ∨ a = Reg.UPD_PIECE_HDR ∨ a = Reg.UPD_PIECE_DATA then (if s.cur = 0 then 3 else 2)
  else if b = 15 ∧ (a - 0x1C40) % 16 = 2 then (if w.port = progPort then 1 else 2)
  else 1

/-- The lane whose resource a word belongs to (R351): a queue's lane, the lane of a LANE word; a stream's is tested with its entry. -/
def wordLane (a : Nat) : Option Nat :=
  if blockOf a = 9 then some ((a - 0x0C00) / 64) else if blockOf a = 5 then some ((a - 0x0500) / 64) else none

/-- The index of a register of an array, which UNIT of a refusal holds; 0 for a single word (R461). -/
def RegDesc.unit (d : RegDesc) (a : Nat) : Nat := if d.stride ≤ 1 then 0 else (a - d.base) / d.stride

/-- The bits of a word that are not reserved; a table's data word has those of the entry word its pointer names. -/
def State.knownBits (s : State) (port a : Nat) (d : RegDesc) : W64 :=
  if a = Reg.STRM_DATA then strmMask (bits (s.copy port Reg.STRM_PTR) 1 0)
  else if a = Reg.CAP_DESC_DATA then
    (let w := bits (s.copy port Reg.CAP_DESC_PTR) 3 0
     if w < 3 then descMaskOf w else 0xFFFFFFFFFFFFFFFF#64)
  else d.accMask (fun _ => true)

/-! ### The store (R7, R452, R453) -/

/-- A word stored under its access codes: RO and RC fields stay, W1C bits written 1 clear, WO fields are not kept, RWS fields show the new
value and take effect at the next slot boundary, at once for a record; a per-port word goes to the port's copy. -/
def State.storeReg (s : State) (w : WCtx) (d : RegDesc) (a : Nat) (v : W64) : State :=
  let take := d.accMask (fun c => c == .rw || c == .rwl || c == .rws)
  if copiedWord a then s.setCopy w.port a (v &&& take)
  else
    let old := s.reg a
    let kept := old &&& d.accMask (fun c => c == .ro || c == .rc)
    let seen := old &&& d.accMask (fun c => c == .w1c) &&& ~~~ v
    let new := kept ||| (v &&& take) ||| seen
    if w.isCfg then s.setNow a new
    else if d.accMask (fun c => c == .rws) = 0 then s.setReg a new else s.setRws a new

/-- A word tested and stored: refused under a condition, else stored and followed by what the block does with it. -/
def State.tested (s : State) (w : WCtx) (d : RegDesc) (a : Nat) (v : W64) (c : Option Cond) (post : State → State := id) : WriteRes :=
  match c with
  | some c => s.refuse c (d.unit a) a w.port
  | none => (post (s.storeReg w d a v), none)

/-- A write answered by a test without a log of its own, logged where it is refused. -/
def State.logged (s : State) (a port : Nat) (r : State × Option Cond) : WriteRes :=
  match r with
  | (_, some c) => s.refuse c 0 a port
  | (t, none) => (t, none)

/-- Bits of a command word acted on one after the other; the first condition is the word's (R7). -/
def thenWrite (r : WriteRes) (b : Bool) (f : State → WriteRes) : WriteRes :=
  if b then
    match f r.1 with
    | (t, c) => (t, r.2.orElse (fun _ => c))
  else r

/-! ### SYS (R349, R350, R454) -/

/-- The class of a port that a SYS_AUTH word gives. -/
def authOf (v : W64) (p : Nat) : Nat := if p < 4 then bits v (2 * p + 1) (2 * p) else bits v 9 8

/-- The tests of a write to SYS_AUTH after authority and the lock: no class above the writing port's, and an owner left on a command
port; records of a configuration act with owner authority (R349, R350). -/
def State.checkAuth (s : State) (w : WCtx) (v : W64) : Option Cond :=
  let ports := [0, 1, 2, 3, 4]
  let cls := s.classOf w.port
  firstFail [(ports.all (fun p => decide (authOf v p ≤ cls) || authOf v p == authOf (s.reg Reg.SYS_AUTH) p), .SYS_AUTH_RAISE),
    (ports.any (fun p => !s.pairRole p && decide (2 ≤ authOf v p)), .SYS_AUTH_ORPHAN)]

/-- Bit 0 of SYS_LOCK and SYS_AUTH.LOCK are one bit; a 1 stays until reset (R454). -/
def State.syncLock (s : State) : State :=
  let b := bits (s.reg Reg.SYS_LOCK) 0 0 ||| s.getF Reg.SYS_AUTH_LOCK
  (s.setReg Reg.SYS_LOCK (setBits (s.reg Reg.SYS_LOCK) 0 0 b)).setF Reg.SYS_AUTH_LOCK b

/-- A write of a SYS word. -/
def State.writeSys (s : State) (w : WCtx) (d : RegDesc) (a : Nat) (v : W64) : WriteRes :=
  if a = Reg.SYS_MODE_REQ then s.modeReqWrite w.port v
  else if a = Reg.SYS_AUTH then s.tested w d a v (s.checkAuth w v) (fun t => t.syncLock)
  else if a = Reg.SYS_LOCK then s.tested w d a (v ||| s.reg Reg.SYS_LOCK) none (fun t => t.syncLock)
  else s.tested w d a v none

/-! ### EVT, TIME, TIV -/

/-- A write of an EVT word (R443, R445, R456). -/
def State.writeEvt (s : State) (w : WCtx) (d : RegDesc) (a : Nat) (v : W64) : WriteRes :=
  if a = Reg.EVT_INT then (s.clearInt (bits v 4 0), none)
  else if a = Reg.EVT_PRD_PTR then (s.persistPtr w.port v, none)
  else s.tested w d a v none

/-- A write of a TIME word. -/
def State.writeTime (s : State) (w : WCtx) (d : RegDesc) (a : Nat) (v : W64) : WriteRes :=
  if a < 0x0380 then
    let t := (a - 0x0300) / 32
    let o := (a - 0x0300) % 32
    if o = 0 then s.tested w d a v (s.checkTbCfg t v) (fun u => u.tbCfgWritten t (s.reg a))
    else if o = 4 then s.tested w d a v (checkTbServo v) (fun u => u.servoWritten t)
    else if o = 5 then s.tested w d a v (checkTbLimits v)
    else if o = 9 then s.tested w d a v none (fun u => u.refreshClass t)
    else if o = 12 then (s.extOffset t v, none)
    else s.tested w d a v none
  else if a < 0x03C0 then
    let i := (a - 0x0380) / 4
    let o := (a - 0x0380) % 4
    if o = 0 then s.almCfgWrite w.port i v
    else if o = 3 then s.tested w d a v none
    else s.tested w d a v (s.checkAlm i)
  else if a = Reg.TIME_CFG then s.timeCfgWrite w v
  else if a = Reg.TIME_CMD then s.timeCmd w.port (bits v 5 4) (bits v 2 0)
  else if a = Reg.TIME_PPS then s.tested w d a v (checkTimePps v) (fun u => u.ppsWritten (bits (s.reg a) 1 0))
  else s.tested w d a v none

/-- A write of a TIV word. -/
def State.writeTiv (s : State) (w : WCtx) (d : RegDesc) (a : Nat) (v : W64) : WriteRes :=
  if a = Reg.TIV_CFG then s.tested w d a v (s.checkTivCfg v)
  else if a = Reg.TIV_PIN_START then s.tested w d a v (s.checkTivPin 0 v)
  else if a = Reg.TIV_PIN_STOP then s.tested w d a v (s.checkTivPin 1 v)
  else if a = Reg.TIV_CTL then s.tivCtlWrite w.port v
  else if a = Reg.TIV_FCFG then s.tested w d a v (checkTivFcfg v)
  else s.tested w d a v none

/-! ### LANE, SW, PAIR -/

/-- A write of a LANE word. -/
def State.writeLane (s : State) (w : WCtx) (d : RegDesc) (a : Nat) (v : W64) : WriteRes :=
  let l := (a - 0x0500) / 64
  let o := (a - 0x0500) % 64
  if o = 0 then s.tested w d a v (s.checkLaneCfg w l v) (fun t => t.laneCfgWritten l (s.reg a))
  else if o = 1 then (s.clearBars l (bits v 26 24), none)
  else if o = 3 then s.laneTestWrite w.port l v
  else if o = 6 then s.tested w d a v (checkLaneEq v)
  else if o = 7 then (if bit v 0 then s.makeActive w.port l else (s, none))
  else s.tested w d a v none

/-- A write of a SW word. -/
def State.writeSw (s : State) (w : WCtx) (d : RegDesc) (a : Nat) (v : W64) : WriteRes :=
  if a = Reg.SW_CFG then s.tested w d a v (checkSwCfg v)
  else if a = Reg.SW_MAC then s.tested w d a v (checkSwMac v)
  else if a = Reg.SW_VLAN_PTR then s.tested w d a v (checkSwVlanPtr v)
  else if a = Reg.SW_VLAN_DATA then (s.vlanWrite w.port v, none)
  else if a = Reg.SW_FDB_DATA then (s.fdbWrite w.port v, none)
  else if a = Reg.SW_QLIM then s.tested w d a v (checkSwQlim v)
  else if Reg.SW_PORT 0 ≤ a ∧ a ≤ Reg.SW_PORT 4 then s.tested w d a v (checkSwPort v)
  else s.tested w d a v none

/-- A write of a PAIR word. -/
def State.writePair (s : State) (w : WCtx) (d : RegDesc) (a : Nat) (v : W64) : WriteRes :=
  if a = Reg.PAIR_CFG then s.tested w d a v (s.checkPairCfg v)
  else if a = Reg.PAIR_PROOF then s.tested w d a v (checkPairProof v)
  else if a = Reg.PAIR_CTL then s.pairCtlWrite w.port v
  else s.tested w d a v none

/-! ### ENG (R155, R161) -/

/-- The tests of a write to ENG_CTL: LAGMAX and WDOG are not 0, AHEAD is at most 8, ROLE at most 2 and written only in Basecamp. -/
def State.checkEngCtl (s : State) (w : WCtx) (e : Nat) (v : W64) : Option Cond :=
  let role := bits v 1 0
  firstFail [(bits v 47 40 != 0, .ENG_CTL_RANGE), (bits v 39 32 != 0, .ENG_CTL_RANGE), (decide (bits v 11 8 ≤ 8), .ENG_AHEAD),
    (role != 3, .ENG_ROLE), (role == s.role e || s.modeAt w.slot == 1, .ENG_ROLE_LIVE)]

/-- A changed ROLE: an engine made active holds its program, a spare's memories are cleared, one switched off is not clocked; an engine
that ran stops (R155). An engine that does a faulted engine's work, or has faulted, is left as it stands. -/
def State.roleChanged (s : State) (e : Nat) : State :=
  let en := s.eng e
  if s.host e ≠ e ∨ en.used = true ∨ s.flag (Reg.ENG_STAT_FAULTED e) = true then s
  else
    let r := s.role e
    if r = 1 then
      if s.flag Reg.CFG_STATUS_LOADED then s.setEng e { en with imem := instrMemory ((s.programOf s.cfg.progs e).getD []) } else s
    else if r = 2 then s.setEng e {}
    else s.setEng e en.halt

/-- A write of an ENG word. -/
def State.writeEng (s : State) (w : WCtx) (d : RegDesc) (a : Nat) (v : W64) : WriteRes :=
  let e := (a - 0x0800) / 64
  if (a - 0x0800) % 64 = 0 then
    s.tested w d a v (s.checkEngCtl w e v) (fun t => if t.role e = s.role e then t else t.roleChanged e)
  else s.tested w d a v none

/-! ### QUE, STRM, CAP and TRG, CAL, UPD -/

/-- A write of a QUE word (R315, R319). -/
def State.writeQue (s : State) (w : WCtx) (d : RegDesc) (a : Nat) (v : W64) : WriteRes :=
  let q := (a - 0x0C00) / 4
  if (a - 0x0C00) % 4 = 0 then s.tested w d a v (s.checkQueCfg q v)
  else if (a - 0x0C00) % 4 = 3 then (if bit v 0 then s.flushQueue q else s, none)
  else s.tested w d a v none

/-- A write of a STRM word. -/
def State.writeStrm (s : State) (w : WCtx) (d : RegDesc) (a : Nat) (v : W64) : WriteRes :=
  if a = Reg.STRM_DATA then s.strmDataWrite w.port v
  else if a = Reg.LED_CFG then s.tested w d a v (if bits v 1 0 = 0 then some .LED_RATIO else none)
  else s.tested w d a v none

/-- A write of a CAP or TRG word. -/
def State.writeCap (s : State) (w : WCtx) (d : RegDesc) (a : Nat) (v : W64) : WriteRes :=
  if a = Reg.CAP_DESC_PTR then s.tested w d a v (if bits v 11 4 = 255 then some .CAP_DESC_INDEX else none)
  else if a = Reg.CAP_DESC_DATA then s.descDataWrite w.port v
  else if a = Reg.CAP_MISS_POP then (if bit v 0 then s.missPop else s, none)
  else if a = Reg.CAP_COPY_GO then (if bit v 63 then s.copyGo w.port (bits v 32 0) else (s, none))
  else if 0x0E80 ≤ a then
    let u := (a - 0x0E80) / 16
    let o := (a - 0x0E80) % 16
    if o = 5 then s.trgCtlWrite w.port u v
    else if o < 5 then s.tested w d a v (if s.mirrored w.port then some .PAIR_MIRRORED else s.checkTrg u)
    else s.tested w d a v none
  else s.tested w d a v none

/-- A write of a CAL word (R404, R411, R416). -/
def State.writeCal (s : State) (w : WCtx) (d : RegDesc) (a : Nat) (v : W64) : WriteRes :=
  if a = Reg.CAL_CFG then s.tested w d a v (checkCalCfg v)
  else if a = Reg.CAL_CTL then
    let s1 := (bitsSet 24 (bits v 23 0)).foldl (fun t b => t.makeDue b) s
    (if bit v 24 then s1.abandonAll else s1, none)
  else s.tested w d a v none

/-- A write of UPD_CTL, its bits from the least significant up; `act` is what ACTIVATE does (R424, R425, R428, R429). -/
def State.writeUpdCtl (s : State) (w : WCtx) (v : W64) (act : State → Nat → WriteRes) : WriteRes :=
  let r0 := thenWrite (s, none) (bit v 0) (fun t => t.logged Reg.UPD_CTL w.port t.updVerify)
  let r1 := thenWrite r0 (bit v 1) (fun t => t.logged Reg.UPD_CTL w.port (t.updInstall w.port))
  let r2 := thenWrite r1 (bit v 2) (fun t => act t w.port)
  let r3 := thenWrite r2 (bit v 3) (fun t => t.logged Reg.UPD_CTL w.port (t.updCancel w.port))
  thenWrite r3 (bit v 4) (fun t => (t.updRecover, none))

/-- A write of a UPD word. -/
def State.writeUpd (s : State) (w : WCtx) (d : RegDesc) (a : Nat) (v : W64) (act : State → Nat → WriteRes) : WriteRes :=
  if a = Reg.UPD_STAGE then s.logged a w.port (s.updBegin (bits v 63 32) (bits v 12 0))
  else if a = Reg.UPD_CTL then s.writeUpdCtl w v act
  else if a = Reg.UPD_BMAP_PTR then s.tested w d a v (if bits v 6 0 < 96 then none else some .SYS_FIELD_RANGE)
  else if a = Reg.UPD_PIECE_HDR then
    s.tested w d a v none (fun t => t.setUpd { t.upd with parts := t.upd.parts.set (fun _ => []) w.port [] })
  else if a = Reg.UPD_PIECE_DATA then
    match s.pieceData w.port v with
    | (t, some c) => t.refuse c 0 a w.port
    | (t, none) => (t, none)
  else s.tested w d a v none

/-! ### CH, BANK, FC, FLT, CMP, SSP, DBG -/

/-- The fields of a fast channel's CH_CONV and CH_FLT that act; writes to the others are ignored (R450). -/
def fastFields (c o : Nat) (v : W64) : W64 :=
  if c < 384 then v else if o = 4 then v &&& (mask 47 40 ||| mask 39 36 ||| mask 35 35)
  else if o = 6 then v &&& ~~~ (mask 31 16) else v

/-- A write of a CH word. -/
def State.writeCh (s : State) (w : WCtx) (d : RegDesc) (a : Nat) (v0 : W64) : WriteRes :=
  let c := (a - 0x1000) / 8
  let o := (a - 0x1000) % 8
  let v := fastFields c o v0
  if o = 0 then s.tested w d a v (s.checkChCfg w c v)
  else if o = 1 then
    s.tested w d a v (s.checkChExcfg w c v)
  else if o = 2 then s.tested w d a v (checkChWb v)
  else if o = 3 then
    if c < 384 then
      let s1 := if bit v 10 then s.clearLatch c else s
      s1.tested w d a (v &&& ~~~ (mask 10 10)) none
    else (if bit v 13 then s.setF (Reg.FC_STATUS_OVR_SEEN (c - 384)) 0 else s, none)
  else if o = 4 then s.tested w d a (if c < 384 then v else v ||| (s.reg a &&& (mask 27 20 ||| mask 19 16))) (s.checkChConv w c
      (if c < 384 then v else v ||| (s.reg a &&& (mask 27 20 ||| mask 19 16))))
  else if o = 6 then s.tested w d a v (s.checkChFlt w c v)
  else if o = 7 then s.tested w d a v (checkChFd v)
  else s.tested w d a v none

/-- A write of a BANK word. -/
def State.writeBank (s : State) (w : WCtx) (d : RegDesc) (a : Nat) (v : W64) : WriteRes :=
  let b := (a - 0x1C40) / 16
  let o := (a - 0x1C40) % 16
  if o = 0 then s.tested w d a v (s.checkBankCfg w b v)
  else if o = 2 then s.tested w d a v (s.checkBankSpare b)
  else if o = 6 then s.tested w d a v (s.checkBankRef w v)
  else s.tested w d a v none

/-- A write of an FC word. -/
def State.writeFc (s : State) (w : WCtx) (d : RegDesc) (a : Nat) (v : W64) : WriteRes :=
  let k := (a - 0x1DC0) / 8
  let o := (a - 0x1DC0) % 8
  if o = 0 then s.tested w d a v (s.checkFcCfg w v)
  else if o = 2 then s.tested w d a v (s.checkFcCmp k)
  else s.tested w d a v none

/-- A write of an FLT word. -/
def State.writeFlt (s : State) (w : WCtx) (d : RegDesc) (a : Nat) (v : W64) : WriteRes :=
  if a = Reg.FLT_COEF_PTR then s.coefPtrWrite w.port v
  else if a = Reg.FLT_COEF_DATA then s.coefWrite w.port v
  else if a = Reg.FLT_SWAP_REQ then s.swapRequest w.port (bit v 24) (bits v 23 0)
  else s.tested w d a v none

/-- A write of a CMP word. -/
def State.writeCmp (s : State) (w : WCtx) (d : RegDesc) (a : Nat) (v : W64) : WriteRes :=
  let j := (a - 0x1F10) / 4
  if a < 0x1F10 then s.tested w d a v none
  else if (a - 0x1F10) % 4 = 0 then s.tested w d a v (s.checkRxCfg j v) (fun t => t.rxCfgWritten j (s.reg a))
  else if (a - 0x1F10) % 4 = 1 then s.tested w d a v (s.checkRxRing j v)
  else s.tested w d a v none

/-- A write of an SSP word. -/
def State.writeSsp (s : State) (w : WCtx) (d : RegDesc) (a : Nat) (v : W64) : WriteRes :=
  let n := (a - 0x1F40) / 16
  let o := (a - 0x1F40) % 16
  if o = 0 then s.tested w d a v (s.checkSspCfg n v)
  else if o = 1 then (s.sspCtlWrite n v, none)
  else if 8 ≤ o then s.tested w d a v (s.checkSspSeq n v)
  else s.tested w d a v none

/-! ### The write of a word (R496) -/

/-- What CFG_OVL_REQ and UPD_CTL.ACTIVATE do, which rest on the writes of records: an overlay request with its word, an
activation by a port. -/
structure Ext where
  ovl : State → Nat → W64 → WriteRes
  act : State → Nat → WriteRes

/-- A record's write of CFG_OVL_REQ or of UPD_CTL.ACTIVATE does nothing (DESIGN CHOICE, log entry 42). -/
def noExt : Ext := { ovl := fun s _ _ => (s, none), act := fun s _ => (s, none) }

/-- Tests 4 to 6 and the effect of a write, by block. -/
def State.writeBlock (s : State) (x : Ext) (w : WCtx) (d : RegDesc) (a : Nat) (v : W64) : WriteRes :=
  match blockOf a with
  | 0 => s.writeSys w d a v
  | 1 => if a = Reg.CFG_OVL_REQ then x.ovl s w.port v else s.tested w d a v none
  | 2 => s.writeEvt w d a v
  | 3 => s.writeTime w d a v
  | 4 => s.writeTiv w d a v
  | 5 => s.writeLane w d a v
  | 6 => s.writeSw w d a v
  | 7 => s.writePair w d a v
  | 8 => s.writeEng w d a v
  | 9 => s.writeQue w d a v
  | 10 => s.writeStrm w d a v
  | 11 => s.writeCap w d a v
  | 12 => s.writeCal w d a v
  | 13 => s.writeUpd w d a v x.act
  | 14 => s.writeCh w d a v
  | 15 => s.writeBank w d a v
  | 16 => s.writeFc w d a v
  | 17 => s.writeFlt w d a v
  | 18 => s.writeCmp w d a v
  | 19 => s.writeSsp w d a v
  | _ => if a = Reg.DBG_ENG_PTR then (s.dbgPtr w.port v, none) else s.tested w d a v none

/-- A write of a word: an unimplemented word is counted; authority, lane scope and locks are tested, reserved bits ignored and counted, a
locked field keeps its value and makes the word a refused item, the block tests and applies the rest (R451, R452, R454,
R496). -/
def State.writeExt (s : State) (x : Ext) (w : WCtx) (a : Nat) (v : W64) : WriteRes :=
  match findReg a with
  | none => (s.bump Reg.SYS_ERRCNT_UNIMPL, none)
  | some d =>
    let u := d.unit a
    let foreign := match wordLane a with
      | some l => !s.laneScope w.port l
      | none => false
    if s.classOf w.port < s.needClass w a v then s.refuse .SYS_AUTH_DENIED u a w.port
    else if foreign then s.refuse .SYS_AUTH_LANE u a w.port
    else
      let known := s.knownBits w.port a d
      let s1 := if v &&& ~~~ known = 0 then s else s.bump Reg.SYS_ERRCNT_RSVD
      let rwl := d.accMask (fun c => c == .rwl)
      let old := s1.view w.port a
      let locked := (s1.getF Reg.SYS_LOCK_LOCK).testBit (blockOf a)
      let clash := locked && ((v ^^^ old) &&& rwl != 0)
      let v1 := (if locked then (v &&& ~~~ rwl) ||| (old &&& rwl) else v) &&& known
      match s1.writeBlock x w d a v1 with
      | (t, none) => if clash then t.refuse .SYS_LOCKED u a w.port else (t, none)
      | (t, some c) => if clash then s1.refuse .SYS_LOCKED u a w.port else (t, some c)

end Sys2Proof.Machine
end

