-- ==== Sys2Proof/Machine/Store.lean ====
section
/-!
DEFINITION. Sys2Proof/Machine/Store.lean: configuration stores and their checks, the base as it is loaded, overlays, the digest
(R43 to R59, R361, R455, R497 to R500).
-/
namespace Sys2Proof.Machine
open Sys2Proof

/-! ### A store and its sections (R50 to R53, R497 to R500) -/

/-- A word of a store's image. -/
def CfgStore.word (x : CfgStore) (i : Nat) : W64 := x.words.get (fun _ => 0) i

/-- A section type of the table of R50 with its index. -/
def configType (ty ix : Nat) : Bool :=
  ((ty == 1 || ty == 2 || ty == 4) && ix == 0) || (ty == 3 && decide (ix < 16)) || (ty == 5 && decide (ix < 8))

/-- The sections of a store and the word offset of the first that fails (R500). -/
def CfgStore.sects (x : CfgStore) : List Sect × Option Nat := sections x.word configType x.len x.len 0

/-- The sections of a type. -/
def CfgStore.ofType (x : CfgStore) (ty : Nat) : List Sect := x.sects.1.filter (fun k => k.ty == ty)

/-- Register records, three words each (R50). -/
def recordsOf : List W64 → List CfgRec
  | a :: m :: v :: r => { addr := bits a 12 0, mask := m, value := v } :: recordsOf r
  | _ => []

/-- The fields of a system parameter block (R497). -/
def paramsOf (ws : List W64) : CfgParams :=
  let w0 := ws.getD 0 0
  let w1 := ws.getD 1 0
  let w2 := ws.getD 2 0
  { epoch := bits w0 63 32, group := bits w0 31 16, startMode := bits w1 63 56, tsetWait := bits w1 47 32
    cap := bits w2 63 48, led := bits w2 47 32, bulk := bits w2 31 16 }

/-- The parameters of a configuration without a system parameter block (R51, R498). -/
def defaultParams : CfgParams := { startMode := 3, tsetWait := 1, epoch := 0, group := 0, cap := 16, led := 96, bulk := 12 }

/-- A system parameter block is right: three words, reserved bits 0, START_MODE 1 to 5, TSET_WAIT at most 600 (R498). -/
def paramsOk (ws : List W64) : Bool :=
  let p := paramsOf ws
  decide (ws.length = 3) && bits (ws.getD 0 0) 15 0 == 0 && bits (ws.getD 1 0) 55 48 == 0 && bits (ws.getD 1 0) 31 0 == 0
    && bits (ws.getD 2 0) 15 0 == 0 && decide (1 ≤ p.startMode ∧ p.startMode ≤ 5) && decide (p.tsetWait ≤ 600)

/-- Partition sizes, in units of 64 MiB, within the limits of R21. -/
def partsOk (p : CfgParams) : Bool :=
  decide (p.cap ≤ 64) && decide (8 ≤ p.led ∧ p.led ≤ 96) && decide (1 ≤ p.bulk) && decide (p.cap + p.led + p.bulk ≤ 124)

/-- The parameters of a store (R498). -/
def CfgStore.params (x : CfgStore) : CfgParams :=
  match x.ofType 1 with
  | k :: _ => paramsOf (k.words x.word)
  | [] => defaultParams

/-- The overlay of a section: its first word and its records, at most 680 (R52). -/
def CfgStore.overlay (x : CfgStore) (k : Sect) : OverlayDef :=
  let ws := k.words x.word
  { id := k.ix, bind := bits (ws.getD 0 0) 63 56, recs := (recordsOf (ws.drop 1)).take (capAt 680 (bits (ws.getD 0 0) 55 40)) }

/-- The overlays of a store. -/
def CfgStore.overlays (x : CfgStore) : List OverlayDef := (x.ofType 5).map (fun k => x.overlay k)

/-- An overlay may not write a word of the SYS, CFG, PAIR, UPD or DBG block, or the role of a lane (R52). -/
def outOfScope (r : CfgRec) : Bool :=
  let f := Reg.LANE_CFG_ROLE 0
  [0, 1, 7, 13, 20].contains (blockOf r.addr)
    || (blockOf r.addr == 5 && (r.addr - f.addr) % 64 == 0 && r.mask &&& mask f.hi f.lo != 0)

/-- Two overlays are bound to one mode. -/
def boundTwice (l : List OverlayDef) : Bool :=
  (List.range 8).any (fun m => decide (2 ≤ (l.filter (fun o => o.bind == m)).length))

/-- The check of a store: the condition that refuses it, with the unit and the word offset it names; none for a store that may be
used (R21, R52, R54, R498, R500). -/
def CfgStore.check (x : CfgStore) : Option (Cond × Nat × Nat) :=
  match x.sects.2, (x.ofType 1).find? (fun k => !paramsOk (k.words x.word)) with
  | some p, _ => some (.CFG_SECTION, 0, p)
  | none, some k => some (.CFG_SECTION, 0, k.pos)
  | none, none =>
    if !partsOk x.params then some (.CFG_DRAM_PARTITION, 0, 0)
    else match (x.ofType 5).find? (fun k => (x.overlay k).recs.any outOfScope) with
      | some k => some (.CFG_OVL_SCOPE, k.ix, k.pos)
      | none => if boundTwice x.overlays then some (.CFG_OVL_BIND, 0, 0) else none

/-- The CRC-32C over the whole store that its commit record holds (R53). -/
def CfgStore.imageCrc (x : CfgStore) : Nat := crc32c (wordOctets (imageWords x.word 0 x.len))

/-- A commit record is present and its CRC-32C holds (R53). -/
def CfgStore.committed (x : CfgStore) : Bool := x.seq.isSome && x.crc == x.imageCrc

/-- A store holds a valid committed configuration (R53). -/
def CfgStore.valid (x : CfgStore) : Bool := x.committed && x.check.isNone

/-- The digest of a store's base and, where it is not 15, an active overlay (R58). -/
def CfgStore.digest (x : CfgStore) (ovl : Nat) : W64 :=
  let base := (x.sects.1.filter (fun k => decide (k.ty ≤ 4))).flatMap (fun k => k.whole x.word)
  let top := ((x.ofType 5).find? (fun k => k.ix == ovl)).map (fun k => k.whole x.word)
  BitVec.ofNat 64 (crc64 (wordOctets (base ++ top.getD [])))

/-- The programs of a store's configuration (R499). -/
def CfgStore.progs (x : CfgStore) : List ProgDef :=
  (x.ofType 3).map (fun k => { eng := k.ix, words := sectionInstrs (k.words x.word) })

/-- The configuration store k: 0 A, 1 B. -/
def State.storeOf (s : State) (k : Nat) : CfgStore := s.cfg.stores.get (fun _ => {}) k

/-- A configuration store replaced. -/
def State.setStore (s : State) (k : Nat) (x : CfgStore) : State :=
  { s with cfg := { s.cfg with stores := s.cfg.stores.set (fun _ => {}) k x } }

/-- The active store, CFG_STATUS.STORE. -/
def State.activeStore (s : State) : Nat := s.getF Reg.CFG_STATUS_STORE

/-- The store that is not active. -/
def State.otherStore (s : State) : Nat := 1 - s.activeStore

/-! ### Records (R50, R54, R56) -/

/-- A register record written: (old AND NOT mask) OR (value AND mask) (R50). -/
def State.writeRec (s : State) (x : Ext) (w : WCtx) (r : CfgRec) : WriteRes :=
  s.writeExt x w r.addr ((s.view w.port r.addr &&& ~~~ r.mask) ||| (r.value &&& r.mask))

/-- A CONT record with one detail item follows the record logged last (R54). -/
def State.contRecord (s : State) (item : Nat) : State :=
  match s.evt.ring with
  | r :: _ => s.appendRec .all { r with cont := true, d2 := BitVec.ofNat 64 item, d3 := 0 }
  | [] => s

/-- The records of a section of the base applied in order: a refused one is logged with its index and the later ones go on; the
accepted ones are kept (R54). -/
def State.loadRecords (s : State) (w : WCtx) : Nat → List CfgRec → State × List CfgRec
  | _, [] => (s, [])
  | i, r :: rest =>
    match s.writeRec noExt w r with
    | (t, none) =>
      let q := t.loadRecords w (i + 1) rest
      (q.1, r :: q.2)
    | (t, some _) => (t.contRecord i).loadRecords w (i + 1) rest

/-- The sections of records of a base applied; the copies of the window registers start anew with each section (R50, R455). -/
def State.loadSections (s : State) (w : WCtx) : List (List CfgRec) → State × List (List CfgRec)
  | [] => (s, [])
  | l :: rest =>
    let q := s.resetCfgCopies.loadRecords w 0 l
    let r := q.1.loadSections w rest
    (r.1, q.2 :: r.2)

/-- The context of the records of a base or an overlay at their slot: a lead that a block asks for is not judged again (R55). -/
def State.recCtx (s : State) : WCtx := { port := cfgPort, slot := s.now, asked := 0 }

/-- The sections of records of a store. -/
def CfgStore.records (x : CfgStore) : List (List CfgRec) := (x.ofType 2).map (fun k => recordsOf (k.words x.word))

/-! ### The base in effect (R50 to R54, R58) -/

/-- CFG_DIGEST and CFG_EPOCH as the active store, its parameters and the active overlay give them; the change is noted for the
slots from the present one on (R58, R59). -/
def State.showConfig (s : State) : State :=
  let s1 := s.setReg Reg.CFG_DIGEST ((s.storeOf s.activeStore).digest (s.getF Reg.CFG_STATUS_OVL_ACT))
  ((s1.setF Reg.CFG_EPOCH_EPOCH s.cfg.params.epoch).setF Reg.CFG_EPOCH_GROUP s.cfg.params.group).noteConfig

/-- A store becomes the active one: its parameters, programs and overlays, START, and what CFG_STATUS shows of the two stores. -/
def State.takeStore (s : State) (k : Nat) : State :=
  let x := s.storeOf k
  let p := x.params
  let ovls := x.overlays
  let s1 : State := { s with cfg := { s.cfg with params := p, progs := x.progs, ovls := ovls, newer := false } }
  let present := maskOf (fun i => ovls.any (fun o => o.id == i))
  ((((s1.setF Reg.CFG_STATUS_STORE k).setF Reg.CFG_STATUS_LOADED 1).setF Reg.CFG_STATUS_OVL_PRESENT present).setF
    Reg.CFG_STATUS_OTHER_VALID (b2n (s.storeOf (1 - k)).valid)).setF Reg.SYS_MODE_START p.startMode

/-- The register records of the active store applied (R50, R54). -/
def State.loadBase (s : State) : State :=
  let q := s.loadSections s.recCtx (s.storeOf s.activeStore).records
  { q.1 with cfg := { q.1.cfg with recs := q.2 } }

/-- The shared SRAM image of the active store, that of the running image where the store has none, written from its first byte on
(R50, R418; DEDUCED, log entry 45). -/
def State.loadSram (s : State) : State :=
  let x := s.storeOf s.activeStore
  let own := (x.ofType 4).map (fun k => k.words x.word)
  let images := if own.isEmpty then
    ((firmwareSections s.runWord).1.filter (fun k => k.ty == 4)).map (fun k => k.words s.runWord) else own
  images.foldl (fun t l => { t with sram := Memory.setWords t.sram 0 (l.take 524288) }) s

/-! ### Overlays (R55 to R57) -/

/-- A stored overlay by its index. -/
def State.overlayDef (s : State) (k : Nat) : Option OverlayDef := s.cfg.ovls.find? (fun o => o.id == k)

/-- The hub with every word at its reset value and the active base's records applied (R56). -/
def State.baseImage (s : State) : State :=
  s.cfg.recs.foldl (fun t l => l.foldl (fun u r => (u.writeRec noExt u.recCtx r).1) t.resetCfgCopies)
    ({ State.reset with cfg := s.cfg } : State)

/-- A field that a record of the outgoing overlay wrote returned to its base value; a pointer of a window is written as the overlay
wrote it, so that an entry returns to its own base value (R56). -/
def State.returnRec (s : State) (img : State) (w : WCtx) (r : CfgRec) : WriteRes :=
  if copiedWord r.addr then s.writeRec noExt w r
  else
    let base := ({ img with copies := s.copies } : State).view w.port r.addr
    s.writeRec noExt w { r with value := base }

/-- Writes made in order up to the first that is refused: its address, its index and its condition. -/
def State.applyAll (s : State) (f : State → CfgRec → WriteRes) : Nat → List CfgRec → State × Option (Nat × Nat × Cond)
  | _, [] => (s, none)
  | i, r :: rest =>
    match f s r with
    | (t, none) => t.applyAll f (i + 1) rest
    | (_, some c) => (s, some (r.addr, i, c))

/-- The writes of a change of overlay: the returns of the outgoing one's fields, then the incoming one's records; whole, or not at all
with the first refused write, whose index is 0xFFFF for a return (R55, R56). -/
def State.changeOverlay (s : State) (w : WCtx) (out inc : Option OverlayDef) : State × Option (Nat × Nat × Cond) :=
  let img := s.baseImage
  match s.resetCfgCopies.applyAll (fun t r => t.returnRec img w r) 0 ((out.map (fun o => o.recs)).getD []) with
  | (_, some e) => (s, some (e.1, 0xFFFF, e.2.2))
  | (t, none) =>
    match t.resetCfgCopies.applyAll (fun u r => u.writeRec noExt w r) 0 ((inc.map (fun o => o.recs)).getD []) with
    | (_, some e) => (s, some e)
    | (u, none) => (u, none)

/-- CFG_OVL_REFUSED with the refused write's address, the port, the record's index and the block's condition (R55). -/
def State.overlayRefused (s : State) (d : Dest) (k port : Nat) (e : Nat × Nat × Cond) : State :=
  s.logTo d .CFG_OVL_REFUSED k [BitVec.ofNat 64 e.1, BitVec.ofNat 64 port, BitVec.ofNat 64 e.2.1, BitVec.ofNat 64 e.2.2.code]

/-- A write of CFG_OVL_REQ: tested in the order of R55 and made pending. -/
def State.overlayRequest (s : State) (port : Nat) (v : W64) : WriteRes :=
  let k := bits v 3 0
  let act := s.getF Reg.CFG_STATUS_OVL_ACT
  let at_ := if bit v 4 then (s.copy port Reg.CFG_OVL_AT).toNat else s.now + 16
  match firstFail
      [(if k = 15 then act != 15 else decide (k < 8) && (s.getF Reg.CFG_STATUS_OVL_PRESENT).testBit k, .CFG_OVL_ABSENT),
       (!s.flag Reg.CFG_STATUS_PENDV && !s.cfg.autoNext, .CFG_OVL_BUSY), (decide (s.now + 16 ≤ at_), .CFG_OVL_LATE)] with
  | some c => s.refuse c k Reg.CFG_OVL_REQ port
  | none =>
    match (s.changeOverlay { port := cfgPort, slot := at_, asked := s.now } (s.overlayDef act) (s.overlayDef k)).2 with
    | some e => (s.overlayRefused (.refusal port) k port e, some .CFG_OVL_REFUSED)
    | none => (s.pendOverlay k (some at_) port false, none)

/-- A delay that differs from that of an earlier state is logged with the slot from which it applies (R135). -/
def State.logDelays (s old : State) (m : Nat) : State :=
  (List.range 392).foldl (fun t c =>
    if (old.fltNow c).delta = (s.fltNow c).delta then t else t.log .FLT_DELAY_SET c [BitVec.ofNat 64 m]) s

/-- Settings that changed at slot m are in force from it on: for output instants, for the detectors and in the log. -/
def State.newSettings (s old : State) (m : Nat) : State := ((s.recordSettings m false).closeDetectors m).logDelays old m

/-- An overlay is active from slot m on, 15 for none (R56, R58). -/
def State.overlayActive (s : State) (k m : Nat) : State :=
  ((s.setF Reg.CFG_STATUS_OVL_ACT k).setReg Reg.CFG_OVL_SLOT (BitVec.ofNat 64 m)).showConfig

/-- A change of overlay at slot m takes effect whole or not at all (R55, R56). -/
def State.putOverlay (s : State) (k m port : Nat) : State :=
  match s.changeOverlay s.recCtx (s.overlayDef (s.getF Reg.CFG_STATUS_OVL_ACT)) (s.overlayDef k) with
  | (_, some e) => s.overlayRefused .all k port e
  | (t, none) => ((t.overlayActive k m).excitationChanged s).newSettings s m

/-- A store whose overlay k is the section of the words, in place of the one it held (R52, R54). -/
def CfgStore.withOverlay (x : CfgStore) (k : Nat) (ws : List W64) : CfgStore :=
  let kept := (x.sects.1.filter (fun c => !(c.ty == 5 && c.ix == k))).flatMap (fun c => c.whole x.word)
  let head := BitVec.ofNat 64 (5 <<< 56 + k <<< 48 + ws.length <<< 24)
  let img := kept ++ head :: ws ++ [BitVec.ofNat 64 (crc32c (wordOctets ws))]
  let words := (img.zip (List.range img.length)).foldl (fun (m : Sparse W64) p => m.set (fun _ => 0) p.2 p.1) []
  let y : CfgStore := { x with words := words, len := img.length }
  { y with crc := y.imageCrc }

/-- An overlay of the active configuration replaced by an owner: the active one is refused, as is one that leaves its scope or binds a mode twice
(R52, R54). No row of the command table carries a replacement (log entry 49). -/
def State.replaceOverlay (s : State) (port : Nat) (k : Fin 8) (ws : List W64) : WriteRes :=
  let y := (s.storeOf s.activeStore).withOverlay k ws
  let no (c : Cond) : WriteRes := s.refuse c k Reg.CFG_OVL_REQ port
  match firstFail [(decide (2 ≤ s.classOf port), .SYS_AUTH_DENIED), (s.getF Reg.CFG_STATUS_OVL_ACT != k.val, .CFG_OVL_ACTIVE),
      (!(y.overlays.any (fun o => o.id == k.val && o.recs.any outOfScope)), .CFG_OVL_SCOPE), (!boundTwice y.overlays, .CFG_OVL_BIND)] with
  | some c => no c
  | none =>
    let s1 := s.setStore s.activeStore y
    let s2 : State := { s1 with cfg := { s1.cfg with ovls := y.overlays } }
    (s2.setF Reg.CFG_STATUS_OVL_PRESENT (withBit (s2.getF Reg.CFG_STATUS_OVL_PRESENT) k true), none)

/-- OVERLAY_ACTIVATION: at its slot the pending activation returns the outgoing overlay's fields to their base values and applies the
incoming one's records; an overlay that is no longer stored is absent (R55 to R57). -/
def execOverlayActivation (s : State) : Res :=
  match s.cfg.pendAt with
  | some m =>
    if s.overlayDue then
      let k := s.getF Reg.CFG_STATUS_OVL_PEND
      let port := s.cfg.pendPort
      let s1 := s.dropOverlay
      if k ≠ 15 ∧ (s.overlayDef k).isNone = true then .next (s1.log .CFG_OVL_ABSENT k [BitVec.ofNat 64 m, BitVec.ofNat 64 port])
      else .next (s1.putOverlay k m port)
    else .next s
  | none => .next s

/-- An automatic activation that waited behind an explicit one becomes the pending one in the slot after it, for what the transition
then asks for (R57). -/
def State.nextAuto (s : State) : State :=
  if s.cfg.autoNext && !s.flag Reg.CFG_STATUS_PENDV then
    let s1 : State := { s with cfg := { s.cfg with autoNext := false } }
    if s1.flag Reg.SYS_MODE_PENDV then s1.pendAuto (s1.getF Reg.SYS_MODE_PEND) s1.mode.pendAt else s1
  else s

/-! ### Start-up (R43, R44, R46, R53) -/

/-- A committed store that fails its check is reported (R500). -/
def State.reportStore (s : State) (k : Nat) : State :=
  let x := s.storeOf k
  match (if x.committed then x.check else none) with
  | some (c, u, o) => s.log c u [BitVec.ofNat 64 o, BitVec.ofNat 64 cfgPort]
  | none => s

/-- The valid store with the higher sequence number (R53). -/
def State.chooseStore (s : State) : Option Nat :=
  let a := s.storeOf 0
  let b := s.storeOf 1
  if a.valid && b.valid then (if a.seq.getD 0 < b.seq.getD 0 then some 1 else some 0)
  else if a.valid then some 0 else if b.valid then some 1 else none

/-- Every time base without a domain takes its initial set from the time mark: those at SRC 0 and SRC 3 (R46, R253). -/
def State.setFromMarks (s : State) : State :=
  [0, 1, 2, 3].foldl (fun t k =>
    let src := t.getF (Reg.TB_CFG_SRC k)
    if src = 0 ∨ src = 3 then t.setFromMark k else t) s

/-- CONFIG_LOAD: the configuration store with the higher sequence number that checks is chosen; its parameters, records, SRAM image and
overlays are in effect, an overlay bound to Basecamp is active, and the digest is computed, or CFG_NONE is raised. The
calibration set is chosen (R43, R44, R46, R50 to R58, R417). -/
def execConfigLoad (s : State) : Res :=
  if s.mode.phase ≠ .lanes ∨ s.cur = 0 then .next s
  else
    let s0 := ((s.reportStore 0).reportStore 1).toPhase .configured
    let s1 := match s0.chooseStore with
      | none => s0.log .CFG_NONE 0 []
      | some k =>
        let t := (((s0.takeStore k).applyParts s0.now).loadBase).loadSram
        let u := t.showConfig.logDelays s0 s0.now
        match u.boundTo 1 with
        | some k => u.putOverlay k u.now 7
        | none => u
    .next s1.loadCalSet.setFromMarks

/-! ### Configuration commands (R359, R361) -/

/-- CFG_BEGIN by a port: the store that is not active is erased (R361). -/
def State.cfgBegin (s : State) (port : Nat) : State × Option Cond :=
  let busy := match s.cfg.writer with
    | some p => p != port
    | none => false
  if busy then (s, some .CFG_STORE_BUSY)
  else
    let s1 := s.setStore s.otherStore {}
    (({ s1 with cfg := { s1.cfg with writer := some port, nextOff := 0, newer := false } } : State).setF Reg.CFG_STATUS_OTHER_VALID 0, none)

/-- The words of an image in 3 MiB. -/
def storeWordsMax : Nat := 393216

/-- Image words written at ascending offsets from an index of the command on; the first refused one with its index (R359, R361). -/
def State.cfgWords (s : State) (port : Nat) : Nat → Nat → List W64 → State × Option (Nat × Cond)
  | _, _, [] => (s, none)
  | i, off, v :: rest =>
    if s.cfg.writer ≠ some port ∨ off ≠ s.cfg.nextOff then (s, some (i, .CFG_WRITE_ORDER))
    else if storeWordsMax ≤ off then (s, some (i, .CFG_WRITE_SIZE))
    else
      let k := s.otherStore
      let x := s.storeOf k
      let s1 := s.setStore k { x with words := x.words.set (fun _ => 0) off v, len := off + 1 }
      ({ s1 with cfg := { s1.cfg with nextOff := off + 1 } } : State).cfgWords port (i + 1) (off + 1) rest

/-- The check of CFG_COMMIT: order, the store's sections, the epoch (R54, R361, R500). -/
def State.commitTest (s : State) (port : Nat) : Option (Cond × Nat × Option Nat) :=
  let x := s.storeOf s.otherStore
  if s.cfg.writer ≠ some port then some (.CFG_WRITE_ORDER, 0, none)
  else match x.check with
    | some (c, u, o) => some (c, u, if c = .CFG_SECTION then some o else none)
    | none =>
      if x.params.epoch < s.getF Reg.CFG_EPOCH_EPOCH ∧ s.classOf port < 3 then some (.CFG_EPOCH_OLD, 0, none) else none

/-- CFG_COMMIT: the store takes the active sequence number plus 1 (R361). -/
def State.cfgCommit (s : State) : State × Nat :=
  let k := s.otherStore
  let n := (((s.storeOf s.activeStore).seq.getD 0) + 1) % 2 ^ 64
  let s1 := s.setStore k { s.storeOf k with seq := some n, crc := (s.storeOf k).imageCrc }
  (({ s1 with cfg := { s1.cfg with writer := none, newer := true } } : State).setF Reg.CFG_STATUS_OTHER_VALID 1, n)

/-- The base of another store takes effect at slot m in a mode: the fields of the active overlay return to their base values, the new
base's records apply; the overlay stays active where the new base holds one of its index, else the one bound to the mode
applies, or none (R54, R57, R432). -/
def State.switchBase (s : State) (k m mode : Nat) : State :=
  let act := s.getF Reg.CFG_STATUS_OVL_ACT
  let t := ((s.changeOverlay s.recCtx (s.overlayDef act) none).1.takeStore k).loadBase
  let want := if (t.overlayDef act).isSome then act else (t.boundTo mode).getD 15
  let r := t.changeOverlay t.recCtx none (t.overlayDef want)
  let now := if r.2.isSome then 15 else want
  let u := match r.2 with
    | some e => t.overlayRefused .all want 7 e
    | none => r.1
  ((if now = act then u else (u.setF Reg.CFG_STATUS_OVL_ACT now).setReg Reg.CFG_OVL_SLOT (BitVec.ofNat 64 m)).showConfig).newSettings s m

/-- CFG_LOAD in Basecamp: the newly committed store is active: its records, programs and SRAM image are loaded; an engine that ran
stops and enters its program at the next acquisition. Without a newly committed store nothing changes
(R54, R361; DESIGN CHOICE, log entry 43). -/
def State.cfgLoad (s : State) : State :=
  if s.cfg.newer then (s.stopEngines.switchBase s.otherStore s.now 1).loadSram.loadPrograms else s

/-- CFG_BEGIN (OP 0x20): the inactive configuration store is erased (R361). -/
def execCfgBegin (l : Fin 4) (h : CmdHdr) (s : State) : Res :=
  .next (s.command l h 0x20 [] 2 false (fun t => match t.cfgBegin l with
    | (_, some c) => t.refused c 0 0x20 l
    | (u, none) => { st := u }))

/-- CFG_WRITE (OP 0x21): 1 to 128 image words; items before a refused one stand (R359, R361). -/
def execCfgWrite (l : Fin 4) (h : CmdHdr) (offset : W64) (words : List W64) (s : State) : Res :=
  .next (s.command l h 0x21 (offset :: words) 2 false (fun t =>
    if words.isEmpty || decide (128 < words.length) then t.illegal
    else match t.cfgWords l 0 offset.toNat words with
      | (u, some (i, c)) => { u.refused c 0 0x21 l with detail := i }
      | (u, none) => { st := u }))

/-- CFG_COMMIT (OP 0x22): the image is checked and the commit record written; the response holds the sequence number (R361). A section
that fails is reported with its word offset (R500). -/
def execCfgCommit (l : Fin 4) (h : CmdHdr) (s : State) : Res :=
  .next (s.command l h 0x22 [] 2 false (fun t => match t.commitTest l with
    | some (c, u, some o) => { st := t.logTo (.refusal l) c u [BitVec.ofNat 64 o, BitVec.ofNat 64 l.val], status := 2 }
    | some (c, u, none) => t.refused c u 0x22 l
    | none =>
      let r := t.cfgCommit
      { st := r.1, words := [BitVec.ofNat 64 r.2] }))

/-- CFG_LOAD (OP 0x23): served only in Basecamp (R361). -/
def execCfgLoad (l : Fin 4) (h : CmdHdr) (s : State) : Res :=
  .next (s.command l h 0x23 [] 2 false (fun t =>
    if t.cur = 1 then { st := t.cfgLoad } else t.refused .CFG_LOAD_MODE 0 0x23 l))

end Sys2Proof.Machine
end

