-- ==== Sys2Proof/Machine/Activate.lean ====
section
/-!
DEFINITION. Sys2Proof/Machine/Activate.lean: hitless activation in Traverse (R429 to R433).
-/
namespace Sys2Proof.Machine
open Sys2Proof

/-! ### Acceptance (R429) -/

/-- Test 4 of an activation at t_e: the partition sizes in force, then every record of the other store's base as its block judges it,
with the index of the first refused one; a change of an engine's or a lane's role is refused by its block while acquiring. A
partition set that differs is reported with index 0xFFFF (R429; DESIGN CHOICE, log entry 45). -/
def State.activationRefused (s : State) (te : Nat) : Option Nat :=
  let x := s.storeOf s.otherStore
  let p := x.params
  let w : WCtx := { port := cfgPort, slot := te, asked := s.now }
  if s.cfg.parts ≠ (p.cap, p.led, p.bulk) then some 0xFFFF
  else
    (x.records.foldl (fun (r : State × Option Nat) l =>
      match r.2 with
      | some _ => r
      | none =>
        match r.1.resetCfgCopies.applyAll (fun t k => t.writeRec noExt w k) 0 l with
        | (t, some e) => (t, some e.2.1)
        | (t, none) => (t, none)) (s, none)).2

/-- The slot h of an activation: the named one, or for 0 the first multiple of 8,192 at least 62,500 slots ahead (R429). -/
def State.activationSlot (s : State) (at_ : Nat) : Nat := if at_ = 0 then ceilDiv (s.now + 62500) 8192 * 8192 else at_

/-- The tests of an activation in their order: the condition, with the index of a refused record (R429). -/
def State.activationTest (s : State) (at_ : Nat) : Option (Cond × Option Nat) :=
  let x := s.storeOf s.otherStore
  let h := s.activationSlot at_
  if !(s.cur == 3 || s.cur == 4 || s.cur == 5) then some (.UPD_TRAV_MODE, none)
  else if s.flag Reg.SYS_MODE_PENDV || s.upd.act.isSome || s.copying then some (.UPD_BUSY, none)
  else if !(x.valid && decide (s.getF Reg.CFG_EPOCH_EPOCH < x.params.epoch)) then some (.UPD_TRAV_CFG, none)
  else match s.activationRefused (h + 16) with
    | some i => some (.UPD_TRAV_REFUSED, some i)
    | none => if h < s.now + 62500 then some (.UPD_TRAV_LATE, none) else none

/-- The low 32 bits of the digest and the epoch that the base of the other store brings, with the overlay that would stay active or take
effect in the present mode (R432, R433). -/
def State.nextConfig (s : State) : Nat × Nat :=
  let x := s.storeOf s.otherStore
  let act := s.getF Reg.CFG_STATUS_OVL_ACT
  let ovl := if x.overlays.any (fun o => o.id == act) then act
    else ((x.overlays.find? (fun o => o.bind == s.cur)).map (fun o => o.id)).getD 15
  ((x.digest ovl).toNat % 2 ^ 32, x.params.epoch)

/-- An activation accepted: Traverse is pending at h, each active engine l switches at program slot h + l, the shadow memories begin to
load (R429 to R431). -/
def State.activate (s : State) (at_ port : Nat) : State :=
  let h := s.activationSlot at_
  let s1 := (s.setF Reg.UPD_STAT_TPEND 1).setReg Reg.UPD_TSLOT (BitVec.ofNat 64 h)
  let sw := s.activeEngines.foldl (fun m l => Sparse.set (fun _ => 0) m l (h + l)) []
  ({ s1 with upd := { s1.upd with
    act := some (h, port), loading := true, switches := sw, next := s.nextConfig } } : State).pendMode 6 (some h) port 1

/-- The log of a refused activation; the index of a refused record is its own detail item (R429, R461). -/
def State.activationLog (s : State) (c : Cond × Option Nat) (what port : Nat) : State :=
  match c.2 with
  | some i => s.logTo (.refusal port) c.1 0 [BitVec.ofNat 64 i, BitVec.ofNat 64 port]
  | none => s.logRefusal c.1 0 what port

/-- A write of UPD_CTL.ACTIVATE: an activation at the port's UPD_AT (R429). -/
def State.activateWrite (s : State) (port : Nat) : WriteRes :=
  let at_ := (s.copy port Reg.UPD_AT).toNat
  match s.activationTest at_ with
  | some c => (s.activationLog c Reg.UPD_CTL port, some c.1)
  | none => (s.activate at_ port, none)

/-- What a write of CFG_OVL_REQ and of UPD_CTL.ACTIVATE does from a port or a program. -/
def hubExt : Ext := { ovl := fun s port v => s.overlayRequest port v, act := fun s port => s.activateWrite port }

/-- UPD_ACTIVATE (OP 0x35): the response holds the slot h granted (R420, R429). -/
def execUpdActivate (l : Fin 4) (h : CmdHdr) (at_ : W64) (s : State) : Res :=
  .next (s.command l h 0x35 [at_] 2 false (fun t =>
    match t.activationTest at_.toNat with
    | some c => { st := t.activationLog c 0x35 l, status := 2 }
    | none => { st := t.activate at_.toNat l, words := [BitVec.ofNat 64 (t.activationSlot at_.toNat)] }))

/-! ### Loading and the end (R430, R432) -/

/-- An activation whose shadow memories cannot be loaded is cancelled with its pending transition (R41, R430). -/
def State.loadFailed (s : State) (e : Nat) : State := (s.dropActivation.log .UPD_TRAV_LOAD e []).cancelMode

/-- The shadow memories of the active engines take their programs. -/
def State.loadShadows (s : State) (progs : List ProgDef) : State :=
  s.activeEngines.foldl (fun t l =>
    let e := t.host l
    t.setEng e { t.eng e with shadow := instrMemory ((t.programOf progs l).getD []) }) s

/-- SHADOW_LOAD_COMPLETE: each active engine's shadow memory holds the new base's program for it, or the running image's; an engine with no
program, or an uncorrectable error, cancels the activation (R430). -/
def execShadowLoadComplete (eccError : Option (Fin 16)) (s : State) : Res :=
  if s.upd.act.isNone || !s.upd.loading || s.cur == 6 then .next s
  else
    let progs := (s.storeOf s.otherStore).progs
    match eccError, s.activeEngines.find? (fun l => (s.programOf progs l).isNone) with
    | some e, _ => .next (s.loadFailed e)
    | none, some l => .next (s.loadFailed l)
    | none, none =>
      let s1 := (s.loadShadows progs).setF Reg.UPD_STAT_SHADOW 1
      .next { s1 with upd := { s1.upd with loading := false } }

/-- TRAVERSE_END: at t_e = h + 16 the new base takes effect, the mode returns to PRIOR and the service firmware switches; the new base's
SRAM image is not written into the SRAM that the programs use (R432; DESIGN CHOICE, log entry 45). -/
def execTraverseEnd (s : State) : Res :=
  match s.upd.act with
  | none => .next s
  | some a =>
    let te := a.1 + 16
    if s.cur ≠ 6 ∨ s.now < te ∨ s.overlayDue = true then .next s
    else
      let s1 := s.switchBase s.otherStore te s.prior
      let s2 := (s1.setF Reg.UPD_STAT_TPEND 0).setF Reg.UPD_STAT_SHADOW 0
      let s3 : State := { s2 with upd := { s2.upd with act := none, loading := false } }
      .next ((s3.setF Reg.UPD_VER_ACT (headerVersion s3.runWord)).transit s3.prior te 2)

end Sys2Proof.Machine
end

