-- ==== Sys2Proof/Machine/Commit.lean ====
section
/-!
DEFINITION. Sys2Proof/Machine/Commit.lean: the program mailbox and the application of commit groups in their blocks
(R154, R166, R167, R195, R203 to R206, R362).
-/
namespace Sys2Proof.Machine
open Sys2Proof

/-! ### The mailbox (R362) -/

/-- The first byte of mailbox slot k of lane l, from the start of shared SRAM (R153, R362). -/
def mailAt (l k : Nat) : Nat := 0x003E0000 + 0x4800 * l + 0x900 * k

/-- A mailbox slot. -/
def HostSt.slot (x : HostSt) (k : Nat) : Option MailSlot := x.mail.get (fun _ => none) k

/-- The lowest free mailbox slot. -/
def HostSt.freeSlot (x : HostSt) : Option Nat := (List.range 8).find? (fun k => (x.slot k).isNone)

/-- Words of shared SRAM from a word index up, and one further word, are written anew, which mends their failing check (R196). -/
def mended (bad : List Nat) (first n other : Nat) : List Nat := bad.filter (fun w => !(decide (first ≤ w) && decide (w < first + n)) && w != other)

/-- A program command written into a mailbox slot, its NW word 0. -/
def State.enterMail (s : State) (l k num : Nat) (c : Cmd) : State :=
  let m := Memory.setWords (Memory.setWord s.sram (mailAt l k + 1064) 0) (mailAt l k) c.words
  let x := s.hostOf l
  ({ s with sram := m, sramBad := mended s.sramBad (mailAt l k / 8) c.words.length (mailAt l k / 8 + 133) } : State).setHost l
    { x with mail := x.mail.set (fun _ => none) k (some { num := num, cmd := c, slot := s.upSlots }) }

/-- The oldest waiting program command enters a slot that is free. -/
def State.fillMail (s : State) (l : Nat) : State :=
  let x := s.hostOf l
  match x.waiting, x.freeSlot with
  | w :: rest, some k => (s.setHost l { x with waiting := rest }).enterMail l k w.1 w.2
  | _, _ => s

/-- A mailbox slot answered: its response takes STATUS, DETAIL and words and is stored for repeats, word 0 and NW are cleared, the slot
is free for the next command. -/
def State.mailAnswer (s : State) (l k : Nat) (mslot : MailSlot) (status detail : Nat) (words : List W64) : State :=
  let x := s.hostOf l
  let done (r : Resp) : Resp := { r with status := status, detail := detail, words := words, ready := s.upSlots, waits := none }
  let mine (r : Resp) : Bool := r.waits == some mslot.num
  let kept := (x.resps.filter mine).map (fun r => (mslot.cmd, done r))
  let y := { x with
    resps := x.resps.map (fun r => if mine r then done r else r), store := (kept ++ x.store).take 16
    mail := x.mail.set (fun _ => none) k none }
  let m := Memory.setWord (Memory.setWord s.sram (mailAt l k) 0) (mailAt l k + 1064) 0
  (((({ s with sram := m, sramBad := mended s.sramBad (mailAt l k / 8) 1 (mailAt l k / 8 + 133) } : State).setHost l y).countCmd l status).fillMail l)

/-- The program's answers in the mailbox of a lane are sent: a slot whose NW is not 0 holds a response of NW words (R362). -/
def State.pollMail (s : State) (l : Nat) : State :=
  (List.range 8).foldl (fun t k =>
    match (t.hostOf l).slot k with
    | none => t
    | some m =>
      let nw := (Memory.word t.sram (mailAt l k + 1064)).toNat
      if nw = 0 then t
      else t.mailAnswer l k m 0 0 ((List.range (capAt 132 nw)).map (fun i => Memory.word t.sram (mailAt l k + 1072 + 8 * i)))) s

/-- PROGRAM_COMMAND (OP 0x80 to 0xFF): the command enters the lowest free mailbox slot of its lane, or waits for one; its response keeps
its place in the order of the port's commands (R355, R357, R362). -/
def execProgramCommand (l : Fin 4) (h : CmdHdr) (op : BitVec 8) (words : List W64) (s : State) : Res :=
  let x := s.hostOf l
  let c : Cmd := { src := h.src.toNat, words := cmdFrame h op.toNat words }
  let again := h.tag != 0 && x.store.any (fun e => e.1 == c)
  if s.pairRole l || !s.answers l || decide (8 ≤ x.held) || again || !s.served l op.toNat false || decide (op.toNat < 128) || decide (132 < words.length) then
    .next (s.command l h op.toNat words 0 false (fun t => t.illegal))
  else
    let r : Resp :=
      { dst := c.src, op := op.toNat, tag := h.tag.toNat, status := 0, detail := 0, words := [], ready := s.upSlots, waits := some x.nextNum }
    let y := { x with
      resps := x.resps ++ [r], waiting := x.waiting ++ [(x.nextNum, c)], nextNum := x.nextNum + 1
      sub := if h.sub then some h.src.toNat else x.sub }
    .next ((s.setHost l y).fillMail l)

/-- NOPROG: 1 s (250,000 slots) after a command's arrival in its mailbox slot no NW is stored: it is answered NOPROG with the slot, which
is free again (R358, R362). -/
def execNoprog (l : Fin 4) (slot : Fin 8) (s : State) : Res :=
  match (s.hostOf l).slot slot with
  | none => .next s
  | some m => if m.slot + 250000 ≤ s.upSlots then .next (s.mailAnswer l slot m 5 slot []) else .next s

/-! ### Commit groups applied (R166) -/

/-- A CONVSET entry applied: too late for the freeze of its target slot it is refused, counted and logged; else its paths stand in the
bank's prediction store (R102, R167). -/
def State.applyConvset (s : State) (g : Group) (bank mask paths t : Nat) : State :=
  if t ≤ g.accSlot ∨ (t = g.accSlot + 1 ∧ 12672 < g.accTick) then
    (s.bump (Reg.ENG_CB_CONVSET_LATE g.eng)).log .ENG_CONVSET_LATE g.eng [BitVec.ofNat 64 (bank * 65536 + mask), BitVec.ofNat 64 t]
  else
    let x := s.bk bank
    let named := positions.filter (fun p => mask.testBit p)
    let new := named.map (fun p => ({ slot := t, pos := p, fine := paths.testBit p, eng := g.eng } : Pred))
    s.setBk bank { x with preds := new ++ x.preds.filter (fun q => !(q.slot == t && named.contains q.pos)) }

/-- An EVENT entry applied: a record with the engine, the program slot, the argument and the commit sequence number (R205, R441). -/
def State.applyEvent (s : State) (g : Group) (code : Nat) (arg : W64) (notify : Bool) : State :=
  s.appendRec .all
    { cls := 1, level := 0, code := code, unit := g.eng, partner := false, notify := notify, cont := false, seq := 0
      slot := BitVec.ofNat 64 g.slot, d2 := arg, d3 := BitVec.ofNat 64 g.seq }

/-- One entry of an accepted group applied in its block: a store into the hub register window is a write of the program with operator
authority (R154, R166, R195, R203 to R206). -/
def State.applyOp (s : State) (g : Group) (o : CbOp) : State :=
  match o with
  | .convset bank mask paths t => s.applyConvset g bank mask paths t
  | .emit q start fin words => s.applyEmit q start fin words
  | .event code arg notify => s.applyEvent g code arg notify
  | .trigarm u arm desc => s.applyTrigarm u arm desc
  | .store a n v =>
    if 0x1000000 ≤ a ∧ a < 0x1010000 then (s.writeExt hubExt (s.wctx progPort) (hubWord a) (BitVec.ofNat 64 v)).1 else s.sharedWrite a n v
  | .aadd a v => s.sharedWrite a 8 ((ofLeBytes ((List.range 8).map (fun i => s.sharedByte (a + i))).reverse + v.toNat) % 2 ^ 64)

/-- The group accepted first applied whole, its entries in program order; then the answers that programs stored are sent. -/
def State.applyGroup (s : State) : State :=
  match s.arb.accepted with
  | [] => s
  | g :: rest =>
    let s1 : State := { s with arb := { s.arb with accepted := rest } }
    [0, 1, 2, 3].foldl (fun t l => t.pollMail l) (g.ops.foldl (fun t o => t.applyOp g o) s1)

/-- COMMIT_GROUP_APPLY (R166). -/
def execCommitGroupApply (s : State) : Res := .next s.applyGroup

/-- Groups accepted in the slot before at or before tick 12,672, or earlier, are applied in full by tick 0 of the slot that begins
(R166). `n` bounds the groups. -/
def State.applyDue (s : State) : Nat → State
  | 0 => s
  | n + 1 =>
    match s.arb.accepted with
    | [] => s
    | g :: _ => if g.accSlot < s.now ∨ g.accTick ≤ 12672 then s.applyGroup.applyDue n else s

end Sys2Proof.Machine
end

