-- ==== Sys2Proof/Machine/Host.lean ====
section
/-!
DEFINITION. Sys2Proof/Machine/Host.lean: register access by the command ports: the commands of the lanes, the transactions of the
management serial port, and writes of single registers as served (R347 to R374, R445, R449 to R459).
-/
namespace Sys2Proof.Machine
open Sys2Proof

/-! ### Reads (R357, R371) -/

/-- The addresses of n words from one up, or the one n times. -/
def wordRange (a n : Nat) (inc : Bool) : List Nat := (List.range n).map (fun i => if inc then a + i else a)

/-- READ (OP 0x01): COUNT register values after the address (R357). -/
def execRead (l : Fin 4) (h : CmdHdr) (w1 : W64) (s : State) : Res :=
  let a := bits w1 12 0
  let n := bits w1 22 16 + 1
  let inc := !bit w1 24
  .next (s.command l h 0x01 [w1] 0 ((wordRange a n inc).all (fun i => s.openWord i)) (fun t =>
    let r := t.readWords l inc a n
    { st := r.2, words := BitVec.ofNat 64 a :: r.1 }))

/-- SNAPSHOT (OP 0x03): the words of the group that word 1 names, latched in one management clock; an address that begins no group is a
malformed operand (R357, R358, R371). -/
def execSnapshot (l : Fin 4) (h : CmdHdr) (w1 : W64) (s : State) : Res :=
  let a := bits w1 12 0
  .next (s.command l h 0x03 [w1] 0 false (fun t =>
    match snapGroup a with
    | some g =>
      let r := t.snapWords l g
      { st := r.2, words := BitVec.ofNat 64 a :: r.1 }
    | none => t.illegal))

/-! ### Writes (R348, R357 to R359, R374) -/

/-- The class field of a command port in SYS_AUTH. -/
def classField (p : Nat) : Fld :=
  if p = 0 then Reg.SYS_AUTH_L0 else if p = 1 then Reg.SYS_AUTH_L1 else if p = 2 then Reg.SYS_AUTH_L2
  else if p = 3 then Reg.SYS_AUTH_L3 else Reg.SYS_AUTH_SP

/-- An item of a command written under the class that the command began with; a class that the command itself has changed holds again
after the item (R348, R374). -/
def State.itemAs (s : State) (p cls a : Nat) (f : State → WriteRes) : WriteRes :=
  let now := s.classOf p
  if now = cls then f s
  else
    match f (s.setF (classField p) cls) with
    | (t, c) => (if a = Reg.SYS_AUTH ∧ c = none then t else t.setF (classField p) now, c)

/-- STATUS of a refused item: AUTH for authority or lane scope, else REFUSED (R358, R496). -/
def refusedStatus (c : Cond) : Nat := if c = .SYS_AUTH_DENIED ∨ c = .SYS_AUTH_LANE then 1 else 2

/-- The items of a writing command in order, with their addresses: the first refused one stops it with its index; in Descent it stops
before its next item unless the port holds maintenance class (R359, R374). -/
def State.writeItems (s : State) (p cls : Nat) : Nat → List (Nat × (State → WriteRes)) → Answer
  | _, [] => { st := s }
  | i, f :: rest =>
    if s.cur = 7 ∧ cls < 3 then { st := s, status := 4, detail := 7 }
    else
      match s.itemAs p cls f.1 f.2 with
      | (t, some c) => { st := t, status := refusedStatus c, detail := i }
      | (t, none) => if t.mode.phase = .held then { st := t } else t.writeItems p cls (i + 1) rest

/-- A write of a word by a port as an item. -/
def portItem (p a : Nat) (v : W64) : Nat × (State → WriteRes) := (a, fun t => t.writeExt hubExt (t.wctx p) a v)

/-- WRITE (OP 0x02): COUNT values in order (R357, R359). -/
def execWrite (l : Fin 4) (h : CmdHdr) (w1 : W64) (values : List W64) (s : State) : Res :=
  let a := bits w1 12 0
  let inc := !bit w1 24
  .next (s.command l h 0x02 (w1 :: values) 0 false (fun t =>
    if values.length = bits w1 22 16 + 1 then
      t.writeItems l (t.classOf l) 0 ((wordRange a values.length inc).zipWith (fun i v => portItem l i v) values)
    else t.illegal))

/-- MWRITE (OP 0x04): 1 to 44 register records of R50 in order; a record of a windowed word acts through the port's window
(R50, R357). -/
def execMwrite (l : Fin 4) (h : CmdHdr) (words : List W64) (s : State) : Res :=
  .next (s.command l h 0x04 words 0 false (fun t =>
    let rs := recordsOf words
    if words.length = 3 * rs.length ∧ 1 ≤ rs.length ∧ rs.length ≤ 44 then
      t.writeItems l (t.classOf l) 0 (rs.map (fun r => (r.addr, fun u => u.writeRec hubExt (u.wctx l) r)))
    else t.illegal))

/-- CAP_READ (OP 0x13): the data of a record, tested as a copy is, with CAP_COPY_STAT.REFUSED where it fails (R229, R357). A burst that fails its check reads 0, as a copy
writes it. -/
def execCapRead (l : Fin 4) (h : CmdHdr) (w1 w2 : W64) (s : State) : Res :=
  let i := bits w1 63 56
  let off := bits w1 39 0
  let n := w2.toNat
  .next (s.command l h 0x13 [w1, w2] 0 false (fun t =>
    if 8 ≤ n ∧ n ≤ 1024 ∧ n % 8 = 0 then
      match t.recordTest i off n with
      | some c => (t.setF Reg.CAP_COPY_STAT_REFUSED 1).refused c 0 0x13 l
      | none =>
        let start := bits (t.desc i 11) 31 0
        let byte (o : Nat) : Byte :=
          let a := t.recordAddr i start o
          if t.cap.bad.any (fun b => b / 64 == a / 64) then 0 else Memory.get t.cap.mem a
        { st := t, words := bytesToWords (n / 8) ((List.range n).map (fun d => byte (off + d))) }
    else t.illegal))

/-! ### Writes of single registers, as served (log entry 41) -/

/-- A served write of a register by a port. -/
def State.portWrite (s : State) (port a : Nat) (v : W64) : State := (s.writeExt hubExt (s.wctx port) a v).1

/-- REGISTER_WRITE (R496). -/
def execRegisterWrite (port : Port) (addr : BitVec 13) (value : W64) (s : State) : Res :=
  s.whenOpen port addr.toNat <| .next (s.portWrite port addr.toNat value)

/-- OVERLAY_REQUEST: a write of CFG_OVL_REQ (R55). -/
def execOverlayRequest (port : Port) (at_ : Bool) (ovl : BitVec 4) (s : State) : Res :=
  s.whenOpen port Reg.CFG_OVL_REQ <|
  .next (s.portWrite port Reg.CFG_OVL_REQ (BitVec.ofNat 64 (16 * b2n at_ + ovl.toNat)))

/-- SAMPLE_TB_WRITE: a write of TIME_CFG (R250). -/
def execSampleTbWrite (port : Port) (value : W64) (s : State) : Res :=
  s.whenOpen port Reg.TIME_CFG <| .next (s.portWrite port Reg.TIME_CFG value)

/-- LANE_DISABLE: a write of LANE_CFG that sets EN to 0 (R320). -/
def execLaneDisable (port : Port) (l : Fin 4) (s : State) : Res :=
  s.whenOpen port (Reg.LANE_CFG l) <|
  .next (s.portWrite port (Reg.LANE_CFG l) (setBits (s.reg (Reg.LANE_CFG l)) (Reg.LANE_CFG_EN l).hi (Reg.LANE_CFG_EN l).lo 0))

/-- AUTH_WRITE: a write of SYS_AUTH (R350). -/
def execAuthWrite (port : Port) (value : W64) (s : State) : Res :=
  s.whenOpen port Reg.SYS_AUTH <| .next (s.portWrite port Reg.SYS_AUTH value)

/-- LOCK_WRITE: a write of SYS_LOCK (R454). -/
def execLockWrite (port : Port) (value : W64) (s : State) : Res :=
  s.whenOpen port Reg.SYS_LOCK <| .next (s.portWrite port Reg.SYS_LOCK value)

/-- INTERRUPT_CLEAR: ones written to EVT_INT.PEND (R445). -/
def execInterruptClear (port : Port) (bits_ : BitVec 5) (s : State) : Res :=
  s.whenOpen port Reg.EVT_INT <|
  .next (s.portWrite port Reg.EVT_INT (BitVec.ofNat 64 bits_.toNat))

/-- EVENT_RECORD_READ: a read of EVT_REC3, which advances the port's EVT_RDPTR (R456). -/
def execEventRecordRead (port : Port) (s : State) : Res :=
  s.whenReads port (Reg.EVT_REC 3) <| .next (s.readWord port (Reg.EVT_REC 3)).2

/-- PERSISTENT_POINTER_WRITE: a write of EVT_PRD_PTR (R443). -/
def execPersistentPointerWrite (port : Port) (value : W64) (s : State) : Res :=
  s.whenOpen port Reg.EVT_PRD_PTR <| .next (s.portWrite port Reg.EVT_PRD_PTR value)

/-- DBG_ENG_PTR_WRITE: a write of DBG_ENG_PTR (R459). -/
def execDbgEngPtrWrite (port : Port) (value : W64) (s : State) : Res :=
  s.whenOpen port Reg.DBG_ENG_PTR <| .next (s.portWrite port Reg.DBG_ENG_PTR value)

/-- DBG_ENG_DATA_READ: a read of DBG_ENG_DATA, which advances the port's pointer (R456). -/
def execDbgEngDataRead (port : Port) (s : State) : Res :=
  s.whenReads port Reg.DBG_ENG_DATA <| .next (s.readWord port Reg.DBG_ENG_DATA).2

/-! ### The management serial port (R363 to R373) -/

/-- The number of the management serial port. -/
def spPort : Nat := 4

/-- The status byte (R366). -/
def State.spStatusByte (s : State) : Nat :=
  b2n s.serviceRuns * 128 + s.cur * 16 + b2n s.intN * 8 + b2n s.sp.err * 4 + s.classOf spPort

/-- A transaction: nothing answers before the root PLL is locked (R43); its status byte is taken and clears ERR, then its body acts and
gives what follows on SP_SDO (R364, R366). -/
def State.spTransaction (s : State) (body : State → List W64 × State) : Res :=
  if s.runs then
    let r := body { s with sp := { err := false, out := [], status := s.spStatusByte } }
    .next { r.2 with sp := { r.2.sp with out := r.1 } }
  else .next s

/-- ERR is set for the next status byte. -/
def State.spErr (s : State) : State := { s with sp := { s.sp with err := true } }

/-- A transaction counted as SHORT, LONG or ILLEGAL, where a test holds (R365, R369 to R371). -/
def State.spCount (s : State) (f : Fld) (b : Bool) : State := if b then (s.bump f).spErr else s

/-- A refused word counted (R367, R373). -/
def State.spRefused (s : State) : State := (s.bump Reg.SYS_SPSTAT_REFUSED).spErr

/-- A word that the port may read in the present phase and mode (R352, R373, R428). -/
def State.spReads (s : State) (a : Nat) : Bool := s.portReads spPort a

/-- A word that the port may write in the present phase and mode (R32, R373, R428). -/
def State.spWrites (s : State) (a : Nat) : Bool := s.portOpen spPort a

/-- n words read from an address, with increment or without; past 0x1FFF they read 0 (R365, R368, R373). -/
def State.spReadWords (s : State) (inc : Bool) : Nat → Nat → List W64 × State
  | _, 0 => ([], s)
  | a, n + 1 =>
    let r : W64 × State := if 8192 ≤ a then (0, s) else if s.spReads a then s.readWord spPort a else (0, s.spRefused)
    let t := r.2.spReadWords inc (if inc then a + 1 else a) n
    (r.1 :: t.1, t.2)

/-- A read of a word cut short: the latched word of one with an RC field is kept in SYS_SPLOST with its address (R368, R369). -/
def State.spCut (s : State) (a : Nat) : State :=
  let s1 :=
    if s.spReads a then
      let r := s.readWord spPort a
      if hasRc a then
        ((r.2.setReg Reg.SYS_SPLOST r.1).setF Reg.SYS_SPSTAT_LOSTADDR a).setF Reg.SYS_SPSTAT_LOSTV 1
      else r.2
    else s
  s1.spCount Reg.SYS_SPSTAT_SHORT true

/-- The words of a WRITE, each tested on its own: a refused one does not stop those after it, one past 0x1FFF is ignored
(R365, R367). -/
def State.spWriteWords (s : State) (inc : Bool) : Nat → List W64 → State
  | _, [] => s
  | a, v :: rest =>
    let t :=
      if 8192 ≤ a then s
      else if s.spWrites a then
        match s.writeExt hubExt (s.wctx spPort) a v with
        | (u, some _) => u.spRefused
        | (u, none) => u
      else s.spRefused
    if t.runs then t.spWriteWords inc (if inc then a + 1 else a) rest else t

/-- SP_STATUS: complete after 8 or 16 edges; with more it is long, with another number short (R365, R369, R370). -/
def execSpStatus (edges : Nat) (s : State) : Res :=
  s.spTransaction (fun t =>
    ([], (t.spCount Reg.SYS_SPSTAT_LONG (decide (16 < edges))).spCount Reg.SYS_SPSTAT_SHORT (decide (edges < 16 ∧ edges ≠ 8))))

/-- SP_READ: words read with increment; `cut` says that a further word was begun and not completed, `extra` that edges followed past
0x1FFF (R365, R368 to R370). -/
def execSpRead (addr : BitVec 13) (words : Nat) (cut extra : Bool) (s : State) : Res :=
  s.spTransaction (fun t =>
    let next := addr.toNat + words
    let r := t.spReadWords true addr.toNat words
    let u := if cut && decide (next < 8192) then r.2.spCut next else r.2
    (r.1, u.spCount Reg.SYS_SPSTAT_LONG (decide (8192 < next) || ((cut || extra) && decide (8192 ≤ next)))))

/-- SP_READ_NOINC: words read from one address (R365, R368, R369). -/
def execSpReadNoinc (addr : BitVec 13) (words : Nat) (cut : Bool) (s : State) : Res :=
  s.spTransaction (fun t =>
    let r := t.spReadWords false addr.toNat words
    (r.1, if cut then r.2.spCut addr.toNat else r.2))

/-- A WRITE begins: SYS_SPSTAMP takes its stamp (R364, R377). -/
def State.spStampNow (s : State) : State := s.setReg Reg.SYS_SPSTAMP s.sspStamp

/-- SP_WRITE: complete words written with increment; past 0x1FFF the transaction is long (R365, R367). -/
def execSpWrite (addr : BitVec 13) (words : List W64) (s : State) : Res :=
  s.spTransaction (fun t =>
    let u := t.spStampNow.spWriteWords true addr.toNat words
    ([], if u.runs then u.spCount Reg.SYS_SPSTAT_LONG (decide (8192 < addr.toNat + words.length)) else u))

/-- SP_WRITE_NOINC: complete words written to one address (R365, R367). -/
def execSpWriteNoinc (addr : BitVec 13) (words : List W64) (s : State) : Res :=
  s.spTransaction (fun t => ([], t.spStampNow.spWriteWords false addr.toNat words))

/-- SP_SNAPSHOT: the words of a group latched in one management clock; an address that begins no group returns 0 for one word and
counts ILLEGAL; further edges make it long (R365, R370, R371). -/
def execSpSnapshot (addr : BitVec 13) (extra : Bool) (s : State) : Res :=
  s.spTransaction (fun t =>
    let r : List W64 × State :=
      if t.serviceRuns then
        match snapGroup addr.toNat with
        | some g => t.snapWords spPort g
        | none => ([0], t.spCount Reg.SYS_SPSTAT_ILLEGAL true)
      else ([0], t.spRefused)
    (r.1, r.2.spCount Reg.SYS_SPSTAT_LONG extra))

/-- SP_ILLEGAL: a command code 0b110 or 0b111 is refused after 8 edges and counted; further edges make it long (R365, R370). -/
def execSpIllegal (_code : Fin 2) (edges : Nat) (s : State) : Res :=
  s.spTransaction (fun t =>
    if edges < 8 then ([], t.spCount Reg.SYS_SPSTAT_SHORT true)
    else ([], (t.spCount Reg.SYS_SPSTAT_ILLEGAL true).spCount Reg.SYS_SPSTAT_LONG (decide (8 < edges))))

/-- SP_SHORT: SP_SEL_N rises before the last sampling edge of byte 1 or of a data word: the partial byte or word is discarded and the
transaction counted (R369). -/
def execSpShort (s : State) : Res := s.spTransaction (fun t => ([], t.spCount Reg.SYS_SPSTAT_SHORT true))

end Sys2Proof.Machine
end

