-- ==== Sys2Proof/Machine/Flags.lean ====
section
/-!
DEFINITION. Sys2Proof/Machine/Flags.lean: the results the Koloux instructions compute: integer, saturating, packed and
multiply-accumulate arithmetic and the conditions of compares (R187 to R192). An engine has no flags register: its
predicates take that place.
-/
namespace Sys2Proof.Machine
open Sys2Proof

/-- Saturation of an exact result to 64 bits of two's complement (R187, R192). -/
def sat64 (i : Int) : W64 := BitVec.ofInt 64 (satS 64 i)

/-- The signed lesser of two words. -/
def minS (a b : W64) : W64 := if a.toInt ≤ b.toInt then a else b
/-- The signed greater of two words. -/
def maxS (a b : W64) : W64 := if a.toInt ≤ b.toInt then b else a
/-- The unsigned lesser of two words. -/
def minU (a b : W64) : W64 := if a.toNat ≤ b.toNat then a else b
/-- The unsigned greater of two words. -/
def maxU (a b : W64) : W64 := if a.toNat ≤ b.toNat then b else a

/-- The absolute value; −2^63 gives 2^63 − 1 (R187). -/
def absSat (a : W64) : W64 := sat64 (a.toInt.natAbs : Int)

/-- Leading zeros of a number of n bits, counted from the top. -/
def clzFrom (v : Nat) : Nat → Nat
  | 0 => 0
  | n + 1 => if v.testBit n then 0 else 1 + clzFrom v n

/-- The shift count rb[5:0] (R187). -/
def shCount (b : W64) : Nat := b.toNat % 64

/-- Rotation right (R187). -/
def rorW (a : W64) (n : Nat) : W64 := a.rotateRight n

/-- The high half of the signed 128-bit product (R187). -/
def mulHS (a b : W64) : W64 := BitVec.ofInt 64 (Int.fdiv (a.toInt * b.toInt) ((2 : Int) ^ 64))
/-- The high half of the unsigned 128-bit product (R187). -/
def mulHU (a b : W64) : W64 := BitVec.ofNat 64 (a.toNat * b.toNat / 2 ^ 64)

/-- The width of a packed lane: 16 bits for .H4, 32 bits for .W2 (R191). -/
def laneWidth (h4 : Bool) : Nat := if h4 then 16 else 32
/-- The number of packed lanes (R191). -/
def laneCount (h4 : Bool) : Nat := if h4 then 4 else 2

/-- Lane i of a word as a number. -/
def laneU (h4 : Bool) (a : W64) (i : Nat) : Nat := (a.toNat >>> (i * laneWidth h4)) % 2 ^ laneWidth h4
/-- Lane i of a word as two's complement. -/
def laneS (h4 : Bool) (a : W64) (i : Nat) : Int := signed (laneWidth h4) (laneU h4 a i)

/-- The word whose lane i holds f i, wrapped to the lane (R191). -/
def lanes (h4 : Bool) (f : Nat → Int) : W64 :=
  BitVec.ofNat 64 (((List.range (laneCount h4)).map (fun i => unsigned (laneWidth h4) (f i) <<< (i * laneWidth h4))).sum)

/-- A packed operation on the signed lanes. -/
def packS (h4 : Bool) (a b : W64) (f : Int → Int → Int) : W64 := lanes h4 (fun i => f (laneS h4 a i) (laneS h4 b i))
/-- A packed operation on the unsigned lanes. -/
def packU (h4 : Bool) (a b : W64) (f : Int → Int → Int) : W64 :=
  lanes h4 (fun i => f (laneU h4 a i : Nat) (laneU h4 b i : Nat))

/-- The signed product sum over lanes that MAC.W2 and MAC.H4 add (R192). -/
def laneDot (h4 : Bool) (a b : W64) : Int :=
  ((List.range (laneCount h4)).map (fun i => laneS h4 a i * laneS h4 b i)).sum

/-- An accumulator raised by an integer, modulo 2^128 (R192). -/
def accAdd (a : BitVec 128) (i : Int) : BitVec 128 := a + BitVec.ofInt 128 i

/-- MVA: the accumulator divided by 2^n, rounded to nearest with ties to even, saturated (R192). -/
def mvaWord (a : BitVec 128) (n : Nat) : W64 := sat64 (roundEven a.toInt (2 ^ n))

/-- A compare's predicate under its mode: replace, AND, OR (R189). -/
def cmpMode (mode : Nat) (old c : Bool) : Bool := if mode = 0 then c else if mode = 1 then old && c else old || c

/-- A 16-bit immediate, sign-extended (R188). -/
def immS (i : BitVec 16) : W64 := i.signExtend 64
/-- A 16-bit immediate, zero-extended (R188). -/
def immU (i : BitVec 16) : W64 := i.zeroExtend 64

end Sys2Proof.Machine
end

