-- ==== Sys2Proof/Machine/KolouxAlu.lean ====
section
/-!
DEFINITION. Sys2Proof/Machine/KolouxAlu.lean: the integer, immediate, compare, predicate and special-register
instructions of a Koloux engine (R187 to R190). A result is written at once and is speculative until its program slot
commits.
-/
namespace Sys2Proof.Machine
open Sys2Proof

/-- ADD: rd = ra + rb, wrapping (R187). -/
def execAdd (e : Fin 16) (g : Guard) (rd ra rb : WReg) (s : State) : Res :=
  s.kolouxReg e g (fun en => let a := en.rw ra; let b := en.rw rb; en.setW rd (a + b))

/-- SUB: rd = ra − rb, wrapping (R187). -/
def execSub (e : Fin 16) (g : Guard) (rd ra rb : WReg) (s : State) : Res :=
  s.kolouxReg e g (fun en => let a := en.rw ra; let b := en.rw rb; en.setW rd (a - b))

/-- AND: rd = ra AND rb (R187). -/
def execAnd (e : Fin 16) (g : Guard) (rd ra rb : WReg) (s : State) : Res :=
  s.kolouxReg e g (fun en => let a := en.rw ra; let b := en.rw rb; en.setW rd (a &&& b))

/-- OR: rd = ra OR rb (R187). -/
def execOr (e : Fin 16) (g : Guard) (rd ra rb : WReg) (s : State) : Res :=
  s.kolouxReg e g (fun en => let a := en.rw ra; let b := en.rw rb; en.setW rd (a ||| b))

/-- XOR: rd = ra XOR rb (R187). -/
def execXor (e : Fin 16) (g : Guard) (rd ra rb : WReg) (s : State) : Res :=
  s.kolouxReg e g (fun en => let a := en.rw ra; let b := en.rw rb; en.setW rd (a ^^^ b))

/-- ANDN: rd = ra AND NOT rb (R187). -/
def execAndn (e : Fin 16) (g : Guard) (rd ra rb : WReg) (s : State) : Res :=
  s.kolouxReg e g (fun en => let a := en.rw ra; let b := en.rw rb; en.setW rd (a &&& ~~~b))

/-- SHL: rd = ra shifted left by rb[5:0] (R187). -/
def execShl (e : Fin 16) (g : Guard) (rd ra rb : WReg) (s : State) : Res :=
  s.kolouxReg e g (fun en => let a := en.rw ra; let b := en.rw rb; en.setW rd (a <<< shCount b))

/-- SHR: rd = ra shifted right by rb[5:0], zero fill (R187). -/
def execShr (e : Fin 16) (g : Guard) (rd ra rb : WReg) (s : State) : Res :=
  s.kolouxReg e g (fun en => let a := en.rw ra; let b := en.rw rb; en.setW rd (a >>> shCount b))

/-- SAR: rd = ra shifted right by rb[5:0], sign fill (R187). -/
def execSar (e : Fin 16) (g : Guard) (rd ra rb : WReg) (s : State) : Res :=
  s.kolouxReg e g (fun en => let a := en.rw ra; let b := en.rw rb; en.setW rd (a.sshiftRight (shCount b)))

/-- ROR: rd = ra rotated right by rb[5:0] (R187). -/
def execRor (e : Fin 16) (g : Guard) (rd ra rb : WReg) (s : State) : Res :=
  s.kolouxReg e g (fun en => let a := en.rw ra; let b := en.rw rb; en.setW rd (rorW a (shCount b)))

/-- MIN: rd = the signed minimum (R187). -/
def execMin (e : Fin 16) (g : Guard) (rd ra rb : WReg) (s : State) : Res :=
  s.kolouxReg e g (fun en => let a := en.rw ra; let b := en.rw rb; en.setW rd (minS a b))

/-- MAX: rd = the signed maximum (R187). -/
def execMax (e : Fin 16) (g : Guard) (rd ra rb : WReg) (s : State) : Res :=
  s.kolouxReg e g (fun en => let a := en.rw ra; let b := en.rw rb; en.setW rd (maxS a b))

/-- MINU: rd = the unsigned minimum (R187). -/
def execMinu (e : Fin 16) (g : Guard) (rd ra rb : WReg) (s : State) : Res :=
  s.kolouxReg e g (fun en => let a := en.rw ra; let b := en.rw rb; en.setW rd (minU a b))

/-- MAXU: rd = the unsigned maximum (R187). -/
def execMaxu (e : Fin 16) (g : Guard) (rd ra rb : WReg) (s : State) : Res :=
  s.kolouxReg e g (fun en => let a := en.rw ra; let b := en.rw rb; en.setW rd (maxU a b))

/-- ADDS: rd = ra + rb, saturated (R187). -/
def execAdds (e : Fin 16) (g : Guard) (rd ra rb : WReg) (s : State) : Res :=
  s.kolouxReg e g (fun en => let a := en.rw ra; let b := en.rw rb; en.setW rd (sat64 (a.toInt + b.toInt)))

/-- SUBS: rd = ra − rb, saturated (R187). -/
def execSubs (e : Fin 16) (g : Guard) (rd ra rb : WReg) (s : State) : Res :=
  s.kolouxReg e g (fun en => let a := en.rw ra; let b := en.rw rb; en.setW rd (sat64 (a.toInt - b.toInt)))

/-- MUL: rd = the low 64 bits of ra × rb (R187). -/
def execMul (e : Fin 16) (g : Guard) (rd ra rb : WReg) (s : State) : Res :=
  s.kolouxReg e g (fun en => let a := en.rw ra; let b := en.rw rb; en.setW rd (a * b))

/-- MULHS: rd = the high 64 bits of the signed product (R187). -/
def execMulhs (e : Fin 16) (g : Guard) (rd ra rb : WReg) (s : State) : Res :=
  s.kolouxReg e g (fun en => let a := en.rw ra; let b := en.rw rb; en.setW rd (mulHS a b))

/-- MULHU: rd = the high 64 bits of the unsigned product (R187). -/
def execMulhu (e : Fin 16) (g : Guard) (rd ra rb : WReg) (s : State) : Res :=
  s.kolouxReg e g (fun en => let a := en.rw ra; let b := en.rw rb; en.setW rd (mulHU a b))

/-- ABS: rd = |ra|; −2^63 gives 2^63 − 1 (R187). -/
def execAbs (e : Fin 16) (g : Guard) (rd ra : WReg) (s : State) : Res :=
  s.kolouxReg e g (fun en => let a := en.rw ra; en.setW rd (absSat a))

/-- CLZ: rd = the leading zeros of ra (R187). -/
def execClz (e : Fin 16) (g : Guard) (rd ra : WReg) (s : State) : Res :=
  s.kolouxReg e g (fun en => let a := en.rw ra; en.setW rd (BitVec.ofNat 64 (clzFrom a.toNat 64)))

/-- POPC: rd = the set bits of ra (R187). -/
def execPopc (e : Fin 16) (g : Guard) (rd ra : WReg) (s : State) : Res :=
  s.kolouxReg e g (fun en => let a := en.rw ra; en.setW rd (BitVec.ofNat 64 (popcount 64 a.toNat)))

/-- ADDI: rd = ra plus the signed immediate; unguarded (R185, R188). -/
def execAddi (e : Fin 16) (rd ra : WReg) (imm : BitVec 16) (s : State) : Res :=
  s.kolouxImm e (fun en => let a := en.rw ra; en.setW rd (a + immS imm))

/-- ANDI: rd = ra AND the unsigned immediate; unguarded (R185, R188). -/
def execAndi (e : Fin 16) (rd ra : WReg) (imm : BitVec 16) (s : State) : Res :=
  s.kolouxImm e (fun en => let a := en.rw ra; en.setW rd (a &&& immU imm))

/-- ORI: rd = ra OR the unsigned immediate; unguarded (R185, R188). -/
def execOri (e : Fin 16) (rd ra : WReg) (imm : BitVec 16) (s : State) : Res :=
  s.kolouxImm e (fun en => let a := en.rw ra; en.setW rd (a ||| immU imm))

/-- XORI: rd = ra XOR the unsigned immediate; unguarded (R185, R188). -/
def execXori (e : Fin 16) (rd ra : WReg) (imm : BitVec 16) (s : State) : Res :=
  s.kolouxImm e (fun en => let a := en.rw ra; en.setW rd (a ^^^ immU imm))

/-- CATI: rd = ra shifted left by 16, OR the unsigned immediate; unguarded (R185, R188). -/
def execCati (e : Fin 16) (rd ra : WReg) (imm : BitVec 16) (s : State) : Res :=
  s.kolouxImm e (fun en => let a := en.rw ra; en.setW rd ((a <<< 16) ||| immU imm))

/-- SHLI: rd = ra shifted left by IMM[5:0]; unguarded (R188). -/
def execShli (e : Fin 16) (rd ra : WReg) (sh : Fin 64) (s : State) : Res :=
  s.kolouxImm e (fun en => let a := en.rw ra; en.setW rd (a <<< sh.val))

/-- SHRI: rd = ra shifted right, zero fill by IMM[5:0]; unguarded (R188). -/
def execShri (e : Fin 16) (rd ra : WReg) (sh : Fin 64) (s : State) : Res :=
  s.kolouxImm e (fun en => let a := en.rw ra; en.setW rd (a >>> sh.val))

/-- SARI: rd = ra shifted right, sign fill by IMM[5:0]; unguarded (R188). -/
def execSari (e : Fin 16) (rd ra : WReg) (sh : Fin 64) (s : State) : Res :=
  s.kolouxImm e (fun en => let a := en.rw ra; en.setW rd (a.sshiftRight sh.val))

/-- LI: rd = the signed immediate; unguarded (R188). -/
def execLi (e : Fin 16) (rd : WReg) (imm : BitVec 16) (s : State) : Res :=
  s.kolouxImm e (fun en => en.setW rd (immS imm))

/-- CMPEQ: the condition on ra and rb goes to pd under the mode; a pd of 0 discards it (R189). -/
def execCmpeq (e : Fin 16) (g : Guard) (mode : Fin 3) (pd : PReg) (ra rb : WReg) (s : State) : Res :=
  s.kolouxReg e g (fun en => let a := en.rw ra; let b := en.rw rb; en.setP pd (cmpMode mode (en.rp pd) (a == b)))

/-- CMPNE: the condition on ra and rb goes to pd under the mode; a pd of 0 discards it (R189). -/
def execCmpne (e : Fin 16) (g : Guard) (mode : Fin 3) (pd : PReg) (ra rb : WReg) (s : State) : Res :=
  s.kolouxReg e g (fun en => let a := en.rw ra; let b := en.rw rb; en.setP pd (cmpMode mode (en.rp pd) (a != b)))

/-- CMPLT: the condition on ra and rb goes to pd under the mode; a pd of 0 discards it (R189). -/
def execCmplt (e : Fin 16) (g : Guard) (mode : Fin 3) (pd : PReg) (ra rb : WReg) (s : State) : Res :=
  s.kolouxReg e g (fun en => let a := en.rw ra; let b := en.rw rb; en.setP pd (cmpMode mode (en.rp pd) (decide (a.toInt < b.toInt))))

/-- CMPGE: the condition on ra and rb goes to pd under the mode; a pd of 0 discards it (R189). -/
def execCmpge (e : Fin 16) (g : Guard) (mode : Fin 3) (pd : PReg) (ra rb : WReg) (s : State) : Res :=
  s.kolouxReg e g (fun en => let a := en.rw ra; let b := en.rw rb; en.setP pd (cmpMode mode (en.rp pd) (decide (b.toInt ≤ a.toInt))))

/-- CMPLTU: the condition on ra and rb goes to pd under the mode; a pd of 0 discards it (R189). -/
def execCmpltu (e : Fin 16) (g : Guard) (mode : Fin 3) (pd : PReg) (ra rb : WReg) (s : State) : Res :=
  s.kolouxReg e g (fun en => let a := en.rw ra; let b := en.rw rb; en.setP pd (cmpMode mode (en.rp pd) (decide (a.toNat < b.toNat))))

/-- CMPGEU: the condition on ra and rb goes to pd under the mode; a pd of 0 discards it (R189). -/
def execCmpgeu (e : Fin 16) (g : Guard) (mode : Fin 3) (pd : PReg) (ra rb : WReg) (s : State) : Res :=
  s.kolouxReg e g (fun en => let a := en.rw ra; let b := en.rw rb; en.setP pd (cmpMode mode (en.rp pd) (decide (b.toNat ≤ a.toNat))))

/-- CMPTST: the condition on ra and rb goes to pd under the mode; a pd of 0 discards it (R189). -/
def execCmptst (e : Fin 16) (g : Guard) (mode : Fin 3) (pd : PReg) (ra rb : WReg) (s : State) : Res :=
  s.kolouxReg e g (fun en => let a := en.rw ra; let b := en.rw rb; en.setP pd (cmpMode mode (en.rp pd) ((a &&& b) != 0)))

/-- CMPEQI: ra against the signed immediate goes to pd under the mode; unguarded (R185, R189). -/
def execCmpeqi (e : Fin 16) (mode : Fin 3) (pd : PReg) (ra : WReg) (imm : BitVec 16) (s : State) : Res :=
  s.kolouxImm e (fun en => let a := en.rw ra; let b := immS imm; en.setP pd (cmpMode mode (en.rp pd) (a == b)))

/-- CMPNEI: ra against the signed immediate goes to pd under the mode; unguarded (R185, R189). -/
def execCmpnei (e : Fin 16) (mode : Fin 3) (pd : PReg) (ra : WReg) (imm : BitVec 16) (s : State) : Res :=
  s.kolouxImm e (fun en => let a := en.rw ra; let b := immS imm; en.setP pd (cmpMode mode (en.rp pd) (a != b)))

/-- CMPLTI: ra against the signed immediate goes to pd under the mode; unguarded (R185, R189). -/
def execCmplti (e : Fin 16) (mode : Fin 3) (pd : PReg) (ra : WReg) (imm : BitVec 16) (s : State) : Res :=
  s.kolouxImm e (fun en => let a := en.rw ra; let b := immS imm; en.setP pd (cmpMode mode (en.rp pd) (decide (a.toInt < b.toInt))))

/-- CMPGEI: ra against the signed immediate goes to pd under the mode; unguarded (R185, R189). -/
def execCmpgei (e : Fin 16) (mode : Fin 3) (pd : PReg) (ra : WReg) (imm : BitVec 16) (s : State) : Res :=
  s.kolouxImm e (fun en => let a := en.rw ra; let b := immS imm; en.setP pd (cmpMode mode (en.rp pd) (decide (b.toInt ≤ a.toInt))))

/-- CMPLTUI: ra against the unsigned immediate goes to pd under the mode; unguarded (R185, R189). -/
def execCmpltui (e : Fin 16) (mode : Fin 3) (pd : PReg) (ra : WReg) (imm : BitVec 16) (s : State) : Res :=
  s.kolouxImm e (fun en => let a := en.rw ra; let b := immU imm; en.setP pd (cmpMode mode (en.rp pd) (decide (a.toNat < b.toNat))))

/-- CMPGEUI: ra against the unsigned immediate goes to pd under the mode; unguarded (R185, R189). -/
def execCmpgeui (e : Fin 16) (mode : Fin 3) (pd : PReg) (ra : WReg) (imm : BitVec 16) (s : State) : Res :=
  s.kolouxImm e (fun en => let a := en.rw ra; let b := immU imm; en.setP pd (cmpMode mode (en.rp pd) (decide (b.toNat ≤ a.toNat))))

/-- PAND: pd = pa AND pb (R190). -/
def execPand (e : Fin 16) (g : Guard) (pd pa pb : PReg) (s : State) : Res :=
  s.kolouxReg e g (fun en => let a := en.rp pa; let b := en.rp pb; en.setP pd (a && b))

/-- POR: pd = pa OR pb (R190). -/
def execPor (e : Fin 16) (g : Guard) (pd pa pb : PReg) (s : State) : Res :=
  s.kolouxReg e g (fun en => let a := en.rp pa; let b := en.rp pb; en.setP pd (a || b))

/-- PXOR: pd = pa XOR pb (R190). -/
def execPxor (e : Fin 16) (g : Guard) (pd pa pb : PReg) (s : State) : Res :=
  s.kolouxReg e g (fun en => let a := en.rp pa; let b := en.rp pb; en.setP pd (a ^^ b))

/-- PANDN: pd = pa AND NOT pb (R190). -/
def execPandn (e : Fin 16) (g : Guard) (pd pa pb : PReg) (s : State) : Res :=
  s.kolouxReg e g (fun en => let a := en.rp pa; let b := en.rp pb; en.setP pd (a && !b))

/-- MFS: rd = SLOT, CKPT or ECAUSE (R182, R183, R190). -/
def execMfs (e : Fin 16) (g : Guard) (rd : WReg) (sel : Fin 3) (s : State) : Res :=
  s.kolouxReg e g (fun en => en.setW rd
    (if sel.val = 0 then BitVec.ofNat 64 en.slot else if sel.val = 1 then en.ckptWord else en.ecause))

/-- MFP: rd[7:0] = p7 to p0 with bit 0 always 1 (R190). -/
def execMfp (e : Fin 16) (g : Guard) (rd : WReg) (s : State) : Res :=
  s.kolouxReg e g (fun en => en.setW rd (BitVec.ofNat 64 (en.p % 256 ||| 1)))

/-- MTP: p1 to p7 = ra[7:1] (R190). -/
def execMtp (e : Fin 16) (g : Guard) (ra : WReg) (s : State) : Res :=
  s.kolouxReg e g (fun en => (fun (a : Nat) => ({ en with p := a % 256 ||| 1 } : EngSt)) (en.rw ra).toNat)

end Sys2Proof.Machine
end

