-- ==== Sys2Proof/Machine/KolouxLoad.lean ====
section
/-!
DEFINITION. Sys2Proof/Machine/KolouxLoad.lean: the loads of the Koloux engines (R159, R164, R166, R193, R194, R196, R458).
-/
namespace Sys2Proof.Machine
open Sys2Proof

/-- A load strikes a word of shared SRAM or of the DRAM window that fails its check (R196). -/
def State.poisoned (s : State) (a : Nat) : Bool :=
  if a < 0x500000 then s.sramBad.contains ((a - 0x100000) / 8) else s.poison.contains ((a - 0x100000000) / 8)

/-- The program slot of an engine may do what must not be speculative: it is the oldest uncommitted one and k ≤ r (R164). -/
def State.settledSlot (s : State) (en : EngSt) : Bool := en.oldest == en.slot && decide (en.slot ≤ s.now)

/-- A load from the hub register window: a word with an RC field, SYS_SNAP and the first word of a group under an armed latch wait
until the program slot is settled; a group latches whole; a load of any other word clears the latch. A load of a window data
word is speculative: it shows the word that the loads of its uncommitted program slots lead to (R159, R163, R164, R458). -/
def State.hubLoad (s : State) (en : EngSt) (rd a : Nat) : KRes :=
  let armed := en.snapArmed
  match en.snap.find? (fun c => c.1 == a) with
  | some c => .done s (en.setW rd c.2)
  | none =>
    let group := if armed then snapGroup a else none
    if (hasRc a || a == Reg.SYS_SNAP || group.isSome) && !s.settledSlot en then .stall s
    else if a = Reg.SYS_SNAP then .done s ({ en with snapArmed := true, snap := [] }.setW rd (BitVec.ofNat 64 s.now))
    else match group with
      | some l =>
        let r := s.snapWords progPort l
        .done r.2 ({ en with snapArmed := false, snap := l.zip r.1 }.setW rd (r.1.getD 0 0))
      | none =>
        let clear := { en with snapArmed := false, snap := [] }
        if readAdvances a then
          .done s ({ clear with reads := en.reads ++ [(en.slot, a)] }.setW rd ((s.afterReads en.reads).view progPort a))
        else
          let r := s.readWord progPort a
          .done r.2 (clear.setW rd r.1)

/-- Groups accepted in an earlier slot applied, up to n of them (R166). -/
def State.applyEarlier (s : State) : Nat → State
  | 0 => s
  | n + 1 =>
    match s.arb.accepted with
    | [] => s
    | g :: _ => if g.accSlot < s.now then s.applyGroup.applyEarlier n else s

/-- A load from an address past local data memory, at or after tick 128 of a slot, comes after every group accepted in an earlier
slot (R166). -/
def State.beforeLoad (s : State) (a : Nat) : State :=
  if 0x20000 ≤ a ∧ 128 ≤ s.clk.tick then s.applyEarlier s.arb.accepted.length else s

/-- A load of n bytes whose value is extended by `ext` (R166, R193, R194, R196). -/
def State.load (s : State) (e : Nat) (g : Guard) (rd ra : WReg) (off : BitVec 12) (n : Nat) (ext : Nat → W64) : Res :=
  let issued := (s.eng e).issues && (s.eng e).guardOk g
  (if issued then s.beforeLoad ((s.eng e).address ra off n) else s).koloux e g (fun s en =>
    let a := en.address ra off n
    match s.access a n with
    | .error x => .raise x
    | .ok .lmem => .done s (en.setW rd (ext (Memory.read en.lmem a n)))
    | .ok .hub => if n = 8 then s.hubLoad en rd (hubWord a) else .raise .hubregSize
    | .ok _ => if s.poisoned a then .raise .loadPoison else .done s (en.setW rd (ext (s.sharedLoad e a n))))

/-- A number of n bits as a word, sign-extended. -/
def extS (n v : Nat) : W64 := BitVec.ofInt 64 (signed n v)
/-- A number as a word, zero-extended. -/
def extU (v : Nat) : W64 := BitVec.ofNat 64 v

/-- LD (R193). -/
def execLd (e : Fin 16) (g : Guard) (rd ra : WReg) (off : BitVec 12) (s : State) : Res := s.load e g rd ra off 8 extU
/-- LW (R193). -/
def execLw (e : Fin 16) (g : Guard) (rd ra : WReg) (off : BitVec 12) (s : State) : Res := s.load e g rd ra off 4 (extS 32)
/-- LWU (R193). -/
def execLwu (e : Fin 16) (g : Guard) (rd ra : WReg) (off : BitVec 12) (s : State) : Res := s.load e g rd ra off 4 extU
/-- LH (R193). -/
def execLh (e : Fin 16) (g : Guard) (rd ra : WReg) (off : BitVec 12) (s : State) : Res := s.load e g rd ra off 2 (extS 16)
/-- LHU (R193). -/
def execLhu (e : Fin 16) (g : Guard) (rd ra : WReg) (off : BitVec 12) (s : State) : Res := s.load e g rd ra off 2 extU
/-- LB (R193). -/
def execLb (e : Fin 16) (g : Guard) (rd ra : WReg) (off : BitVec 12) (s : State) : Res := s.load e g rd ra off 1 (extS 8)
/-- LBU (R193). -/
def execLbu (e : Fin 16) (g : Guard) (rd ra : WReg) (off : BitVec 12) (s : State) : Res := s.load e g rd ra off 1 extU

end Sys2Proof.Machine
end

