-- ==== Sys2Proof/Machine/KolouxPacked.lean ====
section
/-!
DEFINITION. Sys2Proof/Machine/KolouxPacked.lean: packed arithmetic and the multiply-accumulate group of a Koloux
engine (R191, R192).
-/
namespace Sys2Proof.Machine
open Sys2Proof

/-- PADD: each lane of rd = a + b, wrapping (R191). -/
def execPadd (e : Fin 16) (g : Guard) (h4 : Bool) (rd ra rb : WReg) (s : State) : Res :=
  s.kolouxReg e g (fun en => en.setW rd (packS h4 (en.rw ra) (en.rw rb) (fun x y => x + y)))

/-- PSUB: each lane of rd = a − b, wrapping (R191). -/
def execPsub (e : Fin 16) (g : Guard) (h4 : Bool) (rd ra rb : WReg) (s : State) : Res :=
  s.kolouxReg e g (fun en => en.setW rd (packS h4 (en.rw ra) (en.rw rb) (fun x y => x - y)))

/-- PADDS: each lane of rd = a + b, saturated signed (R191). -/
def execPadds (e : Fin 16) (g : Guard) (h4 : Bool) (rd ra rb : WReg) (s : State) : Res :=
  s.kolouxReg e g (fun en => en.setW rd (packS h4 (en.rw ra) (en.rw rb) (fun x y => satS (laneWidth h4) (x + y))))

/-- PSUBS: each lane of rd = a − b, saturated signed (R191). -/
def execPsubs (e : Fin 16) (g : Guard) (h4 : Bool) (rd ra rb : WReg) (s : State) : Res :=
  s.kolouxReg e g (fun en => en.setW rd (packS h4 (en.rw ra) (en.rw rb) (fun x y => satS (laneWidth h4) (x - y))))

/-- PADDUS: each lane of rd = a + b, saturated unsigned (R191). -/
def execPaddus (e : Fin 16) (g : Guard) (h4 : Bool) (rd ra rb : WReg) (s : State) : Res :=
  s.kolouxReg e g (fun en => en.setW rd (packU h4 (en.rw ra) (en.rw rb) (fun x y => satU (laneWidth h4) (x + y))))

/-- PSUBUS: each lane of rd = a − b, saturated at 0 (R191). -/
def execPsubus (e : Fin 16) (g : Guard) (h4 : Bool) (rd ra rb : WReg) (s : State) : Res :=
  s.kolouxReg e g (fun en => en.setW rd (packU h4 (en.rw ra) (en.rw rb) (fun x y => satU (laneWidth h4) (x - y))))

/-- PMIN: each lane of rd = signed minimum (R191). -/
def execPmin (e : Fin 16) (g : Guard) (h4 : Bool) (rd ra rb : WReg) (s : State) : Res :=
  s.kolouxReg e g (fun en => en.setW rd (packS h4 (en.rw ra) (en.rw rb) (fun x y => if x ≤ y then x else y)))

/-- PMAX: each lane of rd = signed maximum (R191). -/
def execPmax (e : Fin 16) (g : Guard) (h4 : Bool) (rd ra rb : WReg) (s : State) : Res :=
  s.kolouxReg e g (fun en => en.setW rd (packS h4 (en.rw ra) (en.rw rb) (fun x y => if x ≤ y then y else x)))

/-- PMULL: each lane of rd = low lane-width bits of a × b (R191). -/
def execPmull (e : Fin 16) (g : Guard) (h4 : Bool) (rd ra rb : WReg) (s : State) : Res :=
  s.kolouxReg e g (fun en => en.setW rd (packS h4 (en.rw ra) (en.rw rb) (fun x y => x * y)))

/-- PMULHS: each lane of rd = high lane-width bits of the signed product (R191). -/
def execPmulhs (e : Fin 16) (g : Guard) (h4 : Bool) (rd ra rb : WReg) (s : State) : Res :=
  s.kolouxReg e g (fun en => en.setW rd (packS h4 (en.rw ra) (en.rw rb) (fun x y => Int.fdiv (x * y) ((2 : Int) ^ laneWidth h4))))

/-- PABS: each lane of rd = |a|, the most negative value giving the most positive (R191). -/
def execPabs (e : Fin 16) (g : Guard) (h4 : Bool) (rd ra : WReg) (s : State) : Res :=
  s.kolouxReg e g (fun en => en.setW rd (lanes h4 (fun i => satS (laneWidth h4) (laneS h4 (en.rw ra) i).natAbs)))

/-- PSHL: each lane of rd = a shifted left by rb[5:0]; a count of at least the lane width gives 0 (R191). -/
def execPshl (e : Fin 16) (g : Guard) (h4 : Bool) (rd ra rb : WReg) (s : State) : Res :=
  s.kolouxReg e g (fun en => en.setW rd (lanes h4 (fun i => laneU h4 (en.rw ra) i * (2 ^ shCount (en.rw rb) : Nat))))

/-- PSAR: each lane of rd = a shifted right by rb[5:0], sign fill; a count of at least the lane width gives 0 or −1
(R191). -/
def execPsar (e : Fin 16) (g : Guard) (h4 : Bool) (rd ra rb : WReg) (s : State) : Res :=
  s.kolouxReg e g (fun en => en.setW rd (lanes h4 (fun i => floorDiv (laneS h4 (en.rw ra) i) (2 ^ shCount (en.rw rb)))))

/-- PSHR: each lane of rd = a shifted right by rb[5:0], zero fill (R191). -/
def execPshr (e : Fin 16) (g : Guard) (h4 : Bool) (rd ra rb : WReg) (s : State) : Res :=
  s.kolouxReg e g (fun en => en.setW rd (lanes h4 (fun i => (laneU h4 (en.rw ra) i >>> shCount (en.rw rb) : Nat))))

/-- MAC: ad gains signed ra × signed rb, modulo 2^128 (R192). -/
def execMac (e : Fin 16) (g : Guard) (ad : AReg) (ra rb : WReg) (s : State) : Res :=
  s.kolouxReg e g (fun en => let a := en.rw ra; let b := en.rw rb; en.setA ad (accAdd (en.ra ad) (a.toInt * b.toInt)))

/-- MACU: ad gains unsigned ra × unsigned rb, modulo 2^128 (R192). -/
def execMacu (e : Fin 16) (g : Guard) (ad : AReg) (ra rb : WReg) (s : State) : Res :=
  s.kolouxReg e g (fun en => let a := en.rw ra; let b := en.rw rb; en.setA ad (accAdd (en.ra ad) ((a.toNat * b.toNat : Nat))))

/-- MSB: ad gains minus signed ra × signed rb, modulo 2^128 (R192). -/
def execMsb (e : Fin 16) (g : Guard) (ad : AReg) (ra rb : WReg) (s : State) : Res :=
  s.kolouxReg e g (fun en => let a := en.rw ra; let b := en.rw rb; en.setA ad (accAdd (en.ra ad) (-(a.toInt * b.toInt))))

/-- MAC_W2: ad gains the sum over 2 lanes of signed 32 × 32 products, modulo 2^128 (R192). -/
def execMacW2 (e : Fin 16) (g : Guard) (ad : AReg) (ra rb : WReg) (s : State) : Res :=
  s.kolouxReg e g (fun en => let a := en.rw ra; let b := en.rw rb; en.setA ad (accAdd (en.ra ad) (laneDot false a b)))

/-- MAC_H4: ad gains the sum over 4 lanes of signed 16 × 16 products, modulo 2^128 (R192). -/
def execMacH4 (e : Fin 16) (g : Guard) (ad : AReg) (ra rb : WReg) (s : State) : Res :=
  s.kolouxReg e g (fun en => let a := en.rw ra; let b := en.rw rb; en.setA ad (accAdd (en.ra ad) (laneDot true a b)))

/-- ACLR: ad = 0 (R192). -/
def execAclr (e : Fin 16) (g : Guard) (ad : AReg) (s : State) : Res := s.kolouxReg e g (fun en => en.setA ad 0)

/-- MVA: rd = the accumulator over 2^rb[6:0], rounded to nearest with ties to even and saturated (R192). -/
def execMva (e : Fin 16) (g : Guard) (rd : WReg) (as_ : AReg) (rb : WReg) (s : State) : Res :=
  s.kolouxReg e g (fun en => en.setW rd (mvaWord (en.ra as_) ((en.rw rb).toNat % 128)))

/-- MVAH: rd = as[127:64] (R192). -/
def execMvah (e : Fin 16) (g : Guard) (rd : WReg) (as_ : AReg) (s : State) : Res :=
  s.kolouxReg e g (fun en => en.setW rd ((en.ra as_).extractLsb' 64 64))

/-- MVAL: rd = as[63:0] (R192). -/
def execMval (e : Fin 16) (g : Guard) (rd : WReg) (as_ : AReg) (s : State) : Res :=
  s.kolouxReg e g (fun en => en.setW rd ((en.ra as_).extractLsb' 0 64))

/-- MTAH: ad[127:64] = ra (R192). -/
def execMtah (e : Fin 16) (g : Guard) (ad : AReg) (ra : WReg) (s : State) : Res :=
  s.kolouxReg e g (fun en => en.setA ad (en.rw ra ++ (en.ra ad).extractLsb' 0 64))

/-- MTAL: ad[63:0] = ra (R192). -/
def execMtal (e : Fin 16) (g : Guard) (ad : AReg) (ra : WReg) (s : State) : Res :=
  s.kolouxReg e g (fun en => en.setA ad ((en.ra ad).extractLsb' 64 64 ++ en.rw ra))

end Sys2Proof.Machine
end

