-- ==== Sys2Proof/Machine/SlotBoundary.lean ====
section
/-!
DEFINITION. Sys2Proof/Machine/SlotBoundary.lean: the slot boundary: the edge is placed on the sampling time base, RWS writes and
what waits for the boundary take effect (R7, R19, R28, R453). The changes that name a slot (a mode transition, an overlay, a
coefficient swap, a grid restart, a time command, the end of a Traverse load) are commands of their own, to be sent in the slot
that the boundary opens (log entry 48).
-/
namespace Sys2Proof.Machine
open Sys2Proof

/-- The earliest instant in TDC bins whose slot a trigger unit or the time-interval unit may still ask for (R214, R225, R240). -/
def State.oldestBins (s : State) : Nat :=
  let units := (List.range 8).filterMap (fun u =>
    let x := s.unit u
    let st := s.trgState u
    let i := s.trgDesc u
    if st = 0 ∨ i = 255 then none
    else if st ≤ 2 then some ((x.first + (x.nFrames - s.descPre i)) * 2048)
    else some ((x.first + x.kept + x.spilled) * 2048))
  let began := match s.tiv.start with
    | some e => [e.2]
    | none => []
  (units ++ began).foldl Nat.min s.binsNow

/-- The slot number in progress counts as used while the hub acquires (R250). -/
def State.useSlot (s : State) : State :=
  if s.acquiring then { s with pps := { s.pps with highest := Nat.max s.pps.highest s.now } } else s

/-- Whether the sampling time base counts as locked at this hold instant, recorded where it changes (R252). -/
def State.recordLock (s : State) : State :=
  let was := match s.fabric.locks with
    | e :: _ => e.2
    | [] => false
  if was = s.sampLocked then s
  else { s with fabric := { s.fabric with locks := (s.now, s.sampLocked) :: s.fabric.locks } }

/-- A PTP port on a lane that is UP goes from INITIALIZING to LISTENING, from which its announce receipt timeout runs (R260, R284). -/
def State.portsListen (s : State) : State :=
  (List.range 16).foldl (fun t k =>
    if t.isPort (k / 4) (k % 4) = true ∧ t.pstate (k / 4) (k % 4) = 1 ∧ t.getF (Reg.LANE_STAT_STATE (k % 4)) = 4 then
      (t.setPtp (k / 4) (k % 4) { t.ptp (k / 4) (k % 4) with heard := t.clk.uptime }).setPstate (k / 4) (k % 4) 4
    else t) s

/-- A draining unit whose spill stream has stopped closes its record cut (R232). -/
def State.spillStops (s : State) : State :=
  (List.range 8).foldl (fun t u =>
    let i := t.trgDesc u
    if t.trgState u = 4 ∧ t.descSpill i = true ∧ (t.strmSt (t.descStream i)).on = false then t.endSpill u true else t) s

/-- The partner as heard up to the slot that ends: PARTNER shows a valid STATE frame in the last two slots, a slot without one is
counted; readiness is judged anew (R387, R388). -/
def State.pairSlot (s : State) : State :=
  let within (k : Nat) : Bool := match s.pair.heardAt with
    | some h => decide (s.now ≤ h + k)
    | none => false
  let s1 := if !s.pairOn || within 1 then s else s.bump Reg.PAIR_CNT_FRAME_LOST
  let s2 := s1.setF Reg.PAIR_STAT_PARTNER (b2n (within 2))
  if s.pairOn || s.pairReady then s2.refreshReady else s2

/-- The predictions of every bank are frozen for the slot that begins, with the policies in force before the boundary (R103, R109). -/
def State.freezeAll (s : State) : State := (List.range 24).foldl (fun t b => t.freeze s.now b) s

/-- The blocks whose written settings take effect at the boundary (R7, R306, R453): time base sources, streams and queues, the
settings of the channels with the fractional delays logged (R135). -/
def State.takeEffect (s : State) : State :=
  let s1 := [0, 1, 2, 3].foldl (fun t k => t.tbSrcBoundary k) s.settleRws
  (s1.streamsBoundary.spillStops).newSettings s s.now

/-- What each block does at a boundary of its own (R37, R57, R121, R234, R412). -/
def State.blocksBoundary (s : State) : State :=
  ((((s.tivSlotStamps.fastOverrange).accStep).stopExcitation).nextAuto.portsListen).pairSlot

/-- SLOT_BOUNDARY: what was accepted for the slot that ends is applied; the edge of the next slot is placed on the sampling time base
with its correction and delay-line step, its hold instant is recorded, predictions are frozen, RWS writes take effect
(R19, R66, R109, R166, R453). In Bivouac, where no time base runs, an uncorrected slot passes. -/
def execSlotBoundary (s : State) : Res :=
  if s.mode.phase = .held ∨ s.mode.phase = .straps then .next s
  else if s.cur = 0 then
    let s1 := s.advance (12800 - s.clk.tick)
    .next (({ s1 with clk := { s1.clk with slot := s.clk.slot + 1, tick := 0, edges := s.clk.edges + 1 } } : State).settleRws)
  else
    let s1 := s.applyDue s.arb.accepted.length
    let s2 := s1.placeEdge (s1.now + 1)
    .next ((((s2.recordHold s2.oldestBins).useSlot.recordLock).freezeAll).takeEffect.blocksBoundary)

end Sys2Proof.Machine
end

