-- ==== Sys2Proof/Machine/Dispatch.lean ====
section
/-!
DEFINITION. Sys2Proof/Machine/Dispatch.lean: one arm per command. Each arm is one call of the command's meaning.
-/
namespace Sys2Proof.Machine
open Sys2Proof

def exec (i : Instr) (s : State) : Host.Outcome State Fault Refusal :=
  match i with
  | .startUp straps railsOk => Sys2Proof.Machine.execStartUp straps railsOk s
  | .rootPllLock => Sys2Proof.Machine.execRootPllLock s
  | .loaderDecision => Sys2Proof.Machine.execLoaderDecision s
  | .configLoad => Sys2Proof.Machine.execConfigLoad s
  | .dramTraining => Sys2Proof.Machine.execDramTraining s
  | .programLoad => Sys2Proof.Machine.execProgramLoad s
  | .tsetWaitExpiry => Sys2Proof.Machine.execTsetWaitExpiry s
  | .reset => Sys2Proof.Machine.execReset s
  | .supplyMonitorFault rail => Sys2Proof.Machine.execSupplyMonitorFault rail s
  | .rootPllUnlock => Sys2Proof.Machine.execRootPllUnlock s
  | .serviceWatchdog => Sys2Proof.Machine.execServiceWatchdog s
  | .tapInstructionLoad op => Sys2Proof.Machine.execTapInstructionLoad op s
  | .slotBoundary => Sys2Proof.Machine.execSlotBoundary s
  | .timeBaseTick => Sys2Proof.Machine.execTimeBaseTick s
  | .rescueArbitration b clip warn => Sys2Proof.Machine.execRescueArbitration b clip warn s
  | .conversionCycle b cycle c0 c1 c2 c3 => Sys2Proof.Machine.execConversionCycle b cycle c0 c1 c2 c3 s
  | .rawValueToPipeline p inputClip => Sys2Proof.Machine.execRawValueToPipeline p inputClip s
  | .outputWordReady c => Sys2Proof.Machine.execOutputWordReady c s
  | .fastConverterSample codes => Sys2Proof.Machine.execFastConverterSample codes s
  | .offsetTrackUpdate b => Sys2Proof.Machine.execOffsetTrackUpdate b s
  | .convStarved b slice => Sys2Proof.Machine.execConvStarved b slice s
  | .referenceSettled b => Sys2Proof.Machine.execReferenceSettled b s
  | .refSettleLate b => Sys2Proof.Machine.execRefSettleLate b s
  | .refUnstable b => Sys2Proof.Machine.execRefUnstable b s
  | .refFallback b => Sys2Proof.Machine.execRefFallback b s
  | .crosspointSwitch b => Sys2Proof.Machine.execCrosspointSwitch b s
  | .carrierZeroCrossing b => Sys2Proof.Machine.execCarrierZeroCrossing b s
  | .excitationRampEnd c => Sys2Proof.Machine.execExcitationRampEnd c s
  | .supervisorEvaluation c energy square vEnd limiter => Sys2Proof.Machine.execSupervisorEvaluation c energy square vEnd limiter s
  | .exShort c => Sys2Proof.Machine.execExShort c s
  | .excitationRetry c => Sys2Proof.Machine.execExcitationRetry c s
  | .tripRunEnd c => Sys2Proof.Machine.execTripRunEnd c s
  | .latchClear port c => Sys2Proof.Machine.execLatchClear port c s
  | .grefLearned c => Sys2Proof.Machine.execGrefLearned c s
  | .wbExcOpen c => Sys2Proof.Machine.execWbExcOpen c s
  | .wbSenseOpen c => Sys2Proof.Machine.execWbSenseOpen c s
  | .wbRestored c lead => Sys2Proof.Machine.execWbRestored c lead s
  | .bankFactorUpdate b measured => Sys2Proof.Machine.execBankFactorUpdate b measured s
  | .modeRequest port at_ target => Sys2Proof.Machine.execModeRequest port at_ target s
  | .modeCancel port => Sys2Proof.Machine.execModeCancel port s
  | .modeTransition => Sys2Proof.Machine.execModeTransition s
  | .calAccDone => Sys2Proof.Machine.execCalAccDone s
  | .drainEnd => Sys2Proof.Machine.execDrainEnd s
  | .timeMark => Sys2Proof.Machine.execTimeMark s
  | .overlayRequest port at_ ovl => Sys2Proof.Machine.execOverlayRequest port at_ ovl s
  | .overlayActivation => Sys2Proof.Machine.execOverlayActivation s
  | .configBeacon => Sys2Proof.Machine.execConfigBeacon s
  | .tlvReceived sender digest epoch group => Sys2Proof.Machine.execTlvReceived sender digest epoch group s
  | .epochMismatchClear => Sys2Proof.Machine.execEpochMismatchClear s
  | .syncNEdge => Sys2Proof.Machine.execSyncNEdge s
  | .gridRestart => Sys2Proof.Machine.execGridRestart s
  | .coefDataAccess port write => Sys2Proof.Machine.execCoefDataAccess port write s
  | .coefCommit port ptr => Sys2Proof.Machine.execCoefCommit port ptr s
  | .swapRequest port at_ banks => Sys2Proof.Machine.execSwapRequest port at_ banks s
  | .coefficientSwap => Sys2Proof.Machine.execCoefficientSwap s
  | .programSlotCommit e => Sys2Proof.Machine.execProgramSlotCommit e s
  | .commitGroupAccept => Sys2Proof.Machine.execCommitGroupAccept s
  | .commitGroupApply => Sys2Proof.Machine.execCommitGroupApply s
  | .squash e => Sys2Proof.Machine.execSquash e s
  | .redirect e => Sys2Proof.Machine.execRedirect e s
  | .exceptionEntry e => Sys2Proof.Machine.execExceptionEntry e s
  | .engFault e cause => Sys2Proof.Machine.execEngFault e cause s
  | .engWatchdog e => Sys2Proof.Machine.execEngWatchdog e s
  | .spareTakeover e => Sys2Proof.Machine.execSpareTakeover e s
  | .spareResume e copyError => Sys2Proof.Machine.execSpareResume e copyError s
  | .engLate e => Sys2Proof.Machine.execEngLate e s
  | .add e g rd ra rb => Sys2Proof.Machine.execAdd e g rd ra rb s
  | .sub e g rd ra rb => Sys2Proof.Machine.execSub e g rd ra rb s
  | .and_ e g rd ra rb => Sys2Proof.Machine.execAnd e g rd ra rb s
  | .or_ e g rd ra rb => Sys2Proof.Machine.execOr e g rd ra rb s
  | .xor e g rd ra rb => Sys2Proof.Machine.execXor e g rd ra rb s
  | .andn e g rd ra rb => Sys2Proof.Machine.execAndn e g rd ra rb s
  | .shl e g rd ra rb => Sys2Proof.Machine.execShl e g rd ra rb s
  | .shr e g rd ra rb => Sys2Proof.Machine.execShr e g rd ra rb s
  | .sar e g rd ra rb => Sys2Proof.Machine.execSar e g rd ra rb s
  | .ror e g rd ra rb => Sys2Proof.Machine.execRor e g rd ra rb s
  | .min_ e g rd ra rb => Sys2Proof.Machine.execMin e g rd ra rb s
  | .max_ e g rd ra rb => Sys2Proof.Machine.execMax e g rd ra rb s
  | .minu e g rd ra rb => Sys2Proof.Machine.execMinu e g rd ra rb s
  | .maxu e g rd ra rb => Sys2Proof.Machine.execMaxu e g rd ra rb s
  | .abs_ e g rd ra => Sys2Proof.Machine.execAbs e g rd ra s
  | .adds e g rd ra rb => Sys2Proof.Machine.execAdds e g rd ra rb s
  | .subs e g rd ra rb => Sys2Proof.Machine.execSubs e g rd ra rb s
  | .clz e g rd ra => Sys2Proof.Machine.execClz e g rd ra s
  | .popc e g rd ra => Sys2Proof.Machine.execPopc e g rd ra s
  | .mul e g rd ra rb => Sys2Proof.Machine.execMul e g rd ra rb s
  | .mulhs e g rd ra rb => Sys2Proof.Machine.execMulhs e g rd ra rb s
  | .mulhu e g rd ra rb => Sys2Proof.Machine.execMulhu e g rd ra rb s
  | .padd e g h4 rd ra rb => Sys2Proof.Machine.execPadd e g h4 rd ra rb s
  | .psub e g h4 rd ra rb => Sys2Proof.Machine.execPsub e g h4 rd ra rb s
  | .padds e g h4 rd ra rb => Sys2Proof.Machine.execPadds e g h4 rd ra rb s
  | .psubs e g h4 rd ra rb => Sys2Proof.Machine.execPsubs e g h4 rd ra rb s
  | .paddus e g h4 rd ra rb => Sys2Proof.Machine.execPaddus e g h4 rd ra rb s
  | .psubus e g h4 rd ra rb => Sys2Proof.Machine.execPsubus e g h4 rd ra rb s
  | .pmin e g h4 rd ra rb => Sys2Proof.Machine.execPmin e g h4 rd ra rb s
  | .pmax e g h4 rd ra rb => Sys2Proof.Machine.execPmax e g h4 rd ra rb s
  | .pabs e g h4 rd ra => Sys2Proof.Machine.execPabs e g h4 rd ra s
  | .pshl e g h4 rd ra rb => Sys2Proof.Machine.execPshl e g h4 rd ra rb s
  | .psar e g h4 rd ra rb => Sys2Proof.Machine.execPsar e g h4 rd ra rb s
  | .pshr e g h4 rd ra rb => Sys2Proof.Machine.execPshr e g h4 rd ra rb s
  | .pmull e g h4 rd ra rb => Sys2Proof.Machine.execPmull e g h4 rd ra rb s
  | .pmulhs e g h4 rd ra rb => Sys2Proof.Machine.execPmulhs e g h4 rd ra rb s
  | .cmpeq e g mode pd ra rb => Sys2Proof.Machine.execCmpeq e g mode pd ra rb s
  | .cmpne e g mode pd ra rb => Sys2Proof.Machine.execCmpne e g mode pd ra rb s
  | .cmplt e g mode pd ra rb => Sys2Proof.Machine.execCmplt e g mode pd ra rb s
  | .cmpge e g mode pd ra rb => Sys2Proof.Machine.execCmpge e g mode pd ra rb s
  | .cmpltu e g mode pd ra rb => Sys2Proof.Machine.execCmpltu e g mode pd ra rb s
  | .cmpgeu e g mode pd ra rb => Sys2Proof.Machine.execCmpgeu e g mode pd ra rb s
  | .cmptst e g mode pd ra rb => Sys2Proof.Machine.execCmptst e g mode pd ra rb s
  | .cmpeqi e mode pd ra imm => Sys2Proof.Machine.execCmpeqi e mode pd ra imm s
  | .cmpnei e mode pd ra imm => Sys2Proof.Machine.execCmpnei e mode pd ra imm s
  | .cmplti e mode pd ra imm => Sys2Proof.Machine.execCmplti e mode pd ra imm s
  | .cmpgei e mode pd ra imm => Sys2Proof.Machine.execCmpgei e mode pd ra imm s
  | .cmpltui e mode pd ra imm => Sys2Proof.Machine.execCmpltui e mode pd ra imm s
  | .cmpgeui e mode pd ra imm => Sys2Proof.Machine.execCmpgeui e mode pd ra imm s
  | .addi e rd ra imm => Sys2Proof.Machine.execAddi e rd ra imm s
  | .andi e rd ra imm => Sys2Proof.Machine.execAndi e rd ra imm s
  | .ori e rd ra imm => Sys2Proof.Machine.execOri e rd ra imm s
  | .xori e rd ra imm => Sys2Proof.Machine.execXori e rd ra imm s
  | .shli e rd ra sh => Sys2Proof.Machine.execShli e rd ra sh s
  | .shri e rd ra sh => Sys2Proof.Machine.execShri e rd ra sh s
  | .sari e rd ra sh => Sys2Proof.Machine.execSari e rd ra sh s
  | .li e rd imm => Sys2Proof.Machine.execLi e rd imm s
  | .cati e rd ra imm => Sys2Proof.Machine.execCati e rd ra imm s
  | .mfs e g rd sel => Sys2Proof.Machine.execMfs e g rd sel s
  | .pand e g pd pa pb => Sys2Proof.Machine.execPand e g pd pa pb s
  | .por e g pd pa pb => Sys2Proof.Machine.execPor e g pd pa pb s
  | .pxor e g pd pa pb => Sys2Proof.Machine.execPxor e g pd pa pb s
  | .pandn e g pd pa pb => Sys2Proof.Machine.execPandn e g pd pa pb s
  | .mfp e g rd => Sys2Proof.Machine.execMfp e g rd s
  | .mtp e g ra => Sys2Proof.Machine.execMtp e g ra s
  | .mac e g ad ra rb => Sys2Proof.Machine.execMac e g ad ra rb s
  | .macu e g ad ra rb => Sys2Proof.Machine.execMacu e g ad ra rb s
  | .msb e g ad ra rb => Sys2Proof.Machine.execMsb e g ad ra rb s
  | .macW2 e g ad ra rb => Sys2Proof.Machine.execMacW2 e g ad ra rb s
  | .macH4 e g ad ra rb => Sys2Proof.Machine.execMacH4 e g ad ra rb s
  | .aclr e g ad => Sys2Proof.Machine.execAclr e g ad s
  | .mva e g rd as_ rb => Sys2Proof.Machine.execMva e g rd as_ rb s
  | .mvah e g rd as_ => Sys2Proof.Machine.execMvah e g rd as_ s
  | .mval e g rd as_ => Sys2Proof.Machine.execMval e g rd as_ s
  | .mtah e g ad ra => Sys2Proof.Machine.execMtah e g ad ra s
  | .mtal e g ad ra => Sys2Proof.Machine.execMtal e g ad ra s
  | .ld e g rd ra off => Sys2Proof.Machine.execLd e g rd ra off s
  | .lw e g rd ra off => Sys2Proof.Machine.execLw e g rd ra off s
  | .lwu e g rd ra off => Sys2Proof.Machine.execLwu e g rd ra off s
  | .lh e g rd ra off => Sys2Proof.Machine.execLh e g rd ra off s
  | .lhu e g rd ra off => Sys2Proof.Machine.execLhu e g rd ra off s
  | .lb e g rd ra off => Sys2Proof.Machine.execLb e g rd ra off s
  | .lbu e g rd ra off => Sys2Proof.Machine.execLbu e g rd ra off s
  | .st e g rd ra off => Sys2Proof.Machine.execSt e g rd ra off s
  | .sw e g rd ra off => Sys2Proof.Machine.execSw e g rd ra off s
  | .sh e g rd ra off => Sys2Proof.Machine.execSh e g rd ra off s
  | .sb e g rd ra off => Sys2Proof.Machine.execSb e g rd ra off s
  | .aadd e g rd ra off => Sys2Proof.Machine.execAadd e g rd ra off s
  | .br e pc pn disp => Sys2Proof.Machine.execBr e pc pn disp s
  | .bl e pc pn disp => Sys2Proof.Machine.execBl e pc pn disp s
  | .jr e g ra => Sys2Proof.Machine.execJr e g ra s
  | .jrl e g rd ra => Sys2Proof.Machine.execJrl e g rd ra s
  | .waitslot e g ra => Sys2Proof.Machine.execWaitslot e g ra s
  | .fetch e g rd ra rb kind => Sys2Proof.Machine.execFetch e g rd ra rb kind s
  | .convset e g ra rb => Sys2Proof.Machine.execConvset e g ra rb s
  | .emit e g ra rb n => Sys2Proof.Machine.execEmit e g ra rb n s
  | .event e g ra rb notify => Sys2Proof.Machine.execEvent e g ra rb notify s
  | .trigarm e g ra rb => Sys2Proof.Machine.execTrigarm e g ra rb s
  | .tbread e g rd ra field => Sys2Proof.Machine.execTbread e g rd ra field s
  | .ckpt e g => Sys2Proof.Machine.execCkpt e g s
  | .squashed e g pd => Sys2Proof.Machine.execSquashed e g pd s
  | .crossing k cmp rising stamp => Sys2Proof.Machine.execCrossing k cmp rising stamp s
  | .triggerQualified u => Sys2Proof.Machine.execTriggerQualified u s
  | .triggerTimeout u => Sys2Proof.Machine.execTriggerTimeout u s
  | .triggerStampWrite u => Sys2Proof.Machine.execTriggerStampWrite u s
  | .triggerArm port u desc => Sys2Proof.Machine.execTriggerArm port u desc s
  | .triggerDisarm port u => Sys2Proof.Machine.execTriggerDisarm port u s
  | .prefillComplete u => Sys2Proof.Machine.execPrefillComplete u s
  | .recordPostComplete u => Sys2Proof.Machine.execRecordPostComplete u s
  | .recordClose u => Sys2Proof.Machine.execRecordClose u s
  | .rearm u => Sys2Proof.Machine.execRearm u s
  | .missPop port => Sys2Proof.Machine.execMissPop port s
  | .spillPacket u => Sys2Proof.Machine.execSpillPacket u s
  | .descDataAccess port write => Sys2Proof.Machine.execDescDataAccess port write s
  | .captureCopy port len => Sys2Proof.Machine.execCaptureCopy port len s
  | .captureCopyDone failing => Sys2Proof.Machine.execCaptureCopyDone failing s
  | .tivArm port => Sys2Proof.Machine.execTivArm port s
  | .tivAbort port => Sys2Proof.Machine.execTivAbort port s
  | .fstart port => Sys2Proof.Machine.execFstart port s
  | .fstop port => Sys2Proof.Machine.execFstop port s
  | .tivPinEdge pin rising stamp => Sys2Proof.Machine.execTivPinEdge pin rising stamp s
  | .tivStampOrdered => Sys2Proof.Machine.execTivStampOrdered s
  | .tivTimeout => Sys2Proof.Machine.execTivTimeout s
  | .tivNoSignal => Sys2Proof.Machine.execTivNoSignal s
  | .ageingUpdate => Sys2Proof.Machine.execAgeingUpdate s
  | .ageMeasUpdate => Sys2Proof.Machine.execAgeMeasUpdate s
  | .ref10Lock loopTerm => Sys2Proof.Machine.execRef10Lock loopTerm s
  | .ref10Freeze loopTerm => Sys2Proof.Machine.execRef10Freeze loopTerm s
  | .sync t l m => Sys2Proof.Machine.execSync t l m s
  | .followUp t l m => Sys2Proof.Machine.execFollowUp t l m s
  | .delayReq t l m => Sys2Proof.Machine.execDelayReq t l m s
  | .delayResp t l m => Sys2Proof.Machine.execDelayResp t l m s
  | .pdelayReq t l m => Sys2Proof.Machine.execPdelayReq t l m s
  | .pdelayResp t l m => Sys2Proof.Machine.execPdelayResp t l m s
  | .pdelayRespFollowUp t l m => Sys2Proof.Machine.execPdelayRespFollowUp t l m s
  | .announce t l a => Sys2Proof.Machine.execAnnounce t l a s
  | .ptpDrop t => Sys2Proof.Machine.execPtpDrop t s
  | .syncInterval t l => Sys2Proof.Machine.execSyncInterval t l s
  | .announceInterval t l => Sys2Proof.Machine.execAnnounceInterval t l s
  | .delayReqInterval t l => Sys2Proof.Machine.execDelayReqInterval t l s
  | .announceReceiptTimeout t l => Sys2Proof.Machine.execAnnounceReceiptTimeout t l s
  | .sourceLost t => Sys2Proof.Machine.execSourceLost t s
  | .externalOffset port t theta => Sys2Proof.Machine.execExternalOffset port t theta s
  | .set port t => Sys2Proof.Machine.execSet port t s
  | .step port t => Sys2Proof.Machine.execStep port t s
  | .slew port t => Sys2Proof.Machine.execSlew port t s
  | .acceptStep port t => Sys2Proof.Machine.execAcceptStep port t s
  | .acceptSlew port t => Sys2Proof.Machine.execAcceptSlew port t s
  | .timeCommandEffect t => Sys2Proof.Machine.execTimeCommandEffect t s
  | .slewComplete t => Sys2Proof.Machine.execSlewComplete t s
  | .sampleTbWrite port value => Sys2Proof.Machine.execSampleTbWrite port value s
  | .alarmArm port a value => Sys2Proof.Machine.execAlarmArm port a value s
  | .alarmFire a => Sys2Proof.Machine.execAlarmFire a s
  | .ppsOutPulse => Sys2Proof.Machine.execPpsOutPulse s
  | .ppsInEdge stamp => Sys2Proof.Machine.execPpsInEdge stamp s
  | .capabilitySet l octets => Sys2Proof.Machine.execCapabilitySet l octets s
  | .cl37Autonegotiation l => Sys2Proof.Machine.execCl37Autonegotiation l s
  | .idleTimeout l => Sys2Proof.Machine.execIdleTimeout l s
  | .exchangeRetry l => Sys2Proof.Machine.execExchangeRetry l s
  | .trainingStart l => Sys2Proof.Machine.execTrainingStart l s
  | .trainingDeadline l => Sys2Proof.Machine.execTrainingDeadline l s
  | .laneUp l => Sys2Proof.Machine.execLaneUp l s
  | .laneDown l cause => Sys2Proof.Machine.execLaneDown l cause s
  | .rateBarExpiry l rate => Sys2Proof.Machine.execRateBarExpiry l rate s
  | .rateBarClear port l bits => Sys2Proof.Machine.execRateBarClear port l bits s
  | .laneFailover group => Sys2Proof.Machine.execLaneFailover group s
  | .heldWordsRelease q => Sys2Proof.Machine.execHeldWordsRelease q s
  | .makeActive port l => Sys2Proof.Machine.execMakeActive port l s
  | .laneTest port l value => Sys2Proof.Machine.execLaneTest port l value s
  | .laneTestEnd port l => Sys2Proof.Machine.execLaneTestEnd port l s
  | .prbsLock l errors bits => Sys2Proof.Machine.execPrbsLock l errors bits s
  | .prbsLocklost l errors bits span => Sys2Proof.Machine.execPrbsLocklost l errors bits span s
  | .laneDisable port l => Sys2Proof.Machine.execLaneDisable port l s
  | .frameReceived l f rx => Sys2Proof.Machine.execFrameReceived l f rx s
  | .frameTransmit p badWords tx => Sys2Proof.Machine.execFrameTransmit p badWords tx s
  | .fdbAgeOut mac vid => Sys2Proof.Machine.execFdbAgeOut mac vid s
  | .tcNomatch => Sys2Proof.Machine.execTcNomatch s
  | .loopBlockClear port p => Sys2Proof.Machine.execLoopBlockClear port p s
  | .streamEnable port st value => Sys2Proof.Machine.execStreamEnable port st value s
  | .streamDisable port st => Sys2Proof.Machine.execStreamDisable port st s
  | .streamDataAccess port write => Sys2Proof.Machine.execStreamDataAccess port write s
  | .queueFlush port q => Sys2Proof.Machine.execQueueFlush port q s
  | .queueDisable port q => Sys2Proof.Machine.execQueueDisable port q s
  | .blockCode st chan selfCheckFailures => Sys2Proof.Machine.execBlockCode st chan selfCheckFailures s
  | .replay l h w1 w2 w3 => Sys2Proof.Machine.execReplay l h w1 w2 w3 s
  | .replayAbort l h tag => Sys2Proof.Machine.execReplayAbort l h tag s
  | .replayPacket l tag => Sys2Proof.Machine.execReplayPacket l tag s
  | .replayStatusPacket l tag => Sys2Proof.Machine.execReplayStatusPacket l tag s
  | .decode l h ratio block => Sys2Proof.Machine.execDecode l h ratio block s
  | .peerPacket l smac dmac words => Sys2Proof.Machine.execPeerPacket l smac dmac words s
  | .read l h w1 => Sys2Proof.Machine.execRead l h w1 s
  | .write l h w1 values => Sys2Proof.Machine.execWrite l h w1 values s
  | .snapshot l h w1 => Sys2Proof.Machine.execSnapshot l h w1 s
  | .mwrite l h words => Sys2Proof.Machine.execMwrite l h words s
  | .capRead l h w1 w2 => Sys2Proof.Machine.execCapRead l h w1 w2 s
  | .cfgBegin l h => Sys2Proof.Machine.execCfgBegin l h s
  | .cfgWrite l h offset words => Sys2Proof.Machine.execCfgWrite l h offset words s
  | .cfgCommit l h => Sys2Proof.Machine.execCfgCommit l h s
  | .cfgLoad l h => Sys2Proof.Machine.execCfgLoad l h s
  | .programCommand l h op words => Sys2Proof.Machine.execProgramCommand l h op words s
  | .illegalCommand l h op => Sys2Proof.Machine.execIllegalCommand l h op s
  | .noprog l slot => Sys2Proof.Machine.execNoprog l slot s
  | .response l => Sys2Proof.Machine.execResponse l s
  | .responseDiscard l => Sys2Proof.Machine.execResponseDiscard l s
  | .notice l => Sys2Proof.Machine.execNotice l s
  | .authWrite port value => Sys2Proof.Machine.execAuthWrite port value s
  | .lockWrite port value => Sys2Proof.Machine.execLockWrite port value s
  | .registerWrite port addr value => Sys2Proof.Machine.execRegisterWrite port addr value s
  | .spStatus edges => Sys2Proof.Machine.execSpStatus edges s
  | .spRead addr words cut extra => Sys2Proof.Machine.execSpRead addr words cut extra s
  | .spWrite addr words => Sys2Proof.Machine.execSpWrite addr words s
  | .spReadNoinc addr words cut => Sys2Proof.Machine.execSpReadNoinc addr words cut s
  | .spWriteNoinc addr words => Sys2Proof.Machine.execSpWriteNoinc addr words s
  | .spSnapshot addr extra => Sys2Proof.Machine.execSpSnapshot addr extra s
  | .spIllegal code edges => Sys2Proof.Machine.execSpIllegal code edges s
  | .spShort => Sys2Proof.Machine.execSpShort s
  | .sspGo port n => Sys2Proof.Machine.execSspGo port n s
  | .sspStop port n => Sys2Proof.Machine.execSspStop port n s
  | .sspPop port n => Sys2Proof.Machine.execSspPop port n s
  | .sspTransactionComplete n rx => Sys2Proof.Machine.execSspTransactionComplete n rx s
  | .pairStateSend => Sys2Proof.Machine.execPairStateSend s
  | .pairState l words => Sys2Proof.Machine.execPairState l words s
  | .mirror l words => Sys2Proof.Machine.execMirror l words s
  | .propose l words => Sys2Proof.Machine.execPropose l words s
  | .accept l words => Sys2Proof.Machine.execAccept l words s
  | .refuse l words => Sys2Proof.Machine.execRefuse l words s
  | .release l words => Sys2Proof.Machine.execRelease l words s
  | .pairStartupDecision foreign => Sys2Proof.Machine.execPairStartupDecision foreign s
  | .leaderLost foreign => Sys2Proof.Machine.execLeaderLost foreign s
  | .handoverRampStart b => Sys2Proof.Machine.execHandoverRampStart b s
  | .handoverRampFull b => Sys2Proof.Machine.execHandoverRampFull b s
  | .handoverWindowEnd b => Sys2Proof.Machine.execHandoverWindowEnd b s
  | .pairContention b => Sys2Proof.Machine.execPairContention b s
  | .pairSwitch port => Sys2Proof.Machine.execPairSwitch port s
  | .pairCancel port => Sys2Proof.Machine.execPairCancel port s
  | .pairProofStart port => Sys2Proof.Machine.execPairProofStart port s
  | .clearpf port => Sys2Proof.Machine.execClearpf port s
  | .pairHandoverRefused => Sys2Proof.Machine.execPairHandoverRefused s
  | .driveRemoval b => Sys2Proof.Machine.execDriveRemoval b s
  | .pairTakeback => Sys2Proof.Machine.execPairTakeback s
  | .proofExchange => Sys2Proof.Machine.execProofExchange s
  | .proofHandback => Sys2Proof.Machine.execProofHandback s
  | .temperatureEvaluation temps => Sys2Proof.Machine.execTemperatureEvaluation temps s
  | .calBanksDue port banks => Sys2Proof.Machine.execCalBanksDue port banks s
  | .calAbort port => Sys2Proof.Machine.execCalAbort port s
  | .calPassStart b => Sys2Proof.Machine.execCalPassStart b s
  | .calSparePhaseEnd b => Sys2Proof.Machine.execCalSparePhaseEnd b s
  | .calChannelStart b => Sys2Proof.Machine.execCalChannelStart b s
  | .firstOverlapEnd b => Sys2Proof.Machine.execFirstOverlapEnd b s
  | .calIntervalEnd b => Sys2Proof.Machine.execCalIntervalEnd b s
  | .secondOverlapEnd b => Sys2Proof.Machine.execSecondOverlapEnd b s
  | .calPassEnd b => Sys2Proof.Machine.execCalPassEnd b s
  | .calAbandon b => Sys2Proof.Machine.execCalAbandon b s
  | .substitutionEnd b => Sys2Proof.Machine.execSubstitutionEnd b s
  | .calGroupWrite failures => Sys2Proof.Machine.execCalGroupWrite failures s
  | .calCompaction failures => Sys2Proof.Machine.execCalCompaction failures s
  | .updBegin l h w1 => Sys2Proof.Machine.execUpdBegin l h w1 s
  | .updPiece l h w1 w2 data => Sys2Proof.Machine.execUpdPiece l h w1 w2 data s
  | .updStatus l h => Sys2Proof.Machine.execUpdStatus l h s
  | .updVerify l h => Sys2Proof.Machine.execUpdVerify l h s
  | .updInstall l h => Sys2Proof.Machine.execUpdInstall l h s
  | .updActivate l h at_ => Sys2Proof.Machine.execUpdActivate l h at_ s
  | .updCancel l h => Sys2Proof.Machine.execUpdCancel l h s
  | .updRecover port => Sys2Proof.Machine.execUpdRecover port s
  | .pieceStore failures => Sys2Proof.Machine.execPieceStore failures s
  | .verificationComplete => Sys2Proof.Machine.execVerificationComplete s
  | .copyBlock failures => Sys2Proof.Machine.execCopyBlock failures s
  | .shadowLoadComplete eccError => Sys2Proof.Machine.execShadowLoadComplete eccError s
  | .traverseEnd => Sys2Proof.Machine.execTraverseEnd s
  | .chStageFault c => Sys2Proof.Machine.execChStageFault c s
  | .bankFault b cause => Sys2Proof.Machine.execBankFault b cause s
  | .bankRestart b => Sys2Proof.Machine.execBankRestart b s
  | .dramEccError ch part addr => Sys2Proof.Machine.execDramEccError ch part addr s
  | .scrub corrected => Sys2Proof.Machine.execScrub corrected s
  | .persistentLogWrite => Sys2Proof.Machine.execPersistentLogWrite s
  | .interruptClear port bits => Sys2Proof.Machine.execInterruptClear port bits s
  | .eventRecordRead port => Sys2Proof.Machine.execEventRecordRead port s
  | .persistentPointerWrite port value => Sys2Proof.Machine.execPersistentPointerWrite port value s
  | .bmapDataRead port => Sys2Proof.Machine.execBmapDataRead port s
  | .dbgEngPtrWrite port value => Sys2Proof.Machine.execDbgEngPtrWrite port value s
  | .dbgEngDataRead port => Sys2Proof.Machine.execDbgEngDataRead port s
  | .laneBringUp => Sys2Proof.Machine.execLaneBringUp s
  | .clkRef10Valid => Sys2Proof.Machine.execClkRef10Valid s
  | .shadowPacketRelease st => Sys2Proof.Machine.execShadowPacketRelease st s
  | .romUncorrectableError => Sys2Proof.Machine.execRomUncorrectableError s
  | .illegalInstruction e => Sys2Proof.Machine.execIllegalInstruction e s

end Sys2Proof.Machine
end

