-- ==== Sys2Proof/Safety.lean ====
section
/-!
DEFINITION. Sys2Proof/Safety.lean: the terms that statements about the hub use: a command that runs to a next state of which something
holds, a record that stands in the event log, an engine that issues, and what an engine's instruction may change.
-/
namespace Sys2Proof.Machine
open Sys2Proof

/-- The command answers a next state of which P holds. -/
def Gives (c : Instr) (s : State) (P : State → Prop) : Prop := ∃ t, exec c s = .next t ∧ P t

/-- The event log of t holds, under the SEQ that was next in s, a record of the condition with that unit and those first two detail
items (R441, R442). -/
def Logged (s t : State) (c : Cond) (unit : Nat) (d2 d3 : W64) : Prop :=
  ∃ r ∈ t.evt.ring, r.seq = s.evt.nextSeq ∧ r.code = c.code ∧ r.cls = c.rank.1 ∧ r.level = c.rank.2 ∧ r.unit = unitIx unit
    ∧ r.slot = s.logSlot ∧ r.d2 = d2 ∧ r.d3 = d3 ∧ r.partner = false

/-- A step that neither faults nor refuses. -/
def Safe (s : State) : Prop := ∃ t, step s = .next t

/-- The memories and the register table are in canonical form: rising addresses, nothing listed that an unlisted address
reads as. -/
def Canonical (s : State) : Prop :=
  Memory.wf s.sram = true ∧ Memory.wf s.dram = true ∧ Memory.wf s.cap.mem = true ∧ Sparse.wf Reg.resetValue s.regs = true

/-! ### Registers and host commands -/

/-- A write that is refused: the condition is logged with the word written and the port (R461), and nothing outside the event log and
its registers differs. -/
def Refuses (c : Instr) (s : State) (cond : Cond) (unit what port : Nat) : Prop :=
  Gives c s (fun t => Logged s t cond unit (BitVec.ofNat 64 what) (BitVec.ofNat 64 port) ∧ { t with regs := s.regs, evt := s.evt } = s)

/-- A host command of a lane is taken up: the hub is not held in reset, the lane is no pair lane and is answered, its context has room, the command is no repeat, the mode serves it
and the port has the class it needs (R44, R347, R352, R353, R360). -/
def Accepts (s : State) (l : Nat) (h : CmdHdr) (op : Nat) (ops : List W64) (cls : Nat) (sysRead : Bool) : Prop :=
  s.mode.phase ≠ .held ∧ s.pairRole l = false ∧ s.answers l = true ∧ (s.hostOf l).held < 8
    ∧ (h.tag = 0 ∨ ∀ e ∈ (s.hostOf l).store, e.1 ≠ { src := h.src.toNat, words := cmdFrame h op ops })
    ∧ s.served l op sysRead = true ∧ cls ≤ s.classOf l

/-- One response more waits in the lane's context: for the sender, with the command's OP and TAG, that STATUS and those words
(R358). -/
def Answered (s t : State) (l : Nat) (h : CmdHdr) (op status : Nat) (words : List W64) : Prop :=
  ∃ r, (t.hostOf l).resps = (s.hostOf l).resps ++ [r] ∧ r.dst = h.src.toNat ∧ r.op = op ∧ r.tag = h.tag.toNat ∧ r.status = status
    ∧ r.words = words

/-! ### Koloux instructions -/

/-- A physical engine issues its next instruction: it runs, holds no exception, and an instruction stands after this one (R174, R197). -/
def Issues (s : State) (e : Nat) : Prop := (s.eng e).running = true ∧ (s.eng e).exc = none ∧ (s.eng e).pc < 16383

/-- It issues, and the guard of the instruction holds (R185). -/
def IssuesIf (s : State) (e : Nat) (g : Guard) : Prop := Issues s e ∧ (s.eng e).guardOk g = true

/-- Outside the engine nothing differs: every other engine, and every other part of the state. -/
def OnlyEngine (s t : State) (e : Nat) : Prop := (∀ f, f ≠ e → t.eng f = s.eng f) ∧ { t with engs := s.engs } = s

/-- The command writes v into word register rd of the engine (nothing where rd is 0), moves its PC on by one and changes nothing
else. -/
def WritesW (c : Instr) (s : State) (e : Fin 16) (rd : WReg) (v : W64) : Prop :=
  Gives c s (fun t =>
    (∀ r : WReg, (t.eng e).rw r = if r = rd ∧ rd.val ≠ 0 then v else (s.eng e).rw r)
    ∧ { t.eng e with w := (s.eng e).w, pc := (s.eng e).pc } = s.eng e ∧ (t.eng e).pc = (s.eng e).pc + 1 ∧ OnlyEngine s t e)

/-- The command writes b into predicate pd of the engine (nothing where pd is 0), moves its PC on by one and changes nothing else. -/
def WritesP (c : Instr) (s : State) (e : Fin 16) (pd : PReg) (b : Bool) : Prop :=
  Gives c s (fun t =>
    (∀ k : PReg, (t.eng e).rp k = if k = pd ∧ pd.val ≠ 0 then b else (s.eng e).rp k)
    ∧ { t.eng e with p := (s.eng e).p, pc := (s.eng e).pc } = s.eng e ∧ (t.eng e).pc = (s.eng e).pc + 1 ∧ OnlyEngine s t e)

/-- The command writes v into accumulator ad of the engine, moves its PC on by one and changes nothing else. -/
def WritesA (c : Instr) (s : State) (e : Fin 16) (ad : AReg) (v : BitVec 128) : Prop :=
  Gives c s (fun t =>
    (∀ k : AReg, (t.eng e).ra k = if k = ad then v else (s.eng e).ra k)
    ∧ { t.eng e with a := (s.eng e).a, pc := (s.eng e).pc } = s.eng e ∧ (t.eng e).pc = (s.eng e).pc + 1 ∧ OnlyEngine s t e)

/-- The command only moves the PC of the engine to an index. -/
def Jumps (c : Instr) (s : State) (e : Fin 16) (pc : Nat) : Prop :=
  Gives c s (fun t => t.eng e = { s.eng e with pc := pc } ∧ OnlyEngine s t e)

/-- The command appends one entry, tagged with the program slot in progress, to the commit buffer of the engine, moves its PC on by
one and changes nothing else (R163). -/
def Enters (c : Instr) (s : State) (e : Fin 16) (op : CbOp) : Prop :=
  Gives c s (fun t =>
    t.eng e = { s.eng e with cb := (s.eng e).cb ++ [{ slot := (s.eng e).slot, op := op }], pc := (s.eng e).pc + 1 }
    ∧ OnlyEngine s t e)

/-- The commit buffer of the engine takes one more entry of its program slot (R163). -/
def CbFree (s : State) (e : Nat) : Prop := (s.eng e).cb.length < 64

/-- The command raises an exception with that code in the engine: its PC stays, it issues no more, and nothing else changes (R174,
R210). -/
def Raises (c : Instr) (s : State) (e : Fin 16) (x : Exc) : Prop :=
  Gives c s (fun t =>
    t.eng e = { s.eng e with exc := some (ecauseWord 4 x.code ((s.eng e).pc % 2 ^ 14) (s.eng e).slot) } ∧ OnlyEngine s t e)

/-- The exception vector was not entered in this program slot (R211). -/
def NoVec (s : State) (e : Nat) : Prop := (s.eng e).vecSlot ≠ some (s.eng e).slot

/-- The engine and the guard of a guarded instruction: those of formats T, M and H (R185). -/
def guardOf : Instr → Option (Fin 16 × Guard)
  | .add e g _ _ _ => some (e, g)
  | .sub e g _ _ _ => some (e, g)
  | .and_ e g _ _ _ => some (e, g)
  | .or_ e g _ _ _ => some (e, g)
  | .xor e g _ _ _ => some (e, g)
  | .andn e g _ _ _ => some (e, g)
  | .shl e g _ _ _ => some (e, g)
  | .shr e g _ _ _ => some (e, g)
  | .sar e g _ _ _ => some (e, g)
  | .ror e g _ _ _ => some (e, g)
  | .min_ e g _ _ _ => some (e, g)
  | .max_ e g _ _ _ => some (e, g)
  | .minu e g _ _ _ => some (e, g)
  | .maxu e g _ _ _ => some (e, g)
  | .abs_ e g _ _ => some (e, g)
  | .adds e g _ _ _ => some (e, g)
  | .subs e g _ _ _ => some (e, g)
  | .clz e g _ _ => some (e, g)
  | .popc e g _ _ => some (e, g)
  | .mul e g _ _ _ => some (e, g)
  | .mulhs e g _ _ _ => some (e, g)
  | .mulhu e g _ _ _ => some (e, g)
  | .padd e g _ _ _ _ => some (e, g)
  | .psub e g _ _ _ _ => some (e, g)
  | .padds e g _ _ _ _ => some (e, g)
  | .psubs e g _ _ _ _ => some (e, g)
  | .paddus e g _ _ _ _ => some (e, g)
  | .psubus e g _ _ _ _ => some (e, g)
  | .pmin e g _ _ _ _ => some (e, g)
  | .pmax e g _ _ _ _ => some (e, g)
  | .pabs e g _ _ _ => some (e, g)
  | .pshl e g _ _ _ _ => some (e, g)
  | .psar e g _ _ _ _ => some (e, g)
  | .pshr e g _ _ _ _ => some (e, g)
  | .pmull e g _ _ _ _ => some (e, g)
  | .pmulhs e g _ _ _ _ => some (e, g)
  | .cmpeq e g _ _ _ _ => some (e, g)
  | .cmpne e g _ _ _ _ => some (e, g)
  | .cmplt e g _ _ _ _ => some (e, g)
  | .cmpge e g _ _ _ _ => some (e, g)
  | .cmpltu e g _ _ _ _ => some (e, g)
  | .cmpgeu e g _ _ _ _ => some (e, g)
  | .cmptst e g _ _ _ _ => some (e, g)
  | .mfs e g _ _ => some (e, g)
  | .pand e g _ _ _ => some (e, g)
  | .por e g _ _ _ => some (e, g)
  | .pxor e g _ _ _ => some (e, g)
  | .pandn e g _ _ _ => some (e, g)
  | .mfp e g _ => some (e, g)
  | .mtp e g _ => some (e, g)
  | .mac e g _ _ _ => some (e, g)
  | .macu e g _ _ _ => some (e, g)
  | .msb e g _ _ _ => some (e, g)
  | .macW2 e g _ _ _ => some (e, g)
  | .macH4 e g _ _ _ => some (e, g)
  | .aclr e g _ => some (e, g)
  | .mva e g _ _ _ => some (e, g)
  | .mvah e g _ _ => some (e, g)
  | .mval e g _ _ => some (e, g)
  | .mtah e g _ _ => some (e, g)
  | .mtal e g _ _ => some (e, g)
  | .ld e g _ _ _ => some (e, g)
  | .lw e g _ _ _ => some (e, g)
  | .lwu e g _ _ _ => some (e, g)
  | .lh e g _ _ _ => some (e, g)
  | .lhu e g _ _ _ => some (e, g)
  | .lb e g _ _ _ => some (e, g)
  | .lbu e g _ _ _ => some (e, g)
  | .st e g _ _ _ => some (e, g)
  | .sw e g _ _ _ => some (e, g)
  | .sh e g _ _ _ => some (e, g)
  | .sb e g _ _ _ => some (e, g)
  | .aadd e g _ _ _ => some (e, g)
  | .jr e g _ => some (e, g)
  | .jrl e g _ _ => some (e, g)
  | .waitslot e g _ => some (e, g)
  | .fetch e g _ _ _ _ => some (e, g)
  | .convset e g _ _ => some (e, g)
  | .emit e g _ _ _ => some (e, g)
  | .event e g _ _ _ => some (e, g)
  | .trigarm e g _ _ => some (e, g)
  | .tbread e g _ _ _ => some (e, g)
  | .ckpt e g => some (e, g)
  | .squashed e g _ => some (e, g)
  | _ => none

end Sys2Proof.Machine
end

