-- ==== Sys2Proof/Certificates/Slice0/Obligations.lean ====
section
/-!
DEFINITION. Sys2Proof/Certificates/Slice0/Obligations.lean: the statements about the hub model that are to be proved. Each docstring says
which rules of the manual its statement formalises.
-/
open Sys2Proof Sys2Proof.Machine

/-! ### The Koloux instructions -/

/-- R187: where an engine issues an integer instruction whose guard holds, rd takes the result of the table and nothing else changes but
the PC. The shifts use rb[5:0]; the saturating forms are held to −2^63 to 2^63 − 1.
R188: the immediate forms, which no guard holds back: signed immediates are sign-extended, unsigned ones zero-extended, shifts go by
IMM[5:0], LI sets rd to the immediate, CATI shifts ra left by 16 and puts the immediate below. -/
def Obligations.KolouxIntegerResults : Prop :=
  (∀ (e : Fin 16) (g : Guard) (rd ra rb : WReg) (s : State), IssuesIf s e g →
    let a := (s.eng e).rw ra
    let b := (s.eng e).rw rb
    let n := b.toNat % 64
    let sat := fun i : Int => BitVec.ofInt 64 (max (-2 ^ 63) (min (2 ^ 63 - 1) i))
    WritesW (.add e g rd ra rb) s e rd (a + b) ∧ WritesW (.sub e g rd ra rb) s e rd (a - b)
    ∧ WritesW (.and_ e g rd ra rb) s e rd (a &&& b) ∧ WritesW (.or_ e g rd ra rb) s e rd (a ||| b)
    ∧ WritesW (.xor e g rd ra rb) s e rd (a ^^^ b) ∧ WritesW (.andn e g rd ra rb) s e rd (a &&& ~~~b)
    ∧ WritesW (.shl e g rd ra rb) s e rd (a <<< n) ∧ WritesW (.shr e g rd ra rb) s e rd (a >>> n)
    ∧ WritesW (.sar e g rd ra rb) s e rd (BitVec.ofInt 64 (a.toInt / 2 ^ n))
    ∧ WritesW (.ror e g rd ra rb) s e rd ((a >>> n) ||| (a <<< (64 - n)))
    ∧ WritesW (.min_ e g rd ra rb) s e rd (BitVec.ofInt 64 (min a.toInt b.toInt))
    ∧ WritesW (.max_ e g rd ra rb) s e rd (BitVec.ofInt 64 (max a.toInt b.toInt))
    ∧ WritesW (.minu e g rd ra rb) s e rd (BitVec.ofNat 64 (min a.toNat b.toNat))
    ∧ WritesW (.maxu e g rd ra rb) s e rd (BitVec.ofNat 64 (max a.toNat b.toNat))
    ∧ WritesW (.abs_ e g rd ra) s e rd (sat (if a.toInt < 0 then -a.toInt else a.toInt))
    ∧ WritesW (.adds e g rd ra rb) s e rd (sat (a.toInt + b.toInt))
    ∧ WritesW (.subs e g rd ra rb) s e rd (sat (a.toInt - b.toInt))
    ∧ WritesW (.clz e g rd ra) s e rd (BitVec.ofNat 64 (if a = 0 then 64 else 63 - a.toNat.log2))
    ∧ WritesW (.popc e g rd ra) s e rd (BitVec.ofNat 64 ((List.range 64).filter (fun i => a.getLsbD i)).length)
    ∧ WritesW (.mul e g rd ra rb) s e rd (BitVec.ofNat 64 (a.toNat * b.toNat))
    ∧ WritesW (.mulhs e g rd ra rb) s e rd (BitVec.ofInt 64 (a.toInt * b.toInt / 2 ^ 64))
    ∧ WritesW (.mulhu e g rd ra rb) s e rd (BitVec.ofNat 64 (a.toNat * b.toNat / 2 ^ 64)))
  ∧ (∀ (e : Fin 16) (rd ra : WReg) (imm : BitVec 16) (sh : Fin 64) (s : State), Issues s e →
    let a := (s.eng e).rw ra
    WritesW (.addi e rd ra imm) s e rd (BitVec.ofInt 64 (a.toInt + imm.toInt))
    ∧ WritesW (.andi e rd ra imm) s e rd (a &&& BitVec.ofNat 64 imm.toNat)
    ∧ WritesW (.ori e rd ra imm) s e rd (a ||| BitVec.ofNat 64 imm.toNat)
    ∧ WritesW (.xori e rd ra imm) s e rd (a ^^^ BitVec.ofNat 64 imm.toNat)
    ∧ WritesW (.shli e rd ra sh) s e rd (BitVec.ofNat 64 (a.toNat * 2 ^ sh.val))
    ∧ WritesW (.shri e rd ra sh) s e rd (BitVec.ofNat 64 (a.toNat / 2 ^ sh.val))
    ∧ WritesW (.sari e rd ra sh) s e rd (BitVec.ofInt 64 (a.toInt / 2 ^ sh.val))
    ∧ WritesW (.li e rd imm) s e rd (BitVec.ofInt 64 imm.toInt)
    ∧ WritesW (.cati e rd ra imm) s e rd (BitVec.ofNat 64 (a.toNat * 65536) ||| BitVec.ofNat 64 imm.toNat))

/-- R189: a compare writes its condition into pd, replacing it, ANDed with it or ORed with it by mode; the immediate forms extend IMM
by sign for EQ, NE, LT and GE and by zero for LTU and GEU; a pd of 0 discards the result.
R190, R182, R209: predicate logic, the moves between predicates and registers, the special registers and SQUASHED?. CKPT reads the
number of uncommitted program slots above the low 60 bits of the oldest one; p0 reads 1. -/
def Obligations.KolouxCompareAndSpecialResults : Prop :=
  (∀ (e : Fin 16) (g : Guard) (mode : Fin 3) (pd : PReg) (ra rb : WReg) (imm : BitVec 16) (s : State), Issues s e →
    let a := (s.eng e).rw ra
    let b := (s.eng e).rw rb
    let old := (s.eng e).rp pd
    let put := fun c : Bool => match mode with
      | 0 => c
      | 1 => old && c
      | 2 => old || c
    ((s.eng e).guardOk g = true →
      WritesP (.cmpeq e g mode pd ra rb) s e pd (put (decide (a.toNat = b.toNat)))
      ∧ WritesP (.cmpne e g mode pd ra rb) s e pd (put (decide (a.toNat ≠ b.toNat)))
      ∧ WritesP (.cmplt e g mode pd ra rb) s e pd (put (decide (a.toInt < b.toInt)))
      ∧ WritesP (.cmpge e g mode pd ra rb) s e pd (put (decide (b.toInt ≤ a.toInt)))
      ∧ WritesP (.cmpltu e g mode pd ra rb) s e pd (put (decide (a.toNat < b.toNat)))
      ∧ WritesP (.cmpgeu e g mode pd ra rb) s e pd (put (decide (b.toNat ≤ a.toNat)))
      ∧ WritesP (.cmptst e g mode pd ra rb) s e pd (put (decide ((a &&& b).toNat ≠ 0))))
    ∧ WritesP (.cmpeqi e mode pd ra imm) s e pd (put (decide (a.toInt = imm.toInt)))
    ∧ WritesP (.cmpnei e mode pd ra imm) s e pd (put (decide (a.toInt ≠ imm.toInt)))
    ∧ WritesP (.cmplti e mode pd ra imm) s e pd (put (decide (a.toInt < imm.toInt)))
    ∧ WritesP (.cmpgei e mode pd ra imm) s e pd (put (decide (imm.toInt ≤ a.toInt)))
    ∧ WritesP (.cmpltui e mode pd ra imm) s e pd (put (decide (a.toNat < imm.toNat)))
    ∧ WritesP (.cmpgeui e mode pd ra imm) s e pd (put (decide (imm.toNat ≤ a.toNat))))
  ∧ (∀ (e : Fin 16) (g : Guard) (rd ra : WReg) (pd pa pb : PReg) (s : State), IssuesIf s e g →
    let en := s.eng e
    let x := en.rp pa
    let y := en.rp pb
    WritesP (.pand e g pd pa pb) s e pd (x && y) ∧ WritesP (.por e g pd pa pb) s e pd (x || y)
    ∧ WritesP (.pxor e g pd pa pb) s e pd (xor x y) ∧ WritesP (.pandn e g pd pa pb) s e pd (x && !y)
    ∧ WritesP (.squashed e g pd) s e pd en.sq
    ∧ WritesW (.mfs e g rd 0) s e rd (BitVec.ofNat 64 en.slot)
    ∧ WritesW (.mfs e g rd 1) s e rd (BitVec.ofNat 64 (en.ckpts.length * 2 ^ 60 + en.oldest % 2 ^ 60))
    ∧ WritesW (.mfs e g rd 2) s e rd en.ecause
    ∧ Gives (.mfp e g rd) s (fun t =>
        (rd.val ≠ 0 → ∀ i, ((t.eng e).rw rd).getLsbD i = (decide (i < 8) && en.rp i)) ∧ (t.eng e).rw 0 = 0
        ∧ { t.eng e with w := en.w, pc := en.pc } = en ∧ (t.eng e).pc = en.pc + 1 ∧ OnlyEngine s t e)
    ∧ Gives (.mtp e g ra) s (fun t =>
        (∀ k : PReg, (t.eng e).rp k = (k == 0 || (en.rw ra).getLsbD k))
        ∧ { t.eng e with p := en.p, pc := en.pc } = en ∧ (t.eng e).pc = en.pc + 1 ∧ OnlyEngine s t e))

/-- R191: the packed instructions act on each lane on its own: two lanes of 32 bits, or four of 16 with .H4. -/
def Obligations.KolouxPackedResults : Prop :=
  ∀ (e : Fin 16) (g : Guard) (h4 : Bool) (rd ra rb : WReg) (s : State), IssuesIf s e g →
    let w := if h4 then 16 else 32
    let laneI := fun (r : WReg) (v : EngSt) (i : Nat) => ((v.rw r).extractLsb' (w * i) w).toInt
    let laneN := fun (r : WReg) (v : EngSt) (i : Nat) => ((v.rw r).extractLsb' (w * i) w).toNat
    let n := ((s.eng e).rw rb).toNat % 64
    let lane := fun (c : Instr) (f : Nat → Int) => Gives c s (fun t =>
      (rd.val ≠ 0 → ∀ i, w * i < 64 → ((t.eng e).rw rd).extractLsb' (w * i) w = BitVec.ofInt w (f i)) ∧ (t.eng e).rw 0 = 0
      ∧ (∀ r : WReg, r ≠ rd → (t.eng e).rw r = (s.eng e).rw r)
      ∧ { t.eng e with w := (s.eng e).w, pc := (s.eng e).pc } = s.eng e ∧ (t.eng e).pc = (s.eng e).pc + 1 ∧ OnlyEngine s t e)
    let a := laneI ra (s.eng e)
    let b := laneI rb (s.eng e)
    let au := laneN ra (s.eng e)
    let bu := laneN rb (s.eng e)
    lane (.padd e g h4 rd ra rb) (fun i => a i + b i) ∧ lane (.psub e g h4 rd ra rb) (fun i => a i - b i)
    ∧ lane (.padds e g h4 rd ra rb) (fun i => max (-2 ^ (w - 1)) (min (2 ^ (w - 1) - 1) (a i + b i)))
    ∧ lane (.psubs e g h4 rd ra rb) (fun i => max (-2 ^ (w - 1)) (min (2 ^ (w - 1) - 1) (a i - b i)))
    ∧ lane (.paddus e g h4 rd ra rb) (fun i => min (2 ^ w - 1) ((au i : Int) + bu i))
    ∧ lane (.psubus e g h4 rd ra rb) (fun i => max 0 ((au i : Int) - bu i))
    ∧ lane (.pmin e g h4 rd ra rb) (fun i => min (a i) (b i)) ∧ lane (.pmax e g h4 rd ra rb) (fun i => max (a i) (b i))
    ∧ lane (.pabs e g h4 rd ra) (fun i => min (2 ^ (w - 1) - 1) (if a i < 0 then -a i else a i))
    ∧ lane (.pshl e g h4 rd ra rb) (fun i => (au i * 2 ^ n : Nat))
    ∧ lane (.psar e g h4 rd ra rb) (fun i => a i / 2 ^ n) ∧ lane (.pshr e g h4 rd ra rb) (fun i => (au i / 2 ^ n : Nat))
    ∧ lane (.pmull e g h4 rd ra rb) (fun i => a i * b i) ∧ lane (.pmulhs e g h4 rd ra rb) (fun i => a i * b i / 2 ^ w)

/-- R192: the multiply-accumulate group on the 128-bit accumulators, which wrap modulo 2^128; MVA rounds to nearest with ties to even
and saturates. -/
def Obligations.KolouxAccumulatorResults : Prop :=
  ∀ (e : Fin 16) (g : Guard) (ad : AReg) (rd ra rb : WReg) (s : State), IssuesIf s e g →
    let a := (s.eng e).rw ra
    let b := (s.eng e).rw rb
    let acc := (s.eng e).ra ad
    let dot := fun (w n : Nat) => ((List.range n).map (fun i => (a.extractLsb' (w * i) w).toInt * (b.extractLsb' (w * i) w).toInt)).sum
    let n := b.toNat % 128
    let q := acc.toInt / 2 ^ n
    let r := acc.toInt % 2 ^ n
    let near := if 2 * r < 2 ^ n then q else if 2 ^ n < 2 * r then q + 1 else if q % 2 = 0 then q else q + 1
    WritesA (.mac e g ad ra rb) s e ad (acc + BitVec.ofInt 128 (a.toInt * b.toInt))
    ∧ WritesA (.macu e g ad ra rb) s e ad (acc + BitVec.ofNat 128 (a.toNat * b.toNat))
    ∧ WritesA (.msb e g ad ra rb) s e ad (acc - BitVec.ofInt 128 (a.toInt * b.toInt))
    ∧ WritesA (.macW2 e g ad ra rb) s e ad (acc + BitVec.ofInt 128 (dot 32 2))
    ∧ WritesA (.macH4 e g ad ra rb) s e ad (acc + BitVec.ofInt 128 (dot 16 4))
    ∧ WritesA (.aclr e g ad) s e ad 0
    ∧ WritesW (.mva e g rd ad rb) s e rd (BitVec.ofInt 64 (max (-2 ^ 63) (min (2 ^ 63 - 1) near)))
    ∧ WritesW (.mvah e g rd ad) s e rd (acc.extractLsb' 64 64) ∧ WritesW (.mval e g rd ad) s e rd (acc.extractLsb' 0 64)
    ∧ WritesA (.mtah e g ad ra) s e ad (a ++ acc.extractLsb' 0 64) ∧ WritesA (.mtal e g ad ra) s e ad (acc.extractLsb' 64 64 ++ a)

/-- R159, R166, R193, R194, R196, R210: a load of 8, 4, 2 or 1 bytes from ra + OFF × size. It raises ALIGN where the address is no
multiple of its size, ADDR_RANGE outside the map, HUBREG_SIZE in the hub register window but for LD, LOAD_POISON on a word that fails
its check; else rd takes the bytes of local data memory, or those of shared SRAM or the DRAM window overlaid with the engine's own
stores, extended by sign or zero. LD from the hub register window gives the word as the program's port reads it; a word with an RC
field and SYS_SNAP wait until the program slot is settled; a window data word shows what the loads of the uncommitted program slots
lead to, and the load stands with its program slot. At or after tick 128 a load past local data memory is the load after every
group accepted in an earlier slot. -/
def Obligations.KolouxLoads : Prop :=
  ∀ (e : Fin 16) (g : Guard) (rd ra : WReg) (off : BitVec 12) (s : State), IssuesIf s e g → NoVec s e →
    let en := s.eng e
    let form := fun (c : Instr) (n : Nat) (ext : Nat → W64) =>
      let a := en.address ra off n
      let u := s.beforeLoad a
      (IssuesIf u e g → (u.eng e).address ra off n = a → u.beforeLoad a = u → exec c s = exec c u)
      ∧ (u = s →
        (a % n ≠ 0 → Raises c s e .align)
        ∧ (a % n = 0 → s.range a n = none → Raises c s e .addrRange)
        ∧ (s.range a n = some .lmem → a % n = 0 → WritesW c s e rd (ext (Memory.read en.lmem a n)))
        ∧ (s.range a n = some .hub → a % n = 0 → n ≠ 8 → Raises c s e .hubregSize)
        ∧ (s.range a n = some .sram ∨ s.range a n = some .dram → a % n = 0 →
            (s.poisoned a = true → Raises c s e .loadPoison)
            ∧ (s.poisoned a = false → WritesW c s e rd (ext (s.sharedLoad e a n)))))
    form (.ld e g rd ra off) 8 (BitVec.ofNat 64)
    ∧ form (.lw e g rd ra off) 4 (fun v => (BitVec.ofNat 32 v).signExtend 64) ∧ form (.lwu e g rd ra off) 4 (BitVec.ofNat 64)
    ∧ form (.lh e g rd ra off) 2 (fun v => (BitVec.ofNat 16 v).signExtend 64) ∧ form (.lhu e g rd ra off) 2 (BitVec.ofNat 64)
    ∧ form (.lb e g rd ra off) 1 (fun v => (BitVec.ofNat 8 v).signExtend 64) ∧ form (.lbu e g rd ra off) 1 (BitVec.ofNat 64)
    ∧ (let a := en.address ra off 8
       let w := hubWord a
       s.range a 8 = some .hub → a % 8 = 0 → rd.val ≠ 0 → en.snapArmed = false → en.snap = [] → s.beforeLoad a = s →
         (w ≠ Reg.SYS_SNAP → hasRc w = false → readAdvances w = false →
           Gives (.ld e g rd ra off) s (fun t =>
             (t.eng e).rw rd = (s.readWord progPort w).1 ∧ (t.eng e).pc = en.pc + 1
             ∧ { t with engs := s.engs } = { (s.readWord progPort w).2 with engs := s.engs }))
         ∧ (w ≠ Reg.SYS_SNAP → hasRc w = false → readAdvances w = true →
           Gives (.ld e g rd ra off) s (fun t =>
             (t.eng e).rw rd = (s.afterReads en.reads).view progPort w ∧ (t.eng e).pc = en.pc + 1
             ∧ (t.eng e).reads = en.reads ++ [(en.slot, w)] ∧ { t with engs := s.engs } = s))
         ∧ (w = Reg.SYS_SNAP ∨ hasRc w = true → en.oldest ≠ en.slot ∨ s.clk.slot < en.slot →
           exec (.ld e g rd ra off) s = .next s)
         ∧ (w = Reg.SYS_SNAP → en.oldest = en.slot → en.slot ≤ s.clk.slot →
           Gives (.ld e g rd ra off) s (fun t =>
             (t.eng e).rw rd = BitVec.ofNat 64 s.clk.slot ∧ (t.eng e).snapArmed = true ∧ (t.eng e).pc = en.pc + 1
             ∧ { t with engs := s.engs } = s)))

/-- R193 to R195, R162, R163, R210: a store of the low bytes of rd at ra + OFF × size. Into local data memory it acts at once, most
significant byte lowest, with the old word in the undo log, and no other byte changes; into shared SRAM, the DRAM window or the
hub register window it places one entry in the commit buffer and no byte changes. It raises ALIGN, ADDR_RANGE, HUBREG_SIZE or
HUBREG_SCOPE, the first that applies in this order, and UNDO_OVF at the 1,025th store of a program slot. AADD places one entry, for
shared SRAM and the DRAM window only. -/
def Obligations.KolouxStores : Prop :=
  ∀ (e : Fin 16) (g : Guard) (rd ra : WReg) (off : BitVec 12) (s : State), IssuesIf s e g → NoVec s e →
    let en := s.eng e
    let form := fun (c : Instr) (n : Nat) =>
      let a := en.address ra off n
      let v := (en.rw rd).toNat % 2 ^ (8 * n)
      (a % n ≠ 0 → Raises c s e .align)
      ∧ (a % n = 0 → s.range a n = none → Raises c s e .addrRange)
      ∧ (s.range a n = some .lmem → a % n = 0 → 1024 ≤ (en.undo.filter (fun u => u.slot == en.slot)).length →
          Raises c s e .undoOvf)
      ∧ (s.range a n = some .lmem → a % n = 0 → en.undo.length < 1024 →
          Gives c s (fun t =>
            (∀ b, Memory.get (t.eng e).lmem b =
              if a ≤ b ∧ b < a + n then BitVec.ofNat 8 (v / 256 ^ (n - 1 - (b - a))) else Memory.get en.lmem b)
            ∧ (t.eng e).undo = { slot := en.slot, addr := a / 8 * 8, old := Memory.word en.lmem (a / 8 * 8) } :: en.undo
            ∧ { t.eng e with lmem := en.lmem, undo := en.undo, pc := en.pc } = en ∧ (t.eng e).pc = en.pc + 1 ∧ OnlyEngine s t e))
      ∧ (s.range a n = some .sram ∨ s.range a n = some .dram → a % n = 0 → CbFree s e → Enters c s e (.store a n v))
      ∧ (s.range a n = some .hub → a % n = 0 → n ≠ 8 → Raises c s e .hubregSize)
      ∧ (s.range a n = some .hub → a % n = 0 → n = 8 → storeScope (hubWord a) = false → Raises c s e .hubregScope)
      ∧ (s.range a n = some .hub → a % n = 0 → storeScope (hubWord a) = true → n = 8 → CbFree s e → Enters c s e (.store a n v))
    form (.st e g rd ra off) 8 ∧ form (.sw e g rd ra off) 4 ∧ form (.sh e g rd ra off) 2 ∧ form (.sb e g rd ra off) 1
    ∧ (let a := en.address ra off 8
       (a % 8 ≠ 0 → Raises (.aadd e g rd ra off) s e .align)
       ∧ (a % 8 = 0 → s.range a 8 ≠ some .sram → s.range a 8 ≠ some .dram → Raises (.aadd e g rd ra off) s e .addrRange)
       ∧ (s.range a 8 = some .sram ∨ s.range a 8 = some .dram → a % 8 = 0 → CbFree s e →
           Enters (.aadd e g rd ra off) s e (.aadd a (en.rw rd))))

/-- R197: BR and BL are taken when p[PC] XOR PN is 1, to the index of the branch plus DISP; BL, when taken, and JRL write the next index
into w31 and rd; JR and JRL go to ra. A target that is no index of 0 to 16,383 raises BRANCH_RANGE. -/
def Obligations.KolouxBranches : Prop :=
  ∀ (e : Fin 16) (g : Guard) (pc : PReg) (pn : Bool) (disp : BitVec 22) (rd ra : WReg) (s : State), Issues s e → NoVec s e →
    let en := s.eng e
    let dest := (en.pc : Int) + disp.toInt
    let linked := fun (c : Instr) (r : WReg) (i : Nat) => Gives c s (fun t =>
      (∀ k : WReg, (t.eng e).rw k = if k = r ∧ r.val ≠ 0 then BitVec.ofNat 64 (en.pc + 1) else en.rw k)
      ∧ { t.eng e with w := en.w, pc := en.pc } = en ∧ (t.eng e).pc = i ∧ OnlyEngine s t e)
    let taken := xor (en.rp pc) pn
    (taken = false → Jumps (.br e pc pn disp) s e (en.pc + 1) ∧ Jumps (.bl e pc pn disp) s e (en.pc + 1))
    ∧ (taken = true → 0 ≤ dest → dest < 16384 → Jumps (.br e pc pn disp) s e dest.toNat ∧ linked (.bl e pc pn disp) 31 dest.toNat)
    ∧ (taken = true → dest < 0 ∨ 16384 ≤ dest → Raises (.br e pc pn disp) s e .branchRange ∧ Raises (.bl e pc pn disp) s e .branchRange)
    ∧ (en.guardOk g = true → (en.rw ra).toNat < 16384 →
        Jumps (.jr e g ra) s e (en.rw ra).toNat ∧ linked (.jrl e g rd ra) rd (en.rw ra).toNat)
    ∧ (en.guardOk g = true → 16384 ≤ (en.rw ra).toNat →
        Raises (.jr e g ra) s e .branchRange ∧ Raises (.jrl e g rd ra) s e .branchRange)

/-- R199 to R201, R207, R208, R161: WAITSLOT passes once the real slot has come and stalls before; FETCH returns the word or status
that stands for its instant, NOTYET where that is too early to wait for, or stalls; TBREAD gives the slot and the root ticks
since its edge; CKPT begins the next program slot with a checkpoint of the registers and clears the squash indication while run-ahead and
checkpoints allow, and stalls else. -/
def Obligations.KolouxStallsAndReads : Prop :=
  ∀ (e : Fin 16) (g : Guard) (rd ra rb : WReg) (kind : WordKind) (s : State), IssuesIf s e g → NoVec s e →
    let en := s.eng e
    let a := en.rw ra
    let c := a.toNat % 512
    let m := (en.rw rb).toNat
    let l := s.logical e
    let room := en.slot + 1 ≤ s.clk.slot + s.effF (Reg.ENG_CTL_AHEAD l) ∧ en.ckpts.length < 8
    (a.toNat ≤ s.clk.slot → Jumps (.waitslot e g ra) s e (en.pc + 1))
    ∧ (s.clk.slot < a.toNat → exec (.waitslot e g ra) s = .next s)
    ∧ (391 < c → Raises (.fetch e g rd ra rb kind) s e .fetchChan)
    ∧ (c ≤ 391 → s.bufferReady c m = true → WritesW (.fetch e g rd ra rb kind) s e rd (s.fetchWord c (kindIx kind) m))
    ∧ (c ≤ 391 → s.bufferReady c m = false → a.getLsbD 16 = true ∨ s.clk.slot + 16 < m + 6 →
        WritesW (.fetch e g rd ra rb kind) s e rd (statusWord 1 m))
    ∧ (c ≤ 391 → s.bufferReady c m = false → a.getLsbD 16 = false → m + 6 ≤ s.clk.slot + 16 →
        exec (.fetch e g rd ra rb kind) s = .next s)
    ∧ (∀ field : Fin 3, 4 < a.toNat % 8 → Raises (.tbread e g rd ra field) s e .tbreadSel)
    ∧ (∀ field : Fin 3, a.toNat % 8 ≤ 4 → rd.val = 0 ∨ rd.val = 31 → Raises (.tbread e g rd ra field) s e .tbreadReg)
    ∧ (∀ field : Fin 3, a.toNat % 8 ≤ 4 → 1 ≤ rd.val → rd.val ≤ 30 →
        let base := if a.toNat % 8 = 4 then s.sampTb else a.toNat % 8
        Gives (.tbread e g rd ra field) s (fun t =>
          (t.eng e).rw rd = (s.tbPair base field).1 ∧ (t.eng e).rw (rd.val + 1) = (s.tbPair base field).2
          ∧ { t.eng e with w := en.w, pc := en.pc } = en ∧ (t.eng e).pc = en.pc + 1 ∧ OnlyEngine s t e))
    ∧ (a.toNat % 8 ≤ 4 → 1 ≤ rd.val → rd.val ≤ 30 →
        Gives (.tbread e g rd ra 1) s (fun t =>
          (∀ k : WReg, (t.eng e).rw k = if k = rd then BitVec.ofNat 64 s.clk.slot
            else if k.val = rd.val + 1 then BitVec.ofNat 64 s.clk.tick else en.rw k)
          ∧ { t.eng e with w := en.w, pc := en.pc } = en ∧ (t.eng e).pc = en.pc + 1 ∧ OnlyEngine s t e))
    ∧ (room → s.upd.switches.get (fun _ => 0) l ≠ en.slot + 1 →
        Gives (.ckpt e g) s (fun t =>
          t.eng e = { en with
            slot := en.slot + 1, sq := false, snapArmed := false, snap := [], pc := en.pc + 1
            ckpts := en.ckpts ++ [{ slot := en.slot + 1, w := en.w, p := en.p, a := en.a, pc := en.pc + 1 }] }
          ∧ OnlyEngine s t e))
    ∧ (¬ room → exec (.ckpt e g) s = .next s)

/-- R203 to R206, R163, R210: CONVSET, EMIT, EVENT and TRIGARM each place one entry in the commit buffer with the operands of their
registers, and raise the lowest of their exceptions first: CONVSET_BANK, CONVSET_TARGET, EMIT_QUEUE, EMIT_REGS, EMIT_CHAN,
EVENT_CODE. -/
def Obligations.KolouxCommitEntries : Prop :=
  ∀ (e : Fin 16) (g : Guard) (ra rb : WReg) (n : Fin 4) (notify : Bool) (s : State), IssuesIf s e g → NoVec s e → CbFree s e →
    let en := s.eng e
    let a := (en.rw ra).toNat
    let b := en.rw rb
    let ws := (List.range (n.val + 1)).map (fun i => en.rw (rb.val + i))
    let bound := s.getF (Reg.QUE_CFG_PROD (a % 64)) = s.logical e
    let bank := a / 2 ^ 32 % 32
    let near := en.slot + 1 ≤ b.toNat ∧ b.toNat ≤ en.slot + 8
    let chan := fun w : W64 => w.toNat / 2 ^ 23 % 512
    (23 < bank → Raises (.convset e g ra rb) s e .convsetBank)
    ∧ (bank ≤ 23 → ¬ near → Raises (.convset e g ra rb) s e .convsetTarget)
    ∧ (bank ≤ 23 → near → Enters (.convset e g ra rb) s e (.convset bank (a % 65536) (a / 65536 % 65536) b.toNat))
    ∧ (¬ bound → Raises (.emit e g ra rb n) s e .emitQueue)
    ∧ (bound → 31 < rb.val + n.val → Raises (.emit e g ra rb n) s e .emitRegs)
    ∧ (bound → rb.val + n.val ≤ 31 → (∃ w ∈ ws, 391 < chan w) → Raises (.emit e g ra rb n) s e .emitChan)
    ∧ (bound → rb.val + n.val ≤ 31 → (∀ w ∈ ws, chan w ≤ 391) →
        Enters (.emit e g ra rb n) s e (.emit (a % 64) ((en.rw ra).getLsbD 8) ((en.rw ra).getLsbD 9) ws))
    ∧ (0x8000 ≤ a % 65536 → Raises (.event e g ra rb notify) s e .eventCode)
    ∧ (a % 65536 < 0x8000 → Enters (.event e g ra rb notify) s e (.event (a % 65536) b notify))
    ∧ Enters (.trigarm e g ra rb) s e (.trigarm (a % 8) ((en.rw ra).getLsbD 8) b.toNat)

/-- R185: an instruction of format T, M or H whose guard is false writes no register, places no entry, stalls on nothing and raises no
exception: the engine goes on to the next instruction and nothing else changes.
R174, R186, R210: an unassigned encoding raises ILLEGAL; and an engine that is stopped or holds a pending exception issues none of
the guarded instructions: the state stays as it is. -/
def Obligations.KolouxGuardAndStops : Prop :=
  (∀ (c : Instr) (e : Fin 16) (g : Guard) (s : State), guardOf c = some (e, g) → Issues s e → (s.eng e).guardOk g = false →
    Jumps c s e ((s.eng e).pc + 1))
  ∧ ((∀ (e : Fin 16) (s : State), Issues s e → NoVec s e → Raises (.illegalInstruction e) s e .illegal)
  ∧ (∀ (c : Instr) (e : Fin 16) (g : Guard) (s : State), guardOf c = some (e, g) →
      (s.eng e).running = false ∨ (s.eng e).exc ≠ none → exec c s = .next s))

/-! ### Engine events -/

/-- R162, R163, R165: once the oldest program slot of a running engine has ended and the real slot has reached it, it commits: its commit-buffer
entries form one ready group in program order, its checkpoint, undo-log and commit-buffer entries are freed, ENG_CSLOT shows it, and the window data words that the slot loaded
advance. (An engine that switches images at that slot is left out: R431.)
R166: the arbiter accepts the ready group of the least program slot and, among equals, the least engine, under the next commit
sequence number, which ENG_CSEQ of its engine then shows; it stands last in the order of application.
R166, R194, R195, R203, R205: the group accepted first is applied whole. A store to shared SRAM writes its bytes, an AADD adds to the
64-bit word, modulo 2^64, and no other byte of the memories changes (a whole word written passes its check again: log entry 30, the
model's choice); a CONVSET in time sets the stored paths of the named positions for
its target slot; an EVENT writes a record with the engine, the program slot and the commit sequence number. (With no command waiting in
a mailbox, whose answers are looked for after each group.) -/
def Obligations.EngineCommits : Prop :=
  (∀ (e : Fin 16) (s : State),
    let en := s.eng e
    let k := en.oldest
    let l := s.logical e
    let u := s.afterReads (en.reads.filter (fun x => x.1 == k))
    en.running = true → k < en.slot → k ≤ s.clk.slot → s.upd.switches.get (fun _ => 0) l ≠ k →
      Gives (.programSlotCommit e) s (fun t =>
        t.arb = { u.arb with ready := u.arb.ready ++
          [{ slot := k, eng := l, ops := (en.cb.filter (fun i => i.slot == k)).map (fun i => i.op), seq := 0, accSlot := 0, accTick := 0 }] }
        ∧ t.eng e = { en with
            ckpts := en.ckpts.filter (fun c => decide (k < c.slot)), undo := en.undo.filter (fun u => decide (k < u.slot))
            cb := en.cb.filter (fun i => decide (k < i.slot)), reads := en.reads.filter (fun x => decide (k < x.1)), lastCommit := s.clk.slot }
        ∧ (∀ f, f ≠ e.val → t.eng f = u.eng f) ∧ t.reg (Reg.ENG_CSLOT l) = BitVec.ofNat 64 k
        ∧ { t with regs := u.regs, engs := u.engs, arb := u.arb } = u))
  ∧ (∀ s : State, s.arb.ready ≠ [] →
    ∃ g ∈ s.arb.ready, (∀ h ∈ s.arb.ready, g.slot < h.slot ∨ (g.slot = h.slot ∧ g.eng ≤ h.eng)) ∧
      Gives .commitGroupAccept s (fun t =>
        t.arb = { s.arb with
          ready := s.arb.ready.erase g, nextSeq := (s.arb.nextSeq + 1) % 2 ^ 64
          accepted := s.arb.accepted ++ [{ g with seq := s.arb.nextSeq, accSlot := s.clk.slot, accTick := s.clk.tick }] }
        ∧ t.reg (Reg.ENG_CSEQ g.eng) = BitVec.ofNat 64 s.arb.nextSeq ∧ { t with regs := s.regs, arb := s.arb } = s))
  ∧ (∀ (g : Group) (rest : List Group) (s : State), s.arb.accepted = g :: rest → (∀ l : Fin 4, (s.hostOf l).mail = []) →
    (∀ a n v, g.ops = [.store a n v] → 0x100000 ≤ a → a + n ≤ 0x500000 →
      Gives .commitGroupApply s (fun t =>
        (∀ b, Memory.get t.sram b = if a ≤ b + 0x100000 ∧ b + 0x100000 < a + n
          then BitVec.ofNat 8 (v / 256 ^ (n - 1 - (b + 0x100000 - a))) else Memory.get s.sram b)
        ∧ (∀ w, w ∈ t.sramBad ↔ w ∈ s.sramBad ∧ ¬ (n = 8 ∧ w = (a - 0x100000) / 8))
        ∧ { t with sram := s.sram, sramBad := s.sramBad, arb := s.arb } = s ∧ t.arb = { s.arb with accepted := rest }))
    ∧ (∀ a v, g.ops = [.aadd a v] → 0x100000 ≤ a → a + 8 ≤ 0x500000 →
      Gives .commitGroupApply s (fun t =>
        Memory.word t.sram (a - 0x100000) = Memory.word s.sram (a - 0x100000) + v
        ∧ (∀ b, b + 0x100000 < a ∨ a + 8 ≤ b + 0x100000 → Memory.get t.sram b = Memory.get s.sram b)
        ∧ (∀ w, w ∈ t.sramBad ↔ w ∈ s.sramBad ∧ w ≠ (a - 0x100000) / 8)
        ∧ { t with sram := s.sram, sramBad := s.sramBad, arb := s.arb } = s ∧ t.arb = { s.arb with accepted := rest }))
    ∧ (∀ bank mask paths at_, g.ops = [.convset bank mask paths at_] → bank < 24 → g.accSlot + 2 ≤ at_ →
      Gives .commitGroupApply s (fun t =>
        (∀ p : Fin 16, mask.testBit p →
          (t.bk bank).stored p at_ = some { slot := at_, pos := p, fine := paths.testBit p, eng := g.eng })
        ∧ { t with banks := s.banks, arb := s.arb } = s ∧ t.arb = { s.arb with accepted := rest }))
    ∧ (∀ code arg notify, g.ops = [.event code arg notify] →
      Gives .commitGroupApply s (fun t =>
        (∃ r ∈ t.evt.ring, r.seq = s.evt.nextSeq ∧ r.code = code ∧ r.unit = g.eng ∧ r.cls = 1 ∧ r.level = 0 ∧ r.notify = notify
          ∧ r.slot = BitVec.ofNat 64 g.slot ∧ r.d2 = arg ∧ r.d3 = BitVec.ofNat 64 g.seq)
        ∧ { t with regs := s.regs, evt := s.evt, arb := s.arb } = s ∧ t.arb = { s.arb with accepted := rest }))
    ∧ (g.ops = [] → exec .commitGroupApply s = .next { s with arb := { s.arb with accepted := rest } }))

/-- R168 to R173, R211: a squash restores the registers of the checkpoint it returns to, sets the squash indication, writes its cause to
ECAUSE and resumes at the checkpoint's PC (a range misprediction, the oldest uncommitted slot; a mode change, the named slot), at
ENG_REDIR.VEC (a redirect) or at index 4 (an exception, once its slot is the oldest). With RMSQ = 0 a misprediction is only
reported in ECAUSE. -/
def Obligations.EngineSquashes : Prop :=
  ∀ (e : Fin 16) (s : State),
    let en := s.eng e
    let l := s.logical e
    let back := fun (t : State) (k : Checkpoint) (pc : Nat) (cause : W64) =>
      (t.eng e).w = k.w ∧ (t.eng e).p = k.p ∧ (t.eng e).a = k.a ∧ (t.eng e).slot = k.slot ∧ (t.eng e).pc = pc
        ∧ (t.eng e).sq = true ∧ (t.eng e).ecause = cause ∧ (t.eng e).exc = none ∧ (t.eng e).held = [] ∧ (t.eng e).redirs = []
        ∧ (∀ i ∈ (t.eng e).cb, i.slot < k.slot) ∧ (∀ u ∈ (t.eng e).undo, u.slot < k.slot) ∧ (∀ f, f ≠ e.val → t.eng f = s.eng f)
    s.arb.takeovers = [] → en.running = true →
    (∀ c k, en.held = [c] → en.redirs = [] → c.kind = 1 → s.effFlag (Reg.ENG_CTL_RMSQ l) = true → en.oldest ≤ en.slot →
        en.ckpts.find? (fun q => q.slot == en.oldest) = some k →
        Gives (.squash e) s (fun t => back t k k.pc (ecauseWord 1 c.code c.detail c.slot)))
    ∧ (∀ c k, en.held = [c] → en.redirs = [] → c.kind = 3 → en.oldest ≤ c.slot → c.slot ≤ en.slot →
        en.ckpts.find? (fun q => q.slot == c.slot) = some k →
        Gives (.squash e) s (fun t => back t k k.pc (ecauseWord 3 c.code c.detail c.slot)))
    ∧ (∀ c, en.held = [c] → c.kind = 1 → s.effFlag (Reg.ENG_CTL_RMSQ l) = false →
        Gives (.squash e) s (fun t => t.eng e = { en with held := [], ecause := ecauseWord 1 c.code c.detail c.slot }))
    ∧ (∀ r k, en.redirs = [r] → en.held = [] → r.kind = 2 → en.oldest ≤ r.slot → r.slot ≤ en.slot →
        en.ckpts.find? (fun q => q.slot == r.slot) = some k →
        Gives (.redirect e) s (fun t => back t k (s.effF (Reg.ENG_REDIR_VEC l)) (ecauseWord 2 r.code r.detail r.slot)))
    ∧ (∀ w k, en.exc = some w → en.held = [] → en.redirs = [] → en.oldest = en.slot →
        en.ckpts.find? (fun q => q.slot == en.slot) = some k →
        Gives (.exceptionEntry e) s (fun t => back t k 4 w ∧ (t.eng e).vecSlot = some en.slot))
    ∧ (∀ w, en.exc = some w → en.oldest < en.slot → exec (.exceptionEntry e) s = .next s)

/-- R176 to R179: an uncorrectable error stops a running engine at once and leaves its oldest uncommitted slot to a spare; so does the
watchdog, WDOG × 256 slots after the last commit; the lowest free spare is chosen from the next slot on and, when the copy is
complete, resumes at that slot's checkpoint under the engine's ENG_MAP; an engine later than LAGMAX is marked and logged. -/
def Obligations.EngineFaultsAndSpares : Prop :=
  ∀ (e : Fin 16) (s : State),
    let en := s.eng e
    let l := s.logical e
    let covered := s.faultedOnSpare l = false ∧ s.openTakeovers.length < s.freeSpares.length
    let stops := fun (c : Instr) => Gives c s (fun t =>
      (t.eng e).running = false ∧ t.getF (Reg.ENG_STAT_FAULTED e) = 1
      ∧ t.arb.takeovers = s.arb.takeovers ++ [{ eng := l, phys := e, spare := none, detect := s.clk.slot, q := en.oldest }])
    (∀ cause, s.getF (Reg.ENG_STAT_FAULTED e) = 0 → en.running = true → covered → stops (.engFault e cause))
    ∧ (en.running = true → en.lastCommit + s.getF (Reg.ENG_CTL_WDOG l) * 256 < s.clk.slot → covered → stops (.engWatchdog e))
    ∧ (s.clk.slot ≤ en.lastCommit + s.getF (Reg.ENG_CTL_WDOG l) * 256 → exec (.engWatchdog e) s = .next s)
    ∧ (∀ k sp more, s.arb.takeovers = [k] → k.eng = e → k.spare = none → k.detect < s.clk.slot → s.freeSpares = sp :: more →
        Gives (.spareTakeover e) s (fun t => t.arb.takeovers = [{ k with spare := some sp }] ∧ (t.eng sp).used = true))
    ∧ (∀ k sp cp, s.arb.takeovers = [k] → k.eng = e → k.spare = some sp → sp < 16 → sp ≠ k.phys → k.detect + 1 < s.clk.slot →
        (s.eng k.phys).ckpts.find? (fun c => c.slot == k.q) = some cp →
        Gives (.spareResume e false) s (fun t =>
          t.arb.takeovers = [] ∧ t.getF (Reg.ENG_MAP_HOST e) = sp ∧ (t.eng sp).running = true ∧ (t.eng sp).slot = k.q
          ∧ (t.eng sp).w = cp.w ∧ (t.eng sp).pc = cp.pc ∧ (t.eng sp).lmem = (s.eng k.phys).lmem ∧ (t.eng sp).sq = true
          ∧ (t.eng sp).ecause = ecauseWord 5 0 0 k.q))
    ∧ (en.running = true → s.getF (Reg.ENG_STAT_LATE l) = 0 → en.oldest + s.getF (Reg.ENG_CTL_LAGMAX l) < s.clk.slot → l < 16 →
        Gives (.engLate e) s (fun t => t.getF (Reg.ENG_STAT_LATE l) = 1 ∧ Logged s t .ENG_LATE l 0 0))

/-! ### Conversion, pipelines, references -/

/-- R99, R103 to R107: at tick 200 of a slot whose plan is frozen and not yet judged, RESCUE_ARBITRATION judges it: a position is converted fine
exactly where it was predicted fine and is not clipping, the spare path where it is not clipping; of the positions that are enabled, without
substitution, predicted coarse and not clipping the first three in rescue order are rescued and the rest marked coarse; CH_CONVSTAT shows the states
of every position. No other bank changes. A plan that is not frozen for this slot, or judged already, stays as it is. (CH_CONVSTAT.PATH of a channel
that is not enabled is the model's choice: log entry 83.)
R96 to R98, R110, R112: in a conversion cycle of a slot whose plan stands each lane latches its code in the plan where its opportunity converts
a held value, and no other code changes; where it is unused and BANK_CONV.INJ is 1, the slice that has the lane in this slot takes an injection: it
takes its next level, its coefficients move unless FREEZE is 1, and its STARVED bit clears. No other bank changes. Without such a plan nothing
changes.
R40, R120 to R122, R233: at a fast converter clock edge outside Bivouac, and in Descent while a capture record is OPEN, every fast channel takes its
16-bit code, two's complement, under the number of the edge; a code at an end of the range marks the slot. Else the edge does nothing. (Codes are
taken whether or not FC_CFG.EN is set: log entry 89, the model's choice.) -/
def Obligations.ConversionCodes : Prop :=
  (∀ (b : Fin 24) (clip warn : BitVec 17) (s : State),
    let pl := (s.bk b).plan
    let n := s.clk.slot
    let due := pl.live = true ∧ pl.slot = n ∧ pl.judged = false ∧ s.heldAt n = true
    let mis := maskOf (fun p => s.chOn (16 * b.val + p) && ((s.bk b).substAt p n).isNone && !pl.pred.testBit p && !clip.getLsbD p)
    let order := s.rescueOrder b n mis
    (due → Gives (.rescueArbitration b clip warn) s (fun t =>
        let q := (t.bk b).plan
        q.judged = true ∧ q.clip = clip.toNat ∧ q.rescued = order.take 3 ∧ q.slot = n ∧ q.codes = pl.codes
        ∧ (∀ p : Fin 16, q.path.testBit p = (pl.pred.testBit p && !clip.getLsbD p)) ∧ q.path.testBit 16 = !clip.getLsbD 16
        ∧ (∀ p : Fin 16, q.coarse.testBit p = (order.drop 3).contains p.val)
        ∧ (∀ p : Fin 16,
            let c := 16 * b.val + p.val
            t.getF (Reg.CH_CONVSTAT_WARNST c) = (if warn.getLsbD p then 1 else 0)
            ∧ t.getF (Reg.CH_CONVSTAT_CLIPST c) = (if clip.getLsbD p then 1 else 0)
            ∧ t.getF (Reg.CH_CONVSTAT_PATH c)
                = (if pl.pred.testBit p && !clip.getLsbD p || (order.take 3).contains p.val then 1 else 0))
        ∧ (∀ d, d ≠ b.val → t.bk d = s.bk d) ∧ { t with banks := s.banks, regs := s.regs, engs := s.engs } = s))
    ∧ (¬ due → exec (.rescueArbitration b clip warn) s = .next s))
  ∧ (∀ (b : Fin 24) (cycle : Fin 5) (c0 c1 c2 c3 : BitVec 18) (s : State),
    let pl := (s.bk b).plan
    let due := pl.live = true ∧ pl.slot = s.clk.slot ∧ s.heldAt s.clk.slot = true
    (due → Gives (.conversionCycle b cycle c0 c1 c2 c3) s (fun t =>
        (∀ l : Fin 4,
          let o := 4 * cycle.val + l.val
          let c := [c0, c1, c2, c3].getD l.val 0
          let k := (l.val + s.clk.slot) % 4
          (pl.used o = true → (t.bk b).plan.codes.get (fun _ => none) o = some c ∧ (t.bk b).slices.get (fun _ => {}) k = (s.bk b).slices.get (fun _ => {}) k)
          ∧ (pl.used o = false → s.getF (Reg.BANK_CONV_INJ b) = 1 →
            let n := (s.bk b).injStep.get (fun _ => 0) k
            let old := (s.bk b).slices.get (fun _ => {}) k
            (t.bk b).lastInj.get (fun _ => 0) k = s.clk.slot ∧ (t.bk b).injStep.get (fun _ => 0) k = (n + 1) % 16
            ∧ (t.bk b).slices.get (fun _ => {}) k
                = (if s.getF (Reg.BANK_CONV_FREEZE b) = 1 then old else old.inject (Config.injOrder k (Fin.ofNat 16 n)).val c.toInt)
            ∧ (t.getF (Reg.BANK_CONVSTAT_STARVED b)).testBit k = false))
        ∧ (∀ o, o / 4 ≠ cycle.val → (t.bk b).plan.codes.get (fun _ => none) o = pl.codes.get (fun _ => none) o)
        ∧ (∀ d, d ≠ b.val → t.bk d = s.bk d) ∧ { t with banks := s.banks, regs := s.regs } = s))
    ∧ (¬ due → exec (.conversionCycle b cycle c0 c1 c2 c3) s = .next s))
  ∧ (∀ (codes : BitVec 128) (s : State),
    (s.cur ≠ 0 → s.cur ≠ 7 ∨ (∃ u < 8, s.trgState u = 3) →
      Gives (.fastConverterSample codes) s (fun t =>
        ∀ k : Fin 8,
          let v := (codes.extractLsb' (16 * k.val) 16).toInt
          let f := s.fasts.get (fun _ => {}) k.val
          t.fasts.get (fun _ => {}) k.val
            = { f with codes := (s.clk.uptime / 32, v) :: f.codes.take 8191, railed := f.railed || v == 32767 || v == -32768 }))
    ∧ (s.cur = 0 ∨ (s.cur = 7 ∧ ∀ u < 8, s.trgState u ≠ 3) → exec (.fastConverterSample codes) s = .next s))

/-- R109, R118, R132, R148, R150: at the pipeline input the raw value of every enabled position that its path or a substitution delivers is
kept under its slot; the fast channels' raw values likewise, with TUNL by the lock at the slot; and at tick 0 of slot m + 6 the VALUE word of output instant m stands in the
output buffer, with VALUE, CHAN, FLAGS (TUNL by the lock at m) and SLOT_LO. -/
def Obligations.SamplesReachTheBuffer : Prop :=
  (∀ (b : Fin 24) (h : b.val < 25) (clip : BitVec 16) (s : State),
    let x := s.bk b
    let n := x.prev.slot
    x.prev.live = true → x.prev.judged = true → n + 1 = s.clk.slot → s.heldAt n = true → x.missing n = false →
      Gives (.rawValueToPipeline ⟨b.val, h⟩ clip) s (fun t =>
        ∀ p : Fin 16, p.val ∈ s.enabledPos b → ∀ r, s.rawOf x x.prev b p (clip.getLsbD p) = some r →
          (t.flt (16 * b.val + p.val)).raws.get (fun _ => none) n = some r))
  ∧ (∀ (k : Fin 8) (clip : BitVec 16) (v : Int) (s : State),
      s.heldAt (s.clk.slot - 1) = true → s.effFlag (Reg.FC_CFG_EN k) = true → s.fastRaw k (s.clk.slot - 1) = some v →
      Gives (.rawValueToPipeline 24 clip) s (fun t =>
        (t.flt (384 + k.val)).raws.get (fun _ => none) (s.clk.slot - 1)
          = some { value := v, flags := (if s.lockedAt (s.clk.slot - 1) then 0 else 2), refu := !s.fabric.fastSettled, clip := false }))
  ∧ (∀ (c : Fin 392) (e : FltEntry) (nxt : Option FltEntry) (l : List Raw) (s : State),
      let m := s.clk.slot - 6
      s.outputAt c m = some (e, nxt, l) → (∀ o ∈ (s.flt c).outs, o.at_ ≠ m) →
      Gives (.outputWordReady c) s (fun t =>
        (t.flt c).word 0 m = some (sampleWord ((s.flt c).output e.set (s.tapsFor c e.set.preset m) m).1 c
          (orFlags l ||| (if s.lockedAt m then 0 else 2)) m)))

/-- R111, R112: once a window of 2^18 slots of acquisition has passed, an offset-track update begins the next one, empties the sums of the bank and moves the offsets of the two halves of each path by the same step in
opposite directions, held within 2^26; before that it does nothing (the window counts from the acquisition: log entry 84, the model's choice); a slice without an injection for 2^18 slots of acquisition is marked STARVED and logged, once.
R116, R117, R122: a reference that is enabled and has been quiet for 256 slots becomes SETTLED; one that varies loses SETTLED, is logged, and its
quiet slots count afresh; REF_EXT not settled by the 5,000th slot is logged; out of its window for an acquiring bank it gives way to the internal
reference, whose SETTLED waits anew. -/
def Obligations.OffsetsAndReferences : Prop :=
  ((∀ (b : Fin 24) (s : State),
    let x := s.bk b
    (s.acquiring = false ∨ s.clk.slot < x.trackFrom + 2 ^ 18 → exec (.offsetTrackUpdate b) s = .next s)
    ∧ (s.acquiring = true → x.trackFrom + 2 ^ 18 ≤ s.clk.slot → Gives (.offsetTrackUpdate b) s (fun t =>
      (t.bk b).sums = [] ∧ (t.bk b).trackFrom = s.clk.slot ∧ (∀ d, d ≠ b.val → t.bk d = s.bk d) ∧ { t with banks := s.banks } = s
      ∧ ∀ (p : Fin 19) (fine : Bool),
          let st := (x.sums.get (fun _ => {}) (scaleKey p fine)).step fine
          let d := fun (y : BankSt) (h : Nat) => (y.halves.get (fun _ => {}) (halfKey p fine h)).d
          d (t.bk b) 0 = max (-2 ^ 26) (min (2 ^ 26) (d x 0 + st)) ∧ d (t.bk b) 1 = max (-2 ^ 26) (min (2 ^ 26) (d x 1 - st)))))
  ∧ (∀ (b : Fin 24) (k : Fin 4) (s : State),
      s.acquiring = true → max ((s.bk b).lastInj.get (fun _ => 0) k) (s.mode.entry.getD 0) + 2 ^ 18 ≤ s.clk.slot → (s.getF (Reg.BANK_CONVSTAT_STARVED b)).testBit k = false →
      Gives (.convStarved b k) s (fun t =>
        (t.getF (Reg.BANK_CONVSTAT_STARVED b)).testBit k = true ∧ Logged s t .CONV_STARVED b (BitVec.ofNat 64 k.val) 0)))
  ∧ ((∀ (b : Fin 24) (h : b.val < 25) (s : State), (s.bk b).refOnAt.isSome = true → (s.bk b).quietFrom + 256 ≤ s.clk.slot →
    Gives (.referenceSettled ⟨b.val, h⟩) s (fun t => t.getF (Reg.BANK_REF_SETTLED b) = 1 ∧ { t with regs := s.regs } = s))
  ∧ (∀ (b : Fin 24) (h : b.val < 25) (s : State), s.clk.slot < (s.bk b).quietFrom + 256 → exec (.referenceSettled ⟨b.val, h⟩) s = .next s)
  ∧ (∀ s : State, s.fabric.fastRefAt.isSome = true → s.fabric.fastQuiet + 256 ≤ s.clk.slot →
      Gives (.referenceSettled 24) s (fun t => t.fabric = { s.fabric with fastSettled := true } ∧ { t with fabric := s.fabric } = s))
  ∧ (∀ (b : Fin 24) (s : State) (t0 : Nat), (s.bk b).refOnAt = some t0 → t0 + 5000 ≤ s.clk.slot → s.getF (Reg.BANK_REF_ACT b) = 1 →
      s.getF (Reg.BANK_REF_SETTLED b) = 0 → (s.bk b).lateLogged = false →
      Gives (.refSettleLate b) s (fun t => (t.bk b).lateLogged = true ∧ Logged s t .REF_SETTLE_LATE b 0 0))
  ∧ (∀ (b : Fin 24) (h : b.val < 25) (s : State), s.getF (Reg.BANK_REF_SETTLED b) = 1 →
      Gives (.refUnstable ⟨b.val, h⟩) s (fun t => t.getF (Reg.BANK_REF_SETTLED b) = 0 ∧ (t.bk b).quietFrom = s.clk.slot
        ∧ Logged s t .REF_UNSTABLE b 0 0))
  ∧ (∀ s : State, s.fabric.fastSettled = true →
      Gives (.refUnstable 24) s (fun t => t.fabric = { s.fabric with fastSettled := false, fastQuiet := s.clk.slot } ∧ Logged s t .REF_UNSTABLE 24 0 0))
  ∧ (∀ (b : Fin 24) (s : State), s.acquiring = true → s.getF (Reg.BANK_REF_ACT b) = 1 →
      Gives (.refFallback b) s (fun t =>
        t.getF (Reg.BANK_REF_ACT b) = 0 ∧ t.getF (Reg.BANK_REF_FALLBACK b) = 1 ∧ t.getF (Reg.BANK_REF_SETTLED b) = 0
        ∧ (t.bk b).refOnAt = some s.clk.slot ∧ Logged s t .REF_FALLBACK b 0 0
        ∧ ((s.cal b).stage ≠ 0 → (t.cal b).abandon = true ∧ (t.cal b).restart = true))))

/-! ### Excitation, supervision, wire breaks -/

/-- R70, R75 to R77: a DC ramp ends at its target level or removed; at a zero crossing of the carrier of its drive an AC drive of the bank that waits
for it starts, takes its level or stops, and no other channel changes; the spare takes the position and settings in force and settles 8, 16
or 32 slots on. -/
def Obligations.DriveTransitions : Prop :=
  (∀ (c : Fin 384) (s : State), (s.ch c).due ≤ s.clk.slot → (s.ch c).drive = .rampUp →
    Gives (.excitationRampEnd c) s (fun t => (t.ch c).drive = .on ∧ (t.ch c).level = (s.ch c).target ∧ { t with chans := s.chans } = s))
  ∧ (∀ (c : Fin 384) (s : State), (s.ch c).due ≤ s.clk.slot → (s.ch c).drive = .rampDown →
    Gives (.excitationRampEnd c) s (fun t => (t.ch c).drive = .off ∧ (t.ch c).level = 0 ∧ { t with chans := s.chans } = s))
  ∧ (∀ (b : Fin 24) (s : State),
      Gives (.carrierZeroCrossing b) s (fun t =>
        (∀ p : Fin 16,
          let c := 16 * b.val + p.val
          let x := s.ch c
          let here := x.ac = true ∧ zeroCrossing (s.reg (Reg.BANK_PHASE b)).toNat x.k s.clk.slot = true
          (here → x.drive = .waitStart ∨ x.drive = .waitLevel → (t.ch c).drive = .on ∧ (t.ch c).level = x.target)
          ∧ (here → x.drive = .waitStop → (t.ch c).drive = .off ∧ (t.ch c).level = 0) ∧ (¬ here → t.ch c = x))
        ∧ (∀ c, c / 16 ≠ b.val → t.ch c = s.ch c) ∧ { t with chans := s.chans } = s))
  ∧ (∀ (b : Fin 24) (s : State),
      let p := s.effF (Reg.BANK_SPARE_POS b)
      let aaf := s.effF (Reg.CH_CFG_AAF (16 * b.val + p))
      s.effF (Reg.BANK_SPARE_CONN b) = 1 → (s.bk b).xp ≠ some p →
      Gives (.crosspointSwitch b) s (fun t =>
        (t.bk b).xp = some p ∧ (t.bk b).xpSettle = s.clk.slot + (if aaf = 0 then 8 else if aaf = 1 then 16 else 32)
        ∧ (t.bk b).spareAaf = aaf ∧ (t.bk b).spareRange = s.effF (Reg.CH_CFG_RANGE (16 * b.val + p))
        ∧ (∀ d, d ≠ b.val → t.bk d = s.bk d) ∧ { t with banks := s.banks } = s))
  ∧ (∀ (b : Fin 24) (s : State), s.effF (Reg.BANK_SPARE_CONN b) = 0 → (s.bk b).xp ≠ none →
      Gives (.crosspointSwitch b) s (fun t => (t.bk b).xp = none ∧ { t with banks := s.banks } = s))

/-- R89 to R92: at the end of a slot its energy enters the 250-slot window and ILIM shows the limiter; a driven channel whose window exceeds
PO · 50 nJ, or whose limiter stood for 64 slots, is tripped: the drive is removed at once, DRIVE_OFF and the SEEN bit are set and the condition is
logged.
R76, R80, R91: after its hold-off a removed drive begins again and DRIVE_OFF clears; a run of trips ends 10 s (2,500,000 slots) after its last;
an operator clears the latch and the run with it, a port below operator is refused, a port that may not write is turned away; 64 slots after
a start G_ref and C_ref are the least-squares solution over those slots, and free values where that is not unique. -/
def Obligations.ExcitationSupervision : Prop :=
  ((∀ (c : Fin 384) (energy : Int) (square : Nat) (vEnd : Int) (limiter : Bool) (s : State),
    let w := (energy :: (s.ch c).win).take 250
    let most : Int := ((50000 * s.effF (Reg.CH_EXCFG_PO c) : Nat) : Int)
    (w.sum ≤ most ∨ (s.ch c).drive.driving = false →
      Gives (.supervisorEvaluation c energy square vEnd limiter) s (fun t =>
        (t.ch c).win = w ∧ (t.ch c).drive = (s.ch c).drive ∧ (t.ch c).level = (s.ch c).level ∧ (t.ch c).vEnd = vEnd
        ∧ t.getF (Reg.CH_STATUS_ILIM c) = (if limiter then 1 else 0) ∧ (∀ d, d ≠ c.val → t.ch d = s.ch d)
        ∧ { t with chans := s.chans, regs := s.regs } = s))
    ∧ ((s.ch c).drive.driving = true → most < w.sum →
      Gives (.supervisorEvaluation c energy square vEnd limiter) s (fun t =>
        (t.ch c).drive.driving = false ∧ (t.ch c).level = 0 ∧ t.getF (Reg.CH_STATUS_DRIVE_OFF c) = 1
        ∧ t.getF (Reg.CH_STATUS_LIMIT_SEEN c) = 1 ∧ Logged s t .EX_LIMIT c (BitVec.ofNat 64 s.clk.slot) 0)))
  ∧ (∀ (c : Fin 384) (s : State), 64 ≤ (s.ch c).limRun → (s.ch c).drive.driving = true →
      Gives (.exShort c) s (fun t =>
        (t.ch c).drive.driving = false ∧ (t.ch c).level = 0 ∧ t.getF (Reg.CH_STATUS_DRIVE_OFF c) = 1
        ∧ t.getF (Reg.CH_STATUS_SHORT_SEEN c) = 1 ∧ Logged s t .EX_SHORT c (BitVec.ofNat 64 s.clk.slot) 0)))
  ∧ ((∀ (c : Fin 384) (s : State) (t0 : Nat), (s.ch c).retryAt = some t0 → t0 ≤ s.clk.slot → (s.ch c).drive = .removed → s.mayDrive c = true →
    Gives (.excitationRetry c) s (fun t =>
      (t.ch c).drive = (if s.exMode (c.val / 16) = 2 then .waitStart else .rampUp) ∧ (t.ch c).target = s.effF (Reg.CH_EXCFG_LEVEL c)
      ∧ (t.ch c).gRef = (s.ch c).gRef ∧ t.getF (Reg.CH_STATUS_DRIVE_OFF c) = 0))
  ∧ (∀ (c : Fin 384) (s : State) (t0 : Nat), (s.ch c).lastTrip = some t0 → t0 + 2500000 ≤ s.clk.slot →
      Gives (.tripRunEnd c) s (fun t =>
        t.ch c = { s.ch c with runTrips := 0, lastTrip := none } ∧ (∀ d, d ≠ c.val → t.ch d = s.ch d) ∧ { t with chans := s.chans } = s))
  ∧ (∀ (port : Port) (c : Fin 384) (s : State), s.portOpen port (Reg.CH_STATUS c) = false → exec (.latchClear port c) s = .next s)
  ∧ (∀ (port : Port) (c : Fin 384) (s : State), s.portOpen port (Reg.CH_STATUS c) = true → 1 ≤ s.classOf port → s.getF (Reg.CH_STATUS_EX_LATCH c) = 1 →
      Gives (.latchClear port c) s (fun t =>
        t.getF (Reg.CH_STATUS_EX_LATCH c) = 0 ∧ t.getF (Reg.CH_STATUS_DRIVE_OFF c) = 0 ∧ (t.ch c).runTrips = 0
        ∧ ((s.setF (Reg.CH_STATUS_EX_LATCH c) 0).mayDrive c = false → (t.ch c).drive = .off)))
  ∧ (∀ (port : Port) (c : Fin 384) (s : State), s.portOpen port (Reg.CH_STATUS c) = true → s.classOf port = 0 →
      Gives (.latchClear port c) s (fun t =>
        Logged s t .SYS_AUTH_DENIED c (BitVec.ofNat 64 (Reg.CH_STATUS c)) (BitVec.ofNat 64 port.val)
        ∧ { t with regs := s.regs, evt := s.evt } = s))
  ∧ (∀ (c : Fin 384) (t0 : Nat) (s : State), (s.ch c).startAt = some t0 → t0 + 64 ≤ s.clk.slot → (s.ch c).gRef = none →
      let f := (s.ch c).fit
      let det := f.qq * f.hh - f.qh * f.qh
      Gives (.grefLearned c) s (fun t =>
        (∃ r, t.ch c = { s.ch c with gRef := some r }
          ∧ (0 < det → r = { g := f.eq * f.hh - f.eh * f.qh, c := f.eh * f.qq - f.eq * f.qh, det := det }))
        ∧ (∀ d, d ≠ c.val → t.ch d = s.ch d) ∧ { t with chans := s.chans, fresh := s.fresh } = s)))

/-- R80 to R86, R382: two evaluated slots in a row below G_ref / 4, or a residue of the bias beyond VTH, on a channel whose detector runs and whose
lead is not open yet set its state bit and WB_SEEN, and the record carries the slot of the break and its bound; a lead whole for 256 evaluations
clears its bit. In Belay the factor of an excited bank is, after each window of 2^16 slots, the expected amplitude over the measured one, in 2^-20. -/
def Obligations.WireBreakDetection : Prop :=
  (∀ (c : Fin 384) (s : State), s.detects c = true → s.effFlag (Reg.CH_WB_EXC c) = true → (s.ch c).drive.held = true →
    2 ≤ (s.ch c).low → (s.ch c).open_ .exc = false →
    Gives (.wbExcOpen c) s (fun t =>
      t.getF (Reg.CH_STATUS_WB_EXC c) = 1 ∧ t.getF (Reg.CH_STATUS_WB_SEEN c) = 1 ∧ (t.ch c).open_ .exc = true
      ∧ Logged s t .WB_EXC_OPEN c (BitVec.ofNat 64 s.clk.slot) (BitVec.ofNat 64 (breakBound .exc (s.exMode (c.val / 16)) (s.carrierK (c.val / 16))))))
  ∧ (∀ (c : Fin 384) (r : Int × Nat) (s : State), s.detects c = true → s.effFlag (Reg.CH_WB_SENSE c) = true →
      s.effFlag (Reg.CH_WB_BIAS c) = true → s.pair.windowEnd.get (fun _ => 0) (c.val / 16) = 0 →
      (s.ch c).sense.resid = some r → s.vthScaled c r.2 < 2500 * r.1.natAbs → (s.ch c).open_ .sense = false →
      Gives (.wbSenseOpen c) s (fun t =>
        t.getF (Reg.CH_STATUS_WB_SENSE c) = 1 ∧ t.getF (Reg.CH_STATUS_WB_SEEN c) = 1 ∧ (t.ch c).open_ .sense = true
        ∧ Logged s t .WB_SENSE_OPEN c (BitVec.ofNat 64 s.clk.slot)
            (BitVec.ofNat 64 (breakBound .sense (s.exMode (c.val / 16)) (s.carrierK (c.val / 16))))))
  ∧ (∀ (c : Fin 384) (lead : Lead) (s : State), s.evaluates c lead = true →
      256 ≤ (match lead with | .exc => (s.ch c).whole | .sense => (s.ch c).sense.whole) → (s.ch c).open_ lead = true →
      Gives (.wbRestored c lead) s (fun t =>
        t.getF (match lead with | .exc => Reg.CH_STATUS_WB_EXC c | .sense => Reg.CH_STATUS_WB_SENSE c) = 0
        ∧ (t.ch c).open_ lead = false ∧ Logged s t .WB_RESTORED c (BitVec.ofNat 64 s.clk.slot) 0))
  ∧ (∀ (b : Fin 24) (measured : Nat) (s : State), s.belay = true → measured ≠ 0 → s.exMode b ≠ 0 → (s.bk b).factorFrom + 2 ^ 16 ≤ s.upSlots →
      Gives (.bankFactorUpdate b measured) s (fun t =>
        t.bk b = { s.bk b with factor := (roundEven (2 ^ 40) measured).toNat, factorFrom := s.upSlots }
        ∧ (∀ d, d ≠ b.val → t.bk d = s.bk d) ∧ { t with banks := s.banks } = s))

/-! ### Start-up, modes, the slot -/

/-- R42 to R48, R427: the phases of start-up in their order: the straps give the classes of L0 and SP; the PLL; the loader takes a usable
running image; every lane begins its bring-up by its EN and FIXRATE; the configuration store chosen is shown with its START (for a
store without register records and without an overlay bound to Basecamp); DRAM holds nothing of before; the hub runs in Basecamp and waits TSET_WAIT seconds for the
initial set, after which the time mark sets the sampling time base and TIME_START_MARK is logged.
R35, R42, R47, R466: a reset leaves every register but the four that show the update areas at its reset value, the memories empty and
the drives off; the flash (configuration stores, time marks, update areas, persistent log, calibration sets) and the commands
outside stay. -/
def Obligations.StartUpAndReset : Prop :=
  (∀ s : State,
    (∀ x : Straps, s.mode.phase = .held → Gives (.startUp x true) s (fun t =>
      t.mode.phase = .straps ∧ t.getF Reg.SYS_AUTH_L0 = x.auth.toNat / 4 ∧ t.getF Reg.SYS_AUTH_SP = x.auth.toNat % 4
      ∧ t.getF Reg.PAIR_STAT_DESIG = (if x.pairRole then 1 else 0) ∧ { t with regs := s.regs, mode := s.mode } = s))
    ∧ (s.mode.phase = .straps → exec .rootPllLock s = .next { s with
        mode := { s.mode with phase := .locked }, fabric := { s.fabric with fastRefAt := some s.now, fastQuiet := s.now, fastSettled := false } })
    ∧ (s.mode.phase = .locked → s.copying = false → s.upd.recover = false → s.copyPending = false → s.runUsable = true →
        exec .loaderDecision s = .next { s with mode := { s.mode with phase := .loaded } })
    ∧ (s.mode.phase = .loaded → Gives .laneBringUp s (fun t =>
        t.mode.phase = .lanes ∧ ∀ l : Fin 4, t.laneState l =
          (if s.getF (Reg.LANE_CFG_EN l) = 0 then 0 else if s.getF (Reg.LANE_CFG_FIXRATE l) = 0 then 1 else 3)))
    ∧ (s.mode.phase = .lanes → s.cur ≠ 0 → Gives .configLoad s (fun t => t.mode.phase = .configured
        ∧ ∀ k : Fin 2, s.chooseStore = some k.val → (s.storeOf k).records = [] → (∀ o ∈ (s.storeOf k).overlays, o.bind ≠ 1) →
          t.getF Reg.CFG_STATUS_LOADED = 1 ∧ t.getF Reg.CFG_STATUS_STORE = k.val ∧ t.cfg.params = (s.storeOf k).params))
    ∧ (s.mode.phase = .configured → exec .dramTraining s = .next { s with
        dram := [], poison := [], cap := { s.cap with mem := [], bad := [] }, mode := { s.mode with phase := .trained } })
    ∧ (s.mode.phase = .trained → (firmwareSections s.runWord).2 = true → s.getF Reg.CFG_STATUS_LOADED = 0 →
        Gives .programLoad s (fun t =>
          t.mode.phase = .running ∧ t.getF Reg.UPD_VER_ACT = headerVersion s.runWord
          ∧ t.mode.setWaitEnd = (if s.unset then some (s.clk.uptime + s.cfg.params.tsetWait * 3200000000) else none)))
    ∧ (∀ t0, s.mode.setWaitEnd = some t0 → t0 ≤ s.clk.uptime → s.unset = true →
        Gives .tsetWaitExpiry s (fun t => t.unset = false ∧ Logged s t .TIME_START_MARK s.sampTb 0 0)))
  ∧ (∀ s : State, Gives .reset s (fun t =>
    t.mode.phase = .held ∧ t.sram = [] ∧ t.dram = [] ∧ t.engs = [] ∧ t.chans = [] ∧ t.pending = s.pending
    ∧ (∀ a, a ∉ [Reg.UPD_STAGE, Reg.UPD_STAT, Reg.UPD_SVER, Reg.UPD_VER] → t.reg a = Reg.resetValue a)
    ∧ t.cfg.stores = s.cfg.stores ∧ t.mode.marks = s.mode.marks ∧ t.upd.stage = s.upd.stage ∧ t.upd.run = s.upd.run
    ∧ t.upd.journal = s.upd.journal ∧ t.evt.flash = s.evt.flash ∧ t.calh.flash = s.calh.flash))

/-- R32, R33, R35, R352, R384: a write of SYS_MODE_REQ by a port that may write is tested in order: the transition table, the class it asks, a pending
transition, the slot named (16 slots ahead at least, and none while the sampling time base is unset); an accepted request stands in PENDV and PEND
with its slot, which while the time base is unset is still open, and SYS_MODE.CUR keeps the present mode; Descent asked for while it is unset comes
at once. A cancel by the port that asked withdraws the transition and logs its slot. In Belay all but Descent from a maintenance port is refused. A
port that may not write is turned away.
R34, R36, R37, R46: a transition between Basecamp, Ascent and Summit takes effect at its slot (outside a pair): SYS_MODE and SYS_MODE_SLOT
change; an entry opens the span of acquired slots, a stop leaves the converters 3 slots and the streams 6 + L slots more; at the drain end
writing is held; while acquiring the seconds of the sampling time base are marked each 2^26 slots: a record with the next sequence number and its
CRC-32C in the place after the newest valid one, whose sector of 256 is erased before its first place is written. -/
def Obligations.ModeRequestsAndTransitions : Prop :=
  (∀ (port : Port) (at_ : Bool) (target : BitVec 3) (s : State),
    let tg := target.toNat
    let req := Instr.modeRequest port at_ target
    let legal := fun k : Nat =>
      (s.cur, tg, k) ∈ [(1, 3, 1), (1, 4, 1), (3, 4, 1), (3, 1, 1), (4, 3, 1), (4, 1, 1), (1, 2, 2), (3, 2, 2)]
      ∨ (s.cur = 1 ∧ tg = 5 ∧ k = 2 ∧ ∃ l : Fin 4, s.pairRole l = true) ∨ (s.cur = 2 ∧ tg = s.prior ∧ tg ≠ 7 ∧ k = 2)
      ∨ (s.cur ≠ 0 ∧ tg = 7 ∧ k = 3)
    let when_ := if at_ then (s.copy port Reg.SYS_MODE_AT).toNat else s.now + 16
    let no := fun c => Refuses req s c 0 Reg.SYS_MODE_REQ port
    let free := s.getF Reg.SYS_MODE_PENDV = 0
    (s.portOpen port Reg.SYS_MODE_REQ = false → exec req s = .next s ∧ exec (.modeCancel port) s = .next s)
    ∧ (s.portOpen port Reg.SYS_MODE_REQ = true → s.belay = true →
        (tg ≠ 7 ∨ s.classOf port < 3 → no .PAIR_MIRRORED) ∧ Refuses (.modeCancel port) s .PAIR_MIRRORED 0 Reg.SYS_MODE_REQ port)
    ∧ (s.portOpen port Reg.SYS_MODE_REQ = true → s.belay = false →
      ((∀ k, ¬ legal k) → no .SYS_MODE_ILLEGAL)
      ∧ (∀ k, legal k → s.classOf port < k → no .SYS_MODE_AUTH)
      ∧ (∀ k, legal k → k ≤ s.classOf port → s.getF Reg.SYS_MODE_PENDV = 1 → no .SYS_MODE_BUSY)
      ∧ (∀ k, legal k → k ≤ s.classOf port → free → when_ < s.now + 16 ∨ (at_ = true ∧ s.unset = true) → no .SYS_MODE_LATE)
      ∧ (∀ k, legal k → k ≤ s.classOf port → free → s.unset = false → s.now + 16 ≤ when_ →
          Gives req s (fun t =>
            t.getF Reg.SYS_MODE_PENDV = 1 ∧ t.getF Reg.SYS_MODE_PEND = tg ∧ t.cur = s.cur ∧ t.mode.pendAt = some when_
            ∧ t.mode.pendPort = port))
      ∧ (∀ k, legal k → k ≤ s.classOf port → free → s.unset = true → at_ = false →
          Gives req s (fun t =>
            (tg ≠ 7 → t.getF Reg.SYS_MODE_PENDV = 1 ∧ t.getF Reg.SYS_MODE_PEND = tg ∧ t.cur = s.cur ∧ t.mode.pendAt = none)
            ∧ (tg = 7 → t.cur = 7 ∧ t.getF Reg.SYS_MODE_PENDV = 0)))
      ∧ (free → Refuses (.modeCancel port) s .SYS_MODE_NOPEND 0 Reg.SYS_MODE_REQ port)
      ∧ (s.getF Reg.SYS_MODE_PENDV = 1 → s.mode.pendPort ≠ port →
          Refuses (.modeCancel port) s .SYS_MODE_CANCEL_PORT 0 Reg.SYS_MODE_REQ port)
      ∧ (∀ p, s.getF Reg.SYS_MODE_PENDV = 1 → s.mode.pendPort = port → s.mode.pendAt = some p → p < s.now + 2 →
          Refuses (.modeCancel port) s .SYS_MODE_LATE 0 Reg.SYS_MODE_REQ port)
      ∧ (∀ p, s.getF Reg.SYS_MODE_PENDV = 1 → s.mode.pendPort = port → s.mode.pendAt = some p → s.now + 2 ≤ p →
          Gives (.modeCancel port) s (fun t =>
            t.getF Reg.SYS_MODE_PENDV = 0 ∧ t.mode.pendAt = none ∧ t.cur = s.cur ∧ Logged s t .SYS_MODE_CANCELLED 0 (BitVec.ofNat 64 p) 0))))
  ∧ (∀ s : State,
    (∀ m, s.mode.pendAt = some m → m ≤ s.now → s.getF Reg.SYS_MODE_PENDV = 1 → s.overlayDue = false →
      s.mode.pendCause ≠ 4 ∨ s.swapDue = false → s.pairOn = false → s.cur ∈ [1, 3, 4] → s.getF Reg.SYS_MODE_PEND ∈ [1, 3, 4] →
      Gives .modeTransition s (fun t =>
        t.cur = s.getF Reg.SYS_MODE_PEND ∧ t.reg Reg.SYS_MODE_SLOT = BitVec.ofNat 64 m ∧ t.getF Reg.SYS_MODE_PENDV = 0
        ∧ (s.cur = 1 → t.cur ≠ 1 → t.mode.entry = some m ∧ t.mode.writing = true)
        ∧ (s.cur ≠ 1 → t.cur = 1 → t.mode.leave = some m ∧ t.mode.stopAt = some (m + 4) ∧ t.mode.drain = some (m + 7 + s.lagMax))))
    ∧ (∀ d, s.mode.drain = some d → d ≤ s.now → Gives .drainEnd s (fun t => t.mode.drain = none ∧ t.mode.writing = false))
    ∧ (∀ u k m, s.acquiring = true → s.mode.markAt = some u → u + 2 ^ 26 ≤ s.now → s.newestMark = some (k, m) →
        Gives .timeMark s (fun t =>
          let at_ := (k + 1) % 4096
          let sec := (s.tb s.sampTb).sec
          let seq := (m.seq + 1) % 2 ^ 32
          t.mode.marks.get (fun _ => none) at_ = some { sec := sec, seq := seq, crc := markCrc sec seq }
          ∧ (∀ j, j ≠ at_ → j / 256 ≠ at_ / 256 ∨ at_ % 256 ≠ 0 → t.mode.marks.get (fun _ => none) j = s.mode.marks.get (fun _ => none) j)
          ∧ (∀ j, j ≠ at_ → j / 256 = at_ / 256 → at_ % 256 = 0 → t.mode.marks.get (fun _ => none) j = none)
          ∧ t.mode.markAt = some s.now ∧ { t with mode := s.mode } = s))
    ∧ (∀ u, s.mode.markAt = some u → s.now < u + 2 ^ 26 → exec .timeMark s = .next s))

/-- R438, R466, R480, R501: a rail out of range, a lost root PLL and an expired service watchdog escalate to hub level: a running hub outside
Descent logs HUB_ESCALATED and enters Descent at the next slot; a hub in Descent absorbs them. A test instruction that acts on the
pins sends an acquiring hub into Descent first and acts at its entry; any other is taken at once. -/
def Obligations.HubFaultsAndTestPort : Prop :=
  ∀ s : State,
    let falls := fun t : State => t.getF Reg.SYS_MODE_PENDV = 1 ∧ t.getF Reg.SYS_MODE_PEND = 7 ∧ t.mode.pendAt = some (s.now + 1)
      ∧ t.cur = s.cur
    let code := BitVec.ofNat 64 Cond.HUB_ESCALATED.code
    (s.runs = true → s.cur ≠ 0 → s.cur ≠ 7 → s.falling = false → s.unset = false →
      Gives .rootPllUnlock s (fun t => falls t ∧ t.mode.pendCause = 5 ∧ Logged s t .HUB_ESCALATED 0 code 0)
      ∧ Gives .serviceWatchdog s (fun t => falls t ∧ t.mode.pendCause = 5 ∧ Logged s t .HUB_ESCALATED 0 code 0)
      ∧ ∀ rail : Fin 10, Gives (.supplyMonitorFault rail) s (fun t => falls t ∧ t.mode.pendCause = 5
          ∧ (rail ≠ 2 → rail ≠ 3 → Logged s t .HUB_ESCALATED 0 code (BitVec.ofNat 64 rail.val))
          ∧ (rail = 2 ∨ rail = 3 → ∀ b < 25, t.refSettled b = false)))
    ∧ (s.cur = 7 → exec .rootPllUnlock s = .next s ∧ exec .serviceWatchdog s = .next s)
    ∧ (∀ op, op = .extest ∨ op = .clamp ∨ op = .highz → s.acquiring = true →
        (s.falling = true → exec (.tapInstructionLoad op) s = .next { s with mode := { s.mode with tapWait := some op } })
        ∧ (s.falling = false → Gives (.tapInstructionLoad op) s (fun t => falls t ∧ t.mode.pendCause = 6 ∧ t.mode.tapWait = some op ∧ t.mode.tap = s.mode.tap)))
    ∧ (∀ op, s.acquiring = false ∨ op = .bypass ∨ op = .samplePreload → op ≠ .idcode →
        exec (.tapInstructionLoad op) s = .next { s with mode := { s.mode with tap := op, tapWait := none } })

/-- R7, R19, R248, R249, R453: with no accepted group to apply, a slot boundary opens the next slot number at tick 0, its last converter
clock period 31, 32 or 33 root ticks long and its delay-line step below 64, and every RWS write is in force; in Bivouac, where no time base
runs, a whole slot passes. A root tick adds 80 · (2^40 + y) to each time base that no commanded slew moves.
R28, R133, R134: a standalone hub takes a SYNC_N edge for the next slot, or the one after it from tick 12,000 on, behind a restart already named; with a locked time base the edge
is counted, logged and ignored; at the named slot t, after an overlay change of that slot, the decimator phase becomes t mod 8,192 and FLT_SYNC is logged with t. -/
def Obligations.SlotClockAndGrid : Prop :=
  (∀ s : State,
    (s.mode.phase ≠ .held → s.mode.phase ≠ .straps → s.cur ≠ 0 → s.arb.accepted = [] →
      Gives .slotBoundary s (fun t =>
        t.clk.slot = s.clk.slot + 1 ∧ t.clk.tick = 0 ∧ t.clk.step < 64 ∧ t.clk.period ∈ [31, 32, 33] ∧ ∀ a, t.eff a = t.reg a))
    ∧ (s.mode.phase ≠ .held → s.mode.phase ≠ .straps → s.cur = 0 →
        exec .slotBoundary s = .next { s with effOld := [], clk := { s.clk with
          uptime := s.clk.uptime + (12800 - s.clk.tick), slot := s.clk.slot + 1, tick := 0, edges := s.clk.edges + 1 } })
    ∧ (s.cur ≠ 0 → Gives .timeBaseTick s (fun t =>
        t.clk = { s.clk with uptime := s.clk.uptime + 1, tick := s.clk.tick + 1 } ∧ { t with clk := s.clk, tbs := s.tbs } = s
        ∧ ∀ k : Fin 4, (s.tb k).slew = none →
          t.tb k = { s.tb k with time := (s.tb k).time + (80 * (2 ^ 40 + s.getS (Reg.TB_FREQ_Y k))).toNat })))
  ∧ (∀ s : State,
    let next := if s.clk.tick < 12000 then s.clk.slot + 1 else s.clk.slot + 2
    (s.anyLocked = false → exec .syncNEdge s = .next { s with fabric := { s.fabric with
      gridAt := if next ∈ s.fabric.gridAt then s.fabric.gridAt else s.fabric.gridAt ++ [next] } })
    ∧ (s.anyLocked = true → Gives .syncNEdge s (fun t =>
        t.getF Reg.FLT_SYNC_IGNORED = capAt 65535 (s.getF Reg.FLT_SYNC_IGNORED + 1) ∧ Logged s t .FLT_SYNC_IGNORED 0 0 0
        ∧ { t with regs := s.regs, evt := s.evt } = s))
    ∧ (∀ n rest, s.fabric.gridAt = n :: rest → n ≤ s.now → s.overlayDue = false → Gives .gridRestart s (fun t =>
        t.getF Reg.FLT_SYNC_PHASE = n % 8192 ∧ t.fabric.gridAt = rest ∧ ∃ d3, Logged s t .FLT_SYNC 0 (BitVec.ofNat 64 n) d3))
    ∧ (∀ n rest, s.fabric.gridAt = n :: rest → s.now < n ∨ s.overlayDue = true → exec .gridRestart s = .next s)
    ∧ (s.fabric.gridAt = [] → exec .gridRestart s = .next s))

/-! ### Configuration -/

/-- R55 to R58, R496: an overlay request of a port that may write is tested in order (authority, presence, another one pending, its slot, every record as its block
judges it, the first refused one reported with its address and the port), and an accepted one waits; at its slot the outgoing overlay's fields return to base and the new one's records apply,
whole or not at all, and CFG_STATUS, CFG_OVL_SLOT and CFG_DIGEST show it. -/
def Obligations.OverlayChanges : Prop :=
  (∀ (port : Port) (at_ : Bool) (ovl : BitVec 4) (s : State),
    let k := ovl.toNat
    let act := s.getF Reg.CFG_STATUS_OVL_ACT
    let when_ := if at_ then (s.copy port Reg.CFG_OVL_AT).toNat else s.now + 16
    let there := if k = 15 then act ≠ 15 else k < 8 ∧ (s.getF Reg.CFG_STATUS_OVL_PRESENT).testBit k = true
    let free := s.getF Reg.CFG_STATUS_PENDV = 0 ∧ s.cfg.autoNext = false
    let judged := (s.changeOverlay { port := cfgPort, slot := when_, asked := s.now } (s.overlayDef act) (s.overlayDef k)).2
    let c := Instr.overlayRequest port at_ ovl
    (s.portOpen port Reg.CFG_OVL_REQ = false → exec c s = .next s)
    ∧ (s.portOpen port Reg.CFG_OVL_REQ = true →
    (s.classOf port = 0 → Refuses c s .SYS_AUTH_DENIED 0 Reg.CFG_OVL_REQ port)
    ∧ (1 ≤ s.classOf port → ¬ there → Refuses c s .CFG_OVL_ABSENT k Reg.CFG_OVL_REQ port)
    ∧ (1 ≤ s.classOf port → there → ¬ free → Refuses c s .CFG_OVL_BUSY k Reg.CFG_OVL_REQ port)
    ∧ (1 ≤ s.classOf port → there → free → when_ < s.now + 16 → Refuses c s .CFG_OVL_LATE k Reg.CFG_OVL_REQ port)
    ∧ (1 ≤ s.classOf port → there → free → s.now + 16 ≤ when_ → ∀ e, judged = some e → Gives c s (fun t =>
        Logged s t .CFG_OVL_REFUSED k (BitVec.ofNat 64 e.1) (BitVec.ofNat 64 port.val) ∧ { t with regs := s.regs, evt := s.evt } = s))
    ∧ (1 ≤ s.classOf port → there → free → s.now + 16 ≤ when_ → judged = none → Gives c s (fun t =>
        t.getF Reg.CFG_STATUS_PENDV = 1 ∧ t.getF Reg.CFG_STATUS_OVL_PEND = k ∧ t.getF Reg.CFG_STATUS_OVL_ACT = act
        ∧ t.cfg.pendAt = some when_ ∧ t.cfg.pendPort = port ∧ { t with regs := s.regs, cfg := s.cfg } = s))))
  ∧ (∀ (m : Nat) (u : State) (s : State),
      let k := s.getF Reg.CFG_STATUS_OVL_PEND
      s.cfg.pendAt = some m → s.getF Reg.CFG_STATUS_PENDV = 1 → m ≤ s.now → k = 15 ∨ s.overlayDef k ≠ none →
      (s.dropOverlay.changeOverlay s.dropOverlay.recCtx (s.overlayDef (s.getF Reg.CFG_STATUS_OVL_ACT)) (s.overlayDef k)) = (u, none) →
      Gives .overlayActivation s (fun t =>
        t.getF Reg.CFG_STATUS_OVL_ACT = k ∧ t.getF Reg.CFG_STATUS_PENDV = u.getF Reg.CFG_STATUS_PENDV
        ∧ t.reg Reg.CFG_OVL_SLOT = BitVec.ofNat 64 m ∧ t.reg Reg.CFG_DIGEST = (u.storeOf u.activeStore).digest k))
  ∧ (∀ (s : State), s.overlayDue = false → exec .overlayActivation s = .next s)

/-- R53, R54, R361, R498, R500: CFG_BEGIN erases the store that is not active and makes its port the writer; a word at the next offset is
written and one at another offset is refused; CFG_COMMIT of a store that checks takes the active sequence number plus 1; CFG_LOAD is
served in Basecamp only.
R60, R61: after each 250,000 slots the beacon with the hub's TLV leaves on each chain or pair lane that is UP and in no master state; a TLV of another epoch sets
EPOCH_MISMATCH and is logged once per sender and epoch, a second differing digest in a row sets DIVERGED with the peer and its digest; a TLV of
another group changes nothing; EPOCH_MISMATCH clears once 8 s bring no other epoch. -/
def Obligations.ConfigurationStoresAndTlv : Prop :=
  (∀ (l : Fin 4) (h : CmdHdr) (s : State),
    let other := s.otherStore
    (Accepts s l h 0x20 [] 2 false → (∀ p, s.cfg.writer = some p → p = l.val) →
      Gives (.cfgBegin l h) s (fun t =>
        Answered s t l h 0x20 0 [] ∧ (t.storeOf other).len = 0 ∧ (t.storeOf other).seq = none ∧ t.cfg.writer = some l.val
        ∧ t.cfg.nextOff = 0 ∧ t.storeOf s.activeStore = s.storeOf s.activeStore))
    ∧ (∀ (off v : W64), Accepts s l h 0x21 [off, v] 2 false → s.cfg.writer = some l.val → off.toNat < storeWordsMax →
        Gives (.cfgWrite l h off [v]) s (fun t =>
          (off.toNat = s.cfg.nextOff → Answered s t l h 0x21 0 [] ∧ (t.storeOf other).word off.toNat = v
            ∧ (t.storeOf other).len = off.toNat + 1 ∧ t.cfg.nextOff = off.toNat + 1)
          ∧ (off.toNat ≠ s.cfg.nextOff → Answered s t l h 0x21 2 [] ∧ t.cfg = s.cfg
            ∧ Logged s t .CFG_WRITE_ORDER 0 0x21 (BitVec.ofNat 64 l.val))))
    ∧ (Accepts s l h 0x22 [] 2 false → s.cfg.writer = some l.val → (s.storeOf other).check = none →
        s.getF Reg.CFG_EPOCH_EPOCH ≤ (s.storeOf other).params.epoch →
        let n := (((s.storeOf s.activeStore).seq.getD 0) + 1) % 2 ^ 64
        Gives (.cfgCommit l h) s (fun t =>
          Answered s t l h 0x22 0 [BitVec.ofNat 64 n] ∧ (t.storeOf other).seq = some n ∧ (t.storeOf other).valid = true ∧ t.cfg.newer = true ∧ t.cfg.writer = none
          ∧ t.getF Reg.CFG_STATUS_OTHER_VALID = 1))
    ∧ (Accepts s l h 0x23 [] 2 false → s.cur ≠ 1 → Gives (.cfgLoad l h) s (fun t =>
        Answered s t l h 0x23 2 [] ∧ t.cfg = s.cfg ∧ Logged s t .CFG_LOAD_MODE 0 0x23 (BitVec.ofNat 64 l.val)))
    ∧ (Accepts s l h 0x23 [] 2 false → s.cur = 1 → s.cfg.newer = true → (s.storeOf other).records = [] →
        s.getF Reg.CFG_STATUS_OVL_ACT = 15 → s.overlayDef 15 = none → (s.storeOf other).overlays = [] →
        Gives (.cfgLoad l h) s (fun t =>
          Answered s t l h 0x23 0 [] ∧ t.activeStore = other ∧ t.cfg.params = (s.storeOf other).params ∧ t.cfg.newer = false)))
  ∧ (∀ s : State,
    (s.mode.phase ≠ .running ∨ (∃ n, s.cfg.beaconAt = some n ∧ s.upSlots < n + 250000) → exec .configBeacon s = .next s)
    ∧ (s.mode.phase = .running → (∀ n, s.cfg.beaconAt = some n → n + 250000 ≤ s.upSlots) → Gives .configBeacon s (fun t =>
      t.cfg = { s.cfg with beaconAt := some s.upSlots } ∧ { t with sw := s.sw, cfg := s.cfg } = s ∧ ∀ l : Fin 4,
        if s.laneUp l = true ∧ (s.laneRole l = 1 ∨ s.laneRole l = 2) ∧ ∀ k : Fin 4, s.pstate k l ≠ 6 then
          ∃ f, t.egressOf l = s.egressOf l ++ [f] ∧ f.dst = beaconMac ∧ f.prio = 6 ∧ f.words = 0x1700000000000000#64 :: s.tlvWords
        else t.egressOf l = s.egressOf l))
    ∧ (∀ (sender digest : W64) (epoch : BitVec 32) (group : BitVec 16),
        let own := s.getF Reg.CFG_EPOCH_EPOCH
        let c := Instr.tlvReceived sender digest epoch group
        (group.toNat ≠ s.getF Reg.CFG_EPOCH_GROUP → exec c s = .next s)
        ∧ (group.toNat = s.getF Reg.CFG_EPOCH_GROUP → epoch.toNat ≠ own → (sender.toNat, epoch.toNat) ∉ s.cfg.logged →
            Gives c s (fun t => t.getF Reg.CFG_STATUS_EPOCH_MISMATCH = 1
              ∧ Logged s t .CFG_EPOCH_MISMATCH 0 sender (BitVec.ofNat 64 epoch.toNat) ∧ (sender.toNat, epoch.toNat) ∈ t.cfg.logged))
        ∧ (∀ p, group.toNat = s.getF Reg.CFG_EPOCH_GROUP → epoch.toNat = own → digest ≠ s.reg Reg.CFG_DIGEST →
            s.cfg.peers.find? (fun q => q.sender == sender.toNat) = some p → p.differs = true → p.epoch = own →
            Gives c s (fun t => t.getF Reg.CFG_STATUS_DIVERGED = 1 ∧ t.reg Reg.CFG_DIV_PEER = sender
              ∧ t.reg Reg.CFG_DIV_DIGEST = digest ∧ Logged s t .CFG_DIVERGED 0 sender digest)))
    ∧ ((∀ n, s.cfg.otherAt = some n → n + 2000000 ≤ s.upSlots) →
        Gives .epochMismatchClear s (fun t => t.getF Reg.CFG_STATUS_EPOCH_MISMATCH = 0 ∧ { t with regs := s.regs } = s)))

/-! ### Coefficients and the output grid -/

/-- R139, R140, R456: a coefficient is written into the inactive set through the port's pointer, which advances TAP and then PRESET, and clears
READY; the active set and one whose swap is pending refuse it; a port that may not write or read there is turned away; COMMIT marks the inactive set ready; a swap of ready banks waits for its
slot, and at it, after an overlay change and a mode transition of that slot but before one that a handover brings, each bank makes its other set
active. -/
def Obligations.CoefficientSets : Prop :=
  (∀ (port : Port) (v : W64) (s : State),
    let p := s.coefPtr port
    let b := p.1
    let set_ := p.2.1
    let preset := p.2.2.1
    let tap := p.2.2.2
    let may := s.portOpen port Reg.FLT_COEF_DATA = true
    (s.portOpen port Reg.FLT_COEF_DATA = false → exec (.coefDataAccess port (some v)) s = .next s)
    ∧ (s.portReads port Reg.FLT_COEF_DATA = false → exec (.coefDataAccess port none) s = .next s)
    ∧ (may → s.classOf port = 0 → Refuses (.coefDataAccess port (some v)) s .SYS_AUTH_DENIED 0 Reg.FLT_COEF_DATA port)
    ∧ (may → 1 ≤ s.classOf port → set_ ≠ s.getF (Reg.FLT_BSTAT_ACTIVE b) → s.getF (Reg.FLT_BSTAT_PENDV b) = 0 →
      Gives (.coefDataAccess port (some v)) s (fun t =>
        (t.coef b).tap set_ preset tap = signed 24 (bits v 23 0) ∧ t.getF (Reg.FLT_BSTAT_READY b) = 0
        ∧ (tap < 255 → t.coefPtr port = (b, set_, preset, tap + 1)) ∧ (tap = 255 → preset < 5 → t.coefPtr port = (b, set_, preset + 1, 0))))
    ∧ (may → 1 ≤ s.classOf port → set_ = s.getF (Reg.FLT_BSTAT_ACTIVE b) ∨ s.getF (Reg.FLT_BSTAT_PENDV b) = 1 →
        Refuses (.coefDataAccess port (some v)) s .FLT_COEF_ACTIVE b Reg.FLT_COEF_DATA port)
    ∧ (s.portReads port Reg.FLT_COEF_DATA = true → tap < 255 → Gives (.coefDataAccess port none) s (fun t =>
        t.coefPtr port = (b, set_, preset, tap + 1) ∧ { t with copies := s.copies } = s)))
  ∧ (∀ (port : Port) (v : W64) (s : State), s.portOpen port Reg.FLT_COEF_PTR = true → 1 ≤ s.classOf port →
      (bits v 28 24 < 24 → bits v 18 16 < 6 → Gives (.coefCommit port v) s (fun t =>
        t.getF (Reg.FLT_BSTAT_READY (bits v 28 24)) = 1 ∧ { t with regs := s.regs, copies := s.copies } = s))
      ∧ (24 ≤ bits v 28 24 → Refuses (.coefCommit port v) s .FLT_COEF_BANK 0 Reg.FLT_COEF_PTR port))
  ∧ (∀ (port : Port) (at_ : Bool) (banks : BitVec 24) (s : State), s.portOpen port Reg.FLT_SWAP_REQ = true → 1 ≤ s.classOf port →
      let when_ := if at_ then (s.copy port Reg.FLT_SWAP_AT).toNat else s.now + 16
      let first := (bitsSet 24 banks.toNat).getD 0 0
      let ready := ∀ b : Fin 24, banks.getLsbD b = true → s.getF (Reg.FLT_BSTAT_READY b) = 1
      let idle := ∀ b : Fin 24, banks.getLsbD b = true → s.getF (Reg.FLT_BSTAT_PENDV b) = 0
      let c := Instr.swapRequest port at_ banks
      (¬ ready → Refuses c s .FLT_SWAP_NOTREADY first Reg.FLT_SWAP_REQ port)
      ∧ (ready → ¬ idle → Refuses c s .FLT_SWAP_BUSY first Reg.FLT_SWAP_REQ port)
      ∧ (ready → idle → when_ < s.now + 16 → Refuses c s .FLT_SWAP_LATE first Reg.FLT_SWAP_REQ port)
      ∧ (ready → idle → s.now + 16 ≤ when_ → Gives c s (fun t =>
          { t with regs := s.regs, coefs := s.coefs } = s ∧ ∀ b : Fin 24,
            if banks.getLsbD b = true then t.getF (Reg.FLT_BSTAT_PENDV b) = 1 ∧ (t.coef b).swapAt = some when_
            else t.reg (Reg.FLT_BSTAT b) = s.reg (Reg.FLT_BSTAT b) ∧ t.coef b = s.coef b)))
  ∧ (∀ s : State, s.overlayDue = false → s.modeDue = false ∨ s.mode.pendCause = 4 → Gives .coefficientSwap s (fun t =>
      { t with regs := s.regs, coefs := s.coefs } = s ∧ ∀ (b : Fin 24) (n : Nat), (s.coef b).swapAt = some n →
        if n ≤ s.now then t.getF (Reg.FLT_BSTAT_ACTIVE b) = 1 - s.getF (Reg.FLT_BSTAT_ACTIVE b) ∧ t.getF (Reg.FLT_BSTAT_PENDV b) = 0
          ∧ t.getF (Reg.FLT_BSTAT_READY b) = 1 ∧ t.reg (Reg.FLT_SWAP_SLOT b) = BitVec.ofNat 64 n ∧ (t.coef b).swapAt = none
          ∧ (t.coef b).setAt n = 1 - s.getF (Reg.FLT_BSTAT_ACTIVE b)
        else t.reg (Reg.FLT_BSTAT b) = s.reg (Reg.FLT_BSTAT b) ∧ t.coef b = s.coef b))

/-! ### Capture -/

/-- R40, R212 to R214, R217, R220, R224 to R226, R231, R233, R234: an enabled comparator's crossing is stamped less FC_CSKEW, counted and shown, and two
within 16 root ticks are both discarded; a trigger of a ready unit opens its record with the trigger frame and the frames kept before it, one
in an OPEN record is secondary, one after it a miss, from a Summit exit on neither; a TIMEOUT unit fires once for each reference; 16 converter clocks later the stamp
is written and goes to the time-interval unit. -/
def Obligations.CaptureTriggers : Prop :=
  (∀ (k : Fin 8) (cmp : Comparator) (rising : Bool) (stamp : Nat) (s : State),
    let a := cmp == .a
    let en := if a then Reg.FC_CMP_EN_A k else Reg.FC_CMP_EN_B k
    let cross := fun u : State => if a then (u.fasts.get (fun _ => {}) k).crossA else (u.fasts.get (fun _ => {}) k).crossB
    let lvl := if a then Reg.FC_CSTAT_LVL_A k else Reg.FC_CSTAT_LVL_B k
    let cnt := if a then Reg.FC_CSTAT_CROSS_A k else Reg.FC_CSTAT_CROSS_B k
    let at_ := ((stamp : Int) - s.getS (Reg.FC_CSKEW_SKEW k)).toNat
    let c := Instr.crossing k cmp rising stamp
    (s.effFlag en = false → exec c s = .next s)
    ∧ (s.effFlag en = true → (∀ r m rest, cross s = (r, m) :: rest → m + 1024 < at_) → Gives c s (fun t =>
        cross t = (rising, at_) :: cross s ∧ t.getF cnt = capAt 65535 (s.getF cnt + 1)
        ∧ t.getF lvl = (if rising then 1 else 0) ∧ { t with regs := s.regs, fasts := s.fasts } = s))
    ∧ (∀ r m rest, s.effFlag en = true → cross s = (r, m) :: rest → at_ ≤ m + 1024 → Gives c s (fun t =>
        cross t = rest ∧ t.getF cnt = s.getF cnt - 1 ∧ t.getF lvl = (if r then 0 else 1) ∧ t.getF (Reg.FC_CSTAT_MERGED k) = capAt 65535 (s.getF (Reg.FC_CSTAT_MERGED k) + 1)
        ∧ { t with regs := s.regs, fasts := s.fasts } = s)))
  ∧ (∀ (u : Fin 8) (s : State),
      let x := s.unit u
      let i := s.trgDesc u
      let st := s.trgState u
      let before := fun b : Nat => ∀ lim, x.exitAt = some lim → b / 2048 * 2048 < lim
      (s.nextTrigger u = none → exec (.triggerQualified u) s = .next s)
      ∧ (∀ at_ b, s.nextTrigger u = some (at_, b) →
          let j := b / 2048 - x.first
          let slot := (s.place b).1
          (st = 1 ∨ st = 2 → i ≠ 255 → x.first ≤ b / 2048 → Gives (.triggerQualified u) s (fun t =>
              t.trgState u = 3 ∧ t.descState i = 2 ∧ t.desc i 4 = BitVec.ofNat 64 slot ∧ (t.unit u).trig = j
              ∧ (t.unit u).kept = j - min (s.descPre i) j ∧ (t.unit u).post = s.descPost i
              ∧ t.getF (Reg.TRG_STAT_TRIGS u) = capAt 65535 (s.getF (Reg.TRG_STAT_TRIGS u) + 1)))
          ∧ (st = 3 → before b → b / 2048 < x.first + x.trig + x.post → Gives (.triggerQualified u) s (fun t =>
              t.trgState u = 3 ∧ (t.unit u).secs = capAt (2 ^ 32 - 1) (x.secs + 1) ∧ (t.unit u).seen = at_))
          ∧ (3 ≤ st → ¬ before b → Gives (.triggerQualified u) s (fun t =>
              t.cap = { s.cap with units := s.cap.units.set (fun _ => {}) u { x with seen := at_ } } ∧ { t with cap := s.cap } = s))
          ∧ (4 ≤ st → before b → s.cap.misses.length < 64 → Gives (.triggerQualified u) s (fun t =>
              t.trgState u = st ∧ t.cap.misses.length = s.cap.misses.length + 1
              ∧ t.getF (Reg.TRG_STAT_MISSES u) = capAt 65535 (s.getF (Reg.TRG_STAT_MISSES u) + 1))))
      ∧ (∀ r n b, s.effF (Reg.TRG_CFG_TYPE u) = 3 → st = 1 ∨ st = 2 → s.timeoutRef u = some (r, n) → s.pointOf u n = some b →
          b / 2048 + 6 ≤ s.edgeNow → i ≠ 255 → x.first ≤ b / 2048 →
          Gives (.triggerTimeout u) s (fun t => t.trgState u = 3 ∧ t.descState i = 2 ∧ (t.unit u).toUsed = some r))
      ∧ (∀ p rest, x.stamps = p :: rest → p.clock + 16 ≤ s.edgeNow → Gives (.triggerStampWrite u) s (fun t =>
          t.reg (Reg.TRG_TSLOT u) = BitVec.ofNat 64 p.slot ∧ t.reg (Reg.TRG_TBIN u) = BitVec.ofNat 64 (2 ^ 32 * p.frac + p.bin)
          ∧ (t.unit u).stamps = rest ∧ t.tiv.stamps = s.tiv.stamps ++ [(2 + u.val, p.bins)])))

/-- R206, R223 to R227, R230, R231, R233: an arm under its tests leaves the unit in PREFILL with its descriptor ARMED, or READY without one; outside
Summit it is refused; a disarm before a trigger leaves the descriptor DISARMED, in an OPEN record it only forbids the re-arm; PRE frames make the
unit READY, the last post frame CLOSING or DRAINING; the write-back closes the descriptor; NEXT, tested then, is armed 64 converter clocks later or refused;
the oldest miss is popped. A port that may not write is turned away. -/
def Obligations.CaptureUnits : Prop :=
  (∀ (port : Port) (u : Fin 8) (desc : BitVec 8) (s : State),
    let i := desc.toNat
    (s.portOpen port (Reg.TRG_CTL u) = false → exec (.triggerArm port u desc) s = .next s ∧ exec (.triggerDisarm port u) s = .next s)
    ∧ (s.portOpen port (Reg.TRG_CTL u) = true →
    (s.classOf port = 0 → Refuses (.triggerArm port u desc) s .SYS_AUTH_DENIED u (Reg.TRG_CTL u) port
      ∧ Refuses (.triggerDisarm port u) s .SYS_AUTH_DENIED u (Reg.TRG_CTL u) port)
    ∧ (1 ≤ s.classOf port → s.mirrored port = true → Refuses (.triggerArm port u desc) s .PAIR_MIRRORED u (Reg.TRG_CTL u) port)
    ∧ (1 ≤ s.classOf port → s.mirrored port = false → s.summitLike = false → Refuses (.triggerArm port u desc) s .TRG_ARM_MODE u i port)
    ∧ (1 ≤ s.classOf port → s.mirrored port = false → s.armTests false u i = none → Gives (.triggerArm port u desc) s (fun t =>
        t.trgDesc u = i ∧ (t.unit u).armAt = s.edgeNow + 1
        ∧ (i = 255 → t.trgState u = 2) ∧ (i ≠ 255 → t.trgState u = 1 ∧ t.descState i = 1)))
    ∧ (1 ≤ s.classOf port → s.mirrored port = false → s.nextPoint u = none → s.nextTimeout u = none → s.trgState u = 1 ∨ s.trgState u = 2 →
        s.trgDesc u ≠ 255 → Gives (.triggerDisarm port u) s (fun t => t.trgState u = 0 ∧ t.descState (s.trgDesc u) = 4))
    ∧ (1 ≤ s.classOf port → s.mirrored port = false → s.nextPoint u = none → s.nextTimeout u = none → s.trgState u = 3 →
        Gives (.triggerDisarm port u) s (fun t => t.trgState u = 3 ∧ (t.unit u).noRearm = true ∧ (t.unit u).disarmed = true))))
  ∧ (∀ (u : Fin 8) (s : State),
      let x := s.unit u
      let i := s.trgDesc u
      (s.trgState u = 1 → s.descPre i ≤ x.nFrames → Gives (.prefillComplete u) s (fun t =>
        t.trgState u = 2 ∧ { t with regs := s.regs } = s))
      ∧ (s.trgState u = 3 → x.trig + x.post ≤ x.nFrames → Gives (.recordPostComplete u) s (fun t =>
          t.trgState u = (if s.descSpill i = true then 4 else 5) ∧ { t with regs := s.regs } = s))
      ∧ (s.trgState u = 5 → x.trig - x.kept < 2 ^ 32 → Gives (.recordClose u) s (fun t =>
          t.descState i = 3 ∧ t.desc i 10 = BitVec.ofNat 64 x.post
          ∧ (s.descNext i ≠ 255 → x.noRearm = false →
            let w := ({ s with cap := { s.cap with rseq := s.cap.rseq + 1 } } : State).writeBack u i
            (w.armRecord (s.descNext i) = none → t.trgState u = 6 ∧ (t.unit u).rearmAt = s.edgeNow + 64)
            ∧ ∀ c, w.armRecord (s.descNext i) = some c → t.trgState u = 0
                ∧ (bit (s.desc i 1) 9 = false → Logged s t .CAP_REARM_REFUSED u (BitVec.ofNat 64 (s.descNext i)) (BitVec.ofNat 64 c.code)))
          ∧ (s.descNext i = 255 ∨ x.noRearm = true → t.trgState u = 0)
          ∧ (bit (s.desc i 1) 9 = true → Logged s t .CAP_CLOSED u (BitVec.ofNat 64 i) (BitVec.ofNat 64 (s.cap.rseq + 1)))))
      ∧ (s.trgState u = 6 → x.rearmAt ≤ s.edgeNow →
          let next := s.descNext i
          (s.armRecord next = none → next ≠ 255 → Gives (.rearm u) s (fun t =>
            t.trgState u = 1 ∧ t.trgDesc u = next ∧ t.descState next = 1 ∧ (t.unit u).armAt = x.rearmAt))
          ∧ ∀ c, s.armRecord next = some c → Gives (.rearm u) s (fun t =>
              t.trgState u = 0 ∧ Logged s t .CAP_REARM_REFUSED u (BitVec.ofNat 64 next) (BitVec.ofNat 64 c.code))))
  ∧ (∀ (port : Port) (s : State), s.portOpen port Reg.CAP_MISS_POP = true → s.classOf port = 0 →
      Refuses (.missPop port) s .SYS_AUTH_DENIED 0 Reg.CAP_MISS_POP port)
  ∧ (∀ (port : Port) (s : State), s.portOpen port Reg.CAP_MISS_POP = true → 1 ≤ s.classOf port →
      exec (.missPop port) s = .next { s with cap := { s.cap with misses := s.cap.misses.drop 1 } })

/-- R221, R222, R228, R229, R232, R456: a spill packet takes as many frames as it holds; a spill whose stream has stopped closes its record cut; a
descriptor word is written through the port's pointer, which advances, unless the descriptor is in use; a copy of a readable record
starts and, done, has written its bytes into bulk memory and no other byte; an error there is marked with its offset. -/
def Obligations.CaptureData : Prop :=
  (∀ (u : Fin 8) (s : State),
    let x := s.unit u
    let i := s.trgDesc u
    let st := s.trgState u
    let strm := s.descStream i
    let fb := s.frameBytes i
    let per := 1024 / max 1 fb
    let left := (if st = 4 then x.trig + x.post else x.nFrames) - x.kept - x.spilled
    let n := min per left
    st = 3 ∨ st = 4 → s.descSpill i = true →
      ((s.strmSt strm).on = false → st = 4 → Gives (.spillPacket u) s (fun t => t.trgState u = 5 ∧ (t.unit u).cut = true))
      ∧ ((s.strmSt strm).on = true → left ≠ 0 → st = 4 ∨ per ≤ left → ceilDiv (n * fb) 8 + 1 ≤ s.room (s.strmQueue strm) →
          Gives (.spillPacket u) s (fun t => (t.unit u).spilled = x.spilled + n ∧ (st = 4 → left = n → t.trgState u = 5))))
  ∧ (∀ (port : Port) (v : W64) (s : State),
      let p := bits (s.copy port Reg.CAP_DESC_PTR) 11 0
      let i := p / 16
      let w := p % 16
      let next := fun t : State => bits (t.copy port Reg.CAP_DESC_PTR) 11 0 = (p + 1) % 4080
      (s.portReads port Reg.CAP_DESC_DATA = true →
        Gives (.descDataAccess port none) s (fun t => next t ∧ { t with copies := s.copies } = s))
      ∧ (s.portReads port Reg.CAP_DESC_DATA = false → exec (.descDataAccess port none) s = .next s)
      ∧ (s.portOpen port Reg.CAP_DESC_DATA = false → exec (.descDataAccess port (some v)) s = .next s)
      ∧ (s.portOpen port Reg.CAP_DESC_DATA = true →
      (1 ≤ s.classOf port → s.mirrored port = false → w < 3 → s.descState i = 0 ∨ s.descState i = 3 ∨ s.descState i = 4 →
          s.cap.copy = none → Gives (.descDataAccess port (some v)) s (fun t =>
            next t ∧ t.desc i w = v &&& descMaskOf w ∧ t.descState i = 0 ∧ ∀ j k, j ≠ i → k < 16 → t.desc j k = s.desc j k))
      ∧ (1 ≤ s.classOf port → s.mirrored port = false → w < 3 → s.descState i = 1 ∨ s.descState i = 2 →
          Refuses (.descDataAccess port (some v)) s .CAP_DESC_BUSY 0 Reg.CAP_DESC_DATA port)
      ∧ (1 ≤ s.classOf port → s.mirrored port = true →
          Refuses (.descDataAccess port (some v)) s .PAIR_MIRRORED 0 Reg.CAP_DESC_DATA port)))
  ∧ (∀ (port : Port) (len : BitVec 33) (s : State), s.portOpen port Reg.CAP_COPY_GO = true → 1 ≤ s.classOf port →
      let n := len.toNat
      let i := s.getF Reg.CAP_COPY_SRC_DESC
      let off := s.getF Reg.CAP_COPY_SRC_OFF
      let dst := (s.reg Reg.CAP_COPY_DST).toNat
      (s.getF Reg.CAP_COPY_STAT_BUSY = 1 → Refuses (.captureCopy port len) s .CAP_COPY_BUSY 0 Reg.CAP_COPY_GO port)
      ∧ (s.getF Reg.CAP_COPY_STAT_BUSY = 0 → s.readable i = false → Gives (.captureCopy port len) s (fun t =>
          t.getF Reg.CAP_COPY_STAT_REFUSED = 1 ∧ t.cap = s.cap
          ∧ Logged s t .CAP_LOCKED 0 (BitVec.ofNat 64 Reg.CAP_COPY_GO) (BitVec.ofNat 64 port.val)))
      ∧ (s.getF Reg.CAP_COPY_STAT_BUSY = 0 → s.readable i = true → 8 ≤ n → n % 8 = 0 → n ≤ 2 ^ 32 → off % 8 = 0 →
          off + n ≤ s.recordLen i → dst % 8 = 0 → dst + n ≤ 8 * s.bulkWords → Gives (.captureCopy port len) s (fun t =>
            t.getF Reg.CAP_COPY_STAT_BUSY = 1 ∧ t.cap = { s.cap with copy := some { desc := i, off := off, dst := dst, len := n } }
            ∧ { t with regs := s.regs, cap := s.cap } = s)))
  ∧ (∀ (c : CopyJob) (s : State), s.cap.copy = some c → s.cap.bad = [] → c.len % 8 = 0 →
      let from_ := fun o => s.recordAddr c.desc (bits (s.desc c.desc 11) 31 0) (c.off + o)
      Gives (.captureCopyDone []) s (fun t =>
        t.cap.copy = none ∧ t.getF Reg.CAP_COPY_STAT_BUSY = 0 ∧ t.getF Reg.CAP_COPY_STAT_DONE = 1
        ∧ (∀ o < c.len, Memory.get t.dram (c.dst + o) = Memory.get s.cap.mem (from_ o))
        ∧ ∀ a, a < c.dst ∨ c.dst + c.len ≤ a → Memory.get t.dram a = Memory.get s.dram a)
      ∧ ∀ f, f % 64 = 0 → c.off ≤ f → f < c.off + c.len → c.off % 8 = 0 → f < 2 ^ 40 → Gives (.captureCopyDone [f]) s (fun t =>
          t.getF Reg.CAP_COPY_STAT_POISON = 1 ∧ t.getF Reg.CAP_COPY_STAT_POFF = f))

/-! ### Time intervals, frequency, the crystal -/

/-- R234 to R242, R247: ARM of an idle unit counts edges from the next converter clock; ABORT discards the measurement, after a result that falls due with it; a selected pin edge is
held for ordering and one inside the hold-off ignored and counted; an ordered start edge starts the measurement and in strict mode the stop
edge gives the time from start to stop in TDC bins, a stop without a start counts as early; after 2^46 bins the result is 0 with
TIMEOUT, once no stamp that was on hold is left before. -/
def Obligations.TimeInterval : Prop :=
  ∀ s : State,
    let waits := ∀ c ∈ s.tiv.stamps, s.binsNow < c.2 + 24 * 2048
    (∀ port : Port, s.portOpen port Reg.TIV_CTL = false → exec (.tivArm port) s = .next s ∧ exec (.tivAbort port) s = .next s)
    ∧ (∀ port : Port, s.portOpen port Reg.TIV_CTL = true → 1 ≤ s.classOf port →
      (s.tivState ≠ 0 → Refuses (.tivArm port) s .TIV_BUSY 0 Reg.TIV_CTL port)
      ∧ (s.tivState = 0 → Gives (.tivArm port) s (fun t =>
          t.tivState = 1 ∧ t.tiv = { s.tiv with armAt := (s.edgeNow + 1) * 2048, start := none } ∧ { t with regs := s.regs, tiv := s.tiv } = s))
      ∧ (let u := (s.tivDrain s.tiv.stamps.length).tivUpTo (s.binsNow - 24 * 2048)
         Gives (.tivAbort port) s (fun t => t.tivState = 0 ∧ t.getF Reg.TIV_STAT_ABORTED = 1 ∧ t.tiv = { u.tiv with start := none }
           ∧ { t with regs := u.regs, tiv := u.tiv } = u)
         ∧ (waits → (∀ b t0, s.tiv.start = some (b, t0) → s.tivState ≠ 2 ∨ s.binsNow - 24 * 2048 < t0 + 2 ^ 46) → u = s)))
    ∧ (∀ (pin : Fin 2) (rising : Bool) (stamp : Nat), s.cur ≠ 0 →
        let r := s.reg (pinReg pin)
        let last := s.tiv.last.get (fun _ => 0) pin
        (last ≠ 0 → stamp < last - 1 + 64 * bits r 63 48 → Gives (.tivPinEdge pin rising stamp) s (fun t =>
          t.getF Reg.TIV_STAT_IGNORED = capAt 65535 (s.getF Reg.TIV_STAT_IGNORED + 1) ∧ { t with regs := s.regs } = s))
        ∧ (last = 0 ∨ last - 1 + 64 * bits r 63 48 ≤ stamp → bits r 1 0 = 2 ∨ (bits r 1 0 = 0 ∧ rising = true) ∨ (bits r 1 0 = 1 ∧ rising = false) →
            s.getF Reg.TIV_FCFG_INPUT ≠ pin.val → s.tivState ≠ 0 → s.getF Reg.TIV_CFG_START_SRC = pin.val ∨ s.getF Reg.TIV_CFG_STOP_SRC = pin.val →
            Gives (.tivPinEdge pin rising stamp) s (fun t => t.tiv.stamps = s.tiv.stamps ++ [(pin.val, stamp)]
              ∧ t.tiv.last.get (fun _ => 0) pin = stamp + 1 ∧ { t with tiv := s.tiv } = s)))
    ∧ (∀ c : Nat × Nat, s.cur ≠ 0 → s.firstStamp = some c → c.2 + 24 * 2048 ≤ s.binsNow → s.tivState ≠ 0 → s.tiv.armAt ≤ c.2 →
        s.getF Reg.TIV_CFG_SIGNED = 0 →
        (s.tiv.start = none → (s.tivInputs c.1).1 = true → Gives .tivStampOrdered s (fun t =>
          t.tivState = 2 ∧ t.tiv.start = some (false, c.2) ∧ t.tiv.stamps = s.tiv.stamps.erase c))
        ∧ (s.tiv.start = none → s.tivInputs c.1 = (false, true) → Gives .tivStampOrdered s (fun t =>
            t.tiv.start = none ∧ t.getF Reg.TIV_STAT_EARLY_STOP = capAt 65535 (s.getF Reg.TIV_STAT_EARLY_STOP + 1)))
        ∧ (∀ t0, s.tiv.start = some (false, t0) → (s.tivInputs c.1).2 = true → t0 ≤ c.2 → c.2 - t0 < 2 ^ 46 →
            Gives .tivStampOrdered s (fun t =>
              t.reg Reg.TIV_RESULT = BitVec.ofNat 64 (2 ^ 63 + (if c.2 = t0 then 2 ^ 62 else 0) + (c.2 - t0))
              ∧ t.reg Reg.TIV_RSLOT = BitVec.ofNat 64 (s.place t0).1 ∧ t.reg Reg.TIV_RBIN = BitVec.ofNat 64 (s.place t0).2
              ∧ t.getF Reg.TIV_STAT_DONE = 1 ∧ (s.getF Reg.TIV_CFG_CONT = 0 → t.tivState = 0 ∧ t.tiv.start = none))))
    ∧ (s.cur = 0 ∨ s.firstStamp = none → exec .tivStampOrdered s = .next s)
    ∧ (∀ b t0, s.cur ≠ 0 → waits → s.tiv.start = some (b, t0) → s.tivState = 2 → t0 + 2 ^ 46 + 24 * 2048 ≤ s.binsNow → Gives .tivTimeout s (fun t =>
        t.reg Reg.TIV_RESULT = BitVec.ofNat 64 (2 ^ 63 + 2 ^ 61) ∧ t.getF Reg.TIV_STAT_DONE = 1 ∧ Logged s t .TIV_TIMEOUT 0 0 0))

/-- R244: FSTART opens a run that waits for the next slot edge, a second one is refused; the edge that closes the gate gives the edges counted, the gate's
length and their quotient, and ends a single run; a gate that waits more than GATE slots gives zeros with NOSIG; FSTOP ends the run.
R17, R245 to R247, R486: 2^18 slots after the update before it the ageing term moves by SLOPE and a locked loop absorbs it; the trim code is the
factory centre plus loop and ageing term in steps of the trim, held to its range; lock and freeze take the loop's term; MEAS reports the
least-squares slope of the loop's term with SLOPE after 24 hours of lock and 0 before. (How often the loop's term is sampled for it is the model's choice:
log entry 92.) -/
def Obligations.FrequencyAndTrim : Prop :=
  (∀ s : State,
    (∀ port : Port, s.portOpen port Reg.TIV_CTL = false → exec (.fstart port) s = .next s ∧ exec (.fstop port) s = .next s)
    ∧ (∀ port : Port, s.portOpen port Reg.TIV_CTL = true → 1 ≤ s.classOf port →
      (s.getF Reg.TIV_STAT_FBUSY = 1 → Refuses (.fstart port) s .TIV_BUSY 0 Reg.TIV_CTL port)
      ∧ (s.getF Reg.TIV_STAT_FBUSY = 0 → Gives (.fstart port) s (fun t =>
          t.getF Reg.TIV_STAT_FBUSY = 1 ∧ t.tiv = { s.tiv with freq := some { from_ := none, t0 := none, n := 0 } }
          ∧ { t with regs := s.regs, tiv := s.tiv } = s))
      ∧ Gives (.fstop port) s (fun t =>
          t.getF Reg.TIV_STAT_FBUSY = 0 ∧ t.tiv = { s.tiv with freq := none } ∧ { t with regs := s.regs, tiv := s.tiv } = s))
    ∧ (∀ (pin : Fin 2) (stamp a : Nat) (r : FreqRun), s.cur ≠ 0 → s.tiv.last.get (fun _ => 0) pin = 0 →
        bits (s.reg (pinReg pin)) 1 0 = 2 → s.getF Reg.TIV_FCFG_INPUT = pin.val → s.tivState = 0 → s.tiv.freq = some r → r.t0 = some a →
        a < stamp → a + s.gateBins ≤ stamp → stamp - a < 2 ^ 48 → r.n + 1 < 2 ^ 40 → s.getF Reg.TIV_FCFG_CONT = 0 →
        Gives (.tivPinEdge pin true stamp) s (fun t =>
          t.reg Reg.TIV_FN = BitVec.ofNat 64 (2 ^ 63 + (r.n + 1)) ∧ t.reg Reg.TIV_FT = BitVec.ofNat 64 (stamp - a)
          ∧ t.reg Reg.TIV_FREQ = BitVec.ofNat 64 (freqWord (r.n + 1) (stamp - a)) ∧ t.getF Reg.TIV_STAT_FDONE = 1
          ∧ t.getF Reg.TIV_STAT_FBUSY = 0 ∧ t.tiv.freq = none))
    ∧ (∀ r : FreqRun, s.cur ≠ 0 → s.tiv.freq = some r →
        (r.t0 = none ∧ ∃ f, r.from_ = some f ∧ f + s.gateBins < s.binsNow) ∨ (∃ a, r.t0 = some a ∧ a + 2 * s.gateBins < s.binsNow) →
        Gives .tivNoSignal s (fun t =>
        t.reg Reg.TIV_FN = BitVec.ofNat 64 (2 ^ 63) ∧ t.reg Reg.TIV_FT = 0 ∧ t.reg Reg.TIV_FREQ = 0 ∧ t.getF Reg.TIV_STAT_NOSIG = 1
        ∧ t.getF Reg.TIV_STAT_FDONE = 1 ∧ Logged s t .TIV_NO_SIGNAL 0 0 0)))
  ∧ (∀ s : State,
    let code := fun t : State =>
      t.getF Reg.TIV_TRIM_CODE = (clampI 0 (2 ^ 24 - 1) ((Config.trimTivCode : Int) + roundAway (t.tiv.loop + t.tiv.ageTerm) 50000)).toNat
    (s.cur = 0 ∨ s.upSlots < s.tiv.ageAt + 2 ^ 18 → exec .ageingUpdate s = .next s)
    ∧ (s.cur ≠ 0 → s.tiv.ageAt + 2 ^ 18 ≤ s.upSlots → Gives .ageingUpdate s (fun t =>
        t.tiv.age = s.tiv.age + s.getS Reg.TIV_AGE_SLOPE ∧ t.tiv.ageAt = s.tiv.ageAt + 2 ^ 18
        ∧ t.tiv.loop = (if s.flag Reg.TIV_STAT_REFLOCK then s.tiv.loop - (t.tiv.ageTerm - s.tiv.ageTerm) else s.tiv.loop) ∧ code t))
    ∧ (∀ term : Int, s.tiv.frozen = false → Gives (.ref10Lock term) s (fun t =>
        t.tiv.loop = term ∧ t.tiv.age = s.tiv.age ∧ t.getF Reg.TIV_STAT_REFLOCK = 1 ∧ t.tiv.lockedAt ≠ none ∧ code t))
    ∧ (∀ term : Int, s.tiv.frozen = true → exec (.ref10Lock term) s = .next s)
    ∧ (∀ term : Int, Gives (.ref10Freeze term) s (fun t =>
        t.tiv.loop = term ∧ t.tiv.age = s.tiv.age ∧ t.getF Reg.TIV_STAT_REFLOCK = 0 ∧ t.tiv.lockedAt = none ∧ t.tiv.frozen = true ∧ code t))
    ∧ exec .clkRef10Valid s = .next { s with tiv := { s.tiv with frozen := false } }
    ∧ (∀ n : Nat, s.tiv.lockedAt = some n → n + 21600000000 ≤ s.upSlots → Gives .ageMeasUpdate s (fun t =>
        t.getS Reg.TIV_AGE_MEAS = satS 32 (fitSlope s.tiv.hist 1 256 + s.getS Reg.TIV_AGE_SLOPE) ∧ { t with regs := s.regs } = s))
    ∧ ((∀ n, s.tiv.lockedAt = some n → s.upSlots < n + 21600000000) → Gives .ageMeasUpdate s (fun t => t.getF Reg.TIV_AGE_MEAS = 0
        ∧ { t with regs := s.regs } = s)))

/-! ### Time bases and network time -/

/-- R251, R253 to R256: an offset of a time base's source moves the servo by its proportional and integral terms, each rounded to the
nearest 2^-40 with ties to even and held to SLEWMAX and FMAX (EXTERNAL_OFFSET at SRC 3; tau is the time since the write before, held to 1/128 s to
16 s); an offset beyond STEPLIM is refused, kept in TB_ROFF and leaves the time base in REFUSED at YI; a Sync with its Follow_Up gives the offset
t1 + d - t2, or the initial set, and one stamped before a command took effect is discarded and counted; a lost source leaves HOLDOVER at YI, or
at the rate of a commanded slew that runs. A port that may not write is turned away. -/
def Obligations.OffsetsAndServo : Prop :=
  ∀ (k : Fin 4) (s : State),
    let x := s.tb k
    let st := s.tbState k
    (∀ (port : Port) (theta : W64), s.portOpen port (Reg.TB_EXTOFF k) = false → exec (.externalOffset port k theta) s = .next s)
    ∧ (∀ (port : Port) (theta : W64), s.portOpen port (Reg.TB_EXTOFF k) = true → s.classOf port < 2 →
        Refuses (.externalOffset port k theta) s .SYS_AUTH_DENIED k (Reg.TB_EXTOFF k) port)
    ∧ (∀ (port : Port) (theta : W64) (u : Nat), s.portOpen port (Reg.TB_EXTOFF k) = true → 2 ≤ s.classOf port → x.srcNow = 3 → x.lastExt = some u → st = 2 ∨ st = 3 →
        s.getF (Reg.TB_STAT_CSLEW k) = 0 →
        let th := theta.toInt
        let den := 5 * min 51200000000 (max 25000000 (s.clk.uptime - u))
        let fmax := ppbUnits (s.getF (Reg.TB_SERVO_FMAX k))
        let smax := ppbUnits (s.getF (Reg.TB_SERVO_SLEWMAX k))
        let e := roundEven (th * 2 ^ 28) den
        let yp0 := roundEven e (2 ^ s.getF (Reg.TB_SERVO_KP k))
        let yp := max (-smax) (min smax yp0)
        let yi0 := s.getS (Reg.TB_FREQ_YI k)
        let yi := if yp0 = yp then clampI (-fmax) fmax (yi0 + roundEven e (2 ^ s.getF (Reg.TB_SERVO_KI k))) else yi0
        (th.natAbs ≤ 65536 * s.getF (Reg.TB_LIMITS_STEPLIM k) → Gives (.externalOffset port k theta) s (fun t =>
          t.reg (Reg.TB_OFFSET k) = theta ∧ t.getS (Reg.TB_FREQ_YI k) = yi ∧ t.getS (Reg.TB_FREQ_Y k) = clampI (-fmax) fmax (yi + yp)
          ∧ (t.tb k).lastExt = some s.clk.uptime ∧ (t.tb k).time = x.time))
        ∧ (65536 * s.getF (Reg.TB_LIMITS_STEPLIM k) < th.natAbs → Gives (.externalOffset port k theta) s (fun t =>
          t.tbState k = 5 ∧ t.reg (Reg.TB_ROFF k) = theta ∧ t.getF (Reg.TB_STAT_REFPEND k) = 1 ∧ t.getS (Reg.TB_FREQ_Y k) = yi0
          ∧ (t.tb k).time = x.time)))
    ∧ (∀ (l : Fin 4) (m : PtpMsg), s.fromParent k l m = true →
        (m.twoStep = true → Gives (.sync k l m) s (fun t =>
          (t.ptp k l).wait = some { m with rx := s.ingress l m.rx } ∧ { t with tbs := s.tbs } = s))
        ∧ (∀ d, m.twoStep = false → (s.ptp k l).delay = some d →
            let rx := s.ingress l m.rx
            (rx < (x.cmdAt * 320 : Nat) → Gives (.sync k l m) s (fun t => t.tbState k = st ∧ (t.tb k).time = x.time
              ∧ t.getF (Reg.TB_CNT_REFUSED k) = capAt (Reg.TB_CNT_REFUSED k).max (s.getF (Reg.TB_CNT_REFUSED k) + 1)))
            ∧ ((x.cmdAt * 320 : Nat) ≤ rx → st ≠ 0 → Gives (.sync k l m) s (fun t =>
              t.reg (Reg.TB_OFFSET k) = BitVec.ofInt 64 (m.ts + m.corr + d - s.localAt k rx) ∧ (t.tb k).lastOff = s.clk.uptime)))
        ∧ (∀ d y, (s.ptp k l).wait = some y → y.seq = m.seq → (s.ptp k l).delay = some d → (x.cmdAt * 320 : Nat) ≤ y.rx →
            let theta := m.ts + m.corr + y.corr + d - s.localAt k y.rx
            (st ≠ 0 → Gives (.followUp k l m) s (fun t => t.reg (Reg.TB_OFFSET k) = BitVec.ofInt 64 theta ∧ (t.ptp k l).wait = none))
            ∧ (st = 0 → Gives (.followUp k l m) s (fun t =>
                t.tbState k = 2 ∧ (t.tb k).time = ((x.time : Int) + theta * 2 ^ 32).toNat ∧ (t.tb k).lastOff = s.clk.uptime))))
    ∧ (∀ (l : Fin 4) (m : PtpMsg), s.fromParent k l m = false →
        exec (.sync k l m) s = .next s ∧ exec (.followUp k l m) s = .next s)
    ∧ (let since := s.clk.uptime - x.lastOff
      let lost := x.srcNow = 1 ∧ 3 * s.syncTicks k ≤ since ∨ x.srcNow = 2 ∧ 9600000000 ≤ since
        ∨ x.srcNow = 3 ∧ max (4 * x.tau) 3200000000 ≤ since
      (st = 2 ∨ st = 3 ∨ st = 5 → lost → Gives (.sourceLost k) s (fun t =>
        t.tbState k = 4 ∧ (t.tb k).lastPps = none ∧ (t.tb k).time = x.time ∧ t.getS (Reg.TB_FREQ_YI k) = s.getS (Reg.TB_FREQ_YI k)
        ∧ (x.slew = none → t.getS (Reg.TB_FREQ_Y k) = s.getS (Reg.TB_FREQ_YI k))
        ∧ ∀ rest, x.slew = some rest → t.getS (Reg.TB_FREQ_Y k) = s.slewRate k rest))
      ∧ (¬ (st = 2 ∨ st = 3 ∨ st = 5) ∨ ¬ lost → exec (.sourceLost k) s = .next s))

/-- R255, R259, R260, R262 (the exchanges as IEEE 1588 has them, log entry 15): MASTER ports send Sync and Announce and answer Delay_Req, a
port that follows its parent sends Delay_Req, every peer-to-peer port Pdelay_Req and its answers; the path delay is half the sum of the two
ways; the offer of a second Announce of a parent makes the port follow it; without Announce messages the parent is lost and the port
becomes MASTER; other messages are counted. -/
def Obligations.PtpExchanges : Prop :=
  ∀ (k l : Fin 4) (s : State),
    let p := s.ptp k l
    let p2p := s.getF (Reg.TB_CFG_P2P k)
    let sent := fun (t : State) (kind : BitVec 4) (seq : BitVec 16) =>
      ∃ f g, t.egressOf l = s.egressOf l ++ [f] ∧ f.ptp = some g ∧ g.kind = kind ∧ g.seq = seq ∧ g.srcId = s.clockId k
    (¬ (s.isPort k l = true ∧ s.pstate k l = 6 ∧ s.laneUp l = true) →
      exec (.syncInterval k l) s = .next s ∧ exec (.announceInterval k l) s = .next s)
    ∧ (s.isPort k l = true → s.pstate k l = 6 → s.laneUp l = true →
      Gives (.syncInterval k l) s (fun t => sent t 0 (BitVec.ofNat 16 (p.syncSeq + 1)) ∧ { t with tbs := s.tbs, sw := s.sw } = s)
      ∧ Gives (.announceInterval k l) s (fun t => sent t 11 (BitVec.ofNat 16 (p.annSeq + 1)) ∧ { t with tbs := s.tbs, sw := s.sw } = s
        ∧ ∃ f, (t.egressOf l).getLast? = some f ∧ f.words = s.annWords k))
    ∧ (s.isPort k l = true → s.laneUp l = true → p2p = 1 ∨ s.pstate k l = 8 ∨ s.pstate k l = 9 →
        Gives (.delayReqInterval k l) s (fun t =>
          sent t (if p2p = 1 then 2 else 1) (BitVec.ofNat 16 (p.reqSeq + 1)) ∧ { t with tbs := s.tbs, sw := s.sw } = s))
    ∧ (∀ m : PtpMsg, s.ptpMine k l m.domain m.tr = true → s.laneUp l = true →
        (p2p = 0 → s.pstate k l = 6 → Gives (.delayReq k l m) s (fun t => sent t 9 m.seq ∧ { t with sw := s.sw } = s))
        ∧ (p2p = 1 → Gives (.pdelayReq k l m) s (fun t => sent t 3 m.seq ∧ { t with sw := s.sw } = s)))
    ∧ (∀ (m : PtpMsg) (t1 rx tx : Int), p.sync = some (t1, rx) → p.reqTx = some tx → s.fromParent k l m = true →
        m.reqId = s.clockId k → m.seq.toNat = p.reqSeq → Gives (.delayResp k l m) s (fun t =>
          (t.ptp k l).delay = some (Int.fdiv ((s.localAt k rx - t1) + (m.ts - m.corr - s.localAt k tx)) 2) ∧ t.pstate k l = 9))
    ∧ (∀ (m : PtpMsg) (tx : Int), p.reqTx = some tx → s.peerMine k l m = true →
        (m.twoStep = true → Gives (.pdelayResp k l m) s (fun t =>
          (t.ptp k l).presp = some { m with rx := s.ingress l m.rx } ∧ { t with tbs := s.tbs } = s))
        ∧ (m.twoStep = false → Gives (.pdelayResp k l m) s (fun t =>
            (t.ptp k l).delay = some (Int.fdiv (s.localAt k (s.ingress l m.rx) - s.localAt k tx - m.corr) 2)))
        ∧ ∀ r, p.presp = some r → r.seq = m.seq → Gives (.pdelayRespFollowUp k l m) s (fun t =>
            (t.ptp k l).delay = some (Int.fdiv ((s.localAt k r.rx - s.localAt k tx) - (m.ts - r.ts) - r.corr - m.corr) 2)))
    ∧ (∀ a : AnnounceMsg, s.ptpMine k l a.domain a.tr = false ∨ s.pstate k l = 2 ∨ a.own = true ∨ a.srcId = s.clockId k ∨ 255 ≤ a.steps.toNat →
        exec (.announce k l a) s = .next s)
    ∧ (∀ (a : AnnounceMsg) (f : Foreign), s.ptpMine k l a.domain a.tr = true → s.pstate k l ≠ 2 → s.laneUp l = true → a.own = false →
        a.srcId ≠ s.clockId k → a.steps.toNat < 255 → p.foreign = [f] →
        f.ann.srcId = a.srcId → f.ann.srcPort = a.srcPort → 1 ≤ f.count → s.clk.uptime ≤ f.seen + 4 * s.annTicks k →
        (∀ j : Fin 4, s.isPort k j = true → j = l) → s.getF (Reg.TB_DS_SLAVE_ONLY k) = 1 → Gives (.announce k l a) s (fun t =>
          t.reg (Reg.TB_PARENT k) = a.srcId ∧ t.reg (Reg.TB_GMID k) = a.gmId ∧ t.getF (Reg.TB_STAT_GM k) = 0
          ∧ (t.tb k).parentAt = some l.val
          ∧ t.pstate k l = (if (t.ptp k l).delay.isSome then 9 else 8)
          ∧ (t.ptp k l).delay = (if s.reg (Reg.TB_PARENT k) = a.srcId ∨ p2p = 1 then p.delay else none)))
    ∧ (let lim := s.getF (Reg.TB_CFG_ARTO k) * s.annTicks k
      (s.isPort k l = false ∨ s.pstate k l = 1 ∨ s.pstate k l = 2 ∨ s.clk.uptime < p.heard + lim →
        exec (.announceReceiptTimeout k l) s = .next s)
      ∧ (s.isPort k l = true → s.pstate k l ≠ 1 → s.pstate k l ≠ 2 → p.heard + lim ≤ s.clk.uptime → s.laneUp l = true →
        (∀ j : Fin 4, s.isPort k j = true → j = l) → s.getF (Reg.TB_DS_SLAVE_ONLY k) = 0 → (s.tb k).parentAt = some l.val →
        s.tbState k = 2 ∨ s.tbState k = 3 → Gives (.announceReceiptTimeout k l) s (fun t =>
          t.tbState k = 4 ∧ t.pstate k l = 6 ∧ t.getF (Reg.TB_STAT_GM k) = 1 ∧ t.reg (Reg.TB_PARENT k) = s.clockId k)))
    ∧ Gives (.ptpDrop k) s (fun t =>
        t.getF (Reg.TB_CNT_PTP_DROP k) = capAt (Reg.TB_CNT_PTP_DROP k).max (s.getF (Reg.TB_CNT_PTP_DROP k) + 1)
        ∧ { t with regs := s.regs } = s)

/-- R250, R257, R258: a time command of an owner that passes the tests waits for the next slot boundary, behind those accepted before it, a lower class is refused with
TIME_CMD_AUTH, a command but SET to an unset time base with TIME_CMD_UNSET, an acceptance without a refused offset with TIME_CMD_NOREF; there SET
and STEP write the time and log TIME_STEP, SLEW runs at YI plus or minus SLEWMAX until it has moved the time by its offset and then at YI,
ACCEPT_STEP adds the refused offset, ACCEPT_SLEW leaves it to the servo. SAMPLE_TB may change to a set time base outside acquisition. -/
def Obligations.TimeCommands : Prop :=
  ∀ (k : Fin 4) (s : State),
    let x := s.tb k
    let st := s.tbState k
    (∀ (port : Port) (op : Nat) (c : Instr),
      (op, c) ∈ [(1, Instr.set port k), (2, .step port k), (3, .slew port k), (4, .acceptStep port k), (5, .acceptSlew port k)] →
        (s.portOpen port Reg.TIME_CMD = false → exec c s = .next s)
        ∧ (s.portOpen port Reg.TIME_CMD = true → (s.classOf port < 2 → Refuses c s .TIME_CMD_AUTH k Reg.TIME_CMD port)
        ∧ (2 ≤ s.classOf port → op ≠ 1 → st = 0 → Refuses c s .TIME_CMD_UNSET k Reg.TIME_CMD port)
        ∧ (2 ≤ s.classOf port → op = 4 ∨ op = 5 → st ≠ 0 → s.getF (Reg.TB_STAT_REFPEND k) = 0 → Refuses c s .TIME_CMD_NOREF k Reg.TIME_CMD port)
        ∧ (s.checkTimeCmd port k op = none → Gives c s (fun t =>
            t.tb k = { x with cmds := x.cmds ++ [s.timeCmdOf port op] } ∧ { t with tbs := s.tbs } = s))))
    ∧ (x.cmds = [] → exec (.timeCommandEffect k) s = .next s)
    ∧ (∀ (c : TimeCmd) (rest : List TimeCmd), x.cmds = c :: rest → s.clk.edges ≤ c.edge → exec (.timeCommandEffect k) s = .next s)
    ∧ (∀ (c : TimeCmd) (rest : List TimeCmd), x.cmds = c :: rest → c.edge < s.clk.edges →
        let old := x.time
        let kept := fun (t : State) => (t.tb k).cmds = rest ∧ (t.tb k).cmdAt = s.binsNow
          ∧ t.getS (Reg.TB_FREQ_YI k) = s.getS (Reg.TB_FREQ_YI k)
        let stepped := fun (t : State) (new : Nat) => (t.tb k).time = new ∧ kept t
          ∧ (k.val ≠ s.sampTb ∨ s.pps.highest ≤ new / slotUnits → Logged s t .TIME_STEP k (BitVec.ofNat 64 (old / secUnits)) (BitVec.ofNat 64 (old % secUnits / 2 ^ 48)))
        (c.op = 1 → st ≠ 0 → Gives (.timeCommandEffect k) s (fun t => stepped t (c.sec * secUnits + nsUnits c.ns)))
        ∧ (c.op = 1 → st = 0 → Gives (.timeCommandEffect k) s (fun t => (t.tb k).time = c.sec * secUnits + nsUnits c.ns ∧ kept t
          ∧ t.tbState k = 1 ∧ (t.tb k).phaseDue = (x.srcNow == 2)))
        ∧ (c.op = 2 → Gives (.timeCommandEffect k) s (fun t => stepped t ((old : Int) + c.off * 2 ^ 32).toNat))
        ∧ (c.op = 3 →
            let smax := ppbUnits (s.getF (Reg.TB_SERVO_SLEWMAX k))
            let fmax := ppbUnits (s.getF (Reg.TB_SERVO_FMAX k))
            let yi := s.getS (Reg.TB_FREQ_YI k)
            Gives (.timeCommandEffect k) s (fun t => t.getF (Reg.TB_STAT_CSLEW k) = 1 ∧ (t.tb k).slew = some (c.off * 2 ^ 32)
              ∧ t.getS (Reg.TB_FREQ_Y k) = clampI (-fmax) fmax (if 0 ≤ c.off then yi + smax else yi - smax) ∧ (t.tb k).time = old
              ∧ kept t))
        ∧ (c.op = 4 → Gives (.timeCommandEffect k) s (fun t =>
            stepped t ((old : Int) + (s.reg (Reg.TB_ROFF k)).toInt * 2 ^ 32).toNat ∧ t.tbState k = 2))
        ∧ (c.op = 5 → Gives (.timeCommandEffect k) s (fun t =>
            t.tbState k = 2 ∧ t.getF (Reg.TB_STAT_CSLEW k) = 1 ∧ (t.tb k).slew = none ∧ (t.tb k).time = old ∧ kept t)))
    ∧ (x.slew = some 0 → Gives (.slewComplete k) s (fun t =>
        t.tb k = { x with slew := none } ∧ t.getF (Reg.TB_STAT_CSLEW k) = 0 ∧ t.getS (Reg.TB_FREQ_Y k) = s.getS (Reg.TB_FREQ_YI k)
        ∧ { t with regs := s.regs, tbs := s.tbs } = s))
    ∧ (x.slew ≠ some 0 → exec (.slewComplete k) s = .next s)
    ∧ (∀ (port : Port) (v : W64), s.portOpen port Reg.TIME_CFG = true → 1 ≤ s.classOf port → (s.getF Reg.SYS_LOCK_LOCK).testBit 3 = false →
        bits v 1 0 = k.val →
        let no := fun (c : Cond) => Gives (.sampleTbWrite port v) s (fun t => t.sampTb = s.sampTb
          ∧ Logged s t c k (BitVec.ofNat 64 Reg.TIME_CFG) (BitVec.ofNat 64 port.val))
        (s.acquiring = true → no .TIME_SAMPLE_LIVE)
        ∧ (s.acquiring = false → st = 0 → no .TIME_CMD_UNSET)
        ∧ (s.acquiring = false → st ≠ 0 → s.tbSlot k < s.pps.highest → s.classOf port < 3 → no .TIME_STEP_BACK)
        ∧ (s.acquiring = false → st ≠ 0 → s.pps.highest ≤ s.tbSlot k → k.val ≠ s.sampTb → Gives (.sampleTbWrite port v) s (fun t =>
            t.sampTb = k.val ∧ t.clk.slot = x.time / slotUnits
            ∧ ∀ j : Fin 4, t.getF (Reg.TB_STAT_SAMPLING j) = (if j = k then 1 else 0))))

/-- R268 to R272: an alarm is armed for an instant at least two slots ahead on a set time base, not while it is armed; at its instant it fires, is
counted and logged where ACT asks, and disarms or waits one PERIOD more; PPS_OUT rises for WIDTH microseconds at each second of OUT_TB; a valid
PPS_IN edge gives its time base the offset to the nearest second, unless it was stamped before a command took effect; one without a time base
counts as bad. -/
def Obligations.AlarmsAndPps : Prop :=
  (∀ (port : Port) (a : Fin 16) (v : W64) (s : State),
    let c := Instr.alarmArm port a v
    let k := bits v 2 1
    (s.portOpen port (Reg.ALM_CFG a) = false → exec c s = .next s)
    ∧ (s.portOpen port (Reg.ALM_CFG a) = true →
    (s.classOf port = 0 → Refuses c s .SYS_AUTH_DENIED a (Reg.ALM_CFG a) port)
    ∧ (1 ≤ s.classOf port → s.getF (Reg.ALM_CFG_EN a) = 1 → Refuses c s .TIME_ALARM_LIVE a (Reg.ALM_CFG a) port)
    ∧ (1 ≤ s.classOf port → s.getF (Reg.ALM_CFG_EN a) = 0 → s.tbState k = 0 → Refuses c s .TIME_ALARM_UNSET a (Reg.ALM_CFG a) port)
    ∧ (1 ≤ s.classOf port → s.getF (Reg.ALM_CFG_EN a) = 0 → s.tbState k ≠ 0 → s.getF (Reg.ALM_NS_NS a) < 10 ^ 9 → bits v 63 16 = 0 →
        (s.alarmAt a < (s.tb k).time + 2 * slotUnits → Refuses c s .TIME_ALARM_PAST a (Reg.ALM_CFG a) port)
        ∧ ((s.tb k).time + 2 * slotUnits ≤ s.alarmAt a → Gives c s (fun t =>
            t.getF (Reg.ALM_CFG_EN a) = 1 ∧ t.getF (Reg.ALM_STAT_ARMED a) = 1 ∧ t.getF (Reg.ALM_CFG_TB a) = k ∧ t.alarmAt a = s.alarmAt a
            ∧ { t with regs := s.regs } = s)))))
  ∧ (∀ (a : Fin 16) (s : State),
      let now := (s.tb (s.getF (Reg.ALM_CFG_TB a))).time
      (s.getF (Reg.ALM_CFG_EN a) = 0 ∨ now < s.alarmAt a → exec (.alarmFire a) s = .next s)
      ∧ (s.getF (Reg.ALM_CFG_EN a) = 1 → s.alarmAt a ≤ now → Gives (.alarmFire a) s (fun t =>
          t.getF (Reg.ALM_STAT_FIRES a) = capAt (Reg.ALM_STAT_FIRES a).max (s.getF (Reg.ALM_STAT_FIRES a) + 1)
          ∧ (s.getF (Reg.ALM_CFG_PERIOD a) = 0 → t.getF (Reg.ALM_CFG_EN a) = 0 ∧ t.getF (Reg.ALM_STAT_ARMED a) = 0)
          ∧ (s.getF (Reg.ALM_CFG_PERIOD a) ≠ 0 → s.alarmAt a < 2 ^ 63 * secUnits →
              t.getF (Reg.ALM_CFG_EN a) = 1 ∧ t.alarmAt a = s.alarmAt a + nsUnits (s.getF (Reg.ALM_CFG_PERIOD a)))
          ∧ ((s.getF (Reg.ALM_CFG_ACT a)).testBit 1 = true →
              Logged s t .TIME_ALARM a (BitVec.ofNat 64 a.val) (s.reg (Reg.ALM_SEC a))))))
  ∧ (∀ s : State,
      let k := s.getF Reg.TIME_PPS_OUT_TB
      let sec := (((s.tb k).time : Int) + s.getS Reg.TIME_PPS_OFFSET * 2 ^ 48).toNat / secUnits
      let rises := fun (u : State) => exec .ppsOutPulse s = .next { u with pps := { u.pps with
        highTo := some (s.clk.uptime + 3200 * s.getF Reg.TIME_PPS_WIDTH) } }
      let frac := (((s.tb k).time : Int) + s.getS Reg.TIME_PPS_OFFSET * 2 ^ 48).toNat % secUnits
      (s.getF Reg.TIME_PPS_OUT_SRC = 1 → s.tbState k ≠ 0 → frac < slotUnits → s.pps.last ≠ some sec → s.ppsHigh = false →
        rises { s with pps := { s.pps with last := some sec } })
      ∧ (s.getF Reg.TIME_PPS_OUT_SRC = 1 → s.tbState k = 0 ∨ slotUnits ≤ frac ∨ s.pps.last = some sec → exec .ppsOutPulse s = .next s)
      ∧ (∀ n, s.getF Reg.TIME_PPS_OUT_SRC = 2 → s.pps.sched = some n → s.ppsHigh = false →
        rises { s with pps := { s.pps with sched := none } })
      ∧ (s.getF Reg.TIME_PPS_OUT_SRC = 2 → s.pps.sched = none → exec .ppsOutPulse s = .next s)
      ∧ (s.getF Reg.TIME_PPS_OUT_SRC = 0 → exec .ppsOutPulse s = .next s))
  ∧ (∀ (stamp : Int) (s : State),
      ((∀ j : Fin 4, (s.tb j).srcNow ≠ 2) → Gives (.ppsInEdge stamp) s (fun t =>
        t.getF Reg.TIME_PPSIN_BAD = capAt Reg.TIME_PPSIN_BAD.max (s.getF Reg.TIME_PPSIN_BAD + 1) ∧ { t with regs := s.regs } = s))
      ∧ (∀ k : Fin 4, (∀ j : Fin 4, (s.tb j).srcNow = 2 ↔ j = k) → s.tbState k ≠ 0 → (s.tb k).lastPps = none → (s.tb k).phaseDue = false →
          let bins := stamp - (s.getF Reg.TIME_PPSIN_DLY * 1024 / 5 : Nat)
          let time := s.tbTimeAt k bins
          let counted := fun (t : State) => (t.tb k).lastPps = some time
            ∧ t.getF Reg.TIME_PPSIN_ACCEPTED = capAt Reg.TIME_PPSIN_ACCEPTED.max (s.getF Reg.TIME_PPSIN_ACCEPTED + 1)
          ((s.tb k).cmdAt ≤ bins → Gives (.ppsInEdge stamp) s (fun t => counted t
            ∧ t.reg (Reg.TB_OFFSET k) = BitVec.ofInt 64 (roundEven (((nearestSec time * secUnits : Nat) : Int) - time) (2 ^ 32))))
          ∧ (bins < (s.tb k).cmdAt → Gives (.ppsInEdge stamp) s (fun t => counted t
            ∧ t.getF (Reg.TB_CNT_REFUSED k) = capAt (Reg.TB_CNT_REFUSED k).max (s.getF (Reg.TB_CNT_REFUSED k) + 1)
            ∧ (t.tb k).time = (s.tb k).time ∧ t.reg (Reg.TB_OFFSET k) = s.reg (Reg.TB_OFFSET k)))))

/-! ### Lanes and the switch -/

/-- R276 to R281, R284, R285: three identical capability sets make the lane acknowledge; a complete exchange with the own role and another
identity chooses the highest common rate, another role or the own identity is a mismatch; without capability sets a host lane is UP at rate 1, after
its autonegotiation where its partner asks for one, another is a mismatch, and a mismatch of roles begins anew after 1 s; the rate is trained 20 microseconds after the exchange, gives way to a lower one after
12 ms, and a trained lane is UP at it. -/
def Obligations.LaneBringUpSequence : Prop :=
  ∀ (l : Fin 4) (s : State),
    let x := s.lane l
    let start := fun t : State => t.laneState l =
      (if s.getF (Reg.LANE_CFG_EN l) = 0 then 0 else if s.getF (Reg.LANE_CFG_FIXRATE l) = 0 then 1 else 3)
    let mism := fun (t : State) (c : Cond) (again : Bool) =>
      t.laneState l = 6 ∧ Logged s t c l 0 0 ∧ (t.lane l).since = s.clk.uptime ∧ (t.lane l).retry = again
    (s.lanesRun = true → s.laneState l = 1 → x.target = 0 →
      (∀ o : BitVec 48, o.toNat = x.octets → x.seen = 2 → x.ack = false → Gives (.capabilitySet l o) s (fun t =>
        (t.lane l).ack = true ∧ (t.lane l).seen = 3 ∧ t.laneState l = 1 ∧ { t with lanes := s.lanes } = s))
      ∧ (∀ o : BitVec 48, o.toNat ≠ x.octets → x.ack = false → Gives (.capabilitySet l o) s (fun t =>
          (t.lane l).seen = 1 ∧ (t.lane l).ack = false ∧ (t.lane l).octets = o.toNat ∧ { t with lanes := s.lanes } = s))
      ∧ (∀ o : BitVec 48, x.ack = true → 7 ≤ x.sent → 2 ≤ x.acked → o.getLsbD 43 = true →
          (bits (BitVec.ofNat 64 o.toNat) 39 38 ≠ s.laneRole l → Gives (.capabilitySet l o) s (fun t => mism t .LANE_ROLE_MISMATCH true))
          ∧ (bits (BitVec.ofNat 64 o.toNat) 39 38 = s.laneRole l → o.toNat % 2 ^ 32 = s.id32 →
              Gives (.capabilitySet l o) s (fun t => mism t .LANE_SELF false))
          ∧ (bits (BitVec.ofNat 64 o.toNat) 39 38 = s.laneRole l → o.toNat % 2 ^ 32 ≠ s.id32 →
              Gives (.capabilitySet l o) s (fun t =>
                t.reg (Reg.LANE_PCAP l) = BitVec.ofNat 64 (2 ^ 63 + o.toNat) ∧ (t.lane l).target = ((t.commonRates l).head?).getD 1
                ∧ t.getF (Reg.LANE_STAT_PARTNER_NEIL l) = 1 ∧ (t.lane l).since = s.clk.uptime)))
      ∧ (s.laneRole l = 0 → Gives (.cl37Autonegotiation l) s (fun t => t.laneState l = 2 ∧ { t with regs := s.regs } = s))
      ∧ (s.laneRole l = 0 → Gives (.idleTimeout l) s (fun t =>
          t.laneState l = 4 ∧ t.getF (Reg.LANE_STAT_RATE l) = 1 ∧ t.getF (Reg.LANE_STAT_PARTNER_NEIL l) = 0 ∧ Logged s t .LANE_UP l 1 0))
      ∧ (∀ c, c = Instr.cl37Autonegotiation l ∨ c = Instr.idleTimeout l → s.laneRole l ≠ 0 →
          Gives c s (fun t => mism t .LANE_ROLE_MISMATCH false)))
    ∧ (s.lanesRun = true → s.laneState l = 2 → Gives (.cl37Autonegotiation l) s (fun t =>
        t.laneState l = 4 ∧ t.getF (Reg.LANE_STAT_RATE l) = 1 ∧ t.getF (Reg.LANE_STAT_PARTNER_NEIL l) = 0 ∧ Logged s t .LANE_UP l 1 0))
    ∧ (∀ o, s.lanesRun = false ∨ s.laneState l ≠ 1 ∨ x.target ≠ 0 →
        exec (.capabilitySet l o) s = .next s ∧ exec (.idleTimeout l) s = .next s)
    ∧ (s.laneState l = 6 → x.retry = true → x.since + 3200000000 ≤ s.clk.uptime → Gives (.exchangeRetry l) s (fun t =>
        start t ∧ (t.lane l).octets = 0 ∧ (t.lane l).losses = x.losses))
    ∧ (s.laneState l ≠ 6 ∨ x.retry = false ∨ s.clk.uptime < x.since + 3200000000 → exec (.exchangeRetry l) s = .next s)
    ∧ (s.laneState l = 1 → x.target ≠ 0 → x.since + 64000 ≤ s.clk.uptime → Gives (.trainingStart l) s (fun t =>
        t.laneState l = 3 ∧ { t with regs := s.regs } = s))
    ∧ (s.laneState l = 3 → 1 < x.target → s.getF (Reg.LANE_CFG_FIXRATE l) = 0 → x.since + 38400000 ≤ s.clk.uptime →
        Gives (.trainingDeadline l) s (fun t => 1 ≤ (t.lane l).target ∧ (t.lane l).target < x.target
          ∧ (t.lane l).failed = x.target :: x.failed ∧ (t.lane l).since = s.clk.uptime ∧ { t with lanes := s.lanes } = s))
    ∧ (s.laneState l = 3 → x.target < 4 → Gives (.laneUp l) s (fun t =>
        t.laneState l = 4 ∧ t.getF (Reg.LANE_STAT_RATE l) = x.target ∧ Logged s t .LANE_UP l (BitVec.ofNat 64 x.target) 0
        ∧ ((∀ k ∈ s.peersOf l, s.getF (Reg.LANE_STAT_ACTIVE k) = 0) → t.getF (Reg.LANE_STAT_ACTIVE l) = 1)))

/-- R282, R283, R285 to R287, R303, R320: a lane that declares loss records and logs it with the slot and begins its bring-up; the third loss of
a rate by errors within 600 s bars it for 3,600 s, after which, or when an owner clears it, the bar ends; the standby of a group takes over
after the loss of the active member or by an owner's word; what left 64 slots ago is released; a lane disabled is down with cause 7. Errors count
at the rates that have them only, and a port that may not write is turned away. -/
def Obligations.LaneLossAndGroups : Prop :=
  ∀ (l : Fin 4) (s : State),
    let x := s.lane l
    let start := if s.getF (Reg.LANE_CFG_EN l) = 0 then 0 else if s.getF (Reg.LANE_CFG_FIXRATE l) = 0 then 1 else 3
    let barred := fun (t : State) (r : Nat) => (t.getF (Reg.LANE_STAT_BARRED l)).testBit (r - 1)
    let rate := s.getF (Reg.LANE_STAT_RATE l)
    let may := fun cause : LossCause => cause = 1 ∨ cause = 2 ∨ (cause = 3 ∨ cause = 4) ∧ 2 ≤ rate
      ∨ (cause = 5 ∨ cause = 6) ∧ s.getF (Reg.LANE_STAT_FEC_ON l) = 1
    (∀ cause : LossCause, s.laneUp l = true → may cause → Gives (.laneDown l cause) s (fun t =>
      t.laneState l = start ∧ t.getF (Reg.LANE_STAT_LASTLOSS l) = cause.val ∧ t.getF (Reg.LANE_STAT_ACTIVE l) = 0
      ∧ t.getF (Reg.LANE_STAT_RATE l) = 0 ∧ t.getF (Reg.LANE_STAT_RETRAINS l) = capAt 65535 (s.getF (Reg.LANE_STAT_RETRAINS l) + 1)
      ∧ Logged s t .LANE_DOWN l (BitVec.ofNat 64 s.now) 0
      ∧ (cause = 3 ∨ cause = 5 ∨ cause = 6 → ∀ r, r = rate → r = 2 ∨ r = 3 →
          2 ≤ (x.losses.filter (fun e => e.1 == r && decide (s.upSlots < e.2 + 150000000))).length →
          barred t r = true ∧ (t.lane l).bars.get (fun _ => 0) r = s.upSlots + 900000000)))
    ∧ (∀ cause, s.laneUp l = false ∨ ¬ may cause → exec (.laneDown l cause) s = .next s)
    ∧ (∀ r : Fin 4, r = 2 ∨ r = 3 → 0 < x.bars.get (fun _ => 0) r → x.bars.get (fun _ => 0) r ≤ s.upSlots →
        Gives (.rateBarExpiry l r) s (fun t => barred t r = false ∧ (t.lane l).bars.get (fun _ => 0) r = 0
          ∧ { t with regs := s.regs, lanes := s.lanes } = s))
    ∧ (∀ (port : Port) (bs : BitVec 3), s.portOpen port (Reg.LANE_STAT l) = true →
        (s.classOf port < 2 → Refuses (.rateBarClear port l bs) s .SYS_AUTH_DENIED l (Reg.LANE_STAT l) port)
        ∧ (2 ≤ s.classOf port → Gives (.rateBarClear port l bs) s (fun t => { t with regs := s.regs, lanes := s.lanes } = s
            ∧ ∀ r, r = 2 ∨ r = 3 → barred t r = (barred s r && !bs.getLsbD (r - 1)))))
    ∧ (∀ (g a b : Fin 4) (n : Nat), g ≠ 0 → s.laneGroup a = g.val → s.laneGroup b = g.val → a ≠ b → (s.lane a).lostAt = some n → n < s.now →
        s.laneUp b = true → (∀ k : Fin 4, s.laneGroup k = g.val → s.getF (Reg.LANE_STAT_ACTIVE k) = 0 ∧ (k = a ∨ k = b)) →
        (s.lane b).lostAt = none → s.laneUp a = false → Gives (.laneFailover g) s (fun t =>
          t.getF (Reg.LANE_STAT_ACTIVE b) = 1 ∧ (t.lane a).lostAt = none
          ∧ Logged s t .LANE_FAILOVER a (BitVec.ofNat 64 a.val) (BitVec.ofNat 64 b.val)))
    ∧ (∀ (port : Port) (bs : BitVec 3),
        (s.portOpen port (Reg.LANE_STAT l) = false → exec (.rateBarClear port l bs) s = .next s)
        ∧ (s.portOpen port (Reg.LANE_CTL l) = false → exec (.makeActive port l) s = .next s)
        ∧ (s.portOpen port (Reg.LANE_CFG l) = false → exec (.laneDisable port l) s = .next s))
    ∧ (∀ port : Port, s.portOpen port (Reg.LANE_CTL l) = true →
        (s.classOf port < 2 → Refuses (.makeActive port l) s .SYS_AUTH_DENIED l (Reg.LANE_CTL l) port)
        ∧ (2 ≤ s.classOf port → s.laneGroup l = 0 → exec (.makeActive port l) s = .next s)
        ∧ (2 ≤ s.classOf port → s.laneGroup l ≠ 0 → s.laneUp l = false → Refuses (.makeActive port l) s .LANE_GROUP_DOWN l (Reg.LANE_CTL l) port)
        ∧ (2 ≤ s.classOf port → s.laneGroup l ≠ 0 → s.laneUp l = true → Gives (.makeActive port l) s (fun t =>
            t.getF (Reg.LANE_STAT_ACTIVE l) = 1 ∧ ∀ k ∈ s.peersOf l, t.getF (Reg.LANE_STAT_ACTIVE k) = 0)))
    ∧ (∀ (q : Fin 64) (p : Pkt) (n : Nat) (rest : List (Pkt × Nat)), (s.que q).sent = (p, n) :: rest → n + 64 * 12800 ≤ s.slotTicks → (s.que q).resend = [] →
        Gives (.heldWordsRelease q) s (fun t => t.que q = { s.que q with sent := rest, rp := p.start + p.n }
          ∧ { t with queues := s.queues } = s))
    ∧ (∀ port : Port, s.portOpen port (Reg.LANE_CFG l) = true → 2 ≤ s.classOf port → (s.getF Reg.SYS_LOCK_LOCK).testBit 5 = false → s.getF (Reg.LANE_CFG_FEC l) ≠ 3 →
        bit (s.reg (Reg.LANE_CFG l)) 8 = true → s.laneRole l ≠ 3 → s.getF (Reg.LANE_CFG_FIXRATE l) = 0 → s.laneGroup l = 0 →
        s.laneUp l = true → Gives (.laneDisable port l) s (fun t =>
          t.laneState l = 0 ∧ t.getF (Reg.LANE_CFG_EN l) = 0 ∧ t.getF (Reg.LANE_STAT_LASTLOSS l) = 7
          ∧ Logged s t .LANE_DOWN l (BitVec.ofNat 64 s.now) 0))

/-- R289 to R291: a lane test of an owner is tested in order and takes the lane out of service, as a loss with cause 7 where it was UP; its end returns
the lane, which an operator of the lane may ask for too, to its bring-up; the checker locks on 64 correct bits and loses lock on 64 errors within
1,024 bits; the bits in lock and their errors are counted. -/
def Obligations.LaneTests : Prop :=
  ∀ (l : Fin 4) (s : State),
    (∀ (port : Port) (v : W64),
      let c := Instr.laneTest port l v
      let role2 := s.laneRole l = 2 ∧ s.acquiring = true
      let combo := bits v 2 1 = 3 ∧ bits v 5 4 ≠ 0
      (s.portOpen port (Reg.LANE_TEST l) = false → exec c s = .next s ∧ exec (.laneTestEnd port l) s = .next s)
      ∧ (s.portOpen port (Reg.LANE_TEST l) = true → (s.classOf port < 2 → Refuses c s .SYS_AUTH_DENIED l (Reg.LANE_TEST l) port)
      ∧ (2 ≤ s.classOf port → bits v 5 4 = 3 → Refuses c s .LANE_TEST_PAT l (Reg.LANE_TEST l) port)
      ∧ (2 ≤ s.classOf port → bits v 5 4 ≠ 3 → combo → Refuses c s .LANE_TEST_COMBO l (Reg.LANE_TEST l) port)
      ∧ (2 ≤ s.classOf port → bits v 5 4 ≠ 3 → ¬ combo → port.val = l.val → Refuses c s .LANE_TEST_SELF l (Reg.LANE_TEST l) port)
      ∧ (2 ≤ s.classOf port → bits v 5 4 ≠ 3 → ¬ combo → port.val ≠ l.val → role2 → Refuses c s .LANE_TEST_ROLE l (Reg.LANE_TEST l) port)
      ∧ (2 ≤ s.classOf port → bits v 5 4 ≠ 3 → ¬ combo → port.val ≠ l.val → ¬ role2 → s.laneGroup l = 0 → Gives c s (fun t =>
          t.laneState l = 5 ∧ t.getF (Reg.LANE_TEST_EN l) = 1 ∧ t.getF (Reg.LANE_TEST_PAT l) = bits v 5 4
          ∧ t.getF (Reg.LANE_TEST_LOOP l) = bits v 2 1 ∧ t.getF (Reg.LANE_PRBS_LOCK l) = 0
          ∧ (s.laneUp l = true → t.getF (Reg.LANE_STAT_LASTLOSS l) = 7 ∧ Logged s t .LANE_DOWN l (BitVec.ofNat 64 s.now) 0)))))
    ∧ (∀ port : Port, s.portOpen port (Reg.LANE_TEST l) = true →
        (s.classOf port = 0 → Refuses (.laneTestEnd port l) s .SYS_AUTH_DENIED l (Reg.LANE_TEST l) port)
        ∧ (s.classOf port = 1 → port.val ≠ 5 → port.val ≠ l.val → Refuses (.laneTestEnd port l) s .SYS_AUTH_LANE l (Reg.LANE_TEST l) port))
    ∧ (∀ port : Port, s.portOpen port (Reg.LANE_TEST l) = true → 2 ≤ s.classOf port ∨ s.classOf port = 1 ∧ port.val = l.val → s.laneState l = 5 → s.getF (Reg.LANE_TEST_PAT l) ≠ 3 → Gives (.laneTestEnd port l) s (fun t =>
        t.getF (Reg.LANE_TEST_EN l) = 0 ∧ t.getF (Reg.LANE_STAT_RATE l) = 0 ∧ t.laneState l =
          (if s.getF (Reg.LANE_CFG_EN l) = 0 then 0 else if s.getF (Reg.LANE_CFG_FIXRATE l) = 0 then 1 else 3)))
    ∧ (∀ errors n : Nat,
      let counted := fun t : State =>
        t.getF (Reg.LANE_PRBS_ERR l) = capAt (2 ^ 32 - 1) (s.getF (Reg.LANE_PRBS_ERR l) + errors)
        ∧ t.getF (Reg.LANE_PRBS_BITS l) = capAt (2 ^ 30 - 1) (s.getF (Reg.LANE_PRBS_BITS l) + ((s.lane l).prbs + n) / 2 ^ 20)
        ∧ (t.lane l).prbs = ((s.lane l).prbs + n) % 2 ^ 20 ∧ { t with regs := s.regs, lanes := s.lanes } = s
      (s.laneState l = 5 → s.getF (Reg.LANE_TEST_PAT l) ≠ 0 → Gives (.prbsLock l errors n) s (fun t =>
        t.getF (Reg.LANE_PRBS_LOCK l) = 1 ∧ counted t))
      ∧ (s.laneState l ≠ 5 ∨ s.getF (Reg.LANE_TEST_PAT l) = 0 → exec (.prbsLock l errors n) s = .next s)
      ∧ (∀ span : Nat, s.getF (Reg.LANE_PRBS_LOCK l) = 1 → 64 ≤ errors → span ≤ 1024 → Gives (.prbsLocklost l errors n span) s (fun t =>
        t.getF (Reg.LANE_PRBS_LOCK l) = 0 ∧ t.getF (Reg.LANE_PRBS_LOCKLOST l) = 1 ∧ counted t))
      ∧ (∀ span : Nat, s.getF (Reg.LANE_PRBS_LOCK l) = 0 ∨ errors < 64 ∨ 1024 < span → exec (.prbsLocklost l errors n span) s = .next s))

/-- R292 to R299, R318: frames with a bad FCS and pause frames are counted and not forwarded, the hub's own address on a lane is a loop that blocks
flooding there; a frame for one lane waits at its egress with its octets, or is dropped and counted at the limit; a port sends the next frame or packet
of the highest priority; learned addresses age out; residences without a Follow_Up are dropped after 1 s; an owner ends a loop's block. -/
def Obligations.SwitchFrames : Prop :=
  (∀ (l : Fin 4) (f : Frame) (rx : Int) (s : State),
    let c := Instr.frameReceived l f rx
    let vid := s.vidOf l f
    let more := fun (t : State) (r : Fld) => t.getF r = capAt r.max (s.getF r + 1)
    let enters := f.fcsOk = true ∧ f.etype ≠ 0x8808 ∧ f.src.toNat ≠ s.getF Reg.SW_MAC_MAC ∧ s.pairRole l = false
      ∧ s.vlanMember vid l = true ∧ s.accepts l f = true ∧ f.ptp = none ∧ multicast f.src.toNat = false
    (s.laneUp l = false → exec c s = .next s)
    ∧ (s.laneUp l = true →
        (f.fcsOk = false → s.getF Reg.SW_CFG_CT = 0 → Gives c s (fun t =>
          more t (Reg.LANE_CNT_FCS_ERR l) ∧ more t (Reg.SW_CNT_DROP_FILT l) ∧ { t with regs := s.regs } = s))
        ∧ (f.fcsOk = true → f.etype = 0x8808 → Gives c s (fun t => more t (Reg.SW_CNT_PAUSE_RX l) ∧ { t with regs := s.regs } = s))
        ∧ (f.fcsOk = true → f.etype ≠ 0x8808 → f.src.toNat = s.getF Reg.SW_MAC_MAC → Gives c s (fun t =>
            more t Reg.SW_TCCNT_LOOPS ∧ t.getF (Reg.SW_PORT_LOOPBLK l) = 1 ∧ Logged s t .SW_LOOP l 0 0 ∧ t.sw = s.sw))
        ∧ (∀ p, enters → p < 4 → (s.learn f.src.toNat vid l).destinations l vid f = [p] → (∀ k : Fin 4, s.egressOf k = []) → Gives c s (fun t =>
            (∃ e ∈ t.sw.learned, e.mac = f.src.toNat ∧ e.vid = vid ∧ e.port = l.val)
            ∧ (f.octets ≤ s.getF Reg.SW_QLIM_BYTES → f.octets ≤ 2 ^ 20 → ∃ g, t.egressOf p = [g] ∧ g.words = f.words ∧ g.dst = f.dst.toNat
                ∧ g.src = f.src.toNat ∧ g.prio = s.prioOf l f ∧ g.octets = f.octets ∧ g.vid = vid)
            ∧ (s.getF Reg.SW_QLIM_BYTES < f.octets → t.egressOf p = [] ∧ more t (Reg.SW_CNT_DROP_Q p))))))
  ∧ (∀ (p : Fin 5) (bad : List Nat) (tx : Int) (prio src : Nat) (s : State), s.pick p = some (prio, src) → p.val < 4 → s.laneUp p = true →
      let sends := fun (t : State) (f : TxFrame) => t.sw.lastTx.get (fun _ => none) p = some f
      (∀ f, s.frameAt p prio src = some f →
        let left := fun t : State => t.egressOf p = dropFrame f (s.egressOf p)
        (f.ptp = none → Gives (.frameTransmit p bad tx) s (fun t => sends t f ∧ left t
          ∧ (f.again = false → { t with sw := s.sw } = s)
          ∧ (f.again = true → t.getF (Reg.LANE_CNT_RESENT p) = capAt (Reg.LANE_CNT_RESENT p).max (s.getF (Reg.LANE_CNT_RESENT p) + 1))))
        ∧ (∀ g, f.ptp = some g → f.origin ≠ 4 → g.kind = 1 ∨ g.kind = 2 ∨ g.kind = 3 ∨ g.kind = 10 → Gives (.frameTransmit p bad tx) s (fun t =>
            sends t { f with corr := f.corr + (s.egress p tx - f.rx) } ∧ left t
            ∧ (g.csum ≠ 1 → g.csum ≠ 3 → { t with sw := s.sw } = s))))
      ∧ (∀ q pk, s.frameAt p prio src = none → s.queueAt p prio = some (q, pk, false) → Gives (.frameTransmit p bad tx) s (fun t =>
          (t.que q).pkts = (s.que q).pkts.drop 1 ∧ (t.que q).sp = pk.start + pk.n
          ∧ ∃ f, sends t f ∧ f.words = s.pktWords q pk bad
            ∧ (t.que q).sent = (s.que q).sent ++ [(pk, s.slotTicks + frameTicks (s.getF (Reg.LANE_STAT_RATE p)) f.octets)])))
  ∧ (∀ (p : Fin 5) (bad : List Nat) (tx : Int) (s : State), s.pick p = none ∨ p.val < 4 ∧ s.laneUp p = false →
      exec (.frameTransmit p bad tx) s = .next s)
  ∧ (∀ (mac : BitVec 48) (vid : BitVec 12) (s : State), Gives (.fdbAgeOut mac vid) s (fun t =>
      { t with sw := s.sw } = s ∧ ∀ e, e ∈ t.sw.learned ↔ e ∈ s.sw.learned
        ∧ ¬ (e.mac = mac.toNat ∧ e.vid = vid.toNat ∧ e.seen + 250000 * s.getF Reg.SW_CFG_AGE ≤ s.upSlots)))
  ∧ (∀ s : State, Gives .tcNomatch s (fun t =>
      (∀ h, h ∈ t.sw.held ↔ h ∈ s.sw.held ∧ s.upSlots < h.held + 250000)
      ∧ t.getF Reg.SW_TCCNT_TC_NOMATCH = capAt Reg.SW_TCCNT_TC_NOMATCH.max
          (s.getF Reg.SW_TCCNT_TC_NOMATCH + (s.sw.held.length - t.sw.held.length))))
  ∧ (∀ (port : Port) (p : Fin 5) (s : State),
      (s.portOpen port (Reg.SW_PORT p) = false → exec (.loopBlockClear port p) s = .next s)
      ∧ (s.portOpen port (Reg.SW_PORT p) = true → s.classOf port < 2 → Refuses (.loopBlockClear port p) s .SYS_AUTH_DENIED p (Reg.SW_PORT p) port)
      ∧ (s.portOpen port (Reg.SW_PORT p) = true → 2 ≤ s.classOf port → Gives (.loopBlockClear port p) s (fun t =>
          t.getF (Reg.SW_PORT_LOOPBLK p) = 0 ∧ { t with regs := s.regs } = s)))

/-! ### Streams, queues, the ledger, the decoders -/

/-- R306, R307, R319, R320, R456: a stream is enabled where its KIND, its channels, its queue and the writer's authority pass (it begins at the
next slot boundary); an enabled entry takes no other write than EN = 0, which ends the stream at the next boundary; the data window
stores a word of a disabled entry and every access advances the pointer. A flush empties the queue, counts and logs the packets, or, where the
words of an open packet go on to come, logs them later; a queue that is switched off stays in force until the boundary. A port that may not write
is turned away, and in Belay the writes are refused. -/
def Obligations.StreamsAndQueues : Prop :=
  ∀ (port : Port) (s : State),
    (s.portOpen port Reg.STRM_DATA = false → ∀ (st : Fin 2048) (v : W64),
      exec (.streamEnable port st v) s = .next s ∧ exec (.streamDisable port st) s = .next s
      ∧ exec (.streamDataAccess port (some v)) s = .next s)
    ∧ (∀ q : Fin 64, (s.portOpen port (Reg.QUE_CTL q) = false → exec (.queueFlush port q) s = .next s)
      ∧ (s.portOpen port (Reg.QUE_CFG q) = false → exec (.queueDisable port q) s = .next s))
    ∧ (s.portOpen port Reg.STRM_DATA = true → s.mirrored port = true → 1 ≤ s.classOf port → ∀ (st : Fin 2048) (v : W64),
      Refuses (.streamEnable port st v) s .PAIR_MIRRORED 0 Reg.STRM_DATA port
      ∧ Refuses (.streamDisable port st) s .PAIR_MIRRORED 0 Reg.STRM_DATA port)
    ∧ (s.belay = false → s.cur ≠ 0 → s.portOpen port Reg.STRM_DATA = true →
    (∀ (st : Fin 2048) (value : W64), bit (s.strmWord st 0) 63 = false →
      let v := setBits value 63 63 1 &&& strmMask 0
      let q := bits v 53 48
      let c := Instr.streamEnable port st value
      let chans := if bits v 62 60 = 6 then bits v 26 18 = 0 ∧ bits v 35 27 = 0 else bits v 26 18 ≤ bits v 35 27 ∧ bits v 35 27 ≤ 391
      let queue := s.getF (Reg.QUE_CFG_EN q) = 1 ∧ (if bits v 62 60 = 6 then s.getF (Reg.QUE_CFG_PROD q) = 16 else s.getF (Reg.QUE_CFG_PROD q) < 16)
        ∧ ∀ x ∈ s.strm, x.1 % 4 = 0 → x.1 / 4 ≠ st.val → bit x.2 63 = true → bits x.2 53 48 ≠ q
      let kindOk := bits v 62 60 < 7 ∧ (bits v 62 60 = 6 → bits v 59 58 = 0)
      (bits v 62 60 = 7 → Refuses c s .STRM_KIND 0 Reg.STRM_DATA port)
      ∧ (bits v 62 60 = 6 → chans → bits v 59 58 ≠ 0 → Refuses c s .STRM_RATIO 0 Reg.STRM_DATA port)
      ∧ (kindOk → ¬ chans → Refuses c s .STRM_CHANS 0 Reg.STRM_DATA port)
      ∧ (kindOk → chans → ¬ queue → Refuses c s .STRM_QUEUE 0 Reg.STRM_DATA port)
      ∧ (kindOk → chans → queue → s.classOf port = 0 → Refuses c s .STRM_AUTH 0 Reg.STRM_DATA port)
      ∧ (kindOk → chans → queue → 2 ≤ s.classOf port ∨ (s.classOf port = 1 ∧ port.val = q / 16) → Gives c s (fun t =>
          t.strmWord st 0 = v ∧ (t.strmSt st).rising = true ∧ (t.strmSt st).on = (s.strmSt st).on
          ∧ { t with strm := s.strm, strms := s.strms } = s)))
    ∧ (∀ (st : Fin 2048) (value : W64), bit (s.strmWord st 0) 63 = true → s.strmWord st 0 &&& strmMask 0 = s.strmWord st 0 →
        let old := s.strmWord st 0
        (s.classOf port = 0 → Refuses (.streamDisable port st) s .SYS_AUTH_DENIED 0 Reg.STRM_DATA port)
        ∧ (1 ≤ s.classOf port → s.laneScope port (bits old 53 48 / 16) = true →
            Refuses (.streamEnable port st value) s .STRM_LIVE 0 Reg.STRM_DATA port
            ∧ Gives (.streamDisable port st) s (fun t =>
                t.strmWord st 0 = setBits old 63 63 0 ∧ (t.strmSt st).falling = (s.strmSt st).on ∧ (t.strmSt st).on = (s.strmSt st).on
                ∧ { t with strm := s.strm, strms := s.strms } = s)))
    ∧ (let p := bits (s.copy port Reg.STRM_PTR) 12 0
       let next := BitVec.ofNat 64 ((p + 1) % 8192)
       Gives (.streamDataAccess port none) s (fun t => t.copy port Reg.STRM_PTR = next ∧ { t with copies := s.copies } = s)
       ∧ ∀ v : W64, bit (s.strmWord (p / 4) 0) 63 = false → p % 4 = 1 ∨ p % 4 = 2 → 1 ≤ s.classOf port →
          s.laneScope port (bits (s.strmWord (p / 4) 0) 53 48 / 16) = true →
          Gives (.streamDataAccess port (some v)) s (fun t =>
            t.strmWord (p / 4) (p % 4) = v &&& strmMask (p % 4) ∧ t.copy port Reg.STRM_PTR = next
            ∧ { t with copies := s.copies, strm := s.strm } = s))
    ∧ (∀ q : Fin 64,
        (s.classOf port = 0 → Refuses (.queueFlush port q) s .SYS_AUTH_DENIED q (Reg.QUE_CTL q) port
          ∧ Refuses (.queueDisable port q) s .SYS_AUTH_DENIED q (Reg.QUE_CFG q) port)
        ∧ (s.classOf port = 1 → port.val ≠ q.val / 16 → Refuses (.queueFlush port q) s .SYS_AUTH_LANE q (Reg.QUE_CTL q) port
          ∧ Refuses (.queueDisable port q) s .SYS_AUTH_LANE q (Reg.QUE_CFG q) port)
        ∧ (2 ≤ s.classOf port ∨ (s.classOf port = 1 ∧ port.val = q.val / 16) →
            (let x := s.que q
             let st := (s.streamOf q).getD ((x.pkts.head?.map (fun p => p.stream)).getD 0)
             let later := x.disc || (x.open_.isSome && s.ratio st == 0)
             Gives (.queueFlush port q) s (fun t =>
              { t.que q with lost := x.lost } = { x with pkts := [], open_ := none, wp := x.sp, disc := later }
              ∧ t.getF (Reg.QUE_CTL_FLUSHED q) = capAt (Reg.QUE_CTL_FLUSHED q).max (s.getF (Reg.QUE_CTL_FLUSHED q) + x.pkts.length)
              ∧ (∀ p rest, x.pkts = p :: rest → later = false → x.lost = [] →
                  (t.que q).lost = [] ∧ Logged s t .QUE_FLUSH 0 (BitVec.ofNat 64 st) (BitVec.ofNat 64 p.seq))
              ∧ (later = true → x.pkts ≠ [] ∨ x.open_.isSome = true → (t.que q).lost.length = x.lost.length + 1 ∧ t.evt = s.evt)
              ∧ (x.pkts ≠ [] ∨ x.open_.isSome = true → (t.strmSt st).flush = true)
              ∧ (∀ k : Fin 64, k ≠ q → t.que k = s.que k)
              ∧ { t with queues := s.queues, strms := s.strms, regs := s.regs, evt := s.evt } = s))
            ∧ Gives (.queueDisable port q) s (fun t =>
              t.getF (Reg.QUE_CFG_EN q) = 0 ∧ t.eff (Reg.QUE_CFG q) = s.eff (Reg.QUE_CFG q)
              ∧ (∀ a, a ≠ Reg.QUE_CFG q → t.reg a = s.reg a) ∧ { t with regs := s.regs, effOld := s.effOld } = s))))

/-- R323 to R325, R337 to R340, R342 to R344: a record that waits is coded at its ratio, counted and written to the ledger, which keeps it
as its newest; on an enabled compressed stream it also enters the queue where it fits the room. A record that fits no budget, or fails its
self-check twice, the 16th within 2^18 slots being a fault of the coder, is counted, logged and written raw; with the coder faulted every record is raw. A host's block is checked:
mask 0 with the values, else the mask alone. A peer's coded packet is decoded into the ring of its entry and touches no other byte
of bulk memory; one that no entry takes is counted. -/
def Obligations.LedgerCoding : Prop :=
  ∀ s : State,
    (∀ (st : Fin 2048) (chan : Fin 392) (fails : Fin 3) (x : LedLane),
      s.led.blocks.find? (fun l => l.stream == st.val && l.chan == chan.val) = some x →
      let ratio := s.laneRatio st
      let raw := x.recordWords 0 (rawWords (fill64 x.vals))
      let fits := fun ws : List W64 => ((s.led.ring.map LedRec.octets).sum + 8 * ws.length) ≤ s.ledSize
      let written := fun (t : State) (r : Nat) (ws : List W64) =>
        t.led.blocks = s.led.blocks.erase x ∧ t.reg Reg.LED_NEWEST = BitVec.ofNat 64 x.first
        ∧ (fits ws → t.led.ring = s.led.ring ++ [{ stream := x.stream, chan := x.chan, first := x.first, count := x.vals.length, stride := x.stride,
                                                   ratio := r, words := ws, orig := x.vals, pos := s.led.pos, bad := false }]
              ∧ t.reg Reg.LED_HORIZON = s.reg Reg.LED_HORIZON)
      (s.getF Reg.CMP_LAST_CODER_FAULT = 1 → Gives (.blockCode st chan fails) s (fun t => written t 0 raw))
      ∧ (s.getF Reg.CMP_LAST_CODER_FAULT = 0 → codeLane x ratio = none → Gives (.blockCode st chan fails) s (fun t => written t 0 raw
          ∧ t.getF Reg.CMP_CNT_UNFIT = capAt Reg.CMP_CNT_UNFIT.max (s.getF Reg.CMP_CNT_UNFIT + 1)
          ∧ Logged s t .CMP_UNFIT 0 (BitVec.ofNat 64 st.val) (BitVec.ofNat 64 chan.val)))
      ∧ (s.getF Reg.CMP_LAST_CODER_FAULT = 0 → codeLane x ratio ≠ none → fails.val = 2 → Gives (.blockCode st chan fails) s (fun t => written t 0 raw
          ∧ t.getF Reg.CMP_CNT_SELFCHK = capAt Reg.CMP_CNT_SELFCHK.max (s.getF Reg.CMP_CNT_SELFCHK + 1)
          ∧ t.getF Reg.CMP_LAST_CODER_FAULT =
              (if 15 ≤ (s.led.fails.filter (fun e => decide (s.clk.edges < e + 2 ^ 18))).length then 1 else 0)
          ∧ Logged s t .CMP_SELFCHECK 0 (BitVec.ofNat 64 st.val) (BitVec.ofNat 64 chan.val)))
      ∧ (∀ shift ws, s.getF Reg.CMP_LAST_CODER_FAULT = 0 → fails.val ≠ 2 → codeLane x ratio = some (shift, ws) →
          Gives (.blockCode st chan fails) s (fun t => written t ratio ws
          ∧ t.getF Reg.CMP_STAT_BLOCKS = capAt Reg.CMP_STAT_BLOCKS.max (s.getF Reg.CMP_STAT_BLOCKS + 1)
          ∧ t.getF Reg.CMP_STAT_LOSSY = (if shift = 0 then s.getF Reg.CMP_STAT_LOSSY
              else capAt Reg.CMP_STAT_LOSSY.max (s.getF Reg.CMP_STAT_LOSSY + 1))
          ∧ (s.ratio st = 0 → t.queues = s.queues)
          ∧ (s.ratio st ≠ 0 → (s.strmSt st).on = true → s.kind st < 6 → ws.length ≤ s.room (s.strmQueue st) →
              (t.que (s.strmQueue st)).wp = (s.que (s.strmQueue st)).wp + ws.length))))
    ∧ (∀ (st : Fin 2048) (chan : Fin 392) (fails : Fin 3), s.led.blocks.find? (fun l => l.stream == st.val && l.chan == chan.val) = none →
      exec (.blockCode st chan fails) s = .next s)
    ∧ (∀ (l : Fin 4) (h : CmdHdr) (ratio : BitVec 2) (block : List W64), Accepts s l h 0x12 (BitVec.ofNat 64 ratio.toNat :: block) 0 false →
        let c := Instr.decode l h ratio block
        let n := if ratio = 0 then 32 else budget ratio.toNat / 64
        (block.length ≠ n → Gives c s (fun t => Answered s t l h 0x12 3 []))
        ∧ (block.length = n → ratio = 0 → Gives c s (fun t => Answered s t l h 0x12 0 (0 :: block) ∧ t.getF Reg.CMP_MASK_MASK = 0))
        ∧ (∀ m d, block.length = n → ratio ≠ 0 → decodeHost ratio.toNat block = (m, d) →
            (m = 0 → Gives c s (fun t => Answered s t l h 0x12 0 (0 :: valueWords d)))
            ∧ (m ≠ 0 → Gives c s (fun t => Answered s t l h 0x12 0 [BitVec.ofNat 64 m]
                ∧ t.getF Reg.CMP_CNT_HOST_FAULT = capAt Reg.CMP_CNT_HOST_FAULT.max (s.getF Reg.CMP_CNT_HOST_FAULT + 1)))))
    ∧ (∀ (l : Fin 4) (smac dmac : BitVec 48) (words : List W64), s.getF (Reg.LANE_CFG_ROLE l) = 1 → dmac.toNat = s.getF Reg.SW_MAC_MAC →
        bits (words.getD 0 0) 59 56 = 1 → bits (words.getD 3 0) 39 36 ∈ [1, 2, 3, 8] →
        let entry := (List.range 8).find? (fun j => s.flag (Reg.CMP_RX_CFG_EN j) && s.getF (Reg.CMP_RX_CFG_STREAM j) == bits (words.getD 0 0) 55 45
          && s.getF (Reg.CMP_RX_CFG_SMAC j) == smac.toNat)
        let c := Instr.peerPacket l smac dmac words
        (entry = none → Gives c s (fun t =>
            t.getF Reg.CMP_LAST_RX_UNMATCHED = capAt Reg.CMP_LAST_RX_UNMATCHED.max (s.getF Reg.CMP_LAST_RX_UNMATCHED + 1)
            ∧ { t with regs := s.regs } = s))
        ∧ ∀ j, entry = some j → Gives c s (fun t =>
            let base := 8192 * s.getF (Reg.CMP_RX_RING_BASE j)
            let out := (splitRecords 16 (words.drop 4)).flatMap (fun r => (peerRecord r.1 r.2).1)
            let size := 2 ^ s.getF (Reg.CMP_RX_RING_SIZE j)
            let wp := (s.reg (Reg.CMP_RX_WP j)).toNat
            t.getF (Reg.CMP_RX_CNT_PKTS j) = capAt (Reg.CMP_RX_CNT_PKTS j).max (s.getF (Reg.CMP_RX_CNT_PKTS j) + 1)
            ∧ t.peerSeq.get (fun _ => none) j = some (bits (words.getD 0 0) 31 0)
            ∧ t.reg (Reg.CMP_RX_WP j) = BitVec.ofNat 64 (wp + out.length)
            ∧ (∀ a, a < base ∨ base + 8 * size ≤ a → Memory.get t.dram a = Memory.get s.dram a)
            ∧ (out.length ≤ size → ∀ k < out.length, Memory.word t.dram (base + 8 * ((wp + k) % size)) = out.getD k 0)
            ∧ { t with regs := s.regs, dram := s.dram, poison := s.poison, evt := s.evt, peerSeq := s.peerSeq } = s))

/-- R326 to R328: a replay request for a stream that is not of KIND 6 names, in order: the stream, the range, a port with 4 replays; else the
replay waits with its tag and the command is answered DONE. Its records go out in packets of CMODE 8 under consecutive numbers while
the lane is UP; once none is left (or after an abort) a status packet of CMODE 9 with LAST ends it. -/
def Obligations.ReplayCommands : Prop :=
  ∀ (l : Fin 4) (h : CmdHdr) (s : State),
    (∀ w1 w2 w3 : W64, Accepts s l h 0x10 [w1, w2, w3] 0 false →
      let c := Instr.replay l h w1 w2 w3
      let st := bits w1 63 53
      let range := bits w1 43 35 ≤ bits w1 52 44 ∧ bits w1 52 44 ≤ 391 ∧ w2.toNat ≤ w3.toNat
      let few := (s.led.replays.filter (fun r => r.port == l.val)).length < 4
      let no := fun cond => Gives c s (fun t => Answered s t l h 0x10 2 [] ∧ t.led = s.led ∧ Logged s t cond 0 0x10 (BitVec.ofNat 64 l.val))
      (s.kind st = 6 → no .LED_REPLAY_STREAM) ∧ (s.kind st ≠ 6 → ¬ range → no .LED_REPLAY_RANGE)
      ∧ (s.kind st ≠ 6 → range → ¬ few → no .LED_REPLAY_BUSY)
      ∧ (s.kind st ≠ 6 → range → few → Gives c s (fun t => Answered s t l h 0x10 0 []
          ∧ t.led = { s.led with replays := s.led.replays ++
              [{ port := l, tag := bits w1 12 0, stream := st, chlo := bits w1 43 35, chhi := bits w1 52 44, from_ := w2.toNat, to_ := w3.toNat,
                 prio := bits w1 34 32, dst := h.src.toNat, seq := 0, cursor := none, spans := [], status := none, cut := false, abort := false }] })))
    ∧ (∀ (tag : BitVec 13) (r : Replay), Accepts s l h 0x11 [BitVec.ofNat 64 tag.toNat] 0 false → s.replay l tag.toNat = some r →
        Gives (.replayAbort l h tag) s (fun t => Answered s t l h 0x11 0 [] ∧ t.replay l tag.toNat = some { r with abort := true }))
    ∧ (∀ tag : BitVec 13, s.replay l tag.toNat = none →
        (Accepts s l h 0x11 [BitVec.ofNat 64 tag.toNat] 0 false →
          Gives (.replayAbort l h tag) s (fun t => Answered s t l h 0x11 0 [] ∧ t.led = s.led))
        ∧ exec (.replayPacket l tag) s = .next s ∧ exec (.replayStatusPacket l tag) s = .next s)
    ∧ (∀ (tag : BitVec 13) (r r' : Replay) (k : LedRec) (ks : List LedRec), s.replay l tag.toNat = some r → r.abort = false → r.cut = false →
        r.status = none → s.laneUp (s.carrier l) = true → s.packRecords 16 129 r = (k :: ks, r') →
        let port := s.carrier l
        let payload := (k :: ks).flatMap (fun x => x.words)
        Gives (.replayPacket l tag) s (fun t =>
          (∃ (f : TxFrame) (flags check : Nat), t.egressOf port = s.egressOf port ++ [f] ∧ f.prio = r.prio ∧ f.dst = r.dst
            ∧ f.words = packetHeader 2 r.stream r.tag r.seq k.first (s.h2At k.first) flags payload.length 8 check ++ payload)
          ∧ t.replay l tag.toNat = some { r' with seq := r.seq + 1 } ∧ t.led.ring = s.led.ring))
    ∧ (∀ (tag : BitVec 13) (r : Replay), s.replay l tag.toNat = some r → s.laneUp (s.carrier l) = true → r.status = none →
        r.abort = true ∨ s.nextRecord r = none → (s.replayStatus r).length ≤ 43 →
        let port := s.carrier l
        let words := (s.replayStatus r).flatMap statusWords
        let at_ := ((s.replayStatus r).head?.map (fun e => e.2.2.2.1)).getD r.from_
        Gives (.replayStatusPacket l tag) s (fun t =>
          (∃ (f : TxFrame) (check : Nat), t.egressOf port = s.egressOf port ++ [f] ∧ f.prio = r.prio ∧ f.dst = r.dst
            ∧ f.words = packetHeader 2 r.stream r.tag r.seq at_ (s.h2At at_) 64 words.length 9 check ++ words)
          ∧ t.replay l tag.toNat = none ∧ { t with led := s.led, sw := s.sw } = s))

/-! ### Access by hosts -/

/-- R7, R229, R347, R350, R356 to R359, R451, R452, R454, R457, R461, R496: a READ of a SYS word answers its address and value and clears its RC
fields; a WRITE of a plain word by an operator stores its fields and counts reserved bits; below the class it is refused with AUTH and
logged; MWRITE keeps the bits outside the mask; a group is latched as one; record data are read where the record is readable; the class
table and the locks change only by an owner; a write of an unimplemented word is counted and changes nothing. A port that may not write a word
is turned away. -/
def Obligations.HostReadsAndWrites : Prop :=
  ∀ (s : State),
    let own : W64 := 0x1F1F
    let rsvd := fun (t : State) (v : W64) => t.getF Reg.SYS_ERRCNT_RSVD =
      (if v &&& ~~~ own = 0 then s.getF Reg.SYS_ERRCNT_RSVD else capAt Reg.SYS_ERRCNT_RSVD.max (s.getF Reg.SYS_ERRCNT_RSVD + 1))
    (∀ (l : Fin 4) (h : CmdHdr) (w1 : W64),
      let a := bits w1 12 0
      (∀ d, bits w1 22 16 = 0 → a < 0x100 → findReg a = some d → copiedWord a = false → a ≠ Reg.SYS_SPLOST → a ≠ Reg.SYS_HOST l →
        Accepts s l h 1 [w1] 0 true → Gives (.read l h w1) s (fun t =>
          Answered s t l h 1 0 [BitVec.ofNat 64 a, s.reg a] ∧ t.reg a = s.reg a &&& ~~~ d.accMask (fun c => c == .rc)
          ∧ { t with regs := s.regs, hosts := s.hosts } = s))
      ∧ (∀ v : W64, Accepts s l h 2 [w1, v] 0 false → bits w1 22 16 = 0 → a = Reg.EVT_CFG →
          (s.classOf l = 0 → Gives (.write l h w1 [v]) s (fun t => Answered s t l h 2 1 []
            ∧ Logged s t .SYS_AUTH_DENIED 0 (BitVec.ofNat 64 Reg.EVT_CFG) (BitVec.ofNat 64 l.val) ∧ t.reg Reg.EVT_CFG = s.reg Reg.EVT_CFG))
          ∧ (1 ≤ s.classOf l → Gives (.write l h w1 [v]) s (fun t => Answered s t l h 2 0 []
            ∧ t.reg Reg.EVT_CFG = v &&& own ∧ rsvd t v ∧ { t with regs := s.regs, hosts := s.hosts } = s)))
      ∧ (∀ values : List W64, Accepts s l h 2 (w1 :: values) 0 false → values.length ≠ bits w1 22 16 + 1 →
          Gives (.write l h w1 values) s (fun t => Answered s t l h 2 3 [] ∧ { t with regs := s.regs, hosts := s.hosts } = s))
      ∧ (∀ m v : W64, Accepts s l h 4 [w1, m, v] 0 false → a = Reg.EVT_CFG → 1 ≤ s.classOf l →
          Gives (.mwrite l h [w1, m, v]) s (fun t => Answered s t l h 4 0 []
            ∧ t.reg Reg.EVT_CFG = ((s.reg Reg.EVT_CFG &&& ~~~ m) ||| (v &&& m)) &&& own ∧ { t with regs := s.regs, hosts := s.hosts } = s))
      ∧ (Accepts s l h 3 [w1] 0 false →
          (a = Reg.SYS_MODE → Gives (.snapshot l h w1) s (fun t =>
            Answered s t l h 3 0 [BitVec.ofNat 64 a, s.reg Reg.SYS_MODE, s.reg Reg.SYS_MODE_SLOT]))
          ∧ (snapGroup a = none → Gives (.snapshot l h w1) s (fun t => Answered s t l h 3 3 [])))
      ∧ (∀ w2 : W64, Accepts s l h 0x13 [w1, w2] 0 false → 8 ≤ w2.toNat → w2.toNat ≤ 1024 → w2.toNat % 8 = 0 →
          let i := bits w1 63 56
          let off := bits w1 39 0
          (s.readable i = false → Gives (.capRead l h w1 w2) s (fun t => Answered s t l h 0x13 2 []
            ∧ Logged s t .CAP_LOCKED 0 0x13 (BitVec.ofNat 64 l.val)))
          ∧ (s.readable i = true → off % 8 = 0 → off + w2.toNat ≤ s.recordLen i → s.cap.bad = [] →
            Gives (.capRead l h w1 w2) s (fun t => Answered s t l h 0x13 0
              (bytesToWords (w2.toNat / 8) (s.recordBytes i (bits (s.desc i 11) 31 0) off w2.toNat))
              ∧ { t with regs := s.regs, hosts := s.hosts } = s))))
    ∧ (∀ (port : Port) (v : W64),
        let c := Instr.authWrite port v
        let low := ∀ p < 5, authOf v p ≤ s.classOf port ∨ authOf v p = authOf (s.reg Reg.SYS_AUTH) p
        let kept := ∃ p < 5, s.pairRole p = false ∧ 2 ≤ authOf v p
        (s.portOpen port Reg.SYS_AUTH = false → exec c s = .next s)
        ∧ (s.portOpen port Reg.SYS_LOCK = false → exec (.lockWrite port v) s = .next s)
        ∧ (∀ addr : BitVec 13, s.portOpen port addr.toNat = false → exec (.registerWrite port addr v) s = .next s)
        ∧ (s.cur ≠ 0 → s.portOpen port Reg.SYS_AUTH = true →
        (s.classOf port < 2 → Refuses c s .SYS_AUTH_DENIED 0 Reg.SYS_AUTH port ∧ Refuses (.lockWrite port v) s .SYS_AUTH_DENIED 0 Reg.SYS_LOCK port)
        ∧ (2 ≤ s.classOf port → (s.getF Reg.SYS_LOCK_LOCK).testBit 0 = true → (v ^^^ s.reg Reg.SYS_AUTH) &&& 0x80000000000003FF ≠ 0 →
            Gives c s (fun t => Logged s t .SYS_LOCKED 0 (BitVec.ofNat 64 Reg.SYS_AUTH) (BitVec.ofNat 64 port.val)
              ∧ (∀ p < 5, t.classOf p = s.classOf p) ∧ { t with regs := s.regs, evt := s.evt } = s))
        ∧ (2 ≤ s.classOf port → (s.getF Reg.SYS_LOCK_LOCK).testBit 0 = false →
            (¬ low → Refuses c s .SYS_AUTH_RAISE 0 Reg.SYS_AUTH port)
            ∧ (low → ¬ kept → Refuses c s .SYS_AUTH_ORPHAN 0 Reg.SYS_AUTH port)
            ∧ (low → kept → Gives c s (fun t => (∀ p < 5, t.classOf p = authOf v p) ∧ { t with regs := s.regs } = s)))
        ∧ (2 ≤ s.classOf port → Gives (.lockWrite port v) s (fun t =>
            (∀ i < 21, (t.getF Reg.SYS_LOCK_LOCK).testBit i
              = ((s.getF Reg.SYS_LOCK_LOCK).testBit i || v.toNat.testBit i || (i == 0 && s.getF Reg.SYS_AUTH_LOCK == 1)))
            ∧ t.getF Reg.SYS_AUTH_LOCK = b2n ((t.getF Reg.SYS_LOCK_LOCK).testBit 0) ∧ { t with regs := s.regs } = s))
        ∧ (∀ addr : BitVec 13,
            (findReg addr.toNat = none → Gives (.registerWrite port addr v) s (fun t =>
              t.getF Reg.SYS_ERRCNT_UNIMPL = capAt Reg.SYS_ERRCNT_UNIMPL.max (s.getF Reg.SYS_ERRCNT_UNIMPL + 1) ∧ { t with regs := s.regs } = s))
            ∧ (∀ d, findReg addr.toNat = some d → s.classOf port < s.needClass (s.wctx port) addr.toNat v →
                Refuses (.registerWrite port addr v) s .SYS_AUTH_DENIED (d.unit addr.toNat) addr.toNat port)
            ∧ (addr.toNat = Reg.EVT_CFG → 1 ≤ s.classOf port → Gives (.registerWrite port addr v) s (fun t =>
                t.reg Reg.EVT_CFG = v &&& own ∧ rsvd t v ∧ { t with regs := s.regs } = s)))))

/-- R348, R352 to R355, R358, R360, R362, R374, R446: a command beyond a full context is dropped and counted, a repeat is answered from the
store, one not served in the mode is answered MODE, an unknown one ILLEGAL; a program command enters a free mailbox slot and its
response waits in order; after 250,000 slots it is answered NOPROG; a response leaves while its carrier is UP or is discarded after
1 s; a notice takes up to 32 records to the subscriber. A lane that is not answered, or that is a pair link, has no command taken. -/
def Obligations.HostResponses : Prop :=
  (∀ (l : Fin 4) (s : State) (h : CmdHdr) (op : BitVec 8) (words : List W64), s.pairRole l = true ∨ s.answers l = false →
    exec (.illegalCommand l h op) s = .next s ∧ exec (.programCommand l h op words) s = .next s
    ∧ ∀ w1 : W64, exec (.read l h w1) s = .next s ∧ exec (.write l h w1 words) s = .next s)
  ∧
  ∀ (l : Fin 4) (s : State), s.pairRole l = false → s.answers l = true →
    (∀ (h : CmdHdr) (op : BitVec 8),
      let c := Instr.illegalCommand l h op
      (8 ≤ (s.hostOf l).held → Gives c s (fun t =>
          t.getF (Reg.SYS_HOST_CMD_DROP l) = capAt (Reg.SYS_HOST_CMD_DROP l).max (s.getF (Reg.SYS_HOST_CMD_DROP l) + 1)
          ∧ { t with regs := s.regs } = s))
      ∧ (∀ e, (s.hostOf l).held < 8 → h.tag ≠ 0 →
          (s.hostOf l).store.find? (fun e => e.1 == { src := h.src.toNat, words := cmdFrame h op.toNat [] }) = some e →
          Gives c s (fun t => (t.hostOf l).resps = (s.hostOf l).resps ++ [{ e.2 with ready := s.upSlots }]
            ∧ t.getF (Reg.SYS_HOST_DUPS l) = capAt (Reg.SYS_HOST_DUPS l).max (s.getF (Reg.SYS_HOST_DUPS l) + 1)
            ∧ { t with regs := s.regs, hosts := s.hosts } = s))
      ∧ (s.mode.phase ≠ .held → (s.hostOf l).held < 8 → h.tag = 0 → s.served l op.toNat false = false → Gives c s (fun t =>
          Answered s t l h op.toNat 4 []
          ∧ t.getF (Reg.SYS_HOST_REFUSED l) = capAt (Reg.SYS_HOST_REFUSED l).max (s.getF (Reg.SYS_HOST_REFUSED l) + 1)))
      ∧ (Accepts s l h op.toNat [] 0 false → Gives c s (fun t => Answered s t l h op.toNat 3 []
          ∧ t.getF (Reg.SYS_HOST_CMDS l) = capAt (Reg.SYS_HOST_CMDS l).max (s.getF (Reg.SYS_HOST_CMDS l) + 1)
          ∧ { t with regs := s.regs, hosts := s.hosts } = s)))
    ∧ (∀ (h : CmdHdr) (op : BitVec 8) (words : List W64) (k : Nat), Accepts s l h op.toNat words 0 false → 128 ≤ op.toNat → words.length ≤ 132 →
        (s.hostOf l).waiting = [] → (s.hostOf l).freeSlot = some k →
        let frame := cmdFrame h op.toNat words
        Gives (.programCommand l h op words) s (fun t =>
          (t.hostOf l).slot k = some { num := (s.hostOf l).nextNum, cmd := { src := h.src.toNat, words := frame }, slot := s.upSlots }
          ∧ (∀ i < frame.length, Memory.word t.sram (mailAt l k + 8 * i) = frame.getD i 0)
          ∧ Memory.word t.sram (mailAt l k + 1064) = 0
          ∧ (∃ r, (t.hostOf l).resps = (s.hostOf l).resps ++ [r] ∧ r.dst = h.src.toNat ∧ r.op = op.toNat ∧ r.tag = h.tag.toNat
            ∧ r.waits = some (s.hostOf l).nextNum)
          ∧ { t with sram := s.sram, sramBad := s.sramBad, hosts := s.hosts } = s))
    ∧ (∀ (k : Fin 8) (m : MailSlot), (s.hostOf l).slot k = some m → m.slot + 250000 ≤ s.upSlots → (s.hostOf l).waiting = [] →
        Gives (.noprog l k) s (fun t =>
          (t.hostOf l).slot k = none ∧ (t.hostOf l).resps = (s.hostOf l).resps.map (fun r => if r.waits = some m.num then
            { r with status := 5, detail := k, words := [], ready := s.upSlots, waits := none } else r)
          ∧ Memory.word t.sram (mailAt l k) = 0 ∧ { t with sram := s.sram, sramBad := s.sramBad, hosts := s.hosts, regs := s.regs } = s))
    ∧ (∀ r rest, (s.hostOf l).resps = r :: rest → r.waits = none →
        (s.laneUp (s.carrier l) = true → Gives (.response l) s (fun t => (t.hostOf l).resps = rest
          ∧ (∃ f : TxFrame, t.egressOf (s.carrier l) = s.egressOf (s.carrier l) ++ [f] ∧ f.prio = 6 ∧ f.dst = r.dst ∧ f.words = r.frame)
          ∧ { t with hosts := s.hosts, sw := s.sw } = s))
        ∧ (s.laneUp (s.carrier l) = false → r.ready + 250000 ≤ s.upSlots → Gives (.responseDiscard l) s (fun t =>
          (t.hostOf l).resps = rest ∧ { t with hosts := s.hosts } = s)))
    ∧ (∀ dst, (s.hostOf l).sub = some dst → s.laneUp (s.carrier l) = true →
        let q := s.evt.notices.get (fun _ => []) l
        let rs := q.take 32
        let n := s.evt.noticeSeq.get (fun _ => 0) l
        q ≠ [] → Gives (.notice l) s (fun t =>
          t.evt.notices.get (fun _ => []) l = q.drop 32 ∧ t.evt.noticeSeq.get (fun _ => 0) l = (n + 1) % 2 ^ 32
          ∧ (∃ f : TxFrame, t.egressOf (s.carrier l) = s.egressOf (s.carrier l) ++ [f] ∧ f.prio = 6 ∧ f.dst = dst
            ∧ f.words = BitVec.ofNat 64 (0x16 <<< 56 + rs.length <<< 48 + n) :: rs.flatMap (fun r => [r.word 0, r.word 1, r.word 2, r.word 3]))
          ∧ { t with evt := s.evt, sw := s.sw } = s))

/-- R43, R364 to R371: every transaction of the management serial port gives its status byte and clears ERR; nothing answers before the PLL is
locked. Whole words are read (with RC fields cleared) or written under the port's class; a word cut short keeps what it latched in
SYS_SPLOST; short, long and illegal transactions and refused words are counted and set ERR. -/
def Obligations.ManagementSerialPort : Prop :=
  ∀ s : State,
    let up := fun (t : State) (f : Fld) => t.getF f = capAt f.max (s.getF f + 1) ∧ t.sp.err = true
    let byte := b2n s.serviceRuns * 128 + s.cur * 16 + b2n s.intN * 8 + b2n s.sp.err * 4 + s.getF Reg.SYS_AUTH_SP
    let clean := fun (t : State) (out : List W64) => t.sp = { err := false, out := out, status := byte }
    (s.runs = false → exec .spShort s = .next s ∧ ∀ e, exec (.spStatus e) s = .next s)
    ∧ (s.runs = true →
        (∀ e, e = 8 ∨ e = 16 → Gives (.spStatus e) s (fun t => clean t [] ∧ { t with sp := s.sp } = s))
        ∧ (∀ e, 16 < e → Gives (.spStatus e) s (fun t => up t Reg.SYS_SPSTAT_LONG ∧ t.sp.status = byte))
        ∧ (∀ e, e < 16 → e ≠ 8 → Gives (.spStatus e) s (fun t => up t Reg.SYS_SPSTAT_SHORT ∧ t.sp.status = byte))
        ∧ Gives .spShort s (fun t => up t Reg.SYS_SPSTAT_SHORT ∧ t.sp.status = byte ∧ { t with sp := s.sp, regs := s.regs } = s)
        ∧ (∀ code e, (e < 8 → Gives (.spIllegal code e) s (fun t => up t Reg.SYS_SPSTAT_SHORT))
            ∧ (8 ≤ e → Gives (.spIllegal code e) s (fun t => up t Reg.SYS_SPSTAT_ILLEGAL ∧ (8 < e → up t Reg.SYS_SPSTAT_LONG))))
        ∧ (∀ (addr : BitVec 13) (d : RegDesc), addr.toNat < 0x100 → findReg addr.toNat = some d → copiedWord addr.toNat = false →
            addr.toNat ≠ Reg.SYS_SPLOST → Gives (.spRead addr 1 false false) s (fun t =>
              clean t [s.reg addr.toNat] ∧ t.reg addr.toNat = s.reg addr.toNat &&& ~~~ d.accMask (fun c => c == .rc)
              ∧ { t with sp := s.sp, regs := s.regs } = s))
        ∧ Gives (.spRead (BitVec.ofNat 13 Reg.SYS_ERRCNT) 0 true false) s (fun t =>
            t.reg Reg.SYS_SPLOST = s.reg Reg.SYS_ERRCNT ∧ t.getF Reg.SYS_SPSTAT_LOSTV = 1 ∧ t.getF Reg.SYS_SPSTAT_LOSTADDR = Reg.SYS_ERRCNT
            ∧ t.getF Reg.SYS_ERRCNT_UNIMPL = 0 ∧ up t Reg.SYS_SPSTAT_SHORT)
        ∧ (∀ n, Gives (.spReadNoinc (BitVec.ofNat 13 Reg.SYS_MODE) n false) s (fun t =>
            clean t (List.replicate n (s.reg Reg.SYS_MODE)) ∧ { t with sp := s.sp } = s))
        ∧ (s.serviceRuns = true → s.cur ≠ 0 →
            Gives (.spSnapshot (BitVec.ofNat 13 Reg.SYS_MODE) false) s (fun t =>
              clean t [s.reg Reg.SYS_MODE, s.reg Reg.SYS_MODE_SLOT] ∧ { t with sp := s.sp } = s)
            ∧ (∀ addr : BitVec 13, snapGroup addr.toNat = none → Gives (.spSnapshot addr false) s (fun t =>
                up t Reg.SYS_SPSTAT_ILLEGAL ∧ t.sp.out = [0]))
            ∧ (s.cur ≠ 7 → ∀ u v : W64,
                (s.getF Reg.SYS_AUTH_SP = 0 → Gives (.spWrite (BitVec.ofNat 13 Reg.EVT_CFG) [v]) s (fun t =>
                  up t Reg.SYS_SPSTAT_REFUSED ∧ t.reg Reg.EVT_CFG = s.reg Reg.EVT_CFG
                  ∧ Logged s t .SYS_AUTH_DENIED 0 (BitVec.ofNat 64 Reg.EVT_CFG) 4))
                ∧ (1 ≤ s.getF Reg.SYS_AUTH_SP →
                  Gives (.spWrite (BitVec.ofNat 13 Reg.EVT_CFG) [v]) s (fun t =>
                    clean t [] ∧ t.reg Reg.EVT_CFG = v &&& 0x1F1F ∧ t.reg Reg.SYS_SPSTAMP = s.sspStamp ∧ { t with sp := s.sp, regs := s.regs } = s)
                  ∧ Gives (.spWriteNoinc (BitVec.ofNat 13 Reg.EVT_CFG) [u, v]) s (fun t =>
                    clean t [] ∧ t.reg Reg.EVT_CFG = v &&& 0x1F1F ∧ t.reg Reg.SYS_SPSTAMP = s.sspStamp
                    ∧ { t with sp := s.sp, regs := s.regs } = s)))))

/-- R376, R377: GO starts the sequence of an idle port whose first descriptor is in use, is counted and logged while one runs, and is refused
to an observer; a transaction that ends puts its stamped record in the ring of 64 (or is counted and logged once as an overrun) and
goes on to the next descriptor in use unless STOP was written; POP takes the oldest record. A port that may not write is turned away. -/
def Obligations.SensorSerialPorts : Prop :=
  ∀ (n : Fin 4) (s : State),
    (∀ port : Port, s.portOpen port (Reg.SSP_CTL n) = false →
      exec (.sspGo port n) s = .next s ∧ exec (.sspStop port n) s = .next s ∧ exec (.sspPop port n) s = .next s)
    ∧ (∀ port : Port, s.portOpen port (Reg.SSP_CTL n) = true →
      (s.classOf port = 0 → Refuses (.sspGo port n) s .SYS_AUTH_DENIED n (Reg.SSP_CTL n) port
        ∧ Refuses (.sspStop port n) s .SYS_AUTH_DENIED n (Reg.SSP_CTL n) port ∧ Refuses (.sspPop port n) s .SYS_AUTH_DENIED n (Reg.SSP_CTL n) port)
      ∧ (1 ≤ s.classOf port →
          (s.getF (Reg.SSP_STAT_BUSY n) = 1 → Gives (.sspGo port n) s (fun t =>
              t.getF (Reg.SSP_STAT_LATE n) = capAt (Reg.SSP_STAT_LATE n).max (s.getF (Reg.SSP_STAT_LATE n) + 1)
              ∧ Logged s t .SSP_LATE n 0 0 ∧ t.ssps = s.ssps)
            ∧ Gives (.sspStop port n) s (fun t => t.ssp n = { s.ssp n with stop := true } ∧ { t with ssps := s.ssps } = s))
          ∧ (s.getF (Reg.SSP_STAT_BUSY n) = 0 → exec (.sspStop port n) s = .next s
            ∧ (s.cur ≠ 0 → s.cur ≠ 7 → s.getF (Reg.SSP_SEQ_V n 0) = 1 → Gives (.sspGo port n) s (fun t =>
                t.getF (Reg.SSP_STAT_BUSY n) = 1 ∧ t.ssp n = { s.ssp n with at_ := some 0, stop := false, ovr := false }
                ∧ { t with ssps := s.ssps, regs := s.regs } = s)))
          ∧ ((s.ssp n).ring.length ≤ 64 → Gives (.sspPop port n) s (fun t => t.ssp n = { s.ssp n with ring := (s.ssp n).ring.drop 1 }
              ∧ t.getF (Reg.SSP_STAT_RXCNT n) = (s.ssp n).ring.length - 1 ∧ { t with ssps := s.ssps, regs := s.regs } = s))))
    ∧ (∀ (rx : BitVec 48) (k : Nat), (s.ssp n).at_ = some k →
        let c := Instr.sspTransactionComplete n rx
        let halted := (s.ssp n).stop = true ∨ s.cur = 7 ∨ s.cur = 0
        let onward := ¬ halted ∧ k < 7 ∧ s.getF (Reg.SSP_SEQ_V n (k + 1)) = 1
        ((s.ssp n).ring.length < 64 → Gives c s (fun t =>
            (t.ssp n).ring = (s.ssp n).ring ++ [(s.sspRecord n k rx, s.sspStamp)] ∧ t.getF (Reg.SSP_STAT_RXCNT n) = (s.ssp n).ring.length + 1))
        ∧ ((s.ssp n).ring.length = 64 → Gives c s (fun t => (t.ssp n).ring = (s.ssp n).ring
            ∧ t.getF (Reg.SSP_STAT_OVR n) = capAt (Reg.SSP_STAT_OVR n).max (s.getF (Reg.SSP_STAT_OVR n) + 1)
            ∧ ((s.ssp n).ovr = false → Logged s t .SSP_OVR n 0 0)))
        ∧ Gives c s (fun t =>
            (onward → (t.ssp n).at_ = some (k + 1) ∧ t.getF (Reg.SSP_STAT_BUSY n) = s.getF (Reg.SSP_STAT_BUSY n))
            ∧ (¬ onward → (t.ssp n).at_ = none ∧ t.getF (Reg.SSP_STAT_BUSY n) = 0
              ∧ t.getF (Reg.SSP_STAT_RUNS n) = (if (s.ssp n).stop || s.cur == 7 || s.cur == 0 then s.getF (Reg.SSP_STAT_RUNS n)
                  else capAt (Reg.SSP_STAT_RUNS n).max (s.getF (Reg.SSP_STAT_RUNS n) + 1)))))

/-! ### Paired operation -/

/-- R383, R385, R387 to R390, R444: each slot a hub of a pair sends its STATE frame with up to 32 reports; a valid STATE frame shows the
partner, and on a Second each report gives the shadow packet of its stream and H1 the Leader's number and lets it go 64 slots later;
a frame of another slot ends the run of equal slots. Change records enter the mirror, event records the log with PARTNER. A ready
Second notes RELEASE. After listening the first mode is named. The layout of change records is the model's (log entry 16). -/
def Obligations.PairFrames : Prop :=
  ∀ (l : Fin 4) (words : List W64) (s : State),
    (∀ p, s.pairOn = true → s.serviceRuns = true → s.pairLane = some p → s.pairRoleNow ≠ 1 → s.evt.unmirrored = [] →
      Gives .pairStateSend s (fun t =>
        (∃ f : TxFrame, t.egressOf (s.carrier p) = s.egressOf (s.carrier p) ++ [f] ∧ f.prio = 6
          ∧ f.words = s.pairHead 1 0 ++ (s.pair.reports.take 32).flatMap
              (fun r => [BitVec.ofNat 64 (r.1 <<< 48 + r.2.1 % 2 ^ 32), BitVec.ofNat 64 r.2.2]))
        ∧ t.pair.reports = s.pair.reports.drop 32))
    ∧ (s.pairOn = false → exec .pairStateSend s = .next s)
    ∧ (s.pairValid l 1 words = true → (pairHdr words).role ≠ 0 →
        (s.belay = false → Gives (.pairState l words) s (fun t =>
          t.pair = { s.pair with
            partner := some (pairHdr words), heardAt := some s.now
            equalFrom := (if (pairHdr words).slot = s.now then some (s.pair.equalFrom.getD s.now) else none) }
          ∧ t.getF Reg.PAIR_STAT_PARTNER = 1 ∧ { t with pair := s.pair, regs := s.regs } = s))
        ∧ (∀ a b : W64, s.belay = true → words.drop 4 = [a, b] →
            let st := bits a 58 48
            let seq := bits a 31 0
            let q := s.strmQueue st
            let hit := fun p : Pkt => p.stream = st ∧ p.first = b.toNat
            (∀ p ∈ (s.que q).pkts, p.stream = st → p.seq = noSeq → b.toNat ≤ p.first) →
            Gives (.pairState l words) s (fun t =>
              (t.que q).pkts = (s.que q).pkts.map (fun p => if hit p then { p with seq := seq } else p)
              ∧ (t.strmSt st).nextSeq = (seq + 1) % 2 ^ 32
              ∧ ((∃ p ∈ (s.que q).pkts, hit p) → t.pair.shadow = s.pair.shadow ++ [(st, seq, s.now + 64)])
              ∧ { t with queues := s.queues, strms := s.strms, pair := s.pair, regs := s.regs } = s)))
    ∧ (s.pairValid l 1 words = false → s.pairOn = true → s.pairRole l = true → bits (words.getD 0 0) 55 52 = 1 →
        exec (.pairState l words) s = .next { s with pair := { s.pair with equalFrom := none } })
    ∧ (∀ a b : W64, s.pairValid l 2 words = true → words.drop 4 = [a, b] →
        (s.belay = false → a.toNat / 2 ^ 32 ≠ 5 → Gives (.mirror l words) s (fun t =>
          t.pair.mirror.get (fun _ => 0) a.toNat = b ∧ (∀ k, k ≠ a.toNat → t.pair.mirror.get (fun _ => 0) k = s.pair.mirror.get (fun _ => 0) k)
          ∧ { t with pair := s.pair } = s))
        ∧ (s.belay = true → a.toNat / 2 ^ 32 = 6 → Gives (.mirror l words) s (fun t => t.pair.rebuilt = (a.toNat % 2 ^ 32 == 1)))
        ∧ (a.toNat = mirrorKey 5 3 → Gives (.mirror l words) s (fun t =>
            ∃ r ∈ t.evt.ring, r.seq = s.evt.nextSeq ∧ r.partner = true ∧ r.code = bits (s.mir 5 0) 55 40 ∧ r.slot = s.mir 5 1 ∧ r.d2 = s.mir 5 2
              ∧ r.d3 = b)))
    ∧ (∀ (st : Fin 2048) e, s.pair.shadow.find? (fun e => e.1 == st.val) = some e → e.2.2 ≤ s.now → s.belay = true →
        Gives (.shadowPacketRelease st) s (fun t => t.pair.shadow = s.pair.shadow.erase e
          ∧ (t.que (s.strmQueue st)).pkts = (s.que (s.strmQueue st)).pkts.filter (fun p => !(p.stream == st.val && p.seq == e.2.1))
          ∧ { t with pair := s.pair, queues := s.queues } = s))
    ∧ (s.pairValid l 6 words = true → s.pairReady = true → s.pairRoleNow = 2 →
        exec (.release l words) s = .next { s with pair := { s.pair with released := some s.now } })
    ∧ (∀ foreign n, s.pair.listening = some n → s.getF Reg.CFG_STATUS_LOADED = 1 → s.cur = 1 → s.falling = false →
        let lead := ∃ p, s.pair.partner = some p ∧ p.role = 1
        let desig := s.getF Reg.PAIR_STAT_DESIG = 1
        Gives (.pairStartupDecision foreign) s (fun t => t.pair.listening = none
          ∧ (lead ∨ desig ∨ foreign = true → t.getF Reg.SYS_MODE_PENDV = 1 ∧ t.getF Reg.SYS_MODE_PEND = 5)
          ∧ (¬ lead → ¬ desig → foreign = true → Logged s t .PAIR_SPLIT_GUARD 0 0 0)
          ∧ (¬ lead → ¬ desig → foreign = false → s.getF Reg.SYS_MODE_START ≠ 1 →
              t.getF Reg.SYS_MODE_PENDV = 1 ∧ t.getF Reg.SYS_MODE_PEND = s.getF Reg.SYS_MODE_START)
          ∧ (¬ lead → ¬ desig → foreign = false → s.getF Reg.SYS_MODE_START = 1 → t.getF Reg.SYS_MODE_PENDV = s.getF Reg.SYS_MODE_PENDV)))

/-- R394, R398, R399: a planned handover is tested in order (owner, role and mode, READY, nothing pending, 256 slots ahead) and proposed for
the slot named or the first multiple of 8,192 that lies 256 slots on; ACCEPT makes it pending on both hubs with the mode change at
h + 512; REFUSE, no answer within 8 slots or a CANCEL in time ends it. Takeback, the proof exchange and its handback propose a
handover of their own. A port that may not write is turned away, and a frame that is not valid changes nothing. -/
def Obligations.PairHandover : Prop :=
  ∀ s : State,
    let able := s.pairRoleNow = 1 ∧ (s.cur = 3 ∨ s.cur = 4)
    let idle := s.pair.asked = none ∧ s.pair.pend = none ∧ s.getF Reg.SYS_MODE_PENDV = 0
    let may := able ∧ s.pairReady = true ∧ idle
    let first := ceilDiv (s.now + 256) 8192 * 8192
    let proposed := fun (t : State) (h port reason : Nat) => t.pair.asked = some (h, port, reason, s.now) ∧ t.pair.pend = s.pair.pend
      ∧ (∀ p, s.pairLane = some p → ∃ f : TxFrame, t.egressOf (s.carrier p) = s.egressOf (s.carrier p) ++ [f]
          ∧ f.words = s.pairHead 3 h ++ [BitVec.ofNat 64 reason])
    let pending := fun (t : State) (h port : Nat) (out : Bool) (reason mode : Nat) => t.pair.pend = some (h, port, out, reason)
      ∧ t.pair.asked = none ∧ t.getF Reg.PAIR_STAT_HPEND = 1 ∧ t.getF Reg.SYS_MODE_PENDV = 1 ∧ t.getF Reg.SYS_MODE_PEND = mode
      ∧ t.mode.pendAt = some (h + 512) ∧ t.mode.pendCause = 4 ∧ t.cur = s.cur
    (∀ port : Port,
      let c := Instr.pairSwitch port
      let at_ := (s.copy port Reg.PAIR_AT).toNat
      (s.portOpen port Reg.PAIR_CTL = false → exec c s = .next s ∧ exec (.pairCancel port) s = .next s ∧ exec (.pairProofStart port) s = .next s
        ∧ exec (.clearpf port) s = .next s)
      ∧ (s.portOpen port Reg.PAIR_CTL = true →
      (s.classOf port < 2 → Refuses c s .SYS_AUTH_DENIED 0 Reg.PAIR_CTL port ∧ Refuses (.pairCancel port) s .SYS_AUTH_DENIED 0 Reg.PAIR_CTL port
        ∧ Refuses (.pairProofStart port) s .SYS_AUTH_DENIED 0 Reg.PAIR_CTL port ∧ Refuses (.clearpf port) s .SYS_AUTH_DENIED 0 Reg.PAIR_CTL port)
      ∧ (2 ≤ s.classOf port →
          (¬ able → Refuses c s .PAIR_ROLE_STATE 0 Reg.PAIR_CTL port)
          ∧ (able → s.pairReady = false → Refuses c s .PAIR_NOT_READY 0 Reg.PAIR_CTL port)
          ∧ (able → s.pairReady = true → ¬ idle → Refuses c s .PAIR_BUSY 0 Reg.PAIR_CTL port)
          ∧ (may → at_ ≠ 0 → at_ < s.now + 256 → Refuses c s .PAIR_LATE 0 Reg.PAIR_CTL port)
          ∧ (may → at_ = 0 → Gives c s (fun t => proposed t first port 0))
          ∧ (may → s.now + 256 ≤ at_ → Gives c s (fun t => proposed t at_ port 0))
          ∧ (s.getF Reg.PAIR_STAT_DESIG = 1 → Refuses (.pairProofStart port) s .PAIR_ROLE_STATE 0 Reg.PAIR_CTL port)
          ∧ (may → s.getF Reg.PAIR_STAT_DESIG = 0 → Gives (.pairProofStart port) s (fun t => proposed t first port 2))
          ∧ (∀ h reason, s.pair.pend = some (h, port.val, true, reason) →
              (h < s.now + 16 → Refuses (.pairCancel port) s .PAIR_LATE 0 Reg.PAIR_CTL port)
              ∧ (s.now + 16 ≤ h → Gives (.pairCancel port) s (fun t => t.pair.pend = none ∧ t.pair.asked = none ∧ t.getF Reg.PAIR_STAT_HPEND = 0
                  ∧ (s.mode.pendCause = 4 → t.getF Reg.SYS_MODE_PENDV = 0) ∧ t.cur = s.cur)))
          ∧ Gives (.clearpf port) s (fun t => t.getF Reg.PAIR_STAT_CONTEND = 0 ∧ t.pair = { s.pair with proofFail := false }
              ∧ { t with pair := s.pair, regs := s.regs } = s))))
    ∧ (∀ (l : Fin 4) (words : List W64),
        (s.pairValid l 3 words = false → exec (.propose l words) s = .next s)
        ∧ (s.pairValid l 4 words = false ∨ s.pair.asked = none → exec (.accept l words) s = .next s)
        ∧ (s.pairValid l 5 words = false → exec (.refuse l words) s = .next s))
    ∧ (∀ (l : Fin 4) (words : List W64),
        let h := (words.getD 3 0).toNat
        (s.pairValid l 3 words = true →
          (s.pairReady = true → s.cur = 5 → idle →
            Gives (.propose l words) s (fun t => pending t h 7 false (words.getD 4 0).toNat s.mirroredMode))
          ∧ (∀ p, s.pairLane = some p → s.pairReady = false ∨ s.cur ≠ 5 ∨ ¬ idle → Gives (.propose l words) s (fun t =>
              (∃ f : TxFrame, t.egressOf (s.carrier p) = s.egressOf (s.carrier p) ++ [f] ∧ f.words = s.pairHead 5 h)
              ∧ { t with sw := s.sw, fresh := s.fresh } = s)))
        ∧ (∀ port reason t0, s.pairValid l 4 words = true → s.pair.asked = some (h, port, reason, t0) → s.now ≤ t0 + 8 →
            (s.getF Reg.SYS_MODE_PENDV = 0 → Gives (.accept l words) s (fun t => pending t h port true reason 5))
            ∧ (s.getF Reg.SYS_MODE_PENDV = 1 → Gives (.accept l words) s (fun t => t.pair.asked = none ∧ t.pair.pend = s.pair.pend
                ∧ Logged s t .PAIR_HANDOVER_REFUSED 0 (BitVec.ofNat 64 h) 0)))
        ∧ (∀ port reason t0, s.pairValid l 5 words = true → s.pair.asked = some (h, port, reason, t0) → s.pair.pend = none →
            Gives (.refuse l words) s (fun t => t.pair.asked = none ∧ Logged s t .PAIR_HANDOVER_REFUSED 0 (BitVec.ofNat 64 h) 0))
        ∧ (∀ port out reason, s.pairValid l 5 words = true → s.pair.asked = none → s.pair.pend = some (h, port, out, reason) →
            Gives (.refuse l words) s (fun t => t.pair.pend = none ∧ t.getF Reg.PAIR_STAT_HPEND = 0 ∧ t.cur = s.cur)))
    ∧ (s.pair.asked = none → exec .pairHandoverRefused s = .next s)
    ∧ (s.pair.readyFrom = none → exec .pairTakeback s = .next s) ∧ (s.pair.countFrom = none → exec .proofExchange s = .next s)
    ∧ (s.pair.tenure = none → exec .proofHandback s = .next s)
    ∧ (∀ h port reason t0, s.pair.asked = some (h, port, reason, t0) → s.now ≤ t0 + 8 → exec .pairHandoverRefused s = .next s)
    ∧ (∀ h port reason t0, s.pair.asked = some (h, port, reason, t0) → t0 + 8 < s.now →
        Gives .pairHandoverRefused s (fun t => t.pair.asked = none ∧ t.pair.pend = s.pair.pend
          ∧ Logged s t .PAIR_HANDOVER_REFUSED 0 (BitVec.ofNat 64 h) 0))
    ∧ (∀ f, s.pair.readyFrom = some f → s.getF Reg.PAIR_STAT_DESIG = 1 → s.getF Reg.PAIR_CFG_TAKEBACK ≠ 0 →
        f + s.getF Reg.PAIR_CFG_TAKEBACK * 250000 ≤ s.now → s.getF Reg.PAIR_STAT_PROOF = 0 → may →
        Gives .pairTakeback s (fun t => proposed t first 7 1 ∧ Logged s t .PAIR_TAKEBACK 0 0 0))
    ∧ (∀ f, s.pair.countFrom = some f →
        let period := s.getF Reg.PAIR_PROOF_PERIOD * 900000000
        period ≠ 0 → f + period ≤ s.upSlots → s.getF Reg.PAIR_STAT_DESIG = 0 → s.pairRoleNow = 1 →
        (may → Gives .proofExchange s (fun t => proposed t first 7 2))
        ∧ (s.pairReady = false → s.pair.asked = none → s.pair.pend = none →
            exec .proofExchange s = .next { s with pair := { s.pair with countFrom := some (s.upSlots + 900000000 - period) } }))
    ∧ (∀ n, s.pair.tenure = some n →
        (s.getF Reg.PAIR_STAT_PARTNER = 0 → Gives .proofHandback s (fun t => t.getF Reg.PAIR_STAT_PROOF = 0
          ∧ t.pair = { s.pair with tenure := none } ∧ { t with pair := s.pair, regs := s.regs } = s))
        ∧ (s.getF Reg.PAIR_STAT_PARTNER = 1 → n ≤ s.now → may → Gives .proofHandback s (fun t =>
            proposed t first 7 3 ∧ t.pair.proofBad = !s.proofOk (s.reg Reg.PAIR_HSLOT).toNat)))

/-- R28, R390 to R393, R395, R396: at c_b of a handover, and after an overlay, a mode change of another cause and a coefficient swap of the
same slot, the outgoing hub removes the bank's drives and the HANDOVER window opens; the
incoming hub ramps every channel whose mirrored state drives it, four slots to full drive; windows end. A Second that has lost its
Leader withholds the takeover while a foreign drive stands, else takes the mirrored mode at once as Leader. Contention removes every
drive and returns to Belay. -/
def Obligations.PairDrives : Prop :=
  ∀ (b : Fin 24) (s : State),
    let chans := fun c : Nat => c ∈ bankChans b
    (∀ h port out reason, s.pair.pend = some (h, port, out, reason) →
      let c := s.handoverC b h
      (s.handoverWaits = true → exec (.driveRemoval b) s = .next s ∧ exec (.handoverRampStart b) s = .next s)
      ∧ (2 * s.now + 1 < c ∨ s.pair.handed.get (fun _ => 0) b ≠ 0 → exec (.driveRemoval b) s = .next s)
      ∧ (s.handoverWaits = false → c ≤ 2 * s.now + 1 → s.pair.handed.get (fun _ => 0) b = 0 → Gives (.driveRemoval b) s (fun t =>
          t.pair.handed.get (fun _ => 0) b = c + 1 ∧ (t.bk b).hand = (c / 2, some (c / 2 + 63)) :: (s.bk b).hand
          ∧ (out = true → (∀ k, chans k → (t.ch k).drive = .off ∧ (t.ch k).level = 0 ∧ (t.ch k).retryAt = none)
              ∧ ∀ k, ¬ chans k → t.ch k = s.ch k)
          ∧ (out = false → t.chans = s.chans ∧ t.pair.windowEnd.get (fun _ => 0) b = c / 2 + 64)))
      ∧ (s.handoverWaits = false → out = false → ceilDiv c 2 + 2 ≤ s.now → s.pair.ramps.get (fun _ => 0) b = 0 → s.exMode b ≠ 0 → Gives (.handoverRampStart b) s (fun t =>
          t.pair.ramps.get (fun _ => 0) b = s.now + 1 ∧ (t.bk b).factor = 1048576
          ∧ ∀ k, chans k →
            (s.mirF (Reg.CH_EXCFG_EXEN k) = 0 → t.ch k = s.ch k)
            ∧ (s.mirF (Reg.CH_EXCFG_EXEN k) = 1 → s.mirF (Reg.CH_STATUS_EX_LATCH k) = 1 → (t.ch k).drive = .latched)
            ∧ (s.mirF (Reg.CH_EXCFG_EXEN k) = 1 → s.mirF (Reg.CH_STATUS_EX_LATCH k) = 0 → s.mirF (Reg.CH_STATUS_DRIVE_OFF k) = 1 →
                (t.ch k).drive = .removed ∧ (t.ch k).retryAt = some (s.mir 4 k).toNat)
            ∧ (s.mirF (Reg.CH_EXCFG_EXEN k) = 1 → s.mirF (Reg.CH_STATUS_EX_LATCH k) = 0 → s.mirF (Reg.CH_STATUS_DRIVE_OFF k) = 0 →
                (t.ch k).drive = .rampUp ∧ (t.ch k).due = s.now + 4))))
    ∧ (∀ d, s.handoverWaits = false → s.pair.pend = none → s.pair.tookAt = some d → d ≤ s.now → s.pairRoleNow = 1 →
        s.pair.ramps.get (fun _ => 0) b = 0 → Gives (.handoverRampStart b) s (fun t =>
          t.pair.ramps.get (fun _ => 0) b = s.now + 1 ∧ (t.bk b).factor = 1048576 ∧ ∀ k, ¬ chans k → t.ch k = s.ch k))
    ∧ (s.pair.pend = none → exec (.driveRemoval b) s = .next s)
    ∧ (∀ r, s.pair.ramps.get (fun _ => 0) b = r → r ≠ 0 → r + 3 ≤ s.now → Gives (.handoverRampFull b) s (fun t =>
        (∀ k, chans k → (s.ch k).drive = .rampUp → (s.ch k).due ≤ s.now → (t.ch k).drive = .on ∧ (t.ch k).level = (s.ch k).target)
        ∧ (∀ k, (s.ch k).drive ≠ .rampUp → t.ch k = s.ch k) ∧ { t with chans := s.chans } = s))
    ∧ (∀ w, s.pair.windowEnd.get (fun _ => 0) b = w → w ≠ 0 → w ≤ s.now → Gives (.handoverWindowEnd b) s (fun t =>
        t.pair.windowEnd.get (fun _ => 0) b = 0 ∧ { t with pair := s.pair } = s))
    ∧ (∀ foreign, s.leaderLost = false → exec (.leaderLost foreign) s = .next s)
    ∧ (s.cur = 5 → s.pairRoleNow = 2 →
        (∃ e, s.pair.released = some e ∧ e + 3 ≤ s.now) ∨ (s.pairReady = true ∧ ∃ p, s.pair.partner = some p ∧ p.slot + 3 ≤ s.now) →
        (s.getF Reg.PAIR_STAT_GUARD = 0 → Gives (.leaderLost true) s (fun t => t.getF Reg.PAIR_STAT_GUARD = 1 ∧ t.cur = 5
          ∧ Logged s t .PAIR_SPLIT_GUARD 0 (BitVec.ofNat 64 s.now) 0 ∧ t.pair = s.pair))
        ∧ Gives (.leaderLost false) s (fun t => t.cur = s.mirroredMode ∧ t.reg Reg.SYS_MODE_SLOT = BitVec.ofNat 64 s.now
          ∧ t.getF Reg.PAIR_STAT_ROLE = 1 ∧ t.reg Reg.PAIR_HSLOT = BitVec.ofNat 64 s.now
          ∧ t.getF Reg.PAIR_CNT_SWITCHOVERS = capAt Reg.PAIR_CNT_SWITCHOVERS.max (s.getF Reg.PAIR_CNT_SWITCHOVERS + 1)
          ∧ t.pair.released = none ∧ t.pair.tookAt = some s.now))
    ∧ (∀ d, s.pair.tookAt = some d → s.pairRoleNow = 1 → s.now < d + 2 * Nat.max 64 (s.carrierK b) →
        let driven := (bankChans b).filter (fun c => (s.ch c).drive.driving)
        driven ≠ [] → driven.length ≤ 2 * (driven.filter (fun c => decide (4 ≤ (s.ch c).limRun))).length →
        Gives (.pairContention b) s (fun t =>
          (∀ c < 384, (t.ch c).drive = .off) ∧ t.getF Reg.PAIR_STAT_CONTEND = 1 ∧ t.getF Reg.SYS_MODE_PENDV = 1
          ∧ t.getF Reg.SYS_MODE_PEND = 5 ∧ t.mode.pendAt = some (s.now + 1) ∧ t.pair.tookAt = none
          ∧ (s.getF Reg.SYS_MODE_PENDV = 0 → Logged s t .PAIR_CONTENTION b (BitVec.ofNat 64 s.now) 0)))

/-! ### Calibration -/

/-- R404, R411, R415: the temperature averages enter BANK_TEMP and make a bank due beyond TDELTA in the rolling modes; an operator names
banks due, an owner abandons every pass; a pass result is appended to the active flash bank as a group, or the full set goes into the
other bank, which becomes the active one; two failed read-backs are logged. A port that may not write is turned away. -/
def Obligations.CalibrationRequestsAndStorage : Prop :=
  ∀ s : State,
    (∀ temps : BitVec 384,
      let raw := fun b : Nat => temps.toNat / 2 ^ (16 * b) % 65536
      Gives (.temperatureEvaluation temps) s (fun t =>
        (∀ b < 24, t.getF (Reg.BANK_TEMP_T b) = raw b ∧ t.getF (Reg.BANK_TEMP_TCAL b) = s.getF (Reg.BANK_TEMP_TCAL b))
        ∧ (s.rolling = false → t.reg Reg.CAL_STAT = s.reg Reg.CAL_STAT)
        ∧ (∀ b < 24, s.rolling = true → s.getF Reg.CAL_CFG_EN = 1 → s.calActive b = false →
            16 * s.getF Reg.CAL_CFG_TDELTA < 10 * (signed 16 (raw b) - s.getS (Reg.BANK_TEMP_TCAL b)).natAbs → t.calDue b = true)
        ∧ { t with regs := s.regs, cals := s.cals, calh := s.calh, evt := s.evt } = s))
    ∧ (∀ (port : Port) (banks : BitVec 24),
        (s.portOpen port Reg.CAL_CTL = false → exec (.calBanksDue port banks) s = .next s ∧ exec (.calAbort port) s = .next s)
        ∧ (s.portOpen port Reg.CAL_CTL = true → (s.classOf port = 0 → Refuses (.calBanksDue port banks) s .SYS_AUTH_DENIED 0 Reg.CAL_CTL port)
        ∧ (1 ≤ s.classOf port → Gives (.calBanksDue port banks) s (fun t =>
            (∀ b < 24, t.calDue b = (s.calDue b || (banks.getLsbD b && !s.calActive b))
              ∧ (banks.getLsbD b = true → s.calActive b = true → (t.cal b).again = true))
            ∧ { t with regs := s.regs, cals := s.cals } = s))
        ∧ (s.classOf port < 2 → Refuses (.calAbort port) s .SYS_AUTH_DENIED 0 Reg.CAL_CTL port)
        ∧ (2 ≤ s.classOf port → Gives (.calAbort port) s (fun t =>
            (∀ b < 24, t.cal b = if (s.cal b).stage = 0 then s.cal b else { s.cal b with abandon := true }) ∧ { t with cals := s.cals } = s))))
    ∧ (∀ failures, s.getF Reg.UPD_STAT_COPYING = 1 ∨ s.calh.waiting = [] → exec (.calGroupWrite failures) s = .next s)
    ∧ (∀ failures g rest i, s.calh.waiting = g :: rest → s.getF Reg.UPD_STAT_COPYING = 0 → s.calFlash (s.getF Reg.CAL_SET_FBANK) = some i →
        Gives (.calGroupWrite failures) s (fun t =>
          t.calh.waiting = rest
          ∧ (failures.val = 2 → t.calh.flash = s.calh.flash ∧ Logged s t .CAL_STORE_FAIL g.bank 0 0)
          ∧ (failures.val ≠ 2 → t.calFlash (s.getF Reg.CAL_SET_FBANK) = some { i with groups := i.groups ++ [g] }
              ∧ t.getF Reg.CAL_SET_SEQ = (i.seq + i.groups.length + 1) % (Reg.CAL_SET_SEQ.max + 1) ∧ t.getF Reg.CAL_SET_SRC = 2)))
    ∧ (∀ failures, s.getF Reg.UPD_STAT_COPYING = 0 → s.calh.waiting ≠ [] ∨ s.calh.compact = true →
        let f := 1 - s.getF Reg.CAL_SET_FBANK
        Gives (.calCompaction failures) s (fun t => t.calh.waiting = [] ∧ t.calh.compact = false
          ∧ (failures.val = 2 → t.calFlash f = none ∧ t.getF Reg.CAL_SET_FBANK = s.getF Reg.CAL_SET_FBANK ∧ Logged s t .CAL_STORE_FAIL 0 0 0)
          ∧ (failures.val ≠ 2 → t.getF Reg.CAL_SET_FBANK = f ∧ ∃ m, t.calFlash f = some m ∧ m.seq = s.getF Reg.CAL_SET_SEQ + 1
              ∧ m.acc = s.calh.compact ∧ m.groups = [] ∧ m.banks = (List.range 24).map (fun b => s.calBank b))))

/-- R405 to R409, R411, R412: a due bank that may begin takes TCAL and puts its spare on the node; spare phases of 288 slots set the spare's
terms; each channel is connected, overlapped (extended or skipped), measured in eight intervals and judged; the pass ends with its
slot and its result waiting for flash. An abandoned pass leaves the bank due, a channel in substitution on the spare for 512 slots more;
Acclimatise ends with its slot and the return to PRIOR. The terms of a spare phase, for which the manual gives no formula, are free
values within the ranges of R113; those of a channel are computed from its intervals as log entry 23 reads R408. -/
def Obligations.CalibrationPasses : Prop :=
  ∀ (b : Fin 24) (s : State),
    let k := s.cal b
    let now := BitVec.ofNat 64 s.now
    (s.passMayStart b = false → exec (.calPassStart b) s = .next s)
    ∧ (s.passMayStart b = true → Gives (.calPassStart b) s (fun t =>
        t.calDue b = false ∧ t.calActive b = true ∧ t.getF (Reg.BANK_TEMP_TCAL b) = s.getF (Reg.BANK_TEMP_T b)
        ∧ t.getF (Reg.BANK_SPARE_CAL b) = 1 ∧ (t.cal b).chans = s.enabledPos b ∧ (t.cal b).ranges = s.usedRanges b ∧ (t.cal b).t0 = s.now
        ∧ (t.cal b).stage = (if s.usedRanges b = [] then 2 else 1)
        ∧ (∀ r rest, s.usedRanges b = r :: rest → (t.bk b).node = true ∧ (t.bk b).spareRange = r ∧ t.getF (Reg.BANK_CAL_STATE b) = 1)
        ∧ (s.effFlag (Reg.BANK_SPARE_CONN b) = false → Logged s t .CAL_PASS_START b now 0)))
    ∧ (∀ r rest, k.ranges = r :: rest → k.stage = 1 → k.t0 + 288 ≤ s.now → k.abandon = false → Gives (.calSparePhaseEnd b) s (fun t =>
        t.cal b = { k with ranges := rest, t0 := k.t0 + 288, stage := if rest.isEmpty then 2 else 1 }
        ∧ (t.bk b).termsInRange (16 + r) false = true ∧ (t.bk b).termsInRange (16 + r) true = true
        ∧ (t.bk b).node = !rest.isEmpty ∧ (t.bk b).subs = (s.bk b).subs))
    ∧ (∀ p rest, k.chans = p :: rest → p < 16 → k.abandon = false → k.stage = 2 →
        (k.step = 3 → k.t0 ≤ s.now → Gives (.calChannelStart b) s (fun t =>
          (t.cal b).step = 0 ∧ (t.cal b).overlap = [] ∧ t.getF (Reg.BANK_SPARE_CONN b) = 1 ∧ t.getF (Reg.BANK_SPARE_POS b) = p
          ∧ t.getF (Reg.BANK_CAL_STATE b) = 2 ∧ t.getF (Reg.BANK_CAL_POS b) = p ∧ { t with cals := s.cals, regs := s.regs } = s))
        ∧ (k.step = 0 → k.t0 + 96 ≤ s.now →
            (32 ≤ k.overlap.length → Gives (.firstOverlapEnd b) s (fun t => (t.cal b).step = 1 ∧ (t.cal b).interval = 0
              ∧ (t.bk b).subs = matchOf k.overlap p (k.t0 + 96) (k.t0 + 4255) :: (s.bk b).subs
              ∧ { t with cals := s.cals, banks := s.banks } = s))
            ∧ (k.overlap.length < 32 → k.ext < 4 → Gives (.firstOverlapEnd b) s (fun t =>
              t.cal b = { k with ext := k.ext + 1, t0 := k.t0 + 64 } ∧ Logged s t .CAL_EXTEND (16 * b.val + p) now 0))
            ∧ (k.overlap.length < 32 → 4 ≤ k.ext → Gives (.firstOverlapEnd b) s (fun t =>
              t.cal b = { k with failed := k.failed + 1, chans := rest, t0 := k.t0 + 4256, step := 3 }
              ∧ t.getF Reg.CAL_CNT_SKIPS = capAt Reg.CAL_CNT_SKIPS.max (s.getF Reg.CAL_CNT_SKIPS + 1)
              ∧ Logged s t .CAL_SKIP (16 * b.val + p) now 0)))
        ∧ (k.step = 1 → k.t0 + 96 + 512 * (k.interval + 1) ≤ s.now → Gives (.calIntervalEnd b) s (fun t =>
            (k.interval < 6 → t.cal b = { k with interval := k.interval + 1 } ∧ { t with cals := s.cals } = s)
            ∧ (k.interval = 6 → (t.cal b).interval = 7 ∧ (t.cal b).step = 1 ∧ (t.cal b).oldHalves = (s.bk b).halves
                ∧ ((t.cal b).refused = false → ∀ fine : Bool, let m := s.measuredTerms b p fine
                    (t.bk b).halves.get (fun _ => {}) (halfKey p fine 0) = { d := m.d0, e := m.e0 }
                    ∧ (t.bk b).halves.get (fun _ => {}) (halfKey p fine 1) = { d := m.d1, e := m.e1 }
                    ∧ ((t.bk b).scales.get (fun _ => {}) (scaleKey p fine)).g = m.g
                    ∧ ((t.bk b).scales.get (fun _ => {}) (scaleKey p fine)).o = m.o
                    ∧ (t.bk b).termsInRange p fine = true))
            ∧ (k.interval = 7 → t.cal b = { k with step := 2, overlap := [] } ∧ { t with cals := s.cals } = s)))
        ∧ (k.step = 2 → k.t0 + 4256 ≤ s.now →
            let sum := (k.overlap.map (fun q => q.1 - q.2)).sum
            let out := 32 ≤ k.overlap.length ∧ k.overlap.length * 2 ^ 15 < sum.natAbs
            (k.refused = true → Gives (.secondOverlapEnd b) s (fun t => t.cal b = { k with chans := rest, t0 := k.t0 + 4256, step := 3 }))
            ∧ (k.refused = false → ¬ out → Gives (.secondOverlapEnd b) s (fun t => (t.cal b).done = k.done ++ [p] ∧ (t.cal b).chans = rest
                ∧ (t.cal b).step = 3 ∧ { t with cals := s.cals } = s))
            ∧ (k.refused = false → out → Gives (.secondOverlapEnd b) s (fun t => (t.cal b).done = k.done ∧ (t.cal b).failed = k.failed + 1
                ∧ (t.cal b).chans = rest ∧ t.getF Reg.CAL_CNT_REFUSED = capAt Reg.CAL_CNT_REFUSED.max (s.getF Reg.CAL_CNT_REFUSED + 1)
                ∧ Logged s t .CAL_OUTLIER (16 * b.val + p) (W64.ofInt (roundEven sum (Nat.max 1 k.overlap.length))) 0))))
    ∧ (k.stage = 2 → k.step = 3 → k.chans = [] → k.t0 ≤ s.now → k.abandon = false → Gives (.calPassEnd b) s (fun t =>
        t.calActive b = false ∧ t.reg (Reg.BANK_CALSLOT b) = now ∧ t.getF (Reg.BANK_SPARE_CONN b) = 0
        ∧ t.getF Reg.CAL_CNT_PASSES = capAt Reg.CAL_CNT_PASSES.max (s.getF Reg.CAL_CNT_PASSES + 1)
        ∧ (t.cal b).stage = 0 ∧ (t.cal b).lastDone = s.upSlots ∧ (∃ r ∈ t.calh.waiting, r.bank = b.val)
        ∧ (k.again = true → t.calDue b = true) ∧ Logged s t .CAL_PASS_END b now 0))
    ∧ (k.stage ≠ 0 → k.abandon = true → Gives (.calAbandon b) s (fun t =>
        t.calActive b = false ∧ t.calDue b = true ∧ (t.cal b).stage = 0 ∧ (t.cal b).abandon = false
        ∧ t.getF Reg.CAL_CNT_ABANDONS = capAt Reg.CAL_CNT_ABANDONS.max (s.getF Reg.CAL_CNT_ABANDONS + 1)
        ∧ (t.cal b).subEnd = (if k.stage = 2 ∧ (k.step = 1 ∨ k.step = 2) ∧ k.suspended = false then some (s.now + 512) else none)
        ∧ Logged s t .CAL_ABANDON b now (BitVec.ofNat 64 (16 * b.val + k.chans.headD 0))))
    ∧ (∀ n, k.subEnd = some n → n ≤ s.now → Gives (.substitutionEnd b) s (fun t => (t.cal b).subEnd = none
        ∧ t.getF (Reg.BANK_SPARE_CONN b) = 0
        ∧ (s.cur ≠ 2 → t.getF (Reg.BANK_SPARE_CAL b) = b2n k.suspended ∧ { t with cals := s.cals, regs := s.regs } = s)))
    ∧ (s.cur = 2 → s.getF Reg.CAL_STAT_ACC_STEP = 5 → (∀ c < 24, (s.cal c).acc = false ∧ (s.cal c).stage = 0) →
        Gives .calAccDone s (fun t => t.reg Reg.CAL_ACCSLOT = now ∧ t.calh.compact = true ∧ t.getF Reg.CAL_STAT_ACC_STEP = 0
          ∧ t.getF Reg.SYS_MODE_PENDV = 1
          ∧ (s.getF Reg.SYS_MODE_PENDV = 0 → t.getF Reg.SYS_MODE_PEND = s.prior ∧ t.mode.pendAt = some (s.now + 1))
          ∧ Logged s t .CAL_ACC_DONE 0 (BitVec.ofNat 64 s.calh.deviant.length)
              (BitVec.ofNat 64 (((List.range 24).map (fun c => (s.cal c).failed)).sum))))

/-! ### Firmware update -/

/-- R420 to R424, R456: UPD_BEGIN names the image and empties the bitmap; a part enters its assembly buffer, the fourth completes the piece
(waiting for flash, or counted as CRCFAIL or a duplicate); a complete piece is stored and marked, the last one starts verification,
whose first failing test (among them the key's and the signature's, over the staged octets) sets FAILED and is logged; the status and the
bitmap are read. -/
def Obligations.UpdateStaging : Prop :=
  ∀ (l : Fin 4) (h : CmdHdr) (s : State),
    let refuse := fun (c : Instr) (op : Nat) (cond : Cond) => Gives c s (fun t =>
      Answered s t l h op 2 [] ∧ t.upd = s.upd ∧ Logged s t cond 0 (BitVec.ofNat 64 op) (BitVec.ofNat 64 l.val))
    (∀ w1 : W64, Accepts s l h 0x30 [w1] 2 false →
      let n := bits w1 12 0
      let image := bits w1 63 32
      let same := image = s.getF Reg.UPD_STAGE_IMAGE ∧ n = s.getF Reg.UPD_STAGE_NPIECES ∧ s.stageSt ≠ 4
      let c := Instr.updBegin l h w1
      (n = 0 ∨ 6128 < n → refuse c 0x30 .SYS_FIELD_RANGE)
      ∧ (1 ≤ n → n ≤ 6128 → same → Gives c s (fun t => Answered s t l h 0x30 0 [] ∧ t.upd = s.upd ∧ t.reg Reg.UPD_STAT = s.reg Reg.UPD_STAT))
      ∧ (1 ≤ n → n ≤ 6128 → ¬ same → s.copying = true → refuse c 0x30 .UPD_BUSY)
      ∧ (1 ≤ n → n ≤ 6128 → ¬ same → s.copying = false → Gives c s (fun t => Answered s t l h 0x30 0 []
          ∧ t.getF Reg.UPD_STAGE_IMAGE = image ∧ t.getF Reg.UPD_STAGE_NPIECES = n ∧ t.stageSt = 1 ∧ t.getF Reg.UPD_STAT_STORED = 0
          ∧ t.upd = { s.upd with asm := [], ready := [], bmap := [] })))
    ∧ (∀ (w1 w2 : W64) (data : List W64), Accepts s l h 0x31 (w1 :: w2 :: data) 2 false →
        let c := Instr.updPiece l h w1 w2 data
        let index := bits w1 12 0
        let p : UpdPart := { part := bits w1 29 28, crc := bits w2 31 0, words := data }
        let open_ := s.stageSt ≠ 2 ∧ s.stageSt ≠ 4 ∧ s.copying = false
        let takes := data.length = 128 ∧ open_ ∧ bits w1 63 32 = s.getF Reg.UPD_STAGE_IMAGE ∧ index < s.getF Reg.UPD_STAGE_NPIECES
        let counted := fun (t : State) (f : Fld) => t.getF f = capAt f.max (s.getF f + 1)
        (data.length ≠ 128 → Gives c s (fun t => Answered s t l h 0x31 3 []))
        ∧ (data.length = 128 → ¬ open_ → refuse c 0x31 .UPD_BUSY)
        ∧ (data.length = 128 → open_ → bits w1 63 32 ≠ s.getF Reg.UPD_STAGE_IMAGE → refuse c 0x31 .UPD_PIECE_IMAGE)
        ∧ (data.length = 128 → open_ → bits w1 63 32 = s.getF Reg.UPD_STAGE_IMAGE → s.getF Reg.UPD_STAGE_NPIECES ≤ index →
            refuse c 0x31 .UPD_PIECE_INDEX)
        ∧ (takes → s.upd.asm.find? (fun x => x.index == index) = none → s.upd.asm.length < 16 → Gives c s (fun t =>
            Answered s t l h 0x31 0 [] ∧ counted t Reg.UPD_CNT_PARTS
            ∧ t.upd = { s.upd with asm := s.upd.asm ++ [{ index := index, parts := [p] }] }))
        ∧ (takes → s.upd.asm.find? (fun x => x.index == index) = none → 16 ≤ s.upd.asm.length → Gives c s (fun t =>
            counted t Reg.UPD_CNT_EVICT ∧ t.upd = { s.upd with asm := s.upd.asm.drop 1 ++ [{ index := index, parts := [p] }] }))
        ∧ (∀ a, takes → s.upd.asm.find? (fun x => x.index == index) = some a → (a.put p).parts.length = 4 →
            let whole := (∀ q ∈ a.parts, q.part ≠ p.part → q.crc = p.crc) ∧ crc32c (wordOctets (a.put p).words) = p.crc
            (¬ whole → Gives c s (fun t => counted t Reg.UPD_CNT_CRCFAIL ∧ t.upd.ready = s.upd.ready))
            ∧ (whole → s.pieceStored index = true → Gives c s (fun t => counted t Reg.UPD_CNT_DUPS ∧ t.upd.ready = s.upd.ready))
            ∧ (whole → s.pieceStored index = false → Gives c s (fun t => t.upd.ready = s.upd.ready ++ [(index, (a.put p).words)]
                ∧ ∀ x ∈ t.upd.asm, x.index ≠ index))))
    ∧ (Accepts s l h 0x32 [] 0 false → Gives (.updStatus l h) s (fun t =>
        Answered s t l h 0x32 0 ([s.reg Reg.UPD_STAT, s.reg Reg.UPD_STAGE, s.reg Reg.UPD_VER, s.reg Reg.UPD_SVER] ++
          (List.range 96).map (fun i => s.upd.bmap.get (fun _ => 0) i)) ∧ { t with regs := s.regs, hosts := s.hosts } = s))
    ∧ (∀ failures i ws rest, s.upd.ready = (i, ws) :: rest →
        (s.pieceStored i = true → Gives (.pieceStore failures) s (fun t => t.upd = { s.upd with ready := rest }
          ∧ t.getF Reg.UPD_CNT_DUPS = capAt Reg.UPD_CNT_DUPS.max (s.getF Reg.UPD_CNT_DUPS + 1)))
        ∧ (s.pieceStored i = false → failures.val = 2 → Gives (.pieceStore failures) s (fun t => t.upd = { s.upd with ready := rest }
          ∧ Logged s t .UPD_FLASH_FAIL 0 (BitVec.ofNat 64 i) 0))
        ∧ (s.pieceStored i = false → failures.val ≠ 2 → s.getF Reg.UPD_STAT_STORED < 6128 → Gives (.pieceStore failures) s (fun t =>
          t.upd.ready = rest ∧ (∀ k < ws.length, t.stageWord (512 * i + k) = ws.getD k 0) ∧ t.pieceStored i = true
          ∧ (∀ j, j ≠ i → t.pieceStored j = s.pieceStored j) ∧ t.getF Reg.UPD_STAT_STORED = s.getF Reg.UPD_STAT_STORED + 1
          ∧ (s.getF Reg.UPD_STAT_STORED + 1 = s.getF Reg.UPD_STAGE_NPIECES → t.stageSt = 2))))
    ∧ (s.stageSt ≠ 2 → exec .verificationComplete s = .next s)
    ∧ (s.stageSt = 2 →
        (∀ c, s.verifyTests = some c → Gives .verificationComplete s (fun t => t.stageSt = 4 ∧ Logged s t c 0 0 0 ∧ t.upd = s.upd))
        ∧ (s.verifyTests = none → Gives .verificationComplete s (fun t => t.stageSt = 3
          ∧ t.reg Reg.UPD_SVER = BitVec.ofNat 64 (headerVersion s.stageWord)
          ∧ (s.cur ≠ 0 ∨ s.copying = true → { t with regs := s.regs } = s) ∧ (s.cur = 0 → t.copying = true)))
        ∧ (s.getF Reg.UPD_STAT_STORED ≠ s.getF Reg.UPD_STAGE_NPIECES → s.verifyTests = some .UPD_INCOMPLETE)
        ∧ (keyAccepted ((s.stagedImage.drop 64).take 97) = false ∨ imageSigned s.stagedImage = false
            ∨ (firmwareSections s.stageWord).2 = false → s.verifyTests ≠ none))
    ∧ (∀ port : Port,
        let p := bits (s.copy port Reg.UPD_BMAP_PTR) 6 0
        (s.portReads port Reg.UPD_BMAP_DATA = true → Gives (.bmapDataRead port) s (fun t =>
          t.copy port Reg.UPD_BMAP_PTR = BitVec.ofNat 64 (if p < 95 then p + 1 else 0) ∧ { t with copies := s.copies } = s))
        ∧ (s.portReads port Reg.UPD_BMAP_DATA = false → exec (.bmapDataRead port) s = .next s))

/-- R424 to R433: verification and the journaled copy begin where their tests pass; each block is copied from staging, compared and journaled,
three failures stop the copy, the last block ends it; an activation is tested in order and makes Traverse pending; a cancel in time or
a failed load withdraws it; with every shadow memory loaded SHADOW is set, and at h + 16 the new base is active and the mode PRIOR again.
UPD_RECOVER needs maintenance class and keeps what flash holds. -/
def Obligations.UpdateInstallation : Prop :=
  ∀ (l : Fin 4) (h : CmdHdr) (s : State),
    let refuse := fun (c : Instr) (op : Nat) (cond : Cond) => Gives c s (fun t =>
      Answered s t l h op 2 [] ∧ t.upd = s.upd ∧ Logged s t cond 0 (BitVec.ofNat 64 op) (BitVec.ofNat 64 l.val))
    let version := headerVersion s.stageWord
    (Accepts s l h 0x33 [] 2 false →
      (s.stageSt = 2 ∨ s.copying = true → refuse (.updVerify l h) 0x33 .UPD_BUSY)
      ∧ (s.stageSt ≠ 2 → s.copying = false → Gives (.updVerify l h) s (fun t => Answered s t l h 0x33 0 []
          ∧ t.stageSt = (if s.stageSt = 4 then 4 else 2))))
    ∧ (Accepts s l h 0x34 [] 2 false →
        let idle := s.copying = false ∧ s.getF Reg.UPD_STAT_TPEND = 0 ∧ s.cur ≠ 6
        (s.stageSt ≠ 3 → refuse (.updInstall l h) 0x34 .UPD_NOT_VERIFIED)
        ∧ (s.stageSt = 3 → ¬ idle → refuse (.updInstall l h) 0x34 .UPD_BUSY)
        ∧ (s.stageSt = 3 → idle → version < s.getF Reg.UPD_VER_RUN → s.classOf l < 3 → refuse (.updInstall l h) 0x34 .UPD_OLDER)
        ∧ (s.stageSt = 3 → idle → s.getF Reg.UPD_VER_RUN ≤ version ∨ 3 ≤ s.classOf l → Gives (.updInstall l h) s (fun t =>
            Answered s t l h 0x34 0 [] ∧ t.copying = true ∧ t.getF Reg.UPD_STAT_BLOCKS = 0 ∧ t.upd.run = s.upd.run
            ∧ t.upd.journal.head? = some { kind := .copyBegin, block := 0, image := headerImage s.stageWord, version := version })))
    ∧ (∀ failures, s.copying = false → exec (.copyBlock failures) s = .next s)
    ∧ (∀ failures, s.copying = true → s.getF Reg.UPD_STAT_BLOCKS < 1023 →
        let b := s.getF Reg.UPD_STAT_BLOCKS
        let words := ceilDiv (headerLen s.stageWord) 8
        (failures.val = 3 → Gives (.copyBlock failures) s (fun t => t.copying = false ∧ t.upd = s.upd
          ∧ Logged s t .UPD_COPY_FAIL 0 (BitVec.ofNat 64 b) 0))
        ∧ (failures.val ≠ 3 → Gives (.copyBlock failures) s (fun t =>
          (∀ i < 4096, 4096 * b + i < words → t.runWord (4096 * b + i) = s.stageWord (4096 * b + i))
          ∧ (∀ k, k < 4096 * b ∨ 4096 * (b + 1) ≤ k → t.runWord k = s.runWord k)
          ∧ t.upd.stage = s.upd.stage ∧ t.pending = s.pending
          ∧ (b + 1 < imageBlocks s.stageWord → t.copying = true ∧ t.getF Reg.UPD_STAT_BLOCKS = b + 1
              ∧ t.upd.journal.head? = some { kind := .blockDone, block := b, image := headerImage s.stageWord, version := version })
          ∧ (imageBlocks s.stageWord ≤ b + 1 → t.copying = false
              ∧ t.upd.journal.head? = some { kind := .copyEnd, block := b, image := headerImage s.stageWord, version := version }
              ∧ (s.cur = 0 → s.upd.recover = false → t.mode.phase = .held)
              ∧ (s.cur ≠ 0 → t.getF Reg.UPD_VER_RUN = version ∧ t.mode = s.mode)))))
    ∧ (∀ at_ : W64, Accepts s l h 0x35 [at_] 2 false →
        let c := Instr.updActivate l h at_
        let mode := s.cur = 3 ∨ s.cur = 4 ∨ s.cur = 5
        let idle := s.getF Reg.SYS_MODE_PENDV = 0 ∧ s.upd.act = none ∧ s.copying = false
        let start := if at_ = 0 then ceilDiv (s.now + 62500) 8192 * 8192 else at_.toNat
        (¬ mode → refuse c 0x35 .UPD_TRAV_MODE) ∧ (mode → ¬ idle → refuse c 0x35 .UPD_BUSY)
        ∧ (s.activationTest at_.toNat = none → Gives c s (fun t => Answered s t l h 0x35 0 [BitVec.ofNat 64 start] ∧ t.upd.act = some (start, l.val)
            ∧ t.upd.loading = true ∧ t.getF Reg.UPD_STAT_TPEND = 1 ∧ t.reg Reg.UPD_TSLOT = BitVec.ofNat 64 start
            ∧ t.getF Reg.SYS_MODE_PENDV = 1 ∧ t.getF Reg.SYS_MODE_PEND = 6 ∧ t.mode.pendAt = some start ∧ t.cur = s.cur)))
    ∧ (∀ a, Accepts s l h 0x36 [] 2 false → s.upd.act = some (a, l.val) →
        (a < s.now + 16 → refuse (.updCancel l h) 0x36 .UPD_LATE_CANCEL)
        ∧ (s.now + 16 ≤ a → Gives (.updCancel l h) s (fun t => Answered s t l h 0x36 0 [] ∧ t.upd.act = none
            ∧ t.getF Reg.UPD_STAT_TPEND = 0 ∧ t.getF Reg.SYS_MODE_PENDV = 0 ∧ t.cur = s.cur)))
    ∧ (∀ port : Port,
        (s.portOpen port Reg.UPD_CTL = false → exec (.updRecover port) s = .next s)
        ∧ (s.portOpen port Reg.UPD_CTL = true → s.classOf port < 3 → Refuses (.updRecover port) s .SYS_AUTH_DENIED 0 Reg.UPD_CTL port)
        ∧ (s.portOpen port Reg.UPD_CTL = true → 3 ≤ s.classOf port → Gives (.updRecover port) s (fun t => t.mode.phase = .held ∧ t.upd.recover = true ∧ t.upd.stage = s.upd.stage
            ∧ t.upd.run = s.upd.run ∧ t.upd.journal = s.upd.journal ∧ t.cfg.stores = s.cfg.stores ∧ t.pending = s.pending)))
    ∧ (∀ a, s.upd.act = some a → s.upd.loading = true → s.cur ≠ 6 →
        let progs := (s.storeOf s.otherStore).progs
        (∀ e : Fin 16, Gives (.shadowLoadComplete (some e)) s (fun t => t.upd.act = none ∧ t.getF Reg.UPD_STAT_TPEND = 0
          ∧ t.getF Reg.SYS_MODE_PENDV = 0 ∧ Logged s t .UPD_TRAV_LOAD e 0 0))
        ∧ ((∀ e ∈ s.activeEngines, (s.programOf progs e).isSome = true) → Gives (.shadowLoadComplete none) s (fun t =>
            t.getF Reg.UPD_STAT_SHADOW = 1 ∧ t.upd = { s.upd with loading := false } ∧ t.getF Reg.UPD_STAT_TPEND = s.getF Reg.UPD_STAT_TPEND)))
    ∧ (s.upd.act = none → exec .traverseEnd s = .next s ∧ ∀ e, exec (.shadowLoadComplete e) s = .next s)
    ∧ (∀ a port, s.upd.act = some (a, port) → s.cur = 6 → s.prior ∈ [3, 4, 5] → a + 16 ≤ s.now → s.overlayDue = false →
        (s.storeOf s.otherStore).records = [] → (s.storeOf s.otherStore).overlays = [] → s.getF Reg.CFG_STATUS_OVL_ACT = 15 →
        s.overlayDef 15 = none → Gives .traverseEnd s (fun t =>
          t.cur = s.prior ∧ t.reg Reg.SYS_MODE_SLOT = BitVec.ofNat 64 (a + 16) ∧ t.activeStore = s.otherStore
          ∧ t.cfg.params = (s.storeOf s.otherStore).params ∧ t.upd.act = none ∧ t.getF Reg.UPD_STAT_TPEND = 0
          ∧ t.getF Reg.UPD_STAT_SHADOW = 0 ∧ t.getF Reg.UPD_VER_ACT = headerVersion s.runWord))

/-! ### Faults and the event log -/

/-- R434 to R438, R440: a channel with a stage fault is put on its bank's spare path, or escalates to its bank where another channel holds it;
a bank fault stops the bank from the next slot until its restart, an escalated channel leaves delivery, the third fault within 3,600 s
goes to the hub, as does one in a ready pair or on a bank that stands still; a hub that is down absorbs them. An uncorrectable DRAM burst is
counted, logged with its address (and bounds, log entry 29) and marks what it struck, the 65th within 2^18 slots and a ROM error go to the hub;
a scrub pass counts what it corrected. -/
def Obligations.ChannelBankAndMemoryFaults : Prop :=
  ∀ s : State,
    let falls := fun t : State => t.getF Reg.SYS_MODE_PENDV = 1 ∧ t.getF Reg.SYS_MODE_PEND = 7 ∧ t.mode.pendAt = some (s.now + 1) ∧ t.cur = s.cur
    let up := s.down = false
    (∀ c : Fin 384,
      let b := chBank c
      let p := c.val % 16
      let k := Instr.chStageFault c
      let logged := fun t : State => Logged s t .CH_STAGE_FAULT c (BitVec.ofNat 64 (s.spareSlots c).1) (BitVec.ofNat 64 (s.spareSlots c).2)
      (s.stageFault c = false ∨ (s.bk b).holder = some p → exec k s = .next s)
      ∧ (s.stageFault c = true → up → (s.bk b).stopped = false → (s.ch c).lost = none →
          ((s.bk b).holder = none → Gives k s (fun t => logged t ∧ (t.bk b).holder = some p ∧ (t.cal b).suspended = true
            ∧ (∃ u r, (t.bk b).subs = u :: r ∧ u.pos = p ∧ u.first = (s.spareSlots c).1 ∧ u.last = none)
            ∧ t.getF (Reg.BANK_SPARE_CAL b) = 1 ∧ t.getF (Reg.BANK_SPARE_CONN b) = 1 ∧ t.getF (Reg.BANK_SPARE_POS b) = p))
          ∧ (∀ q, (s.bk b).holder = some q → q ≠ p → Gives k s (fun t => logged t ∧ (t.bk b) = { s.bk b with escal := some p })))
      ∧ (s.stageFault c = true → s.down = true → (s.bk b).holder ≠ some p → Gives k s (fun t => logged t ∧ t.banks = s.banks)))
    ∧ (∀ (b : Fin 24) (cause : BankFaultCause),
        let k := Instr.bankFault b cause
        let recent := ((s.bk b).faults.filter (fun t => decide (s.upSlots < t + 900000000))).length
        let next := BitVec.ofNat 64 (s.now + 1)
        (s.down = true → cause ≠ .escalated → Gives k s (fun t => Logged s t (bankFaultCond cause) b next 0))
        ∧ (up → s.pairReady = false → (s.bk b).stopped = false → recent < 2 →
            (cause ≠ .escalated → Gives k s (fun t => (t.bk b).gaps = (s.now + 1, none) :: (s.bk b).gaps
                ∧ (∀ c ∈ bankChans b, (t.ch c).drive = .off ∧ (t.ch c).level = 0) ∧ (∀ c, c ∉ bankChans b → t.ch c = s.ch c)
                ∧ { t with banks := s.banks, chans := s.chans } = s))
            ∧ (∀ p, cause = .escalated → (s.bk b).escal = some p → p < 16 → Gives k s (fun t =>
                Logged s t .BANK_CH_ESCALATED b (BitVec.ofNat 64 (16 * b.val + p)) next ∧ (t.ch (16 * b.val + p)).lost = some (s.now + 1)
                ∧ (t.bk b).gaps = (s.bk b).gaps)))
        ∧ (up → 2 ≤ recent ∨ s.pairReady = true ∨ (s.bk b).stopped = true → cause ≠ .escalated → s.runs = true → s.unset = false → Gives k s (fun t => falls t
            ∧ Logged s t (bankFaultCond cause) b next 0))
        ∧ ((s.bk b).escal = none → exec (.bankFault b .escalated) s = .next s)
        ∧ ((s.bk b).gaps = [] → exec (.bankRestart b) s = .next s)
        ∧ (∀ f r, (s.bk b).gaps = (f, none) :: r → f < s.now → s.now < f + 5000 → Gives (.bankRestart b) s (fun t =>
            (t.bk b).gaps = (f, some (s.now - 1)) :: r
            ∧ Logged s t (bankCond (s.bk b).restartOf) b (BitVec.ofNat 64 f) (BitVec.ofNat 64 (s.now - 1)))))
    ∧ (∀ (ch : Fin 2) (addr : Nat),
        let old := (s.ladder.bursts.get (fun _ => []) ch).filter (fun t => decide (s.upSlots < t + 2 ^ 18))
        let counted := fun t : State => t.getF (Reg.DBG_DRAM_UNCORR ch) = capAt (Reg.DBG_DRAM_UNCORR ch).max (s.getF (Reg.DBG_DRAM_UNCORR ch) + 1)
        let noted := fun (t : State) (part : DramPart) => counted t ∧ ∃ r ∈ t.evt.ring, r.seq = s.evt.nextSeq ∧ r.unit = ch.val
          ∧ r.slot = s.logSlot ∧ r.d2 = BitVec.ofNat 64 addr ∧ r.d3 = (s.burstBounds part addr).getD 0 0
        exec (.dramEccError ch .sram addr) s = .next { s with sramBad := addr / 8 :: s.sramBad }
        ∧ (old.length < 64 →
          (∀ part, part = .bulk ∨ part = .queue → Gives (.dramEccError ch part addr) s (fun t => noted t part
            ∧ t.poison = (List.range 8).map (fun i => addr / 64 * 8 + i) ++ s.poison
            ∧ { t with regs := s.regs, ladder := s.ladder, poison := s.poison, evt := s.evt, fresh := s.fresh } = s))
          ∧ Gives (.dramEccError ch .capture addr) s (fun t => noted t .capture ∧ t.cap = { s.cap with bad := addr :: s.cap.bad }
            ∧ { t with regs := s.regs, ladder := s.ladder, cap := s.cap, evt := s.evt, fresh := s.fresh } = s)
          ∧ Gives (.dramEccError ch .ledger addr) s (fun t => noted t .ledger
            ∧ t.led.ring = s.led.ring.map (fun r => if s.struck addr r then { r with bad := true } else r)
            ∧ { t with regs := s.regs, ladder := s.ladder, led := s.led, evt := s.evt, fresh := s.fresh } = s))
        ∧ (∀ r ∈ s.led.ring, r.pos < addr / 64 * 64 + 64 → addr / 64 * 64 < r.pos + r.octets → s.struck addr r = true)
        ∧ (up → s.runs = true → s.unset = false → Gives (.dramEccError ch .reserved addr) s (fun t => counted t ∧ falls t)
            ∧ (64 ≤ old.length → Gives (.dramEccError ch .bulk addr) s (fun t => noted t .bulk ∧ falls t
                ∧ ∃ r ∈ t.evt.ring, r.code = Cond.DRAM_CHANNEL_FAIL.code ∧ r.unit = unitIx ch))))
    ∧ (∀ corrected : List Nat, Gives (.scrub corrected) s (fun t => t.reg Reg.DBG_SCRUB = BitVec.ofNat 64 s.now
        ∧ (∀ ch < 2, t.getF (Reg.DBG_DRAM_CORR ch) = capAt (Reg.DBG_DRAM_CORR ch).max (s.getF (Reg.DBG_DRAM_CORR ch) + corrected.getD ch 0))
        ∧ { t with regs := s.regs } = s))
    ∧ (up → s.unset = false → Gives .romUncorrectableError s (fun t => falls t ∧ Logged s t .HUB_ESCALATED 0 (BitVec.ofNat 64 Cond.HUB_ESCALATED.code) 0))
    ∧ (s.cur = 7 → exec .romUncorrectableError s = .next s)

/-- R443, R445, R455, R456, R459: the oldest record that waits goes to the persistent log, which keeps 1,024; ones written to EVT_INT.PEND
clear those bits with their NHOLD bits; a read of EVT_REC3 advances the port's pointer; EVT_PRD_PTR latches the record counted back from
the newest, DBG_ENG_PTR the checkpoint items of an engine, whose data window advances. -/
def Obligations.LogInterruptsAndDebug : Prop :=
  ∀ s : State,
    (s.evt.flashQ = [] → exec .persistentLogWrite s = .next s)
    ∧ (∀ r rest, s.evt.flashQ = r :: rest → exec .persistentLogWrite s = .next { s with evt := { s.evt with
        flashQ := rest, flash := (r :: s.evt.flash).take 1024 } })
    ∧ (∀ port : Port,
        (∀ (bits_ : BitVec 5) (v : W64),
          (s.portOpen port Reg.EVT_INT = false → exec (.interruptClear port bits_) s = .next s)
          ∧ (s.portReads port (Reg.EVT_REC 3) = false → exec (.eventRecordRead port) s = .next s)
          ∧ (s.portOpen port Reg.EVT_PRD_PTR = false → exec (.persistentPointerWrite port v) s = .next s)
          ∧ (s.portOpen port Reg.DBG_ENG_PTR = false → exec (.dbgEngPtrWrite port v) s = .next s)
          ∧ (s.portReads port Reg.DBG_ENG_DATA = false → exec (.dbgEngDataRead port) s = .next s))
        ∧ (∀ bits_ : BitVec 5, s.portOpen port Reg.EVT_INT = true →
          (s.classOf port = 0 → Refuses (.interruptClear port bits_) s .SYS_AUTH_DENIED 0 Reg.EVT_INT port)
          ∧ (1 ≤ s.classOf port → Gives (.interruptClear port bits_) s (fun t =>
              (∀ k < 5, (t.getF Reg.EVT_INT_PEND).testBit k = ((s.getF Reg.EVT_INT_PEND).testBit k && !bits_.getLsbD k)
                ∧ (t.getF Reg.EVT_INT_NHOLD).testBit k = ((s.getF Reg.EVT_INT_NHOLD).testBit k && !bits_.getLsbD k))
              ∧ (∀ a, a ≠ Reg.EVT_INT → t.reg a = s.reg a) ∧ { t with regs := s.regs } = s)))
        ∧ (s.portReads port (Reg.EVT_REC 3) = true → Gives (.eventRecordRead port) s (fun t =>
            t.copy port Reg.EVT_RDPTR = BitVec.ofNat 64 ((bits (s.copy port Reg.EVT_RDPTR) 27 0 + 1) % 2 ^ 28) ∧ { t with copies := s.copies } = s))
        ∧ (∀ v : W64, s.portOpen port Reg.EVT_PRD_PTR = true → Gives (.persistentPointerWrite port v) s (fun t =>
            bits (t.copy port Reg.EVT_PRD_PTR) 9 0 = bits v 9 0 ∧ t.evt.flash = s.evt.flash
            ∧ (∀ r, s.evt.flash[bits v 9 0]? = some r → ∀ w < 4, t.persistWord port w = r.word w)
            ∧ (s.evt.flash.length ≤ bits v 9 0 → ∀ w < 4, t.persistWord port w = 0)
            ∧ { t with copies := s.copies, evt := s.evt, regs := s.regs } = s))
        ∧ (∀ v : W64, s.portOpen port Reg.DBG_ENG_PTR = true →
            (s.classOf port = 0 → Refuses (.dbgEngPtrWrite port v) s .SYS_AUTH_DENIED 0 Reg.DBG_ENG_PTR port)
            ∧ (1 ≤ s.classOf port → Gives (.dbgEngPtrWrite port v) s (fun t =>
                bits (t.copy port Reg.DBG_ENG_PTR) 11 0 = bits v 11 0
                ∧ t.dbgWord port = (s.checkpointItems (bits v 11 8)).getD (bits v 7 0) 0
                ∧ { t with copies := s.copies, ladder := s.ladder, regs := s.regs } = s)))
        ∧ (s.portReads port Reg.DBG_ENG_DATA = true → Gives (.dbgEngDataRead port) s (fun t =>
            bits (t.copy port Reg.DBG_ENG_PTR) 7 0 = (bits (s.copy port Reg.DBG_ENG_PTR) 7 0 + 1) % 256
            ∧ bits (t.copy port Reg.DBG_ENG_PTR) 11 8 = bits (s.copy port Reg.DBG_ENG_PTR) 11 8 ∧ { t with copies := s.copies } = s)))

/-! ### The whole machine -/

/-- A step takes the command at the front of the queue and is exec of it on the state with the queue's rest; with no command waiting the
hub idles (the queue and idling are the model's: log entry 47). -/
def Obligations.StepRunsFrontCommand : Prop :=
  (∀ (c : Instr) (rest : List Instr) (s : State), s.pending = c :: rest → step s = exec c { s with pending := rest })
  ∧ ∀ s : State, s.pending = [] → step s = .next s

/-- After reset every register word reads as its reset value (R7): the mode is Basecamp, the event masks are 0x1C, no time base is set, no
lane is up; nothing is listed in the memories and no command waits. That a memory byte which nothing has written reads 0 is the model's
choice (log entry 3). -/
def Obligations.ResetState : Prop :=
  (∀ a, State.reset.reg a = Reg.resetValue a) ∧ State.reset.cur = 1 ∧ State.reset.prior = 0 ∧ State.reset.pending = []
  ∧ State.reset.getF Reg.EVT_CFG_NMASK = 0x1C ∧ State.reset.getF Reg.EVT_CFG_IMASK = 0x1C
  ∧ (∀ k : Fin 4, State.reset.getF (Reg.TB_STAT_STATE k) = 0 ∧ State.reset.laneUp k = false)
  ∧ (∀ e : Fin 16, (State.reset.eng e).running = false ∧ ∀ r : WReg, (State.reset.eng e).rw r = 0)
  ∧ (∀ c : Fin 384, (State.reset.ch c).drive = .off) ∧ State.reset.mode.phase = .held
  ∧ (∀ a, Memory.get State.reset.sram a = 0 ∧ Memory.get State.reset.dram a = 0) ∧ Canonical State.reset

/-- Every command runs: whatever state the hub is in and whatever waits, a step answers a next state (the manual names no command that stops
the hub, and every value it leaves open is a free value). -/
def Obligations.EveryStepAnswers : Prop := ∀ s : State, Safe s

/-- The memories of the hub and its register table keep their canonical form over every step, from every state that has it: addresses rise,
and nothing is listed that an unlisted address reads as, so that equal memories are equal data (log entry 3). -/
def Obligations.CanonicalKept : Prop := ∀ s t : State, Canonical s → step s = .next t → Canonical t

/-- R184, R186 to R193, R197, R198, R200, R207: an instruction word and a Koloux instruction spell each other. The word that is written
for an instruction, with every operand at every value, decodes to it; a word that decodes to an instruction is the word written for it, so that
no two words spell one instruction and no bit of a word is dropped. A word that spells none, an unassigned OP, FN, HF or selector or a
reserved field that is not 0, is ILLEGAL_INSTRUCTION where it stands at an engine's PC. -/
def Obligations.KolouxWordsSpellInstructions : Prop :=
  (∀ (i : Instr) (e : Fin 16) (w : W32), encodeKoloux i = some (e, w) ↔ decodeWord e w = some i)
  ∧ (∀ (s : State) (e : Fin 16) (i : Instr) (w : W32), encodeKoloux i = some (e, w) → Sparse.get 0 (s.eng e).imem (s.eng e).pc = w →
      ∀ j, s.NextInstr e j ↔ j = i)
  ∧ (∀ (s : State) (e : Fin 16), decodeWord e (Sparse.get 0 (s.eng e).imem (s.eng e).pc) = none → ∀ j, s.NextInstr e j ↔ j = .illegalInstruction e)
  ∧ ∀ (e : Fin 16) (w : W32), opOf w ∉ [0, 1, 2, 3, 4, 5, 0x30] → (opOf w < 8 ∨ opOf w = 0x11 ∨ opOf w = 0x1F ∨ (0x25 ≤ opOf w ∧ opOf w < 0x28) ∨ 0x2A ≤ opOf w) →
      decodeWord e w = none
end

