-- ==== Sys2Proof/Laws/Sparse.lean ====
section
/-!
SUPPORT. Sys2Proof/Laws/Sparse.lean: the laws of the sparse tables: a read after a write, a write beside a read, and the canonical form
that every operation keeps.
-/
namespace Sys2Proof.Machine

variable {α : Type}

theorem Sparse.get_erase_self (d : Nat → α) (m : Sparse α) (k : Nat) : Sparse.get d (Sparse.erase m k) k = d k := by
  induction m with
  | nil => rfl
  | cons c r ih =>
    obtain ⟨j, v⟩ := c
    by_cases h : j = k <;> simp [Sparse.erase, h, ih, Sparse.get]

theorem Sparse.get_erase_ne (d : Nat → α) (m : Sparse α) {k j : Nat} (h : j ≠ k) :
    Sparse.get d (Sparse.erase m k) j = Sparse.get d m j := by
  induction m with
  | nil => rfl
  | cons c r ih =>
    obtain ⟨i, v⟩ := c
    by_cases hi : i = k
    · subst hi
      simp [Sparse.erase, ih, Sparse.get, Ne.symm h]
    · by_cases hj : i = j
      · subst hj
        simp [Sparse.erase, hi, Sparse.get]
      · simp [Sparse.erase, hi, ih, Sparse.get, hj]

theorem Sparse.get_insert_ne (d : Nat → α) (m : Sparse α) {k j : Nat} (v : α) (h : j ≠ k) :
    Sparse.get d (Sparse.insert k v m) j = Sparse.get d m j := by
  induction m with
  | nil => simp [Sparse.insert, Sparse.get, Ne.symm h]
  | cons c r ih =>
    obtain ⟨i, u⟩ := c
    by_cases hi : k < i
    · simp [Sparse.insert, hi, Sparse.get, Ne.symm h]
    · by_cases hj : i = j
      · subst hj
        simp [Sparse.insert, hi, Sparse.get]
      · simp [Sparse.insert, hi, ih, Sparse.get, hj]

theorem Sparse.get_insert_erase (d : Nat → α) (m : Sparse α) (k : Nat) (v : α) :
    Sparse.get d (Sparse.insert k v (Sparse.erase m k)) k = v := by
  induction m with
  | nil => simp [Sparse.erase, Sparse.insert, Sparse.get]
  | cons c r ih =>
    obtain ⟨i, u⟩ := c
    by_cases hi : i = k
    · simp [Sparse.erase, hi, ih]
    · by_cases hk : k < i <;> simp [Sparse.erase, hi, Sparse.insert, hk, Sparse.get, ih]

/-- A table read at the key just written. -/
@[simp] theorem Sparse.get_set_self [DecidableEq α] (d : Nat → α) (m : Sparse α) (k : Nat) (v : α) :
    Sparse.get d (Sparse.set d m k v) k = v := by
  unfold Sparse.set
  split
  · rename_i h
    rw [Sparse.get_erase_self, h]
  · exact Sparse.get_insert_erase d m k v

/-- A table read at another key than the one written. -/
theorem Sparse.get_set_ne [DecidableEq α] (d : Nat → α) (m : Sparse α) {k j : Nat} (v : α) (h : j ≠ k) :
    Sparse.get d (Sparse.set d m k v) j = Sparse.get d m j := by
  unfold Sparse.set
  split
  · exact Sparse.get_erase_ne d m h
  · rw [Sparse.get_insert_ne d _ v h, Sparse.get_erase_ne d m h]

/-- A table read anywhere after a write. -/
theorem Sparse.get_set [DecidableEq α] (d : Nat → α) (m : Sparse α) (k j : Nat) (v : α) :
    Sparse.get d (Sparse.set d m k v) j = if j = k then v else Sparse.get d m j := by
  split
  · rename_i h
    subst h
    simp
  · rename_i h
    exact Sparse.get_set_ne d m v h

/-! ### The canonical form -/

theorem Sparse.sortedFrom_weaken {m : Sparse α} {a b : Nat} (h : a ≤ b) (hs : Sparse.sortedFrom (some b) m = true) :
    Sparse.sortedFrom (some a) m = true := by
  cases m with
  | nil => rfl
  | cons c r =>
    obtain ⟨j, v⟩ := c
    simp only [Sparse.sortedFrom, Bool.and_eq_true, decide_eq_true_eq] at hs ⊢
    exact ⟨lt_of_le_of_lt h hs.1, hs.2⟩

theorem Sparse.sortedFrom_none {m : Sparse α} {a : Nat} (hs : Sparse.sortedFrom (some a) m = true) :
    Sparse.sortedFrom none m = true := by
  cases m with
  | nil => rfl
  | cons c r =>
    simp only [Sparse.sortedFrom, Bool.and_eq_true] at hs ⊢
    exact hs.2

theorem Sparse.sortedFrom_erase {m : Sparse α} {a k : Nat} (hs : Sparse.sortedFrom (some a) m = true) :
    Sparse.sortedFrom (some a) (Sparse.erase m k) = true := by
  induction m generalizing a with
  | nil => rfl
  | cons c r ih =>
    obtain ⟨j, v⟩ := c
    simp only [Sparse.sortedFrom, Bool.and_eq_true, decide_eq_true_eq] at hs
    by_cases h : j = k
    · simp only [Sparse.erase, h, if_true]
      exact ih (Sparse.sortedFrom_weaken (Nat.le_of_lt hs.1) hs.2)
    · simp only [Sparse.erase, h, if_false, Sparse.sortedFrom, Bool.and_eq_true, decide_eq_true_eq]
      exact ⟨hs.1, ih hs.2⟩

theorem Sparse.sortedFrom_insert {m : Sparse α} {a k : Nat} (v : α) (ha : a < k) (hs : Sparse.sortedFrom (some a) m = true)
    (hk : ∀ c ∈ m, c.1 ≠ k) : Sparse.sortedFrom (some a) (Sparse.insert k v m) = true := by
  induction m generalizing a with
  | nil => simp [Sparse.insert, Sparse.sortedFrom, ha]
  | cons c r ih =>
    obtain ⟨j, u⟩ := c
    simp only [Sparse.sortedFrom, Bool.and_eq_true, decide_eq_true_eq] at hs
    by_cases h : k < j
    · simp [Sparse.insert, h, Sparse.sortedFrom, ha, hs.2]
    · have hj : j ≠ k := hk (j, u) (by simp)
      have hjk : j < k := by omega
      simp only [Sparse.insert, h, if_false, Sparse.sortedFrom, Bool.and_eq_true, decide_eq_true_eq]
      exact ⟨hs.1, ih hjk hs.2 (fun c hc => hk c (by simp [hc]))⟩

theorem Sparse.erase_subset (m : Sparse α) (k : Nat) {c : Nat × α} (h : c ∈ Sparse.erase m k) : c ∈ m ∧ c.1 ≠ k := by
  induction m with
  | nil => simp [Sparse.erase] at h
  | cons x r ih =>
    obtain ⟨j, v⟩ := x
    by_cases hj : j = k
    · simp only [Sparse.erase, hj, if_true] at h
      exact ⟨by simp [(ih h).1], (ih h).2⟩
    · simp only [Sparse.erase, hj, if_false, List.mem_cons] at h
      rcases h with h | h
      · subst h
        exact ⟨by simp, hj⟩
      · exact ⟨by simp [(ih h).1], (ih h).2⟩

theorem Sparse.mem_insert {m : Sparse α} {k : Nat} {v : α} {c : Nat × α} (h : c ∈ Sparse.insert k v m) : c = (k, v) ∨ c ∈ m := by
  induction m with
  | nil => simpa [Sparse.insert] using h
  | cons x r ih =>
    obtain ⟨j, u⟩ := x
    by_cases hj : k < j
    · simpa [Sparse.insert, hj] using h
    · simp only [Sparse.insert, hj, if_false, List.mem_cons] at h
      rcases h with h | h
      · exact Or.inr (by simp [h])
      · rcases ih h with h | h
        · exact Or.inl h
        · exact Or.inr (by simp [h])

theorem Sparse.sorted_erase {m : Sparse α} {k : Nat} (hs : Sparse.sortedFrom none m = true) :
    Sparse.sortedFrom none (Sparse.erase m k) = true := by
  cases m with
  | nil => rfl
  | cons c r =>
    obtain ⟨j, v⟩ := c
    simp only [Sparse.sortedFrom] at hs
    by_cases h : j = k
    · simp only [Sparse.erase, h, if_true]
      exact Sparse.sortedFrom_none (Sparse.sortedFrom_erase hs)
    · simp only [Sparse.erase, h, if_false, Sparse.sortedFrom]
      exact Sparse.sortedFrom_erase hs

theorem Sparse.sorted_insert {m : Sparse α} {k : Nat} (v : α) (hs : Sparse.sortedFrom none m = true) (hk : ∀ c ∈ m, c.1 ≠ k) :
    Sparse.sortedFrom none (Sparse.insert k v m) = true := by
  cases m with
  | nil => rfl
  | cons c r =>
    obtain ⟨j, u⟩ := c
    simp only [Sparse.sortedFrom] at hs
    have hj : j ≠ k := hk (j, u) (by simp)
    by_cases h : k < j
    · simp [Sparse.insert, h, Sparse.sortedFrom, hs]
    · simp only [Sparse.insert, h, if_false, Sparse.sortedFrom]
      exact Sparse.sortedFrom_insert v (by omega) hs (fun c hc => hk c (by simp [hc]))

/-- The empty table is canonical. -/
@[simp] theorem Sparse.wf_nil [DecidableEq α] (d : Nat → α) : Sparse.wf d ([] : Sparse α) = true := rfl

/-- A write keeps a table canonical. -/
theorem Sparse.wf_set [DecidableEq α] {d : Nat → α} {m : Sparse α} (k : Nat) (v : α) (h : Sparse.wf d m = true) :
    Sparse.wf d (Sparse.set d m k v) = true := by
  simp only [Sparse.wf, Bool.and_eq_true, List.all_eq_true, decide_eq_true_eq] at h ⊢
  unfold Sparse.set
  split
  · exact ⟨Sparse.sorted_erase h.1, fun c hc => h.2 c (Sparse.erase_subset m k hc).1⟩
  · rename_i hv
    refine ⟨Sparse.sorted_insert v (Sparse.sorted_erase h.1) (fun c hc => (Sparse.erase_subset m k hc).2), fun c hc => ?_⟩
    rcases Sparse.mem_insert hc with hc | hc
    · subst hc
      exact hv
    · exact h.2 c (Sparse.erase_subset m k hc).1

theorem Sparse.sortedFrom_filter {m : Sparse α} {a : Nat} (p : Nat × α → Bool) (hs : Sparse.sortedFrom (some a) m = true) :
    Sparse.sortedFrom (some a) (m.filter p) = true := by
  induction m generalizing a with
  | nil => rfl
  | cons c r ih =>
    obtain ⟨j, v⟩ := c
    simp only [Sparse.sortedFrom, Bool.and_eq_true, decide_eq_true_eq] at hs
    by_cases h : p (j, v) = true
    · simp only [List.filter_cons, h, if_true, Sparse.sortedFrom, Bool.and_eq_true, decide_eq_true_eq]
      exact ⟨hs.1, ih hs.2⟩
    · simp only [List.filter_cons, h]
      exact ih (Sparse.sortedFrom_weaken (Nat.le_of_lt hs.1) hs.2)

/-- A canonical table stays canonical when entries are left out. -/
theorem Sparse.wf_filter [DecidableEq α] {d : Nat → α} {m : Sparse α} (p : Nat × α → Bool) (h : Sparse.wf d m = true) :
    Sparse.wf d (m.filter p) = true := by
  simp only [Sparse.wf, Bool.and_eq_true, List.all_eq_true, decide_eq_true_eq] at h ⊢
  refine ⟨?_, fun c hc => h.2 c (List.mem_filter.mp hc).1⟩
  cases m with
  | nil => rfl
  | cons c r =>
    obtain ⟨j, v⟩ := c
    have hs := h.1
    simp only [Sparse.sortedFrom] at hs
    by_cases hp : p (j, v) = true
    · simp only [List.filter_cons, hp, if_true, Sparse.sortedFrom]
      exact Sparse.sortedFrom_filter p hs
    · simp only [List.filter_cons, hp]
      exact Sparse.sortedFrom_none (Sparse.sortedFrom_filter p hs)

/-- An entry replaced by a function of it keeps a table canonical. -/
theorem Sparse.wf_modify [DecidableEq α] {d : Nat → α} {m : Sparse α} (k : Nat) (f : α → α) (h : Sparse.wf d m = true) :
    Sparse.wf d (Sparse.modify d m k f) = true := Sparse.wf_set k _ h

/-! ### Byte memories -/

/-- A byte read at the address just written. -/
@[simp] theorem Memory.get_set_self (m : List Host.Cell) (a : Nat) (v : Byte) : Memory.get (Memory.set m a v) a = v :=
  Sparse.get_set_self _ m a v

/-- A byte read beside the address written. -/
theorem Memory.get_set_ne (m : List Host.Cell) {a b : Nat} (v : Byte) (h : b ≠ a) : Memory.get (Memory.set m a v) b = Memory.get m b :=
  Sparse.get_set_ne _ m v h

/-- The empty memory is canonical. -/
@[simp] theorem Memory.wf_nil : Memory.wf [] = true := rfl

/-- Storing a byte keeps a memory canonical. -/
theorem Memory.wf_set {m : List Host.Cell} (a : Nat) (v : Byte) (h : Memory.wf m = true) : Memory.wf (Memory.set m a v) = true :=
  Sparse.wf_set a v h

/-- Storing bytes keeps a memory canonical. -/
theorem Memory.wf_setBytes {m : List Host.Cell} (a : Nat) (l : List Byte) (h : Memory.wf m = true) :
    Memory.wf (Memory.setBytes m a l) = true := by
  induction l generalizing m a with
  | nil => exact h
  | cons b r ih => exact ih (a + 1) (Memory.wf_set a b h)

/-- Storing the bytes of a number keeps a memory canonical. -/
theorem Memory.wf_write {m : List Host.Cell} (a n v : Nat) (h : Memory.wf m = true) : Memory.wf (Memory.write m a n v) = true :=
  Memory.wf_setBytes a _ h

/-- Storing a word keeps a memory canonical. -/
theorem Memory.wf_setWord {m : List Host.Cell} (a : Nat) (v : W64) (h : Memory.wf m = true) : Memory.wf (Memory.setWord m a v) = true :=
  Memory.wf_write a 8 _ h

/-- Storing words keeps a memory canonical. -/
theorem Memory.wf_setWords {m : List Host.Cell} (a : Nat) (l : List W64) (h : Memory.wf m = true) :
    Memory.wf (Memory.setWords m a l) = true := by
  induction l generalizing m a with
  | nil => exact h
  | cons v r ih => exact ih (a + 8) (Memory.wf_setWord a v h)

/-- Bytes stored from an address up leave every byte outside them alone. -/
theorem Memory.get_setBytes_out (m : List Host.Cell) (a b : Nat) (l : List Byte) (h : b < a ∨ a + l.length ≤ b) :
    Memory.get (Memory.setBytes m a l) b = Memory.get m b := by
  induction l generalizing m a with
  | nil => rfl
  | cons x r ih =>
    simp only [List.length_cons] at h
    rw [Memory.setBytes, ih _ (a + 1) (by omega), Memory.get_set_ne m x (by omega)]

/-- Byte i of the bytes stored from an address up. -/
theorem Memory.get_setBytes_in (m : List Host.Cell) (a i : Nat) (l : List Byte) (h : i < l.length) :
    Memory.get (Memory.setBytes m a l) (a + i) = l.getD i 0 := by
  induction l generalizing m a i with
  | nil => simp at h
  | cons x r ih =>
    cases i with
    | zero => rw [Memory.setBytes, Memory.get_setBytes_out _ _ _ _ (by omega)]; simp
    | succ i =>
      simp only [List.length_cons] at h
      have := ih (Memory.set m a x) (a + 1) i (by omega)
      rw [Memory.setBytes, show a + (i + 1) = a + 1 + i by omega, this]
      simp

theorem leBytes_length (n v : Nat) : (leBytes n v).length = n := by
  induction n generalizing v with
  | zero => rfl
  | succ n ih => simp [leBytes, ih]

@[simp] theorem beBytes_length (n v : Nat) : (beBytes n v).length = n := by simp [beBytes, leBytes_length]

/-- The bytes outside a stored number stay. -/
theorem Memory.get_write_out (m : List Host.Cell) (a n v b : Nat) (h : b < a ∨ a + n ≤ b) :
    Memory.get (Memory.write m a n v) b = Memory.get m b := Memory.get_setBytes_out m a b _ (by simpa using h)

theorem ofLeBytes_leBytes (n v : Nat) : ofLeBytes (leBytes n v) = v % 256 ^ n := by
  induction n generalizing v with
  | zero => simp [leBytes, ofLeBytes, Nat.mod_one]
  | succ n ih =>
    have h : v % 256 ^ (n + 1) = v % 256 + 256 * (v / 256 % 256 ^ n) := by
      rw [pow_succ, Nat.mul_comm (256 ^ n) 256, Nat.mod_mul]
    rw [leBytes, ofLeBytes, ih, BitVec.toNat_ofNat, h]

/-- A number read at the address it was just stored at. -/
theorem Memory.read_write_self (m : List Host.Cell) (a n v : Nat) : Memory.read (Memory.write m a n v) a n = v % 256 ^ n := by
  have h : Memory.bytes (Memory.write m a n v) a n = beBytes n v := by
    apply List.ext_getElem
    · simp [Memory.bytes]
    · intro i h1 h2
      have hi : i < (beBytes n v).length := h2
      simp only [Memory.bytes, List.getElem_map, List.getElem_range]
      rw [Memory.write, Memory.get_setBytes_in _ _ _ _ hi, List.getD_eq_getElem _ _ hi]
  rw [Memory.read, h, beBytes, List.reverse_reverse, ofLeBytes_leBytes]

/-- A byte read after bytes were stored: the byte stored there, or what stood there before. -/
theorem Memory.get_setBytes (m : List Host.Cell) (a : Nat) (l : List Byte) (b : Nat) :
    Memory.get (Memory.setBytes m a l) b = if a ≤ b ∧ b < a + l.length then l.getD (b - a) 0 else Memory.get m b := by
  induction l generalizing m a with
  | nil =>
    have h : ¬ (a ≤ b ∧ b < a + ([] : List Byte).length) := by simp
    rw [if_neg h]
    rfl
  | cons v r ih =>
    rw [Memory.setBytes, ih]
    by_cases h : b = a
    · subst h
      have h1 : ¬ (b + 1 ≤ b ∧ b < b + 1 + r.length) := by omega
      have h2 : b ≤ b ∧ b < b + (v :: r).length := by simp
      rw [if_neg h1, if_pos h2, Memory.get_set_self]
      simp
    · rw [Memory.get_set_ne m v h]
      by_cases h1 : a + 1 ≤ b ∧ b < a + 1 + r.length
      · have h2 : a ≤ b ∧ b < a + (v :: r).length := by simp; omega
        rw [if_pos h1, if_pos h2]
        obtain ⟨k, hk⟩ : ∃ k, b - a = k + 1 := ⟨b - a - 1, by omega⟩
        rw [hk]
        have : b - (a + 1) = k := by omega
        rw [this]
        rfl
      · have h2 : ¬ (a ≤ b ∧ b < a + (v :: r).length) := by simp; omega
        rw [if_neg h1, if_neg h2]

end Sys2Proof.Machine
end

