-- ==== Sys2Proof/Laws/Fields.lean ====
section
/-!
SUPPORT. Sys2Proof/Laws/Fields.lean: bit fields of words and of registers: a field read after it is written, beside one that is written,
and after writes that only touch the event log.
-/
namespace Sys2Proof.Machine

theorem testBit_bits (w : W64) (hi lo i : Nat) : (bits w hi lo).testBit i = (decide (i < hi + 1 - lo) && w.getLsbD (lo + i)) := by
  simp only [bits, Nat.testBit_mod_two_pow, Nat.testBit_shiftRight, BitVec.getLsbD]

theorem getLsbD_mask (hi lo j : Nat) : (mask hi lo).getLsbD j = (decide (j < 64) && decide (lo ≤ j) && decide (j - lo < hi + 1 - lo)) := by
  simp only [mask, BitVec.getLsbD_ofNat, Nat.testBit_shiftLeft, Nat.testBit_two_pow_sub_one, ge_iff_le]
  by_cases h : j < 64 <;> simp [h]

theorem getLsbD_setBits (w : W64) (hi lo v j : Nat) (hj : j < 64) :
    (setBits w hi lo v).getLsbD j = if lo ≤ j ∧ j - lo < hi + 1 - lo then v.testBit (j - lo) else w.getLsbD j := by
  simp only [setBits, BitVec.getLsbD_or, BitVec.getLsbD_and, BitVec.getLsbD_not, getLsbD_mask, BitVec.getLsbD_ofNat,
    Nat.testBit_shiftLeft, ge_iff_le, hj, decide_true, Bool.true_and]
  by_cases h1 : lo ≤ j <;> by_cases h2 : j - lo < hi + 1 - lo <;> simp [h1, h2]

/-- A field read after it is written. -/
theorem bits_setBits (w : W64) {hi lo : Nat} (v : Nat) (h : hi < 64) : bits (setBits w hi lo v) hi lo = v % 2 ^ (hi + 1 - lo) := by
  apply Nat.eq_of_testBit_eq
  intro i
  rw [testBit_bits, Nat.testBit_mod_two_pow]
  by_cases hi' : i < hi + 1 - lo
  · rw [getLsbD_setBits _ _ _ _ _ (by omega)]
    simp [hi']
  · simp [hi']

/-- A field read after another one, above or below it, is written. -/
theorem bits_setBits_ne (w : W64) {hi lo hi' lo' : Nat} (v : Nat) (h : hi' < 64) (hd : hi' < lo ∨ hi < lo') :
    bits (setBits w hi lo v) hi' lo' = bits w hi' lo' := by
  apply Nat.eq_of_testBit_eq
  intro i
  rw [testBit_bits, testBit_bits]
  by_cases hi'' : i < hi' + 1 - lo'
  · rw [getLsbD_setBits _ _ _ _ _ (by omega), if_neg (by omega)]
  · simp [hi'']

/-! ### Registers -/

/-- A register read where it was just written. -/
@[simp] theorem State.reg_setReg_self (s : State) (a : Nat) (v : W64) : (s.setReg a v).reg a = v :=
  Sparse.get_set_self _ s.regs a v

/-- A register read beside the one written. -/
theorem State.reg_setReg_ne (s : State) {a b : Nat} (v : W64) (h : b ≠ a) : (s.setReg a v).reg b = s.reg b :=
  Sparse.get_set_ne _ s.regs v h

/-- The register word of a field that is written. -/
@[simp] theorem State.reg_setF_self (s : State) (f : Fld) (v : Nat) :
    (s.setF f v).reg f.addr = setBits (s.reg f.addr) f.hi f.lo v := State.reg_setReg_self s _ _

/-- A register word beside the field written. -/
theorem State.reg_setF_ne (s : State) (f : Fld) (v : Nat) {a : Nat} (h : a ≠ f.addr) : (s.setF f v).reg a = s.reg a :=
  State.reg_setReg_ne s _ h

/-- A field read after it is written. -/
theorem State.getF_setF_self (s : State) (f : Fld) (v : Nat) (h : f.hi < 64) :
    (s.setF f v).getF f = v % 2 ^ (f.hi + 1 - f.lo) := by
  rw [State.getF, State.reg_setF_self, bits_setBits _ _ h]

/-- A field of another word than the field written. -/
theorem State.getF_setF_addr (s : State) (f g : Fld) (v : Nat) (h : g.addr ≠ f.addr) : (s.setF f v).getF g = s.getF g := by
  rw [State.getF, State.reg_setF_ne s f v h, State.getF]

/-- A field of the same word beside the field written. -/
theorem State.getF_setF_beside (s : State) (f g : Fld) (v : Nat) (ha : g.addr = f.addr) (hg : g.hi < 64)
    (hd : g.hi < f.lo ∨ f.hi < g.lo) : (s.setF f v).getF g = s.getF g := by
  rw [State.getF, ha, State.reg_setF_self, bits_setBits_ne _ _ hg hd, State.getF, ha]

/-- A field of a word that is replaced. -/
theorem State.getF_setReg_self (s : State) (f : Fld) (v : W64) : (s.setReg f.addr v).getF f = bits v f.hi f.lo := by
  rw [State.getF, State.reg_setReg_self]

/-- A field of another word than the one replaced. -/
theorem State.getF_setReg_addr (s : State) (g : Fld) {a : Nat} (v : W64) (h : g.addr ≠ a) : (s.setReg a v).getF g = s.getF g := by
  rw [State.getF, State.reg_setReg_ne s v h, State.getF]

/-- A write of any register keeps the table of registers canonical. -/
theorem State.regs_wf_setReg (s : State) (a : Nat) (v : W64) (h : Sparse.wf Reg.resetValue s.regs = true) :
    Sparse.wf Reg.resetValue (s.setReg a v).regs = true := Sparse.wf_set a v h

/-- A write of any field keeps the table of registers canonical. -/
theorem State.regs_wf_setF (s : State) (f : Fld) (v : Nat) (h : Sparse.wf Reg.resetValue s.regs = true) :
    Sparse.wf Reg.resetValue (s.setF f v).regs = true := State.regs_wf_setReg s _ _ h

end Sys2Proof.Machine
end

