-- ==== Sys2Proof/Laws/State.lean ====
section
/-!
SUPPORT. Sys2Proof/Laws/State.lean: what each named update leaves alone, field by field, and each table read after an entry of it is
replaced.
-/
namespace Sys2Proof.Machine
open Sys2Proof

/-! ### setReg -/

@[simp] theorem State.setReg_pending (s : State) (a : Nat) (v : W64) : (s.setReg a v).pending = s.pending := rfl
@[simp] theorem State.setReg_effOld (s : State) (a : Nat) (v : W64) : (s.setReg a v).effOld = s.effOld := rfl
@[simp] theorem State.setReg_copies (s : State) (a : Nat) (v : W64) : (s.setReg a v).copies = s.copies := rfl
@[simp] theorem State.setReg_clk (s : State) (a : Nat) (v : W64) : (s.setReg a v).clk = s.clk := rfl
@[simp] theorem State.setReg_evt (s : State) (a : Nat) (v : W64) : (s.setReg a v).evt = s.evt := rfl
@[simp] theorem State.setReg_engs (s : State) (a : Nat) (v : W64) : (s.setReg a v).engs = s.engs := rfl
@[simp] theorem State.setReg_arb (s : State) (a : Nat) (v : W64) : (s.setReg a v).arb = s.arb := rfl
@[simp] theorem State.setReg_sram (s : State) (a : Nat) (v : W64) : (s.setReg a v).sram = s.sram := rfl
@[simp] theorem State.setReg_dram (s : State) (a : Nat) (v : W64) : (s.setReg a v).dram = s.dram := rfl
@[simp] theorem State.setReg_poison (s : State) (a : Nat) (v : W64) : (s.setReg a v).poison = s.poison := rfl
@[simp] theorem State.setReg_sramBad (s : State) (a : Nat) (v : W64) : (s.setReg a v).sramBad = s.sramBad := rfl
@[simp] theorem State.setReg_fresh (s : State) (a : Nat) (v : W64) : (s.setReg a v).fresh = s.fresh := rfl
@[simp] theorem State.setReg_mode (s : State) (a : Nat) (v : W64) : (s.setReg a v).mode = s.mode := rfl
@[simp] theorem State.setReg_cfg (s : State) (a : Nat) (v : W64) : (s.setReg a v).cfg = s.cfg := rfl
@[simp] theorem State.setReg_chans (s : State) (a : Nat) (v : W64) : (s.setReg a v).chans = s.chans := rfl
@[simp] theorem State.setReg_banks (s : State) (a : Nat) (v : W64) : (s.setReg a v).banks = s.banks := rfl
@[simp] theorem State.setReg_flts (s : State) (a : Nat) (v : W64) : (s.setReg a v).flts = s.flts := rfl
@[simp] theorem State.setReg_coefs (s : State) (a : Nat) (v : W64) : (s.setReg a v).coefs = s.coefs := rfl
@[simp] theorem State.setReg_fasts (s : State) (a : Nat) (v : W64) : (s.setReg a v).fasts = s.fasts := rfl
@[simp] theorem State.setReg_fabric (s : State) (a : Nat) (v : W64) : (s.setReg a v).fabric = s.fabric := rfl
@[simp] theorem State.setReg_cap (s : State) (a : Nat) (v : W64) : (s.setReg a v).cap = s.cap := rfl
@[simp] theorem State.setReg_tiv (s : State) (a : Nat) (v : W64) : (s.setReg a v).tiv = s.tiv := rfl
@[simp] theorem State.setReg_tbs (s : State) (a : Nat) (v : W64) : (s.setReg a v).tbs = s.tbs := rfl
@[simp] theorem State.setReg_pps (s : State) (a : Nat) (v : W64) : (s.setReg a v).pps = s.pps := rfl
@[simp] theorem State.setReg_sw (s : State) (a : Nat) (v : W64) : (s.setReg a v).sw = s.sw := rfl
@[simp] theorem State.setReg_lanes (s : State) (a : Nat) (v : W64) : (s.setReg a v).lanes = s.lanes := rfl
@[simp] theorem State.setReg_strm (s : State) (a : Nat) (v : W64) : (s.setReg a v).strm = s.strm := rfl
@[simp] theorem State.setReg_strms (s : State) (a : Nat) (v : W64) : (s.setReg a v).strms = s.strms := rfl
@[simp] theorem State.setReg_queues (s : State) (a : Nat) (v : W64) : (s.setReg a v).queues = s.queues := rfl
@[simp] theorem State.setReg_qmem (s : State) (a : Nat) (v : W64) : (s.setReg a v).qmem = s.qmem := rfl
@[simp] theorem State.setReg_led (s : State) (a : Nat) (v : W64) : (s.setReg a v).led = s.led := rfl
@[simp] theorem State.setReg_peerSeq (s : State) (a : Nat) (v : W64) : (s.setReg a v).peerSeq = s.peerSeq := rfl
@[simp] theorem State.setReg_pair (s : State) (a : Nat) (v : W64) : (s.setReg a v).pair = s.pair := rfl
@[simp] theorem State.setReg_hosts (s : State) (a : Nat) (v : W64) : (s.setReg a v).hosts = s.hosts := rfl
@[simp] theorem State.setReg_sp (s : State) (a : Nat) (v : W64) : (s.setReg a v).sp = s.sp := rfl
@[simp] theorem State.setReg_ssps (s : State) (a : Nat) (v : W64) : (s.setReg a v).ssps = s.ssps := rfl
@[simp] theorem State.setReg_cals (s : State) (a : Nat) (v : W64) : (s.setReg a v).cals = s.cals := rfl
@[simp] theorem State.setReg_calh (s : State) (a : Nat) (v : W64) : (s.setReg a v).calh = s.calh := rfl
@[simp] theorem State.setReg_upd (s : State) (a : Nat) (v : W64) : (s.setReg a v).upd = s.upd := rfl
@[simp] theorem State.setReg_ladder (s : State) (a : Nat) (v : W64) : (s.setReg a v).ladder = s.ladder := rfl

/-! ### setF -/

@[simp] theorem State.setF_pending (s : State) (f : Fld) (v : Nat) : (s.setF f v).pending = s.pending := rfl
@[simp] theorem State.setF_effOld (s : State) (f : Fld) (v : Nat) : (s.setF f v).effOld = s.effOld := rfl
@[simp] theorem State.setF_copies (s : State) (f : Fld) (v : Nat) : (s.setF f v).copies = s.copies := rfl
@[simp] theorem State.setF_clk (s : State) (f : Fld) (v : Nat) : (s.setF f v).clk = s.clk := rfl
@[simp] theorem State.setF_evt (s : State) (f : Fld) (v : Nat) : (s.setF f v).evt = s.evt := rfl
@[simp] theorem State.setF_engs (s : State) (f : Fld) (v : Nat) : (s.setF f v).engs = s.engs := rfl
@[simp] theorem State.setF_arb (s : State) (f : Fld) (v : Nat) : (s.setF f v).arb = s.arb := rfl
@[simp] theorem State.setF_sram (s : State) (f : Fld) (v : Nat) : (s.setF f v).sram = s.sram := rfl
@[simp] theorem State.setF_dram (s : State) (f : Fld) (v : Nat) : (s.setF f v).dram = s.dram := rfl
@[simp] theorem State.setF_poison (s : State) (f : Fld) (v : Nat) : (s.setF f v).poison = s.poison := rfl
@[simp] theorem State.setF_sramBad (s : State) (f : Fld) (v : Nat) : (s.setF f v).sramBad = s.sramBad := rfl
@[simp] theorem State.setF_fresh (s : State) (f : Fld) (v : Nat) : (s.setF f v).fresh = s.fresh := rfl
@[simp] theorem State.setF_mode (s : State) (f : Fld) (v : Nat) : (s.setF f v).mode = s.mode := rfl
@[simp] theorem State.setF_cfg (s : State) (f : Fld) (v : Nat) : (s.setF f v).cfg = s.cfg := rfl
@[simp] theorem State.setF_chans (s : State) (f : Fld) (v : Nat) : (s.setF f v).chans = s.chans := rfl
@[simp] theorem State.setF_banks (s : State) (f : Fld) (v : Nat) : (s.setF f v).banks = s.banks := rfl
@[simp] theorem State.setF_flts (s : State) (f : Fld) (v : Nat) : (s.setF f v).flts = s.flts := rfl
@[simp] theorem State.setF_coefs (s : State) (f : Fld) (v : Nat) : (s.setF f v).coefs = s.coefs := rfl
@[simp] theorem State.setF_fasts (s : State) (f : Fld) (v : Nat) : (s.setF f v).fasts = s.fasts := rfl
@[simp] theorem State.setF_fabric (s : State) (f : Fld) (v : Nat) : (s.setF f v).fabric = s.fabric := rfl
@[simp] theorem State.setF_cap (s : State) (f : Fld) (v : Nat) : (s.setF f v).cap = s.cap := rfl
@[simp] theorem State.setF_tiv (s : State) (f : Fld) (v : Nat) : (s.setF f v).tiv = s.tiv := rfl
@[simp] theorem State.setF_tbs (s : State) (f : Fld) (v : Nat) : (s.setF f v).tbs = s.tbs := rfl
@[simp] theorem State.setF_pps (s : State) (f : Fld) (v : Nat) : (s.setF f v).pps = s.pps := rfl
@[simp] theorem State.setF_sw (s : State) (f : Fld) (v : Nat) : (s.setF f v).sw = s.sw := rfl
@[simp] theorem State.setF_lanes (s : State) (f : Fld) (v : Nat) : (s.setF f v).lanes = s.lanes := rfl
@[simp] theorem State.setF_strm (s : State) (f : Fld) (v : Nat) : (s.setF f v).strm = s.strm := rfl
@[simp] theorem State.setF_strms (s : State) (f : Fld) (v : Nat) : (s.setF f v).strms = s.strms := rfl
@[simp] theorem State.setF_queues (s : State) (f : Fld) (v : Nat) : (s.setF f v).queues = s.queues := rfl
@[simp] theorem State.setF_qmem (s : State) (f : Fld) (v : Nat) : (s.setF f v).qmem = s.qmem := rfl
@[simp] theorem State.setF_led (s : State) (f : Fld) (v : Nat) : (s.setF f v).led = s.led := rfl
@[simp] theorem State.setF_peerSeq (s : State) (f : Fld) (v : Nat) : (s.setF f v).peerSeq = s.peerSeq := rfl
@[simp] theorem State.setF_pair (s : State) (f : Fld) (v : Nat) : (s.setF f v).pair = s.pair := rfl
@[simp] theorem State.setF_hosts (s : State) (f : Fld) (v : Nat) : (s.setF f v).hosts = s.hosts := rfl
@[simp] theorem State.setF_sp (s : State) (f : Fld) (v : Nat) : (s.setF f v).sp = s.sp := rfl
@[simp] theorem State.setF_ssps (s : State) (f : Fld) (v : Nat) : (s.setF f v).ssps = s.ssps := rfl
@[simp] theorem State.setF_cals (s : State) (f : Fld) (v : Nat) : (s.setF f v).cals = s.cals := rfl
@[simp] theorem State.setF_calh (s : State) (f : Fld) (v : Nat) : (s.setF f v).calh = s.calh := rfl
@[simp] theorem State.setF_upd (s : State) (f : Fld) (v : Nat) : (s.setF f v).upd = s.upd := rfl
@[simp] theorem State.setF_ladder (s : State) (f : Fld) (v : Nat) : (s.setF f v).ladder = s.ladder := rfl

/-! ### setS -/

@[simp] theorem State.setS_pending (s : State) (f : Fld) (i : Int) : (s.setS f i).pending = s.pending := rfl
@[simp] theorem State.setS_effOld (s : State) (f : Fld) (i : Int) : (s.setS f i).effOld = s.effOld := rfl
@[simp] theorem State.setS_copies (s : State) (f : Fld) (i : Int) : (s.setS f i).copies = s.copies := rfl
@[simp] theorem State.setS_clk (s : State) (f : Fld) (i : Int) : (s.setS f i).clk = s.clk := rfl
@[simp] theorem State.setS_evt (s : State) (f : Fld) (i : Int) : (s.setS f i).evt = s.evt := rfl
@[simp] theorem State.setS_engs (s : State) (f : Fld) (i : Int) : (s.setS f i).engs = s.engs := rfl
@[simp] theorem State.setS_arb (s : State) (f : Fld) (i : Int) : (s.setS f i).arb = s.arb := rfl
@[simp] theorem State.setS_sram (s : State) (f : Fld) (i : Int) : (s.setS f i).sram = s.sram := rfl
@[simp] theorem State.setS_dram (s : State) (f : Fld) (i : Int) : (s.setS f i).dram = s.dram := rfl
@[simp] theorem State.setS_poison (s : State) (f : Fld) (i : Int) : (s.setS f i).poison = s.poison := rfl
@[simp] theorem State.setS_sramBad (s : State) (f : Fld) (i : Int) : (s.setS f i).sramBad = s.sramBad := rfl
@[simp] theorem State.setS_fresh (s : State) (f : Fld) (i : Int) : (s.setS f i).fresh = s.fresh := rfl
@[simp] theorem State.setS_mode (s : State) (f : Fld) (i : Int) : (s.setS f i).mode = s.mode := rfl
@[simp] theorem State.setS_cfg (s : State) (f : Fld) (i : Int) : (s.setS f i).cfg = s.cfg := rfl
@[simp] theorem State.setS_chans (s : State) (f : Fld) (i : Int) : (s.setS f i).chans = s.chans := rfl
@[simp] theorem State.setS_banks (s : State) (f : Fld) (i : Int) : (s.setS f i).banks = s.banks := rfl
@[simp] theorem State.setS_flts (s : State) (f : Fld) (i : Int) : (s.setS f i).flts = s.flts := rfl
@[simp] theorem State.setS_coefs (s : State) (f : Fld) (i : Int) : (s.setS f i).coefs = s.coefs := rfl
@[simp] theorem State.setS_fasts (s : State) (f : Fld) (i : Int) : (s.setS f i).fasts = s.fasts := rfl
@[simp] theorem State.setS_fabric (s : State) (f : Fld) (i : Int) : (s.setS f i).fabric = s.fabric := rfl
@[simp] theorem State.setS_cap (s : State) (f : Fld) (i : Int) : (s.setS f i).cap = s.cap := rfl
@[simp] theorem State.setS_tiv (s : State) (f : Fld) (i : Int) : (s.setS f i).tiv = s.tiv := rfl
@[simp] theorem State.setS_tbs (s : State) (f : Fld) (i : Int) : (s.setS f i).tbs = s.tbs := rfl
@[simp] theorem State.setS_pps (s : State) (f : Fld) (i : Int) : (s.setS f i).pps = s.pps := rfl
@[simp] theorem State.setS_sw (s : State) (f : Fld) (i : Int) : (s.setS f i).sw = s.sw := rfl
@[simp] theorem State.setS_lanes (s : State) (f : Fld) (i : Int) : (s.setS f i).lanes = s.lanes := rfl
@[simp] theorem State.setS_strm (s : State) (f : Fld) (i : Int) : (s.setS f i).strm = s.strm := rfl
@[simp] theorem State.setS_strms (s : State) (f : Fld) (i : Int) : (s.setS f i).strms = s.strms := rfl
@[simp] theorem State.setS_queues (s : State) (f : Fld) (i : Int) : (s.setS f i).queues = s.queues := rfl
@[simp] theorem State.setS_qmem (s : State) (f : Fld) (i : Int) : (s.setS f i).qmem = s.qmem := rfl
@[simp] theorem State.setS_led (s : State) (f : Fld) (i : Int) : (s.setS f i).led = s.led := rfl
@[simp] theorem State.setS_peerSeq (s : State) (f : Fld) (i : Int) : (s.setS f i).peerSeq = s.peerSeq := rfl
@[simp] theorem State.setS_pair (s : State) (f : Fld) (i : Int) : (s.setS f i).pair = s.pair := rfl
@[simp] theorem State.setS_hosts (s : State) (f : Fld) (i : Int) : (s.setS f i).hosts = s.hosts := rfl
@[simp] theorem State.setS_sp (s : State) (f : Fld) (i : Int) : (s.setS f i).sp = s.sp := rfl
@[simp] theorem State.setS_ssps (s : State) (f : Fld) (i : Int) : (s.setS f i).ssps = s.ssps := rfl
@[simp] theorem State.setS_cals (s : State) (f : Fld) (i : Int) : (s.setS f i).cals = s.cals := rfl
@[simp] theorem State.setS_calh (s : State) (f : Fld) (i : Int) : (s.setS f i).calh = s.calh := rfl
@[simp] theorem State.setS_upd (s : State) (f : Fld) (i : Int) : (s.setS f i).upd = s.upd := rfl
@[simp] theorem State.setS_ladder (s : State) (f : Fld) (i : Int) : (s.setS f i).ladder = s.ladder := rfl

/-! ### addF -/

@[simp] theorem State.addF_pending (s : State) (f : Fld) (n : Nat) : (s.addF f n).pending = s.pending := rfl
@[simp] theorem State.addF_effOld (s : State) (f : Fld) (n : Nat) : (s.addF f n).effOld = s.effOld := rfl
@[simp] theorem State.addF_copies (s : State) (f : Fld) (n : Nat) : (s.addF f n).copies = s.copies := rfl
@[simp] theorem State.addF_clk (s : State) (f : Fld) (n : Nat) : (s.addF f n).clk = s.clk := rfl
@[simp] theorem State.addF_evt (s : State) (f : Fld) (n : Nat) : (s.addF f n).evt = s.evt := rfl
@[simp] theorem State.addF_engs (s : State) (f : Fld) (n : Nat) : (s.addF f n).engs = s.engs := rfl
@[simp] theorem State.addF_arb (s : State) (f : Fld) (n : Nat) : (s.addF f n).arb = s.arb := rfl
@[simp] theorem State.addF_sram (s : State) (f : Fld) (n : Nat) : (s.addF f n).sram = s.sram := rfl
@[simp] theorem State.addF_dram (s : State) (f : Fld) (n : Nat) : (s.addF f n).dram = s.dram := rfl
@[simp] theorem State.addF_poison (s : State) (f : Fld) (n : Nat) : (s.addF f n).poison = s.poison := rfl
@[simp] theorem State.addF_sramBad (s : State) (f : Fld) (n : Nat) : (s.addF f n).sramBad = s.sramBad := rfl
@[simp] theorem State.addF_fresh (s : State) (f : Fld) (n : Nat) : (s.addF f n).fresh = s.fresh := rfl
@[simp] theorem State.addF_mode (s : State) (f : Fld) (n : Nat) : (s.addF f n).mode = s.mode := rfl
@[simp] theorem State.addF_cfg (s : State) (f : Fld) (n : Nat) : (s.addF f n).cfg = s.cfg := rfl
@[simp] theorem State.addF_chans (s : State) (f : Fld) (n : Nat) : (s.addF f n).chans = s.chans := rfl
@[simp] theorem State.addF_banks (s : State) (f : Fld) (n : Nat) : (s.addF f n).banks = s.banks := rfl
@[simp] theorem State.addF_flts (s : State) (f : Fld) (n : Nat) : (s.addF f n).flts = s.flts := rfl
@[simp] theorem State.addF_coefs (s : State) (f : Fld) (n : Nat) : (s.addF f n).coefs = s.coefs := rfl
@[simp] theorem State.addF_fasts (s : State) (f : Fld) (n : Nat) : (s.addF f n).fasts = s.fasts := rfl
@[simp] theorem State.addF_fabric (s : State) (f : Fld) (n : Nat) : (s.addF f n).fabric = s.fabric := rfl
@[simp] theorem State.addF_cap (s : State) (f : Fld) (n : Nat) : (s.addF f n).cap = s.cap := rfl
@[simp] theorem State.addF_tiv (s : State) (f : Fld) (n : Nat) : (s.addF f n).tiv = s.tiv := rfl
@[simp] theorem State.addF_tbs (s : State) (f : Fld) (n : Nat) : (s.addF f n).tbs = s.tbs := rfl
@[simp] theorem State.addF_pps (s : State) (f : Fld) (n : Nat) : (s.addF f n).pps = s.pps := rfl
@[simp] theorem State.addF_sw (s : State) (f : Fld) (n : Nat) : (s.addF f n).sw = s.sw := rfl
@[simp] theorem State.addF_lanes (s : State) (f : Fld) (n : Nat) : (s.addF f n).lanes = s.lanes := rfl
@[simp] theorem State.addF_strm (s : State) (f : Fld) (n : Nat) : (s.addF f n).strm = s.strm := rfl
@[simp] theorem State.addF_strms (s : State) (f : Fld) (n : Nat) : (s.addF f n).strms = s.strms := rfl
@[simp] theorem State.addF_queues (s : State) (f : Fld) (n : Nat) : (s.addF f n).queues = s.queues := rfl
@[simp] theorem State.addF_qmem (s : State) (f : Fld) (n : Nat) : (s.addF f n).qmem = s.qmem := rfl
@[simp] theorem State.addF_led (s : State) (f : Fld) (n : Nat) : (s.addF f n).led = s.led := rfl
@[simp] theorem State.addF_peerSeq (s : State) (f : Fld) (n : Nat) : (s.addF f n).peerSeq = s.peerSeq := rfl
@[simp] theorem State.addF_pair (s : State) (f : Fld) (n : Nat) : (s.addF f n).pair = s.pair := rfl
@[simp] theorem State.addF_hosts (s : State) (f : Fld) (n : Nat) : (s.addF f n).hosts = s.hosts := rfl
@[simp] theorem State.addF_sp (s : State) (f : Fld) (n : Nat) : (s.addF f n).sp = s.sp := rfl
@[simp] theorem State.addF_ssps (s : State) (f : Fld) (n : Nat) : (s.addF f n).ssps = s.ssps := rfl
@[simp] theorem State.addF_cals (s : State) (f : Fld) (n : Nat) : (s.addF f n).cals = s.cals := rfl
@[simp] theorem State.addF_calh (s : State) (f : Fld) (n : Nat) : (s.addF f n).calh = s.calh := rfl
@[simp] theorem State.addF_upd (s : State) (f : Fld) (n : Nat) : (s.addF f n).upd = s.upd := rfl
@[simp] theorem State.addF_ladder (s : State) (f : Fld) (n : Nat) : (s.addF f n).ladder = s.ladder := rfl

/-! ### bump -/

@[simp] theorem State.bump_pending (s : State) (f : Fld) : (s.bump f).pending = s.pending := rfl
@[simp] theorem State.bump_effOld (s : State) (f : Fld) : (s.bump f).effOld = s.effOld := rfl
@[simp] theorem State.bump_copies (s : State) (f : Fld) : (s.bump f).copies = s.copies := rfl
@[simp] theorem State.bump_clk (s : State) (f : Fld) : (s.bump f).clk = s.clk := rfl
@[simp] theorem State.bump_evt (s : State) (f : Fld) : (s.bump f).evt = s.evt := rfl
@[simp] theorem State.bump_engs (s : State) (f : Fld) : (s.bump f).engs = s.engs := rfl
@[simp] theorem State.bump_arb (s : State) (f : Fld) : (s.bump f).arb = s.arb := rfl
@[simp] theorem State.bump_sram (s : State) (f : Fld) : (s.bump f).sram = s.sram := rfl
@[simp] theorem State.bump_dram (s : State) (f : Fld) : (s.bump f).dram = s.dram := rfl
@[simp] theorem State.bump_poison (s : State) (f : Fld) : (s.bump f).poison = s.poison := rfl
@[simp] theorem State.bump_sramBad (s : State) (f : Fld) : (s.bump f).sramBad = s.sramBad := rfl
@[simp] theorem State.bump_fresh (s : State) (f : Fld) : (s.bump f).fresh = s.fresh := rfl
@[simp] theorem State.bump_mode (s : State) (f : Fld) : (s.bump f).mode = s.mode := rfl
@[simp] theorem State.bump_cfg (s : State) (f : Fld) : (s.bump f).cfg = s.cfg := rfl
@[simp] theorem State.bump_chans (s : State) (f : Fld) : (s.bump f).chans = s.chans := rfl
@[simp] theorem State.bump_banks (s : State) (f : Fld) : (s.bump f).banks = s.banks := rfl
@[simp] theorem State.bump_flts (s : State) (f : Fld) : (s.bump f).flts = s.flts := rfl
@[simp] theorem State.bump_coefs (s : State) (f : Fld) : (s.bump f).coefs = s.coefs := rfl
@[simp] theorem State.bump_fasts (s : State) (f : Fld) : (s.bump f).fasts = s.fasts := rfl
@[simp] theorem State.bump_fabric (s : State) (f : Fld) : (s.bump f).fabric = s.fabric := rfl
@[simp] theorem State.bump_cap (s : State) (f : Fld) : (s.bump f).cap = s.cap := rfl
@[simp] theorem State.bump_tiv (s : State) (f : Fld) : (s.bump f).tiv = s.tiv := rfl
@[simp] theorem State.bump_tbs (s : State) (f : Fld) : (s.bump f).tbs = s.tbs := rfl
@[simp] theorem State.bump_pps (s : State) (f : Fld) : (s.bump f).pps = s.pps := rfl
@[simp] theorem State.bump_sw (s : State) (f : Fld) : (s.bump f).sw = s.sw := rfl
@[simp] theorem State.bump_lanes (s : State) (f : Fld) : (s.bump f).lanes = s.lanes := rfl
@[simp] theorem State.bump_strm (s : State) (f : Fld) : (s.bump f).strm = s.strm := rfl
@[simp] theorem State.bump_strms (s : State) (f : Fld) : (s.bump f).strms = s.strms := rfl
@[simp] theorem State.bump_queues (s : State) (f : Fld) : (s.bump f).queues = s.queues := rfl
@[simp] theorem State.bump_qmem (s : State) (f : Fld) : (s.bump f).qmem = s.qmem := rfl
@[simp] theorem State.bump_led (s : State) (f : Fld) : (s.bump f).led = s.led := rfl
@[simp] theorem State.bump_peerSeq (s : State) (f : Fld) : (s.bump f).peerSeq = s.peerSeq := rfl
@[simp] theorem State.bump_pair (s : State) (f : Fld) : (s.bump f).pair = s.pair := rfl
@[simp] theorem State.bump_hosts (s : State) (f : Fld) : (s.bump f).hosts = s.hosts := rfl
@[simp] theorem State.bump_sp (s : State) (f : Fld) : (s.bump f).sp = s.sp := rfl
@[simp] theorem State.bump_ssps (s : State) (f : Fld) : (s.bump f).ssps = s.ssps := rfl
@[simp] theorem State.bump_cals (s : State) (f : Fld) : (s.bump f).cals = s.cals := rfl
@[simp] theorem State.bump_calh (s : State) (f : Fld) : (s.bump f).calh = s.calh := rfl
@[simp] theorem State.bump_upd (s : State) (f : Fld) : (s.bump f).upd = s.upd := rfl
@[simp] theorem State.bump_ladder (s : State) (f : Fld) : (s.bump f).ladder = s.ladder := rfl

/-! ### setFlag -/

@[simp] theorem State.setFlag_pending (s : State) (f : Fld) : (s.setFlag f).pending = s.pending := rfl
@[simp] theorem State.setFlag_effOld (s : State) (f : Fld) : (s.setFlag f).effOld = s.effOld := rfl
@[simp] theorem State.setFlag_copies (s : State) (f : Fld) : (s.setFlag f).copies = s.copies := rfl
@[simp] theorem State.setFlag_clk (s : State) (f : Fld) : (s.setFlag f).clk = s.clk := rfl
@[simp] theorem State.setFlag_evt (s : State) (f : Fld) : (s.setFlag f).evt = s.evt := rfl
@[simp] theorem State.setFlag_engs (s : State) (f : Fld) : (s.setFlag f).engs = s.engs := rfl
@[simp] theorem State.setFlag_arb (s : State) (f : Fld) : (s.setFlag f).arb = s.arb := rfl
@[simp] theorem State.setFlag_sram (s : State) (f : Fld) : (s.setFlag f).sram = s.sram := rfl
@[simp] theorem State.setFlag_dram (s : State) (f : Fld) : (s.setFlag f).dram = s.dram := rfl
@[simp] theorem State.setFlag_poison (s : State) (f : Fld) : (s.setFlag f).poison = s.poison := rfl
@[simp] theorem State.setFlag_sramBad (s : State) (f : Fld) : (s.setFlag f).sramBad = s.sramBad := rfl
@[simp] theorem State.setFlag_fresh (s : State) (f : Fld) : (s.setFlag f).fresh = s.fresh := rfl
@[simp] theorem State.setFlag_mode (s : State) (f : Fld) : (s.setFlag f).mode = s.mode := rfl
@[simp] theorem State.setFlag_cfg (s : State) (f : Fld) : (s.setFlag f).cfg = s.cfg := rfl
@[simp] theorem State.setFlag_chans (s : State) (f : Fld) : (s.setFlag f).chans = s.chans := rfl
@[simp] theorem State.setFlag_banks (s : State) (f : Fld) : (s.setFlag f).banks = s.banks := rfl
@[simp] theorem State.setFlag_flts (s : State) (f : Fld) : (s.setFlag f).flts = s.flts := rfl
@[simp] theorem State.setFlag_coefs (s : State) (f : Fld) : (s.setFlag f).coefs = s.coefs := rfl
@[simp] theorem State.setFlag_fasts (s : State) (f : Fld) : (s.setFlag f).fasts = s.fasts := rfl
@[simp] theorem State.setFlag_fabric (s : State) (f : Fld) : (s.setFlag f).fabric = s.fabric := rfl
@[simp] theorem State.setFlag_cap (s : State) (f : Fld) : (s.setFlag f).cap = s.cap := rfl
@[simp] theorem State.setFlag_tiv (s : State) (f : Fld) : (s.setFlag f).tiv = s.tiv := rfl
@[simp] theorem State.setFlag_tbs (s : State) (f : Fld) : (s.setFlag f).tbs = s.tbs := rfl
@[simp] theorem State.setFlag_pps (s : State) (f : Fld) : (s.setFlag f).pps = s.pps := rfl
@[simp] theorem State.setFlag_sw (s : State) (f : Fld) : (s.setFlag f).sw = s.sw := rfl
@[simp] theorem State.setFlag_lanes (s : State) (f : Fld) : (s.setFlag f).lanes = s.lanes := rfl
@[simp] theorem State.setFlag_strm (s : State) (f : Fld) : (s.setFlag f).strm = s.strm := rfl
@[simp] theorem State.setFlag_strms (s : State) (f : Fld) : (s.setFlag f).strms = s.strms := rfl
@[simp] theorem State.setFlag_queues (s : State) (f : Fld) : (s.setFlag f).queues = s.queues := rfl
@[simp] theorem State.setFlag_qmem (s : State) (f : Fld) : (s.setFlag f).qmem = s.qmem := rfl
@[simp] theorem State.setFlag_led (s : State) (f : Fld) : (s.setFlag f).led = s.led := rfl
@[simp] theorem State.setFlag_peerSeq (s : State) (f : Fld) : (s.setFlag f).peerSeq = s.peerSeq := rfl
@[simp] theorem State.setFlag_pair (s : State) (f : Fld) : (s.setFlag f).pair = s.pair := rfl
@[simp] theorem State.setFlag_hosts (s : State) (f : Fld) : (s.setFlag f).hosts = s.hosts := rfl
@[simp] theorem State.setFlag_sp (s : State) (f : Fld) : (s.setFlag f).sp = s.sp := rfl
@[simp] theorem State.setFlag_ssps (s : State) (f : Fld) : (s.setFlag f).ssps = s.ssps := rfl
@[simp] theorem State.setFlag_cals (s : State) (f : Fld) : (s.setFlag f).cals = s.cals := rfl
@[simp] theorem State.setFlag_calh (s : State) (f : Fld) : (s.setFlag f).calh = s.calh := rfl
@[simp] theorem State.setFlag_upd (s : State) (f : Fld) : (s.setFlag f).upd = s.upd := rfl
@[simp] theorem State.setFlag_ladder (s : State) (f : Fld) : (s.setFlag f).ladder = s.ladder := rfl

/-! ### clrFlag -/

@[simp] theorem State.clrFlag_pending (s : State) (f : Fld) : (s.clrFlag f).pending = s.pending := rfl
@[simp] theorem State.clrFlag_effOld (s : State) (f : Fld) : (s.clrFlag f).effOld = s.effOld := rfl
@[simp] theorem State.clrFlag_copies (s : State) (f : Fld) : (s.clrFlag f).copies = s.copies := rfl
@[simp] theorem State.clrFlag_clk (s : State) (f : Fld) : (s.clrFlag f).clk = s.clk := rfl
@[simp] theorem State.clrFlag_evt (s : State) (f : Fld) : (s.clrFlag f).evt = s.evt := rfl
@[simp] theorem State.clrFlag_engs (s : State) (f : Fld) : (s.clrFlag f).engs = s.engs := rfl
@[simp] theorem State.clrFlag_arb (s : State) (f : Fld) : (s.clrFlag f).arb = s.arb := rfl
@[simp] theorem State.clrFlag_sram (s : State) (f : Fld) : (s.clrFlag f).sram = s.sram := rfl
@[simp] theorem State.clrFlag_dram (s : State) (f : Fld) : (s.clrFlag f).dram = s.dram := rfl
@[simp] theorem State.clrFlag_poison (s : State) (f : Fld) : (s.clrFlag f).poison = s.poison := rfl
@[simp] theorem State.clrFlag_sramBad (s : State) (f : Fld) : (s.clrFlag f).sramBad = s.sramBad := rfl
@[simp] theorem State.clrFlag_fresh (s : State) (f : Fld) : (s.clrFlag f).fresh = s.fresh := rfl
@[simp] theorem State.clrFlag_mode (s : State) (f : Fld) : (s.clrFlag f).mode = s.mode := rfl
@[simp] theorem State.clrFlag_cfg (s : State) (f : Fld) : (s.clrFlag f).cfg = s.cfg := rfl
@[simp] theorem State.clrFlag_chans (s : State) (f : Fld) : (s.clrFlag f).chans = s.chans := rfl
@[simp] theorem State.clrFlag_banks (s : State) (f : Fld) : (s.clrFlag f).banks = s.banks := rfl
@[simp] theorem State.clrFlag_flts (s : State) (f : Fld) : (s.clrFlag f).flts = s.flts := rfl
@[simp] theorem State.clrFlag_coefs (s : State) (f : Fld) : (s.clrFlag f).coefs = s.coefs := rfl
@[simp] theorem State.clrFlag_fasts (s : State) (f : Fld) : (s.clrFlag f).fasts = s.fasts := rfl
@[simp] theorem State.clrFlag_fabric (s : State) (f : Fld) : (s.clrFlag f).fabric = s.fabric := rfl
@[simp] theorem State.clrFlag_cap (s : State) (f : Fld) : (s.clrFlag f).cap = s.cap := rfl
@[simp] theorem State.clrFlag_tiv (s : State) (f : Fld) : (s.clrFlag f).tiv = s.tiv := rfl
@[simp] theorem State.clrFlag_tbs (s : State) (f : Fld) : (s.clrFlag f).tbs = s.tbs := rfl
@[simp] theorem State.clrFlag_pps (s : State) (f : Fld) : (s.clrFlag f).pps = s.pps := rfl
@[simp] theorem State.clrFlag_sw (s : State) (f : Fld) : (s.clrFlag f).sw = s.sw := rfl
@[simp] theorem State.clrFlag_lanes (s : State) (f : Fld) : (s.clrFlag f).lanes = s.lanes := rfl
@[simp] theorem State.clrFlag_strm (s : State) (f : Fld) : (s.clrFlag f).strm = s.strm := rfl
@[simp] theorem State.clrFlag_strms (s : State) (f : Fld) : (s.clrFlag f).strms = s.strms := rfl
@[simp] theorem State.clrFlag_queues (s : State) (f : Fld) : (s.clrFlag f).queues = s.queues := rfl
@[simp] theorem State.clrFlag_qmem (s : State) (f : Fld) : (s.clrFlag f).qmem = s.qmem := rfl
@[simp] theorem State.clrFlag_led (s : State) (f : Fld) : (s.clrFlag f).led = s.led := rfl
@[simp] theorem State.clrFlag_peerSeq (s : State) (f : Fld) : (s.clrFlag f).peerSeq = s.peerSeq := rfl
@[simp] theorem State.clrFlag_pair (s : State) (f : Fld) : (s.clrFlag f).pair = s.pair := rfl
@[simp] theorem State.clrFlag_hosts (s : State) (f : Fld) : (s.clrFlag f).hosts = s.hosts := rfl
@[simp] theorem State.clrFlag_sp (s : State) (f : Fld) : (s.clrFlag f).sp = s.sp := rfl
@[simp] theorem State.clrFlag_ssps (s : State) (f : Fld) : (s.clrFlag f).ssps = s.ssps := rfl
@[simp] theorem State.clrFlag_cals (s : State) (f : Fld) : (s.clrFlag f).cals = s.cals := rfl
@[simp] theorem State.clrFlag_calh (s : State) (f : Fld) : (s.clrFlag f).calh = s.calh := rfl
@[simp] theorem State.clrFlag_upd (s : State) (f : Fld) : (s.clrFlag f).upd = s.upd := rfl
@[simp] theorem State.clrFlag_ladder (s : State) (f : Fld) : (s.clrFlag f).ladder = s.ladder := rfl

/-! ### setRws -/

@[simp] theorem State.setRws_pending (s : State) (a : Nat) (v : W64) : (s.setRws a v).pending = s.pending := rfl
@[simp] theorem State.setRws_copies (s : State) (a : Nat) (v : W64) : (s.setRws a v).copies = s.copies := rfl
@[simp] theorem State.setRws_clk (s : State) (a : Nat) (v : W64) : (s.setRws a v).clk = s.clk := rfl
@[simp] theorem State.setRws_evt (s : State) (a : Nat) (v : W64) : (s.setRws a v).evt = s.evt := rfl
@[simp] theorem State.setRws_engs (s : State) (a : Nat) (v : W64) : (s.setRws a v).engs = s.engs := rfl
@[simp] theorem State.setRws_arb (s : State) (a : Nat) (v : W64) : (s.setRws a v).arb = s.arb := rfl
@[simp] theorem State.setRws_sram (s : State) (a : Nat) (v : W64) : (s.setRws a v).sram = s.sram := rfl
@[simp] theorem State.setRws_dram (s : State) (a : Nat) (v : W64) : (s.setRws a v).dram = s.dram := rfl
@[simp] theorem State.setRws_poison (s : State) (a : Nat) (v : W64) : (s.setRws a v).poison = s.poison := rfl
@[simp] theorem State.setRws_sramBad (s : State) (a : Nat) (v : W64) : (s.setRws a v).sramBad = s.sramBad := rfl
@[simp] theorem State.setRws_fresh (s : State) (a : Nat) (v : W64) : (s.setRws a v).fresh = s.fresh := rfl
@[simp] theorem State.setRws_mode (s : State) (a : Nat) (v : W64) : (s.setRws a v).mode = s.mode := rfl
@[simp] theorem State.setRws_cfg (s : State) (a : Nat) (v : W64) : (s.setRws a v).cfg = s.cfg := rfl
@[simp] theorem State.setRws_chans (s : State) (a : Nat) (v : W64) : (s.setRws a v).chans = s.chans := rfl
@[simp] theorem State.setRws_banks (s : State) (a : Nat) (v : W64) : (s.setRws a v).banks = s.banks := rfl
@[simp] theorem State.setRws_flts (s : State) (a : Nat) (v : W64) : (s.setRws a v).flts = s.flts := rfl
@[simp] theorem State.setRws_coefs (s : State) (a : Nat) (v : W64) : (s.setRws a v).coefs = s.coefs := rfl
@[simp] theorem State.setRws_fasts (s : State) (a : Nat) (v : W64) : (s.setRws a v).fasts = s.fasts := rfl
@[simp] theorem State.setRws_fabric (s : State) (a : Nat) (v : W64) : (s.setRws a v).fabric = s.fabric := rfl
@[simp] theorem State.setRws_cap (s : State) (a : Nat) (v : W64) : (s.setRws a v).cap = s.cap := rfl
@[simp] theorem State.setRws_tiv (s : State) (a : Nat) (v : W64) : (s.setRws a v).tiv = s.tiv := rfl
@[simp] theorem State.setRws_tbs (s : State) (a : Nat) (v : W64) : (s.setRws a v).tbs = s.tbs := rfl
@[simp] theorem State.setRws_pps (s : State) (a : Nat) (v : W64) : (s.setRws a v).pps = s.pps := rfl
@[simp] theorem State.setRws_sw (s : State) (a : Nat) (v : W64) : (s.setRws a v).sw = s.sw := rfl
@[simp] theorem State.setRws_lanes (s : State) (a : Nat) (v : W64) : (s.setRws a v).lanes = s.lanes := rfl
@[simp] theorem State.setRws_strm (s : State) (a : Nat) (v : W64) : (s.setRws a v).strm = s.strm := rfl
@[simp] theorem State.setRws_strms (s : State) (a : Nat) (v : W64) : (s.setRws a v).strms = s.strms := rfl
@[simp] theorem State.setRws_queues (s : State) (a : Nat) (v : W64) : (s.setRws a v).queues = s.queues := rfl
@[simp] theorem State.setRws_qmem (s : State) (a : Nat) (v : W64) : (s.setRws a v).qmem = s.qmem := rfl
@[simp] theorem State.setRws_led (s : State) (a : Nat) (v : W64) : (s.setRws a v).led = s.led := rfl
@[simp] theorem State.setRws_peerSeq (s : State) (a : Nat) (v : W64) : (s.setRws a v).peerSeq = s.peerSeq := rfl
@[simp] theorem State.setRws_pair (s : State) (a : Nat) (v : W64) : (s.setRws a v).pair = s.pair := rfl
@[simp] theorem State.setRws_hosts (s : State) (a : Nat) (v : W64) : (s.setRws a v).hosts = s.hosts := rfl
@[simp] theorem State.setRws_sp (s : State) (a : Nat) (v : W64) : (s.setRws a v).sp = s.sp := rfl
@[simp] theorem State.setRws_ssps (s : State) (a : Nat) (v : W64) : (s.setRws a v).ssps = s.ssps := rfl
@[simp] theorem State.setRws_cals (s : State) (a : Nat) (v : W64) : (s.setRws a v).cals = s.cals := rfl
@[simp] theorem State.setRws_calh (s : State) (a : Nat) (v : W64) : (s.setRws a v).calh = s.calh := rfl
@[simp] theorem State.setRws_upd (s : State) (a : Nat) (v : W64) : (s.setRws a v).upd = s.upd := rfl
@[simp] theorem State.setRws_ladder (s : State) (a : Nat) (v : W64) : (s.setRws a v).ladder = s.ladder := rfl

/-! ### setNow -/

@[simp] theorem State.setNow_pending (s : State) (a : Nat) (v : W64) : (s.setNow a v).pending = s.pending := rfl
@[simp] theorem State.setNow_copies (s : State) (a : Nat) (v : W64) : (s.setNow a v).copies = s.copies := rfl
@[simp] theorem State.setNow_clk (s : State) (a : Nat) (v : W64) : (s.setNow a v).clk = s.clk := rfl
@[simp] theorem State.setNow_evt (s : State) (a : Nat) (v : W64) : (s.setNow a v).evt = s.evt := rfl
@[simp] theorem State.setNow_engs (s : State) (a : Nat) (v : W64) : (s.setNow a v).engs = s.engs := rfl
@[simp] theorem State.setNow_arb (s : State) (a : Nat) (v : W64) : (s.setNow a v).arb = s.arb := rfl
@[simp] theorem State.setNow_sram (s : State) (a : Nat) (v : W64) : (s.setNow a v).sram = s.sram := rfl
@[simp] theorem State.setNow_dram (s : State) (a : Nat) (v : W64) : (s.setNow a v).dram = s.dram := rfl
@[simp] theorem State.setNow_poison (s : State) (a : Nat) (v : W64) : (s.setNow a v).poison = s.poison := rfl
@[simp] theorem State.setNow_sramBad (s : State) (a : Nat) (v : W64) : (s.setNow a v).sramBad = s.sramBad := rfl
@[simp] theorem State.setNow_fresh (s : State) (a : Nat) (v : W64) : (s.setNow a v).fresh = s.fresh := rfl
@[simp] theorem State.setNow_mode (s : State) (a : Nat) (v : W64) : (s.setNow a v).mode = s.mode := rfl
@[simp] theorem State.setNow_cfg (s : State) (a : Nat) (v : W64) : (s.setNow a v).cfg = s.cfg := rfl
@[simp] theorem State.setNow_chans (s : State) (a : Nat) (v : W64) : (s.setNow a v).chans = s.chans := rfl
@[simp] theorem State.setNow_banks (s : State) (a : Nat) (v : W64) : (s.setNow a v).banks = s.banks := rfl
@[simp] theorem State.setNow_flts (s : State) (a : Nat) (v : W64) : (s.setNow a v).flts = s.flts := rfl
@[simp] theorem State.setNow_coefs (s : State) (a : Nat) (v : W64) : (s.setNow a v).coefs = s.coefs := rfl
@[simp] theorem State.setNow_fasts (s : State) (a : Nat) (v : W64) : (s.setNow a v).fasts = s.fasts := rfl
@[simp] theorem State.setNow_fabric (s : State) (a : Nat) (v : W64) : (s.setNow a v).fabric = s.fabric := rfl
@[simp] theorem State.setNow_cap (s : State) (a : Nat) (v : W64) : (s.setNow a v).cap = s.cap := rfl
@[simp] theorem State.setNow_tiv (s : State) (a : Nat) (v : W64) : (s.setNow a v).tiv = s.tiv := rfl
@[simp] theorem State.setNow_tbs (s : State) (a : Nat) (v : W64) : (s.setNow a v).tbs = s.tbs := rfl
@[simp] theorem State.setNow_pps (s : State) (a : Nat) (v : W64) : (s.setNow a v).pps = s.pps := rfl
@[simp] theorem State.setNow_sw (s : State) (a : Nat) (v : W64) : (s.setNow a v).sw = s.sw := rfl
@[simp] theorem State.setNow_lanes (s : State) (a : Nat) (v : W64) : (s.setNow a v).lanes = s.lanes := rfl
@[simp] theorem State.setNow_strm (s : State) (a : Nat) (v : W64) : (s.setNow a v).strm = s.strm := rfl
@[simp] theorem State.setNow_strms (s : State) (a : Nat) (v : W64) : (s.setNow a v).strms = s.strms := rfl
@[simp] theorem State.setNow_queues (s : State) (a : Nat) (v : W64) : (s.setNow a v).queues = s.queues := rfl
@[simp] theorem State.setNow_qmem (s : State) (a : Nat) (v : W64) : (s.setNow a v).qmem = s.qmem := rfl
@[simp] theorem State.setNow_led (s : State) (a : Nat) (v : W64) : (s.setNow a v).led = s.led := rfl
@[simp] theorem State.setNow_peerSeq (s : State) (a : Nat) (v : W64) : (s.setNow a v).peerSeq = s.peerSeq := rfl
@[simp] theorem State.setNow_pair (s : State) (a : Nat) (v : W64) : (s.setNow a v).pair = s.pair := rfl
@[simp] theorem State.setNow_hosts (s : State) (a : Nat) (v : W64) : (s.setNow a v).hosts = s.hosts := rfl
@[simp] theorem State.setNow_sp (s : State) (a : Nat) (v : W64) : (s.setNow a v).sp = s.sp := rfl
@[simp] theorem State.setNow_ssps (s : State) (a : Nat) (v : W64) : (s.setNow a v).ssps = s.ssps := rfl
@[simp] theorem State.setNow_cals (s : State) (a : Nat) (v : W64) : (s.setNow a v).cals = s.cals := rfl
@[simp] theorem State.setNow_calh (s : State) (a : Nat) (v : W64) : (s.setNow a v).calh = s.calh := rfl
@[simp] theorem State.setNow_upd (s : State) (a : Nat) (v : W64) : (s.setNow a v).upd = s.upd := rfl
@[simp] theorem State.setNow_ladder (s : State) (a : Nat) (v : W64) : (s.setNow a v).ladder = s.ladder := rfl

/-! ### settleRws -/

@[simp] theorem State.settleRws_pending (s : State) : (s.settleRws).pending = s.pending := rfl
@[simp] theorem State.settleRws_regs (s : State) : (s.settleRws).regs = s.regs := rfl
@[simp] theorem State.settleRws_copies (s : State) : (s.settleRws).copies = s.copies := rfl
@[simp] theorem State.settleRws_clk (s : State) : (s.settleRws).clk = s.clk := rfl
@[simp] theorem State.settleRws_evt (s : State) : (s.settleRws).evt = s.evt := rfl
@[simp] theorem State.settleRws_engs (s : State) : (s.settleRws).engs = s.engs := rfl
@[simp] theorem State.settleRws_arb (s : State) : (s.settleRws).arb = s.arb := rfl
@[simp] theorem State.settleRws_sram (s : State) : (s.settleRws).sram = s.sram := rfl
@[simp] theorem State.settleRws_dram (s : State) : (s.settleRws).dram = s.dram := rfl
@[simp] theorem State.settleRws_poison (s : State) : (s.settleRws).poison = s.poison := rfl
@[simp] theorem State.settleRws_sramBad (s : State) : (s.settleRws).sramBad = s.sramBad := rfl
@[simp] theorem State.settleRws_fresh (s : State) : (s.settleRws).fresh = s.fresh := rfl
@[simp] theorem State.settleRws_mode (s : State) : (s.settleRws).mode = s.mode := rfl
@[simp] theorem State.settleRws_cfg (s : State) : (s.settleRws).cfg = s.cfg := rfl
@[simp] theorem State.settleRws_chans (s : State) : (s.settleRws).chans = s.chans := rfl
@[simp] theorem State.settleRws_banks (s : State) : (s.settleRws).banks = s.banks := rfl
@[simp] theorem State.settleRws_flts (s : State) : (s.settleRws).flts = s.flts := rfl
@[simp] theorem State.settleRws_coefs (s : State) : (s.settleRws).coefs = s.coefs := rfl
@[simp] theorem State.settleRws_fasts (s : State) : (s.settleRws).fasts = s.fasts := rfl
@[simp] theorem State.settleRws_fabric (s : State) : (s.settleRws).fabric = s.fabric := rfl
@[simp] theorem State.settleRws_cap (s : State) : (s.settleRws).cap = s.cap := rfl
@[simp] theorem State.settleRws_tiv (s : State) : (s.settleRws).tiv = s.tiv := rfl
@[simp] theorem State.settleRws_tbs (s : State) : (s.settleRws).tbs = s.tbs := rfl
@[simp] theorem State.settleRws_pps (s : State) : (s.settleRws).pps = s.pps := rfl
@[simp] theorem State.settleRws_sw (s : State) : (s.settleRws).sw = s.sw := rfl
@[simp] theorem State.settleRws_lanes (s : State) : (s.settleRws).lanes = s.lanes := rfl
@[simp] theorem State.settleRws_strm (s : State) : (s.settleRws).strm = s.strm := rfl
@[simp] theorem State.settleRws_strms (s : State) : (s.settleRws).strms = s.strms := rfl
@[simp] theorem State.settleRws_queues (s : State) : (s.settleRws).queues = s.queues := rfl
@[simp] theorem State.settleRws_qmem (s : State) : (s.settleRws).qmem = s.qmem := rfl
@[simp] theorem State.settleRws_led (s : State) : (s.settleRws).led = s.led := rfl
@[simp] theorem State.settleRws_peerSeq (s : State) : (s.settleRws).peerSeq = s.peerSeq := rfl
@[simp] theorem State.settleRws_pair (s : State) : (s.settleRws).pair = s.pair := rfl
@[simp] theorem State.settleRws_hosts (s : State) : (s.settleRws).hosts = s.hosts := rfl
@[simp] theorem State.settleRws_sp (s : State) : (s.settleRws).sp = s.sp := rfl
@[simp] theorem State.settleRws_ssps (s : State) : (s.settleRws).ssps = s.ssps := rfl
@[simp] theorem State.settleRws_cals (s : State) : (s.settleRws).cals = s.cals := rfl
@[simp] theorem State.settleRws_calh (s : State) : (s.settleRws).calh = s.calh := rfl
@[simp] theorem State.settleRws_upd (s : State) : (s.settleRws).upd = s.upd := rfl
@[simp] theorem State.settleRws_ladder (s : State) : (s.settleRws).ladder = s.ladder := rfl

/-! ### setCopy -/

@[simp] theorem State.setCopy_pending (s : State) (port a : Nat) (v : W64) : (s.setCopy port a v).pending = s.pending := rfl
@[simp] theorem State.setCopy_regs (s : State) (port a : Nat) (v : W64) : (s.setCopy port a v).regs = s.regs := rfl
@[simp] theorem State.setCopy_effOld (s : State) (port a : Nat) (v : W64) : (s.setCopy port a v).effOld = s.effOld := rfl
@[simp] theorem State.setCopy_clk (s : State) (port a : Nat) (v : W64) : (s.setCopy port a v).clk = s.clk := rfl
@[simp] theorem State.setCopy_evt (s : State) (port a : Nat) (v : W64) : (s.setCopy port a v).evt = s.evt := rfl
@[simp] theorem State.setCopy_engs (s : State) (port a : Nat) (v : W64) : (s.setCopy port a v).engs = s.engs := rfl
@[simp] theorem State.setCopy_arb (s : State) (port a : Nat) (v : W64) : (s.setCopy port a v).arb = s.arb := rfl
@[simp] theorem State.setCopy_sram (s : State) (port a : Nat) (v : W64) : (s.setCopy port a v).sram = s.sram := rfl
@[simp] theorem State.setCopy_dram (s : State) (port a : Nat) (v : W64) : (s.setCopy port a v).dram = s.dram := rfl
@[simp] theorem State.setCopy_poison (s : State) (port a : Nat) (v : W64) : (s.setCopy port a v).poison = s.poison := rfl
@[simp] theorem State.setCopy_sramBad (s : State) (port a : Nat) (v : W64) : (s.setCopy port a v).sramBad = s.sramBad := rfl
@[simp] theorem State.setCopy_fresh (s : State) (port a : Nat) (v : W64) : (s.setCopy port a v).fresh = s.fresh := rfl
@[simp] theorem State.setCopy_mode (s : State) (port a : Nat) (v : W64) : (s.setCopy port a v).mode = s.mode := rfl
@[simp] theorem State.setCopy_cfg (s : State) (port a : Nat) (v : W64) : (s.setCopy port a v).cfg = s.cfg := rfl
@[simp] theorem State.setCopy_chans (s : State) (port a : Nat) (v : W64) : (s.setCopy port a v).chans = s.chans := rfl
@[simp] theorem State.setCopy_banks (s : State) (port a : Nat) (v : W64) : (s.setCopy port a v).banks = s.banks := rfl
@[simp] theorem State.setCopy_flts (s : State) (port a : Nat) (v : W64) : (s.setCopy port a v).flts = s.flts := rfl
@[simp] theorem State.setCopy_coefs (s : State) (port a : Nat) (v : W64) : (s.setCopy port a v).coefs = s.coefs := rfl
@[simp] theorem State.setCopy_fasts (s : State) (port a : Nat) (v : W64) : (s.setCopy port a v).fasts = s.fasts := rfl
@[simp] theorem State.setCopy_fabric (s : State) (port a : Nat) (v : W64) : (s.setCopy port a v).fabric = s.fabric := rfl
@[simp] theorem State.setCopy_cap (s : State) (port a : Nat) (v : W64) : (s.setCopy port a v).cap = s.cap := rfl
@[simp] theorem State.setCopy_tiv (s : State) (port a : Nat) (v : W64) : (s.setCopy port a v).tiv = s.tiv := rfl
@[simp] theorem State.setCopy_tbs (s : State) (port a : Nat) (v : W64) : (s.setCopy port a v).tbs = s.tbs := rfl
@[simp] theorem State.setCopy_pps (s : State) (port a : Nat) (v : W64) : (s.setCopy port a v).pps = s.pps := rfl
@[simp] theorem State.setCopy_sw (s : State) (port a : Nat) (v : W64) : (s.setCopy port a v).sw = s.sw := rfl
@[simp] theorem State.setCopy_lanes (s : State) (port a : Nat) (v : W64) : (s.setCopy port a v).lanes = s.lanes := rfl
@[simp] theorem State.setCopy_strm (s : State) (port a : Nat) (v : W64) : (s.setCopy port a v).strm = s.strm := rfl
@[simp] theorem State.setCopy_strms (s : State) (port a : Nat) (v : W64) : (s.setCopy port a v).strms = s.strms := rfl
@[simp] theorem State.setCopy_queues (s : State) (port a : Nat) (v : W64) : (s.setCopy port a v).queues = s.queues := rfl
@[simp] theorem State.setCopy_qmem (s : State) (port a : Nat) (v : W64) : (s.setCopy port a v).qmem = s.qmem := rfl
@[simp] theorem State.setCopy_led (s : State) (port a : Nat) (v : W64) : (s.setCopy port a v).led = s.led := rfl
@[simp] theorem State.setCopy_peerSeq (s : State) (port a : Nat) (v : W64) : (s.setCopy port a v).peerSeq = s.peerSeq := rfl
@[simp] theorem State.setCopy_pair (s : State) (port a : Nat) (v : W64) : (s.setCopy port a v).pair = s.pair := rfl
@[simp] theorem State.setCopy_hosts (s : State) (port a : Nat) (v : W64) : (s.setCopy port a v).hosts = s.hosts := rfl
@[simp] theorem State.setCopy_sp (s : State) (port a : Nat) (v : W64) : (s.setCopy port a v).sp = s.sp := rfl
@[simp] theorem State.setCopy_ssps (s : State) (port a : Nat) (v : W64) : (s.setCopy port a v).ssps = s.ssps := rfl
@[simp] theorem State.setCopy_cals (s : State) (port a : Nat) (v : W64) : (s.setCopy port a v).cals = s.cals := rfl
@[simp] theorem State.setCopy_calh (s : State) (port a : Nat) (v : W64) : (s.setCopy port a v).calh = s.calh := rfl
@[simp] theorem State.setCopy_upd (s : State) (port a : Nat) (v : W64) : (s.setCopy port a v).upd = s.upd := rfl
@[simp] theorem State.setCopy_ladder (s : State) (port a : Nat) (v : W64) : (s.setCopy port a v).ladder = s.ladder := rfl

/-! ### setEng -/

@[simp] theorem State.setEng_pending (s : State) (e : Nat) (x : EngSt) : (s.setEng e x).pending = s.pending := rfl
@[simp] theorem State.setEng_regs (s : State) (e : Nat) (x : EngSt) : (s.setEng e x).regs = s.regs := rfl
@[simp] theorem State.setEng_effOld (s : State) (e : Nat) (x : EngSt) : (s.setEng e x).effOld = s.effOld := rfl
@[simp] theorem State.setEng_copies (s : State) (e : Nat) (x : EngSt) : (s.setEng e x).copies = s.copies := rfl
@[simp] theorem State.setEng_clk (s : State) (e : Nat) (x : EngSt) : (s.setEng e x).clk = s.clk := rfl
@[simp] theorem State.setEng_evt (s : State) (e : Nat) (x : EngSt) : (s.setEng e x).evt = s.evt := rfl
@[simp] theorem State.setEng_arb (s : State) (e : Nat) (x : EngSt) : (s.setEng e x).arb = s.arb := rfl
@[simp] theorem State.setEng_sram (s : State) (e : Nat) (x : EngSt) : (s.setEng e x).sram = s.sram := rfl
@[simp] theorem State.setEng_dram (s : State) (e : Nat) (x : EngSt) : (s.setEng e x).dram = s.dram := rfl
@[simp] theorem State.setEng_poison (s : State) (e : Nat) (x : EngSt) : (s.setEng e x).poison = s.poison := rfl
@[simp] theorem State.setEng_sramBad (s : State) (e : Nat) (x : EngSt) : (s.setEng e x).sramBad = s.sramBad := rfl
@[simp] theorem State.setEng_fresh (s : State) (e : Nat) (x : EngSt) : (s.setEng e x).fresh = s.fresh := rfl
@[simp] theorem State.setEng_mode (s : State) (e : Nat) (x : EngSt) : (s.setEng e x).mode = s.mode := rfl
@[simp] theorem State.setEng_cfg (s : State) (e : Nat) (x : EngSt) : (s.setEng e x).cfg = s.cfg := rfl
@[simp] theorem State.setEng_chans (s : State) (e : Nat) (x : EngSt) : (s.setEng e x).chans = s.chans := rfl
@[simp] theorem State.setEng_banks (s : State) (e : Nat) (x : EngSt) : (s.setEng e x).banks = s.banks := rfl
@[simp] theorem State.setEng_flts (s : State) (e : Nat) (x : EngSt) : (s.setEng e x).flts = s.flts := rfl
@[simp] theorem State.setEng_coefs (s : State) (e : Nat) (x : EngSt) : (s.setEng e x).coefs = s.coefs := rfl
@[simp] theorem State.setEng_fasts (s : State) (e : Nat) (x : EngSt) : (s.setEng e x).fasts = s.fasts := rfl
@[simp] theorem State.setEng_fabric (s : State) (e : Nat) (x : EngSt) : (s.setEng e x).fabric = s.fabric := rfl
@[simp] theorem State.setEng_cap (s : State) (e : Nat) (x : EngSt) : (s.setEng e x).cap = s.cap := rfl
@[simp] theorem State.setEng_tiv (s : State) (e : Nat) (x : EngSt) : (s.setEng e x).tiv = s.tiv := rfl
@[simp] theorem State.setEng_tbs (s : State) (e : Nat) (x : EngSt) : (s.setEng e x).tbs = s.tbs := rfl
@[simp] theorem State.setEng_pps (s : State) (e : Nat) (x : EngSt) : (s.setEng e x).pps = s.pps := rfl
@[simp] theorem State.setEng_sw (s : State) (e : Nat) (x : EngSt) : (s.setEng e x).sw = s.sw := rfl
@[simp] theorem State.setEng_lanes (s : State) (e : Nat) (x : EngSt) : (s.setEng e x).lanes = s.lanes := rfl
@[simp] theorem State.setEng_strm (s : State) (e : Nat) (x : EngSt) : (s.setEng e x).strm = s.strm := rfl
@[simp] theorem State.setEng_strms (s : State) (e : Nat) (x : EngSt) : (s.setEng e x).strms = s.strms := rfl
@[simp] theorem State.setEng_queues (s : State) (e : Nat) (x : EngSt) : (s.setEng e x).queues = s.queues := rfl
@[simp] theorem State.setEng_qmem (s : State) (e : Nat) (x : EngSt) : (s.setEng e x).qmem = s.qmem := rfl
@[simp] theorem State.setEng_led (s : State) (e : Nat) (x : EngSt) : (s.setEng e x).led = s.led := rfl
@[simp] theorem State.setEng_peerSeq (s : State) (e : Nat) (x : EngSt) : (s.setEng e x).peerSeq = s.peerSeq := rfl
@[simp] theorem State.setEng_pair (s : State) (e : Nat) (x : EngSt) : (s.setEng e x).pair = s.pair := rfl
@[simp] theorem State.setEng_hosts (s : State) (e : Nat) (x : EngSt) : (s.setEng e x).hosts = s.hosts := rfl
@[simp] theorem State.setEng_sp (s : State) (e : Nat) (x : EngSt) : (s.setEng e x).sp = s.sp := rfl
@[simp] theorem State.setEng_ssps (s : State) (e : Nat) (x : EngSt) : (s.setEng e x).ssps = s.ssps := rfl
@[simp] theorem State.setEng_cals (s : State) (e : Nat) (x : EngSt) : (s.setEng e x).cals = s.cals := rfl
@[simp] theorem State.setEng_calh (s : State) (e : Nat) (x : EngSt) : (s.setEng e x).calh = s.calh := rfl
@[simp] theorem State.setEng_upd (s : State) (e : Nat) (x : EngSt) : (s.setEng e x).upd = s.upd := rfl
@[simp] theorem State.setEng_ladder (s : State) (e : Nat) (x : EngSt) : (s.setEng e x).ladder = s.ladder := rfl

/-! ### setCh -/

@[simp] theorem State.setCh_pending (s : State) (c : Nat) (x : ChanSt) : (s.setCh c x).pending = s.pending := rfl
@[simp] theorem State.setCh_regs (s : State) (c : Nat) (x : ChanSt) : (s.setCh c x).regs = s.regs := rfl
@[simp] theorem State.setCh_effOld (s : State) (c : Nat) (x : ChanSt) : (s.setCh c x).effOld = s.effOld := rfl
@[simp] theorem State.setCh_copies (s : State) (c : Nat) (x : ChanSt) : (s.setCh c x).copies = s.copies := rfl
@[simp] theorem State.setCh_clk (s : State) (c : Nat) (x : ChanSt) : (s.setCh c x).clk = s.clk := rfl
@[simp] theorem State.setCh_evt (s : State) (c : Nat) (x : ChanSt) : (s.setCh c x).evt = s.evt := rfl
@[simp] theorem State.setCh_engs (s : State) (c : Nat) (x : ChanSt) : (s.setCh c x).engs = s.engs := rfl
@[simp] theorem State.setCh_arb (s : State) (c : Nat) (x : ChanSt) : (s.setCh c x).arb = s.arb := rfl
@[simp] theorem State.setCh_sram (s : State) (c : Nat) (x : ChanSt) : (s.setCh c x).sram = s.sram := rfl
@[simp] theorem State.setCh_dram (s : State) (c : Nat) (x : ChanSt) : (s.setCh c x).dram = s.dram := rfl
@[simp] theorem State.setCh_poison (s : State) (c : Nat) (x : ChanSt) : (s.setCh c x).poison = s.poison := rfl
@[simp] theorem State.setCh_sramBad (s : State) (c : Nat) (x : ChanSt) : (s.setCh c x).sramBad = s.sramBad := rfl
@[simp] theorem State.setCh_fresh (s : State) (c : Nat) (x : ChanSt) : (s.setCh c x).fresh = s.fresh := rfl
@[simp] theorem State.setCh_mode (s : State) (c : Nat) (x : ChanSt) : (s.setCh c x).mode = s.mode := rfl
@[simp] theorem State.setCh_cfg (s : State) (c : Nat) (x : ChanSt) : (s.setCh c x).cfg = s.cfg := rfl
@[simp] theorem State.setCh_banks (s : State) (c : Nat) (x : ChanSt) : (s.setCh c x).banks = s.banks := rfl
@[simp] theorem State.setCh_flts (s : State) (c : Nat) (x : ChanSt) : (s.setCh c x).flts = s.flts := rfl
@[simp] theorem State.setCh_coefs (s : State) (c : Nat) (x : ChanSt) : (s.setCh c x).coefs = s.coefs := rfl
@[simp] theorem State.setCh_fasts (s : State) (c : Nat) (x : ChanSt) : (s.setCh c x).fasts = s.fasts := rfl
@[simp] theorem State.setCh_fabric (s : State) (c : Nat) (x : ChanSt) : (s.setCh c x).fabric = s.fabric := rfl
@[simp] theorem State.setCh_cap (s : State) (c : Nat) (x : ChanSt) : (s.setCh c x).cap = s.cap := rfl
@[simp] theorem State.setCh_tiv (s : State) (c : Nat) (x : ChanSt) : (s.setCh c x).tiv = s.tiv := rfl
@[simp] theorem State.setCh_tbs (s : State) (c : Nat) (x : ChanSt) : (s.setCh c x).tbs = s.tbs := rfl
@[simp] theorem State.setCh_pps (s : State) (c : Nat) (x : ChanSt) : (s.setCh c x).pps = s.pps := rfl
@[simp] theorem State.setCh_sw (s : State) (c : Nat) (x : ChanSt) : (s.setCh c x).sw = s.sw := rfl
@[simp] theorem State.setCh_lanes (s : State) (c : Nat) (x : ChanSt) : (s.setCh c x).lanes = s.lanes := rfl
@[simp] theorem State.setCh_strm (s : State) (c : Nat) (x : ChanSt) : (s.setCh c x).strm = s.strm := rfl
@[simp] theorem State.setCh_strms (s : State) (c : Nat) (x : ChanSt) : (s.setCh c x).strms = s.strms := rfl
@[simp] theorem State.setCh_queues (s : State) (c : Nat) (x : ChanSt) : (s.setCh c x).queues = s.queues := rfl
@[simp] theorem State.setCh_qmem (s : State) (c : Nat) (x : ChanSt) : (s.setCh c x).qmem = s.qmem := rfl
@[simp] theorem State.setCh_led (s : State) (c : Nat) (x : ChanSt) : (s.setCh c x).led = s.led := rfl
@[simp] theorem State.setCh_peerSeq (s : State) (c : Nat) (x : ChanSt) : (s.setCh c x).peerSeq = s.peerSeq := rfl
@[simp] theorem State.setCh_pair (s : State) (c : Nat) (x : ChanSt) : (s.setCh c x).pair = s.pair := rfl
@[simp] theorem State.setCh_hosts (s : State) (c : Nat) (x : ChanSt) : (s.setCh c x).hosts = s.hosts := rfl
@[simp] theorem State.setCh_sp (s : State) (c : Nat) (x : ChanSt) : (s.setCh c x).sp = s.sp := rfl
@[simp] theorem State.setCh_ssps (s : State) (c : Nat) (x : ChanSt) : (s.setCh c x).ssps = s.ssps := rfl
@[simp] theorem State.setCh_cals (s : State) (c : Nat) (x : ChanSt) : (s.setCh c x).cals = s.cals := rfl
@[simp] theorem State.setCh_calh (s : State) (c : Nat) (x : ChanSt) : (s.setCh c x).calh = s.calh := rfl
@[simp] theorem State.setCh_upd (s : State) (c : Nat) (x : ChanSt) : (s.setCh c x).upd = s.upd := rfl
@[simp] theorem State.setCh_ladder (s : State) (c : Nat) (x : ChanSt) : (s.setCh c x).ladder = s.ladder := rfl

/-! ### setBk -/

@[simp] theorem State.setBk_pending (s : State) (b : Nat) (x : BankSt) : (s.setBk b x).pending = s.pending := rfl
@[simp] theorem State.setBk_regs (s : State) (b : Nat) (x : BankSt) : (s.setBk b x).regs = s.regs := rfl
@[simp] theorem State.setBk_effOld (s : State) (b : Nat) (x : BankSt) : (s.setBk b x).effOld = s.effOld := rfl
@[simp] theorem State.setBk_copies (s : State) (b : Nat) (x : BankSt) : (s.setBk b x).copies = s.copies := rfl
@[simp] theorem State.setBk_clk (s : State) (b : Nat) (x : BankSt) : (s.setBk b x).clk = s.clk := rfl
@[simp] theorem State.setBk_evt (s : State) (b : Nat) (x : BankSt) : (s.setBk b x).evt = s.evt := rfl
@[simp] theorem State.setBk_engs (s : State) (b : Nat) (x : BankSt) : (s.setBk b x).engs = s.engs := rfl
@[simp] theorem State.setBk_arb (s : State) (b : Nat) (x : BankSt) : (s.setBk b x).arb = s.arb := rfl
@[simp] theorem State.setBk_sram (s : State) (b : Nat) (x : BankSt) : (s.setBk b x).sram = s.sram := rfl
@[simp] theorem State.setBk_dram (s : State) (b : Nat) (x : BankSt) : (s.setBk b x).dram = s.dram := rfl
@[simp] theorem State.setBk_poison (s : State) (b : Nat) (x : BankSt) : (s.setBk b x).poison = s.poison := rfl
@[simp] theorem State.setBk_sramBad (s : State) (b : Nat) (x : BankSt) : (s.setBk b x).sramBad = s.sramBad := rfl
@[simp] theorem State.setBk_fresh (s : State) (b : Nat) (x : BankSt) : (s.setBk b x).fresh = s.fresh := rfl
@[simp] theorem State.setBk_mode (s : State) (b : Nat) (x : BankSt) : (s.setBk b x).mode = s.mode := rfl
@[simp] theorem State.setBk_cfg (s : State) (b : Nat) (x : BankSt) : (s.setBk b x).cfg = s.cfg := rfl
@[simp] theorem State.setBk_chans (s : State) (b : Nat) (x : BankSt) : (s.setBk b x).chans = s.chans := rfl
@[simp] theorem State.setBk_flts (s : State) (b : Nat) (x : BankSt) : (s.setBk b x).flts = s.flts := rfl
@[simp] theorem State.setBk_coefs (s : State) (b : Nat) (x : BankSt) : (s.setBk b x).coefs = s.coefs := rfl
@[simp] theorem State.setBk_fasts (s : State) (b : Nat) (x : BankSt) : (s.setBk b x).fasts = s.fasts := rfl
@[simp] theorem State.setBk_fabric (s : State) (b : Nat) (x : BankSt) : (s.setBk b x).fabric = s.fabric := rfl
@[simp] theorem State.setBk_cap (s : State) (b : Nat) (x : BankSt) : (s.setBk b x).cap = s.cap := rfl
@[simp] theorem State.setBk_tiv (s : State) (b : Nat) (x : BankSt) : (s.setBk b x).tiv = s.tiv := rfl
@[simp] theorem State.setBk_tbs (s : State) (b : Nat) (x : BankSt) : (s.setBk b x).tbs = s.tbs := rfl
@[simp] theorem State.setBk_pps (s : State) (b : Nat) (x : BankSt) : (s.setBk b x).pps = s.pps := rfl
@[simp] theorem State.setBk_sw (s : State) (b : Nat) (x : BankSt) : (s.setBk b x).sw = s.sw := rfl
@[simp] theorem State.setBk_lanes (s : State) (b : Nat) (x : BankSt) : (s.setBk b x).lanes = s.lanes := rfl
@[simp] theorem State.setBk_strm (s : State) (b : Nat) (x : BankSt) : (s.setBk b x).strm = s.strm := rfl
@[simp] theorem State.setBk_strms (s : State) (b : Nat) (x : BankSt) : (s.setBk b x).strms = s.strms := rfl
@[simp] theorem State.setBk_queues (s : State) (b : Nat) (x : BankSt) : (s.setBk b x).queues = s.queues := rfl
@[simp] theorem State.setBk_qmem (s : State) (b : Nat) (x : BankSt) : (s.setBk b x).qmem = s.qmem := rfl
@[simp] theorem State.setBk_led (s : State) (b : Nat) (x : BankSt) : (s.setBk b x).led = s.led := rfl
@[simp] theorem State.setBk_peerSeq (s : State) (b : Nat) (x : BankSt) : (s.setBk b x).peerSeq = s.peerSeq := rfl
@[simp] theorem State.setBk_pair (s : State) (b : Nat) (x : BankSt) : (s.setBk b x).pair = s.pair := rfl
@[simp] theorem State.setBk_hosts (s : State) (b : Nat) (x : BankSt) : (s.setBk b x).hosts = s.hosts := rfl
@[simp] theorem State.setBk_sp (s : State) (b : Nat) (x : BankSt) : (s.setBk b x).sp = s.sp := rfl
@[simp] theorem State.setBk_ssps (s : State) (b : Nat) (x : BankSt) : (s.setBk b x).ssps = s.ssps := rfl
@[simp] theorem State.setBk_cals (s : State) (b : Nat) (x : BankSt) : (s.setBk b x).cals = s.cals := rfl
@[simp] theorem State.setBk_calh (s : State) (b : Nat) (x : BankSt) : (s.setBk b x).calh = s.calh := rfl
@[simp] theorem State.setBk_upd (s : State) (b : Nat) (x : BankSt) : (s.setBk b x).upd = s.upd := rfl
@[simp] theorem State.setBk_ladder (s : State) (b : Nat) (x : BankSt) : (s.setBk b x).ladder = s.ladder := rfl

/-! ### setFlt -/

@[simp] theorem State.setFlt_pending (s : State) (c : Nat) (x : FltSt) : (s.setFlt c x).pending = s.pending := rfl
@[simp] theorem State.setFlt_regs (s : State) (c : Nat) (x : FltSt) : (s.setFlt c x).regs = s.regs := rfl
@[simp] theorem State.setFlt_effOld (s : State) (c : Nat) (x : FltSt) : (s.setFlt c x).effOld = s.effOld := rfl
@[simp] theorem State.setFlt_copies (s : State) (c : Nat) (x : FltSt) : (s.setFlt c x).copies = s.copies := rfl
@[simp] theorem State.setFlt_clk (s : State) (c : Nat) (x : FltSt) : (s.setFlt c x).clk = s.clk := rfl
@[simp] theorem State.setFlt_evt (s : State) (c : Nat) (x : FltSt) : (s.setFlt c x).evt = s.evt := rfl
@[simp] theorem State.setFlt_engs (s : State) (c : Nat) (x : FltSt) : (s.setFlt c x).engs = s.engs := rfl
@[simp] theorem State.setFlt_arb (s : State) (c : Nat) (x : FltSt) : (s.setFlt c x).arb = s.arb := rfl
@[simp] theorem State.setFlt_sram (s : State) (c : Nat) (x : FltSt) : (s.setFlt c x).sram = s.sram := rfl
@[simp] theorem State.setFlt_dram (s : State) (c : Nat) (x : FltSt) : (s.setFlt c x).dram = s.dram := rfl
@[simp] theorem State.setFlt_poison (s : State) (c : Nat) (x : FltSt) : (s.setFlt c x).poison = s.poison := rfl
@[simp] theorem State.setFlt_sramBad (s : State) (c : Nat) (x : FltSt) : (s.setFlt c x).sramBad = s.sramBad := rfl
@[simp] theorem State.setFlt_fresh (s : State) (c : Nat) (x : FltSt) : (s.setFlt c x).fresh = s.fresh := rfl
@[simp] theorem State.setFlt_mode (s : State) (c : Nat) (x : FltSt) : (s.setFlt c x).mode = s.mode := rfl
@[simp] theorem State.setFlt_cfg (s : State) (c : Nat) (x : FltSt) : (s.setFlt c x).cfg = s.cfg := rfl
@[simp] theorem State.setFlt_chans (s : State) (c : Nat) (x : FltSt) : (s.setFlt c x).chans = s.chans := rfl
@[simp] theorem State.setFlt_banks (s : State) (c : Nat) (x : FltSt) : (s.setFlt c x).banks = s.banks := rfl
@[simp] theorem State.setFlt_coefs (s : State) (c : Nat) (x : FltSt) : (s.setFlt c x).coefs = s.coefs := rfl
@[simp] theorem State.setFlt_fasts (s : State) (c : Nat) (x : FltSt) : (s.setFlt c x).fasts = s.fasts := rfl
@[simp] theorem State.setFlt_fabric (s : State) (c : Nat) (x : FltSt) : (s.setFlt c x).fabric = s.fabric := rfl
@[simp] theorem State.setFlt_cap (s : State) (c : Nat) (x : FltSt) : (s.setFlt c x).cap = s.cap := rfl
@[simp] theorem State.setFlt_tiv (s : State) (c : Nat) (x : FltSt) : (s.setFlt c x).tiv = s.tiv := rfl
@[simp] theorem State.setFlt_tbs (s : State) (c : Nat) (x : FltSt) : (s.setFlt c x).tbs = s.tbs := rfl
@[simp] theorem State.setFlt_pps (s : State) (c : Nat) (x : FltSt) : (s.setFlt c x).pps = s.pps := rfl
@[simp] theorem State.setFlt_sw (s : State) (c : Nat) (x : FltSt) : (s.setFlt c x).sw = s.sw := rfl
@[simp] theorem State.setFlt_lanes (s : State) (c : Nat) (x : FltSt) : (s.setFlt c x).lanes = s.lanes := rfl
@[simp] theorem State.setFlt_strm (s : State) (c : Nat) (x : FltSt) : (s.setFlt c x).strm = s.strm := rfl
@[simp] theorem State.setFlt_strms (s : State) (c : Nat) (x : FltSt) : (s.setFlt c x).strms = s.strms := rfl
@[simp] theorem State.setFlt_queues (s : State) (c : Nat) (x : FltSt) : (s.setFlt c x).queues = s.queues := rfl
@[simp] theorem State.setFlt_qmem (s : State) (c : Nat) (x : FltSt) : (s.setFlt c x).qmem = s.qmem := rfl
@[simp] theorem State.setFlt_led (s : State) (c : Nat) (x : FltSt) : (s.setFlt c x).led = s.led := rfl
@[simp] theorem State.setFlt_peerSeq (s : State) (c : Nat) (x : FltSt) : (s.setFlt c x).peerSeq = s.peerSeq := rfl
@[simp] theorem State.setFlt_pair (s : State) (c : Nat) (x : FltSt) : (s.setFlt c x).pair = s.pair := rfl
@[simp] theorem State.setFlt_hosts (s : State) (c : Nat) (x : FltSt) : (s.setFlt c x).hosts = s.hosts := rfl
@[simp] theorem State.setFlt_sp (s : State) (c : Nat) (x : FltSt) : (s.setFlt c x).sp = s.sp := rfl
@[simp] theorem State.setFlt_ssps (s : State) (c : Nat) (x : FltSt) : (s.setFlt c x).ssps = s.ssps := rfl
@[simp] theorem State.setFlt_cals (s : State) (c : Nat) (x : FltSt) : (s.setFlt c x).cals = s.cals := rfl
@[simp] theorem State.setFlt_calh (s : State) (c : Nat) (x : FltSt) : (s.setFlt c x).calh = s.calh := rfl
@[simp] theorem State.setFlt_upd (s : State) (c : Nat) (x : FltSt) : (s.setFlt c x).upd = s.upd := rfl
@[simp] theorem State.setFlt_ladder (s : State) (c : Nat) (x : FltSt) : (s.setFlt c x).ladder = s.ladder := rfl

/-! ### setCoef -/

@[simp] theorem State.setCoef_pending (s : State) (b : Nat) (x : CoefSt) : (s.setCoef b x).pending = s.pending := rfl
@[simp] theorem State.setCoef_regs (s : State) (b : Nat) (x : CoefSt) : (s.setCoef b x).regs = s.regs := rfl
@[simp] theorem State.setCoef_effOld (s : State) (b : Nat) (x : CoefSt) : (s.setCoef b x).effOld = s.effOld := rfl
@[simp] theorem State.setCoef_copies (s : State) (b : Nat) (x : CoefSt) : (s.setCoef b x).copies = s.copies := rfl
@[simp] theorem State.setCoef_clk (s : State) (b : Nat) (x : CoefSt) : (s.setCoef b x).clk = s.clk := rfl
@[simp] theorem State.setCoef_evt (s : State) (b : Nat) (x : CoefSt) : (s.setCoef b x).evt = s.evt := rfl
@[simp] theorem State.setCoef_engs (s : State) (b : Nat) (x : CoefSt) : (s.setCoef b x).engs = s.engs := rfl
@[simp] theorem State.setCoef_arb (s : State) (b : Nat) (x : CoefSt) : (s.setCoef b x).arb = s.arb := rfl
@[simp] theorem State.setCoef_sram (s : State) (b : Nat) (x : CoefSt) : (s.setCoef b x).sram = s.sram := rfl
@[simp] theorem State.setCoef_dram (s : State) (b : Nat) (x : CoefSt) : (s.setCoef b x).dram = s.dram := rfl
@[simp] theorem State.setCoef_poison (s : State) (b : Nat) (x : CoefSt) : (s.setCoef b x).poison = s.poison := rfl
@[simp] theorem State.setCoef_sramBad (s : State) (b : Nat) (x : CoefSt) : (s.setCoef b x).sramBad = s.sramBad := rfl
@[simp] theorem State.setCoef_fresh (s : State) (b : Nat) (x : CoefSt) : (s.setCoef b x).fresh = s.fresh := rfl
@[simp] theorem State.setCoef_mode (s : State) (b : Nat) (x : CoefSt) : (s.setCoef b x).mode = s.mode := rfl
@[simp] theorem State.setCoef_cfg (s : State) (b : Nat) (x : CoefSt) : (s.setCoef b x).cfg = s.cfg := rfl
@[simp] theorem State.setCoef_chans (s : State) (b : Nat) (x : CoefSt) : (s.setCoef b x).chans = s.chans := rfl
@[simp] theorem State.setCoef_banks (s : State) (b : Nat) (x : CoefSt) : (s.setCoef b x).banks = s.banks := rfl
@[simp] theorem State.setCoef_flts (s : State) (b : Nat) (x : CoefSt) : (s.setCoef b x).flts = s.flts := rfl
@[simp] theorem State.setCoef_fasts (s : State) (b : Nat) (x : CoefSt) : (s.setCoef b x).fasts = s.fasts := rfl
@[simp] theorem State.setCoef_fabric (s : State) (b : Nat) (x : CoefSt) : (s.setCoef b x).fabric = s.fabric := rfl
@[simp] theorem State.setCoef_cap (s : State) (b : Nat) (x : CoefSt) : (s.setCoef b x).cap = s.cap := rfl
@[simp] theorem State.setCoef_tiv (s : State) (b : Nat) (x : CoefSt) : (s.setCoef b x).tiv = s.tiv := rfl
@[simp] theorem State.setCoef_tbs (s : State) (b : Nat) (x : CoefSt) : (s.setCoef b x).tbs = s.tbs := rfl
@[simp] theorem State.setCoef_pps (s : State) (b : Nat) (x : CoefSt) : (s.setCoef b x).pps = s.pps := rfl
@[simp] theorem State.setCoef_sw (s : State) (b : Nat) (x : CoefSt) : (s.setCoef b x).sw = s.sw := rfl
@[simp] theorem State.setCoef_lanes (s : State) (b : Nat) (x : CoefSt) : (s.setCoef b x).lanes = s.lanes := rfl
@[simp] theorem State.setCoef_strm (s : State) (b : Nat) (x : CoefSt) : (s.setCoef b x).strm = s.strm := rfl
@[simp] theorem State.setCoef_strms (s : State) (b : Nat) (x : CoefSt) : (s.setCoef b x).strms = s.strms := rfl
@[simp] theorem State.setCoef_queues (s : State) (b : Nat) (x : CoefSt) : (s.setCoef b x).queues = s.queues := rfl
@[simp] theorem State.setCoef_qmem (s : State) (b : Nat) (x : CoefSt) : (s.setCoef b x).qmem = s.qmem := rfl
@[simp] theorem State.setCoef_led (s : State) (b : Nat) (x : CoefSt) : (s.setCoef b x).led = s.led := rfl
@[simp] theorem State.setCoef_peerSeq (s : State) (b : Nat) (x : CoefSt) : (s.setCoef b x).peerSeq = s.peerSeq := rfl
@[simp] theorem State.setCoef_pair (s : State) (b : Nat) (x : CoefSt) : (s.setCoef b x).pair = s.pair := rfl
@[simp] theorem State.setCoef_hosts (s : State) (b : Nat) (x : CoefSt) : (s.setCoef b x).hosts = s.hosts := rfl
@[simp] theorem State.setCoef_sp (s : State) (b : Nat) (x : CoefSt) : (s.setCoef b x).sp = s.sp := rfl
@[simp] theorem State.setCoef_ssps (s : State) (b : Nat) (x : CoefSt) : (s.setCoef b x).ssps = s.ssps := rfl
@[simp] theorem State.setCoef_cals (s : State) (b : Nat) (x : CoefSt) : (s.setCoef b x).cals = s.cals := rfl
@[simp] theorem State.setCoef_calh (s : State) (b : Nat) (x : CoefSt) : (s.setCoef b x).calh = s.calh := rfl
@[simp] theorem State.setCoef_upd (s : State) (b : Nat) (x : CoefSt) : (s.setCoef b x).upd = s.upd := rfl
@[simp] theorem State.setCoef_ladder (s : State) (b : Nat) (x : CoefSt) : (s.setCoef b x).ladder = s.ladder := rfl

/-! ### setTb -/

@[simp] theorem State.setTb_pending (s : State) (t : Nat) (x : TbSt) : (s.setTb t x).pending = s.pending := rfl
@[simp] theorem State.setTb_regs (s : State) (t : Nat) (x : TbSt) : (s.setTb t x).regs = s.regs := rfl
@[simp] theorem State.setTb_effOld (s : State) (t : Nat) (x : TbSt) : (s.setTb t x).effOld = s.effOld := rfl
@[simp] theorem State.setTb_copies (s : State) (t : Nat) (x : TbSt) : (s.setTb t x).copies = s.copies := rfl
@[simp] theorem State.setTb_clk (s : State) (t : Nat) (x : TbSt) : (s.setTb t x).clk = s.clk := rfl
@[simp] theorem State.setTb_evt (s : State) (t : Nat) (x : TbSt) : (s.setTb t x).evt = s.evt := rfl
@[simp] theorem State.setTb_engs (s : State) (t : Nat) (x : TbSt) : (s.setTb t x).engs = s.engs := rfl
@[simp] theorem State.setTb_arb (s : State) (t : Nat) (x : TbSt) : (s.setTb t x).arb = s.arb := rfl
@[simp] theorem State.setTb_sram (s : State) (t : Nat) (x : TbSt) : (s.setTb t x).sram = s.sram := rfl
@[simp] theorem State.setTb_dram (s : State) (t : Nat) (x : TbSt) : (s.setTb t x).dram = s.dram := rfl
@[simp] theorem State.setTb_poison (s : State) (t : Nat) (x : TbSt) : (s.setTb t x).poison = s.poison := rfl
@[simp] theorem State.setTb_sramBad (s : State) (t : Nat) (x : TbSt) : (s.setTb t x).sramBad = s.sramBad := rfl
@[simp] theorem State.setTb_fresh (s : State) (t : Nat) (x : TbSt) : (s.setTb t x).fresh = s.fresh := rfl
@[simp] theorem State.setTb_mode (s : State) (t : Nat) (x : TbSt) : (s.setTb t x).mode = s.mode := rfl
@[simp] theorem State.setTb_cfg (s : State) (t : Nat) (x : TbSt) : (s.setTb t x).cfg = s.cfg := rfl
@[simp] theorem State.setTb_chans (s : State) (t : Nat) (x : TbSt) : (s.setTb t x).chans = s.chans := rfl
@[simp] theorem State.setTb_banks (s : State) (t : Nat) (x : TbSt) : (s.setTb t x).banks = s.banks := rfl
@[simp] theorem State.setTb_flts (s : State) (t : Nat) (x : TbSt) : (s.setTb t x).flts = s.flts := rfl
@[simp] theorem State.setTb_coefs (s : State) (t : Nat) (x : TbSt) : (s.setTb t x).coefs = s.coefs := rfl
@[simp] theorem State.setTb_fasts (s : State) (t : Nat) (x : TbSt) : (s.setTb t x).fasts = s.fasts := rfl
@[simp] theorem State.setTb_fabric (s : State) (t : Nat) (x : TbSt) : (s.setTb t x).fabric = s.fabric := rfl
@[simp] theorem State.setTb_cap (s : State) (t : Nat) (x : TbSt) : (s.setTb t x).cap = s.cap := rfl
@[simp] theorem State.setTb_tiv (s : State) (t : Nat) (x : TbSt) : (s.setTb t x).tiv = s.tiv := rfl
@[simp] theorem State.setTb_pps (s : State) (t : Nat) (x : TbSt) : (s.setTb t x).pps = s.pps := rfl
@[simp] theorem State.setTb_sw (s : State) (t : Nat) (x : TbSt) : (s.setTb t x).sw = s.sw := rfl
@[simp] theorem State.setTb_lanes (s : State) (t : Nat) (x : TbSt) : (s.setTb t x).lanes = s.lanes := rfl
@[simp] theorem State.setTb_strm (s : State) (t : Nat) (x : TbSt) : (s.setTb t x).strm = s.strm := rfl
@[simp] theorem State.setTb_strms (s : State) (t : Nat) (x : TbSt) : (s.setTb t x).strms = s.strms := rfl
@[simp] theorem State.setTb_queues (s : State) (t : Nat) (x : TbSt) : (s.setTb t x).queues = s.queues := rfl
@[simp] theorem State.setTb_qmem (s : State) (t : Nat) (x : TbSt) : (s.setTb t x).qmem = s.qmem := rfl
@[simp] theorem State.setTb_led (s : State) (t : Nat) (x : TbSt) : (s.setTb t x).led = s.led := rfl
@[simp] theorem State.setTb_peerSeq (s : State) (t : Nat) (x : TbSt) : (s.setTb t x).peerSeq = s.peerSeq := rfl
@[simp] theorem State.setTb_pair (s : State) (t : Nat) (x : TbSt) : (s.setTb t x).pair = s.pair := rfl
@[simp] theorem State.setTb_hosts (s : State) (t : Nat) (x : TbSt) : (s.setTb t x).hosts = s.hosts := rfl
@[simp] theorem State.setTb_sp (s : State) (t : Nat) (x : TbSt) : (s.setTb t x).sp = s.sp := rfl
@[simp] theorem State.setTb_ssps (s : State) (t : Nat) (x : TbSt) : (s.setTb t x).ssps = s.ssps := rfl
@[simp] theorem State.setTb_cals (s : State) (t : Nat) (x : TbSt) : (s.setTb t x).cals = s.cals := rfl
@[simp] theorem State.setTb_calh (s : State) (t : Nat) (x : TbSt) : (s.setTb t x).calh = s.calh := rfl
@[simp] theorem State.setTb_upd (s : State) (t : Nat) (x : TbSt) : (s.setTb t x).upd = s.upd := rfl
@[simp] theorem State.setTb_ladder (s : State) (t : Nat) (x : TbSt) : (s.setTb t x).ladder = s.ladder := rfl

/-! ### setTiv -/

@[simp] theorem State.setTiv_pending (s : State) (x : TivSt) : (s.setTiv x).pending = s.pending := rfl
@[simp] theorem State.setTiv_regs (s : State) (x : TivSt) : (s.setTiv x).regs = s.regs := rfl
@[simp] theorem State.setTiv_effOld (s : State) (x : TivSt) : (s.setTiv x).effOld = s.effOld := rfl
@[simp] theorem State.setTiv_copies (s : State) (x : TivSt) : (s.setTiv x).copies = s.copies := rfl
@[simp] theorem State.setTiv_clk (s : State) (x : TivSt) : (s.setTiv x).clk = s.clk := rfl
@[simp] theorem State.setTiv_evt (s : State) (x : TivSt) : (s.setTiv x).evt = s.evt := rfl
@[simp] theorem State.setTiv_engs (s : State) (x : TivSt) : (s.setTiv x).engs = s.engs := rfl
@[simp] theorem State.setTiv_arb (s : State) (x : TivSt) : (s.setTiv x).arb = s.arb := rfl
@[simp] theorem State.setTiv_sram (s : State) (x : TivSt) : (s.setTiv x).sram = s.sram := rfl
@[simp] theorem State.setTiv_dram (s : State) (x : TivSt) : (s.setTiv x).dram = s.dram := rfl
@[simp] theorem State.setTiv_poison (s : State) (x : TivSt) : (s.setTiv x).poison = s.poison := rfl
@[simp] theorem State.setTiv_sramBad (s : State) (x : TivSt) : (s.setTiv x).sramBad = s.sramBad := rfl
@[simp] theorem State.setTiv_fresh (s : State) (x : TivSt) : (s.setTiv x).fresh = s.fresh := rfl
@[simp] theorem State.setTiv_mode (s : State) (x : TivSt) : (s.setTiv x).mode = s.mode := rfl
@[simp] theorem State.setTiv_cfg (s : State) (x : TivSt) : (s.setTiv x).cfg = s.cfg := rfl
@[simp] theorem State.setTiv_chans (s : State) (x : TivSt) : (s.setTiv x).chans = s.chans := rfl
@[simp] theorem State.setTiv_banks (s : State) (x : TivSt) : (s.setTiv x).banks = s.banks := rfl
@[simp] theorem State.setTiv_flts (s : State) (x : TivSt) : (s.setTiv x).flts = s.flts := rfl
@[simp] theorem State.setTiv_coefs (s : State) (x : TivSt) : (s.setTiv x).coefs = s.coefs := rfl
@[simp] theorem State.setTiv_fasts (s : State) (x : TivSt) : (s.setTiv x).fasts = s.fasts := rfl
@[simp] theorem State.setTiv_fabric (s : State) (x : TivSt) : (s.setTiv x).fabric = s.fabric := rfl
@[simp] theorem State.setTiv_cap (s : State) (x : TivSt) : (s.setTiv x).cap = s.cap := rfl
@[simp] theorem State.setTiv_tbs (s : State) (x : TivSt) : (s.setTiv x).tbs = s.tbs := rfl
@[simp] theorem State.setTiv_pps (s : State) (x : TivSt) : (s.setTiv x).pps = s.pps := rfl
@[simp] theorem State.setTiv_sw (s : State) (x : TivSt) : (s.setTiv x).sw = s.sw := rfl
@[simp] theorem State.setTiv_lanes (s : State) (x : TivSt) : (s.setTiv x).lanes = s.lanes := rfl
@[simp] theorem State.setTiv_strm (s : State) (x : TivSt) : (s.setTiv x).strm = s.strm := rfl
@[simp] theorem State.setTiv_strms (s : State) (x : TivSt) : (s.setTiv x).strms = s.strms := rfl
@[simp] theorem State.setTiv_queues (s : State) (x : TivSt) : (s.setTiv x).queues = s.queues := rfl
@[simp] theorem State.setTiv_qmem (s : State) (x : TivSt) : (s.setTiv x).qmem = s.qmem := rfl
@[simp] theorem State.setTiv_led (s : State) (x : TivSt) : (s.setTiv x).led = s.led := rfl
@[simp] theorem State.setTiv_peerSeq (s : State) (x : TivSt) : (s.setTiv x).peerSeq = s.peerSeq := rfl
@[simp] theorem State.setTiv_pair (s : State) (x : TivSt) : (s.setTiv x).pair = s.pair := rfl
@[simp] theorem State.setTiv_hosts (s : State) (x : TivSt) : (s.setTiv x).hosts = s.hosts := rfl
@[simp] theorem State.setTiv_sp (s : State) (x : TivSt) : (s.setTiv x).sp = s.sp := rfl
@[simp] theorem State.setTiv_ssps (s : State) (x : TivSt) : (s.setTiv x).ssps = s.ssps := rfl
@[simp] theorem State.setTiv_cals (s : State) (x : TivSt) : (s.setTiv x).cals = s.cals := rfl
@[simp] theorem State.setTiv_calh (s : State) (x : TivSt) : (s.setTiv x).calh = s.calh := rfl
@[simp] theorem State.setTiv_upd (s : State) (x : TivSt) : (s.setTiv x).upd = s.upd := rfl
@[simp] theorem State.setTiv_ladder (s : State) (x : TivSt) : (s.setTiv x).ladder = s.ladder := rfl

/-! ### setUnit -/

@[simp] theorem State.setUnit_pending (s : State) (u : Nat) (x : TrigSt) : (s.setUnit u x).pending = s.pending := rfl
@[simp] theorem State.setUnit_regs (s : State) (u : Nat) (x : TrigSt) : (s.setUnit u x).regs = s.regs := rfl
@[simp] theorem State.setUnit_effOld (s : State) (u : Nat) (x : TrigSt) : (s.setUnit u x).effOld = s.effOld := rfl
@[simp] theorem State.setUnit_copies (s : State) (u : Nat) (x : TrigSt) : (s.setUnit u x).copies = s.copies := rfl
@[simp] theorem State.setUnit_clk (s : State) (u : Nat) (x : TrigSt) : (s.setUnit u x).clk = s.clk := rfl
@[simp] theorem State.setUnit_evt (s : State) (u : Nat) (x : TrigSt) : (s.setUnit u x).evt = s.evt := rfl
@[simp] theorem State.setUnit_engs (s : State) (u : Nat) (x : TrigSt) : (s.setUnit u x).engs = s.engs := rfl
@[simp] theorem State.setUnit_arb (s : State) (u : Nat) (x : TrigSt) : (s.setUnit u x).arb = s.arb := rfl
@[simp] theorem State.setUnit_sram (s : State) (u : Nat) (x : TrigSt) : (s.setUnit u x).sram = s.sram := rfl
@[simp] theorem State.setUnit_dram (s : State) (u : Nat) (x : TrigSt) : (s.setUnit u x).dram = s.dram := rfl
@[simp] theorem State.setUnit_poison (s : State) (u : Nat) (x : TrigSt) : (s.setUnit u x).poison = s.poison := rfl
@[simp] theorem State.setUnit_sramBad (s : State) (u : Nat) (x : TrigSt) : (s.setUnit u x).sramBad = s.sramBad := rfl
@[simp] theorem State.setUnit_fresh (s : State) (u : Nat) (x : TrigSt) : (s.setUnit u x).fresh = s.fresh := rfl
@[simp] theorem State.setUnit_mode (s : State) (u : Nat) (x : TrigSt) : (s.setUnit u x).mode = s.mode := rfl
@[simp] theorem State.setUnit_cfg (s : State) (u : Nat) (x : TrigSt) : (s.setUnit u x).cfg = s.cfg := rfl
@[simp] theorem State.setUnit_chans (s : State) (u : Nat) (x : TrigSt) : (s.setUnit u x).chans = s.chans := rfl
@[simp] theorem State.setUnit_banks (s : State) (u : Nat) (x : TrigSt) : (s.setUnit u x).banks = s.banks := rfl
@[simp] theorem State.setUnit_flts (s : State) (u : Nat) (x : TrigSt) : (s.setUnit u x).flts = s.flts := rfl
@[simp] theorem State.setUnit_coefs (s : State) (u : Nat) (x : TrigSt) : (s.setUnit u x).coefs = s.coefs := rfl
@[simp] theorem State.setUnit_fasts (s : State) (u : Nat) (x : TrigSt) : (s.setUnit u x).fasts = s.fasts := rfl
@[simp] theorem State.setUnit_fabric (s : State) (u : Nat) (x : TrigSt) : (s.setUnit u x).fabric = s.fabric := rfl
@[simp] theorem State.setUnit_tiv (s : State) (u : Nat) (x : TrigSt) : (s.setUnit u x).tiv = s.tiv := rfl
@[simp] theorem State.setUnit_tbs (s : State) (u : Nat) (x : TrigSt) : (s.setUnit u x).tbs = s.tbs := rfl
@[simp] theorem State.setUnit_pps (s : State) (u : Nat) (x : TrigSt) : (s.setUnit u x).pps = s.pps := rfl
@[simp] theorem State.setUnit_sw (s : State) (u : Nat) (x : TrigSt) : (s.setUnit u x).sw = s.sw := rfl
@[simp] theorem State.setUnit_lanes (s : State) (u : Nat) (x : TrigSt) : (s.setUnit u x).lanes = s.lanes := rfl
@[simp] theorem State.setUnit_strm (s : State) (u : Nat) (x : TrigSt) : (s.setUnit u x).strm = s.strm := rfl
@[simp] theorem State.setUnit_strms (s : State) (u : Nat) (x : TrigSt) : (s.setUnit u x).strms = s.strms := rfl
@[simp] theorem State.setUnit_queues (s : State) (u : Nat) (x : TrigSt) : (s.setUnit u x).queues = s.queues := rfl
@[simp] theorem State.setUnit_qmem (s : State) (u : Nat) (x : TrigSt) : (s.setUnit u x).qmem = s.qmem := rfl
@[simp] theorem State.setUnit_led (s : State) (u : Nat) (x : TrigSt) : (s.setUnit u x).led = s.led := rfl
@[simp] theorem State.setUnit_peerSeq (s : State) (u : Nat) (x : TrigSt) : (s.setUnit u x).peerSeq = s.peerSeq := rfl
@[simp] theorem State.setUnit_pair (s : State) (u : Nat) (x : TrigSt) : (s.setUnit u x).pair = s.pair := rfl
@[simp] theorem State.setUnit_hosts (s : State) (u : Nat) (x : TrigSt) : (s.setUnit u x).hosts = s.hosts := rfl
@[simp] theorem State.setUnit_sp (s : State) (u : Nat) (x : TrigSt) : (s.setUnit u x).sp = s.sp := rfl
@[simp] theorem State.setUnit_ssps (s : State) (u : Nat) (x : TrigSt) : (s.setUnit u x).ssps = s.ssps := rfl
@[simp] theorem State.setUnit_cals (s : State) (u : Nat) (x : TrigSt) : (s.setUnit u x).cals = s.cals := rfl
@[simp] theorem State.setUnit_calh (s : State) (u : Nat) (x : TrigSt) : (s.setUnit u x).calh = s.calh := rfl
@[simp] theorem State.setUnit_upd (s : State) (u : Nat) (x : TrigSt) : (s.setUnit u x).upd = s.upd := rfl
@[simp] theorem State.setUnit_ladder (s : State) (u : Nat) (x : TrigSt) : (s.setUnit u x).ladder = s.ladder := rfl

/-! ### setDesc -/

@[simp] theorem State.setDesc_pending (s : State) (i w : Nat) (v : W64) : (s.setDesc i w v).pending = s.pending := rfl
@[simp] theorem State.setDesc_regs (s : State) (i w : Nat) (v : W64) : (s.setDesc i w v).regs = s.regs := rfl
@[simp] theorem State.setDesc_effOld (s : State) (i w : Nat) (v : W64) : (s.setDesc i w v).effOld = s.effOld := rfl
@[simp] theorem State.setDesc_copies (s : State) (i w : Nat) (v : W64) : (s.setDesc i w v).copies = s.copies := rfl
@[simp] theorem State.setDesc_clk (s : State) (i w : Nat) (v : W64) : (s.setDesc i w v).clk = s.clk := rfl
@[simp] theorem State.setDesc_evt (s : State) (i w : Nat) (v : W64) : (s.setDesc i w v).evt = s.evt := rfl
@[simp] theorem State.setDesc_engs (s : State) (i w : Nat) (v : W64) : (s.setDesc i w v).engs = s.engs := rfl
@[simp] theorem State.setDesc_arb (s : State) (i w : Nat) (v : W64) : (s.setDesc i w v).arb = s.arb := rfl
@[simp] theorem State.setDesc_sram (s : State) (i w : Nat) (v : W64) : (s.setDesc i w v).sram = s.sram := rfl
@[simp] theorem State.setDesc_dram (s : State) (i w : Nat) (v : W64) : (s.setDesc i w v).dram = s.dram := rfl
@[simp] theorem State.setDesc_poison (s : State) (i w : Nat) (v : W64) : (s.setDesc i w v).poison = s.poison := rfl
@[simp] theorem State.setDesc_sramBad (s : State) (i w : Nat) (v : W64) : (s.setDesc i w v).sramBad = s.sramBad := rfl
@[simp] theorem State.setDesc_fresh (s : State) (i w : Nat) (v : W64) : (s.setDesc i w v).fresh = s.fresh := rfl
@[simp] theorem State.setDesc_mode (s : State) (i w : Nat) (v : W64) : (s.setDesc i w v).mode = s.mode := rfl
@[simp] theorem State.setDesc_cfg (s : State) (i w : Nat) (v : W64) : (s.setDesc i w v).cfg = s.cfg := rfl
@[simp] theorem State.setDesc_chans (s : State) (i w : Nat) (v : W64) : (s.setDesc i w v).chans = s.chans := rfl
@[simp] theorem State.setDesc_banks (s : State) (i w : Nat) (v : W64) : (s.setDesc i w v).banks = s.banks := rfl
@[simp] theorem State.setDesc_flts (s : State) (i w : Nat) (v : W64) : (s.setDesc i w v).flts = s.flts := rfl
@[simp] theorem State.setDesc_coefs (s : State) (i w : Nat) (v : W64) : (s.setDesc i w v).coefs = s.coefs := rfl
@[simp] theorem State.setDesc_fasts (s : State) (i w : Nat) (v : W64) : (s.setDesc i w v).fasts = s.fasts := rfl
@[simp] theorem State.setDesc_fabric (s : State) (i w : Nat) (v : W64) : (s.setDesc i w v).fabric = s.fabric := rfl
@[simp] theorem State.setDesc_tiv (s : State) (i w : Nat) (v : W64) : (s.setDesc i w v).tiv = s.tiv := rfl
@[simp] theorem State.setDesc_tbs (s : State) (i w : Nat) (v : W64) : (s.setDesc i w v).tbs = s.tbs := rfl
@[simp] theorem State.setDesc_pps (s : State) (i w : Nat) (v : W64) : (s.setDesc i w v).pps = s.pps := rfl
@[simp] theorem State.setDesc_sw (s : State) (i w : Nat) (v : W64) : (s.setDesc i w v).sw = s.sw := rfl
@[simp] theorem State.setDesc_lanes (s : State) (i w : Nat) (v : W64) : (s.setDesc i w v).lanes = s.lanes := rfl
@[simp] theorem State.setDesc_strm (s : State) (i w : Nat) (v : W64) : (s.setDesc i w v).strm = s.strm := rfl
@[simp] theorem State.setDesc_strms (s : State) (i w : Nat) (v : W64) : (s.setDesc i w v).strms = s.strms := rfl
@[simp] theorem State.setDesc_queues (s : State) (i w : Nat) (v : W64) : (s.setDesc i w v).queues = s.queues := rfl
@[simp] theorem State.setDesc_qmem (s : State) (i w : Nat) (v : W64) : (s.setDesc i w v).qmem = s.qmem := rfl
@[simp] theorem State.setDesc_led (s : State) (i w : Nat) (v : W64) : (s.setDesc i w v).led = s.led := rfl
@[simp] theorem State.setDesc_peerSeq (s : State) (i w : Nat) (v : W64) : (s.setDesc i w v).peerSeq = s.peerSeq := rfl
@[simp] theorem State.setDesc_pair (s : State) (i w : Nat) (v : W64) : (s.setDesc i w v).pair = s.pair := rfl
@[simp] theorem State.setDesc_hosts (s : State) (i w : Nat) (v : W64) : (s.setDesc i w v).hosts = s.hosts := rfl
@[simp] theorem State.setDesc_sp (s : State) (i w : Nat) (v : W64) : (s.setDesc i w v).sp = s.sp := rfl
@[simp] theorem State.setDesc_ssps (s : State) (i w : Nat) (v : W64) : (s.setDesc i w v).ssps = s.ssps := rfl
@[simp] theorem State.setDesc_cals (s : State) (i w : Nat) (v : W64) : (s.setDesc i w v).cals = s.cals := rfl
@[simp] theorem State.setDesc_calh (s : State) (i w : Nat) (v : W64) : (s.setDesc i w v).calh = s.calh := rfl
@[simp] theorem State.setDesc_upd (s : State) (i w : Nat) (v : W64) : (s.setDesc i w v).upd = s.upd := rfl
@[simp] theorem State.setDesc_ladder (s : State) (i w : Nat) (v : W64) : (s.setDesc i w v).ladder = s.ladder := rfl

/-! ### setLane -/

@[simp] theorem State.setLane_pending (s : State) (l : Nat) (x : LaneSt) : (s.setLane l x).pending = s.pending := rfl
@[simp] theorem State.setLane_regs (s : State) (l : Nat) (x : LaneSt) : (s.setLane l x).regs = s.regs := rfl
@[simp] theorem State.setLane_effOld (s : State) (l : Nat) (x : LaneSt) : (s.setLane l x).effOld = s.effOld := rfl
@[simp] theorem State.setLane_copies (s : State) (l : Nat) (x : LaneSt) : (s.setLane l x).copies = s.copies := rfl
@[simp] theorem State.setLane_clk (s : State) (l : Nat) (x : LaneSt) : (s.setLane l x).clk = s.clk := rfl
@[simp] theorem State.setLane_evt (s : State) (l : Nat) (x : LaneSt) : (s.setLane l x).evt = s.evt := rfl
@[simp] theorem State.setLane_engs (s : State) (l : Nat) (x : LaneSt) : (s.setLane l x).engs = s.engs := rfl
@[simp] theorem State.setLane_arb (s : State) (l : Nat) (x : LaneSt) : (s.setLane l x).arb = s.arb := rfl
@[simp] theorem State.setLane_sram (s : State) (l : Nat) (x : LaneSt) : (s.setLane l x).sram = s.sram := rfl
@[simp] theorem State.setLane_dram (s : State) (l : Nat) (x : LaneSt) : (s.setLane l x).dram = s.dram := rfl
@[simp] theorem State.setLane_poison (s : State) (l : Nat) (x : LaneSt) : (s.setLane l x).poison = s.poison := rfl
@[simp] theorem State.setLane_sramBad (s : State) (l : Nat) (x : LaneSt) : (s.setLane l x).sramBad = s.sramBad := rfl
@[simp] theorem State.setLane_fresh (s : State) (l : Nat) (x : LaneSt) : (s.setLane l x).fresh = s.fresh := rfl
@[simp] theorem State.setLane_mode (s : State) (l : Nat) (x : LaneSt) : (s.setLane l x).mode = s.mode := rfl
@[simp] theorem State.setLane_cfg (s : State) (l : Nat) (x : LaneSt) : (s.setLane l x).cfg = s.cfg := rfl
@[simp] theorem State.setLane_chans (s : State) (l : Nat) (x : LaneSt) : (s.setLane l x).chans = s.chans := rfl
@[simp] theorem State.setLane_banks (s : State) (l : Nat) (x : LaneSt) : (s.setLane l x).banks = s.banks := rfl
@[simp] theorem State.setLane_flts (s : State) (l : Nat) (x : LaneSt) : (s.setLane l x).flts = s.flts := rfl
@[simp] theorem State.setLane_coefs (s : State) (l : Nat) (x : LaneSt) : (s.setLane l x).coefs = s.coefs := rfl
@[simp] theorem State.setLane_fasts (s : State) (l : Nat) (x : LaneSt) : (s.setLane l x).fasts = s.fasts := rfl
@[simp] theorem State.setLane_fabric (s : State) (l : Nat) (x : LaneSt) : (s.setLane l x).fabric = s.fabric := rfl
@[simp] theorem State.setLane_cap (s : State) (l : Nat) (x : LaneSt) : (s.setLane l x).cap = s.cap := rfl
@[simp] theorem State.setLane_tiv (s : State) (l : Nat) (x : LaneSt) : (s.setLane l x).tiv = s.tiv := rfl
@[simp] theorem State.setLane_tbs (s : State) (l : Nat) (x : LaneSt) : (s.setLane l x).tbs = s.tbs := rfl
@[simp] theorem State.setLane_pps (s : State) (l : Nat) (x : LaneSt) : (s.setLane l x).pps = s.pps := rfl
@[simp] theorem State.setLane_sw (s : State) (l : Nat) (x : LaneSt) : (s.setLane l x).sw = s.sw := rfl
@[simp] theorem State.setLane_strm (s : State) (l : Nat) (x : LaneSt) : (s.setLane l x).strm = s.strm := rfl
@[simp] theorem State.setLane_strms (s : State) (l : Nat) (x : LaneSt) : (s.setLane l x).strms = s.strms := rfl
@[simp] theorem State.setLane_queues (s : State) (l : Nat) (x : LaneSt) : (s.setLane l x).queues = s.queues := rfl
@[simp] theorem State.setLane_qmem (s : State) (l : Nat) (x : LaneSt) : (s.setLane l x).qmem = s.qmem := rfl
@[simp] theorem State.setLane_led (s : State) (l : Nat) (x : LaneSt) : (s.setLane l x).led = s.led := rfl
@[simp] theorem State.setLane_peerSeq (s : State) (l : Nat) (x : LaneSt) : (s.setLane l x).peerSeq = s.peerSeq := rfl
@[simp] theorem State.setLane_pair (s : State) (l : Nat) (x : LaneSt) : (s.setLane l x).pair = s.pair := rfl
@[simp] theorem State.setLane_hosts (s : State) (l : Nat) (x : LaneSt) : (s.setLane l x).hosts = s.hosts := rfl
@[simp] theorem State.setLane_sp (s : State) (l : Nat) (x : LaneSt) : (s.setLane l x).sp = s.sp := rfl
@[simp] theorem State.setLane_ssps (s : State) (l : Nat) (x : LaneSt) : (s.setLane l x).ssps = s.ssps := rfl
@[simp] theorem State.setLane_cals (s : State) (l : Nat) (x : LaneSt) : (s.setLane l x).cals = s.cals := rfl
@[simp] theorem State.setLane_calh (s : State) (l : Nat) (x : LaneSt) : (s.setLane l x).calh = s.calh := rfl
@[simp] theorem State.setLane_upd (s : State) (l : Nat) (x : LaneSt) : (s.setLane l x).upd = s.upd := rfl
@[simp] theorem State.setLane_ladder (s : State) (l : Nat) (x : LaneSt) : (s.setLane l x).ladder = s.ladder := rfl

/-! ### setEgress -/

@[simp] theorem State.setEgress_pending (s : State) (p : Nat) (q : List TxFrame) : (s.setEgress p q).pending = s.pending := rfl
@[simp] theorem State.setEgress_regs (s : State) (p : Nat) (q : List TxFrame) : (s.setEgress p q).regs = s.regs := rfl
@[simp] theorem State.setEgress_effOld (s : State) (p : Nat) (q : List TxFrame) : (s.setEgress p q).effOld = s.effOld := rfl
@[simp] theorem State.setEgress_copies (s : State) (p : Nat) (q : List TxFrame) : (s.setEgress p q).copies = s.copies := rfl
@[simp] theorem State.setEgress_clk (s : State) (p : Nat) (q : List TxFrame) : (s.setEgress p q).clk = s.clk := rfl
@[simp] theorem State.setEgress_evt (s : State) (p : Nat) (q : List TxFrame) : (s.setEgress p q).evt = s.evt := rfl
@[simp] theorem State.setEgress_engs (s : State) (p : Nat) (q : List TxFrame) : (s.setEgress p q).engs = s.engs := rfl
@[simp] theorem State.setEgress_arb (s : State) (p : Nat) (q : List TxFrame) : (s.setEgress p q).arb = s.arb := rfl
@[simp] theorem State.setEgress_sram (s : State) (p : Nat) (q : List TxFrame) : (s.setEgress p q).sram = s.sram := rfl
@[simp] theorem State.setEgress_dram (s : State) (p : Nat) (q : List TxFrame) : (s.setEgress p q).dram = s.dram := rfl
@[simp] theorem State.setEgress_poison (s : State) (p : Nat) (q : List TxFrame) : (s.setEgress p q).poison = s.poison := rfl
@[simp] theorem State.setEgress_sramBad (s : State) (p : Nat) (q : List TxFrame) : (s.setEgress p q).sramBad = s.sramBad := rfl
@[simp] theorem State.setEgress_fresh (s : State) (p : Nat) (q : List TxFrame) : (s.setEgress p q).fresh = s.fresh := rfl
@[simp] theorem State.setEgress_mode (s : State) (p : Nat) (q : List TxFrame) : (s.setEgress p q).mode = s.mode := rfl
@[simp] theorem State.setEgress_cfg (s : State) (p : Nat) (q : List TxFrame) : (s.setEgress p q).cfg = s.cfg := rfl
@[simp] theorem State.setEgress_chans (s : State) (p : Nat) (q : List TxFrame) : (s.setEgress p q).chans = s.chans := rfl
@[simp] theorem State.setEgress_banks (s : State) (p : Nat) (q : List TxFrame) : (s.setEgress p q).banks = s.banks := rfl
@[simp] theorem State.setEgress_flts (s : State) (p : Nat) (q : List TxFrame) : (s.setEgress p q).flts = s.flts := rfl
@[simp] theorem State.setEgress_coefs (s : State) (p : Nat) (q : List TxFrame) : (s.setEgress p q).coefs = s.coefs := rfl
@[simp] theorem State.setEgress_fasts (s : State) (p : Nat) (q : List TxFrame) : (s.setEgress p q).fasts = s.fasts := rfl
@[simp] theorem State.setEgress_fabric (s : State) (p : Nat) (q : List TxFrame) : (s.setEgress p q).fabric = s.fabric := rfl
@[simp] theorem State.setEgress_cap (s : State) (p : Nat) (q : List TxFrame) : (s.setEgress p q).cap = s.cap := rfl
@[simp] theorem State.setEgress_tiv (s : State) (p : Nat) (q : List TxFrame) : (s.setEgress p q).tiv = s.tiv := rfl
@[simp] theorem State.setEgress_tbs (s : State) (p : Nat) (q : List TxFrame) : (s.setEgress p q).tbs = s.tbs := rfl
@[simp] theorem State.setEgress_pps (s : State) (p : Nat) (q : List TxFrame) : (s.setEgress p q).pps = s.pps := rfl
@[simp] theorem State.setEgress_lanes (s : State) (p : Nat) (q : List TxFrame) : (s.setEgress p q).lanes = s.lanes := rfl
@[simp] theorem State.setEgress_strm (s : State) (p : Nat) (q : List TxFrame) : (s.setEgress p q).strm = s.strm := rfl
@[simp] theorem State.setEgress_strms (s : State) (p : Nat) (q : List TxFrame) : (s.setEgress p q).strms = s.strms := rfl
@[simp] theorem State.setEgress_queues (s : State) (p : Nat) (q : List TxFrame) : (s.setEgress p q).queues = s.queues := rfl
@[simp] theorem State.setEgress_qmem (s : State) (p : Nat) (q : List TxFrame) : (s.setEgress p q).qmem = s.qmem := rfl
@[simp] theorem State.setEgress_led (s : State) (p : Nat) (q : List TxFrame) : (s.setEgress p q).led = s.led := rfl
@[simp] theorem State.setEgress_peerSeq (s : State) (p : Nat) (q : List TxFrame) : (s.setEgress p q).peerSeq = s.peerSeq := rfl
@[simp] theorem State.setEgress_pair (s : State) (p : Nat) (q : List TxFrame) : (s.setEgress p q).pair = s.pair := rfl
@[simp] theorem State.setEgress_hosts (s : State) (p : Nat) (q : List TxFrame) : (s.setEgress p q).hosts = s.hosts := rfl
@[simp] theorem State.setEgress_sp (s : State) (p : Nat) (q : List TxFrame) : (s.setEgress p q).sp = s.sp := rfl
@[simp] theorem State.setEgress_ssps (s : State) (p : Nat) (q : List TxFrame) : (s.setEgress p q).ssps = s.ssps := rfl
@[simp] theorem State.setEgress_cals (s : State) (p : Nat) (q : List TxFrame) : (s.setEgress p q).cals = s.cals := rfl
@[simp] theorem State.setEgress_calh (s : State) (p : Nat) (q : List TxFrame) : (s.setEgress p q).calh = s.calh := rfl
@[simp] theorem State.setEgress_upd (s : State) (p : Nat) (q : List TxFrame) : (s.setEgress p q).upd = s.upd := rfl
@[simp] theorem State.setEgress_ladder (s : State) (p : Nat) (q : List TxFrame) : (s.setEgress p q).ladder = s.ladder := rfl

/-! ### setStrmSt -/

@[simp] theorem State.setStrmSt_pending (s : State) (t : Nat) (x : StreamSt) : (s.setStrmSt t x).pending = s.pending := rfl
@[simp] theorem State.setStrmSt_regs (s : State) (t : Nat) (x : StreamSt) : (s.setStrmSt t x).regs = s.regs := rfl
@[simp] theorem State.setStrmSt_effOld (s : State) (t : Nat) (x : StreamSt) : (s.setStrmSt t x).effOld = s.effOld := rfl
@[simp] theorem State.setStrmSt_copies (s : State) (t : Nat) (x : StreamSt) : (s.setStrmSt t x).copies = s.copies := rfl
@[simp] theorem State.setStrmSt_clk (s : State) (t : Nat) (x : StreamSt) : (s.setStrmSt t x).clk = s.clk := rfl
@[simp] theorem State.setStrmSt_evt (s : State) (t : Nat) (x : StreamSt) : (s.setStrmSt t x).evt = s.evt := rfl
@[simp] theorem State.setStrmSt_engs (s : State) (t : Nat) (x : StreamSt) : (s.setStrmSt t x).engs = s.engs := rfl
@[simp] theorem State.setStrmSt_arb (s : State) (t : Nat) (x : StreamSt) : (s.setStrmSt t x).arb = s.arb := rfl
@[simp] theorem State.setStrmSt_sram (s : State) (t : Nat) (x : StreamSt) : (s.setStrmSt t x).sram = s.sram := rfl
@[simp] theorem State.setStrmSt_dram (s : State) (t : Nat) (x : StreamSt) : (s.setStrmSt t x).dram = s.dram := rfl
@[simp] theorem State.setStrmSt_poison (s : State) (t : Nat) (x : StreamSt) : (s.setStrmSt t x).poison = s.poison := rfl
@[simp] theorem State.setStrmSt_sramBad (s : State) (t : Nat) (x : StreamSt) : (s.setStrmSt t x).sramBad = s.sramBad := rfl
@[simp] theorem State.setStrmSt_fresh (s : State) (t : Nat) (x : StreamSt) : (s.setStrmSt t x).fresh = s.fresh := rfl
@[simp] theorem State.setStrmSt_mode (s : State) (t : Nat) (x : StreamSt) : (s.setStrmSt t x).mode = s.mode := rfl
@[simp] theorem State.setStrmSt_cfg (s : State) (t : Nat) (x : StreamSt) : (s.setStrmSt t x).cfg = s.cfg := rfl
@[simp] theorem State.setStrmSt_chans (s : State) (t : Nat) (x : StreamSt) : (s.setStrmSt t x).chans = s.chans := rfl
@[simp] theorem State.setStrmSt_banks (s : State) (t : Nat) (x : StreamSt) : (s.setStrmSt t x).banks = s.banks := rfl
@[simp] theorem State.setStrmSt_flts (s : State) (t : Nat) (x : StreamSt) : (s.setStrmSt t x).flts = s.flts := rfl
@[simp] theorem State.setStrmSt_coefs (s : State) (t : Nat) (x : StreamSt) : (s.setStrmSt t x).coefs = s.coefs := rfl
@[simp] theorem State.setStrmSt_fasts (s : State) (t : Nat) (x : StreamSt) : (s.setStrmSt t x).fasts = s.fasts := rfl
@[simp] theorem State.setStrmSt_fabric (s : State) (t : Nat) (x : StreamSt) : (s.setStrmSt t x).fabric = s.fabric := rfl
@[simp] theorem State.setStrmSt_cap (s : State) (t : Nat) (x : StreamSt) : (s.setStrmSt t x).cap = s.cap := rfl
@[simp] theorem State.setStrmSt_tiv (s : State) (t : Nat) (x : StreamSt) : (s.setStrmSt t x).tiv = s.tiv := rfl
@[simp] theorem State.setStrmSt_tbs (s : State) (t : Nat) (x : StreamSt) : (s.setStrmSt t x).tbs = s.tbs := rfl
@[simp] theorem State.setStrmSt_pps (s : State) (t : Nat) (x : StreamSt) : (s.setStrmSt t x).pps = s.pps := rfl
@[simp] theorem State.setStrmSt_sw (s : State) (t : Nat) (x : StreamSt) : (s.setStrmSt t x).sw = s.sw := rfl
@[simp] theorem State.setStrmSt_lanes (s : State) (t : Nat) (x : StreamSt) : (s.setStrmSt t x).lanes = s.lanes := rfl
@[simp] theorem State.setStrmSt_strm (s : State) (t : Nat) (x : StreamSt) : (s.setStrmSt t x).strm = s.strm := rfl
@[simp] theorem State.setStrmSt_queues (s : State) (t : Nat) (x : StreamSt) : (s.setStrmSt t x).queues = s.queues := rfl
@[simp] theorem State.setStrmSt_qmem (s : State) (t : Nat) (x : StreamSt) : (s.setStrmSt t x).qmem = s.qmem := rfl
@[simp] theorem State.setStrmSt_led (s : State) (t : Nat) (x : StreamSt) : (s.setStrmSt t x).led = s.led := rfl
@[simp] theorem State.setStrmSt_peerSeq (s : State) (t : Nat) (x : StreamSt) : (s.setStrmSt t x).peerSeq = s.peerSeq := rfl
@[simp] theorem State.setStrmSt_pair (s : State) (t : Nat) (x : StreamSt) : (s.setStrmSt t x).pair = s.pair := rfl
@[simp] theorem State.setStrmSt_hosts (s : State) (t : Nat) (x : StreamSt) : (s.setStrmSt t x).hosts = s.hosts := rfl
@[simp] theorem State.setStrmSt_sp (s : State) (t : Nat) (x : StreamSt) : (s.setStrmSt t x).sp = s.sp := rfl
@[simp] theorem State.setStrmSt_ssps (s : State) (t : Nat) (x : StreamSt) : (s.setStrmSt t x).ssps = s.ssps := rfl
@[simp] theorem State.setStrmSt_cals (s : State) (t : Nat) (x : StreamSt) : (s.setStrmSt t x).cals = s.cals := rfl
@[simp] theorem State.setStrmSt_calh (s : State) (t : Nat) (x : StreamSt) : (s.setStrmSt t x).calh = s.calh := rfl
@[simp] theorem State.setStrmSt_upd (s : State) (t : Nat) (x : StreamSt) : (s.setStrmSt t x).upd = s.upd := rfl
@[simp] theorem State.setStrmSt_ladder (s : State) (t : Nat) (x : StreamSt) : (s.setStrmSt t x).ladder = s.ladder := rfl

/-! ### setQue -/

@[simp] theorem State.setQue_pending (s : State) (q : Nat) (x : QueueSt) : (s.setQue q x).pending = s.pending := rfl
@[simp] theorem State.setQue_regs (s : State) (q : Nat) (x : QueueSt) : (s.setQue q x).regs = s.regs := rfl
@[simp] theorem State.setQue_effOld (s : State) (q : Nat) (x : QueueSt) : (s.setQue q x).effOld = s.effOld := rfl
@[simp] theorem State.setQue_copies (s : State) (q : Nat) (x : QueueSt) : (s.setQue q x).copies = s.copies := rfl
@[simp] theorem State.setQue_clk (s : State) (q : Nat) (x : QueueSt) : (s.setQue q x).clk = s.clk := rfl
@[simp] theorem State.setQue_evt (s : State) (q : Nat) (x : QueueSt) : (s.setQue q x).evt = s.evt := rfl
@[simp] theorem State.setQue_engs (s : State) (q : Nat) (x : QueueSt) : (s.setQue q x).engs = s.engs := rfl
@[simp] theorem State.setQue_arb (s : State) (q : Nat) (x : QueueSt) : (s.setQue q x).arb = s.arb := rfl
@[simp] theorem State.setQue_sram (s : State) (q : Nat) (x : QueueSt) : (s.setQue q x).sram = s.sram := rfl
@[simp] theorem State.setQue_dram (s : State) (q : Nat) (x : QueueSt) : (s.setQue q x).dram = s.dram := rfl
@[simp] theorem State.setQue_poison (s : State) (q : Nat) (x : QueueSt) : (s.setQue q x).poison = s.poison := rfl
@[simp] theorem State.setQue_sramBad (s : State) (q : Nat) (x : QueueSt) : (s.setQue q x).sramBad = s.sramBad := rfl
@[simp] theorem State.setQue_fresh (s : State) (q : Nat) (x : QueueSt) : (s.setQue q x).fresh = s.fresh := rfl
@[simp] theorem State.setQue_mode (s : State) (q : Nat) (x : QueueSt) : (s.setQue q x).mode = s.mode := rfl
@[simp] theorem State.setQue_cfg (s : State) (q : Nat) (x : QueueSt) : (s.setQue q x).cfg = s.cfg := rfl
@[simp] theorem State.setQue_chans (s : State) (q : Nat) (x : QueueSt) : (s.setQue q x).chans = s.chans := rfl
@[simp] theorem State.setQue_banks (s : State) (q : Nat) (x : QueueSt) : (s.setQue q x).banks = s.banks := rfl
@[simp] theorem State.setQue_flts (s : State) (q : Nat) (x : QueueSt) : (s.setQue q x).flts = s.flts := rfl
@[simp] theorem State.setQue_coefs (s : State) (q : Nat) (x : QueueSt) : (s.setQue q x).coefs = s.coefs := rfl
@[simp] theorem State.setQue_fasts (s : State) (q : Nat) (x : QueueSt) : (s.setQue q x).fasts = s.fasts := rfl
@[simp] theorem State.setQue_fabric (s : State) (q : Nat) (x : QueueSt) : (s.setQue q x).fabric = s.fabric := rfl
@[simp] theorem State.setQue_cap (s : State) (q : Nat) (x : QueueSt) : (s.setQue q x).cap = s.cap := rfl
@[simp] theorem State.setQue_tiv (s : State) (q : Nat) (x : QueueSt) : (s.setQue q x).tiv = s.tiv := rfl
@[simp] theorem State.setQue_tbs (s : State) (q : Nat) (x : QueueSt) : (s.setQue q x).tbs = s.tbs := rfl
@[simp] theorem State.setQue_pps (s : State) (q : Nat) (x : QueueSt) : (s.setQue q x).pps = s.pps := rfl
@[simp] theorem State.setQue_sw (s : State) (q : Nat) (x : QueueSt) : (s.setQue q x).sw = s.sw := rfl
@[simp] theorem State.setQue_lanes (s : State) (q : Nat) (x : QueueSt) : (s.setQue q x).lanes = s.lanes := rfl
@[simp] theorem State.setQue_strm (s : State) (q : Nat) (x : QueueSt) : (s.setQue q x).strm = s.strm := rfl
@[simp] theorem State.setQue_strms (s : State) (q : Nat) (x : QueueSt) : (s.setQue q x).strms = s.strms := rfl
@[simp] theorem State.setQue_qmem (s : State) (q : Nat) (x : QueueSt) : (s.setQue q x).qmem = s.qmem := rfl
@[simp] theorem State.setQue_led (s : State) (q : Nat) (x : QueueSt) : (s.setQue q x).led = s.led := rfl
@[simp] theorem State.setQue_peerSeq (s : State) (q : Nat) (x : QueueSt) : (s.setQue q x).peerSeq = s.peerSeq := rfl
@[simp] theorem State.setQue_pair (s : State) (q : Nat) (x : QueueSt) : (s.setQue q x).pair = s.pair := rfl
@[simp] theorem State.setQue_hosts (s : State) (q : Nat) (x : QueueSt) : (s.setQue q x).hosts = s.hosts := rfl
@[simp] theorem State.setQue_sp (s : State) (q : Nat) (x : QueueSt) : (s.setQue q x).sp = s.sp := rfl
@[simp] theorem State.setQue_ssps (s : State) (q : Nat) (x : QueueSt) : (s.setQue q x).ssps = s.ssps := rfl
@[simp] theorem State.setQue_cals (s : State) (q : Nat) (x : QueueSt) : (s.setQue q x).cals = s.cals := rfl
@[simp] theorem State.setQue_calh (s : State) (q : Nat) (x : QueueSt) : (s.setQue q x).calh = s.calh := rfl
@[simp] theorem State.setQue_upd (s : State) (q : Nat) (x : QueueSt) : (s.setQue q x).upd = s.upd := rfl
@[simp] theorem State.setQue_ladder (s : State) (q : Nat) (x : QueueSt) : (s.setQue q x).ladder = s.ladder := rfl

/-! ### setHost -/

@[simp] theorem State.setHost_pending (s : State) (l : Nat) (x : HostSt) : (s.setHost l x).pending = s.pending := rfl
@[simp] theorem State.setHost_regs (s : State) (l : Nat) (x : HostSt) : (s.setHost l x).regs = s.regs := rfl
@[simp] theorem State.setHost_effOld (s : State) (l : Nat) (x : HostSt) : (s.setHost l x).effOld = s.effOld := rfl
@[simp] theorem State.setHost_copies (s : State) (l : Nat) (x : HostSt) : (s.setHost l x).copies = s.copies := rfl
@[simp] theorem State.setHost_clk (s : State) (l : Nat) (x : HostSt) : (s.setHost l x).clk = s.clk := rfl
@[simp] theorem State.setHost_evt (s : State) (l : Nat) (x : HostSt) : (s.setHost l x).evt = s.evt := rfl
@[simp] theorem State.setHost_engs (s : State) (l : Nat) (x : HostSt) : (s.setHost l x).engs = s.engs := rfl
@[simp] theorem State.setHost_arb (s : State) (l : Nat) (x : HostSt) : (s.setHost l x).arb = s.arb := rfl
@[simp] theorem State.setHost_sram (s : State) (l : Nat) (x : HostSt) : (s.setHost l x).sram = s.sram := rfl
@[simp] theorem State.setHost_dram (s : State) (l : Nat) (x : HostSt) : (s.setHost l x).dram = s.dram := rfl
@[simp] theorem State.setHost_poison (s : State) (l : Nat) (x : HostSt) : (s.setHost l x).poison = s.poison := rfl
@[simp] theorem State.setHost_sramBad (s : State) (l : Nat) (x : HostSt) : (s.setHost l x).sramBad = s.sramBad := rfl
@[simp] theorem State.setHost_fresh (s : State) (l : Nat) (x : HostSt) : (s.setHost l x).fresh = s.fresh := rfl
@[simp] theorem State.setHost_mode (s : State) (l : Nat) (x : HostSt) : (s.setHost l x).mode = s.mode := rfl
@[simp] theorem State.setHost_cfg (s : State) (l : Nat) (x : HostSt) : (s.setHost l x).cfg = s.cfg := rfl
@[simp] theorem State.setHost_chans (s : State) (l : Nat) (x : HostSt) : (s.setHost l x).chans = s.chans := rfl
@[simp] theorem State.setHost_banks (s : State) (l : Nat) (x : HostSt) : (s.setHost l x).banks = s.banks := rfl
@[simp] theorem State.setHost_flts (s : State) (l : Nat) (x : HostSt) : (s.setHost l x).flts = s.flts := rfl
@[simp] theorem State.setHost_coefs (s : State) (l : Nat) (x : HostSt) : (s.setHost l x).coefs = s.coefs := rfl
@[simp] theorem State.setHost_fasts (s : State) (l : Nat) (x : HostSt) : (s.setHost l x).fasts = s.fasts := rfl
@[simp] theorem State.setHost_fabric (s : State) (l : Nat) (x : HostSt) : (s.setHost l x).fabric = s.fabric := rfl
@[simp] theorem State.setHost_cap (s : State) (l : Nat) (x : HostSt) : (s.setHost l x).cap = s.cap := rfl
@[simp] theorem State.setHost_tiv (s : State) (l : Nat) (x : HostSt) : (s.setHost l x).tiv = s.tiv := rfl
@[simp] theorem State.setHost_tbs (s : State) (l : Nat) (x : HostSt) : (s.setHost l x).tbs = s.tbs := rfl
@[simp] theorem State.setHost_pps (s : State) (l : Nat) (x : HostSt) : (s.setHost l x).pps = s.pps := rfl
@[simp] theorem State.setHost_sw (s : State) (l : Nat) (x : HostSt) : (s.setHost l x).sw = s.sw := rfl
@[simp] theorem State.setHost_lanes (s : State) (l : Nat) (x : HostSt) : (s.setHost l x).lanes = s.lanes := rfl
@[simp] theorem State.setHost_strm (s : State) (l : Nat) (x : HostSt) : (s.setHost l x).strm = s.strm := rfl
@[simp] theorem State.setHost_strms (s : State) (l : Nat) (x : HostSt) : (s.setHost l x).strms = s.strms := rfl
@[simp] theorem State.setHost_queues (s : State) (l : Nat) (x : HostSt) : (s.setHost l x).queues = s.queues := rfl
@[simp] theorem State.setHost_qmem (s : State) (l : Nat) (x : HostSt) : (s.setHost l x).qmem = s.qmem := rfl
@[simp] theorem State.setHost_led (s : State) (l : Nat) (x : HostSt) : (s.setHost l x).led = s.led := rfl
@[simp] theorem State.setHost_peerSeq (s : State) (l : Nat) (x : HostSt) : (s.setHost l x).peerSeq = s.peerSeq := rfl
@[simp] theorem State.setHost_pair (s : State) (l : Nat) (x : HostSt) : (s.setHost l x).pair = s.pair := rfl
@[simp] theorem State.setHost_sp (s : State) (l : Nat) (x : HostSt) : (s.setHost l x).sp = s.sp := rfl
@[simp] theorem State.setHost_ssps (s : State) (l : Nat) (x : HostSt) : (s.setHost l x).ssps = s.ssps := rfl
@[simp] theorem State.setHost_cals (s : State) (l : Nat) (x : HostSt) : (s.setHost l x).cals = s.cals := rfl
@[simp] theorem State.setHost_calh (s : State) (l : Nat) (x : HostSt) : (s.setHost l x).calh = s.calh := rfl
@[simp] theorem State.setHost_upd (s : State) (l : Nat) (x : HostSt) : (s.setHost l x).upd = s.upd := rfl
@[simp] theorem State.setHost_ladder (s : State) (l : Nat) (x : HostSt) : (s.setHost l x).ladder = s.ladder := rfl

/-! ### setSsp -/

@[simp] theorem State.setSsp_pending (s : State) (n : Nat) (x : SspSt) : (s.setSsp n x).pending = s.pending := rfl
@[simp] theorem State.setSsp_regs (s : State) (n : Nat) (x : SspSt) : (s.setSsp n x).regs = s.regs := rfl
@[simp] theorem State.setSsp_effOld (s : State) (n : Nat) (x : SspSt) : (s.setSsp n x).effOld = s.effOld := rfl
@[simp] theorem State.setSsp_copies (s : State) (n : Nat) (x : SspSt) : (s.setSsp n x).copies = s.copies := rfl
@[simp] theorem State.setSsp_clk (s : State) (n : Nat) (x : SspSt) : (s.setSsp n x).clk = s.clk := rfl
@[simp] theorem State.setSsp_evt (s : State) (n : Nat) (x : SspSt) : (s.setSsp n x).evt = s.evt := rfl
@[simp] theorem State.setSsp_engs (s : State) (n : Nat) (x : SspSt) : (s.setSsp n x).engs = s.engs := rfl
@[simp] theorem State.setSsp_arb (s : State) (n : Nat) (x : SspSt) : (s.setSsp n x).arb = s.arb := rfl
@[simp] theorem State.setSsp_sram (s : State) (n : Nat) (x : SspSt) : (s.setSsp n x).sram = s.sram := rfl
@[simp] theorem State.setSsp_dram (s : State) (n : Nat) (x : SspSt) : (s.setSsp n x).dram = s.dram := rfl
@[simp] theorem State.setSsp_poison (s : State) (n : Nat) (x : SspSt) : (s.setSsp n x).poison = s.poison := rfl
@[simp] theorem State.setSsp_sramBad (s : State) (n : Nat) (x : SspSt) : (s.setSsp n x).sramBad = s.sramBad := rfl
@[simp] theorem State.setSsp_fresh (s : State) (n : Nat) (x : SspSt) : (s.setSsp n x).fresh = s.fresh := rfl
@[simp] theorem State.setSsp_mode (s : State) (n : Nat) (x : SspSt) : (s.setSsp n x).mode = s.mode := rfl
@[simp] theorem State.setSsp_cfg (s : State) (n : Nat) (x : SspSt) : (s.setSsp n x).cfg = s.cfg := rfl
@[simp] theorem State.setSsp_chans (s : State) (n : Nat) (x : SspSt) : (s.setSsp n x).chans = s.chans := rfl
@[simp] theorem State.setSsp_banks (s : State) (n : Nat) (x : SspSt) : (s.setSsp n x).banks = s.banks := rfl
@[simp] theorem State.setSsp_flts (s : State) (n : Nat) (x : SspSt) : (s.setSsp n x).flts = s.flts := rfl
@[simp] theorem State.setSsp_coefs (s : State) (n : Nat) (x : SspSt) : (s.setSsp n x).coefs = s.coefs := rfl
@[simp] theorem State.setSsp_fasts (s : State) (n : Nat) (x : SspSt) : (s.setSsp n x).fasts = s.fasts := rfl
@[simp] theorem State.setSsp_fabric (s : State) (n : Nat) (x : SspSt) : (s.setSsp n x).fabric = s.fabric := rfl
@[simp] theorem State.setSsp_cap (s : State) (n : Nat) (x : SspSt) : (s.setSsp n x).cap = s.cap := rfl
@[simp] theorem State.setSsp_tiv (s : State) (n : Nat) (x : SspSt) : (s.setSsp n x).tiv = s.tiv := rfl
@[simp] theorem State.setSsp_tbs (s : State) (n : Nat) (x : SspSt) : (s.setSsp n x).tbs = s.tbs := rfl
@[simp] theorem State.setSsp_pps (s : State) (n : Nat) (x : SspSt) : (s.setSsp n x).pps = s.pps := rfl
@[simp] theorem State.setSsp_sw (s : State) (n : Nat) (x : SspSt) : (s.setSsp n x).sw = s.sw := rfl
@[simp] theorem State.setSsp_lanes (s : State) (n : Nat) (x : SspSt) : (s.setSsp n x).lanes = s.lanes := rfl
@[simp] theorem State.setSsp_strm (s : State) (n : Nat) (x : SspSt) : (s.setSsp n x).strm = s.strm := rfl
@[simp] theorem State.setSsp_strms (s : State) (n : Nat) (x : SspSt) : (s.setSsp n x).strms = s.strms := rfl
@[simp] theorem State.setSsp_queues (s : State) (n : Nat) (x : SspSt) : (s.setSsp n x).queues = s.queues := rfl
@[simp] theorem State.setSsp_qmem (s : State) (n : Nat) (x : SspSt) : (s.setSsp n x).qmem = s.qmem := rfl
@[simp] theorem State.setSsp_led (s : State) (n : Nat) (x : SspSt) : (s.setSsp n x).led = s.led := rfl
@[simp] theorem State.setSsp_peerSeq (s : State) (n : Nat) (x : SspSt) : (s.setSsp n x).peerSeq = s.peerSeq := rfl
@[simp] theorem State.setSsp_pair (s : State) (n : Nat) (x : SspSt) : (s.setSsp n x).pair = s.pair := rfl
@[simp] theorem State.setSsp_hosts (s : State) (n : Nat) (x : SspSt) : (s.setSsp n x).hosts = s.hosts := rfl
@[simp] theorem State.setSsp_sp (s : State) (n : Nat) (x : SspSt) : (s.setSsp n x).sp = s.sp := rfl
@[simp] theorem State.setSsp_cals (s : State) (n : Nat) (x : SspSt) : (s.setSsp n x).cals = s.cals := rfl
@[simp] theorem State.setSsp_calh (s : State) (n : Nat) (x : SspSt) : (s.setSsp n x).calh = s.calh := rfl
@[simp] theorem State.setSsp_upd (s : State) (n : Nat) (x : SspSt) : (s.setSsp n x).upd = s.upd := rfl
@[simp] theorem State.setSsp_ladder (s : State) (n : Nat) (x : SspSt) : (s.setSsp n x).ladder = s.ladder := rfl

/-! ### setCal -/

@[simp] theorem State.setCal_pending (s : State) (b : Nat) (x : CalSt) : (s.setCal b x).pending = s.pending := rfl
@[simp] theorem State.setCal_regs (s : State) (b : Nat) (x : CalSt) : (s.setCal b x).regs = s.regs := rfl
@[simp] theorem State.setCal_effOld (s : State) (b : Nat) (x : CalSt) : (s.setCal b x).effOld = s.effOld := rfl
@[simp] theorem State.setCal_copies (s : State) (b : Nat) (x : CalSt) : (s.setCal b x).copies = s.copies := rfl
@[simp] theorem State.setCal_clk (s : State) (b : Nat) (x : CalSt) : (s.setCal b x).clk = s.clk := rfl
@[simp] theorem State.setCal_evt (s : State) (b : Nat) (x : CalSt) : (s.setCal b x).evt = s.evt := rfl
@[simp] theorem State.setCal_engs (s : State) (b : Nat) (x : CalSt) : (s.setCal b x).engs = s.engs := rfl
@[simp] theorem State.setCal_arb (s : State) (b : Nat) (x : CalSt) : (s.setCal b x).arb = s.arb := rfl
@[simp] theorem State.setCal_sram (s : State) (b : Nat) (x : CalSt) : (s.setCal b x).sram = s.sram := rfl
@[simp] theorem State.setCal_dram (s : State) (b : Nat) (x : CalSt) : (s.setCal b x).dram = s.dram := rfl
@[simp] theorem State.setCal_poison (s : State) (b : Nat) (x : CalSt) : (s.setCal b x).poison = s.poison := rfl
@[simp] theorem State.setCal_sramBad (s : State) (b : Nat) (x : CalSt) : (s.setCal b x).sramBad = s.sramBad := rfl
@[simp] theorem State.setCal_fresh (s : State) (b : Nat) (x : CalSt) : (s.setCal b x).fresh = s.fresh := rfl
@[simp] theorem State.setCal_mode (s : State) (b : Nat) (x : CalSt) : (s.setCal b x).mode = s.mode := rfl
@[simp] theorem State.setCal_cfg (s : State) (b : Nat) (x : CalSt) : (s.setCal b x).cfg = s.cfg := rfl
@[simp] theorem State.setCal_chans (s : State) (b : Nat) (x : CalSt) : (s.setCal b x).chans = s.chans := rfl
@[simp] theorem State.setCal_banks (s : State) (b : Nat) (x : CalSt) : (s.setCal b x).banks = s.banks := rfl
@[simp] theorem State.setCal_flts (s : State) (b : Nat) (x : CalSt) : (s.setCal b x).flts = s.flts := rfl
@[simp] theorem State.setCal_coefs (s : State) (b : Nat) (x : CalSt) : (s.setCal b x).coefs = s.coefs := rfl
@[simp] theorem State.setCal_fasts (s : State) (b : Nat) (x : CalSt) : (s.setCal b x).fasts = s.fasts := rfl
@[simp] theorem State.setCal_fabric (s : State) (b : Nat) (x : CalSt) : (s.setCal b x).fabric = s.fabric := rfl
@[simp] theorem State.setCal_cap (s : State) (b : Nat) (x : CalSt) : (s.setCal b x).cap = s.cap := rfl
@[simp] theorem State.setCal_tiv (s : State) (b : Nat) (x : CalSt) : (s.setCal b x).tiv = s.tiv := rfl
@[simp] theorem State.setCal_tbs (s : State) (b : Nat) (x : CalSt) : (s.setCal b x).tbs = s.tbs := rfl
@[simp] theorem State.setCal_pps (s : State) (b : Nat) (x : CalSt) : (s.setCal b x).pps = s.pps := rfl
@[simp] theorem State.setCal_sw (s : State) (b : Nat) (x : CalSt) : (s.setCal b x).sw = s.sw := rfl
@[simp] theorem State.setCal_lanes (s : State) (b : Nat) (x : CalSt) : (s.setCal b x).lanes = s.lanes := rfl
@[simp] theorem State.setCal_strm (s : State) (b : Nat) (x : CalSt) : (s.setCal b x).strm = s.strm := rfl
@[simp] theorem State.setCal_strms (s : State) (b : Nat) (x : CalSt) : (s.setCal b x).strms = s.strms := rfl
@[simp] theorem State.setCal_queues (s : State) (b : Nat) (x : CalSt) : (s.setCal b x).queues = s.queues := rfl
@[simp] theorem State.setCal_qmem (s : State) (b : Nat) (x : CalSt) : (s.setCal b x).qmem = s.qmem := rfl
@[simp] theorem State.setCal_led (s : State) (b : Nat) (x : CalSt) : (s.setCal b x).led = s.led := rfl
@[simp] theorem State.setCal_peerSeq (s : State) (b : Nat) (x : CalSt) : (s.setCal b x).peerSeq = s.peerSeq := rfl
@[simp] theorem State.setCal_pair (s : State) (b : Nat) (x : CalSt) : (s.setCal b x).pair = s.pair := rfl
@[simp] theorem State.setCal_hosts (s : State) (b : Nat) (x : CalSt) : (s.setCal b x).hosts = s.hosts := rfl
@[simp] theorem State.setCal_sp (s : State) (b : Nat) (x : CalSt) : (s.setCal b x).sp = s.sp := rfl
@[simp] theorem State.setCal_ssps (s : State) (b : Nat) (x : CalSt) : (s.setCal b x).ssps = s.ssps := rfl
@[simp] theorem State.setCal_calh (s : State) (b : Nat) (x : CalSt) : (s.setCal b x).calh = s.calh := rfl
@[simp] theorem State.setCal_upd (s : State) (b : Nat) (x : CalSt) : (s.setCal b x).upd = s.upd := rfl
@[simp] theorem State.setCal_ladder (s : State) (b : Nat) (x : CalSt) : (s.setCal b x).ladder = s.ladder := rfl

/-! ### setCalh -/

@[simp] theorem State.setCalh_pending (s : State) (x : CalHub) : (s.setCalh x).pending = s.pending := rfl
@[simp] theorem State.setCalh_regs (s : State) (x : CalHub) : (s.setCalh x).regs = s.regs := rfl
@[simp] theorem State.setCalh_effOld (s : State) (x : CalHub) : (s.setCalh x).effOld = s.effOld := rfl
@[simp] theorem State.setCalh_copies (s : State) (x : CalHub) : (s.setCalh x).copies = s.copies := rfl
@[simp] theorem State.setCalh_clk (s : State) (x : CalHub) : (s.setCalh x).clk = s.clk := rfl
@[simp] theorem State.setCalh_evt (s : State) (x : CalHub) : (s.setCalh x).evt = s.evt := rfl
@[simp] theorem State.setCalh_engs (s : State) (x : CalHub) : (s.setCalh x).engs = s.engs := rfl
@[simp] theorem State.setCalh_arb (s : State) (x : CalHub) : (s.setCalh x).arb = s.arb := rfl
@[simp] theorem State.setCalh_sram (s : State) (x : CalHub) : (s.setCalh x).sram = s.sram := rfl
@[simp] theorem State.setCalh_dram (s : State) (x : CalHub) : (s.setCalh x).dram = s.dram := rfl
@[simp] theorem State.setCalh_poison (s : State) (x : CalHub) : (s.setCalh x).poison = s.poison := rfl
@[simp] theorem State.setCalh_sramBad (s : State) (x : CalHub) : (s.setCalh x).sramBad = s.sramBad := rfl
@[simp] theorem State.setCalh_fresh (s : State) (x : CalHub) : (s.setCalh x).fresh = s.fresh := rfl
@[simp] theorem State.setCalh_mode (s : State) (x : CalHub) : (s.setCalh x).mode = s.mode := rfl
@[simp] theorem State.setCalh_cfg (s : State) (x : CalHub) : (s.setCalh x).cfg = s.cfg := rfl
@[simp] theorem State.setCalh_chans (s : State) (x : CalHub) : (s.setCalh x).chans = s.chans := rfl
@[simp] theorem State.setCalh_banks (s : State) (x : CalHub) : (s.setCalh x).banks = s.banks := rfl
@[simp] theorem State.setCalh_flts (s : State) (x : CalHub) : (s.setCalh x).flts = s.flts := rfl
@[simp] theorem State.setCalh_coefs (s : State) (x : CalHub) : (s.setCalh x).coefs = s.coefs := rfl
@[simp] theorem State.setCalh_fasts (s : State) (x : CalHub) : (s.setCalh x).fasts = s.fasts := rfl
@[simp] theorem State.setCalh_fabric (s : State) (x : CalHub) : (s.setCalh x).fabric = s.fabric := rfl
@[simp] theorem State.setCalh_cap (s : State) (x : CalHub) : (s.setCalh x).cap = s.cap := rfl
@[simp] theorem State.setCalh_tiv (s : State) (x : CalHub) : (s.setCalh x).tiv = s.tiv := rfl
@[simp] theorem State.setCalh_tbs (s : State) (x : CalHub) : (s.setCalh x).tbs = s.tbs := rfl
@[simp] theorem State.setCalh_pps (s : State) (x : CalHub) : (s.setCalh x).pps = s.pps := rfl
@[simp] theorem State.setCalh_sw (s : State) (x : CalHub) : (s.setCalh x).sw = s.sw := rfl
@[simp] theorem State.setCalh_lanes (s : State) (x : CalHub) : (s.setCalh x).lanes = s.lanes := rfl
@[simp] theorem State.setCalh_strm (s : State) (x : CalHub) : (s.setCalh x).strm = s.strm := rfl
@[simp] theorem State.setCalh_strms (s : State) (x : CalHub) : (s.setCalh x).strms = s.strms := rfl
@[simp] theorem State.setCalh_queues (s : State) (x : CalHub) : (s.setCalh x).queues = s.queues := rfl
@[simp] theorem State.setCalh_qmem (s : State) (x : CalHub) : (s.setCalh x).qmem = s.qmem := rfl
@[simp] theorem State.setCalh_led (s : State) (x : CalHub) : (s.setCalh x).led = s.led := rfl
@[simp] theorem State.setCalh_peerSeq (s : State) (x : CalHub) : (s.setCalh x).peerSeq = s.peerSeq := rfl
@[simp] theorem State.setCalh_pair (s : State) (x : CalHub) : (s.setCalh x).pair = s.pair := rfl
@[simp] theorem State.setCalh_hosts (s : State) (x : CalHub) : (s.setCalh x).hosts = s.hosts := rfl
@[simp] theorem State.setCalh_sp (s : State) (x : CalHub) : (s.setCalh x).sp = s.sp := rfl
@[simp] theorem State.setCalh_ssps (s : State) (x : CalHub) : (s.setCalh x).ssps = s.ssps := rfl
@[simp] theorem State.setCalh_cals (s : State) (x : CalHub) : (s.setCalh x).cals = s.cals := rfl
@[simp] theorem State.setCalh_upd (s : State) (x : CalHub) : (s.setCalh x).upd = s.upd := rfl
@[simp] theorem State.setCalh_ladder (s : State) (x : CalHub) : (s.setCalh x).ladder = s.ladder := rfl

/-! ### setUpd -/

@[simp] theorem State.setUpd_pending (s : State) (x : UpdSt) : (s.setUpd x).pending = s.pending := rfl
@[simp] theorem State.setUpd_regs (s : State) (x : UpdSt) : (s.setUpd x).regs = s.regs := rfl
@[simp] theorem State.setUpd_effOld (s : State) (x : UpdSt) : (s.setUpd x).effOld = s.effOld := rfl
@[simp] theorem State.setUpd_copies (s : State) (x : UpdSt) : (s.setUpd x).copies = s.copies := rfl
@[simp] theorem State.setUpd_clk (s : State) (x : UpdSt) : (s.setUpd x).clk = s.clk := rfl
@[simp] theorem State.setUpd_evt (s : State) (x : UpdSt) : (s.setUpd x).evt = s.evt := rfl
@[simp] theorem State.setUpd_engs (s : State) (x : UpdSt) : (s.setUpd x).engs = s.engs := rfl
@[simp] theorem State.setUpd_arb (s : State) (x : UpdSt) : (s.setUpd x).arb = s.arb := rfl
@[simp] theorem State.setUpd_sram (s : State) (x : UpdSt) : (s.setUpd x).sram = s.sram := rfl
@[simp] theorem State.setUpd_dram (s : State) (x : UpdSt) : (s.setUpd x).dram = s.dram := rfl
@[simp] theorem State.setUpd_poison (s : State) (x : UpdSt) : (s.setUpd x).poison = s.poison := rfl
@[simp] theorem State.setUpd_sramBad (s : State) (x : UpdSt) : (s.setUpd x).sramBad = s.sramBad := rfl
@[simp] theorem State.setUpd_fresh (s : State) (x : UpdSt) : (s.setUpd x).fresh = s.fresh := rfl
@[simp] theorem State.setUpd_mode (s : State) (x : UpdSt) : (s.setUpd x).mode = s.mode := rfl
@[simp] theorem State.setUpd_cfg (s : State) (x : UpdSt) : (s.setUpd x).cfg = s.cfg := rfl
@[simp] theorem State.setUpd_chans (s : State) (x : UpdSt) : (s.setUpd x).chans = s.chans := rfl
@[simp] theorem State.setUpd_banks (s : State) (x : UpdSt) : (s.setUpd x).banks = s.banks := rfl
@[simp] theorem State.setUpd_flts (s : State) (x : UpdSt) : (s.setUpd x).flts = s.flts := rfl
@[simp] theorem State.setUpd_coefs (s : State) (x : UpdSt) : (s.setUpd x).coefs = s.coefs := rfl
@[simp] theorem State.setUpd_fasts (s : State) (x : UpdSt) : (s.setUpd x).fasts = s.fasts := rfl
@[simp] theorem State.setUpd_fabric (s : State) (x : UpdSt) : (s.setUpd x).fabric = s.fabric := rfl
@[simp] theorem State.setUpd_cap (s : State) (x : UpdSt) : (s.setUpd x).cap = s.cap := rfl
@[simp] theorem State.setUpd_tiv (s : State) (x : UpdSt) : (s.setUpd x).tiv = s.tiv := rfl
@[simp] theorem State.setUpd_tbs (s : State) (x : UpdSt) : (s.setUpd x).tbs = s.tbs := rfl
@[simp] theorem State.setUpd_pps (s : State) (x : UpdSt) : (s.setUpd x).pps = s.pps := rfl
@[simp] theorem State.setUpd_sw (s : State) (x : UpdSt) : (s.setUpd x).sw = s.sw := rfl
@[simp] theorem State.setUpd_lanes (s : State) (x : UpdSt) : (s.setUpd x).lanes = s.lanes := rfl
@[simp] theorem State.setUpd_strm (s : State) (x : UpdSt) : (s.setUpd x).strm = s.strm := rfl
@[simp] theorem State.setUpd_strms (s : State) (x : UpdSt) : (s.setUpd x).strms = s.strms := rfl
@[simp] theorem State.setUpd_queues (s : State) (x : UpdSt) : (s.setUpd x).queues = s.queues := rfl
@[simp] theorem State.setUpd_qmem (s : State) (x : UpdSt) : (s.setUpd x).qmem = s.qmem := rfl
@[simp] theorem State.setUpd_led (s : State) (x : UpdSt) : (s.setUpd x).led = s.led := rfl
@[simp] theorem State.setUpd_peerSeq (s : State) (x : UpdSt) : (s.setUpd x).peerSeq = s.peerSeq := rfl
@[simp] theorem State.setUpd_pair (s : State) (x : UpdSt) : (s.setUpd x).pair = s.pair := rfl
@[simp] theorem State.setUpd_hosts (s : State) (x : UpdSt) : (s.setUpd x).hosts = s.hosts := rfl
@[simp] theorem State.setUpd_sp (s : State) (x : UpdSt) : (s.setUpd x).sp = s.sp := rfl
@[simp] theorem State.setUpd_ssps (s : State) (x : UpdSt) : (s.setUpd x).ssps = s.ssps := rfl
@[simp] theorem State.setUpd_cals (s : State) (x : UpdSt) : (s.setUpd x).cals = s.cals := rfl
@[simp] theorem State.setUpd_calh (s : State) (x : UpdSt) : (s.setUpd x).calh = s.calh := rfl
@[simp] theorem State.setUpd_ladder (s : State) (x : UpdSt) : (s.setUpd x).ladder = s.ladder := rfl

/-! ### setStore -/

@[simp] theorem State.setStore_pending (s : State) (k : Nat) (x : CfgStore) : (s.setStore k x).pending = s.pending := rfl
@[simp] theorem State.setStore_regs (s : State) (k : Nat) (x : CfgStore) : (s.setStore k x).regs = s.regs := rfl
@[simp] theorem State.setStore_effOld (s : State) (k : Nat) (x : CfgStore) : (s.setStore k x).effOld = s.effOld := rfl
@[simp] theorem State.setStore_copies (s : State) (k : Nat) (x : CfgStore) : (s.setStore k x).copies = s.copies := rfl
@[simp] theorem State.setStore_clk (s : State) (k : Nat) (x : CfgStore) : (s.setStore k x).clk = s.clk := rfl
@[simp] theorem State.setStore_evt (s : State) (k : Nat) (x : CfgStore) : (s.setStore k x).evt = s.evt := rfl
@[simp] theorem State.setStore_engs (s : State) (k : Nat) (x : CfgStore) : (s.setStore k x).engs = s.engs := rfl
@[simp] theorem State.setStore_arb (s : State) (k : Nat) (x : CfgStore) : (s.setStore k x).arb = s.arb := rfl
@[simp] theorem State.setStore_sram (s : State) (k : Nat) (x : CfgStore) : (s.setStore k x).sram = s.sram := rfl
@[simp] theorem State.setStore_dram (s : State) (k : Nat) (x : CfgStore) : (s.setStore k x).dram = s.dram := rfl
@[simp] theorem State.setStore_poison (s : State) (k : Nat) (x : CfgStore) : (s.setStore k x).poison = s.poison := rfl
@[simp] theorem State.setStore_sramBad (s : State) (k : Nat) (x : CfgStore) : (s.setStore k x).sramBad = s.sramBad := rfl
@[simp] theorem State.setStore_fresh (s : State) (k : Nat) (x : CfgStore) : (s.setStore k x).fresh = s.fresh := rfl
@[simp] theorem State.setStore_mode (s : State) (k : Nat) (x : CfgStore) : (s.setStore k x).mode = s.mode := rfl
@[simp] theorem State.setStore_chans (s : State) (k : Nat) (x : CfgStore) : (s.setStore k x).chans = s.chans := rfl
@[simp] theorem State.setStore_banks (s : State) (k : Nat) (x : CfgStore) : (s.setStore k x).banks = s.banks := rfl
@[simp] theorem State.setStore_flts (s : State) (k : Nat) (x : CfgStore) : (s.setStore k x).flts = s.flts := rfl
@[simp] theorem State.setStore_coefs (s : State) (k : Nat) (x : CfgStore) : (s.setStore k x).coefs = s.coefs := rfl
@[simp] theorem State.setStore_fasts (s : State) (k : Nat) (x : CfgStore) : (s.setStore k x).fasts = s.fasts := rfl
@[simp] theorem State.setStore_fabric (s : State) (k : Nat) (x : CfgStore) : (s.setStore k x).fabric = s.fabric := rfl
@[simp] theorem State.setStore_cap (s : State) (k : Nat) (x : CfgStore) : (s.setStore k x).cap = s.cap := rfl
@[simp] theorem State.setStore_tiv (s : State) (k : Nat) (x : CfgStore) : (s.setStore k x).tiv = s.tiv := rfl
@[simp] theorem State.setStore_tbs (s : State) (k : Nat) (x : CfgStore) : (s.setStore k x).tbs = s.tbs := rfl
@[simp] theorem State.setStore_pps (s : State) (k : Nat) (x : CfgStore) : (s.setStore k x).pps = s.pps := rfl
@[simp] theorem State.setStore_sw (s : State) (k : Nat) (x : CfgStore) : (s.setStore k x).sw = s.sw := rfl
@[simp] theorem State.setStore_lanes (s : State) (k : Nat) (x : CfgStore) : (s.setStore k x).lanes = s.lanes := rfl
@[simp] theorem State.setStore_strm (s : State) (k : Nat) (x : CfgStore) : (s.setStore k x).strm = s.strm := rfl
@[simp] theorem State.setStore_strms (s : State) (k : Nat) (x : CfgStore) : (s.setStore k x).strms = s.strms := rfl
@[simp] theorem State.setStore_queues (s : State) (k : Nat) (x : CfgStore) : (s.setStore k x).queues = s.queues := rfl
@[simp] theorem State.setStore_qmem (s : State) (k : Nat) (x : CfgStore) : (s.setStore k x).qmem = s.qmem := rfl
@[simp] theorem State.setStore_led (s : State) (k : Nat) (x : CfgStore) : (s.setStore k x).led = s.led := rfl
@[simp] theorem State.setStore_peerSeq (s : State) (k : Nat) (x : CfgStore) : (s.setStore k x).peerSeq = s.peerSeq := rfl
@[simp] theorem State.setStore_pair (s : State) (k : Nat) (x : CfgStore) : (s.setStore k x).pair = s.pair := rfl
@[simp] theorem State.setStore_hosts (s : State) (k : Nat) (x : CfgStore) : (s.setStore k x).hosts = s.hosts := rfl
@[simp] theorem State.setStore_sp (s : State) (k : Nat) (x : CfgStore) : (s.setStore k x).sp = s.sp := rfl
@[simp] theorem State.setStore_ssps (s : State) (k : Nat) (x : CfgStore) : (s.setStore k x).ssps = s.ssps := rfl
@[simp] theorem State.setStore_cals (s : State) (k : Nat) (x : CfgStore) : (s.setStore k x).cals = s.cals := rfl
@[simp] theorem State.setStore_calh (s : State) (k : Nat) (x : CfgStore) : (s.setStore k x).calh = s.calh := rfl
@[simp] theorem State.setStore_upd (s : State) (k : Nat) (x : CfgStore) : (s.setStore k x).upd = s.upd := rfl
@[simp] theorem State.setStore_ladder (s : State) (k : Nat) (x : CfgStore) : (s.setStore k x).ladder = s.ladder := rfl

/-! ### toPhase -/

@[simp] theorem State.toPhase_pending (s : State) (p : Phase) : (s.toPhase p).pending = s.pending := rfl
@[simp] theorem State.toPhase_regs (s : State) (p : Phase) : (s.toPhase p).regs = s.regs := rfl
@[simp] theorem State.toPhase_effOld (s : State) (p : Phase) : (s.toPhase p).effOld = s.effOld := rfl
@[simp] theorem State.toPhase_copies (s : State) (p : Phase) : (s.toPhase p).copies = s.copies := rfl
@[simp] theorem State.toPhase_clk (s : State) (p : Phase) : (s.toPhase p).clk = s.clk := rfl
@[simp] theorem State.toPhase_evt (s : State) (p : Phase) : (s.toPhase p).evt = s.evt := rfl
@[simp] theorem State.toPhase_engs (s : State) (p : Phase) : (s.toPhase p).engs = s.engs := rfl
@[simp] theorem State.toPhase_arb (s : State) (p : Phase) : (s.toPhase p).arb = s.arb := rfl
@[simp] theorem State.toPhase_sram (s : State) (p : Phase) : (s.toPhase p).sram = s.sram := rfl
@[simp] theorem State.toPhase_dram (s : State) (p : Phase) : (s.toPhase p).dram = s.dram := rfl
@[simp] theorem State.toPhase_poison (s : State) (p : Phase) : (s.toPhase p).poison = s.poison := rfl
@[simp] theorem State.toPhase_sramBad (s : State) (p : Phase) : (s.toPhase p).sramBad = s.sramBad := rfl
@[simp] theorem State.toPhase_fresh (s : State) (p : Phase) : (s.toPhase p).fresh = s.fresh := rfl
@[simp] theorem State.toPhase_cfg (s : State) (p : Phase) : (s.toPhase p).cfg = s.cfg := rfl
@[simp] theorem State.toPhase_chans (s : State) (p : Phase) : (s.toPhase p).chans = s.chans := rfl
@[simp] theorem State.toPhase_banks (s : State) (p : Phase) : (s.toPhase p).banks = s.banks := rfl
@[simp] theorem State.toPhase_flts (s : State) (p : Phase) : (s.toPhase p).flts = s.flts := rfl
@[simp] theorem State.toPhase_coefs (s : State) (p : Phase) : (s.toPhase p).coefs = s.coefs := rfl
@[simp] theorem State.toPhase_fasts (s : State) (p : Phase) : (s.toPhase p).fasts = s.fasts := rfl
@[simp] theorem State.toPhase_fabric (s : State) (p : Phase) : (s.toPhase p).fabric = s.fabric := rfl
@[simp] theorem State.toPhase_cap (s : State) (p : Phase) : (s.toPhase p).cap = s.cap := rfl
@[simp] theorem State.toPhase_tiv (s : State) (p : Phase) : (s.toPhase p).tiv = s.tiv := rfl
@[simp] theorem State.toPhase_tbs (s : State) (p : Phase) : (s.toPhase p).tbs = s.tbs := rfl
@[simp] theorem State.toPhase_pps (s : State) (p : Phase) : (s.toPhase p).pps = s.pps := rfl
@[simp] theorem State.toPhase_sw (s : State) (p : Phase) : (s.toPhase p).sw = s.sw := rfl
@[simp] theorem State.toPhase_lanes (s : State) (p : Phase) : (s.toPhase p).lanes = s.lanes := rfl
@[simp] theorem State.toPhase_strm (s : State) (p : Phase) : (s.toPhase p).strm = s.strm := rfl
@[simp] theorem State.toPhase_strms (s : State) (p : Phase) : (s.toPhase p).strms = s.strms := rfl
@[simp] theorem State.toPhase_queues (s : State) (p : Phase) : (s.toPhase p).queues = s.queues := rfl
@[simp] theorem State.toPhase_qmem (s : State) (p : Phase) : (s.toPhase p).qmem = s.qmem := rfl
@[simp] theorem State.toPhase_led (s : State) (p : Phase) : (s.toPhase p).led = s.led := rfl
@[simp] theorem State.toPhase_peerSeq (s : State) (p : Phase) : (s.toPhase p).peerSeq = s.peerSeq := rfl
@[simp] theorem State.toPhase_pair (s : State) (p : Phase) : (s.toPhase p).pair = s.pair := rfl
@[simp] theorem State.toPhase_hosts (s : State) (p : Phase) : (s.toPhase p).hosts = s.hosts := rfl
@[simp] theorem State.toPhase_sp (s : State) (p : Phase) : (s.toPhase p).sp = s.sp := rfl
@[simp] theorem State.toPhase_ssps (s : State) (p : Phase) : (s.toPhase p).ssps = s.ssps := rfl
@[simp] theorem State.toPhase_cals (s : State) (p : Phase) : (s.toPhase p).cals = s.cals := rfl
@[simp] theorem State.toPhase_calh (s : State) (p : Phase) : (s.toPhase p).calh = s.calh := rfl
@[simp] theorem State.toPhase_upd (s : State) (p : Phase) : (s.toPhase p).upd = s.upd := rfl
@[simp] theorem State.toPhase_ladder (s : State) (p : Phase) : (s.toPhase p).ladder = s.ladder := rfl

/-! ### setLastTx -/

@[simp] theorem State.setLastTx_pending (s : State) (p : Nat) (f : TxFrame) : (s.setLastTx p f).pending = s.pending := rfl
@[simp] theorem State.setLastTx_regs (s : State) (p : Nat) (f : TxFrame) : (s.setLastTx p f).regs = s.regs := rfl
@[simp] theorem State.setLastTx_effOld (s : State) (p : Nat) (f : TxFrame) : (s.setLastTx p f).effOld = s.effOld := rfl
@[simp] theorem State.setLastTx_copies (s : State) (p : Nat) (f : TxFrame) : (s.setLastTx p f).copies = s.copies := rfl
@[simp] theorem State.setLastTx_clk (s : State) (p : Nat) (f : TxFrame) : (s.setLastTx p f).clk = s.clk := rfl
@[simp] theorem State.setLastTx_evt (s : State) (p : Nat) (f : TxFrame) : (s.setLastTx p f).evt = s.evt := rfl
@[simp] theorem State.setLastTx_engs (s : State) (p : Nat) (f : TxFrame) : (s.setLastTx p f).engs = s.engs := rfl
@[simp] theorem State.setLastTx_arb (s : State) (p : Nat) (f : TxFrame) : (s.setLastTx p f).arb = s.arb := rfl
@[simp] theorem State.setLastTx_sram (s : State) (p : Nat) (f : TxFrame) : (s.setLastTx p f).sram = s.sram := rfl
@[simp] theorem State.setLastTx_dram (s : State) (p : Nat) (f : TxFrame) : (s.setLastTx p f).dram = s.dram := rfl
@[simp] theorem State.setLastTx_poison (s : State) (p : Nat) (f : TxFrame) : (s.setLastTx p f).poison = s.poison := rfl
@[simp] theorem State.setLastTx_sramBad (s : State) (p : Nat) (f : TxFrame) : (s.setLastTx p f).sramBad = s.sramBad := rfl
@[simp] theorem State.setLastTx_fresh (s : State) (p : Nat) (f : TxFrame) : (s.setLastTx p f).fresh = s.fresh := rfl
@[simp] theorem State.setLastTx_mode (s : State) (p : Nat) (f : TxFrame) : (s.setLastTx p f).mode = s.mode := rfl
@[simp] theorem State.setLastTx_cfg (s : State) (p : Nat) (f : TxFrame) : (s.setLastTx p f).cfg = s.cfg := rfl
@[simp] theorem State.setLastTx_chans (s : State) (p : Nat) (f : TxFrame) : (s.setLastTx p f).chans = s.chans := rfl
@[simp] theorem State.setLastTx_banks (s : State) (p : Nat) (f : TxFrame) : (s.setLastTx p f).banks = s.banks := rfl
@[simp] theorem State.setLastTx_flts (s : State) (p : Nat) (f : TxFrame) : (s.setLastTx p f).flts = s.flts := rfl
@[simp] theorem State.setLastTx_coefs (s : State) (p : Nat) (f : TxFrame) : (s.setLastTx p f).coefs = s.coefs := rfl
@[simp] theorem State.setLastTx_fasts (s : State) (p : Nat) (f : TxFrame) : (s.setLastTx p f).fasts = s.fasts := rfl
@[simp] theorem State.setLastTx_fabric (s : State) (p : Nat) (f : TxFrame) : (s.setLastTx p f).fabric = s.fabric := rfl
@[simp] theorem State.setLastTx_cap (s : State) (p : Nat) (f : TxFrame) : (s.setLastTx p f).cap = s.cap := rfl
@[simp] theorem State.setLastTx_tiv (s : State) (p : Nat) (f : TxFrame) : (s.setLastTx p f).tiv = s.tiv := rfl
@[simp] theorem State.setLastTx_tbs (s : State) (p : Nat) (f : TxFrame) : (s.setLastTx p f).tbs = s.tbs := rfl
@[simp] theorem State.setLastTx_pps (s : State) (p : Nat) (f : TxFrame) : (s.setLastTx p f).pps = s.pps := rfl
@[simp] theorem State.setLastTx_lanes (s : State) (p : Nat) (f : TxFrame) : (s.setLastTx p f).lanes = s.lanes := rfl
@[simp] theorem State.setLastTx_strm (s : State) (p : Nat) (f : TxFrame) : (s.setLastTx p f).strm = s.strm := rfl
@[simp] theorem State.setLastTx_strms (s : State) (p : Nat) (f : TxFrame) : (s.setLastTx p f).strms = s.strms := rfl
@[simp] theorem State.setLastTx_queues (s : State) (p : Nat) (f : TxFrame) : (s.setLastTx p f).queues = s.queues := rfl
@[simp] theorem State.setLastTx_qmem (s : State) (p : Nat) (f : TxFrame) : (s.setLastTx p f).qmem = s.qmem := rfl
@[simp] theorem State.setLastTx_led (s : State) (p : Nat) (f : TxFrame) : (s.setLastTx p f).led = s.led := rfl
@[simp] theorem State.setLastTx_peerSeq (s : State) (p : Nat) (f : TxFrame) : (s.setLastTx p f).peerSeq = s.peerSeq := rfl
@[simp] theorem State.setLastTx_pair (s : State) (p : Nat) (f : TxFrame) : (s.setLastTx p f).pair = s.pair := rfl
@[simp] theorem State.setLastTx_hosts (s : State) (p : Nat) (f : TxFrame) : (s.setLastTx p f).hosts = s.hosts := rfl
@[simp] theorem State.setLastTx_sp (s : State) (p : Nat) (f : TxFrame) : (s.setLastTx p f).sp = s.sp := rfl
@[simp] theorem State.setLastTx_ssps (s : State) (p : Nat) (f : TxFrame) : (s.setLastTx p f).ssps = s.ssps := rfl
@[simp] theorem State.setLastTx_cals (s : State) (p : Nat) (f : TxFrame) : (s.setLastTx p f).cals = s.cals := rfl
@[simp] theorem State.setLastTx_calh (s : State) (p : Nat) (f : TxFrame) : (s.setLastTx p f).calh = s.calh := rfl
@[simp] theorem State.setLastTx_upd (s : State) (p : Nat) (f : TxFrame) : (s.setLastTx p f).upd = s.upd := rfl
@[simp] theorem State.setLastTx_ladder (s : State) (p : Nat) (f : TxFrame) : (s.setLastTx p f).ladder = s.ladder := rfl

/-! ### Tables read after an entry is replaced -/

@[simp] theorem State.eng_setEng_self (s : State) (k : Nat) (x : EngSt) : (s.setEng k x).eng k = x := Sparse.get_set_self _ s.engs k x
theorem State.eng_setEng_ne (s : State) {k j : Nat} (x : EngSt) (h : j ≠ k) : (s.setEng k x).eng j = s.eng j :=
  Sparse.get_set_ne _ s.engs x h
@[simp] theorem State.ch_setCh_self (s : State) (k : Nat) (x : ChanSt) : (s.setCh k x).ch k = x := Sparse.get_set_self _ s.chans k x
theorem State.ch_setCh_ne (s : State) {k j : Nat} (x : ChanSt) (h : j ≠ k) : (s.setCh k x).ch j = s.ch j :=
  Sparse.get_set_ne _ s.chans x h
@[simp] theorem State.bk_setBk_self (s : State) (k : Nat) (x : BankSt) : (s.setBk k x).bk k = x := Sparse.get_set_self _ s.banks k x
theorem State.bk_setBk_ne (s : State) {k j : Nat} (x : BankSt) (h : j ≠ k) : (s.setBk k x).bk j = s.bk j :=
  Sparse.get_set_ne _ s.banks x h
@[simp] theorem State.flt_setFlt_self (s : State) (k : Nat) (x : FltSt) : (s.setFlt k x).flt k = x := Sparse.get_set_self _ s.flts k x
theorem State.flt_setFlt_ne (s : State) {k j : Nat} (x : FltSt) (h : j ≠ k) : (s.setFlt k x).flt j = s.flt j :=
  Sparse.get_set_ne _ s.flts x h
@[simp] theorem State.tb_setTb_self (s : State) (k : Nat) (x : TbSt) : (s.setTb k x).tb k = x := Sparse.get_set_self _ s.tbs k x
theorem State.tb_setTb_ne (s : State) {k j : Nat} (x : TbSt) (h : j ≠ k) : (s.setTb k x).tb j = s.tb j :=
  Sparse.get_set_ne _ s.tbs x h
@[simp] theorem State.lane_setLane_self (s : State) (k : Nat) (x : LaneSt) : (s.setLane k x).lane k = x := Sparse.get_set_self _ s.lanes k x
theorem State.lane_setLane_ne (s : State) {k j : Nat} (x : LaneSt) (h : j ≠ k) : (s.setLane k x).lane j = s.lane j :=
  Sparse.get_set_ne _ s.lanes x h
@[simp] theorem State.strmSt_setStrmSt_self (s : State) (k : Nat) (x : StreamSt) : (s.setStrmSt k x).strmSt k = x := Sparse.get_set_self _ s.strms k x
theorem State.strmSt_setStrmSt_ne (s : State) {k j : Nat} (x : StreamSt) (h : j ≠ k) : (s.setStrmSt k x).strmSt j = s.strmSt j :=
  Sparse.get_set_ne _ s.strms x h
@[simp] theorem State.que_setQue_self (s : State) (k : Nat) (x : QueueSt) : (s.setQue k x).que k = x := Sparse.get_set_self _ s.queues k x
theorem State.que_setQue_ne (s : State) {k j : Nat} (x : QueueSt) (h : j ≠ k) : (s.setQue k x).que j = s.que j :=
  Sparse.get_set_ne _ s.queues x h
@[simp] theorem State.hostOf_setHost_self (s : State) (k : Nat) (x : HostSt) : (s.setHost k x).hostOf k = x := Sparse.get_set_self _ s.hosts k x
theorem State.hostOf_setHost_ne (s : State) {k j : Nat} (x : HostSt) (h : j ≠ k) : (s.setHost k x).hostOf j = s.hostOf j :=
  Sparse.get_set_ne _ s.hosts x h
@[simp] theorem State.ssp_setSsp_self (s : State) (k : Nat) (x : SspSt) : (s.setSsp k x).ssp k = x := Sparse.get_set_self _ s.ssps k x
theorem State.ssp_setSsp_ne (s : State) {k j : Nat} (x : SspSt) (h : j ≠ k) : (s.setSsp k x).ssp j = s.ssp j :=
  Sparse.get_set_ne _ s.ssps x h
@[simp] theorem State.cal_setCal_self (s : State) (k : Nat) (x : CalSt) : (s.setCal k x).cal k = x := Sparse.get_set_self _ s.cals k x
theorem State.cal_setCal_ne (s : State) {k j : Nat} (x : CalSt) (h : j ≠ k) : (s.setCal k x).cal j = s.cal j :=
  Sparse.get_set_ne _ s.cals x h
@[simp] theorem State.coef_setCoef_self (s : State) (k : Nat) (x : CoefSt) : (s.setCoef k x).coef k = x := Sparse.get_set_self _ s.coefs k x
theorem State.coef_setCoef_ne (s : State) {k j : Nat} (x : CoefSt) (h : j ≠ k) : (s.setCoef k x).coef j = s.coef j :=
  Sparse.get_set_ne _ s.coefs x h
@[simp] theorem State.unit_setUnit_self (s : State) (k : Nat) (x : TrigSt) : (s.setUnit k x).unit k = x := Sparse.get_set_self _ s.cap.units k x
theorem State.unit_setUnit_ne (s : State) {k j : Nat} (x : TrigSt) (h : j ≠ k) : (s.setUnit k x).unit j = s.unit j :=
  Sparse.get_set_ne _ s.cap.units x h
@[simp] theorem State.egressOf_setEgress_self (s : State) (k : Nat) (x : List TxFrame) : (s.setEgress k x).egressOf k = x := Sparse.get_set_self _ s.sw.egress k x
theorem State.egressOf_setEgress_ne (s : State) {k j : Nat} (x : List TxFrame) (h : j ≠ k) : (s.setEgress k x).egressOf j = s.egressOf j :=
  Sparse.get_set_ne _ s.sw.egress x h
@[simp] theorem State.storeOf_setStore_self (s : State) (k : Nat) (x : CfgStore) : (s.setStore k x).storeOf k = x := Sparse.get_set_self _ s.cfg.stores k x
theorem State.storeOf_setStore_ne (s : State) {k j : Nat} (x : CfgStore) (h : j ≠ k) : (s.setStore k x).storeOf j = s.storeOf j :=
  Sparse.get_set_ne _ s.cfg.stores x h

/-! ### What a record of the event log leaves alone -/

theorem State.noticeTo_frame (s : State) (r : EventRec) (l : Nat) :
    { s.noticeTo r l with regs := s.regs, evt := s.evt } = s := by
  unfold State.noticeTo
  dsimp only
  split <;> rfl

theorem State.toFlashQ_frame (s : State) (r : EventRec) : { s.toFlashQ r with regs := s.regs, evt := s.evt } = s := by
  unfold State.toFlashQ
  split
  · rfl
  · split <;> rfl

/-- Two states that differ in registers and event log only. -/
theorem frame_trans {s t u : State} (h : { t with regs := s.regs, evt := s.evt } = s)
    (h' : { u with regs := t.regs, evt := t.evt } = t) : { u with regs := s.regs, evt := s.evt } = s := by
  rw [← h'] at h
  exact h

theorem State.notices_frame (s : State) (r : EventRec) (ls : List Nat) :
    { ls.foldl (fun t l => t.noticeTo r l) s with regs := s.regs, evt := s.evt } = s := by
  induction ls generalizing s with
  | nil => rfl
  | cons l ls ih => exact frame_trans (State.noticeTo_frame s r l) (ih (s.noticeTo r l))

/-- A record changes the event log and the registers of its counters only. -/
theorem State.appendRec_frame (s : State) (d : Dest) (r : EventRec) : { s.appendRec d r with regs := s.regs, evt := s.evt } = s := by
  unfold State.appendRec
  dsimp only
  refine frame_trans (t := State.toFlashQ _ _) ?_ (State.notices_frame _ _ _)
  refine frame_trans ?_ (State.toFlashQ_frame _ _)
  split <;> rfl

theorem State.appendCont_frame (s : State) (d : Dest) (r : EventRec) (l : List W64) :
    { s.appendCont d r l with regs := s.regs, evt := s.evt } = s := by
  match l with
  | [] => rfl
  | [a] => exact State.appendRec_frame s d _
  | a :: b :: rest =>
    exact frame_trans (State.appendRec_frame s d _) (State.appendCont_frame _ d r rest)

/-- A logged condition changes the event log and registers of its block only. -/
theorem State.logTo_frame (s : State) (d : Dest) (c : Cond) (u : Nat) (l : List W64) :
    { s.logTo d c u l with regs := s.regs, evt := s.evt } = s := by
  unfold State.logTo
  dsimp only
  refine frame_trans ?_ (State.appendCont_frame _ _ _ _)
  refine frame_trans ?_ (State.appendRec_frame _ _ _)
  split
  · rfl
  · split <;> rfl

/-! ### logTo -/

@[simp] theorem State.logTo_pending (s : State) (d : Dest) (c : Cond) (u : Nat) (l : List W64) : (s.logTo d c u l).pending = s.pending := by
  have h := congrArg State.pending (State.logTo_frame s d c u l)
  exact h
@[simp] theorem State.logTo_effOld (s : State) (d : Dest) (c : Cond) (u : Nat) (l : List W64) : (s.logTo d c u l).effOld = s.effOld := by
  have h := congrArg State.effOld (State.logTo_frame s d c u l)
  exact h
@[simp] theorem State.logTo_copies (s : State) (d : Dest) (c : Cond) (u : Nat) (l : List W64) : (s.logTo d c u l).copies = s.copies := by
  have h := congrArg State.copies (State.logTo_frame s d c u l)
  exact h
@[simp] theorem State.logTo_clk (s : State) (d : Dest) (c : Cond) (u : Nat) (l : List W64) : (s.logTo d c u l).clk = s.clk := by
  have h := congrArg State.clk (State.logTo_frame s d c u l)
  exact h
@[simp] theorem State.logTo_engs (s : State) (d : Dest) (c : Cond) (u : Nat) (l : List W64) : (s.logTo d c u l).engs = s.engs := by
  have h := congrArg State.engs (State.logTo_frame s d c u l)
  exact h
@[simp] theorem State.logTo_arb (s : State) (d : Dest) (c : Cond) (u : Nat) (l : List W64) : (s.logTo d c u l).arb = s.arb := by
  have h := congrArg State.arb (State.logTo_frame s d c u l)
  exact h
@[simp] theorem State.logTo_sram (s : State) (d : Dest) (c : Cond) (u : Nat) (l : List W64) : (s.logTo d c u l).sram = s.sram := by
  have h := congrArg State.sram (State.logTo_frame s d c u l)
  exact h
@[simp] theorem State.logTo_dram (s : State) (d : Dest) (c : Cond) (u : Nat) (l : List W64) : (s.logTo d c u l).dram = s.dram := by
  have h := congrArg State.dram (State.logTo_frame s d c u l)
  exact h
@[simp] theorem State.logTo_poison (s : State) (d : Dest) (c : Cond) (u : Nat) (l : List W64) : (s.logTo d c u l).poison = s.poison := by
  have h := congrArg State.poison (State.logTo_frame s d c u l)
  exact h
@[simp] theorem State.logTo_sramBad (s : State) (d : Dest) (c : Cond) (u : Nat) (l : List W64) : (s.logTo d c u l).sramBad = s.sramBad := by
  have h := congrArg State.sramBad (State.logTo_frame s d c u l)
  exact h
@[simp] theorem State.logTo_fresh (s : State) (d : Dest) (c : Cond) (u : Nat) (l : List W64) : (s.logTo d c u l).fresh = s.fresh := by
  have h := congrArg State.fresh (State.logTo_frame s d c u l)
  exact h
@[simp] theorem State.logTo_mode (s : State) (d : Dest) (c : Cond) (u : Nat) (l : List W64) : (s.logTo d c u l).mode = s.mode := by
  have h := congrArg State.mode (State.logTo_frame s d c u l)
  exact h
@[simp] theorem State.logTo_cfg (s : State) (d : Dest) (c : Cond) (u : Nat) (l : List W64) : (s.logTo d c u l).cfg = s.cfg := by
  have h := congrArg State.cfg (State.logTo_frame s d c u l)
  exact h
@[simp] theorem State.logTo_chans (s : State) (d : Dest) (c : Cond) (u : Nat) (l : List W64) : (s.logTo d c u l).chans = s.chans := by
  have h := congrArg State.chans (State.logTo_frame s d c u l)
  exact h
@[simp] theorem State.logTo_banks (s : State) (d : Dest) (c : Cond) (u : Nat) (l : List W64) : (s.logTo d c u l).banks = s.banks := by
  have h := congrArg State.banks (State.logTo_frame s d c u l)
  exact h
@[simp] theorem State.logTo_flts (s : State) (d : Dest) (c : Cond) (u : Nat) (l : List W64) : (s.logTo d c u l).flts = s.flts := by
  have h := congrArg State.flts (State.logTo_frame s d c u l)
  exact h
@[simp] theorem State.logTo_coefs (s : State) (d : Dest) (c : Cond) (u : Nat) (l : List W64) : (s.logTo d c u l).coefs = s.coefs := by
  have h := congrArg State.coefs (State.logTo_frame s d c u l)
  exact h
@[simp] theorem State.logTo_fasts (s : State) (d : Dest) (c : Cond) (u : Nat) (l : List W64) : (s.logTo d c u l).fasts = s.fasts := by
  have h := congrArg State.fasts (State.logTo_frame s d c u l)
  exact h
@[simp] theorem State.logTo_fabric (s : State) (d : Dest) (c : Cond) (u : Nat) (l : List W64) : (s.logTo d c u l).fabric = s.fabric := by
  have h := congrArg State.fabric (State.logTo_frame s d c u l)
  exact h
@[simp] theorem State.logTo_cap (s : State) (d : Dest) (c : Cond) (u : Nat) (l : List W64) : (s.logTo d c u l).cap = s.cap := by
  have h := congrArg State.cap (State.logTo_frame s d c u l)
  exact h
@[simp] theorem State.logTo_tiv (s : State) (d : Dest) (c : Cond) (u : Nat) (l : List W64) : (s.logTo d c u l).tiv = s.tiv := by
  have h := congrArg State.tiv (State.logTo_frame s d c u l)
  exact h
@[simp] theorem State.logTo_tbs (s : State) (d : Dest) (c : Cond) (u : Nat) (l : List W64) : (s.logTo d c u l).tbs = s.tbs := by
  have h := congrArg State.tbs (State.logTo_frame s d c u l)
  exact h
@[simp] theorem State.logTo_pps (s : State) (d : Dest) (c : Cond) (u : Nat) (l : List W64) : (s.logTo d c u l).pps = s.pps := by
  have h := congrArg State.pps (State.logTo_frame s d c u l)
  exact h
@[simp] theorem State.logTo_sw (s : State) (d : Dest) (c : Cond) (u : Nat) (l : List W64) : (s.logTo d c u l).sw = s.sw := by
  have h := congrArg State.sw (State.logTo_frame s d c u l)
  exact h
@[simp] theorem State.logTo_lanes (s : State) (d : Dest) (c : Cond) (u : Nat) (l : List W64) : (s.logTo d c u l).lanes = s.lanes := by
  have h := congrArg State.lanes (State.logTo_frame s d c u l)
  exact h
@[simp] theorem State.logTo_strm (s : State) (d : Dest) (c : Cond) (u : Nat) (l : List W64) : (s.logTo d c u l).strm = s.strm := by
  have h := congrArg State.strm (State.logTo_frame s d c u l)
  exact h
@[simp] theorem State.logTo_strms (s : State) (d : Dest) (c : Cond) (u : Nat) (l : List W64) : (s.logTo d c u l).strms = s.strms := by
  have h := congrArg State.strms (State.logTo_frame s d c u l)
  exact h
@[simp] theorem State.logTo_queues (s : State) (d : Dest) (c : Cond) (u : Nat) (l : List W64) : (s.logTo d c u l).queues = s.queues := by
  have h := congrArg State.queues (State.logTo_frame s d c u l)
  exact h
@[simp] theorem State.logTo_qmem (s : State) (d : Dest) (c : Cond) (u : Nat) (l : List W64) : (s.logTo d c u l).qmem = s.qmem := by
  have h := congrArg State.qmem (State.logTo_frame s d c u l)
  exact h
@[simp] theorem State.logTo_led (s : State) (d : Dest) (c : Cond) (u : Nat) (l : List W64) : (s.logTo d c u l).led = s.led := by
  have h := congrArg State.led (State.logTo_frame s d c u l)
  exact h
@[simp] theorem State.logTo_peerSeq (s : State) (d : Dest) (c : Cond) (u : Nat) (l : List W64) : (s.logTo d c u l).peerSeq = s.peerSeq := by
  have h := congrArg State.peerSeq (State.logTo_frame s d c u l)
  exact h
@[simp] theorem State.logTo_pair (s : State) (d : Dest) (c : Cond) (u : Nat) (l : List W64) : (s.logTo d c u l).pair = s.pair := by
  have h := congrArg State.pair (State.logTo_frame s d c u l)
  exact h
@[simp] theorem State.logTo_hosts (s : State) (d : Dest) (c : Cond) (u : Nat) (l : List W64) : (s.logTo d c u l).hosts = s.hosts := by
  have h := congrArg State.hosts (State.logTo_frame s d c u l)
  exact h
@[simp] theorem State.logTo_sp (s : State) (d : Dest) (c : Cond) (u : Nat) (l : List W64) : (s.logTo d c u l).sp = s.sp := by
  have h := congrArg State.sp (State.logTo_frame s d c u l)
  exact h
@[simp] theorem State.logTo_ssps (s : State) (d : Dest) (c : Cond) (u : Nat) (l : List W64) : (s.logTo d c u l).ssps = s.ssps := by
  have h := congrArg State.ssps (State.logTo_frame s d c u l)
  exact h
@[simp] theorem State.logTo_cals (s : State) (d : Dest) (c : Cond) (u : Nat) (l : List W64) : (s.logTo d c u l).cals = s.cals := by
  have h := congrArg State.cals (State.logTo_frame s d c u l)
  exact h
@[simp] theorem State.logTo_calh (s : State) (d : Dest) (c : Cond) (u : Nat) (l : List W64) : (s.logTo d c u l).calh = s.calh := by
  have h := congrArg State.calh (State.logTo_frame s d c u l)
  exact h
@[simp] theorem State.logTo_upd (s : State) (d : Dest) (c : Cond) (u : Nat) (l : List W64) : (s.logTo d c u l).upd = s.upd := by
  have h := congrArg State.upd (State.logTo_frame s d c u l)
  exact h
@[simp] theorem State.logTo_ladder (s : State) (d : Dest) (c : Cond) (u : Nat) (l : List W64) : (s.logTo d c u l).ladder = s.ladder := by
  have h := congrArg State.ladder (State.logTo_frame s d c u l)
  exact h

/-! ### log -/

@[simp] theorem State.log_pending (s : State) (c : Cond) (u : Nat) (l : List W64) : (s.log c u l).pending = s.pending := by
  have h := congrArg State.pending (State.logTo_frame s .all c u l)
  exact h
@[simp] theorem State.log_effOld (s : State) (c : Cond) (u : Nat) (l : List W64) : (s.log c u l).effOld = s.effOld := by
  have h := congrArg State.effOld (State.logTo_frame s .all c u l)
  exact h
@[simp] theorem State.log_copies (s : State) (c : Cond) (u : Nat) (l : List W64) : (s.log c u l).copies = s.copies := by
  have h := congrArg State.copies (State.logTo_frame s .all c u l)
  exact h
@[simp] theorem State.log_clk (s : State) (c : Cond) (u : Nat) (l : List W64) : (s.log c u l).clk = s.clk := by
  have h := congrArg State.clk (State.logTo_frame s .all c u l)
  exact h
@[simp] theorem State.log_engs (s : State) (c : Cond) (u : Nat) (l : List W64) : (s.log c u l).engs = s.engs := by
  have h := congrArg State.engs (State.logTo_frame s .all c u l)
  exact h
@[simp] theorem State.log_arb (s : State) (c : Cond) (u : Nat) (l : List W64) : (s.log c u l).arb = s.arb := by
  have h := congrArg State.arb (State.logTo_frame s .all c u l)
  exact h
@[simp] theorem State.log_sram (s : State) (c : Cond) (u : Nat) (l : List W64) : (s.log c u l).sram = s.sram := by
  have h := congrArg State.sram (State.logTo_frame s .all c u l)
  exact h
@[simp] theorem State.log_dram (s : State) (c : Cond) (u : Nat) (l : List W64) : (s.log c u l).dram = s.dram := by
  have h := congrArg State.dram (State.logTo_frame s .all c u l)
  exact h
@[simp] theorem State.log_poison (s : State) (c : Cond) (u : Nat) (l : List W64) : (s.log c u l).poison = s.poison := by
  have h := congrArg State.poison (State.logTo_frame s .all c u l)
  exact h
@[simp] theorem State.log_sramBad (s : State) (c : Cond) (u : Nat) (l : List W64) : (s.log c u l).sramBad = s.sramBad := by
  have h := congrArg State.sramBad (State.logTo_frame s .all c u l)
  exact h
@[simp] theorem State.log_fresh (s : State) (c : Cond) (u : Nat) (l : List W64) : (s.log c u l).fresh = s.fresh := by
  have h := congrArg State.fresh (State.logTo_frame s .all c u l)
  exact h
@[simp] theorem State.log_mode (s : State) (c : Cond) (u : Nat) (l : List W64) : (s.log c u l).mode = s.mode := by
  have h := congrArg State.mode (State.logTo_frame s .all c u l)
  exact h
@[simp] theorem State.log_cfg (s : State) (c : Cond) (u : Nat) (l : List W64) : (s.log c u l).cfg = s.cfg := by
  have h := congrArg State.cfg (State.logTo_frame s .all c u l)
  exact h
@[simp] theorem State.log_chans (s : State) (c : Cond) (u : Nat) (l : List W64) : (s.log c u l).chans = s.chans := by
  have h := congrArg State.chans (State.logTo_frame s .all c u l)
  exact h
@[simp] theorem State.log_banks (s : State) (c : Cond) (u : Nat) (l : List W64) : (s.log c u l).banks = s.banks := by
  have h := congrArg State.banks (State.logTo_frame s .all c u l)
  exact h
@[simp] theorem State.log_flts (s : State) (c : Cond) (u : Nat) (l : List W64) : (s.log c u l).flts = s.flts := by
  have h := congrArg State.flts (State.logTo_frame s .all c u l)
  exact h
@[simp] theorem State.log_coefs (s : State) (c : Cond) (u : Nat) (l : List W64) : (s.log c u l).coefs = s.coefs := by
  have h := congrArg State.coefs (State.logTo_frame s .all c u l)
  exact h
@[simp] theorem State.log_fasts (s : State) (c : Cond) (u : Nat) (l : List W64) : (s.log c u l).fasts = s.fasts := by
  have h := congrArg State.fasts (State.logTo_frame s .all c u l)
  exact h
@[simp] theorem State.log_fabric (s : State) (c : Cond) (u : Nat) (l : List W64) : (s.log c u l).fabric = s.fabric := by
  have h := congrArg State.fabric (State.logTo_frame s .all c u l)
  exact h
@[simp] theorem State.log_cap (s : State) (c : Cond) (u : Nat) (l : List W64) : (s.log c u l).cap = s.cap := by
  have h := congrArg State.cap (State.logTo_frame s .all c u l)
  exact h
@[simp] theorem State.log_tiv (s : State) (c : Cond) (u : Nat) (l : List W64) : (s.log c u l).tiv = s.tiv := by
  have h := congrArg State.tiv (State.logTo_frame s .all c u l)
  exact h
@[simp] theorem State.log_tbs (s : State) (c : Cond) (u : Nat) (l : List W64) : (s.log c u l).tbs = s.tbs := by
  have h := congrArg State.tbs (State.logTo_frame s .all c u l)
  exact h
@[simp] theorem State.log_pps (s : State) (c : Cond) (u : Nat) (l : List W64) : (s.log c u l).pps = s.pps := by
  have h := congrArg State.pps (State.logTo_frame s .all c u l)
  exact h
@[simp] theorem State.log_sw (s : State) (c : Cond) (u : Nat) (l : List W64) : (s.log c u l).sw = s.sw := by
  have h := congrArg State.sw (State.logTo_frame s .all c u l)
  exact h
@[simp] theorem State.log_lanes (s : State) (c : Cond) (u : Nat) (l : List W64) : (s.log c u l).lanes = s.lanes := by
  have h := congrArg State.lanes (State.logTo_frame s .all c u l)
  exact h
@[simp] theorem State.log_strm (s : State) (c : Cond) (u : Nat) (l : List W64) : (s.log c u l).strm = s.strm := by
  have h := congrArg State.strm (State.logTo_frame s .all c u l)
  exact h
@[simp] theorem State.log_strms (s : State) (c : Cond) (u : Nat) (l : List W64) : (s.log c u l).strms = s.strms := by
  have h := congrArg State.strms (State.logTo_frame s .all c u l)
  exact h
@[simp] theorem State.log_queues (s : State) (c : Cond) (u : Nat) (l : List W64) : (s.log c u l).queues = s.queues := by
  have h := congrArg State.queues (State.logTo_frame s .all c u l)
  exact h
@[simp] theorem State.log_qmem (s : State) (c : Cond) (u : Nat) (l : List W64) : (s.log c u l).qmem = s.qmem := by
  have h := congrArg State.qmem (State.logTo_frame s .all c u l)
  exact h
@[simp] theorem State.log_led (s : State) (c : Cond) (u : Nat) (l : List W64) : (s.log c u l).led = s.led := by
  have h := congrArg State.led (State.logTo_frame s .all c u l)
  exact h
@[simp] theorem State.log_peerSeq (s : State) (c : Cond) (u : Nat) (l : List W64) : (s.log c u l).peerSeq = s.peerSeq := by
  have h := congrArg State.peerSeq (State.logTo_frame s .all c u l)
  exact h
@[simp] theorem State.log_pair (s : State) (c : Cond) (u : Nat) (l : List W64) : (s.log c u l).pair = s.pair := by
  have h := congrArg State.pair (State.logTo_frame s .all c u l)
  exact h
@[simp] theorem State.log_hosts (s : State) (c : Cond) (u : Nat) (l : List W64) : (s.log c u l).hosts = s.hosts := by
  have h := congrArg State.hosts (State.logTo_frame s .all c u l)
  exact h
@[simp] theorem State.log_sp (s : State) (c : Cond) (u : Nat) (l : List W64) : (s.log c u l).sp = s.sp := by
  have h := congrArg State.sp (State.logTo_frame s .all c u l)
  exact h
@[simp] theorem State.log_ssps (s : State) (c : Cond) (u : Nat) (l : List W64) : (s.log c u l).ssps = s.ssps := by
  have h := congrArg State.ssps (State.logTo_frame s .all c u l)
  exact h
@[simp] theorem State.log_cals (s : State) (c : Cond) (u : Nat) (l : List W64) : (s.log c u l).cals = s.cals := by
  have h := congrArg State.cals (State.logTo_frame s .all c u l)
  exact h
@[simp] theorem State.log_calh (s : State) (c : Cond) (u : Nat) (l : List W64) : (s.log c u l).calh = s.calh := by
  have h := congrArg State.calh (State.logTo_frame s .all c u l)
  exact h
@[simp] theorem State.log_upd (s : State) (c : Cond) (u : Nat) (l : List W64) : (s.log c u l).upd = s.upd := by
  have h := congrArg State.upd (State.logTo_frame s .all c u l)
  exact h
@[simp] theorem State.log_ladder (s : State) (c : Cond) (u : Nat) (l : List W64) : (s.log c u l).ladder = s.ladder := by
  have h := congrArg State.ladder (State.logTo_frame s .all c u l)
  exact h

/-! ### logLane -/

@[simp] theorem State.logLane_pending (s : State) (k : Nat) (c : Cond) (u : Nat) (l : List W64) : (s.logLane k c u l).pending = s.pending := by
  have h := congrArg State.pending (State.logTo_frame s (.lane k) c u l)
  exact h
@[simp] theorem State.logLane_effOld (s : State) (k : Nat) (c : Cond) (u : Nat) (l : List W64) : (s.logLane k c u l).effOld = s.effOld := by
  have h := congrArg State.effOld (State.logTo_frame s (.lane k) c u l)
  exact h
@[simp] theorem State.logLane_copies (s : State) (k : Nat) (c : Cond) (u : Nat) (l : List W64) : (s.logLane k c u l).copies = s.copies := by
  have h := congrArg State.copies (State.logTo_frame s (.lane k) c u l)
  exact h
@[simp] theorem State.logLane_clk (s : State) (k : Nat) (c : Cond) (u : Nat) (l : List W64) : (s.logLane k c u l).clk = s.clk := by
  have h := congrArg State.clk (State.logTo_frame s (.lane k) c u l)
  exact h
@[simp] theorem State.logLane_engs (s : State) (k : Nat) (c : Cond) (u : Nat) (l : List W64) : (s.logLane k c u l).engs = s.engs := by
  have h := congrArg State.engs (State.logTo_frame s (.lane k) c u l)
  exact h
@[simp] theorem State.logLane_arb (s : State) (k : Nat) (c : Cond) (u : Nat) (l : List W64) : (s.logLane k c u l).arb = s.arb := by
  have h := congrArg State.arb (State.logTo_frame s (.lane k) c u l)
  exact h
@[simp] theorem State.logLane_sram (s : State) (k : Nat) (c : Cond) (u : Nat) (l : List W64) : (s.logLane k c u l).sram = s.sram := by
  have h := congrArg State.sram (State.logTo_frame s (.lane k) c u l)
  exact h
@[simp] theorem State.logLane_dram (s : State) (k : Nat) (c : Cond) (u : Nat) (l : List W64) : (s.logLane k c u l).dram = s.dram := by
  have h := congrArg State.dram (State.logTo_frame s (.lane k) c u l)
  exact h
@[simp] theorem State.logLane_poison (s : State) (k : Nat) (c : Cond) (u : Nat) (l : List W64) : (s.logLane k c u l).poison = s.poison := by
  have h := congrArg State.poison (State.logTo_frame s (.lane k) c u l)
  exact h
@[simp] theorem State.logLane_sramBad (s : State) (k : Nat) (c : Cond) (u : Nat) (l : List W64) : (s.logLane k c u l).sramBad = s.sramBad := by
  have h := congrArg State.sramBad (State.logTo_frame s (.lane k) c u l)
  exact h
@[simp] theorem State.logLane_fresh (s : State) (k : Nat) (c : Cond) (u : Nat) (l : List W64) : (s.logLane k c u l).fresh = s.fresh := by
  have h := congrArg State.fresh (State.logTo_frame s (.lane k) c u l)
  exact h
@[simp] theorem State.logLane_mode (s : State) (k : Nat) (c : Cond) (u : Nat) (l : List W64) : (s.logLane k c u l).mode = s.mode := by
  have h := congrArg State.mode (State.logTo_frame s (.lane k) c u l)
  exact h
@[simp] theorem State.logLane_cfg (s : State) (k : Nat) (c : Cond) (u : Nat) (l : List W64) : (s.logLane k c u l).cfg = s.cfg := by
  have h := congrArg State.cfg (State.logTo_frame s (.lane k) c u l)
  exact h
@[simp] theorem State.logLane_chans (s : State) (k : Nat) (c : Cond) (u : Nat) (l : List W64) : (s.logLane k c u l).chans = s.chans := by
  have h := congrArg State.chans (State.logTo_frame s (.lane k) c u l)
  exact h
@[simp] theorem State.logLane_banks (s : State) (k : Nat) (c : Cond) (u : Nat) (l : List W64) : (s.logLane k c u l).banks = s.banks := by
  have h := congrArg State.banks (State.logTo_frame s (.lane k) c u l)
  exact h
@[simp] theorem State.logLane_flts (s : State) (k : Nat) (c : Cond) (u : Nat) (l : List W64) : (s.logLane k c u l).flts = s.flts := by
  have h := congrArg State.flts (State.logTo_frame s (.lane k) c u l)
  exact h
@[simp] theorem State.logLane_coefs (s : State) (k : Nat) (c : Cond) (u : Nat) (l : List W64) : (s.logLane k c u l).coefs = s.coefs := by
  have h := congrArg State.coefs (State.logTo_frame s (.lane k) c u l)
  exact h
@[simp] theorem State.logLane_fasts (s : State) (k : Nat) (c : Cond) (u : Nat) (l : List W64) : (s.logLane k c u l).fasts = s.fasts := by
  have h := congrArg State.fasts (State.logTo_frame s (.lane k) c u l)
  exact h
@[simp] theorem State.logLane_fabric (s : State) (k : Nat) (c : Cond) (u : Nat) (l : List W64) : (s.logLane k c u l).fabric = s.fabric := by
  have h := congrArg State.fabric (State.logTo_frame s (.lane k) c u l)
  exact h
@[simp] theorem State.logLane_cap (s : State) (k : Nat) (c : Cond) (u : Nat) (l : List W64) : (s.logLane k c u l).cap = s.cap := by
  have h := congrArg State.cap (State.logTo_frame s (.lane k) c u l)
  exact h
@[simp] theorem State.logLane_tiv (s : State) (k : Nat) (c : Cond) (u : Nat) (l : List W64) : (s.logLane k c u l).tiv = s.tiv := by
  have h := congrArg State.tiv (State.logTo_frame s (.lane k) c u l)
  exact h
@[simp] theorem State.logLane_tbs (s : State) (k : Nat) (c : Cond) (u : Nat) (l : List W64) : (s.logLane k c u l).tbs = s.tbs := by
  have h := congrArg State.tbs (State.logTo_frame s (.lane k) c u l)
  exact h
@[simp] theorem State.logLane_pps (s : State) (k : Nat) (c : Cond) (u : Nat) (l : List W64) : (s.logLane k c u l).pps = s.pps := by
  have h := congrArg State.pps (State.logTo_frame s (.lane k) c u l)
  exact h
@[simp] theorem State.logLane_sw (s : State) (k : Nat) (c : Cond) (u : Nat) (l : List W64) : (s.logLane k c u l).sw = s.sw := by
  have h := congrArg State.sw (State.logTo_frame s (.lane k) c u l)
  exact h
@[simp] theorem State.logLane_lanes (s : State) (k : Nat) (c : Cond) (u : Nat) (l : List W64) : (s.logLane k c u l).lanes = s.lanes := by
  have h := congrArg State.lanes (State.logTo_frame s (.lane k) c u l)
  exact h
@[simp] theorem State.logLane_strm (s : State) (k : Nat) (c : Cond) (u : Nat) (l : List W64) : (s.logLane k c u l).strm = s.strm := by
  have h := congrArg State.strm (State.logTo_frame s (.lane k) c u l)
  exact h
@[simp] theorem State.logLane_strms (s : State) (k : Nat) (c : Cond) (u : Nat) (l : List W64) : (s.logLane k c u l).strms = s.strms := by
  have h := congrArg State.strms (State.logTo_frame s (.lane k) c u l)
  exact h
@[simp] theorem State.logLane_queues (s : State) (k : Nat) (c : Cond) (u : Nat) (l : List W64) : (s.logLane k c u l).queues = s.queues := by
  have h := congrArg State.queues (State.logTo_frame s (.lane k) c u l)
  exact h
@[simp] theorem State.logLane_qmem (s : State) (k : Nat) (c : Cond) (u : Nat) (l : List W64) : (s.logLane k c u l).qmem = s.qmem := by
  have h := congrArg State.qmem (State.logTo_frame s (.lane k) c u l)
  exact h
@[simp] theorem State.logLane_led (s : State) (k : Nat) (c : Cond) (u : Nat) (l : List W64) : (s.logLane k c u l).led = s.led := by
  have h := congrArg State.led (State.logTo_frame s (.lane k) c u l)
  exact h
@[simp] theorem State.logLane_peerSeq (s : State) (k : Nat) (c : Cond) (u : Nat) (l : List W64) : (s.logLane k c u l).peerSeq = s.peerSeq := by
  have h := congrArg State.peerSeq (State.logTo_frame s (.lane k) c u l)
  exact h
@[simp] theorem State.logLane_pair (s : State) (k : Nat) (c : Cond) (u : Nat) (l : List W64) : (s.logLane k c u l).pair = s.pair := by
  have h := congrArg State.pair (State.logTo_frame s (.lane k) c u l)
  exact h
@[simp] theorem State.logLane_hosts (s : State) (k : Nat) (c : Cond) (u : Nat) (l : List W64) : (s.logLane k c u l).hosts = s.hosts := by
  have h := congrArg State.hosts (State.logTo_frame s (.lane k) c u l)
  exact h
@[simp] theorem State.logLane_sp (s : State) (k : Nat) (c : Cond) (u : Nat) (l : List W64) : (s.logLane k c u l).sp = s.sp := by
  have h := congrArg State.sp (State.logTo_frame s (.lane k) c u l)
  exact h
@[simp] theorem State.logLane_ssps (s : State) (k : Nat) (c : Cond) (u : Nat) (l : List W64) : (s.logLane k c u l).ssps = s.ssps := by
  have h := congrArg State.ssps (State.logTo_frame s (.lane k) c u l)
  exact h
@[simp] theorem State.logLane_cals (s : State) (k : Nat) (c : Cond) (u : Nat) (l : List W64) : (s.logLane k c u l).cals = s.cals := by
  have h := congrArg State.cals (State.logTo_frame s (.lane k) c u l)
  exact h
@[simp] theorem State.logLane_calh (s : State) (k : Nat) (c : Cond) (u : Nat) (l : List W64) : (s.logLane k c u l).calh = s.calh := by
  have h := congrArg State.calh (State.logTo_frame s (.lane k) c u l)
  exact h
@[simp] theorem State.logLane_upd (s : State) (k : Nat) (c : Cond) (u : Nat) (l : List W64) : (s.logLane k c u l).upd = s.upd := by
  have h := congrArg State.upd (State.logTo_frame s (.lane k) c u l)
  exact h
@[simp] theorem State.logLane_ladder (s : State) (k : Nat) (c : Cond) (u : Nat) (l : List W64) : (s.logLane k c u l).ladder = s.ladder := by
  have h := congrArg State.ladder (State.logTo_frame s (.lane k) c u l)
  exact h

/-! ### logRefusal -/

@[simp] theorem State.logRefusal_pending (s : State) (c : Cond) (u a p : Nat) : (s.logRefusal c u a p).pending = s.pending := by
  have h := congrArg State.pending (State.logTo_frame s (.refusal p) c u [BitVec.ofNat 64 a, BitVec.ofNat 64 p])
  exact h
@[simp] theorem State.logRefusal_effOld (s : State) (c : Cond) (u a p : Nat) : (s.logRefusal c u a p).effOld = s.effOld := by
  have h := congrArg State.effOld (State.logTo_frame s (.refusal p) c u [BitVec.ofNat 64 a, BitVec.ofNat 64 p])
  exact h
@[simp] theorem State.logRefusal_copies (s : State) (c : Cond) (u a p : Nat) : (s.logRefusal c u a p).copies = s.copies := by
  have h := congrArg State.copies (State.logTo_frame s (.refusal p) c u [BitVec.ofNat 64 a, BitVec.ofNat 64 p])
  exact h
@[simp] theorem State.logRefusal_clk (s : State) (c : Cond) (u a p : Nat) : (s.logRefusal c u a p).clk = s.clk := by
  have h := congrArg State.clk (State.logTo_frame s (.refusal p) c u [BitVec.ofNat 64 a, BitVec.ofNat 64 p])
  exact h
@[simp] theorem State.logRefusal_engs (s : State) (c : Cond) (u a p : Nat) : (s.logRefusal c u a p).engs = s.engs := by
  have h := congrArg State.engs (State.logTo_frame s (.refusal p) c u [BitVec.ofNat 64 a, BitVec.ofNat 64 p])
  exact h
@[simp] theorem State.logRefusal_arb (s : State) (c : Cond) (u a p : Nat) : (s.logRefusal c u a p).arb = s.arb := by
  have h := congrArg State.arb (State.logTo_frame s (.refusal p) c u [BitVec.ofNat 64 a, BitVec.ofNat 64 p])
  exact h
@[simp] theorem State.logRefusal_sram (s : State) (c : Cond) (u a p : Nat) : (s.logRefusal c u a p).sram = s.sram := by
  have h := congrArg State.sram (State.logTo_frame s (.refusal p) c u [BitVec.ofNat 64 a, BitVec.ofNat 64 p])
  exact h
@[simp] theorem State.logRefusal_dram (s : State) (c : Cond) (u a p : Nat) : (s.logRefusal c u a p).dram = s.dram := by
  have h := congrArg State.dram (State.logTo_frame s (.refusal p) c u [BitVec.ofNat 64 a, BitVec.ofNat 64 p])
  exact h
@[simp] theorem State.logRefusal_poison (s : State) (c : Cond) (u a p : Nat) : (s.logRefusal c u a p).poison = s.poison := by
  have h := congrArg State.poison (State.logTo_frame s (.refusal p) c u [BitVec.ofNat 64 a, BitVec.ofNat 64 p])
  exact h
@[simp] theorem State.logRefusal_sramBad (s : State) (c : Cond) (u a p : Nat) : (s.logRefusal c u a p).sramBad = s.sramBad := by
  have h := congrArg State.sramBad (State.logTo_frame s (.refusal p) c u [BitVec.ofNat 64 a, BitVec.ofNat 64 p])
  exact h
@[simp] theorem State.logRefusal_fresh (s : State) (c : Cond) (u a p : Nat) : (s.logRefusal c u a p).fresh = s.fresh := by
  have h := congrArg State.fresh (State.logTo_frame s (.refusal p) c u [BitVec.ofNat 64 a, BitVec.ofNat 64 p])
  exact h
@[simp] theorem State.logRefusal_mode (s : State) (c : Cond) (u a p : Nat) : (s.logRefusal c u a p).mode = s.mode := by
  have h := congrArg State.mode (State.logTo_frame s (.refusal p) c u [BitVec.ofNat 64 a, BitVec.ofNat 64 p])
  exact h
@[simp] theorem State.logRefusal_cfg (s : State) (c : Cond) (u a p : Nat) : (s.logRefusal c u a p).cfg = s.cfg := by
  have h := congrArg State.cfg (State.logTo_frame s (.refusal p) c u [BitVec.ofNat 64 a, BitVec.ofNat 64 p])
  exact h
@[simp] theorem State.logRefusal_chans (s : State) (c : Cond) (u a p : Nat) : (s.logRefusal c u a p).chans = s.chans := by
  have h := congrArg State.chans (State.logTo_frame s (.refusal p) c u [BitVec.ofNat 64 a, BitVec.ofNat 64 p])
  exact h
@[simp] theorem State.logRefusal_banks (s : State) (c : Cond) (u a p : Nat) : (s.logRefusal c u a p).banks = s.banks := by
  have h := congrArg State.banks (State.logTo_frame s (.refusal p) c u [BitVec.ofNat 64 a, BitVec.ofNat 64 p])
  exact h
@[simp] theorem State.logRefusal_flts (s : State) (c : Cond) (u a p : Nat) : (s.logRefusal c u a p).flts = s.flts := by
  have h := congrArg State.flts (State.logTo_frame s (.refusal p) c u [BitVec.ofNat 64 a, BitVec.ofNat 64 p])
  exact h
@[simp] theorem State.logRefusal_coefs (s : State) (c : Cond) (u a p : Nat) : (s.logRefusal c u a p).coefs = s.coefs := by
  have h := congrArg State.coefs (State.logTo_frame s (.refusal p) c u [BitVec.ofNat 64 a, BitVec.ofNat 64 p])
  exact h
@[simp] theorem State.logRefusal_fasts (s : State) (c : Cond) (u a p : Nat) : (s.logRefusal c u a p).fasts = s.fasts := by
  have h := congrArg State.fasts (State.logTo_frame s (.refusal p) c u [BitVec.ofNat 64 a, BitVec.ofNat 64 p])
  exact h
@[simp] theorem State.logRefusal_fabric (s : State) (c : Cond) (u a p : Nat) : (s.logRefusal c u a p).fabric = s.fabric := by
  have h := congrArg State.fabric (State.logTo_frame s (.refusal p) c u [BitVec.ofNat 64 a, BitVec.ofNat 64 p])
  exact h
@[simp] theorem State.logRefusal_cap (s : State) (c : Cond) (u a p : Nat) : (s.logRefusal c u a p).cap = s.cap := by
  have h := congrArg State.cap (State.logTo_frame s (.refusal p) c u [BitVec.ofNat 64 a, BitVec.ofNat 64 p])
  exact h
@[simp] theorem State.logRefusal_tiv (s : State) (c : Cond) (u a p : Nat) : (s.logRefusal c u a p).tiv = s.tiv := by
  have h := congrArg State.tiv (State.logTo_frame s (.refusal p) c u [BitVec.ofNat 64 a, BitVec.ofNat 64 p])
  exact h
@[simp] theorem State.logRefusal_tbs (s : State) (c : Cond) (u a p : Nat) : (s.logRefusal c u a p).tbs = s.tbs := by
  have h := congrArg State.tbs (State.logTo_frame s (.refusal p) c u [BitVec.ofNat 64 a, BitVec.ofNat 64 p])
  exact h
@[simp] theorem State.logRefusal_pps (s : State) (c : Cond) (u a p : Nat) : (s.logRefusal c u a p).pps = s.pps := by
  have h := congrArg State.pps (State.logTo_frame s (.refusal p) c u [BitVec.ofNat 64 a, BitVec.ofNat 64 p])
  exact h
@[simp] theorem State.logRefusal_sw (s : State) (c : Cond) (u a p : Nat) : (s.logRefusal c u a p).sw = s.sw := by
  have h := congrArg State.sw (State.logTo_frame s (.refusal p) c u [BitVec.ofNat 64 a, BitVec.ofNat 64 p])
  exact h
@[simp] theorem State.logRefusal_lanes (s : State) (c : Cond) (u a p : Nat) : (s.logRefusal c u a p).lanes = s.lanes := by
  have h := congrArg State.lanes (State.logTo_frame s (.refusal p) c u [BitVec.ofNat 64 a, BitVec.ofNat 64 p])
  exact h
@[simp] theorem State.logRefusal_strm (s : State) (c : Cond) (u a p : Nat) : (s.logRefusal c u a p).strm = s.strm := by
  have h := congrArg State.strm (State.logTo_frame s (.refusal p) c u [BitVec.ofNat 64 a, BitVec.ofNat 64 p])
  exact h
@[simp] theorem State.logRefusal_strms (s : State) (c : Cond) (u a p : Nat) : (s.logRefusal c u a p).strms = s.strms := by
  have h := congrArg State.strms (State.logTo_frame s (.refusal p) c u [BitVec.ofNat 64 a, BitVec.ofNat 64 p])
  exact h
@[simp] theorem State.logRefusal_queues (s : State) (c : Cond) (u a p : Nat) : (s.logRefusal c u a p).queues = s.queues := by
  have h := congrArg State.queues (State.logTo_frame s (.refusal p) c u [BitVec.ofNat 64 a, BitVec.ofNat 64 p])
  exact h
@[simp] theorem State.logRefusal_qmem (s : State) (c : Cond) (u a p : Nat) : (s.logRefusal c u a p).qmem = s.qmem := by
  have h := congrArg State.qmem (State.logTo_frame s (.refusal p) c u [BitVec.ofNat 64 a, BitVec.ofNat 64 p])
  exact h
@[simp] theorem State.logRefusal_led (s : State) (c : Cond) (u a p : Nat) : (s.logRefusal c u a p).led = s.led := by
  have h := congrArg State.led (State.logTo_frame s (.refusal p) c u [BitVec.ofNat 64 a, BitVec.ofNat 64 p])
  exact h
@[simp] theorem State.logRefusal_peerSeq (s : State) (c : Cond) (u a p : Nat) : (s.logRefusal c u a p).peerSeq = s.peerSeq := by
  have h := congrArg State.peerSeq (State.logTo_frame s (.refusal p) c u [BitVec.ofNat 64 a, BitVec.ofNat 64 p])
  exact h
@[simp] theorem State.logRefusal_pair (s : State) (c : Cond) (u a p : Nat) : (s.logRefusal c u a p).pair = s.pair := by
  have h := congrArg State.pair (State.logTo_frame s (.refusal p) c u [BitVec.ofNat 64 a, BitVec.ofNat 64 p])
  exact h
@[simp] theorem State.logRefusal_hosts (s : State) (c : Cond) (u a p : Nat) : (s.logRefusal c u a p).hosts = s.hosts := by
  have h := congrArg State.hosts (State.logTo_frame s (.refusal p) c u [BitVec.ofNat 64 a, BitVec.ofNat 64 p])
  exact h
@[simp] theorem State.logRefusal_sp (s : State) (c : Cond) (u a p : Nat) : (s.logRefusal c u a p).sp = s.sp := by
  have h := congrArg State.sp (State.logTo_frame s (.refusal p) c u [BitVec.ofNat 64 a, BitVec.ofNat 64 p])
  exact h
@[simp] theorem State.logRefusal_ssps (s : State) (c : Cond) (u a p : Nat) : (s.logRefusal c u a p).ssps = s.ssps := by
  have h := congrArg State.ssps (State.logTo_frame s (.refusal p) c u [BitVec.ofNat 64 a, BitVec.ofNat 64 p])
  exact h
@[simp] theorem State.logRefusal_cals (s : State) (c : Cond) (u a p : Nat) : (s.logRefusal c u a p).cals = s.cals := by
  have h := congrArg State.cals (State.logTo_frame s (.refusal p) c u [BitVec.ofNat 64 a, BitVec.ofNat 64 p])
  exact h
@[simp] theorem State.logRefusal_calh (s : State) (c : Cond) (u a p : Nat) : (s.logRefusal c u a p).calh = s.calh := by
  have h := congrArg State.calh (State.logTo_frame s (.refusal p) c u [BitVec.ofNat 64 a, BitVec.ofNat 64 p])
  exact h
@[simp] theorem State.logRefusal_upd (s : State) (c : Cond) (u a p : Nat) : (s.logRefusal c u a p).upd = s.upd := by
  have h := congrArg State.upd (State.logTo_frame s (.refusal p) c u [BitVec.ofNat 64 a, BitVec.ofNat 64 p])
  exact h
@[simp] theorem State.logRefusal_ladder (s : State) (c : Cond) (u a p : Nat) : (s.logRefusal c u a p).ladder = s.ladder := by
  have h := congrArg State.ladder (State.logTo_frame s (.refusal p) c u [BitVec.ofNat 64 a, BitVec.ofNat 64 p])
  exact h

/-! ### appendRec -/

@[simp] theorem State.appendRec_pending (s : State) (d : Dest) (r : EventRec) : (s.appendRec d r).pending = s.pending := by
  have h := congrArg State.pending (State.appendRec_frame s d r)
  exact h
@[simp] theorem State.appendRec_effOld (s : State) (d : Dest) (r : EventRec) : (s.appendRec d r).effOld = s.effOld := by
  have h := congrArg State.effOld (State.appendRec_frame s d r)
  exact h
@[simp] theorem State.appendRec_copies (s : State) (d : Dest) (r : EventRec) : (s.appendRec d r).copies = s.copies := by
  have h := congrArg State.copies (State.appendRec_frame s d r)
  exact h
@[simp] theorem State.appendRec_clk (s : State) (d : Dest) (r : EventRec) : (s.appendRec d r).clk = s.clk := by
  have h := congrArg State.clk (State.appendRec_frame s d r)
  exact h
@[simp] theorem State.appendRec_engs (s : State) (d : Dest) (r : EventRec) : (s.appendRec d r).engs = s.engs := by
  have h := congrArg State.engs (State.appendRec_frame s d r)
  exact h
@[simp] theorem State.appendRec_arb (s : State) (d : Dest) (r : EventRec) : (s.appendRec d r).arb = s.arb := by
  have h := congrArg State.arb (State.appendRec_frame s d r)
  exact h
@[simp] theorem State.appendRec_sram (s : State) (d : Dest) (r : EventRec) : (s.appendRec d r).sram = s.sram := by
  have h := congrArg State.sram (State.appendRec_frame s d r)
  exact h
@[simp] theorem State.appendRec_dram (s : State) (d : Dest) (r : EventRec) : (s.appendRec d r).dram = s.dram := by
  have h := congrArg State.dram (State.appendRec_frame s d r)
  exact h
@[simp] theorem State.appendRec_poison (s : State) (d : Dest) (r : EventRec) : (s.appendRec d r).poison = s.poison := by
  have h := congrArg State.poison (State.appendRec_frame s d r)
  exact h
@[simp] theorem State.appendRec_sramBad (s : State) (d : Dest) (r : EventRec) : (s.appendRec d r).sramBad = s.sramBad := by
  have h := congrArg State.sramBad (State.appendRec_frame s d r)
  exact h
@[simp] theorem State.appendRec_fresh (s : State) (d : Dest) (r : EventRec) : (s.appendRec d r).fresh = s.fresh := by
  have h := congrArg State.fresh (State.appendRec_frame s d r)
  exact h
@[simp] theorem State.appendRec_mode (s : State) (d : Dest) (r : EventRec) : (s.appendRec d r).mode = s.mode := by
  have h := congrArg State.mode (State.appendRec_frame s d r)
  exact h
@[simp] theorem State.appendRec_cfg (s : State) (d : Dest) (r : EventRec) : (s.appendRec d r).cfg = s.cfg := by
  have h := congrArg State.cfg (State.appendRec_frame s d r)
  exact h
@[simp] theorem State.appendRec_chans (s : State) (d : Dest) (r : EventRec) : (s.appendRec d r).chans = s.chans := by
  have h := congrArg State.chans (State.appendRec_frame s d r)
  exact h
@[simp] theorem State.appendRec_banks (s : State) (d : Dest) (r : EventRec) : (s.appendRec d r).banks = s.banks := by
  have h := congrArg State.banks (State.appendRec_frame s d r)
  exact h
@[simp] theorem State.appendRec_flts (s : State) (d : Dest) (r : EventRec) : (s.appendRec d r).flts = s.flts := by
  have h := congrArg State.flts (State.appendRec_frame s d r)
  exact h
@[simp] theorem State.appendRec_coefs (s : State) (d : Dest) (r : EventRec) : (s.appendRec d r).coefs = s.coefs := by
  have h := congrArg State.coefs (State.appendRec_frame s d r)
  exact h
@[simp] theorem State.appendRec_fasts (s : State) (d : Dest) (r : EventRec) : (s.appendRec d r).fasts = s.fasts := by
  have h := congrArg State.fasts (State.appendRec_frame s d r)
  exact h
@[simp] theorem State.appendRec_fabric (s : State) (d : Dest) (r : EventRec) : (s.appendRec d r).fabric = s.fabric := by
  have h := congrArg State.fabric (State.appendRec_frame s d r)
  exact h
@[simp] theorem State.appendRec_cap (s : State) (d : Dest) (r : EventRec) : (s.appendRec d r).cap = s.cap := by
  have h := congrArg State.cap (State.appendRec_frame s d r)
  exact h
@[simp] theorem State.appendRec_tiv (s : State) (d : Dest) (r : EventRec) : (s.appendRec d r).tiv = s.tiv := by
  have h := congrArg State.tiv (State.appendRec_frame s d r)
  exact h
@[simp] theorem State.appendRec_tbs (s : State) (d : Dest) (r : EventRec) : (s.appendRec d r).tbs = s.tbs := by
  have h := congrArg State.tbs (State.appendRec_frame s d r)
  exact h
@[simp] theorem State.appendRec_pps (s : State) (d : Dest) (r : EventRec) : (s.appendRec d r).pps = s.pps := by
  have h := congrArg State.pps (State.appendRec_frame s d r)
  exact h
@[simp] theorem State.appendRec_sw (s : State) (d : Dest) (r : EventRec) : (s.appendRec d r).sw = s.sw := by
  have h := congrArg State.sw (State.appendRec_frame s d r)
  exact h
@[simp] theorem State.appendRec_lanes (s : State) (d : Dest) (r : EventRec) : (s.appendRec d r).lanes = s.lanes := by
  have h := congrArg State.lanes (State.appendRec_frame s d r)
  exact h
@[simp] theorem State.appendRec_strm (s : State) (d : Dest) (r : EventRec) : (s.appendRec d r).strm = s.strm := by
  have h := congrArg State.strm (State.appendRec_frame s d r)
  exact h
@[simp] theorem State.appendRec_strms (s : State) (d : Dest) (r : EventRec) : (s.appendRec d r).strms = s.strms := by
  have h := congrArg State.strms (State.appendRec_frame s d r)
  exact h
@[simp] theorem State.appendRec_queues (s : State) (d : Dest) (r : EventRec) : (s.appendRec d r).queues = s.queues := by
  have h := congrArg State.queues (State.appendRec_frame s d r)
  exact h
@[simp] theorem State.appendRec_qmem (s : State) (d : Dest) (r : EventRec) : (s.appendRec d r).qmem = s.qmem := by
  have h := congrArg State.qmem (State.appendRec_frame s d r)
  exact h
@[simp] theorem State.appendRec_led (s : State) (d : Dest) (r : EventRec) : (s.appendRec d r).led = s.led := by
  have h := congrArg State.led (State.appendRec_frame s d r)
  exact h
@[simp] theorem State.appendRec_peerSeq (s : State) (d : Dest) (r : EventRec) : (s.appendRec d r).peerSeq = s.peerSeq := by
  have h := congrArg State.peerSeq (State.appendRec_frame s d r)
  exact h
@[simp] theorem State.appendRec_pair (s : State) (d : Dest) (r : EventRec) : (s.appendRec d r).pair = s.pair := by
  have h := congrArg State.pair (State.appendRec_frame s d r)
  exact h
@[simp] theorem State.appendRec_hosts (s : State) (d : Dest) (r : EventRec) : (s.appendRec d r).hosts = s.hosts := by
  have h := congrArg State.hosts (State.appendRec_frame s d r)
  exact h
@[simp] theorem State.appendRec_sp (s : State) (d : Dest) (r : EventRec) : (s.appendRec d r).sp = s.sp := by
  have h := congrArg State.sp (State.appendRec_frame s d r)
  exact h
@[simp] theorem State.appendRec_ssps (s : State) (d : Dest) (r : EventRec) : (s.appendRec d r).ssps = s.ssps := by
  have h := congrArg State.ssps (State.appendRec_frame s d r)
  exact h
@[simp] theorem State.appendRec_cals (s : State) (d : Dest) (r : EventRec) : (s.appendRec d r).cals = s.cals := by
  have h := congrArg State.cals (State.appendRec_frame s d r)
  exact h
@[simp] theorem State.appendRec_calh (s : State) (d : Dest) (r : EventRec) : (s.appendRec d r).calh = s.calh := by
  have h := congrArg State.calh (State.appendRec_frame s d r)
  exact h
@[simp] theorem State.appendRec_upd (s : State) (d : Dest) (r : EventRec) : (s.appendRec d r).upd = s.upd := by
  have h := congrArg State.upd (State.appendRec_frame s d r)
  exact h
@[simp] theorem State.appendRec_ladder (s : State) (d : Dest) (r : EventRec) : (s.appendRec d r).ladder = s.ladder := by
  have h := congrArg State.ladder (State.appendRec_frame s d r)
  exact h

/-! ### appendCont -/

@[simp] theorem State.appendCont_pending (s : State) (d : Dest) (r : EventRec) (l : List W64) : (s.appendCont d r l).pending = s.pending := by
  have h := congrArg State.pending (State.appendCont_frame s d r l)
  exact h
@[simp] theorem State.appendCont_effOld (s : State) (d : Dest) (r : EventRec) (l : List W64) : (s.appendCont d r l).effOld = s.effOld := by
  have h := congrArg State.effOld (State.appendCont_frame s d r l)
  exact h
@[simp] theorem State.appendCont_copies (s : State) (d : Dest) (r : EventRec) (l : List W64) : (s.appendCont d r l).copies = s.copies := by
  have h := congrArg State.copies (State.appendCont_frame s d r l)
  exact h
@[simp] theorem State.appendCont_clk (s : State) (d : Dest) (r : EventRec) (l : List W64) : (s.appendCont d r l).clk = s.clk := by
  have h := congrArg State.clk (State.appendCont_frame s d r l)
  exact h
@[simp] theorem State.appendCont_engs (s : State) (d : Dest) (r : EventRec) (l : List W64) : (s.appendCont d r l).engs = s.engs := by
  have h := congrArg State.engs (State.appendCont_frame s d r l)
  exact h
@[simp] theorem State.appendCont_arb (s : State) (d : Dest) (r : EventRec) (l : List W64) : (s.appendCont d r l).arb = s.arb := by
  have h := congrArg State.arb (State.appendCont_frame s d r l)
  exact h
@[simp] theorem State.appendCont_sram (s : State) (d : Dest) (r : EventRec) (l : List W64) : (s.appendCont d r l).sram = s.sram := by
  have h := congrArg State.sram (State.appendCont_frame s d r l)
  exact h
@[simp] theorem State.appendCont_dram (s : State) (d : Dest) (r : EventRec) (l : List W64) : (s.appendCont d r l).dram = s.dram := by
  have h := congrArg State.dram (State.appendCont_frame s d r l)
  exact h
@[simp] theorem State.appendCont_poison (s : State) (d : Dest) (r : EventRec) (l : List W64) : (s.appendCont d r l).poison = s.poison := by
  have h := congrArg State.poison (State.appendCont_frame s d r l)
  exact h
@[simp] theorem State.appendCont_sramBad (s : State) (d : Dest) (r : EventRec) (l : List W64) : (s.appendCont d r l).sramBad = s.sramBad := by
  have h := congrArg State.sramBad (State.appendCont_frame s d r l)
  exact h
@[simp] theorem State.appendCont_fresh (s : State) (d : Dest) (r : EventRec) (l : List W64) : (s.appendCont d r l).fresh = s.fresh := by
  have h := congrArg State.fresh (State.appendCont_frame s d r l)
  exact h
@[simp] theorem State.appendCont_mode (s : State) (d : Dest) (r : EventRec) (l : List W64) : (s.appendCont d r l).mode = s.mode := by
  have h := congrArg State.mode (State.appendCont_frame s d r l)
  exact h
@[simp] theorem State.appendCont_cfg (s : State) (d : Dest) (r : EventRec) (l : List W64) : (s.appendCont d r l).cfg = s.cfg := by
  have h := congrArg State.cfg (State.appendCont_frame s d r l)
  exact h
@[simp] theorem State.appendCont_chans (s : State) (d : Dest) (r : EventRec) (l : List W64) : (s.appendCont d r l).chans = s.chans := by
  have h := congrArg State.chans (State.appendCont_frame s d r l)
  exact h
@[simp] theorem State.appendCont_banks (s : State) (d : Dest) (r : EventRec) (l : List W64) : (s.appendCont d r l).banks = s.banks := by
  have h := congrArg State.banks (State.appendCont_frame s d r l)
  exact h
@[simp] theorem State.appendCont_flts (s : State) (d : Dest) (r : EventRec) (l : List W64) : (s.appendCont d r l).flts = s.flts := by
  have h := congrArg State.flts (State.appendCont_frame s d r l)
  exact h
@[simp] theorem State.appendCont_coefs (s : State) (d : Dest) (r : EventRec) (l : List W64) : (s.appendCont d r l).coefs = s.coefs := by
  have h := congrArg State.coefs (State.appendCont_frame s d r l)
  exact h
@[simp] theorem State.appendCont_fasts (s : State) (d : Dest) (r : EventRec) (l : List W64) : (s.appendCont d r l).fasts = s.fasts := by
  have h := congrArg State.fasts (State.appendCont_frame s d r l)
  exact h
@[simp] theorem State.appendCont_fabric (s : State) (d : Dest) (r : EventRec) (l : List W64) : (s.appendCont d r l).fabric = s.fabric := by
  have h := congrArg State.fabric (State.appendCont_frame s d r l)
  exact h
@[simp] theorem State.appendCont_cap (s : State) (d : Dest) (r : EventRec) (l : List W64) : (s.appendCont d r l).cap = s.cap := by
  have h := congrArg State.cap (State.appendCont_frame s d r l)
  exact h
@[simp] theorem State.appendCont_tiv (s : State) (d : Dest) (r : EventRec) (l : List W64) : (s.appendCont d r l).tiv = s.tiv := by
  have h := congrArg State.tiv (State.appendCont_frame s d r l)
  exact h
@[simp] theorem State.appendCont_tbs (s : State) (d : Dest) (r : EventRec) (l : List W64) : (s.appendCont d r l).tbs = s.tbs := by
  have h := congrArg State.tbs (State.appendCont_frame s d r l)
  exact h
@[simp] theorem State.appendCont_pps (s : State) (d : Dest) (r : EventRec) (l : List W64) : (s.appendCont d r l).pps = s.pps := by
  have h := congrArg State.pps (State.appendCont_frame s d r l)
  exact h
@[simp] theorem State.appendCont_sw (s : State) (d : Dest) (r : EventRec) (l : List W64) : (s.appendCont d r l).sw = s.sw := by
  have h := congrArg State.sw (State.appendCont_frame s d r l)
  exact h
@[simp] theorem State.appendCont_lanes (s : State) (d : Dest) (r : EventRec) (l : List W64) : (s.appendCont d r l).lanes = s.lanes := by
  have h := congrArg State.lanes (State.appendCont_frame s d r l)
  exact h
@[simp] theorem State.appendCont_strm (s : State) (d : Dest) (r : EventRec) (l : List W64) : (s.appendCont d r l).strm = s.strm := by
  have h := congrArg State.strm (State.appendCont_frame s d r l)
  exact h
@[simp] theorem State.appendCont_strms (s : State) (d : Dest) (r : EventRec) (l : List W64) : (s.appendCont d r l).strms = s.strms := by
  have h := congrArg State.strms (State.appendCont_frame s d r l)
  exact h
@[simp] theorem State.appendCont_queues (s : State) (d : Dest) (r : EventRec) (l : List W64) : (s.appendCont d r l).queues = s.queues := by
  have h := congrArg State.queues (State.appendCont_frame s d r l)
  exact h
@[simp] theorem State.appendCont_qmem (s : State) (d : Dest) (r : EventRec) (l : List W64) : (s.appendCont d r l).qmem = s.qmem := by
  have h := congrArg State.qmem (State.appendCont_frame s d r l)
  exact h
@[simp] theorem State.appendCont_led (s : State) (d : Dest) (r : EventRec) (l : List W64) : (s.appendCont d r l).led = s.led := by
  have h := congrArg State.led (State.appendCont_frame s d r l)
  exact h
@[simp] theorem State.appendCont_peerSeq (s : State) (d : Dest) (r : EventRec) (l : List W64) : (s.appendCont d r l).peerSeq = s.peerSeq := by
  have h := congrArg State.peerSeq (State.appendCont_frame s d r l)
  exact h
@[simp] theorem State.appendCont_pair (s : State) (d : Dest) (r : EventRec) (l : List W64) : (s.appendCont d r l).pair = s.pair := by
  have h := congrArg State.pair (State.appendCont_frame s d r l)
  exact h
@[simp] theorem State.appendCont_hosts (s : State) (d : Dest) (r : EventRec) (l : List W64) : (s.appendCont d r l).hosts = s.hosts := by
  have h := congrArg State.hosts (State.appendCont_frame s d r l)
  exact h
@[simp] theorem State.appendCont_sp (s : State) (d : Dest) (r : EventRec) (l : List W64) : (s.appendCont d r l).sp = s.sp := by
  have h := congrArg State.sp (State.appendCont_frame s d r l)
  exact h
@[simp] theorem State.appendCont_ssps (s : State) (d : Dest) (r : EventRec) (l : List W64) : (s.appendCont d r l).ssps = s.ssps := by
  have h := congrArg State.ssps (State.appendCont_frame s d r l)
  exact h
@[simp] theorem State.appendCont_cals (s : State) (d : Dest) (r : EventRec) (l : List W64) : (s.appendCont d r l).cals = s.cals := by
  have h := congrArg State.cals (State.appendCont_frame s d r l)
  exact h
@[simp] theorem State.appendCont_calh (s : State) (d : Dest) (r : EventRec) (l : List W64) : (s.appendCont d r l).calh = s.calh := by
  have h := congrArg State.calh (State.appendCont_frame s d r l)
  exact h
@[simp] theorem State.appendCont_upd (s : State) (d : Dest) (r : EventRec) (l : List W64) : (s.appendCont d r l).upd = s.upd := by
  have h := congrArg State.upd (State.appendCont_frame s d r l)
  exact h
@[simp] theorem State.appendCont_ladder (s : State) (d : Dest) (r : EventRec) (l : List W64) : (s.appendCont d r l).ladder = s.ladder := by
  have h := congrArg State.ladder (State.appendCont_frame s d r l)
  exact h

end Sys2Proof.Machine
end

