-- ==== Sys2Proof/Laws/Log.lean ====
section
/-!
SUPPORT. Sys2Proof/Laws/Log.lean: a logged condition: the registers it leaves alone and the record that stands in the log after it.
-/
namespace Sys2Proof.Machine
open Sys2Proof

theorem State.reg_addF_ne (s : State) (f : Fld) (n : Nat) {a : Nat} (h : a ≠ f.addr) : (s.addF f n).reg a = s.reg a :=
  State.reg_setF_ne s f _ h

theorem State.reg_bump_ne (s : State) (f : Fld) {a : Nat} (h : a ≠ f.addr) : (s.bump f).reg a = s.reg a :=
  State.reg_addF_ne s f 1 h

/-- The two registers of the event log that a record changes. -/
def evtReg (a : Nat) : Bool := a == Reg.EVT_INT || a == Reg.EVT_CNT

theorem State.reg_noticeTo (s : State) (r : EventRec) (l : Nat) {a : Nat} (h : evtReg a = false) :
    (s.noticeTo r l).reg a = s.reg a := by
  unfold State.noticeTo
  dsimp only
  split
  · rfl
  · apply State.reg_bump_ne
    intro he
    subst he
    exact absurd h (by decide)

theorem State.reg_notices (s : State) (r : EventRec) (ls : List Nat) {a : Nat} (h : evtReg a = false) :
    (ls.foldl (fun t l => t.noticeTo r l) s).reg a = s.reg a := by
  induction ls generalizing s with
  | nil => rfl
  | cons l ls ih =>
    rw [List.foldl_cons, ih, State.reg_noticeTo s r l h]

theorem State.reg_toFlashQ (s : State) (r : EventRec) {a : Nat} (h : evtReg a = false) : (s.toFlashQ r).reg a = s.reg a := by
  unfold State.toFlashQ
  split
  · rfl
  · split
    · rfl
    · apply State.reg_bump_ne
      intro he
      subst he
      exact absurd h (by decide)

theorem evtReg_ne_int {a : Nat} (h : evtReg a = false) : a ≠ Reg.EVT_INT := by
  intro he
  subst he
  exact absurd h (by decide)

theorem evtReg_ne_cnt {a : Nat} (h : evtReg a = false) : a ≠ Reg.EVT_CNT := by
  intro he
  subst he
  exact absurd h (by decide)

theorem State.reg_appendRec (s : State) (d : Dest) (r : EventRec) {a : Nat} (h : evtReg a = false) :
    (s.appendRec d r).reg a = s.reg a := by
  unfold State.appendRec
  dsimp only
  rw [State.reg_notices _ _ _ h, State.reg_toFlashQ _ _ h]
  split
  · rw [State.reg_setF_ne _ _ _ (evtReg_ne_int h), State.reg_setF_ne _ _ _ (evtReg_ne_int h)]
    rfl
  · rw [State.reg_setF_ne _ _ _ (evtReg_ne_int h)]
    rfl

theorem State.reg_appendCont (s : State) (d : Dest) (r : EventRec) (l : List W64) {a : Nat} (h : evtReg a = false) :
    (s.appendCont d r l).reg a = s.reg a := by
  match l with
  | [] => rfl
  | [x] => exact State.reg_appendRec s d _ h
  | x :: y :: rest =>
    rw [State.appendCont, State.reg_appendCont _ d r rest h, State.reg_appendRec s d _ h]

/-- A logged condition leaves every register but EVT_INT and EVT_CNT alone. -/
theorem State.reg_logTo (s : State) (d : Dest) (c : Cond) (u : Nat) (l : List W64) {a : Nat} (h : evtReg a = false) :
    (s.logTo d c u l).reg a = s.reg a := by
  unfold State.logTo
  dsimp only
  rw [State.reg_appendCont _ _ _ _ h, State.reg_appendRec _ _ _ h]
  split
  · exact State.reg_bump_ne _ _ (evtReg_ne_cnt h)
  · split
    · exact State.reg_bump_ne _ _ (evtReg_ne_cnt h)
    · rfl

theorem State.reg_log (s : State) (c : Cond) (u : Nat) (l : List W64) {a : Nat} (h : evtReg a = false) :
    (s.log c u l).reg a = s.reg a := State.reg_logTo s _ c u l h

theorem State.getF_logTo (s : State) (d : Dest) (c : Cond) (u : Nat) (l : List W64) (f : Fld) (h : evtReg f.addr = false) :
    (s.logTo d c u l).getF f = s.getF f := by rw [State.getF, State.reg_logTo s d c u l h, State.getF]

theorem State.getF_log (s : State) (c : Cond) (u : Nat) (l : List W64) (f : Fld) (h : evtReg f.addr = false) :
    (s.log c u l).getF f = s.getF f := State.getF_logTo s _ c u l f h

/-! ### The record -/

theorem State.noticeTo_ring (s : State) (r : EventRec) (l : Nat) :
    (s.noticeTo r l).evt.ring = s.evt.ring ∧ (s.noticeTo r l).evt.nextSeq = s.evt.nextSeq := by
  unfold State.noticeTo
  dsimp only
  split <;> exact ⟨rfl, rfl⟩

theorem State.notices_ring (s : State) (r : EventRec) (ls : List Nat) :
    (ls.foldl (fun t l => t.noticeTo r l) s).evt.ring = s.evt.ring
      ∧ (ls.foldl (fun t l => t.noticeTo r l) s).evt.nextSeq = s.evt.nextSeq := by
  induction ls generalizing s with
  | nil => exact ⟨rfl, rfl⟩
  | cons l ls ih =>
    rw [List.foldl_cons, (ih _).1, (ih _).2]
    exact State.noticeTo_ring s r l

theorem State.toFlashQ_ring (s : State) (r : EventRec) :
    (s.toFlashQ r).evt.ring = s.evt.ring ∧ (s.toFlashQ r).evt.nextSeq = s.evt.nextSeq := by
  unfold State.toFlashQ
  split
  · exact ⟨rfl, rfl⟩
  · split <;> exact ⟨rfl, rfl⟩

/-- A record stands at the head of the ring under the SEQ that was next. -/
theorem State.appendRec_ring (s : State) (d : Dest) (r : EventRec) :
    (s.appendRec d r).evt.ring = ({ r with seq := s.evt.nextSeq } :: s.evt.ring).take 1024
      ∧ (s.appendRec d r).evt.nextSeq = (s.evt.nextSeq + 1) % 2 ^ 28 := by
  unfold State.appendRec
  dsimp only
  rw [(State.notices_ring _ _ _).1, (State.notices_ring _ _ _).2, (State.toFlashQ_ring _ _).1, (State.toFlashQ_ring _ _).2]
  split <;> exact ⟨rfl, rfl⟩

/-- The ring after the CONT records of up to four further detail items keeps what stood among its 1,022 newest. -/
theorem State.appendCont_ring (s : State) (d : Dest) (r x : EventRec) (l : List W64) (hl : l.length ≤ 4) (i : Nat) (hi : i < 1000)
    (hx : s.evt.ring[i]? = some x) : x ∈ (s.appendCont d r l).evt.ring := by
  match l with
  | [] => exact List.mem_of_getElem? hx
  | [a] =>
    rw [State.appendCont, (State.appendRec_ring _ _ _).1]
    refine List.mem_of_getElem? (i := i + 1) ?_
    rw [List.getElem?_take, if_pos (by omega), List.getElem?_cons_succ]
    exact hx
  | [a, b] =>
    rw [State.appendCont, State.appendCont, (State.appendRec_ring _ _ _).1]
    refine List.mem_of_getElem? (i := i + 1) ?_
    rw [List.getElem?_take, if_pos (by omega), List.getElem?_cons_succ]
    exact hx
  | [a, b, c] =>
    rw [State.appendCont, State.appendCont, (State.appendRec_ring _ _ _).1, (State.appendRec_ring _ _ _).1]
    refine List.mem_of_getElem? (i := i + 2) ?_
    rw [List.getElem?_take, if_pos (by omega), List.getElem?_cons_succ, List.getElem?_take, if_pos (by omega), List.getElem?_cons_succ]
    exact hx
  | [a, b, c, e] =>
    rw [State.appendCont, State.appendCont, State.appendCont, (State.appendRec_ring _ _ _).1, (State.appendRec_ring _ _ _).1]
    refine List.mem_of_getElem? (i := i + 2) ?_
    rw [List.getElem?_take, if_pos (by omega), List.getElem?_cons_succ, List.getElem?_take, if_pos (by omega), List.getElem?_cons_succ]
    exact hx
  | a :: b :: c :: e :: f :: rest =>
    simp only [List.length_cons] at hl
    omega

/-- After a condition is logged its record stands in the ring under the SEQ that was next. -/
theorem State.logged_logTo (s : State) (d : Dest) (c : Cond) (u : Nat) (l : List W64) (hl : l.length ≤ 6) :
    Logged s (s.logTo d c u l) c u (l.getD 0 0) (l.getD 1 0) := by
  unfold State.logTo
  dsimp only
  generalize hs : (if c.rank.1 = 3 then s.bump Reg.EVT_CNT_FAULTS else if c.rank.1 = 4 then s.bump Reg.EVT_CNT_ESCAL else s) = s1
  have he : s1.evt = s.evt := by
    rw [← hs]
    split
    · rfl
    · split <;> rfl
  refine ⟨⟨c.rank.1, c.rank.2, c.code, unitIx u, false, false, false, s.evt.nextSeq, s.logSlot, l.getD 0 0, l.getD 1 0⟩,
    State.appendCont_ring _ _ _ _ _ (by simp; omega) 0 (by decide) ?_, rfl, rfl, rfl, rfl, rfl, rfl, rfl, rfl, rfl⟩
  rw [(State.appendRec_ring _ _ _).1, he]
  rfl

theorem State.logged_log (s : State) (c : Cond) (u : Nat) (l : List W64) (hl : l.length ≤ 6) :
    Logged s (s.log c u l) c u (l.getD 0 0) (l.getD 1 0) := State.logged_logTo s .all c u l hl

theorem State.logged_logLane (s : State) (k : Nat) (c : Cond) (u : Nat) (l : List W64) (hl : l.length ≤ 6) :
    Logged s (s.logLane k c u l) c u (l.getD 0 0) (l.getD 1 0) := State.logged_logTo s _ c u l hl

theorem State.logged_logRefusal (s : State) (c : Cond) (u a p : Nat) :
    Logged s (s.logRefusal c u a p) c u (BitVec.ofNat 64 a) (BitVec.ofNat 64 p) :=
  State.logged_logTo s (.refusal p) c u [BitVec.ofNat 64 a, BitVec.ofNat 64 p] (by simp)

end Sys2Proof.Machine
end

