-- ==== Sys2Proof/WellFormed.lean ====
section
/-!
DEFINITION. Sys2Proof/WellFormed.lean: which commands can reach the hub. Most operands are bounded by their types; what is left are the
lengths of frames and transactions (R274, R301, R356, R388), the addresses and the two channels of the DRAM (R21) and counts that
cannot exceed one another. `exec` gives every command a meaning; well-formedness says which of them the hardware can be sent.
-/
namespace Sys2Proof

/-- The words after word 0 fit a command frame: NW is at most 132 (R356). -/
def fitsCommand (n : Nat) : Bool := decide (n ≤ 132)

/-- The words of a Neilpol frame: at most 1,064 payload octets (R301). -/
def fitsNeilpol (n : Nat) : Bool := decide (n ≤ 133)

/-- A pair frame has words 0 to 3 (R388). -/
def pairFrame (n : Nat) : Bool := decide (4 ≤ n) && fitsNeilpol n

/-- An address of the DRAM's 8 GiB (R21). -/
def dramAddress (a : Nat) : Bool := decide (a < 2 ^ 33)

/-- A frame as a lane delivers it: 64 to 1,522 octets that hold its payload words (R274). -/
def Frame.wf (f : Frame) : Bool := decide (64 ≤ f.octets) && decide (f.octets ≤ 1522) && decide (8 * f.words.length ≤ f.octets)

/-- A command that can reach the hub. The operands of the commands not named are bounded by their types. -/
def Instr.wf : Instr → Bool
  | .frameReceived _ f _ => f.wf
  | .write _ _ _ values => fitsCommand (1 + values.length)
  | .mwrite _ _ words => fitsCommand words.length
  | .cfgWrite _ _ _ words => fitsCommand (1 + words.length)
  | .programCommand _ _ _ words => fitsCommand words.length
  | .decode _ _ _ block => fitsCommand (1 + block.length)
  | .updPiece _ _ _ _ data => fitsCommand (2 + data.length)
  | .peerPacket _ _ _ words => fitsNeilpol words.length
  | .pairState _ words => pairFrame words.length
  | .mirror _ words => pairFrame words.length
  | .propose _ words => pairFrame words.length
  | .accept _ words => pairFrame words.length
  | .refuse _ words => pairFrame words.length
  | .release _ words => pairFrame words.length
  | .dramEccError _ _ addr => dramAddress addr
  | .scrub corrected => decide (corrected.length ≤ 2)
  | .captureCopyDone failing => failing.all dramAddress
  | .prbsLock _ errors bits => decide (errors ≤ bits)
  | .prbsLocklost _ errors bits span => decide (errors ≤ bits) && decide (span ≤ bits)
  | _ => true

end Sys2Proof
end

