-- ==== Sys2Proof/Tests/Slice0.lean ====
section
/-!
SUPPORT. Sys2Proof/Tests/Slice0.lean: tests. Each is a named theorem about single commands on small states. A theorem test_<X> named
after an obligation shows, clause by clause, concrete states and operands that meet the hypotheses of that obligation
together, with what the rules give for the command there; the expected values are worked from the rules by hand.
-/
open Sys2Proof Sys2Proof.Machine

namespace Sys2Proof.Tests
set_option Elab.async false

/-- The command answers a next state of which p holds. -/
def after (c : Instr) (s : State) (p : State → Bool) : Bool :=
  match exec c s with
  | .next t => p t
  | _ => false

/-- The command leaves the state as it is. -/
def idle (c : Instr) (s : State) : Bool := after c s (fun t => decide (t = s))

/-- The newest record of the log but for continuations is the condition with that unit and those first two detail items. -/
def logged (t : State) (c : Cond) (unit : Nat) (d2 d3 : W64) : Bool :=
  match t.evt.ring.find? (fun r => !r.cont) with
  | some r => r.code == c.code && r.cls == c.rank.1 && r.level == c.rank.2 && r.unit == unit && r.d2 == d2 && r.d3 == d3
  | none => false

/-- The command is refused: logged with the word and the port, with nothing else changed. -/
def refused (c : Instr) (s : State) (cond : Cond) (unit what port : Nat) : Bool :=
  after c s (fun t => logged t cond unit (BitVec.ofNat 64 what) (BitVec.ofNat 64 port) && decide ({ t with regs := s.regs, evt := s.evt } = s))

/-- A running hub in Basecamp with a valid configuration, whose management serial port is an owner and whose lane 0 is an operator. -/
def live : State := (({ State.reset with mode := { phase := .running } }.setF Reg.SYS_AUTH_SP 2).setF Reg.SYS_AUTH_L0 1).setF Reg.CFG_STATUS_LOADED 1

/-- A running hub with one engine. -/
def withEng (en : EngSt) : State := { live with engs := [(0, en)] }

/-- The guard that always holds, and the one that never does. -/
def always : Guard := { pg := 0, pn := false }
def never : Guard := { pg := 0, pn := true }

/-! ### Well-formedness: an ill-formed operand for each check -/

def hdr : CmdHdr := { tag := 0, src := 5, sub := false }
def frame0 : Frame := { dst := 1, src := 2, etype := 0x0800, vid := none, pcp := 0, udp := none, ptp := none, words := [7], octets := 64, fcsOk := true }

theorem test_wf_refuses :
    Instr.wf (.frameReceived 0 { frame0 with octets := 63 } 0) = false ∧ Instr.wf (.frameReceived 0 { frame0 with octets := 1523 } 0) = false
    ∧ Instr.wf (.frameReceived 0 { frame0 with words := List.replicate 9 0 } 0) = false
    ∧ Instr.wf (.write 0 hdr 0 (List.replicate 132 0)) = false ∧ Instr.wf (.mwrite 0 hdr (List.replicate 133 0)) = false
    ∧ Instr.wf (.cfgWrite 0 hdr 0 (List.replicate 132 0)) = false ∧ Instr.wf (.programCommand 0 hdr 128 (List.replicate 133 0)) = false
    ∧ Instr.wf (.decode 0 hdr 0 (List.replicate 132 0)) = false ∧ Instr.wf (.updPiece 0 hdr 0 0 (List.replicate 131 0)) = false
    ∧ Instr.wf (.peerPacket 0 0 0 (List.replicate 134 0)) = false ∧ Instr.wf (.pairState 0 [0, 0, 0]) = false
    ∧ Instr.wf (.mirror 0 [0, 0, 0]) = false ∧ Instr.wf (.propose 0 [0, 0, 0]) = false ∧ Instr.wf (.accept 0 [0, 0, 0]) = false
    ∧ Instr.wf (.refuse 0 [0, 0, 0]) = false ∧ Instr.wf (.release 0 (List.replicate 134 0)) = false
    ∧ Instr.wf (.dramEccError 0 .bulk (2 ^ 33)) = false ∧ Instr.wf (.scrub [0, 0, 0]) = false ∧ Instr.wf (.captureCopyDone [2 ^ 33]) = false
    ∧ Instr.wf (.prbsLocklost 0 2 1 0) = false := by decide +kernel

theorem test_wf_accepts :
    Instr.wf (.frameReceived 0 frame0 0) = true ∧ Instr.wf (.write 0 hdr 0 (List.replicate 131 0)) = true ∧ Instr.wf (.pairState 0 [0, 0, 0, 0]) = true
    ∧ Instr.wf (.dramEccError 0 .bulk (2 ^ 33 - 1)) = true ∧ Instr.wf .reset = true := by decide +kernel

/-- The opcode table gives no row any bits: no word spells a command. -/
theorem test_decode : decodeTableWord 32 0x10000000 = none ∧ decodeTableWord 8 0 = none := by decide

/-! ### Koloux -/

/-- w1 = 7, w2 = −3, w3 = 2^63 − 1, w4 = 66 (a shift by 2), w5 = 0x0001_FFFF_0003_FFFE; a0 = 2^64 + 3 · 2^63, p1 = 1, at index 10. -/
def k0 : EngSt :=
  { running := true, pc := 10, slot := 5, p := 3, w := [(1, 7), (2, -3), (3, 0x7FFFFFFFFFFFFFFF), (4, 66), (5, 0x0001FFFF0003FFFE)]
    a := [(0, 0x28000000000000000)] }

/-- The instruction writes v into rd and moves on. -/
def gives (c : Instr) (rd : Nat) (v : W64) : Bool :=
  after c (withEng k0) (fun t => (t.eng 0).rw rd == v && (t.eng 0).pc == 11)

theorem test_KolouxIntegerResults :
    IssuesIf (withEng k0) 0 always
    ∧ gives (.add 0 always 9 1 2) 9 4 ∧ gives (.add 0 always 0 1 2) 0 0 ∧ gives (.sub 0 always 1 1 2) 1 10 ∧ gives (.and_ 0 always 9 1 2) 9 5
    ∧ gives (.or_ 0 always 9 1 4) 9 71 ∧ gives (.xor 0 always 9 1 4) 9 69 ∧ gives (.andn 0 always 9 1 4) 9 5
    ∧ gives (.shl 0 always 9 1 4) 9 28 ∧ gives (.shr 0 always 9 2 4) 9 0x3FFFFFFFFFFFFFFF ∧ gives (.sar 0 always 9 2 4) 9 (-1)
    ∧ gives (.ror 0 always 9 1 4) 9 0xC000000000000001 ∧ gives (.ror 0 always 9 1 0) 9 7
    ∧ gives (.min_ 0 always 9 1 2) 9 (-3) ∧ gives (.max_ 0 always 9 1 2) 9 7 ∧ gives (.minu 0 always 9 1 2) 9 7
    ∧ gives (.maxu 0 always 9 1 2) 9 (-3) ∧ gives (.abs_ 0 always 9 2) 9 3 ∧ gives (.adds 0 always 9 3 1) 9 0x7FFFFFFFFFFFFFFF
    ∧ gives (.subs 0 always 9 2 3) 9 0x8000000000000000 ∧ gives (.clz 0 always 9 1) 9 61 ∧ gives (.clz 0 always 9 0) 9 64
    ∧ gives (.popc 0 always 9 1) 9 3 ∧ gives (.mul 0 always 9 1 2) 9 (-21) ∧ gives (.mulhs 0 always 9 1 2) 9 (-1)
    ∧ gives (.mulhu 0 always 9 1 2) 9 6
    ∧ gives (.addi 0 9 1 0xFFFF) 9 6 ∧ gives (.andi 0 9 2 0xFFFF) 9 0xFFFD ∧ gives (.ori 0 9 1 0x8000) 9 0x8007
    ∧ gives (.xori 0 9 1 3) 9 4 ∧ gives (.shli 0 9 1 63) 9 0x8000000000000000 ∧ gives (.shri 0 9 2 63) 9 1 ∧ gives (.sari 0 9 2 63) 9 (-1)
    ∧ gives (.li 0 9 0x8000) 9 (-0x8000) ∧ gives (.cati 0 9 1 0xFFFF) 9 0x7FFFF := by
  unfold IssuesIf Issues; decide +kernel

/-- The instruction writes b into pd and moves on. -/
def sets (c : Instr) (pd : Nat) (b : Bool) : Bool :=
  after c (withEng k0) (fun t => (t.eng 0).rp pd == b && (t.eng 0).pc == 11)

theorem test_KolouxCompareAndSpecialResults :
    Issues (withEng k0) 0 ∧ IssuesIf (withEng k0) 0 always
    ∧ sets (.cmpeq 0 always 0 2 1 1) 2 true ∧ sets (.cmpne 0 always 1 1 1 1) 1 false ∧ sets (.cmplt 0 always 2 2 2 1) 2 true
    ∧ sets (.cmpge 0 always 0 2 2 1) 2 false ∧ sets (.cmpltu 0 always 0 2 2 1) 2 false ∧ sets (.cmpgeu 0 always 0 2 2 1) 2 true
    ∧ sets (.cmptst 0 always 0 2 1 4) 2 true ∧ sets (.cmpeqi 0 0 2 2 0xFFFD) 2 true ∧ sets (.cmpnei 0 0 2 2 0xFFFD) 2 false
    ∧ sets (.cmplti 0 0 2 2 0xFFFE) 2 true ∧ sets (.cmpgei 0 0 2 1 0xFFFE) 2 true ∧ sets (.cmpltui 0 0 2 1 0xFFFE) 2 true
    ∧ sets (.cmpgeui 0 0 2 2 0xFFFE) 2 true ∧ sets (.cmpeq 0 always 0 0 1 2) 0 true
    ∧ sets (.pand 0 always 2 0 1) 2 true ∧ sets (.por 0 always 2 3 4) 2 false ∧ sets (.pxor 0 always 1 0 1) 1 false
    ∧ sets (.pandn 0 always 2 1 3) 2 true ∧ sets (.squashed 0 always 1) 1 false
    ∧ gives (.mfs 0 always 9 0) 9 5 ∧ gives (.mfs 0 always 9 1) 9 5 ∧ gives (.mfs 0 always 9 2) 9 0 ∧ gives (.mfp 0 always 9) 9 3
    ∧ sets (.mtp 0 always 4) 6 true ∧ sets (.mtp 0 always 4) 1 true := by
  unfold Issues IssuesIf Issues; decide +kernel

theorem test_KolouxPackedResults :
    IssuesIf (withEng k0) 0 always
    ∧ gives (.padd 0 always false 9 5 5) 9 0x0003FFFE0007FFFC ∧ gives (.psub 0 always true 9 0 5) 9 0xFFFF0001FFFD0002
    ∧ gives (.padds 0 always true 9 3 1) 9 0x7FFFFFFFFFFF0006 ∧ gives (.psubs 0 always false 9 3 1) 9 0x7FFFFFFFFFFFFFF8
    ∧ gives (.paddus 0 always true 9 5 5) 9 0x0002FFFF0006FFFF ∧ gives (.psubus 0 always true 9 1 5) 9 0
    ∧ gives (.pmin 0 always true 9 5 0) 9 0x0000FFFF0000FFFE ∧ gives (.pmax 0 always true 9 5 0) 9 0x0001000000030000
    ∧ gives (.pabs 0 always true 9 5) 9 0x0001000100030002 ∧ gives (.pshl 0 always true 9 5 4) 9 0x0004FFFC000CFFF8
    ∧ gives (.psar 0 always true 9 5 4) 9 0x0000FFFF0000FFFF ∧ gives (.pshr 0 always true 9 5 4) 9 0x00003FFF00003FFF
    ∧ gives (.pmull 0 always true 9 5 5) 9 0x0001000100090004 ∧ gives (.pmulhs 0 always true 9 5 3) 9 0x0000000000FFFF0000 := by
  unfold IssuesIf Issues; decide +kernel

/-- The instruction writes v into accumulator a0 and moves on. -/
def sums (c : Instr) (v : BitVec 128) : Bool :=
  after c (withEng k0) (fun t => (t.eng 0).ra 0 == v && (t.eng 0).pc == 11)

theorem test_KolouxAccumulatorResults :
    IssuesIf (withEng k0) 0 always
    ∧ sums (.mac 0 always 0 1 2) 0x27FFFFFFFFFFFFFEB ∧ sums (.macu 0 always 0 1 2) 0x97FFFFFFFFFFFFFEB ∧ sums (.msb 0 always 0 1 2) 0x28000000000000015
    ∧ sums (.macW2 0 always 0 1 1) 0x28000000000000031 ∧ sums (.macH4 0 always 0 5 5) 0x2800000000000000F ∧ sums (.aclr 0 always 0) 0
    ∧ gives (.mva 0 always 9 0 4) 9 1 ∧ gives (.mva 0 always 9 0 0) 9 0x7FFFFFFFFFFFFFFF ∧ gives (.mvah 0 always 9 0) 9 2 ∧ gives (.mval 0 always 9 0) 9 0x8000000000000000
    ∧ sums (.mtah 0 always 0 1) 0x78000000000000000 ∧ sums (.mtal 0 always 0 1) 0x20000000000000007 := by
  unfold IssuesIf Issues; decide +kernel

/-- w1 = 0x20 (local data memory), w2 = 0x100010 (shared SRAM), w3 = 0x10000C0 (hub register word 0x18), w4 = 0x100000008 (DRAM window),
w5 = 0x600000 (nothing), w6 = 0x8899AABBCCDDEEFF, w7 = 20000, w8 = the channel register CH_CFG(0) in the window. -/
def k1 : EngSt :=
  { running := true, pc := 10, slot := 5, p := 1
    w := [(1, 0x20), (2, 0x100010), (3, 0x10000C0), (4, 0x100000008), (5, 0x600000), (6, 0x8899AABBCCDDEEFF), (7, 20000), (8, 0x1008000), (9, 3)]
    lmem := [(0x20, 0x80), (0x21, 0x01), (0x27, 0xFE)] }

/-- The engine with shared SRAM and a DRAM word that fails its check. -/
def mem1 : State := { withEng k1 with sram := [(0x10, 0x12)], dram := [(8, 0x34)], poison := [2], cap := { live.cap with bad := [] } }

/-- The instruction raises an exception. -/
def raises (c : Instr) (s : State) (x : Exc) : Bool :=
  after c s (fun t => (t.eng 0).exc == some (ecauseWord 4 x.code 10 5) && (t.eng 0).pc == 10)

/-- The instruction writes v into rd. -/
def reads (c : Instr) (s : State) (rd : Nat) (v : W64) : Bool :=
  after c s (fun t => (t.eng 0).rw rd == v && (t.eng 0).pc == 11)

theorem test_KolouxLoads :
    IssuesIf mem1 0 always ∧ NoVec mem1 0
    ∧ mem1.range 0x20 8 = some .lmem ∧ mem1.range 0x1FFF8 8 = some .lmem ∧ mem1.range 0x20000 1 = none ∧ mem1.range 0x100010 8 = some .sram
    ∧ mem1.range 0x1000000 8 = some .hub ∧ mem1.range 0x100000000 8 = some .dram ∧ mem1.poisoned 0x100000010 = true
    ∧ reads (.ld 0 always 9 1 0) mem1 9 0x80010000000000FE ∧ reads (.lw 0 always 9 1 0) mem1 9 0xFFFFFFFF80010000
    ∧ reads (.lwu 0 always 9 1 0) mem1 9 0x80010000 ∧ reads (.lh 0 always 9 1 0) mem1 9 0xFFFFFFFFFFFF8001
    ∧ reads (.lhu 0 always 9 1 0) mem1 9 0x8001 ∧ reads (.lb 0 always 9 1 7) mem1 9 0xFFFFFFFFFFFFFFFE ∧ reads (.lbu 0 always 9 1 7) mem1 9 0xFE
    ∧ reads (.ld 0 always 0 1 0) mem1 0 0 ∧ reads (.lb 0 always 9 2 0) mem1 9 0x12 ∧ reads (.lb 0 always 9 4 0) mem1 9 0x34
    ∧ raises (.ld 0 always 9 4 1) mem1 .loadPoison ∧ raises (.lb 0 always 9 5 0) mem1 .addrRange ∧ raises (.lh 0 always 9 9 0) mem1 .align
    ∧ raises (.lw 0 always 9 3 0) mem1 .hubregSize ∧ reads (.ld 0 always 9 3 (-0x10)) mem1 9 1 := by
  unfold IssuesIf Issues NoVec; decide +kernel

/-- The instruction places one entry in the commit buffer. -/
def enters (c : Instr) (s : State) (op : CbOp) : Bool :=
  after c s (fun t => (t.eng 0).cb == [{ slot := 5, op := op }] && (t.eng 0).pc == 11)

theorem test_KolouxStores :
    IssuesIf mem1 0 always ∧ NoVec mem1 0 ∧ CbFree mem1 0 ∧ storeScope 0x18 = false ∧ storeScope 0x1001 = true
    ∧ after (.sh 0 always 6 1 1) mem1 (fun t => (t.eng 0).lmem == [(0x20, 0x80), (0x21, 0x01), (0x22, 0xEE), (0x23, 0xFF), (0x27, 0xFE)]
        && (t.eng 0).undo == [{ slot := 5, addr := 0x20, old := 0x80010000000000FE }])
    ∧ after (.st 0 always 6 1 0) mem1 (fun t => Memory.get (t.eng 0).lmem 0x20 == 0x88 && Memory.get (t.eng 0).lmem 0x27 == 0xFF)
    ∧ enters (.sw 0 always 6 2 0) mem1 (.store 0x100010 4 0xCCDDEEFF) ∧ enters (.sb 0 always 6 4 0) mem1 (.store 0x100000008 1 0xFF)
    ∧ enters (.st 0 always 6 8 1) mem1 (.store 0x1008008 8 0x8899AABBCCDDEEFF)
    ∧ raises (.st 0 always 6 5 0) mem1 .addrRange ∧ raises (.st 0 always 6 9 0) mem1 .align ∧ raises (.st 0 always 6 3 0) mem1 .hubregScope
    ∧ raises (.sw 0 always 6 8 0) mem1 .hubregSize
    ∧ raises (.aadd 0 always 6 1 0) mem1 .addrRange ∧ raises (.aadd 0 always 6 8 0) mem1 .addrRange
    ∧ raises (.aadd 0 always 6 9 0) { mem1 with engs := [(0, { k1 with w := [(9, 0x100004)] })] } .align
    ∧ enters (.aadd 0 always 6 2 0) mem1 (.aadd 0x100010 0x8899AABBCCDDEEFF) := by
  unfold IssuesIf Issues NoVec CbFree; decide +kernel

/-- The instruction moves on to an index with a value in a register. -/
def jumps (c : Instr) (s : State) (pc rd : Nat) (v : W64) : Bool := after c s (fun t => (t.eng 0).pc == pc && (t.eng 0).rw rd == v)

theorem test_KolouxBranches :
    Issues mem1 0 ∧ NoVec mem1 0
    ∧ jumps (.br 0 1 false 5) mem1 11 31 0 ∧ jumps (.br 0 0 false 5) mem1 15 31 0 ∧ jumps (.bl 0 1 true (-10)) mem1 0 31 11
    ∧ jumps (.bl 0 0 true 5) mem1 11 31 0 ∧ raises (.br 0 0 false (-11)) mem1 .branchRange ∧ raises (.bl 0 0 false 16374) mem1 .branchRange
    ∧ jumps (.br 0 0 false 16373) mem1 16383 31 0
    ∧ jumps (.jr 0 always 9) mem1 3 31 0 ∧ jumps (.jrl 0 always 9 9) mem1 3 9 11 ∧ jumps (.jrl 0 always 0 9) mem1 3 0 0
    ∧ raises (.jr 0 always 7) mem1 .branchRange ∧ raises (.jrl 0 always 9 7) mem1 .branchRange := by
  unfold Issues NoVec; decide +kernel

/-- A running engine at program slot 5 in real slot 5, with two checkpoints, w1 = 5, w2 = 6, w3 = 391, w4 = 392, w5 = the bits NOTYET, w6 = 2. -/
def k2 : EngSt :=
  { running := true, pc := 10, slot := 5, p := 1, w := [(1, 5), (2, 6), (3, 391), (4, 392), (5, 0x10000), (6, 2)]
    ckpts := [{ slot := 4, w := [], p := 1, a := [], pc := 0 }, { slot := 5, w := [], p := 1, a := [], pc := 4 }] }
def slot5 : State := { withEng k2 with clk := { live.clk with slot := 5, tick := 77 } }

theorem test_KolouxStallsAndReads :
    IssuesIf slot5 0 always ∧ NoVec slot5 0
    ∧ jumps (.waitslot 0 always 1) slot5 11 1 5 ∧ idle (.waitslot 0 always 2) slot5 ∧ raises (.fetch 0 always 9 4 1 .value) slot5 .fetchChan
    ∧ slot5.bufferReady 391 6 = false ∧ reads (.fetch 0 always 9 5 2 .value) slot5 9 (statusWord 1 6)
    ∧ idle (.fetch 0 always 9 3 2 .value) slot5
    ∧ after (.tbread 0 always 9 0 1) slot5 (fun t => (t.eng 0).rw 9 == 5 && (t.eng 0).rw 10 == 77 && (t.eng 0).pc == 11)
    ∧ slot5.effF (Reg.ENG_CTL_AHEAD 0) = 8 ∧ idle (.ckpt 0 always) (slot5.setF (Reg.ENG_CTL_AHEAD 0) 0)
    ∧ after (.ckpt 0 always) slot5 (fun t => (t.eng 0).slot == 6 && (t.eng 0).ckpts.length == 3
        && (t.eng 0).pc == 11) := by
  unfold IssuesIf Issues NoVec; decide +kernel

/-- w1 = queue 3 with START, w2 = a sample word of channel 391, w3 = one of channel 392, w4 = bank 23, mask 1, w5 = slot 6, w6 = bank 24,
w7 = code 0x8000, w8 = slot 14. Queue 3 belongs to the engine. -/
def k3 : EngSt :=
  { running := true, pc := 10, slot := 5, p := 1
    w := [(1, 0x103), (2, 391 * 0x800000), (3, 392 * 0x800000), (4, 23 * 0x100000000 + 1), (5, 6), (6, 24 * 0x100000000), (7, 0x8000), (8, 14), (9, 7)] }
def q3 : State := (withEng k3).setF (Reg.QUE_CFG_PROD 9) 16

theorem test_KolouxCommitEntries :
    IssuesIf q3 0 always ∧ NoVec q3 0 ∧ CbFree q3 0
    ∧ raises (.convset 0 always 6 5) q3 .convsetBank ∧ raises (.convset 0 always 4 8) q3 .convsetTarget
    ∧ raises (.convset 0 always 4 0) q3 .convsetTarget ∧ enters (.convset 0 always 4 5) q3 (.convset 23 1 0 6)
    ∧ raises (.emit 0 always 0 31 0) (q3.setF (Reg.QUE_CFG_PROD 0) 16) .emitQueue ∧ raises (.emit 0 always 1 29 3) q3 .emitRegs
    ∧ raises (.emit 0 always 1 3 0) q3 .emitChan ∧ enters (.emit 0 always 1 2 0) q3 (.emit 3 true false [391 * 0x800000])
    ∧ raises (.event 0 always 7 1 false) q3 .eventCode ∧ enters (.event 0 always 5 1 true) q3 (.event 6 0x103 true)
    ∧ enters (.trigarm 0 always 1 9) q3 (.trigarm 3 true 7) := by
  unfold IssuesIf Issues NoVec CbFree; decide +kernel

theorem test_KolouxGuardAndStops :
    Issues mem1 0 ∧ guardOf (.ld 0 never 9 5 0) = some (0, never) ∧ (mem1.eng 0).guardOk never = false ∧ NoVec mem1 0
    ∧ after (.ld 0 never 9 5 0) mem1 (fun t => (t.eng 0).pc == 11 && (t.eng 0).exc == none)
    ∧ raises (.illegalInstruction 0) mem1 .illegal ∧ idle (.add 1 always 1 1 1) mem1
    ∧ idle (.add 0 always 1 1 1) (withEng { k1 with exc := some 0 }) := by
  unfold Issues NoVec; decide +kernel

/-! ### Engine events -/

/-- An engine in program slot 6 whose slot 4 has ended, with work of slots 4 and 6. -/
def k4 : EngSt :=
  { running := true, slot := 6, lastCommit := 3
    ckpts := [{ slot := 4, w := [], p := 1, a := [], pc := 0 }, { slot := 6, w := [(1, 9)], p := 1, a := [], pc := 4 }]
    cb := [{ slot := 4, op := .event 7 1 false }, { slot := 6, op := .event 8 1 false }], undo := [{ slot := 4, addr := 0, old := 0 }] }
def slot7 : State := { withEng k4 with clk := { live.clk with slot := 7 } }

def group0 : Group := { slot := 4, eng := 0, ops := [], seq := 0, accSlot := 0, accTick := 0 }
/-- One accepted group with one operation. -/
def acc (o : CbOp) : State := { live with arb := { live.arb with accepted := [{ group0 with ops := [o] }] } }

theorem test_EngineCommits :
    (slot7.eng 0).running = true ∧ (slot7.eng 0).oldest = 4 ∧ slot7.upd.switches.get (fun _ => 0) (slot7.logical 0) = 0
    ∧ after (.programSlotCommit 0) slot7 (fun t => t.arb.ready == [{ group0 with ops := [.event 7 1 false] }]
        && (t.eng 0).oldest == 6 && (t.eng 0).undo == [] && (t.eng 0).cb.length == 1 && t.reg (Reg.ENG_CSLOT 0) == 4)
    ∧ after .commitGroupAccept { live with arb := { live.arb with ready := [{ group0 with slot := 5 }, { group0 with eng := 2 }, group0] } } (fun t =>
        t.arb.accepted == [{ group0 with seq := 1 }] && t.arb.nextSeq == 2 && t.arb.ready.length == 2 && t.reg (Reg.ENG_CSEQ 0) == 1)
    ∧ (∀ l : Fin 4, (live.hostOf l).mail = [])
    ∧ after .commitGroupApply (acc (.store 0x100010 2 0x1234)) (fun t => t.sram == [(0x10, 0x12), (0x11, 0x34)] && t.arb.accepted == [])
    ∧ after .commitGroupApply { acc (.aadd 0x100010 (-1)) with sram := [(0x17, 5)] } (fun t => t.sram == [(0x17, 4)])
    ∧ after .commitGroupApply (acc (.convset 3 5 4 9)) (fun t => (t.bk 3).stored 2 9 == some { slot := 9, pos := 2, fine := true, eng := 0 }
        && (t.bk 3).stored 0 9 == some { slot := 9, pos := 0, fine := false, eng := 0 } && (t.bk 3).stored 1 9 == none)
    ∧ after .commitGroupApply (acc (.event 6 9 true)) (fun t => t.evt.ring.map (fun r => (r.code, r.slot, r.d2, r.notify)) == [(6, 4, 9, true)])
    ∧ after .commitGroupApply { live with arb := { live.arb with accepted := [group0] } } (fun t => decide (t = live)) := by decide +kernel

/-- An engine with two checkpoints and a cause of slot 4. -/
def k5 (h r : List HeldCause) (x : Option W64) : State := withEng { k4 with held := h, redirs := r, exc := x }

theorem test_EngineSquashes :
    let c (k : Nat) : HeldCause := { kind := k, code := 2, detail := 3, slot := 4 }
    (k5 [] [] none).arb.takeovers = [] ∧ ((k5 [] [] none).eng 0).running = true ∧ ((k5 [] [] none).eng 0).oldest = 4
    ∧ after (.squash 0) ((k5 [c 1] [] none).setF (Reg.ENG_CTL_RMSQ 0) 1) (fun t => (t.eng 0).slot == 4 && (t.eng 0).pc == 0 && (t.eng 0).sq
        && (t.eng 0).ecause == ecauseWord 1 2 3 4 && (t.eng 0).cb == [] && (t.eng 0).undo == [])
    ∧ after (.squash 0) (k5 [c 3] [] none) (fun t => (t.eng 0).slot == 4 && (t.eng 0).ecause == ecauseWord 3 2 3 4)
    ∧ after (.squash 0) ((k5 [c 1] [] none).setF (Reg.ENG_CTL_RMSQ 0) 0) (fun t => (t.eng 0).slot == 6 && (t.eng 0).ecause == ecauseWord 1 2 3 4)
    ∧ after (.redirect 0) ((k5 [] [c 2] none).setF (Reg.ENG_REDIR_VEC 0) 99) (fun t => (t.eng 0).pc == 99 && (t.eng 0).slot == 4)
    ∧ idle (.exceptionEntry 0) (k5 [] [] (some 1))
    ∧ after (.exceptionEntry 0) (withEng { k4 with exc := some 1, ckpts := k4.ckpts.drop 1 }) (fun t => (t.eng 0).pc == 4 && (t.eng 0).ecause == 1
        && (t.eng 0).rw 1 == 9 && (t.eng 0).exc == none && (t.eng 0).vecSlot == some 6) := by decide +kernel

/-- Engine 0 active, engine 15 a spare. -/
def spares : State := ({ slot7 with clk := { live.clk with slot := 70000 } }.setF (Reg.ENG_CTL_ROLE 0) 1).setF (Reg.ENG_CTL_ROLE 15) 2

theorem test_EngineFaultsAndSpares :
    let k : Takeover := { eng := 0, phys := 0, spare := none, detect := 9, q := 4 }
    spares.faultedOnSpare 0 = false ∧ spares.openTakeovers.length < spares.freeSpares.length ∧ spares.getF (Reg.ENG_STAT_FAULTED 0) = 0
    ∧ (spares.eng 0).lastCommit + spares.getF (Reg.ENG_CTL_WDOG 0) * 256 < 70000
    ∧ after (.engFault 0 .parity) spares (fun t => (t.eng 0).running == false && t.arb.takeovers == [{ k with detect := 70000 }])
    ∧ after (.engWatchdog 0) spares (fun t => (t.eng 0).running == false && t.getF (Reg.ENG_STAT_FAULTED 0) == 1)
    ∧ idle (.engWatchdog 0) slot7
    ∧ after (.spareTakeover 0) { spares with arb := { spares.arb with takeovers := [k] } } (fun t =>
        t.arb.takeovers == [{ k with spare := some 15 }] && (t.eng 15).used)
    ∧ after (.spareResume 0 false) { spares with arb := { spares.arb with takeovers := [{ k with spare := some 15 }] } } (fun t =>
        t.arb.takeovers == [] && t.getF (Reg.ENG_MAP_HOST 0) == 15 && (t.eng 15).slot == 4 && (t.eng 15).ecause == ecauseWord 5 0 0 4)
    ∧ spares.getF (Reg.ENG_STAT_LATE 0) = 0 ∧ (spares.eng 0).oldest + spares.getF (Reg.ENG_CTL_LAGMAX 0) < 70000
    ∧ after (.engLate 0) spares (fun t => t.getF (Reg.ENG_STAT_LATE 0) == 1 && logged t .ENG_LATE 0 0 0) := by decide +kernel

/-- The hub register window: SYS_SNAP, a word that a read clears, a window data word and a plain word, each through w1 with that word's address. -/
def hubAt (a : Nat) (slot oldest : Nat) : State :=
  { withEng { k1 with w := [(1, BitVec.ofNat 64 (0x1000000 + 8 * a))], slot := slot, ckpts := [{ slot := oldest, w := [], p := 1, a := [], pc := 0 }] } with
    clk := { live.clk with slot := 5 } }

theorem test_KolouxHubLoads :
    let s := hubAt 0x38 6 5
    let d := hubAt (Reg.EVT_REC 3) 5 5
    let n := hubAt Reg.SYS_SNAP 5 5
    IssuesIf n 0 always ∧ NoVec n 0 ∧ n.range 0x1000000 8 = some .hub ∧ n.beforeLoad 0x1000000 = n ∧ (n.eng 0).snapArmed = false ∧ (n.eng 0).snap = []
    ∧ hasRc 0x38 = true ∧ idle (.ld 0 always 9 1 0) s
    ∧ readAdvances (Reg.EVT_REC 3) = true ∧ after (.ld 0 always 9 1 0) d (fun t => (t.eng 0).reads == [(5, Reg.EVT_REC 3)] && (t.eng 0).pc == 11)
    ∧ (n.eng 0).oldest = 5 ∧ after (.ld 0 always 9 1 0) n (fun t => (t.eng 0).rw 9 == 5 && (t.eng 0).snapArmed)
    ∧ (let e := acc (.store 0x100010 2 0x1234)
       let u := { e with engs := [(0, k1)], clk := { live.clk with slot := 1, tick := 128 } }
       u.beforeLoad 0x100010 ≠ u ∧ reads (.lhu 0 always 9 2 0) u 9 0x1234) := by
  unfold IssuesIf Issues NoVec; decide +kernel

/-! ### Instruction words -/

/-- A word written field by field: each pair is a field's value and its width, from the top down. -/
def fields (l : List (Nat × Nat)) : W32 := BitVec.ofNat 32 (l.foldl (fun n p => n * 2 ^ p.2 + p.1) 0)

/-- Words written out from the formats of R184 and the tables of R187 to R200: OP; RD, RA, RB, PG, PN and FN (or HF and X); RD, RA, PG, PN and OFF;
RD, RA and IMM; PC, PN and DISP. -/
theorem test_words :
    decodeWord 2 0 = some (.add 2 always 0 0 0)
    ∧ decodeWord 2 (fields [(0, 6), (9, 5), (10, 5), (11, 5), (5, 3), (1, 1), (0x11, 7)]) = some (.subs 2 { pg := 5, pn := true } 9 10 11)
    ∧ decodeWord 0 (fields [(0, 6), (9, 5), (10, 5), (0, 5), (0, 3), (0, 1), (0x13, 7)]) = some (.popc 0 always 9 10)
    ∧ decodeWord 0 (fields [(0, 6), (9, 5), (10, 5), (1, 5), (0, 3), (0, 1), (0x13, 7)]) = none
    ∧ decodeWord 0 (fields [(0, 6), (9, 5), (10, 5), (1, 5), (0, 3), (0, 1), (0x0F, 7)]) = none
    ∧ decodeWord 0 (fields [(1, 6), (9, 5), (10, 5), (11, 5), (0, 3), (0, 1), (0x4D, 7)]) = some (.pmulhs 0 always true 9 10 11)
    ∧ decodeWord 0 (fields [(2, 6), (2, 2), (7, 3), (10, 5), (11, 5), (0, 3), (0, 1), (8, 7)]) = some (.cmptst 0 always 2 7 10 11)
    ∧ decodeWord 0 (fields [(2, 6), (3, 2), (7, 3), (10, 5), (11, 5), (0, 3), (0, 1), (8, 7)]) = none
    ∧ decodeWord 0 (fields [(3, 6), (9, 5), (3, 5), (11, 5), (0, 3), (0, 1), (0x10, 7)]) = some (.mva 0 always 9 3 11)
    ∧ decodeWord 0 (fields [(4, 6), (9, 5), (2, 5), (0, 5), (0, 3), (0, 1), (0, 7)]) = some (.mfs 0 always 9 2)
    ∧ decodeWord 0 (fields [(4, 6), (9, 5), (3, 5), (0, 5), (0, 3), (0, 1), (0, 7)]) = none
    ∧ decodeWord 0 (fields [(5, 6), (9, 5), (10, 5), (0, 5), (0, 3), (0, 1), (1, 7)]) = some (.jrl 0 always 9 10)
    ∧ decodeWord 0 (fields [(0x0E, 6), (9, 5), (10, 5), (63, 16)]) = some (.sari 0 9 10 63) ∧ decodeWord 0 (fields [(0x0E, 6), (9, 5), (10, 5), (64, 16)]) = none
    ∧ decodeWord 0 (fields [(0x17, 6), (1, 2), (4, 3), (10, 5), (0x8001, 16)]) = some (.cmpgeui 0 1 4 10 0x8001)
    ∧ decodeWord 0 (fields [(0x1A, 6), (9, 5), (10, 5), (6, 3), (1, 1), (0xABC, 12)]) = some (.lwu 0 { pg := 6, pn := true } 9 10 0xABC)
    ∧ decodeWord 0 (fields [(0x24, 6), (9, 5), (10, 5), (6, 3), (0, 1), (1, 12)]) = some (.aadd 0 { pg := 6, pn := false } 9 10 1)
    ∧ decodeWord 0 (fields [(0x29, 6), (3, 3), (1, 1), (0x3FFFFF, 22)]) = some (.bl 0 3 true (-1))
    ∧ decodeWord 0 (fields [(0x30, 6), (9, 5), (10, 5), (11, 5), (0, 3), (0, 1), (1, 4), (4, 3)]) = some (.fetch 0 always 9 10 11 .env)
    ∧ decodeWord 0 (fields [(0x30, 6), (9, 5), (10, 5), (11, 5), (0, 3), (0, 1), (1, 4), (5, 3)]) = none
    ∧ decodeWord 0 (fields [(0x30, 6), (0, 5), (10, 5), (11, 5), (0, 3), (0, 1), (3, 4), (3, 3)]) = some (.emit 0 always 10 11 3)
    ∧ decodeWord 0 (fields [(0x30, 6), (9, 5), (10, 5), (0, 5), (0, 3), (0, 1), (6, 4), (2, 3)]) = some (.tbread 0 always 9 10 2)
    ∧ decodeWord 0 (fields [(0x30, 6), (0, 5), (0, 5), (0, 5), (0, 3), (0, 1), (9, 4), (0, 3)]) = none
    ∧ decodeWord 0 0xFFFFFFFF = none := by decide +kernel

theorem test_KolouxWordsSpellInstructions :
    encodeKoloux (.subs 2 { pg := 5, pn := true } 9 10 11) = some (2, fields [(0, 6), (9, 5), (10, 5), (11, 5), (5, 3), (1, 1), (0x11, 7)])
    ∧ Sparse.get 0 ((withEng { k1 with imem := [(10, 0xFFFFFFFF)] }).eng 0).imem 10 = 0xFFFFFFFF ∧ decodeWord 0 0xFFFFFFFF = none
    ∧ opOf 0xFFFFFFFF ∉ [0, 1, 2, 3, 4, 5, 0x30] ∧ 0x2A ≤ opOf 0xFFFFFFFF := by decide +kernel

/-! ### Conversion, pipelines, references -/

/-- A hub in Ascent at slot n, acquiring from slot 0 on. -/
def atSlot (n : Nat) : State :=
  let s := { live with clk := { live.clk with slot := n, uptime := 12800 * n }, mode := { live.mode with spans := [(0, none)] } }
  s.setF Reg.SYS_MODE_CUR 3

/-- Bank 2 with positions 0 to 4 enabled in slot 300: 0, 1 predicted fine, the spare on position 7. -/
def plan300 : SlotPlan := { slot := 300, live := true, pred := 3, sparePos := some 7 }
def bank300 : State :=
  [32, 33, 34, 35, 36].foldl (fun s c => s.setF (Reg.CH_CFG_EN c) 1) { atSlot 300 with banks := [(2, { plan := plan300 })] }

theorem test_ConversionCodes :
    bank300.heldAt 300 = true
    ∧ after (.rescueArbitration 2 0x10002 0) bank300 (fun t =>
        let q := (t.bk 2).plan
        q.judged && q.path == 1 && q.rescued == [2, 3, 4] && q.clip == 0x10002)
    ∧ idle (.rescueArbitration 3 0 0) bank300 ∧ idle (.conversionCycle 3 0 0 0 0 0) bank300 ∧ idle (.fastConverterSample 5) (bank300.setF Reg.SYS_MODE_CUR 0)
    ∧ after (.fastConverterSample 5) ((bank300.setF Reg.SYS_MODE_CUR 7).setF (Reg.TRG_STAT_STATE 1) 3) (fun t => (t.fasts.get (fun _ => {}) 0).codes == [(120000, 5)])
    ∧ (bank300.setF (Reg.TRG_STAT_STATE 1) 3).trgState 1 = 3 ∧ idle (.fastConverterSample 5) (bank300.setF Reg.SYS_MODE_CUR 7)
    ∧ plan300.used 16 = true ∧ plan300.used 17 = false ∧ bank300.getF (Reg.BANK_CONV_INJ 2) = 1
    ∧ after (.conversionCycle 2 4 5 6 7 8) (bank300.setF (Reg.BANK_CONV_FREEZE 2) 1) (fun t =>
        (t.bk 2).plan.codes.get (fun _ => none) 16 == some 5 && (t.bk 2).plan.codes.get (fun _ => none) 17 == none
        && (t.bk 2).lastInj.get (fun _ => 0) 1 == 300 && (t.bk 2).lastInj.get (fun _ => 0) 0 == 0)
    ∧ after (.fastConverterSample 0x7FFF) (atSlot 300) (fun t => (t.fasts.get (fun _ => {}) 0).codes == [(120000, 32767)]
        && (t.fasts.get (fun _ => {}) 0).railed && (t.fasts.get (fun _ => {}) 1).codes == [(120000, 0)]) := by decide +kernel

/-- Position 0 of bank 2 converted with code 1 in slot 299. -/
def raw300 : State :=
  { bank300 with banks := [(2, { prev := { slot := 299, live := true, judged := true, pins := 1, arb := 1, codes := [(0, some 1)] } })] }

/-- Channel 32 in average mode with N = 1 from slot 0 on and one raw sample, 7 with WIRE, at slot 294. -/
def set1 : FltSet :=
  { preset := 0, avg := true, n := 1, sh := 0, delta := 0, phi := 0, w := 1, pk := false, rms := false, env := false, ac := false, k := 25, aaf := 0, s0 := 0 }
def out300 : State :=
  let r : Raw := { value := 7, flags := 64, refu := false, clip := false }
  let e : FltEntry := { start := 0, winFrom := 64, cut := false, det := none, grid := 0, set := set1 }
  { bank300 with flts := [(32, { raws := [(294, some r)], sets := [e] })] }

/-- A fast channel with the two codes that the interpolation at the hold instant of slot 293 asks for. -/
def fast300 : State :=
  let s := { atSlot 300 with fasts := [(0, { codes := [(10300, 1), (6205, 1)] })] }
  { s with fabric := { s.fabric with holds := [(293, 16798720)] } }.setF (Reg.FC_CFG_EN 0) 1

theorem test_SamplesReachTheBuffer :
    let r : Raw := { value := 16384, flags := 2, refu := false, clip := false }
    (raw300.bk 2).prev.live = true ∧ raw300.heldAt 299 = true ∧ (raw300.bk 2).missing 299 = false ∧ raw300.enabledPos 2 = [0, 1, 2, 3, 4]
    ∧ raw300.rawOf (raw300.bk 2) (raw300.bk 2).prev 2 0 false = some r
    ∧ after (.rawValueToPipeline 2 0) raw300 (fun t => (t.flt 32).raws.get (fun _ => none) 299 == some r)
    ∧ fast300.heldAt 299 = true ∧ fast300.effFlag (Reg.FC_CFG_EN 0) = true ∧ (fast300.fastRaw 0 299).isSome = true
    ∧ after (.rawValueToPipeline 24 0) fast300 (fun t => ((t.flt 384).raws.get (fun _ => none) 299).isSome)
    ∧ (out300.outputAt 32 294).isSome = true ∧ (out300.flt 32).outs = []
    ∧ after (.outputWordReady 32) out300 (fun t => (t.flt 32).word 0 294 == some (sampleWord 7 32 66 294)) := by decide +kernel

theorem test_OffsetsAndReferences :
    let s := { atSlot 300000 with banks := [(2, { refOnAt := some 10, sums := [(0, { even := 10, nEven := 1, odd := 4, nOdd := 1 })]
                                                  lastInj := [(0, 40000), (1, 30000)] })] }
    after (.offsetTrackUpdate 2) s (fun t => (t.bk 2).sums == [] && ((t.bk 2).halves.get (fun _ => {}) 0).d == 3
        && ((t.bk 2).halves.get (fun _ => {}) 1).d == -3 && (t.bk 2).trackFrom == 300000)
    ∧ idle (.offsetTrackUpdate 2) { s with banks := [(2, { trackFrom := 37857 })] }
    ∧ idle (.convStarved 2 0) s
    ∧ after (.convStarved 2 1) s (fun t => t.getF (Reg.BANK_CONVSTAT_STARVED 2) == 2 && logged t .CONV_STARVED 2 1 0)
    ∧ after (.referenceSettled 2) s (fun t => t.getF (Reg.BANK_REF_SETTLED 2) == 1)
    ∧ idle (.referenceSettled 2) { s with banks := [(2, { refOnAt := some 10, quietFrom := 299745 })] }
    ∧ after (.refUnstable 24) { s with fabric := { s.fabric with fastSettled := true } } (fun t => !t.fabric.fastSettled && logged t .REF_UNSTABLE 24 0 0)
    ∧ after (.referenceSettled 24) { s with fabric := { s.fabric with fastRefAt := some 299744 } } (fun t => t.fabric.fastSettled)
    ∧ after (.refSettleLate 2) (s.setF (Reg.BANK_REF_ACT 2) 1) (fun t => (t.bk 2).lateLogged && logged t .REF_SETTLE_LATE 2 0 0)
    ∧ after (.refUnstable 2) (s.setF (Reg.BANK_REF_SETTLED 2) 1) (fun t => t.getF (Reg.BANK_REF_SETTLED 2) == 0 && (t.bk 2).quietFrom == 300000 && logged t .REF_UNSTABLE 2 0 0)
    ∧ after (.refFallback 2) { s.setF (Reg.BANK_REF_ACT 2) 1 with cals := [(2, { stage := 2 })] } (fun t =>
        t.getF (Reg.BANK_REF_ACT 2) == 0 && t.getF (Reg.BANK_REF_FALLBACK 2) == 1 && (t.bk 2).refOnAt == some 300000 && (t.cal 2).abandon
        && (t.cal 2).restart && logged t .REF_FALLBACK 2 0 0) := by decide +kernel

/-! ### Excitation, supervision, wire breaks -/

/-- Channel 40 (bank 2) in some state at slot 1000; its bank driven DC (EXMODE 1), AC (2) or not (0). -/
def chan (ex : Nat) (x : ChanSt) : State := { (atSlot 1000).setF (Reg.BANK_CFG_EXMODE 2) ex with chans := [(40, x)] }

theorem test_DriveTransitions :
    after (.excitationRampEnd 40) (chan 1 { drive := .rampUp, due := 1000, target := 9 }) (fun t => (t.ch 40).drive == .on && (t.ch 40).level == 9)
    ∧ idle (.excitationRampEnd 40) (chan 1 { drive := .rampUp, due := 1001, target := 9 })
    ∧ after (.excitationRampEnd 40) (chan 1 { drive := .rampDown, level := 9 }) (fun t => (t.ch 40).drive == .off && (t.ch 40).level == 0)
    ∧ zeroCrossing 0 100 1000 = true ∧ zeroCrossing 0 100 1001 = false
    ∧ after (.carrierZeroCrossing 2) (chan 2 { drive := .waitStart, ac := true, target := 9 }) (fun t =>
        (t.ch 40).drive == .on && (t.ch 40).level == 9 && (t.ch 41).drive == .off)
    ∧ after (.crosspointSwitch 2) (((chan 0 {}).setF (Reg.BANK_SPARE_CONN 2) 1).setF (Reg.BANK_SPARE_POS 2) 8) (fun t =>
        (t.bk 2).xp == some 8 && (t.bk 2).xpSettle == 1008)
    ∧ after (.carrierZeroCrossing 2) (chan 0 { drive := .waitStop, ac := true, level := 9 }) (fun t => (t.ch 40).drive == .off && (t.ch 40).level == 0)
    ∧ after (.crosspointSwitch 2) { chan 0 {} with banks := [(2, { xp := some 8 })] } (fun t => (t.bk 2).xp == none) := by decide +kernel

theorem test_ExcitationSupervision :
    let p (x : ChanSt) := ((chan 1 x).setF (Reg.CH_EXCFG_PO 40) 1).setF (Reg.CH_EXCFG_RETRY 40) 0
    after (.supervisorEvaluation 40 50000 7 (-2) true) (p { drive := .on }) (fun t => (t.ch 40).drive == .on && t.getF (Reg.CH_STATUS_ILIM 40) == 1
        && (t.ch 40).win == [50000] && (t.ch 40).vEnd == -2)
    ∧ after (.supervisorEvaluation 40 50001 0 0 false) (p { drive := .on, level := 9 }) (fun t => (t.ch 40).drive == .removed && (t.ch 40).level == 0
        && t.getF (Reg.CH_STATUS_DRIVE_OFF 40) == 1 && t.getF (Reg.CH_STATUS_LIMIT_SEEN 40) == 1 && logged t .EX_LIMIT 40 1000 0)
    ∧ after (.exShort 40) (p { drive := .on, limRun := 64 }) (fun t => (t.ch 40).drive == .removed && t.getF (Reg.CH_STATUS_SHORT_SEEN 40) == 1)
    ∧ ((p {}).setF (Reg.CH_EXCFG_EXEN 40) 1).mayDrive 40 = true
    ∧ after (.excitationRetry 40) ((p { drive := .removed, retryAt := some 1000 }).setF (Reg.CH_EXCFG_EXEN 40) 1) (fun t =>
        (t.ch 40).drive == .rampUp && (t.ch 40).due == 1016)
    ∧ idle (.tripRunEnd 40) (p { lastTrip := some 1, runTrips := 3 })
    ∧ after (.tripRunEnd 40) { p { lastTrip := some 0, runTrips := 3 } with clk := { live.clk with slot := 2500000 } } (fun t => (t.ch 40).runTrips == 0)
    ∧ after (.latchClear 4 40) ((p { drive := .latched, runTrips := 3 }).setF (Reg.CH_STATUS_EX_LATCH 40) 1) (fun t =>
        (t.ch 40).drive == .off && (t.ch 40).runTrips == 0 && t.getF (Reg.CH_STATUS_EX_LATCH 40) == 0)
    ∧ refused (.latchClear 1 40) (p {}) .SYS_AUTH_DENIED 40 (Reg.CH_STATUS 40) 1
    ∧ (p {}).portOpen 4 (Reg.CH_STATUS 40) = true ∧ ((p {}).setF Reg.SYS_MODE_CUR 7).portOpen 4 (Reg.CH_STATUS 40) = false
    ∧ idle (.latchClear 4 40) (((p { drive := .latched }).setF (Reg.CH_STATUS_EX_LATCH 40) 1).setF Reg.SYS_MODE_CUR 7)
    ∧ after (.grefLearned 40) (p { startAt := some 936, fit := { qq := 4, qh := 1, hh := 2, eq := 11, eh := 8 } }) (fun t =>
        (t.ch 40).gRef == some { g := 14, c := 21, det := 7 }) := by decide +kernel

theorem test_WireBreakDetection :
    let p (x : ChanSt) := ((((chan 1 x).setF (Reg.CH_CFG_EN 40) 1).setF (Reg.CH_WB_EXC 40) 1).setF (Reg.CH_WB_SENSE 40) 1).setF (Reg.CH_WB_BIAS 40) 1
    (p {}).detects 40 = true
    ∧ after (.wbExcOpen 40) (p { drive := .on, gRef := some { g := 40, c := 0, det := 1 }, low := 2 }) (fun t => t.getF (Reg.CH_STATUS_WB_EXC 40) == 1
        && t.getF (Reg.CH_STATUS_WB_SEEN 40) == 1 && (t.ch 40).open_ .exc
        && t.evt.ring.any (fun r => r.code == Cond.WB_EXC_OPEN.code && r.unit == 40 && r.d2 == 1000))
    ∧ idle (.wbExcOpen 40) (p { drive := .on, gRef := some { g := 40, c := 0, det := 1 }, low := 1 })
    ∧ ((p {}).setF (Reg.CH_WB_VTH 40) 10).vthScaled 40 1 = 10 * 2 ^ 31
    ∧ after (.wbSenseOpen 40) ((p { sense := { resid := some (-8589935, 1) } }).setF (Reg.CH_WB_VTH 40) 10) (fun t => t.getF (Reg.CH_STATUS_WB_SENSE 40) == 1
        && logged t .WB_SENSE_OPEN 40 1000 4)
    ∧ idle (.wbSenseOpen 40) ((p { sense := { resid := some (-8589934, 1) } }).setF (Reg.CH_WB_VTH 40) 10)
    ∧ (p { drive := .on }).evaluates 40 .exc = true ∧ (p {}).evaluates 40 .sense = true
    ∧ after (.wbRestored 40 .exc) (p { drive := .on, whole := 256, breaks := [{ lead := .exc, start := 7, fin := none }] }) (fun t =>
        (t.ch 40).breaks == [{ lead := .exc, start := 7, fin := some 1000 }] && logged t .WB_RESTORED 40 1000 0)
    ∧ after (.bankFactorUpdate 2 1048576) { (p {}).setF Reg.SYS_MODE_CUR 5 with clk := { live.clk with slot := 65536, uptime := 838860800 } } (fun t => (t.bk 2).factor == 1048576)
    ∧ after (.bankFactorUpdate 2 2097152) { (p {}).setF Reg.SYS_MODE_CUR 5 with clk := { live.clk with slot := 65536, uptime := 838860800 } } (fun t => (t.bk 2).factor == 524288) := by decide +kernel

/-! ### Start-up, modes, the slot -/

/-- A hub in a phase of start-up. -/
def phase (p : Phase) : State := { live with mode := { phase := p } }

/-- A time base 0 that is set, with the owner's port 4 at maintenance class 3. -/
def timed (n : Nat) : State := (atSlot n).setF (Reg.TB_STAT_STATE 0) 1

theorem test_StartUpAndReset :
    after (.startUp { auth := 0b0110, pairRole := false, spMode := 1 } true) (phase .held) (fun t => t.mode.phase == .straps
        && t.getF Reg.SYS_AUTH_L0 == 1 && t.getF Reg.SYS_AUTH_SP == 2 && t.getF Reg.PAIR_STAT_DESIG == 0)
    ∧ after .rootPllLock (phase .straps) (fun t => t.mode.phase == .locked)
    ∧ (phase .locked).runUsable = true ∧ (phase .locked).copyPending = false ∧ (phase .locked).copying = false ∧ (phase .locked).upd.recover = false ∧ (phase .lanes).cur ≠ 0
    ∧ after .loaderDecision (phase .locked) (fun t => t.mode.phase == .loaded)
    ∧ after .laneBringUp ((phase .loaded).setF (Reg.LANE_CFG_EN 3) 0) (fun t => t.mode.phase == .lanes && t.laneState 0 == 1 && t.laneState 3 == 0)
    ∧ (phase .lanes).chooseStore = none ∧ after .configLoad (phase .lanes) (fun t => t.mode.phase == .configured && t.evt.ring.reverse.any (fun r => r.code == Cond.CFG_NONE.code))
    ∧ (let st : CfgStore := { seq := some 4 }
       let s := { phase .lanes with cfg := { live.cfg with stores := [(1, { st with crc := st.imageCrc })] } }
       s.chooseStore = some 1 ∧ after .configLoad s (fun t => t.getF Reg.CFG_STATUS_LOADED == 1 && t.getF Reg.CFG_STATUS_STORE == 1
        && t.cfg.params == defaultParams))
    ∧ after .dramTraining { phase .configured with dram := [(1, 1)] } (fun t => t.mode.phase == .trained && t.dram == [])
    ∧ (firmwareSections (phase .trained).runWord).2 = true
    ∧ ((phase .trained).setF Reg.CFG_STATUS_LOADED 0).getF Reg.CFG_STATUS_LOADED = 0
    ∧ after .programLoad ((phase .trained).setF Reg.CFG_STATUS_LOADED 0) (fun t => t.mode.phase == .running && t.mode.setWaitEnd == some 0)
    ∧ live.unset = true
    ∧ after .tsetWaitExpiry { live with mode := { live.mode with setWaitEnd := some 0, lastMark := 5 } } (fun t => !t.unset && (t.tb 0).time / secUnits == 273)
    ∧ after .reset { live with sram := [(1, 1)], evt := { live.evt with flashQ := [] } } (fun t => t.mode.phase == .held && t.sram == [] && t.regs == []) := by
  decide +kernel

theorem test_ModeRequestsAndTransitions :
    let s := timed 100
    let pend (p n port : Nat) : State :=
      let t := (s.setF Reg.SYS_MODE_PENDV 1).setF Reg.SYS_MODE_PEND p
      { t with mode := { t.mode with pendAt := some n, pendPort := port } }
    s.belay = false ∧ s.cur = 3 ∧ s.unset = false ∧ s.pairOn = false
    ∧ refused (.modeRequest 4 false 6) s .SYS_MODE_ILLEGAL 0 Reg.SYS_MODE_REQ 4 ∧ refused (.modeRequest 1 false 4) s .SYS_MODE_AUTH 0 Reg.SYS_MODE_REQ 1
    ∧ refused (.modeRequest 4 false 4) (pend 1 200 0) .SYS_MODE_BUSY 0 Reg.SYS_MODE_REQ 4
    ∧ refused (.modeRequest 4 true 4) (s.setCopy 4 Reg.SYS_MODE_AT 115) .SYS_MODE_LATE 0 Reg.SYS_MODE_REQ 4
    ∧ after (.modeRequest 4 true 4) (s.setCopy 4 Reg.SYS_MODE_AT 116) (fun t => t.mode.pendAt == some 116 && t.getF Reg.SYS_MODE_PEND == 4 && t.cur == 3)
    ∧ after (.modeRequest 0 false 1) s (fun t => t.mode.pendAt == some 116 && t.mode.pendPort == 0)
    ∧ refused (.modeCancel 4) s .SYS_MODE_NOPEND 0 Reg.SYS_MODE_REQ 4 ∧ refused (.modeCancel 4) (pend 1 200 0) .SYS_MODE_CANCEL_PORT 0 Reg.SYS_MODE_REQ 4
    ∧ after (.modeCancel 4) (pend 1 102 4) (fun t => t.getF Reg.SYS_MODE_PENDV == 0 && t.mode.pendAt == none && logged t .SYS_MODE_CANCELLED 0 102 0)
    ∧ (pend 1 100 4).modeDue = true ∧ (pend 1 100 4).overlayDue = false
    ∧ after .modeTransition (pend 1 100 4) (fun t => t.cur == 1 && t.reg Reg.SYS_MODE_SLOT == 100 && t.mode.leave == some 100 && t.mode.stopAt == some 104
        && t.mode.drain == some 107)
    ∧ after .drainEnd { live with mode := { live.mode with drain := some 0, writing := true } } (fun t => t.mode.drain == none && !t.mode.writing)
    ∧ (let u := (pend 3 100 4).setF Reg.SYS_MODE_CUR 1
       u.mode.pendAt = some 100 ∧ u.now = 100 ∧ u.getF Reg.SYS_MODE_PENDV = 1 ∧ u.overlayDue = false ∧ u.mode.pendCause ≠ 4 ∧ u.pairOn = false ∧ u.cur = 1)
    ∧ (let m : TimeMark := { sec := 1, seq := 2 ^ 32 - 1, crc := markCrc 1 (2 ^ 32 - 1) }
       let s : State := { atSlot (2 ^ 26 + 5) with mode := { (atSlot 0).mode with marks := [(255, some m), (256, some m)], markAt := some 5 } }
       ({ s with mode := { s.mode with marks := [(255, some m)] } }).newestMark = some (255, m)
       ∧ after .timeMark { s with mode := { s.mode with marks := [(255, some m)] } } (fun t =>
           t.mode.marks == [(255, some m), (256, some { sec := 0, seq := 0, crc := markCrc 0 0 })] && t.mode.markAt == some (2 ^ 26 + 5))
       ∧ idle .timeMark { s with clk := { s.clk with slot := 2 ^ 26 + 4 } }) := by decide +kernel

theorem test_ModeRequests :
    let s := timed 100
    let u := (live.setF Reg.SYS_AUTH_SP 3)
    let pend (n : Nat) : State :=
      let t := (s.setF Reg.SYS_MODE_PENDV 1).setF Reg.SYS_MODE_PEND 1
      { t with mode := { t.mode with pendAt := some n, pendPort := 4 } }
    s.portOpen 4 Reg.SYS_MODE_REQ = true ∧ (s.setF Reg.SYS_MODE_CUR 0).portOpen 4 Reg.SYS_MODE_REQ = false
    ∧ idle (.modeRequest 4 false 1) (s.setF Reg.SYS_MODE_CUR 0) ∧ idle (.modeCancel 4) (s.setF Reg.SYS_MODE_CUR 0)
    ∧ refused (.modeRequest 4 false 1) (s.setF Reg.SYS_MODE_CUR 5) .PAIR_MIRRORED 0 Reg.SYS_MODE_REQ 4
    ∧ refused (.modeCancel 4) (s.setF Reg.SYS_MODE_CUR 5) .PAIR_MIRRORED 0 Reg.SYS_MODE_REQ 4
    ∧ refused (.modeCancel 4) (pend 101) .SYS_MODE_LATE 0 Reg.SYS_MODE_REQ 4
    ∧ u.unset = true ∧ after (.modeRequest 4 false 3) u (fun t => t.getF Reg.SYS_MODE_PENDV == 1 && t.getF Reg.SYS_MODE_PEND == 3 && t.mode.pendAt == none && t.cur == 1)
    ∧ after (.modeRequest 4 false 7) u (fun t => t.cur == 7 && t.getF Reg.SYS_MODE_PENDV == 0)
    ∧ refused (.modeRequest 4 true 3) (u.setCopy 4 Reg.SYS_MODE_AT 500) .SYS_MODE_LATE 0 Reg.SYS_MODE_REQ 4
    ∧ after (.modeRequest 4 false 7) ((s.setF Reg.SYS_AUTH_SP 3).setF Reg.SYS_MODE_CUR 7) (fun t => t.getF Reg.SYS_MODE_PEND == 7 && t.mode.pendAt == some 116) := by
  decide +kernel

theorem test_HubFaultsAndTestPort :
    let s := timed 100
    let falls (t : State) : Bool := t.getF Reg.SYS_MODE_PENDV == 1 && t.getF Reg.SYS_MODE_PEND == 7 && t.mode.pendAt == some 101 && t.cur == 3
    s.runs = true ∧ s.falling = false
    ∧ after .rootPllUnlock s (fun t => falls t && logged t .HUB_ESCALATED 0 (BitVec.ofNat 64 Cond.HUB_ESCALATED.code) 0)
    ∧ after .serviceWatchdog s falls
    ∧ after (.supplyMonitorFault 2) (s.setF (Reg.BANK_REF_SETTLED 3) 1) (fun t => falls t && t.getF (Reg.BANK_REF_SETTLED 3) == 0)
    ∧ after (.supplyMonitorFault 9) s (fun t => falls t && logged t .HUB_ESCALATED 0 (BitVec.ofNat 64 Cond.HUB_ESCALATED.code) 9)
    ∧ idle .rootPllUnlock (s.setF Reg.SYS_MODE_CUR 7)
    ∧ (let d := { (s.setF Reg.SYS_MODE_PENDV 1).setF Reg.SYS_MODE_PEND 7 with mode := { s.mode with pendAt := some 101, pendCause := 5 } }
       d.falling = true ∧ after (.tapInstructionLoad .clamp) d (fun t => t.mode.tapWait == some .clamp && t.mode.tap == s.mode.tap))
    ∧ after (.tapInstructionLoad .extest) s (fun t => falls t && t.mode.tapWait == some .extest && t.mode.pendCause == 6)
    ∧ after (.tapInstructionLoad .samplePreload) s (fun t => t.mode.tap == .samplePreload)
    ∧ after (.tapInstructionLoad .highz) live (fun t => t.mode.tap == .highz) := by decide +kernel

theorem test_SlotClockAndGrid :
    live.mode.phase ≠ .held ∧ live.mode.phase ≠ .straps ∧ live.cur ≠ 0 ∧ live.arb.accepted = []
    ∧ after .slotBoundary { live.setF Reg.SYS_MODE_CUR 0 with clk := { live.clk with slot := 4, tick := 12000 } } (fun t =>
        t.clk.slot == 5 && t.clk.tick == 0 && t.clk.uptime == 800) := by decide +kernel

theorem test_SlotClockAndGrid_edges :
    after .timeBaseTick (live.setS (Reg.TB_FREQ_Y 1) (-1)) (fun t => t.clk.tick == 1 && (t.tb 0).time == 80 * 2 ^ 40 && (t.tb 1).time == 80 * (2 ^ 40 - 1))
    ∧ after .syncNEdge { live with clk := { live.clk with slot := 9, tick := 11999 } } (fun t => t.fabric.gridAt == [10])
    ∧ after .syncNEdge { live with clk := { live.clk with slot := 9, tick := 12000 } } (fun t => t.fabric.gridAt == [11])
    ∧ after .syncNEdge { live with clk := { live.clk with slot := 9, tick := 12000 }, fabric := { live.fabric with gridAt := [10, 11] } } (fun t =>
        t.fabric.gridAt == [10, 11])
    ∧ live.anyLocked = false ∧ (live.setF (Reg.TB_STAT_STATE 2) 3).anyLocked = true ∧ idle .gridRestart live
    ∧ after .syncNEdge (live.setF (Reg.TB_STAT_STATE 2) 3) (fun t => t.getF Reg.FLT_SYNC_IGNORED == 1 && logged t .FLT_SYNC_IGNORED 0 0 0)
    ∧ (let g : State := { live with clk := { live.clk with slot := 8192 }, fabric := { live.fabric with gridAt := [8192, 8193] } }
       g.overlayDue = false ∧ after .gridRestart g (fun t => t.getF Reg.FLT_SYNC_PHASE == 0 && t.fabric.gridAt == [8193] && logged t .FLT_SYNC 0 8192 0)
       ∧ idle .gridRestart { g with clk := { g.clk with slot := 8191 } }) := by decide +kernel

/-! ### Configuration -/

/-- Overlay 2 without records is stored; slot 100. -/
def ovl : State :=
  let s := (timed 100).setF Reg.CFG_STATUS_OVL_PRESENT 4
  { s with cfg := { s.cfg with ovls := [{ id := 2, bind := 255, recs := [] }] } }

theorem test_OverlayChanges :
    ovl.getF Reg.CFG_STATUS_OVL_ACT = 15 ∧ ovl.overlayDef 2 ≠ none ∧ ovl.cfg.autoNext = false
    ∧ refused (.overlayRequest 1 false 2) ovl .SYS_AUTH_DENIED 0 Reg.CFG_OVL_REQ 1 ∧ refused (.overlayRequest 4 false 3) ovl .CFG_OVL_ABSENT 3 Reg.CFG_OVL_REQ 4
    ∧ refused (.overlayRequest 4 false 15) ovl .CFG_OVL_ABSENT 15 Reg.CFG_OVL_REQ 4
    ∧ refused (.overlayRequest 4 false 2) (ovl.setF Reg.CFG_STATUS_PENDV 1) .CFG_OVL_BUSY 2 Reg.CFG_OVL_REQ 4
    ∧ refused (.overlayRequest 4 true 2) (ovl.setCopy 4 Reg.CFG_OVL_AT 115) .CFG_OVL_LATE 2 Reg.CFG_OVL_REQ 4
    ∧ (ovl.changeOverlay { port := cfgPort, slot := 116, asked := 100 } (ovl.overlayDef 15) (ovl.overlayDef 2)).2 = none
    ∧ after (.overlayRequest 4 true 2) (ovl.setCopy 4 Reg.CFG_OVL_AT 116) (fun t => t.getF Reg.CFG_STATUS_PENDV == 1
        && t.getF Reg.CFG_STATUS_OVL_PEND == 2 && t.cfg.pendAt == some 116)
    ∧ (let p := ovl.pendOverlay 2 (some 100) 4 false
       p.cfg.pendAt = some 100 ∧ p.getF Reg.CFG_STATUS_PENDV = 1
       ∧ (p.dropOverlay.changeOverlay p.dropOverlay.recCtx (p.overlayDef 15) (p.overlayDef 2)).2 = none)
    ∧ (let b : State := { ovl with cfg := { ovl.cfg with ovls := [{ id := 2, bind := 255, recs := [{ addr := Reg.CH_FLT 0, mask := 7, value := 7 }] }] } }
       ((b.changeOverlay { port := cfgPort, slot := 116, asked := 100 } (b.overlayDef 15) (b.overlayDef 2)).2).isSome = true
       ∧ refused (.overlayRequest 4 false 2) b .CFG_OVL_REFUSED 2 (Reg.CH_FLT 0) 4)
    ∧ idle (.overlayRequest 4 false 2) (ovl.setF Reg.SYS_MODE_CUR 7) ∧ ovl.overlayDue = false ∧ idle .overlayActivation ovl := by
  decide +kernel

/-- Lane 1 a chain lane that is UP. -/
def chain : State := (live.setF (Reg.LANE_CFG_ROLE 1) 1).setF (Reg.LANE_STAT_STATE 1) 4

/-- A command of lane 2, an owner of the hub. -/
def own : State := (live.setF Reg.SYS_AUTH_L2 2).setF (Reg.TB_STAT_STATE 0) 1

/-- The next response of lane 2 has that status and those words. -/
def answers (t : State) (status : Nat) (words : List W64) : Bool := (t.hostOf 2).resps.map (fun r => (r.status, r.words, r.dst)) == [(status, words, 5)]

theorem test_ConfigurationStoresAndTlv :
    chain.laneUp 1 = true ∧ chain.laneRole 1 = 1
    ∧ after .configBeacon chain (fun t => (t.egressOf 1).map (fun f => (f.dst, f.prio, f.words.getD 0 0)) == [(beaconMac, 6, 0x1700000000000000#64)]
        && t.egressOf 0 == [])
    ∧ idle .configBeacon { chain with cfg := { chain.cfg with beaconAt := some 0 } } ∧ idle .configBeacon State.reset
    ∧ idle (.tlvReceived 9 1 0 1) live
    ∧ after (.tlvReceived 9 1 7 0) live (fun t => t.getF Reg.CFG_STATUS_EPOCH_MISMATCH == 1 && logged t .CFG_EPOCH_MISMATCH 0 9 7)
    ∧ after (.tlvReceived 9 1 0 0) { live with cfg := { live.cfg with peers := [{ sender := 9, differs := true, epoch := 0 }] } } (fun t =>
        t.getF Reg.CFG_STATUS_DIVERGED == 1 && t.reg Reg.CFG_DIV_PEER == 9 && t.reg Reg.CFG_DIV_DIGEST == 1)
    ∧ after .epochMismatchClear (live.setF Reg.CFG_STATUS_EPOCH_MISMATCH 1) (fun t => t.getF Reg.CFG_STATUS_EPOCH_MISMATCH == 0)
    ∧ Accepts own 2 hdr 0x20 [] 2 false ∧ Accepts own 2 hdr 0x21 [0, 7] 2 false ∧ Accepts own 2 hdr 0x22 [] 2 false ∧ Accepts own 2 hdr 0x23 [] 2 false
    ∧ after (.cfgBegin 2 hdr) own (fun t => answers t 0 [] && t.cfg.writer == some 2)
    ∧ (let w : State := { own with cfg := { own.cfg with writer := some 2, nextOff := 1 } }
       after (.cfgWrite 2 hdr 1 [7]) w (fun t => answers t 0 [] && (t.storeOf 1).word 1 == 7 && (t.storeOf 1).len == 2 && t.cfg.nextOff == 2)
       ∧ after (.cfgWrite 2 hdr 0 [7]) w (fun t => answers t 2 [] && logged t .CFG_WRITE_ORDER 0 0x21 2)
       ∧ (w.storeOf 1).check = none ∧ after (.cfgCommit 2 hdr) w (fun t => answers t 0 [1] && (t.storeOf 1).seq == some 1 && t.cfg.newer))
    ∧ after (.cfgLoad 2 hdr) (own.setF Reg.SYS_MODE_CUR 3) (fun t => answers t 2 [] && logged t .CFG_LOAD_MODE 0 0x23 2)
    ∧ own.cur = 1 ∧ (own.storeOf 1).records = [] ∧ own.overlayDef 15 = none ∧ (own.storeOf 1).overlays = [] := by
  unfold Accepts; decide +kernel

/-! ### Coefficients -/

theorem test_CoefficientSets :
    let s := atSlot 100
    let at_ (v : W64) : State := s.setCopy 4 Reg.FLT_COEF_PTR v
    let b5 : W64 := 5 * 0x1000000 + 0x100000 + 2 * 0x10000 + 254
    s.classOf 4 = 2 ∧ (at_ b5).coefPtr 4 = (5, 1, 2, 254) ∧ s.getF (Reg.FLT_BSTAT_ACTIVE 5) = 0
    ∧ after (.coefDataAccess 4 (some 0xFFFFFF)) ((at_ b5).setF (Reg.FLT_BSTAT_READY 5) 1) (fun t => (t.coef 5).tap 1 2 254 == -1
        && t.getF (Reg.FLT_BSTAT_READY 5) == 0 && t.coefPtr 4 == (5, 1, 2, 255))
    ∧ after (.coefDataAccess 4 (some 1)) (at_ (b5 + 1)) (fun t => (t.coef 5).tap 1 2 255 == 1 && t.coefPtr 4 == (5, 1, 3, 0))
    ∧ refused (.coefDataAccess 4 (some 1)) (at_ (b5 - 0x100000)) .FLT_COEF_ACTIVE 5 Reg.FLT_COEF_DATA 4
    ∧ after (.coefDataAccess 4 none) (at_ b5) (fun t => t.coefPtr 4 == (5, 1, 2, 255))
    ∧ after (.coefCommit 4 b5) s (fun t => t.getF (Reg.FLT_BSTAT_READY 5) == 1)
    ∧ refused (.coefCommit 4 (24 * 0x1000000)) s .FLT_COEF_BANK 0 Reg.FLT_COEF_PTR 4
    ∧ refused (.swapRequest 4 false 0x20) (s.setF (Reg.FLT_BSTAT_READY 5) 0) .FLT_SWAP_NOTREADY 5 Reg.FLT_SWAP_REQ 4
    ∧ (let r := s.setF (Reg.FLT_BSTAT_READY 5) 1
       refused (.swapRequest 4 false 0x20) (r.setF (Reg.FLT_BSTAT_PENDV 5) 1) .FLT_SWAP_BUSY 5 Reg.FLT_SWAP_REQ 4
       ∧ refused (.swapRequest 4 true 0x20) (r.setCopy 4 Reg.FLT_SWAP_AT 115) .FLT_SWAP_LATE 5 Reg.FLT_SWAP_REQ 4
       ∧ after (.swapRequest 4 true 0x20) (r.setCopy 4 Reg.FLT_SWAP_AT 116) (fun t => t.getF (Reg.FLT_BSTAT_PENDV 5) == 1 && (t.coef 5).swapAt == some 116)
       ∧ after .coefficientSwap { r.setF (Reg.FLT_BSTAT_PENDV 5) 1 with coefs := [(5, { swapAt := some 100 })] } (fun t =>
          t.getF (Reg.FLT_BSTAT_ACTIVE 5) == 1 && t.getF (Reg.FLT_BSTAT_PENDV 5) == 0 && t.reg (Reg.FLT_SWAP_SLOT 5) == 100)
       ∧ idle .coefficientSwap { r with coefs := [(5, { swapAt := some 101 })] }) := by decide +kernel

/-! ### Capture -/

/-- Slot 100 of a hub in Summit at converter clock 1100: slot 99 was held at bin 1,900,000; lane 0 stays an operator. -/
def summit : State :=
  let s := (timed 100).setF Reg.SYS_MODE_CUR 4
  { s with clk := { s.clk with uptime := 32 * 1100 }, fabric := { s.fabric with holds := [(99, 1900000)] } }

/-- Unit 2 in a state with descriptor 3 (PRE 4, POST 10, channels 0 and 1, 4 KiB at page 0, NEXT none, NOTIFY) armed at converter clock 500;
its source has crossed at bin 2,048,000. -/
def desc3 : Sparse W64 := [(48, 1), (49, 0x0000000400FF0203), (50, 10)]
def unit2 (st : Nat) (x : TrigSt) : State :=
  let s := ((summit.setF (Reg.TRG_CFG_SRC 2) 384).setF (Reg.TRG_STAT_DESC 2) 3).setF (Reg.TRG_STAT_STATE 2) st
  let a : State := { s with fasts := [(0, { crossA := [(true, 2048000)] })] }
  { a with cap := { a.cap with units := [(2, x)], descs := desc3 } }

theorem test_CaptureTriggers :
    let on := summit.setF (Reg.FC_CMP_EN_A 0) 1
    idle (.crossing 0 .a true 5000) summit
    ∧ after (.crossing 0 .a true 5000) on (fun t => (t.fasts.get (fun _ => {}) 0).crossA == [(true, 5000)] && t.getF (Reg.FC_CSTAT_CROSS_A 0) == 1
        && t.getF (Reg.FC_CSTAT_LVL_A 0) == 1)
    ∧ after (.crossing 0 .a false 6024) { on with fasts := [(0, { crossA := [(true, 5000)] })] } (fun t =>
        t.getF (Reg.FC_CSTAT_MERGED 0) == 1 && t.fasts == [])
    ∧ after (.crossing 0 .a false 6025) { on with fasts := [(0, { crossA := [(true, 5000)] })] } (fun t => t.getF (Reg.FC_CSTAT_MERGED 0) == 0)
    ∧ idle (.triggerQualified 2) (summit.setF (Reg.TRG_CFG_SRC 2) 384)
    ∧ (unit2 2 { armAt := 500 }).nextTrigger 2 = some (2048000, 2048000)
    ∧ after (.triggerQualified 2) (unit2 2 { armAt := 500 }) (fun t => t.trgState 2 == 3 && t.descState 3 == 2 && t.desc 3 4 == 99
        && (t.unit 2).trig == 514 && (t.unit 2).kept == 510 && (t.unit 2).post == 10 && t.getF (Reg.TRG_STAT_TRIGS 2) == 1)
    ∧ after (.triggerQualified 2) (unit2 3 { armAt := 500, trig := 505, post := 10 }) (fun t => t.trgState 2 == 3 && (t.unit 2).secs == 1)
    ∧ after (.triggerQualified 2) (unit2 5 { armAt := 500, exitAt := some 2048000 }) (fun t => t.trgState 2 == 5 && t.cap.misses == [] && (t.unit 2).seen == 2048000)
    ∧ after (.triggerQualified 2) (unit2 5 { armAt := 500 }) (fun t => t.trgState 2 == 5 && t.cap.misses.length == 1 && t.getF (Reg.TRG_STAT_MISSES 2) == 1)
    ∧ (let o := ((unit2 2 { armAt := 500 }).setF (Reg.TRG_CFG_TYPE 2) 3).setF (Reg.TRG_T1_T 2) 2048
       o.timeoutRef 2 = some (1024000, 1026048) ∧ o.pointOf 2 1026048 = some 1026048
       ∧ after (.triggerTimeout 2) o (fun t => t.trgState 2 == 3 && t.descState 3 == 2 && (t.unit 2).toUsed == some 1024000))
    ∧ after (.triggerStampWrite 2) (unit2 3 { stamps := [{ clock := 1084, bins := 7, slot := 9, bin := 3, frac := 1 }] }) (fun t =>
        t.reg (Reg.TRG_TSLOT 2) == 9 && t.reg (Reg.TRG_TBIN 2) == 0x100000003 && t.tiv.stamps == [(4, 7)]) := by decide +kernel

/-- Unit 2 idle with a valid trigger, its comparator on, descriptor 3 free; channels 0 and 1 on. -/
def idle2 : State :=
  let s := ((unit2 0 {}).setF (Reg.FC_CMP_EN_A 0) 1).setF (Reg.FC_CFG_EN 0) 1
  s.setF (Reg.FC_CFG_EN 1) 1

theorem test_CaptureUnits :
    idle2.mirrored 4 = false ∧ idle2.summitLike = true ∧ idle2.armTests false 2 3 = none ∧ idle2.armTests false 2 255 = none
    ∧ refused (.triggerArm 1 2 3) idle2 .SYS_AUTH_DENIED 2 (Reg.TRG_CTL 2) 1 ∧ refused (.triggerDisarm 1 2) idle2 .SYS_AUTH_DENIED 2 (Reg.TRG_CTL 2) 1
    ∧ refused (.triggerArm 4 2 3) (idle2.setF Reg.SYS_MODE_CUR 5) .PAIR_MIRRORED 2 (Reg.TRG_CTL 2) 4
    ∧ refused (.triggerArm 4 2 3) (idle2.setF Reg.SYS_MODE_CUR 3) .TRG_ARM_MODE 2 3 4
    ∧ after (.triggerArm 4 2 3) idle2 (fun t => t.trgState 2 == 1 && t.descState 3 == 1 && (t.unit 2).armAt == 1101)
    ∧ after (.triggerArm 4 2 255) idle2 (fun t => t.trgState 2 == 2 && t.trgDesc 2 == 255)
    ∧ (unit2 2 { seen := 2048000 }).nextPoint 2 = none ∧ (unit2 2 { seen := 2048000 }).nextTimeout 2 = none
    ∧ (unit2 3 { seen := 2048000 }).nextPoint 2 = none ∧ (unit2 3 { seen := 2048000 }).nextTimeout 2 = none
    ∧ after (.triggerDisarm 4 2) (unit2 2 { seen := 2048000 }) (fun t => t.trgState 2 == 0 && t.descState 3 == 4)
    ∧ after (.triggerDisarm 4 2) (unit2 3 { seen := 2048000 }) (fun t => t.trgState 2 == 3 && (t.unit 2).noRearm && (t.unit 2).disarmed)
    ∧ idle (.prefillComplete 2) (unit2 1 { nFrames := 3 }) ∧ after (.prefillComplete 2) (unit2 1 { nFrames := 4 }) (fun t => t.trgState 2 == 2)
    ∧ idle (.recordPostComplete 2) (unit2 3 { trig := 5, post := 10, nFrames := 14 })
    ∧ after (.recordPostComplete 2) (unit2 3 { trig := 5, post := 10, nFrames := 15 }) (fun t => t.trgState 2 == 5)
    ∧ after (.recordClose 2) (unit2 5 { trig := 5, kept := 1, post := 10 }) (fun t => t.trgState 2 == 0 && t.descState 3 == 3 && t.desc 3 10 == 10
        && logged t .CAP_CLOSED 2 3 1)
    ∧ (let n (st : Nat) : State := ((unit2 6 { rearmAt := 1100 }).setDesc 3 1 0x0000000400040003).setDesc 4 3 (BitVec.ofNat 64 (st * 2 ^ 60))
       let m := ((n 0).setDesc 4 0 0x0000000100000001).setDesc 4 1 0x0000000400FF0001
       (m.setDesc 4 2 10).armRecord 4 = some .CAP_ARM_MASK ∧ ((m.setDesc 4 2 10).setF (Reg.FC_CFG_EN 0) 1).armRecord 4 = none
       ∧ after (.rearm 2) ((m.setDesc 4 2 10).setF (Reg.FC_CFG_EN 0) 1) (fun t => t.trgState 2 == 1 && t.trgDesc 2 == 4 && t.descState 4 == 1)
       ∧ after (.rearm 2) (n 3) (fun t => t.trgState 2 == 0 && logged t .CAP_REARM_REFUSED 2 4 (BitVec.ofNat 64 Cond.CAP_DESC_STATE.code)))
    ∧ idle (.triggerArm 4 2 3) (idle2.setF Reg.SYS_MODE_CUR 7) ∧ refused (.missPop 1) live .SYS_AUTH_DENIED 0 Reg.CAP_MISS_POP 1
    ∧ after (.recordClose 2) ((unit2 5 { trig := 5, kept := 1, post := 10 }).setDesc 3 1 0x0000000400040203) (fun t => t.trgState 2 == 0
        && t.evt.ring.any (fun r => r.code == Cond.CAP_REARM_REFUSED.code && r.unit == 2 && r.d2 == 4))
    ∧ after (.missPop 4) { live with cap := { live.cap with misses := [{ unit := 1, next := 255, slot := 1, bin := 2, frac := 3 }] } } (fun t =>
        t.cap.misses == []) := by decide +kernel

/-- Descriptor 3 closed with 2 frames before and 2 from the trigger on, of two channels (16 bytes at address 0). -/
def closed3 : State :=
  let d : Sparse W64 := [(48, 1), (49, 0x0000000400FF0203), (50, 10), (51, 0x3000000000000002), (58, 2)]
  let s : State := { live with cap := { live.cap with descs := d, mem := [(0, 0x11), (9, 0x22)] } }
  (s.setF Reg.CAP_COPY_SRC_DESC 3).setReg Reg.CAP_COPY_DST 64

/-- Unit 2 with a spill to stream 7 on queue 5. -/
def spill2 (st : Nat) (x : TrigSt) (on : Bool) : State :=
  let s := ((unit2 st x).setDesc 3 1 0x0000000000FF0103).setDesc 3 2 0x000700000000000A
  let q := (s.setF (Reg.QUE_CFG_EN 5) 1).setF (Reg.QUE_CFG_SIZE 5) 8
  { q with strm := [(28, 0x6005000000000000)], strms := [(7, { on := on })] }

theorem test_CaptureData :
    after (.spillPacket 2) (spill2 4 { armAt := 500, trig := 5, kept := 5, post := 10 } false) (fun t => t.trgState 2 == 5 && (t.unit 2).cut)
    ∧ (spill2 4 { armAt := 500, trig := 5, kept := 5, post := 10 } true).strmQueue 7 = 5
    ∧ 6 ≤ (spill2 4 { armAt := 500, trig := 5, kept := 5, post := 10 } true).room 5
    ∧ after (.spillPacket 2) (spill2 4 { armAt := 500, trig := 5, kept := 5, post := 10 } true) (fun t => t.trgState 2 == 5 && (t.unit 2).spilled == 10
        && (t.que 5).wp == 6)
    ∧ (let s := closed3.setCopy 4 Reg.CAP_DESC_PTR 49
       closed3.portReads 4 Reg.CAP_DESC_DATA = true ∧ ({ closed3 with mode := { phase := .lanes } }).portReads 4 Reg.CAP_DESC_DATA = false
       ∧ idle (.descDataAccess 4 (some 1)) (s.setF Reg.SYS_MODE_CUR 7) ∧ closed3.mirrored 4 = false
       ∧ after (.descDataAccess 4 none) s (fun t => bits (t.copy 4 Reg.CAP_DESC_PTR) 11 0 == 50)
       ∧ after (.descDataAccess 4 (some (-1))) s (fun t => t.desc 3 1 == 0xFFFFFFFF00FF03FF && t.descState 3 == 0 && t.desc 3 10 == 0 && t.desc 3 0 == 1)
       ∧ refused (.descDataAccess 4 (some 1)) (s.setDescState 3 2) .CAP_DESC_BUSY 0 Reg.CAP_DESC_DATA 4
       ∧ refused (.descDataAccess 4 (some 1)) (s.setF Reg.SYS_MODE_CUR 5) .PAIR_MIRRORED 0 Reg.CAP_DESC_DATA 4)
    ∧ closed3.readable 3 = true ∧ closed3.recordLen 3 = 16
    ∧ refused (.captureCopy 4 16) (closed3.setF Reg.CAP_COPY_STAT_BUSY 1) .CAP_COPY_BUSY 0 Reg.CAP_COPY_GO 4
    ∧ after (.captureCopy 4 16) (closed3.setDescState 3 2) (fun t => t.getF Reg.CAP_COPY_STAT_REFUSED == 1
        && logged t .CAP_LOCKED 0 (BitVec.ofNat 64 Reg.CAP_COPY_GO) 4)
    ∧ after (.captureCopy 4 16) closed3 (fun t => t.getF Reg.CAP_COPY_STAT_BUSY == 1 && t.cap.copy == some { desc := 3, off := 0, dst := 64, len := 16 })
    ∧ (let c : State := { closed3 with cap := { closed3.cap with copy := some { desc := 3, off := 0, dst := 64, len := 16 } } }
       after (.captureCopyDone []) c (fun t => t.dram == [(64, 0x11), (73, 0x22)] && t.cap.copy == none && t.getF Reg.CAP_COPY_STAT_DONE == 1)
       ∧ after (.captureCopyDone [0]) c (fun t => t.dram == [] && t.getF Reg.CAP_COPY_STAT_POISON == 1 && t.getF Reg.CAP_COPY_STAT_POFF == 0)) := by
  decide +kernel

/-! ### Time intervals, frequency, the crystal -/

theorem test_TimeInterval :
    let armed := (summit.setF Reg.TIV_STAT_STATE 1).setF Reg.TIV_CFG_STOP_SRC 1
    let two (st : Option (Bool × Nat)) (n c b : Nat) : State :=
      { armed with tiv := { armed.tiv with stamps := [(c, b)], start := st } }.setF Reg.TIV_STAT_STATE n
    summit.tivState = 0 ∧ idle (.tivArm 4) (summit.setF Reg.SYS_MODE_CUR 7) ∧ idle (.tivAbort 4) (summit.setF Reg.SYS_MODE_CUR 7) ∧ idle .tivStampOrdered armed
    ∧ armed.tivState = 1 ∧ armed.getF Reg.TIV_CFG_START_SRC = 0
    ∧ refused (.tivArm 4) armed .TIV_BUSY 0 Reg.TIV_CTL 4
    ∧ after (.tivArm 4) summit (fun t => t.tivState == 1 && t.tiv.armAt == 1101 * 2048)
    ∧ after (.tivAbort 4) armed (fun t => t.tivState == 0 && t.getF Reg.TIV_STAT_ABORTED == 1)
    ∧ after (.tivPinEdge 0 true 163) { (armed.setReg Reg.TIV_PIN_START 0x0001000000000000) with tiv := { armed.tiv with last := [(0, 101)] } } (fun t =>
        t.getF Reg.TIV_STAT_IGNORED == 1 && t.tiv.stamps == [])
    ∧ after (.tivPinEdge 0 true 164) { ((armed.setReg Reg.TIV_PIN_START 0x0001000000000000).setF Reg.TIV_FCFG_INPUT 1) with
        tiv := { armed.tiv with last := [(0, 101)] } } (fun t => t.tiv.stamps == [(0, 164)] && t.tiv.last == [(0, 165)])
    ∧ (two none 1 0 50).firstStamp = some (0, 50) ∧ (two none 1 0 50).tivInputs 0 = (true, false) ∧ (two none 1 1 50).tivInputs 1 = (false, true)
    ∧ after .tivStampOrdered (two none 1 0 50) (fun t => t.tivState == 2 && t.tiv.start == some (false, 50) && t.tiv.stamps == [])
    ∧ after .tivStampOrdered (two none 1 1 50) (fun t => t.tiv.start == none && t.getF Reg.TIV_STAT_EARLY_STOP == 1)
    ∧ after .tivStampOrdered (two (some (false, 1900007)) 2 1 1900057) (fun t => t.reg Reg.TIV_RESULT == 0x8000000000000032
        && t.reg Reg.TIV_RSLOT == 99 && t.reg Reg.TIV_RBIN == 7 && t.getF Reg.TIV_STAT_DONE == 1 && t.tivState == 0)
    ∧ (let late : State := { armed with clk := { armed.clk with uptime := 2 ^ 40 + 768 }, tiv := { armed.tiv with start := some (false, 0) } }.setF Reg.TIV_STAT_STATE 2
       after .tivTimeout late (fun t => t.reg Reg.TIV_RESULT == 0xA000000000000000 && logged t .TIV_TIMEOUT 0 0 0)) := by decide +kernel

theorem test_FrequencyAndTrim :
    let run (r : FreqRun) : State := { (summit.setF Reg.TIV_STAT_FBUSY 1).setReg Reg.TIV_PIN_START 2 with tiv := { live.tiv with freq := some r } }
    let r : FreqRun := { from_ := some 1000, t0 := some 1000, n := 9 }
    refused (.fstart 4) (run r) .TIV_BUSY 0 Reg.TIV_CTL 4
    ∧ after (.fstart 4) summit (fun t => t.getF Reg.TIV_STAT_FBUSY == 1 && t.tiv.freq == some { from_ := none, t0 := none, n := 0 })
    ∧ after (.fstop 4) (run r) (fun t => t.getF Reg.TIV_STAT_FBUSY == 0 && t.tiv.freq == none)
    ∧ after (.tivPinEdge 0 true 2049000) ((run r).setF Reg.TIV_FCFG_GATE 2) (fun t => t.reg Reg.TIV_FN == 0x800000000000000A && t.reg Reg.TIV_FT == 2048000
        && t.reg Reg.TIV_FREQ == BitVec.ofNat 64 (1000000 * 2 ^ 24) && t.getF Reg.TIV_STAT_FBUSY == 0)
    ∧ after .tivNoSignal ((run { r with t0 := none }).setF Reg.TIV_FCFG_GATE 2) (fun t => t.reg Reg.TIV_FN == 0x8000000000000000
        && t.getF Reg.TIV_STAT_NOSIG == 1 && logged t .TIV_NO_SIGNAL 0 0 0)
    ∧ idle .tivNoSignal ((run { r with t0 := none }).setF Reg.TIV_FCFG_GATE 3)
    ∧ (let s : State := { live.setS Reg.TIV_AGE_SLOPE 2577 with clk := { live.clk with uptime := 262144 * 12800 } }
       after .ageingUpdate s (fun t => t.tiv.age == 2577 && t.tiv.ageTerm == 8 && t.tiv.loop == 0 && t.tiv.ageAt == 262144)
       ∧ after .ageingUpdate (s.setF Reg.TIV_STAT_REFLOCK 1) (fun t => t.tiv.loop == -8))
    ∧ idle .ageingUpdate live ∧ idle (.fstart 4) (live.setF Reg.SYS_MODE_CUR 7) ∧ idle (.fstop 4) (live.setF Reg.SYS_MODE_CUR 7)
    ∧ after (.ref10Lock 75000) live (fun t => t.tiv.loop == 75000 && t.getF Reg.TIV_STAT_REFLOCK == 1 && t.getF Reg.TIV_TRIM_CODE == 0x800002)
    ∧ idle (.ref10Lock 75000) { live with tiv := { live.tiv with frozen := true } }
    ∧ after (.ref10Freeze (-75000)) (live.setF Reg.TIV_STAT_REFLOCK 1) (fun t => t.tiv.frozen && t.getF Reg.TIV_STAT_REFLOCK == 0
        && t.getF Reg.TIV_TRIM_CODE == 0x7FFFFE)
    ∧ after .clkRef10Valid { live with tiv := { live.tiv with frozen := true } } (fun t => !t.tiv.frozen)
    ∧ (let s : State := { live with clk := { live.clk with uptime := 21600000000 * 12800 }
                                    tiv := { live.tiv with lockedAt := some 0, hist := [(21600000000, 1024), (0, 0)] } }.setS Reg.TIV_AGE_SLOPE 3
       after .ageMeasUpdate s (fun t => t.getS Reg.TIV_AGE_MEAS == 7)
       ∧ after .ageMeasUpdate { s with tiv := { s.tiv with lockedAt := some 1 } } (fun t => t.getF Reg.TIV_AGE_MEAS == 0)) := by decide +kernel

/-! ### Time bases and network time -/

/-- TB1 in a state of its own, following the source src, at 100 s. -/
def tb1 (st src : Nat) (x : TbSt) : State :=
  ({ timed 100 with tbs := (timed 100).tbs }.setTb 1 { x with time := 100 * secUnits, srcNow := src }).setF (Reg.TB_STAT_STATE 1) st

/-- A message of the master 77 with sequence number 9, received on lane 2. -/
def msg (twoStep : Bool) (ts corr rx : Int) : PtpMsg :=
  { domain := 0, seq := 9, srcId := 77, srcPort := 1, twoStep := twoStep, corr := corr, ts := ts, rx := rx, reqId := 1 }

/-- TB1 a PTP instance, its time that of the root clock, whose port on lane 2 has a portState and a record. -/
def ptp1 (st ps : Nat) (p : PtpPort) : State :=
  let s0 := tb1 st 1 {}
  let s := ((((s0.setTb 1 { s0.tb 1 with ports := [(2, p)], time := 20000000000 * 80 * 2 ^ 40 }).setF (Reg.TB_CFG_PORTS 1) 4).setF (Reg.TB_CFG_DOMAIN 1) 0).setF (Reg.TB_STAT_PSTATE 1) (ps * 256)).setReg
    (Reg.TB_PARENT 1) 77
  { s with clk := { s.clk with uptime := 20000000000 } }.setF (Reg.LANE_STAT_STATE 2) 4

theorem test_OffsetsAndServo :
    let e : State := (((((({ tb1 2 3 { lastExt := some 50000000 } with clk := { live.clk with uptime := 100000000 } }).setF (Reg.TB_SERVO_KP 1) 1).setF
      (Reg.TB_SERVO_KI 1) 4).setF (Reg.TB_SERVO_FMAX 1) 1000).setF (Reg.TB_SERVO_SLEWMAX 1) 500).setF (Reg.TB_LIMITS_STEPLIM 1) 5)
    refused (.externalOffset 0 1 5) e .SYS_AUTH_DENIED 1 (Reg.TB_EXTOFF 1) 0
    ∧ 2 ≤ e.classOf 4 ∧ e.getF (Reg.TB_STAT_CSLEW 1) = 0
    ∧ after (.externalOffset 4 1 327680) e (fun t => t.getS (Reg.TB_FREQ_YI 1) == 21990 && t.getS (Reg.TB_FREQ_Y 1) == 175922 + 21990
        && t.reg (Reg.TB_OFFSET 1) == 327680 && (t.tb 1).lastExt == some 100000000)
    ∧ after (.externalOffset 4 1 (-327680)) (e.setF (Reg.TB_SERVO_SLEWMAX 1) 100) (fun t => t.getS (Reg.TB_FREQ_YI 1) == 0
        && t.getS (Reg.TB_FREQ_Y 1) == -109951)
    ∧ after (.externalOffset 4 1 327681) e (fun t => t.tbState 1 == 5 && t.reg (Reg.TB_ROFF 1) == 327681 && t.getF (Reg.TB_STAT_REFPEND 1) == 1)
    ∧ (ptp1 2 9 {}).fromParent 1 2 (msg true 0 0 0) = true ∧ (ptp1 2 8 {}).tbState 1 ≠ 0
    ∧ after (.sync 1 2 (msg true 1000 1 900)) (ptp1 2 9 {}) (fun t => (t.ptp 1 2).wait == some (msg true 1000 1 900))
    ∧ after (.sync 1 2 (msg false 1000 1 900)) (ptp1 2 9 { delay := some 10 }) (fun t => t.reg (Reg.TB_OFFSET 1) == 111)
    ∧ after (.followUp 1 2 (msg true 1000 1 0)) (ptp1 2 9 { delay := some 10, wait := some (msg true 0 2 900) }) (fun t =>
        t.reg (Reg.TB_OFFSET 1) == 113 && (t.ptp 1 2).wait == none)
    ∧ after (.followUp 1 2 (msg true 1000 1 0)) (ptp1 0 9 { delay := some 10, wait := some (msg true 0 2 900) }) (fun t =>
        t.tbState 1 == 2 && (t.tb 1).time == 20000000000 * 80 * 2 ^ 40 + 113 * 2 ^ 32)
    ∧ (ptp1 2 9 {}).localAt 1 900 = 900 ∧ (ptp1 2 9 {}).fromParent 1 3 (msg true 0 0 0) = false ∧ idle (.sync 1 3 (msg true 0 0 0)) (ptp1 2 9 {})
    ∧ (let c := (ptp1 2 9 { delay := some 10 })
       after (.sync 1 2 (msg false 1000 1 900)) (c.setTb 1 { c.tb 1 with cmdAt := 3 }) (fun t => t.getF (Reg.TB_CNT_REFUSED 1) == 1 && t.tbState 1 == 2))
    ∧ idle (.externalOffset 4 1 5) (e.setF Reg.SYS_MODE_CUR 7) ∧ idle (.sourceLost 1) (ptp1 1 9 {})
    ∧ (let h := (ptp1 3 9 {}).setS (Reg.TB_FREQ_YI 1) 7
       3 * h.syncTicks 1 ≤ h.clk.uptime ∧ after (.sourceLost 1) h (fun t => t.tbState 1 == 4 && t.getS (Reg.TB_FREQ_Y 1) == 7)) := by decide +kernel

/-- An Announce of the master 77 and what is known of it. -/
def ann : AnnounceMsg :=
  { domain := 0, srcId := 77, srcPort := 1, gmId := 78, priority1 := 9, clsAccVar := 0, priority2 := 0, steps := 1, utcOff := 37, own := false }
def foreign (seen : Nat) : Foreign := { ann := ann, count := 1, seen := seen }

theorem test_PtpExchanges :
    let sent (t : State) (kind : BitVec 4) (seq : BitVec 16) : Bool := (t.egressOf 2).map (fun f => f.ptp.map (fun g => (g.kind, g.seq))) == [some (kind, seq)]
    let p2p (p : PtpPort) : State := (ptp1 2 6 p).setF (Reg.TB_CFG_P2P 1) 1
    let mine : PtpMsg := { msg false 5000 20 2000 with reqId := (ptp1 2 9 {}).clockId 1 }
    (ptp1 2 6 {}).isPort 1 2 = true ∧ (ptp1 2 6 {}).laneUp 2 = true ∧ (ptp1 2 6 {}).ptpMine 1 2 0 0 = true
    ∧ after (.syncInterval 1 2) (ptp1 2 6 { syncSeq := 65535 }) (fun t => sent t 0 0 && (t.ptp 1 2).syncSeq == 0)
    ∧ after (.announceInterval 1 2) (ptp1 2 6 {}) (fun t => sent t 11 1)
    ∧ after (.delayReqInterval 1 2) (ptp1 2 9 {}) (fun t => sent t 1 1) ∧ after (.delayReqInterval 1 2) (p2p {}) (fun t => sent t 2 1)
    ∧ after (.delayReq 1 2 (msg false 0 0 0)) (ptp1 2 6 {}) (fun t => sent t 9 9) ∧ after (.pdelayReq 1 2 (msg false 0 0 0)) (p2p {}) (fun t => sent t 3 9)
    ∧ (ptp1 2 8 {}).fromParent 1 2 mine = true
    ∧ after (.delayResp 1 2 mine) (ptp1 2 8 { sync := some (1000, 1100), reqTx := some 4900, reqSeq := 9 }) (fun t =>
        (t.ptp 1 2).delay == some 90 && t.pstate 1 2 == 9)
    ∧ (p2p { reqSeq := 9 }).peerMine 1 2 mine = true
    ∧ after (.pdelayResp 1 2 { mine with twoStep := true }) (p2p { reqSeq := 9, reqTx := some 1000 }) (fun t =>
        (t.ptp 1 2).presp == some { mine with twoStep := true })
    ∧ after (.pdelayResp 1 2 mine) (p2p { reqSeq := 9, reqTx := some 1000 }) (fun t => (t.ptp 1 2).delay == some 490)
    ∧ after (.pdelayRespFollowUp 1 2 mine) (p2p { reqSeq := 9, reqTx := some 1000, presp := some { mine with twoStep := true, ts := 4800 } }) (fun t =>
        (t.ptp 1 2).delay == some 380)
    ∧ (let s := (ptp1 1 4 { foreign := [foreign 20000000000] }).setF (Reg.TB_DS_SLAVE_ONLY 1) 1
       [0, 1, 3].all (fun j => !s.isPort 1 j) = true ∧ s.clockId 1 ≠ 77
       ∧ idle (.announce 1 3 ann) s ∧ idle (.announce 1 2 { ann with steps := 255 }) s ∧ idle (.syncInterval 1 2) s ∧ idle (.announceInterval 1 2) s
       ∧ after (.announce 1 2 ann) s (fun t => t.reg (Reg.TB_GMID 1) == 78 && t.getF (Reg.TB_STAT_GM 1) == 0 && t.pstate 1 2 == 8))
    ∧ (let s := ptp1 3 9 { foreign := [foreign 0] }
       let p := s.setTb 1 { s.tb 1 with parentAt := some 2 }
       s.getF (Reg.TB_CFG_ARTO 1) * s.annTicks 1 ≤ s.clk.uptime
       ∧ idle (.announceReceiptTimeout 1 2) (ptp1 3 9 { heard := 20000000000 })
       ∧ after (.announceReceiptTimeout 1 2) p (fun t => t.tbState 1 == 4 && t.pstate 1 2 == 6 && t.getF (Reg.TB_STAT_GM 1) == 1))
    ∧ after (.ptpDrop 1) ((ptp1 2 9 {}).setF (Reg.TB_CNT_PTP_DROP 1) 2) (fun t => t.getF (Reg.TB_CNT_PTP_DROP 1) == 3) := by decide +kernel

theorem test_TimeCommands :
    let cmd (op st : Nat) (off : Int) : State :=
      let s := ({ tb1 st 0 { cmds := [{ op := op, sec := 50, ns := 7, off := off, maint := false, edge := 0 }] } with
        clk := { (atSlot 100).clk with edges := 1 } }).setReg (Reg.TB_ROFF 1) 65536
      ((s.setF (Reg.TB_SERVO_SLEWMAX 1) 500).setF (Reg.TB_SERVO_FMAX 1) 1000).setS (Reg.TB_FREQ_YI 1) 9
    let s := (tb1 1 0 {}).setF Reg.SYS_MODE_CUR 1
    refused (.set 0 1) s .TIME_CMD_AUTH 1 Reg.TIME_CMD 0 ∧ refused (.step 4 1) (tb1 0 0 {}) .TIME_CMD_UNSET 1 Reg.TIME_CMD 4
    ∧ refused (.acceptSlew 4 1) s .TIME_CMD_NOREF 1 Reg.TIME_CMD 4
    ∧ s.checkTimeCmd 4 1 3 = none
    ∧ after (.slew 4 1) (s.setCopy 4 Reg.TIME_CMDOFF (-5)) (fun t => (t.tb 1).cmds.map (fun c => (c.op, c.off, c.edge)) == [(3, -5, 0)])
    ∧ idle (.timeCommandEffect 1) s ∧ idle (.timeCommandEffect 1) { cmd 1 1 0 with clk := (atSlot 100).clk } ∧ idle (.slewComplete 1) s
    ∧ idle (.set 4 1) (s.setF Reg.SYS_MODE_CUR 7)
    ∧ (cmd 1 1 0).now = 100
    ∧ after (.timeCommandEffect 1) (cmd 1 1 0) (fun t => (t.tb 1).time == 50 * secUnits + 7 * 2 ^ 48 && (t.tb 1).cmds == [] && logged t .TIME_STEP 1 100 0)
    ∧ after (.timeCommandEffect 1) (cmd 1 0 0) (fun t => (t.tb 1).time == 50 * secUnits + 7 * 2 ^ 48 && t.tbState 1 == 1)
    ∧ after (.timeCommandEffect 1) (cmd 2 1 (-65536)) (fun t => (t.tb 1).time == 100 * secUnits - 2 ^ 48)
    ∧ after (.timeCommandEffect 1) (cmd 3 1 (-65536)) (fun t => (t.tb 1).slew == some (-2 ^ 48) && t.getS (Reg.TB_FREQ_Y 1) == 9 - 549756
        && t.getF (Reg.TB_STAT_CSLEW 1) == 1)
    ∧ after (.timeCommandEffect 1) (cmd 4 5 0) (fun t => (t.tb 1).time == 100 * secUnits + 2 ^ 48 && t.tbState 1 == 2)
    ∧ after (.timeCommandEffect 1) (cmd 5 5 0) (fun t => (t.tb 1).time == 100 * secUnits && t.tbState 1 == 2 && t.getF (Reg.TB_STAT_CSLEW 1) == 1)
    ∧ after (.slewComplete 1) (((tb1 1 0 { slew := some 0 }).setF (Reg.TB_STAT_CSLEW 1) 1).setS (Reg.TB_FREQ_YI 1) 9) (fun t =>
        (t.tb 1).slew == none && t.getF (Reg.TB_STAT_CSLEW 1) == 0 && t.getS (Reg.TB_FREQ_Y 1) == 9)
    ∧ after (.sampleTbWrite 4 1) (s.setF Reg.SYS_MODE_CUR 4) (fun t => t.sampTb == 0
        && logged t .TIME_SAMPLE_LIVE 1 (BitVec.ofNat 64 Reg.TIME_CFG) 4)
    ∧ s.acquiring = false ∧ (s.getF Reg.SYS_LOCK_LOCK).testBit 3 = false ∧ s.pps.highest ≤ s.tbSlot 1
    ∧ after (.sampleTbWrite 4 2) s (fun t => t.sampTb == 0 && logged t .TIME_CMD_UNSET 2 (BitVec.ofNat 64 Reg.TIME_CFG) 4)
    ∧ after (.sampleTbWrite 4 1) { s with pps := { s.pps with highest := 25000001 } } (fun t => logged t .TIME_STEP_BACK 1 (BitVec.ofNat 64 Reg.TIME_CFG) 4)
    ∧ after (.sampleTbWrite 4 1) s (fun t => t.sampTb == 1 && t.clk.slot == 25000000 && t.getF (Reg.TB_STAT_SAMPLING 1) == 1
        && t.getF (Reg.TB_STAT_SAMPLING 0) == 0) := by decide +kernel

theorem test_AlarmsAndPps :
    let al (en sec ns : Nat) : State := (((tb1 2 0 {}).setF (Reg.ALM_CFG_EN 3) en).setReg (Reg.ALM_SEC 3) (BitVec.ofNat 64 sec)).setF (Reg.ALM_NS_NS 3) ns
    let tb (v : Nat) (s : State) : State := (s.setF (Reg.ALM_CFG_TB 3) 1).setF (Reg.ALM_CFG_PERIOD 3) v
    refused (.alarmArm 1 3 3) (al 0 101 0) .SYS_AUTH_DENIED 3 (Reg.ALM_CFG 3) 1
    ∧ refused (.alarmArm 4 3 3) (al 1 101 0) .TIME_ALARM_LIVE 3 (Reg.ALM_CFG 3) 4
    ∧ refused (.alarmArm 4 3 5) (al 0 101 0) .TIME_ALARM_UNSET 3 (Reg.ALM_CFG 3) 4
    ∧ refused (.alarmArm 4 3 3) (al 0 100 7999) .TIME_ALARM_PAST 3 (Reg.ALM_CFG 3) 4
    ∧ after (.alarmArm 4 3 2) (al 0 100 8000) (fun t => t.getF (Reg.ALM_CFG_EN 3) == 1 && t.getF (Reg.ALM_STAT_ARMED 3) == 1 && t.getF (Reg.ALM_CFG_TB 3) == 1)
    ∧ idle (.alarmFire 3) (tb 0 (al 1 100 1))
    ∧ after (.alarmFire 3) (tb 0 (al 1 100 0)) (fun t => t.getF (Reg.ALM_CFG_EN 3) == 0 && t.getF (Reg.ALM_STAT_FIRES 3) == 1)
    ∧ after (.alarmFire 3) ((tb 4000 (al 1 100 0)).setF (Reg.ALM_CFG_ACT 3) 2) (fun t => t.getF (Reg.ALM_CFG_EN 3) == 1 && t.getF (Reg.ALM_NS_NS 3) == 4000
        && logged t .TIME_ALARM 3 3 100)
    ∧ (let p (src : Nat) : State := ((tb1 1 0 {}).setF Reg.TIME_PPS_OUT_SRC src).setF Reg.TIME_PPS_OUT_TB 1
       after .ppsOutPulse ((p 1).setF Reg.TIME_PPS_WIDTH 10) (fun t => t.pps.last == some 100 && t.pps.highTo == some (t.clk.uptime + 32000))
       ∧ (p 1).ppsHigh = false
       ∧ after .ppsOutPulse { p 2 with pps := { live.pps with sched := some 5 } } (fun t => t.pps.sched == none && t.pps.highTo.isSome)
       ∧ idle .ppsOutPulse (p 0) ∧ idle .ppsOutPulse (p 2) ∧ idle .ppsOutPulse { p 1 with pps := { live.pps with last := some 100 } })
    ∧ idle (.alarmArm 4 3 3) ((al 0 101 0).setF Reg.SYS_MODE_CUR 7)
    ∧ after (.ppsInEdge 0) live (fun t => t.getF Reg.TIME_PPSIN_BAD == 1)
    ∧ (let e : State := tb1 2 2 {}
       let now : Int := (e.clk.uptime * 64 : Nat)
       e.tbTimeAt 1 now = 100 * secUnits ∧ [0, 2, 3].all (fun k => (e.tb k).srcNow != 2) = true
       ∧ after (.ppsInEdge now) e (fun t => t.reg (Reg.TB_OFFSET 1) == 0 && (t.tb 1).lastPps == some (100 * secUnits)
         && t.getF Reg.TIME_PPSIN_ACCEPTED == 1)
       ∧ after (.ppsInEdge now) (e.setTb 1 { e.tb 1 with cmdAt := e.clk.uptime * 64 + 1 }) (fun t => t.getF (Reg.TB_CNT_REFUSED 1) == 1
         && t.getF Reg.TIME_PPSIN_ACCEPTED == 1)) := by decide +kernel

/-! ### Lanes and the switch -/

/-- Lane 2 in a LANE_STAT.STATE with a record, EN = 1, role 1, rates 1 to 3, in Basecamp; port 2 is an owner. -/
def lane2 (st : Nat) (x : LaneSt) : State :=
  let s := (((({ live with lanes := [(2, x)] }.setF (Reg.LANE_STAT_STATE 2) st).setF (Reg.LANE_CFG_EN 2) 1).setF (Reg.LANE_CFG_ROLE 2) 1).setF
    (Reg.LANE_CFG_RATES 2) 7).setF (Reg.LANE_CFG_FIXRATE 2) 0
  { s with clk := { s.clk with slot := 100, uptime := 4 * 10 ^ 9 } }.setF Reg.SYS_AUTH_L2 2

theorem test_LaneBringUpSequence :
    let o (role id : Nat) : BitVec 48 := BitVec.ofNat 48 (2 ^ 43 + 2 ^ 40 * 3 + role * 2 ^ 38 + id)
    let done (role id : Nat) : State := lane2 1 { octets := (o role id).toNat, seen := 9, ack := true, sent := 7, acked := 2 }
    (lane2 1 {}).lanesRun = true ∧ (lane2 1 {}).laneRole 2 = 1 ∧ (lane2 1 {}).id32 ≠ 9
    ∧ after (.capabilitySet 2 5) (lane2 1 { octets := 5, seen := 2 }) (fun t => (t.lane 2).ack && (t.lane 2).seen == 3 && t.laneState 2 == 1)
    ∧ after (.capabilitySet 2 6) (lane2 1 { octets := 5, seen := 2 }) (fun t => !(t.lane 2).ack && (t.lane 2).seen == 1)
    ∧ after (.capabilitySet 2 (o 0 9)) (done 0 9) (fun t => t.laneState 2 == 6 && logged t .LANE_ROLE_MISMATCH 2 0 0)
    ∧ (let i := (done 1 9).id32
       after (.capabilitySet 2 (o 1 i)) (done 1 i) (fun t => t.laneState 2 == 6 && logged t .LANE_SELF 2 0 0))
    ∧ after (.capabilitySet 2 (o 1 9)) (done 1 9) (fun t => t.laneState 2 == 1 && (t.lane 2).target == 2 && t.getF (Reg.LANE_STAT_PARTNER_NEIL 2) == 1
        && t.reg (Reg.LANE_PCAP 2) == 0x80000B4000000009)
    ∧ after (.capabilitySet 2 (o 1 9)) { done 1 9 with lanes := [(2, { octets := (o 1 9).toNat, ack := true, sent := 6, acked := 2 })] } (fun t =>
        (t.lane 2).target == 0)
    ∧ after (.cl37Autonegotiation 2) ((lane2 1 {}).setF (Reg.LANE_CFG_ROLE 2) 0) (fun t => t.laneState 2 == 2)
    ∧ after (.cl37Autonegotiation 2) ((lane2 2 {}).setF (Reg.LANE_CFG_ROLE 2) 0) (fun t => t.laneState 2 == 4 && t.getF (Reg.LANE_STAT_RATE 2) == 1)
    ∧ after (.idleTimeout 2) ((lane2 1 {}).setF (Reg.LANE_CFG_ROLE 2) 0) (fun t => t.laneState 2 == 4 && t.getF (Reg.LANE_STAT_RATE 2) == 1)
    ∧ idle (.idleTimeout 2) (lane2 3 {}) ∧ idle (.capabilitySet 2 5) (lane2 3 {})
    ∧ after (.idleTimeout 2) (lane2 1 {}) (fun t => t.laneState 2 == 6)
    ∧ after (.exchangeRetry 2) (lane2 6 { octets := 7, since := 8 * 10 ^ 8, retry := true }) (fun t => t.laneState 2 == 1 && (t.lane 2).octets == 0)
    ∧ idle (.exchangeRetry 2) (lane2 6 { octets := 7, since := 8 * 10 ^ 8 + 1, retry := true })
    ∧ idle (.exchangeRetry 2) (lane2 6 { octets := 7 })
    ∧ after (.trainingStart 2) (lane2 1 { target := 2, since := 4 * 10 ^ 9 - 64000 }) (fun t => t.laneState 2 == 3)
    ∧ idle (.trainingStart 2) (lane2 1 { target := 2, since := 4 * 10 ^ 9 - 63999 })
    ∧ after (.trainingDeadline 2) (lane2 3 { target := 3, octets := 2 ^ 40 * 7, since := 4 * 10 ^ 9 - 38400000 }) (fun t => (t.lane 2).target == 2
        && (t.lane 2).failed == [3])
    ∧ after (.laneUp 2) (lane2 3 { target := 2 }) (fun t => t.laneState 2 == 4 && t.getF (Reg.LANE_STAT_RATE 2) == 2 && t.getF (Reg.LANE_STAT_ACTIVE 2) == 1
        && logged t .LANE_UP 2 2 0) := by decide +kernel

theorem test_LaneLossAndGroups :
    let up (x : LaneSt) : State := ((lane2 4 x).setF (Reg.LANE_STAT_RATE 2) 2).setF (Reg.LANE_STAT_ACTIVE 2) 1
    let pairOf (a3 : Nat) : State := (((({ lane2 1 { lostAt := some 99 } with sw := live.sw }.setF (Reg.LANE_CFG_GROUP 2) 1).setF (Reg.LANE_CFG_GROUP 3) 1).setF
      (Reg.LANE_STAT_STATE 3) 4).setF (Reg.LANE_STAT_ACTIVE 2) 0).setF (Reg.LANE_STAT_ACTIVE 3) a3
    after (.laneDown 2 1) (up {}) (fun t => t.laneState 2 == 1 && t.getF (Reg.LANE_STAT_LASTLOSS 2) == 1 && t.getF (Reg.LANE_STAT_RETRAINS 2) == 1
      && logged t .LANE_DOWN 2 100 0)
    ∧ (let n := (up {}).upSlots
       after (.laneDown 2 3) (up { losses := [(2, n - 5), (2, n - 9)] }) (fun t => t.getF (Reg.LANE_STAT_BARRED 2) == 2
        && (t.lane 2).bars == [(2, n + 900000000)])
       ∧ after (.laneDown 2 3) (up { losses := [(2, n - 5), (1, n - 9)] }) (fun t => t.getF (Reg.LANE_STAT_BARRED 2) == 0)
       ∧ after (.rateBarExpiry 2 2) ((up { bars := [(2, n)] }).setF (Reg.LANE_STAT_BARRED 2) 2) (fun t => t.getF (Reg.LANE_STAT_BARRED 2) == 0
        && (t.lane 2).bars == [])
       ∧ idle (.rateBarExpiry 2 2) ((up { bars := [(2, n + 1)] }).setF (Reg.LANE_STAT_BARRED 2) 2))
    ∧ idle (.laneDown 2 1) (lane2 3 {})
    ∧ refused (.rateBarClear 0 2 7) (up {}) .SYS_AUTH_DENIED 2 (Reg.LANE_STAT 2) 0
    ∧ after (.rateBarClear 4 2 2) ((up {}).setF (Reg.LANE_STAT_BARRED 2) 6) (fun t => t.getF (Reg.LANE_STAT_BARRED 2) == 4)
    ∧ [0, 1].all (fun k => (pairOf 0).laneGroup k != 1) = true
    ∧ after (.laneFailover 1) (pairOf 0) (fun t => t.getF (Reg.LANE_STAT_ACTIVE 3) == 1 && (t.lane 2).lostAt == none && logged t .LANE_FAILOVER 2 2 3)
    ∧ refused (.makeActive 0 3) (pairOf 0) .SYS_AUTH_DENIED 3 (Reg.LANE_CTL 3) 0
    ∧ refused (.makeActive 4 2) (pairOf 1) .LANE_GROUP_DOWN 2 (Reg.LANE_CTL 2) 4
    ∧ after (.makeActive 4 3) ((pairOf 0).setF (Reg.LANE_STAT_ACTIVE 2) 1) (fun t => t.getF (Reg.LANE_STAT_ACTIVE 3) == 1
        && t.getF (Reg.LANE_STAT_ACTIVE 2) == 0)
    ∧ (let pk : Pkt := { stream := 0, ftype := 1, seq := 0, first := 0, fin := 0, start := 40, n := 3, last := false, refu := false, clip := false,
                         flush := false, drop := false, fst := false, cmode := 0, check := 0, h2 := 0, tag := 0 }
       after (.heldWordsRelease 5) { up {} with clk := { (up {}).clk with edges := 100, tick := 7 },
                                                  queues := [(5, { rp := 40, sp := 50, wp := 50, sent := [(pk, 36 * 12800 + 7)] })] } (fun t =>
        t.que 5 == { rp := 43, sp := 50, wp := 50 }))
    ∧ idle (.rateBarClear 4 2 7) ((up {}).setF Reg.SYS_MODE_CUR 7) ∧ idle (.makeActive 4 2) ((up {}).setF Reg.SYS_MODE_CUR 7)
    ∧ idle (.laneDisable 4 2) ((up {}).setF Reg.SYS_MODE_CUR 7) ∧ idle (.makeActive 4 2) (up {})
    ∧ idle (.laneDown 2 5) (up {}) ∧ ((up {}).getF Reg.SYS_LOCK_LOCK).testBit 5 = false ∧ (up {}).getF (Reg.LANE_CFG_FEC 2) ≠ 3
    ∧ after (.laneDisable 4 2) (up {}) (fun t => t.laneState 2 == 0 && t.getF (Reg.LANE_CFG_EN 2) == 0 && t.getF (Reg.LANE_STAT_LASTLOSS 2) == 7
        && logged t .LANE_DOWN 2 100 0) := by decide +kernel

theorem test_LaneTests :
    let up := lane2 4 {}
    let r (v : W64) (c : Cond) (port : Port) (s : State) := refused (.laneTest port 2 v) s c 2 (Reg.LANE_TEST 2) port
    r 1 .SYS_AUTH_DENIED 0 up ∧ r 0x31 .LANE_TEST_PAT 4 up ∧ r 0x17 .LANE_TEST_COMBO 4 up ∧ r 0x11 .LANE_TEST_SELF 2 up
    ∧ r 0x11 .LANE_TEST_ROLE 4 ((up.setF (Reg.LANE_CFG_ROLE 2) 2).setF Reg.SYS_MODE_CUR 4)
    ∧ after (.laneTest 4 2 0x22) up (fun t => t.laneState 2 == 5 && t.getF (Reg.LANE_TEST_PAT 2) == 2 && t.getF (Reg.LANE_TEST_LOOP 2) == 1
        && t.getF (Reg.LANE_TEST_EN 2) == 1 && logged t .LANE_DOWN 2 100 0)
    ∧ after (.laneTestEnd 4 2) ((lane2 5 {}).setF (Reg.LANE_TEST_EN 2) 1) (fun t => t.laneState 2 == 1 && t.getF (Reg.LANE_TEST_EN 2) == 0)
    ∧ after (.laneTestEnd 2 2) (((lane2 5 {}).setF (Reg.LANE_TEST_EN 2) 1).setF Reg.SYS_AUTH_L2 1) (fun t => t.laneState 2 == 1)
    ∧ refused (.laneTestEnd 1 2) (lane2 5 {}) .SYS_AUTH_DENIED 2 (Reg.LANE_TEST 2) 1 ∧ refused (.laneTestEnd 0 2) (lane2 5 {}) .SYS_AUTH_LANE 2 (Reg.LANE_TEST 2) 0
    ∧ idle (.laneTest 4 2 1) (up.setF Reg.SYS_MODE_CUR 7) ∧ idle (.prbsLock 2 1 1) up
    ∧ after (.prbsLock 2 3 1024) ((lane2 5 { prbs := 2 ^ 20 - 1000 }).setF (Reg.LANE_TEST_PAT 2) 1) (fun t => t.getF (Reg.LANE_PRBS_LOCK 2) == 1
        && t.getF (Reg.LANE_PRBS_ERR 2) == 3 && t.getF (Reg.LANE_PRBS_BITS 2) == 1 && (t.lane 2).prbs == 24)
    ∧ after (.prbsLocklost 2 64 1024 1024) ((lane2 5 { prbs := 2 ^ 20 - 1024 }).setF (Reg.LANE_PRBS_LOCK 2) 1) (fun t => t.getF (Reg.LANE_PRBS_LOCK 2) == 0
        && t.getF (Reg.LANE_PRBS_LOCKLOST 2) == 1 && t.getF (Reg.LANE_PRBS_ERR 2) == 64 && t.getF (Reg.LANE_PRBS_BITS 2) == 1)
    ∧ idle (.prbsLocklost 2 64 2000 1025) ((lane2 5 {}).setF (Reg.LANE_PRBS_LOCK 2) 1)
    ∧ idle (.prbsLocklost 2 63 1024 1024) ((lane2 5 {}).setF (Reg.LANE_PRBS_LOCK 2) 1) := by decide +kernel

/-- Lanes 2 and 3 UP, with the station 1 learned on lane 3. -/
def sw2 : State :=
  let s := ((lane2 4 {}).setF (Reg.LANE_STAT_STATE 3) 4).setF (Reg.LANE_STAT_ACTIVE 3) 1
  { s with sw := { s.sw with learned := [{ mac := 1, vid := 1, port := 3, seen := 0 }] } }

theorem test_SwitchFrames :
    let c (f : Frame) : Instr := .frameReceived 2 f 0
    let tx (o prio : Nat) (w : W64) : TxFrame :=
      { origin := o, prio := prio, dst := 0, src := 0, etype := 0, vid := 1, tagged := false, encap := 0, words := [w], octets := 64, ptp := none, rx := 0, corr := 0 }
    idle (c frame0) live
    ∧ after (c { frame0 with fcsOk := false }) (sw2.setF Reg.SW_CFG_CT 0) (fun t => t.getF (Reg.LANE_CNT_FCS_ERR 2) == 1 && t.getF (Reg.SW_CNT_DROP_FILT 2) == 1)
    ∧ after (c { frame0 with etype := 0x8808 }) sw2 (fun t => t.getF (Reg.SW_CNT_PAUSE_RX 2) == 1)
    ∧ after (c frame0) (sw2.setF Reg.SW_MAC_MAC 2) (fun t => t.getF (Reg.SW_PORT_LOOPBLK 2) == 1 && t.getF Reg.SW_TCCNT_LOOPS == 1)
    ∧ sw2.vidOf 2 frame0 = 1 ∧ sw2.vlanMember 1 2 = true ∧ sw2.accepts 2 frame0 = true ∧ sw2.pairRole 2 = false
    ∧ (sw2.learn 2 1 2).destinations 2 1 frame0 = [3]
    ∧ after (c frame0) sw2 (fun t => (t.egressOf 3).map (fun g => (g.words, g.dst, g.src)) == [([7], 1, 2)]
        && t.sw.learned.any (fun e => e.mac == 2 && e.vid == 1 && e.port == 2))
    ∧ after (c { frame0 with octets := 70 }) (sw2.setF Reg.SW_QLIM_BYTES 69) (fun t => t.egressOf 3 == [] && t.getF (Reg.SW_CNT_DROP_Q 3) == 1)
    ∧ (let e : State := { sw2 with sw := { sw2.sw with egress := [(3, [tx 2 1 5, tx 4 6 9, tx 2 6 8])] } }
       e.pick 3 = some (6, 2) ∧ after (.frameTransmit 3 [] 0) e (fun t => (t.sw.lastTx.get (fun _ => none) 3) == some (tx 2 6 8)
        && t.egressOf 3 == [tx 2 1 5, tx 4 6 9] && t.pick 3 == some (6, 4)))
    ∧ (let pk : Pkt := { stream := 7, ftype := 1, seq := 0, first := 4, fin := 0, start := 0, n := 1, last := false, refu := false, clip := false,
                         flush := false, drop := false, fst := false, cmode := 0, check := 0, h2 := 3, tag := 0 }
       let e : State := { sw2 with queues := [(48, { wp := 1, pkts := [pk] })] }
       e.pick 3 = some (e.strmPrio 7, 4) ∧ e.frameAt 3 (e.strmPrio 7) 4 = none ∧ e.queueAt 3 (e.strmPrio 7) = some (48, pk, false)
       ∧ after (.frameTransmit 3 [0] 0) e (fun t => (t.que 48).pkts == [] && (t.que 48).sent.map (fun x => x.1) == [pk] && (t.que 48).sp == 1
        && ((t.sw.lastTx.get (fun _ => none) 3).map (fun f => f.words.drop 1)) == some [4, 3, 0x1000010000000000, 0x10000]))
    ∧ after (.fdbAgeOut 1 1) ((sw2.setF Reg.SW_CFG_AGE 1)) (fun t => t.sw.learned == []) ∧ sw2.upSlots = 312500
    ∧ idle (.fdbAgeOut 1 1) (sw2.setF Reg.SW_CFG_AGE 2)
    ∧ (let h (n : Nat) : Residence := { port := 0, tag := { kind := 0, domain := 0, seq := 0, srcId := 0, srcPort := 0, twoStep := true, csum := 0 },
                                        time := 0, held := n }
       after .tcNomatch { sw2 with sw := { sw2.sw with held := [h 62500, h 62501] } } (fun t => t.sw.held == [h 62501]
        && t.getF Reg.SW_TCCNT_TC_NOMATCH == 1))
    ∧ idle (.frameTransmit 3 [] 0) sw2 ∧ idle (.loopBlockClear 4 3) (sw2.setF Reg.SYS_MODE_CUR 7)
    ∧ (let g : PtpTag := { kind := 1, domain := 0, seq := 0, srcId := 0, srcPort := 0, twoStep := false, csum := 0 }
       let f : TxFrame := { tx 2 6 8 with ptp := some g, rx := 100, corr := 7 }
       after (.frameTransmit 3 [] 150) { sw2 with sw := { sw2.sw with egress := [(3, [f])] } } (fun t =>
        t.sw.lastTx.get (fun _ => none) 3 == some { f with corr := 57 }))
    ∧ refused (.loopBlockClear 0 3) sw2 .SYS_AUTH_DENIED 3 (Reg.SW_PORT 3) 0
    ∧ after (.loopBlockClear 4 3) (sw2.setF (Reg.SW_PORT_LOOPBLK 3) 1) (fun t => t.getF (Reg.SW_PORT_LOOPBLK 3) == 0) := by decide +kernel

/-! ### Streams, queues, the ledger, the decoders -/

/-- Queue 5 on, with stream 7's word 0 as given; port 0 is an operator of lane 0, port 2 a reader. -/
def strm7 (w0 : W64) (x : StreamSt) : State :=
  let s := (live.setF (Reg.QUE_CFG_EN 5) 1).setF (Reg.QUE_CFG_SIZE 5) 10
  { s with strm := [(28, w0)], strms := [(7, x)], clk := { s.clk with slot := 100 } }

/-- A closed packet of stream 7. -/
def pkt7 (seq start n : Nat) : Pkt :=
  { stream := 7, ftype := 1, seq := seq, first := 4, fin := 5, start := start, n := n, last := false, refu := false, clip := false,
    flush := false, drop := false, fst := false, cmode := 0, check := 0, h2 := 3, tag := 0 }

/-- An open packet of three words. -/
def open6 : OpenPkt := { start := 6, n := 3, first := 8, fin := 9, crc := 0, refu := false, clip := false, framed := false }

theorem test_StreamsAndQueues :
    let v : W64 := 0x0005000018080000
    let e : W64 := 0x8005000018080000
    let s := strm7 0 {}
    let r (port : Port) (x : W64) (c : Cond) := refused (.streamEnable port 7 x) s c 0 Reg.STRM_DATA port
    s.belay = false ∧ bit (s.strmWord 7 0) 63 = false
    ∧ r 0 0x7005000000000000 .STRM_KIND ∧ r 0 0x0005000018100000 .STRM_CHANS ∧ r 0 0x0005000C40080000 .STRM_CHANS ∧ r 0 0x0006000018080000 .STRM_QUEUE
    ∧ refused (.streamEnable 0 7 v) { s with strm := [(32, e)] } .STRM_QUEUE 0 Reg.STRM_DATA 0
    ∧ refused (.streamEnable 0 7 0x6005000000000000) s .STRM_QUEUE 0 Reg.STRM_DATA 0 ∧ r 2 v .STRM_AUTH
    ∧ after (.streamEnable 0 7 v) s (fun t => t.strmWord 7 0 == e && (t.strmSt 7).rising && !(t.strmSt 7).on)
    ∧ e &&& strmMask 0 = e
    ∧ refused (.streamEnable 0 7 v) (strm7 e { on := true }) .STRM_LIVE 0 Reg.STRM_DATA 0
    ∧ after (.streamDisable 0 7) (strm7 e { on := true }) (fun t => t.strmWord 7 0 == v && (t.strmSt 7).falling && (t.strmSt 7).on)
    ∧ refused (.streamDisable 2 7) (strm7 e { on := true }) .SYS_AUTH_DENIED 0 Reg.STRM_DATA 2
    ∧ after (.streamDataAccess 0 none) (s.setCopy 0 Reg.STRM_PTR 8191) (fun t => t.copy 0 Reg.STRM_PTR == 0)
    ∧ after (.streamDataAccess 0 (some (-1))) ((strm7 v {}).setCopy 0 Reg.STRM_PTR 29) (fun t => t.strmWord 7 1 == 0x0FFFFFFFFFFFFFFF
        && t.copy 0 Reg.STRM_PTR == 30)
    ∧ refused (.streamEnable 4 7 v) (s.setF Reg.SYS_MODE_CUR 5) .PAIR_MIRRORED 0 Reg.STRM_DATA 4 ∧ s.portOpen 0 Reg.STRM_DATA = true
    ∧ refused (.streamDisable 4 7) (s.setF Reg.SYS_MODE_CUR 5) .PAIR_MIRRORED 0 Reg.STRM_DATA 4
    ∧ (let d := (strm7 e { on := true }).setF Reg.SYS_MODE_CUR 7
       idle (.streamEnable 0 7 v) d ∧ idle (.streamDisable 0 7) d ∧ idle (.streamDataAccess 0 (some 1)) d ∧ idle (.queueFlush 0 5) d ∧ idle (.queueDisable 0 5) d)
    ∧ r 0 0x6405000000000000 .STRM_RATIO
    ∧ (let q : State := { strm7 e { on := true } with queues := [(5, { wp := 9, sp := 2, pkts := [pkt7 3 2 4], open_ := some open6 })] }
       refused (.queueFlush 2 5) q .SYS_AUTH_DENIED 5 (Reg.QUE_CTL 5) 2 ∧ refused (.queueDisable 0 21) q .SYS_AUTH_LANE 21 (Reg.QUE_CFG 21) 0
       ∧ q.streamOf 5 = some 7
       ∧ after (.queueFlush 0 5) q (fun t => { t.que 5 with lost := [] } == { wp := 2, sp := 2, disc := true } && t.getF (Reg.QUE_CTL_FLUSHED 5) == 1
           && (t.que 5).lost.length == 1 && t.evt.ring == [])
       ∧ after (.queueFlush 0 5) { q with queues := [(5, { wp := 6, sp := 2, pkts := [pkt7 3 2 4] })] } (fun t => t.que 5 == { wp := 2, sp := 2 }
           && t.evt.ring.any (fun k => k.code == Cond.QUE_FLUSH.code && k.d2 == 7 && k.d3 == 3))
       ∧ after (.queueDisable 0 5) q (fun t => t.getF (Reg.QUE_CFG_EN 5) == 0 && t.effFlag (Reg.QUE_CFG_EN 5))) := by decide +kernel

/-- A record of stream 7, channel 3, that waits for the coder. -/
def blk (vals : List Int) : LedLane :=
  { stream := 7, chan := 3, first := 50, stride := 1, vals := vals, flags := vals.map (fun _ => 0), refu := false, clip := false, h2 := 0 }

/-- Stream 7 enabled at ratio 3 on queue 5, with that record. -/
def coder (vals : List Int) : State :=
  let s := strm7 0x8C05000018080000 { on := true }
  { s with led := { s.led with blocks := [blk vals] } }

/-- 64 zeros as a block of ratio 3: order 0, seed width 1, no residual bits; CRC16 of 256 octets of 0. -/
def zeroBlock : List W64 := blockWords 3 0 { order := 0, seedW := 1, ws := [0, 0, 0, 0], len := 57 } (List.replicate 64 0)

theorem test_LedgerCoding :
    let c (n : Fin 3) : Instr := .blockCode 7 3 n
    let wrote (t : State) (n words : Nat) : Bool := t.led.blocks == [] && t.reg Reg.LED_NEWEST == 50
      && t.led.ring.map (fun r => (r.ratio, r.words.length, r.count, r.chan)) == [(n, words, 1, 3)]
    (coder [0]).laneRatio 7 = 3 ∧ (coder [0]).ledSize ≥ 1000 ∧ (coder [0]).strmQueue 7 = 5 ∧ (coder [0]).room 5 ≥ 12 ∧ (coder [0]).kind 7 < 6
    ∧ after (c 0) ((coder [0]).setF Reg.CMP_LAST_CODER_FAULT 1) (fun t => wrote t 0 40)
    ∧ after (c 2) (coder [0]) (fun t => wrote t 0 40 && t.getF Reg.CMP_CNT_SELFCHK == 1)
    ∧ (codeLane (blk [0]) 3).map (fun p => (p.1, p.2.length)) = some (0, 12)
    ∧ after (c 0) (coder [0]) (fun t => wrote t 3 12 && t.getF Reg.CMP_STAT_BLOCKS == 1 && t.getF Reg.CMP_STAT_LOSSY == 0 && (t.que 5).wp == 12) := by
  decide +kernel

theorem test_LedgerCoding_unfit :
    let v : List Int := (List.range 64).map (fun i => if i % 16 = 8 then 2 ^ 31 - 1 else 0)
    after (.blockCode 7 3 0) (coder v) (fun t => t.getF Reg.CMP_CNT_UNFIT == 1 && t.led.ring.map (fun r => r.words.length) == [40]) := by decide +kernel

set_option maxRecDepth 100000 in
theorem test_LedgerCoding_decode :
    let raw : List W64 := List.replicate 32 5
    Accepts own 2 hdr 0x12 (0 :: raw) 0 false ∧ Accepts own 2 hdr 0x12 (3 :: zeroBlock) 0 false ∧ Accepts own 2 hdr 0x12 [3, 1] 0 false
    ∧ after (.decode 2 hdr 3 [1]) own (fun t => answers t 3 [])
    ∧ after (.decode 2 hdr 0 raw) (own.setF Reg.CMP_MASK_MASK 5) (fun t => answers t 0 (0 :: raw) && t.getF Reg.CMP_MASK_MASK == 0)
    ∧ after (.decode 2 hdr 3 zeroBlock) own (fun t => answers t 0 (List.replicate 33 0))
    ∧ after (.decode 2 hdr 3 (List.replicate 4 (-1))) own (fun t => answers t 0 [15] && t.getF Reg.CMP_CNT_HOST_FAULT == 1) := by
  unfold Accepts; decide +kernel

theorem test_LedgerCoding_peer :
    let s := (((chain.setF Reg.SW_MAC_MAC 9).setF (Reg.CMP_RX_CFG_EN 2) 1).setF (Reg.CMP_RX_CFG_STREAM 2) 7).setF (Reg.CMP_RX_CFG_SMAC 2) 6
    let p : State := (s.setF (Reg.CMP_RX_RING_SIZE 2) 10).setReg (Reg.CMP_RX_WP 2) 1023
    let words : List W64 := [0x1100E00000000005, 0, 0, 0x8000000000] ++ [100, 0x00E0300000000000, 0, 0, 0, 0, 0, 0] ++ List.replicate 32 0x0000000400000005
    bits (words.getD 0 0) 55 45 = 7 ∧ bits (words.getD 3 0) 39 36 = 8
    ∧ after (.peerPacket 1 8 9 words) p (fun t => t.getF Reg.CMP_LAST_RX_UNMATCHED == 1)
    ∧ after (.peerPacket 1 6 9 words) p (fun t => t.getF (Reg.CMP_RX_CNT_PKTS 2) == 1 && t.reg (Reg.CMP_RX_WP 2) == 1026
        && Memory.word t.dram (8 * 1023) == 100 && Memory.word t.dram 0 == 0x00E0300000000000 && Memory.word t.dram 8 == 0x0000000401800064) := by
  decide +kernel

/-- A replay of lane 2 with tag 9 for stream 7, channel 3, slots 40 to 60, on a lane that is UP. -/
def rep9 : Replay :=
  { port := 2, tag := 9, stream := 7, chlo := 3, chhi := 3, from_ := 40, to_ := 60, prio := 1, dst := 5, seq := 4, cursor := none, spans := []
    status := none, cut := false, abort := false }
def rep (ring : List LedRec) : State :=
  let s := own.setF (Reg.LANE_STAT_STATE 2) 4
  { s with led := { s.led with ring := ring, replays := [rep9] } }

def rec7 : LedRec := { stream := 7, chan := 3, first := 50, count := 1, stride := 1, ratio := 0, words := [50, 7], orig := [0], pos := 0, bad := false }

theorem test_ReplayCommands :
    let w1 : W64 := 0x00E0301B00000009
    let req (a b c : W64) (s : State) (p : State → Bool) : Bool := after (.replay 2 hdr a b c) s p
    let no (t : State) (c : Cond) : Bool := answers t 2 [] && logged t c 0 0x10 2
    Accepts own 2 hdr 0x10 [w1, 40, 60] 0 false
    ∧ req w1 40 60 { own with strm := [(28, 0x6005000000000000)] } (fun t => no t .LED_REPLAY_STREAM)
    ∧ req w1 60 40 own (fun t => no t .LED_REPLAY_RANGE) ∧ req 0x00E0302B00000009 40 60 own (fun t => no t .LED_REPLAY_RANGE)
    ∧ req w1 40 60 { own with led := { own.led with replays := List.replicate 4 rep9 } }
        (fun t => no t .LED_REPLAY_BUSY)
    ∧ req w1 40 60 own (fun t => answers t 0 [] && (t.replay 2 9).map (fun r => (r.chlo, r.chhi, r.prio, r.from_, r.to_, r.dst)) == some (3, 3, 3, 40, 60, 5))
    ∧ Accepts (rep []) 2 hdr 0x11 [9] 0 false
    ∧ after (.replayAbort 2 hdr 9) (rep []) (fun t => answers t 0 [] && (t.replay 2 9).map (fun r => r.abort) == some true)
    ∧ after (.replayPacket 2 9) (rep [rec7]) (fun t => (t.egressOf 2).map (fun f => (f.prio, f.dst, f.words.take 2, f.words.drop 4)) ==
          [(1, 5, [0x1200E00900000004, 50], [50, 7])] && (t.replay 2 9).map (fun r => (r.seq, r.cursor)) == some (5, some (50, 3)))
    ∧ (rep []).nextRecord rep9 = none ∧ (rep [rec7]).carrier 2 = 2 ∧ ((rep [rec7]).packRecords 16 129 rep9).1 = [rec7]
    ∧ after (.replayAbort 2 hdr 8) (rep []) (fun t => answers t 0 [] && t.led == (rep []).led)
    ∧ idle (.replayPacket 2 8) (rep [rec7]) ∧ idle (.replayStatusPacket 2 8) (rep [rec7])
    ∧ ((rep []).replayStatus rep9).length ≤ 43
    ∧ after (.replayStatusPacket 2 9) (rep []) (fun t => t.replay 2 9 == none && (t.egressOf 2).map (fun f => (f.prio, f.dst)) == [(1, 5)]) := by
  unfold Accepts; decide +kernel

/-! ### Access by hosts -/

theorem test_HostReadsAndWrites :
    let w1 : W64 := BitVec.ofNat 64 Reg.EVT_CFG
    let op := live.setF Reg.SYS_AUTH_L2 1
    let e := own.setReg Reg.SYS_ERRCNT 0x0001000200000000
    Accepts e 2 hdr 1 [BitVec.ofNat 64 Reg.SYS_ERRCNT] 0 true ∧ Reg.SYS_ERRCNT ≠ Reg.SYS_HOST 2 ∧ copiedWord Reg.SYS_ERRCNT = false
    ∧ (findReg Reg.SYS_ERRCNT).map (fun d => d.accMask (fun c => c == .rc)) = some 0xFFFFFFFF00000000
    ∧ after (.read 2 hdr (BitVec.ofNat 64 Reg.SYS_ERRCNT)) e (fun t => answers t 0 [BitVec.ofNat 64 Reg.SYS_ERRCNT, 0x0001000200000000]
        && t.reg Reg.SYS_ERRCNT == 0)
    ∧ Accepts op 2 hdr 2 [w1, 0x1F21] 0 false ∧ Accepts live 2 hdr 2 [w1, 0x1F21] 0 false ∧ bits w1 22 16 = 0 ∧ bits w1 12 0 = Reg.EVT_CFG
    ∧ after (.write 2 hdr w1 [0x1F21]) live (fun t => answers t 1 [] && logged t .SYS_AUTH_DENIED 0 w1 2)
    ∧ after (.write 2 hdr w1 [0x1F21]) op (fun t => answers t 0 [] && t.reg Reg.EVT_CFG == 0x1F01 && t.getF Reg.SYS_ERRCNT_RSVD == 1)
    ∧ after (.write 2 hdr w1 [1, 2]) op (fun t => answers t 3 [] && t.reg Reg.EVT_CFG == op.reg Reg.EVT_CFG)
    ∧ Accepts op 2 hdr 4 [w1, 3, 1] 0 false
    ∧ after (.mwrite 2 hdr [w1, 3, 1]) (op.setReg Reg.EVT_CFG 0x106) (fun t => answers t 0 [] && t.reg Reg.EVT_CFG == 0x105)
    ∧ Accepts op 2 hdr 3 [8] 0 false
    ∧ after (.snapshot 2 hdr 8) op (fun t => answers t 0 [8, op.reg Reg.SYS_MODE, op.reg Reg.SYS_MODE_SLOT])
    ∧ snapGroup 9 = none ∧ after (.snapshot 2 hdr 9) op (fun t => answers t 3 []) := by
  unfold Accepts; decide +kernel

theorem test_HostReadsAndWrites_record :
    let c : State := closed3.setF Reg.SYS_AUTH_L2 1
    Accepts c 2 hdr 0x13 [0x0300000000000000, 16] 0 false
    ∧ after (.capRead 2 hdr 0x0300000000000000 16) c (fun t => answers t 0 [0x1100000000000000, 0x0022000000000000])
    ∧ after (.capRead 2 hdr 0x0300000000000000 16) (c.setDescState 3 2) (fun t => answers t 2 [] && logged t .CAP_LOCKED 0 0x13 2) := by
  unfold Accepts; decide +kernel

theorem test_HostReadsAndWrites_authority :
    let s := live.setF Reg.SYS_AUTH_L1 2
    let au := s.reg Reg.SYS_AUTH
    let with1 (k : Nat) : W64 := setBits au 3 2 k
    let all0 : W64 := setBits (setBits (with1 0) 9 8 0) 7 0 0
    refused (.authWrite 0 au) s .SYS_AUTH_DENIED 0 Reg.SYS_AUTH 0 ∧ refused (.lockWrite 0 1) s .SYS_AUTH_DENIED 0 Reg.SYS_LOCK 0
    ∧ after (.authWrite 1 (with1 1)) (s.setF Reg.SYS_LOCK_LOCK 1) (fun t => logged t .SYS_LOCKED 0 (BitVec.ofNat 64 Reg.SYS_AUTH) 1 && t.classOf 1 == 2)
    ∧ (with1 1 ^^^ au) &&& 0x80000000000003FF ≠ 0
    ∧ refused (.authWrite 1 (with1 3)) s .SYS_AUTH_RAISE 0 Reg.SYS_AUTH 1 ∧ refused (.authWrite 1 all0) s .SYS_AUTH_ORPHAN 0 Reg.SYS_AUTH 1
    ∧ after (.authWrite 1 (with1 0)) s (fun t => t.classOf 1 == 0 && t.classOf 4 == 2 && t.classOf 0 == 1)
    ∧ after (.lockWrite 1 0x100001) (s.setF Reg.SYS_LOCK_LOCK 2) (fun t => t.getF Reg.SYS_LOCK_LOCK == 0x100003 && t.getF Reg.SYS_AUTH_LOCK == 1)
    ∧ idle (.authWrite 1 au) (s.setF Reg.SYS_MODE_CUR 7) ∧ idle (.lockWrite 1 1) (s.setF Reg.SYS_MODE_CUR 7)
    ∧ idle (.registerWrite 1 0 5) (s.setF Reg.SYS_MODE_CUR 7) ∧ findReg 0x1FFF = none ∧ after (.registerWrite 1 0x1FFF 5) s (fun t => t.getF Reg.SYS_ERRCNT_UNIMPL == 1)
    ∧ refused (.registerWrite 2 (BitVec.ofNat 13 Reg.EVT_CFG) 1) s .SYS_AUTH_DENIED 0 Reg.EVT_CFG 2
    ∧ after (.registerWrite 0 (BitVec.ofNat 13 Reg.EVT_CFG) 0x21) s (fun t => t.reg Reg.EVT_CFG == 1 && t.getF Reg.SYS_ERRCNT_RSVD == 1) := by
  decide +kernel

/-- A response to source 5 that waits in lane 2's context since slot 0, or for program command n. -/
def resp (w : Option Nat) : Resp := { dst := 5, op := 0x80, tag := 0, status := 0, detail := 0, words := [3], ready := 0, waits := w }
/-- Slot 250,000 with a context of lane 2. -/
def host2 (x : HostSt) : State := { own with hosts := [(2, x)], clk := { own.clk with slot := 250000, uptime := 250000 * 12800 } }

theorem test_HostResponses :
    let tag1 : CmdHdr := { tag := 1, src := 5, sub := false }
    let st : Cmd × Resp := ({ src := 5, words := cmdFrame tag1 0x7F [] }, resp none)
    let mail : HostSt := { resps := [resp (some 0)], mail := [(3, some { num := 0, cmd := { src := 5, words := [] }, slot := 0 })] }
    own.pairRole 2 = false ∧ (own.setF Reg.CFG_STATUS_LOADED 0).answers 2 = false
    ∧ idle (.illegalCommand 2 hdr 0x7F) (own.setF Reg.CFG_STATUS_LOADED 0) ∧ idle (.programCommand 2 hdr 0x80 [7]) (own.setF Reg.CFG_STATUS_LOADED 0)
    ∧ after (.illegalCommand 2 hdr 0x7F) (host2 { resps := List.replicate 8 (resp none) }) (fun t => t.getF (Reg.SYS_HOST_CMD_DROP 2) == 1)
    ∧ after (.illegalCommand 2 tag1 0x7F) (host2 { store := [st] }) (fun t => (t.hostOf 2).resps == [{ resp none with ready := 250000 }]
        && t.getF (Reg.SYS_HOST_DUPS 2) == 1)
    ∧ (own.setF Reg.SYS_MODE_CUR 7).served 2 0x7F false = false
    ∧ after (.illegalCommand 2 hdr 0x7F) (own.setF Reg.SYS_MODE_CUR 7) (fun t => answers t 4 [] && t.getF (Reg.SYS_HOST_REFUSED 2) == 1)
    ∧ Accepts own 2 hdr 0x7F [] 0 false ∧ after (.illegalCommand 2 hdr 0x7F) own (fun t => answers t 3 [] && t.getF (Reg.SYS_HOST_CMDS 2) == 1)
    ∧ Accepts own 2 hdr 0x80 [7] 0 false ∧ (own.hostOf 2).freeSlot = some 0
    ∧ after (.programCommand 2 hdr 0x80 [7]) own (fun t => Memory.word t.sram (mailAt 2 0) == 0x1480000001000000 && Memory.word t.sram (mailAt 2 0 + 8) == 7
        && (t.hostOf 2).resps.map (fun r => (r.op, r.dst, r.waits)) == [(0x80, 5, some 0)])
    ∧ after (.noprog 2 3) (host2 mail) (fun t => (t.hostOf 2).slot 3 == none
        && (t.hostOf 2).resps == [{ resp none with status := 5, detail := 3, words := [], ready := 250000 }])
    ∧ (own.carrier 2 = 2)
    ∧ after (.response 2) ((host2 { resps := [resp none] }).setF (Reg.LANE_STAT_STATE 2) 4) (fun t => (t.hostOf 2).resps == []
        && (t.egressOf 2).map (fun f => (f.prio, f.dst, f.words)) == [(6, 5, [0x1580000001000000, 3])])
    ∧ after (.responseDiscard 2) (host2 { resps := [resp none] }) (fun t => (t.hostOf 2).resps == [])
    ∧ idle (.responseDiscard 2) (host2 { resps := [{ resp none with ready := 1 }] })
    ∧ (let n := (State.logRefusal own .SYS_AUTH_DENIED 0 0 0)
       let m : State := ({ n with hosts := [(2, { sub := some 5 })], evt := { n.evt with notices := [(2, n.evt.ring)] } }).setF (Reg.LANE_STAT_STATE 2) 4
       n.evt.ring.length = 1
       ∧ after (.notice 2) m (fun t => t.evt.notices.get (fun _ => []) 2 == [] && t.evt.noticeSeq.get (fun _ => 0) 2 == 1
          && (t.egressOf 2).map (fun f => (f.prio, f.dst, f.words.length, f.words.head?)) == [(6, 5, 5, some 0x1601000000000000)])) := by
  unfold Accepts; decide +kernel

theorem test_ManagementSerialPort :
    let s := live.setF Reg.SYS_MODE_CUR 3
    let clean (t : State) (out : List W64) : Bool := !t.sp.err && t.sp.out == out && t.sp.status == 0xB2
    let one (t : State) (f : Fld) : Bool := t.getF f == 1 && t.sp.err
    idle .spShort (phase .straps) ∧ idle (.spStatus 8) (phase .straps) ∧ s.runs = true ∧ s.serviceRuns = true
    ∧ after (.spStatus 8) s (fun t => clean t []) ∧ after (.spStatus 16) s (fun t => clean t [])
    ∧ after (.spStatus 8) { s with sp := { err := true } } (fun t => t.sp.status == 0xB6 && !t.sp.err)
    ∧ after (.spStatus 17) s (fun t => one t Reg.SYS_SPSTAT_LONG) ∧ after (.spStatus 9) s (fun t => one t Reg.SYS_SPSTAT_SHORT)
    ∧ after .spShort s (fun t => one t Reg.SYS_SPSTAT_SHORT)
    ∧ after (.spIllegal 0 7) s (fun t => one t Reg.SYS_SPSTAT_SHORT && t.getF Reg.SYS_SPSTAT_ILLEGAL == 0)
    ∧ after (.spIllegal 1 9) s (fun t => one t Reg.SYS_SPSTAT_ILLEGAL && one t Reg.SYS_SPSTAT_LONG)
    ∧ after (.spRead (BitVec.ofNat 13 Reg.SYS_ERRCNT) 1 false false) (s.setReg Reg.SYS_ERRCNT 0x0005000000000000) (fun t => clean t [0x0005000000000000] && t.reg Reg.SYS_ERRCNT == 0)
    ∧ after (.spRead (BitVec.ofNat 13 Reg.SYS_ERRCNT) 0 true false) (s.setReg Reg.SYS_ERRCNT 0x0005000000000000) (fun t => t.reg Reg.SYS_SPLOST == 0x0005000000000000
        && t.getF Reg.SYS_SPSTAT_LOSTADDR == Reg.SYS_ERRCNT && one t Reg.SYS_SPSTAT_SHORT)
    ∧ after (.spReadNoinc (BitVec.ofNat 13 Reg.SYS_MODE) 2 false) s (fun t => clean t [s.reg Reg.SYS_MODE, s.reg Reg.SYS_MODE])
    ∧ after (.spSnapshot (BitVec.ofNat 13 Reg.SYS_MODE) false) s (fun t => clean t [s.reg Reg.SYS_MODE, s.reg Reg.SYS_MODE_SLOT])
    ∧ after (.spSnapshot 9 false) s (fun t => t.sp.out == [0] && one t Reg.SYS_SPSTAT_ILLEGAL)
    ∧ after (.spWrite (BitVec.ofNat 13 Reg.EVT_CFG) [3]) (s.setF Reg.SYS_AUTH_SP 0) (fun t => one t Reg.SYS_SPSTAT_REFUSED
        && logged t .SYS_AUTH_DENIED 0 (BitVec.ofNat 64 Reg.EVT_CFG) 4)
    ∧ after (.spWrite (BitVec.ofNat 13 Reg.EVT_CFG) [0x23]) s (fun t => clean t [] && t.reg Reg.EVT_CFG == 3)
    ∧ after (.spWriteNoinc (BitVec.ofNat 13 Reg.EVT_CFG) [1, 2]) s (fun t => clean t [] && t.reg Reg.EVT_CFG == 2) := by decide +kernel

theorem test_SensorSerialPorts :
    let d (k : Nat) (s : State) : State := s.setF (Reg.SSP_SEQ_V 1 k) 1
    let busy (x : SspSt) : State := { live.setF (Reg.SSP_STAT_BUSY 1) 1 with ssps := [(1, x)] }
    refused (.sspGo 2 1) live .SYS_AUTH_DENIED 1 (Reg.SSP_CTL 1) 2 ∧ refused (.sspStop 2 1) live .SYS_AUTH_DENIED 1 (Reg.SSP_CTL 1) 2
    ∧ refused (.sspPop 2 1) live .SYS_AUTH_DENIED 1 (Reg.SSP_CTL 1) 2
    ∧ idle (.sspGo 0 1) (live.setF Reg.SYS_MODE_CUR 7) ∧ idle (.sspStop 0 1) ((busy {}).setF Reg.SYS_MODE_CUR 7)
    ∧ idle (.sspPop 0 1) ((busy { ring := [(1, 2)] }).setF Reg.SYS_MODE_CUR 7)
    ∧ after (.sspGo 0 1) (busy {}) (fun t => t.getF (Reg.SSP_STAT_LATE 1) == 1 && logged t .SSP_LATE 1 0 0)
    ∧ after (.sspStop 0 1) (busy {}) (fun t => (t.ssp 1).stop) ∧ idle (.sspStop 0 1) live
    ∧ after (.sspGo 0 1) (d 0 live) (fun t => t.getF (Reg.SSP_STAT_BUSY 1) == 1 && (t.ssp 1).at_ == some 0)
    ∧ after (.sspPop 0 1) (busy { ring := [(1, 2), (3, 4)] }) (fun t => (t.ssp 1).ring == [(3, 4)] && t.getF (Reg.SSP_STAT_RXCNT 1) == 1)
    ∧ after (.sspTransactionComplete 1 0x123456789ABC) ((d 1 (busy { at_ := some 0 })).setF (Reg.SSP_SEQ_NB 1 0) 1) (fun t => (t.ssp 1).at_ == some 1
        && (t.ssp 1).ring == [(0x8000123400000000, 0)] && t.getF (Reg.SSP_STAT_BUSY 1) == 1)
    ∧ after (.sspTransactionComplete 1 0) (d 1 (busy { at_ := some 0, stop := true })) (fun t => (t.ssp 1).at_ == none
        && t.getF (Reg.SSP_STAT_BUSY 1) == 0 && t.getF (Reg.SSP_STAT_RUNS 1) == 0)
    ∧ after (.sspTransactionComplete 1 0) (busy { at_ := some 7, ring := List.replicate 64 (0, 0) }) (fun t => (t.ssp 1).ring.length == 64
        && t.getF (Reg.SSP_STAT_OVR 1) == 1 && logged t .SSP_OVR 1 0 0 && t.getF (Reg.SSP_STAT_RUNS 1) == 1) := by decide +kernel

/-! ### Paired operation -/

/-- Slot 100 of a hub of a pair whose link is lane 1 (UP, no partner identity known), in a mode and role. -/
def pair1 (cur role : Nat) (x : PairSt) : State :=
  let s := (((((atSlot 100).setF Reg.PAIR_CFG_EN 1).setF (Reg.LANE_CFG_ROLE 1) 2).setF (Reg.LANE_STAT_STATE 1) 4).setF Reg.SYS_MODE_CUR cur).setF
    Reg.PAIR_STAT_ROLE role
  { s with pair := x }

/-- The header of a pair frame of the partner, acting Leader, in slot 100. -/
def head1 (sub : Nat) (h : W64) : List W64 := [BitVec.ofNat 64 (0x18 * 2 ^ 56 + sub * 2 ^ 52 + 2 ^ 50), 100, 0, h]

/-- The words of the frames that wait at lane 1 from some word on. -/
def sent1 (t : State) (n : Nat) : List (List W64) := (t.egressOf 1).map (fun f => f.words.drop n)

theorem test_PairFrames :
    let lead := pair1 4 2 {}
    let bel := pair1 5 2 {}
    (pair1 4 2 {}).pairOn = true ∧ lead.pairLane = some 1 ∧ lead.evt.unmirrored = []
    ∧ after .pairStateSend { lead with pair := { reports := [(3, 9, 40)] } } (fun t => sent1 t 4 == [[0x0003000000000009, 40]] && t.pair.reports == [])
    ∧ idle .pairStateSend live
    ∧ lead.pairValid 1 1 (head1 1 0) = true ∧ (pairHdr (head1 1 0)).role = 1
    ∧ after (.pairState 1 (head1 1 0)) lead (fun t => t.pair.heardAt == some 100 && t.pair.equalFrom == some 100 && t.getF Reg.PAIR_STAT_PARTNER == 1)
    ∧ (let s : State := { bel with queues := [(0, { pkts := [{ pkt7 noSeq 0 2 with stream := 3 }] })] }
       after (.pairState 1 (head1 1 0 ++ [0x0003000000000009, 4])) s (fun t => (t.que 0).pkts.map (fun p => p.seq) == [9] && (t.strmSt 3).nextSeq == 10
        && t.pair.shadow == [(3, 9, 164)]))
    ∧ after (.pairState 1 [0x1810000000000000, 98, 0, 0]) { lead with pair := { equalFrom := some 7 } } (fun t => t.pair.equalFrom == none)
    ∧ lead.pairValid 1 2 (head1 2 0 ++ [5, 6]) = true
    ∧ after (.mirror 1 (head1 2 0 ++ [0x0000000200000008, 6])) lead (fun t => t.mir 2 8 == 6)
    ∧ after (.mirror 1 (head1 2 0 ++ [0x0000000600000001, 0])) bel (fun t => t.pair.rebuilt)
    ∧ after (.mirror 1 (head1 2 0 ++ [0x0000000500000003, 6])) { lead with pair := { mirror := [(mirrorKey 5 0, 0x0000770000000000), (mirrorKey 5 1, 8),
        (mirrorKey 5 2, 9)] } } (fun t => t.evt.ring.any (fun r => r.partner && r.code == 0x77 && r.slot == 8 && r.d2 == 9 && r.d3 == 6))
    ∧ (let s : State := { bel with queues := [(0, { pkts := [{ pkt7 9 0 2 with stream := 3 }] })], pair := { shadow := [(3, 9, 100)] } }
       after (.shadowPacketRelease 3) s (fun t => (t.que 0).pkts == [] && t.pair.shadow == []))
    ∧ after (.release 1 (head1 6 0)) (bel.setF Reg.PAIR_STAT_READY 1) (fun t => t.pair.released == some 100) := by decide +kernel

theorem test_PairFrames_startup :
    let s (desig start : Nat) : State := (({ pair1 1 0 { listening := some 0 } with mode := { (phase .running).mode with spans := [] } }.setF Reg.CFG_STATUS_LOADED
      1).setF Reg.PAIR_STAT_DESIG desig).setF Reg.SYS_MODE_START start
    let named (t : State) (m : Nat) : Bool := t.getF Reg.SYS_MODE_PENDV == 1 && t.getF Reg.SYS_MODE_PEND == m && t.pair.listening == none
    after (.pairStartupDecision false) (s 1 3) (fun t => named t 5)
    ∧ after (.pairStartupDecision true) (s 0 3) (fun t => named t 5 && t.evt.ring.any (fun r => r.code == Cond.PAIR_SPLIT_GUARD.code))
    ∧ after (.pairStartupDecision false) (s 0 3) (fun t => named t 3)
    ∧ after (.pairStartupDecision false) (s 0 1) (fun t => t.getF Reg.SYS_MODE_PENDV == 0) := by decide +kernel

theorem test_PairHandover :
    let s := (pair1 4 1 {}).setF Reg.PAIR_STAT_READY 1
    let r (c : Instr) (t : State) (k : Cond) := refused c t k 0 Reg.PAIR_CTL 4
    let asked (t : State) (h p w : Nat) : Bool := t.pair.asked == some (h, p, w, 100) && sent1 t 3 == [[BitVec.ofNat 64 h, BitVec.ofNat 64 w]]
    let pend (t : State) (h p : Nat) (out : Bool) (m : Nat) : Bool := t.pair.pend == some (h, p, out, 0) && t.getF Reg.PAIR_STAT_HPEND == 1
      && t.getF Reg.SYS_MODE_PEND == m && t.mode.pendAt == some (h + 512)
    let open_ (x : PairSt) (cause : Nat) : State := { s with pair := x, mode := { s.mode with pendCause := cause } }.setF Reg.SYS_MODE_PENDV (if cause = 4 then 1 else 0)
    refused (.pairSwitch 0) s .SYS_AUTH_DENIED 0 Reg.PAIR_CTL 0 ∧ refused (.clearpf 0) s .SYS_AUTH_DENIED 0 Reg.PAIR_CTL 0
    ∧ r (.pairSwitch 4) (pair1 5 1 {}) .PAIR_ROLE_STATE ∧ r (.pairSwitch 4) (pair1 4 1 {}) .PAIR_NOT_READY
    ∧ r (.pairSwitch 4) (s.setF Reg.SYS_MODE_PENDV 1) .PAIR_BUSY ∧ r (.pairSwitch 4) (s.setCopy 4 Reg.PAIR_AT 355) .PAIR_LATE
    ∧ after (.pairSwitch 4) s (fun t => asked t 8192 4 0) ∧ after (.pairSwitch 4) (s.setCopy 4 Reg.PAIR_AT 356) (fun t => asked t 356 4 0)
    ∧ r (.pairProofStart 4) (s.setF Reg.PAIR_STAT_DESIG 1) .PAIR_ROLE_STATE ∧ after (.pairProofStart 4) s (fun t => asked t 8192 4 2)
    ∧ r (.pairCancel 4) (open_ { pend := some (115, 4, true, 0) } 4) .PAIR_LATE
    ∧ after (.pairCancel 4) (open_ { pend := some (116, 4, true, 0) } 4) (fun t => t.pair.pend == none && t.getF Reg.SYS_MODE_PENDV == 0)
    ∧ after (.clearpf 4) { s.setF Reg.PAIR_STAT_CONTEND 1 with pair := { proofFail := true } } (fun t => t.getF Reg.PAIR_STAT_CONTEND == 0
        && !t.pair.proofFail)
    ∧ after (.propose 1 (head1 3 400 ++ [0])) ((pair1 5 2 {}).setF Reg.PAIR_STAT_READY 1) (fun t => pend t 400 7 false 3)
    ∧ after (.propose 1 (head1 3 400 ++ [0])) (pair1 5 2 {}) (fun t => sent1 t 3 == [[400]] && t.pair.pend == none)
    ∧ after (.accept 1 (head1 4 400)) (open_ { asked := some (400, 4, 0, 92) } 0) (fun t => pend t 400 4 true 5)
    ∧ after (.refuse 1 (head1 5 400)) (open_ { asked := some (400, 4, 0, 92) } 0) (fun t => t.pair.asked == none && logged t .PAIR_HANDOVER_REFUSED 0 400 0)
    ∧ after (.refuse 1 (head1 5 400)) (open_ { pend := some (400, 4, true, 0) } 4) (fun t => t.pair.pend == none && t.getF Reg.PAIR_STAT_HPEND == 0)
    ∧ after .pairHandoverRefused (open_ { asked := some (400, 4, 0, 91) } 0) (fun t => t.pair.asked == none)
    ∧ idle .pairHandoverRefused (open_ { asked := some (400, 4, 0, 92) } 0)
    ∧ after .pairTakeback (({ s with clk := { s.clk with slot := 250000 }, pair := { readyFrom := some 0 } }.setF Reg.PAIR_STAT_DESIG 1).setF
        Reg.PAIR_CFG_TAKEBACK 1) (fun t => t.pair.asked == some (253952, 7, 1, 250000))
    ∧ (let p (up : Nat) (x : PairSt) : State := { s with clk := { s.clk with uptime := 12800 * up }, pair := x }.setF Reg.PAIR_PROOF_PERIOD 60
       after .proofExchange (p (54 * 10 ^ 9) { countFrom := some 0 }) (fun t => asked t 8192 7 2)
       ∧ after .proofExchange ((p (54 * 10 ^ 9) { countFrom := some 0 }).setF Reg.PAIR_STAT_READY 0) (fun t => t.pair.countFrom == some (9 * 10 ^ 8)))
    ∧ after .proofHandback ({ s with pair := { tenure := some 100 } }.setF Reg.PAIR_STAT_PROOF 1) (fun t => t.getF Reg.PAIR_STAT_PROOF == 0
        && t.pair.tenure == none)
    ∧ (s.setF Reg.PAIR_STAT_PARTNER 1).getF Reg.PAIR_STAT_PARTNER = 1
    ∧ (let d := s.setF Reg.SYS_MODE_CUR 7
       idle (.pairSwitch 4) d ∧ idle (.pairCancel 4) d ∧ idle (.pairProofStart 4) d ∧ idle (.clearpf 4) d)
    ∧ s.pairValid 1 3 [0, 0, 0, 0] = false ∧ idle (.propose 1 [0, 0, 0, 0]) s ∧ idle (.accept 1 (head1 4 400)) s ∧ idle (.refuse 1 [0, 0, 0, 0]) s
    ∧ idle .pairHandoverRefused s ∧ idle .pairTakeback s ∧ idle .proofExchange s ∧ idle .proofHandback s
    ∧ after (.accept 1 (head1 4 400)) ((open_ { asked := some (400, 4, 0, 92) } 0).setF Reg.SYS_MODE_PENDV 1) (fun t => t.pair.asked == none
        && logged t .PAIR_HANDOVER_REFUSED 0 400 0) := by decide +kernel

theorem test_PairDrives :
    let pend (out : Bool) (h : Nat) : State := (pair1 5 2 { pend := some (h, 4, out, 0) })
    let w (f : Fld) (n : Nat) : List (Nat × W64) := [(mirrorKey 2 f.addr, setBits 0 f.hi f.lo n)]
    (pend true 100).handoverC 2 100 = 200
    ∧ after (.driveRemoval 2) { pend true 100 with chans := [(32, { drive := .on, level := 5 })] } (fun t => (t.ch 32).drive == .off && (t.ch 32).level == 0
        && t.pair.handed.get (fun _ => 0) 2 == 201 && (t.bk 2).hand.head? == some (100, some 163))
    ∧ after (.driveRemoval 2) (pend false 100) (fun t => t.pair.windowEnd.get (fun _ => 0) 2 == 164)
    ∧ idle (.driveRemoval 2) (pend true 101) ∧ (pend true 100).handoverWaits = false ∧ idle (.driveRemoval 2) (pair1 5 2 {})
    ∧ (let v : State := { (pend true 100).setF (Reg.FLT_BSTAT_PENDV 5) 1 with coefs := [(5, { swapAt := some 100 })] }
       v.handoverWaits = true ∧ idle (.driveRemoval 2) v ∧ idle (.handoverRampStart 2) v)
    ∧ after (.handoverRampStart 2) (pair1 4 1 { tookAt := some 100 }) (fun t => t.pair.ramps.get (fun _ => 0) 2 == 101 && (t.bk 2).factor == 1048576)
    ∧ (pair1 4 1 {}).leaderLost = false ∧ idle (.leaderLost false) (pair1 4 1 {})
    ∧ (let e (m : Sparse W64) : State := { (pend false 98).setF (Reg.BANK_CFG_EXMODE 2) 1 with
         pair := { (pend false 98).pair with mirror := m } }
       (e []).exMode 2 = 1
       ∧ after (.handoverRampStart 2) (e (w (Reg.CH_EXCFG_EXEN 33) 1)) (fun t => (t.ch 33).drive == .rampUp && (t.ch 33).due == 104
          && (t.ch 32).drive == .off && t.pair.ramps.get (fun _ => 0) 2 == 101)
       ∧ after (.handoverRampStart 2) (e (w (Reg.CH_EXCFG_EXEN 33) 1 ++ w (Reg.CH_STATUS_EX_LATCH 33) 1)) (fun t => (t.ch 33).drive == .latched))
    ∧ after (.handoverRampFull 2) { pair1 4 1 { ramps := [(2, 97)] } with chans := [(33, { drive := .rampUp, due := 100, target := 9 })] } (fun t =>
        (t.ch 33).drive == .on && (t.ch 33).level == 9)
    ∧ after (.handoverWindowEnd 2) (pair1 4 1 { windowEnd := [(2, 100)] }) (fun t => t.pair.windowEnd == [])
    ∧ after (.leaderLost true) (pair1 5 2 { released := some 97 }) (fun t => t.getF Reg.PAIR_STAT_GUARD == 1 && t.cur == 5)
    ∧ (pair1 5 2 { released := some 97 }).mirroredMode = 3 := by decide +kernel

set_option maxRecDepth 100000 in
theorem test_PairDrives_contention :
    let s : State := { pair1 4 1 { tookAt := some 90 } with chans := [(32, { drive := .on, limRun := 4 }), (33, { drive := .on, limRun := 3 })] }
    after (.pairContention 2) s (fun t => (t.ch 32).drive == .off && t.getF Reg.PAIR_STAT_CONTEND == 1 && t.getF Reg.SYS_MODE_PEND == 5
      && t.mode.pendAt == some 101) := by decide +kernel

/-! ### Calibration -/

/-- Slot 5,000 of a hub in Ascent with a calibration of bank 2. -/
def cal2 (k : CalSt) : State := { atSlot 5000 with cals := [(2, k)] }

/-- What bank 2 stores, for a flash set with sequence 6. -/
def group2 : CalBank := { bank := 2, halves := [], scales := [], slices := [], ratios := [], vref := 0, tcal := 0 }
def image6 : CalImage := { banks := [], fast := [], vint := 0, extref := 0, accSlot := 0, acc := false, seq := 6, groups := [] }
/-- A hub with a set in flash bank 0 and a result of bank 2 that waits. -/
def flash0 : State := { live with calh := { flash := [(0, some image6)], waiting := [group2] } }

theorem test_CalibrationRequestsAndStorage :
    let t (b x : Nat) : BitVec 384 := BitVec.ofNat 384 (x * 2 ^ (16 * b))
    let r := (cal2 {}).setF Reg.CAL_CFG_EN 1 |>.setF Reg.CAL_CFG_TDELTA 20
    r.rolling = true ∧ live.rolling = false
    ∧ after (.temperatureEvaluation (t 2 33)) r (fun u => u.getF (Reg.BANK_TEMP_T 2) == 33 && u.calDue 2 && !u.calDue 3)
    ∧ after (.temperatureEvaluation (t 2 32)) r (fun u => u.getF (Reg.BANK_TEMP_T 2) == 32 && !u.calDue 2)
    ∧ after (.temperatureEvaluation (t 2 33)) live (fun u => u.getF (Reg.BANK_TEMP_T 2) == 33 && !u.calDue 2)
    ∧ refused (.calBanksDue 2 4) live .SYS_AUTH_DENIED 0 Reg.CAL_CTL 2
    ∧ after (.calBanksDue 0 12) ((live.setF Reg.CAL_STAT_DUE 1).setF Reg.CAL_STAT_ACTIVE 8) (fun u => u.getF Reg.CAL_STAT_DUE == 5 && (u.cal 3).again
        && !(u.cal 2).again)
    ∧ idle (.calBanksDue 4 4) (live.setF Reg.SYS_MODE_CUR 7) ∧ idle (.calAbort 4) (live.setF Reg.SYS_MODE_CUR 7) ∧ idle (.calGroupWrite 0) live
    ∧ refused (.calAbort 0) live .SYS_AUTH_DENIED 0 Reg.CAL_CTL 0
    ∧ after (.calAbort 4) { live with cals := [(2, { stage := 2 })] } (fun u => u.cals == [(2, { stage := 2, abandon := true })])
    ∧ after (.calGroupWrite 1) flash0 (fun u => u.calh.waiting == [] && u.calFlash 0 == some { image6 with groups := [group2] }
        && u.getF Reg.CAL_SET_SEQ == 7 && u.getF Reg.CAL_SET_SRC == 2)
    ∧ after (.calGroupWrite 2) flash0 (fun u => u.calh.waiting == [] && u.calFlash 0 == some image6 && logged u .CAL_STORE_FAIL 2 0 0)
    ∧ after (.calCompaction 0) (flash0.setF Reg.CAL_SET_SEQ 6) (fun u => u.calh.waiting == [] && u.getF Reg.CAL_SET_FBANK == 1
        && (u.calFlash 1).map (fun m => (m.seq, m.acc, m.groups.length, m.banks.length)) == some (7, false, 0, 24))
    ∧ after (.calCompaction 2) flash0 (fun u => u.calFlash 1 == none && u.getF Reg.CAL_SET_FBANK == 0 && logged u .CAL_STORE_FAIL 0 0 0) := by
  decide +kernel

theorem test_CalibrationPasses :
    let pairs : List (Int × Int) := List.replicate 32 (9, 9)
    let far : List (Int × Int) := List.replicate 32 (40000, 9)
    let ch (k : CalSt) : State := cal2 { k with stage := 2, chans := [1, 4] }
    idle (.calPassStart 2) (cal2 {})
    ∧ (let s := (((cal2 {}).setF Reg.CAL_STAT_DUE 4).setF Reg.CAL_CFG_CONC 1).setF (Reg.BANK_TEMP_T 2) 77
       s.passMayStart 2 = true ∧ s.effFlag (Reg.BANK_SPARE_CONN 2) = false
       ∧ after (.calPassStart 2) (s.setF (Reg.CH_CFG_EN 33) 1) (fun t => t.calActive 2 && !t.calDue 2 && t.getF (Reg.BANK_TEMP_TCAL 2) == 77
          && (t.cal 2).chans == [1] && (t.cal 2).ranges == [0] && (t.cal 2).stage == 1 && (t.bk 2).node && logged t .CAL_PASS_START 2 5000 0))
    ∧ after (.calSparePhaseEnd 2) (cal2 { stage := 1, ranges := [0, 2], t0 := 4712 }) (fun t => t.cal 2 == { stage := 1, ranges := [2], t0 := 5000 })
    ∧ idle (.calSparePhaseEnd 2) (cal2 { stage := 1, ranges := [0, 2], t0 := 4713 })
    ∧ after (.calChannelStart 2) (ch { t0 := 5000 }) (fun t => (t.cal 2).step == 0 && t.getF (Reg.BANK_SPARE_POS 2) == 1
        && t.getF (Reg.BANK_SPARE_CONN 2) == 1 && t.getF (Reg.BANK_CAL_STATE 2) == 2)
    ∧ after (.firstOverlapEnd 2) (ch { step := 0, t0 := 4904, overlap := pairs }) (fun t => (t.cal 2).step == 1
        && (t.bk 2).subs == [{ pos := 1, first := 5000, last := some 9159, an := 1, ad := 1, bn := 0, bd := 32 }])
    ∧ after (.firstOverlapEnd 2) (ch { step := 0, t0 := 4904 }) (fun t => (t.cal 2).ext == 1 && (t.cal 2).t0 == 4968 && logged t .CAL_EXTEND 33 5000 0)
    ∧ after (.firstOverlapEnd 2) (ch { step := 0, t0 := 4904, ext := 4 }) (fun t => (t.cal 2).chans == [4] && (t.cal 2).step == 3 && (t.cal 2).t0 == 9160
        && t.getF Reg.CAL_CNT_SKIPS == 1)
    ∧ ((ch { step := 1, t0 := 1320, interval := 6 }).cal 2).t0 + 96 + 512 * 7 ≤ (ch {}).now
    ∧ after (.calIntervalEnd 2) (ch { step := 1, t0 := 0, interval := 5 }) (fun t => (t.cal 2).interval == 6)
    ∧ after (.calIntervalEnd 2) (ch { step := 1, t0 := 808, interval := 7 }) (fun t => (t.cal 2).step == 2)
    ∧ after (.secondOverlapEnd 2) (ch { step := 2, t0 := 744, refused := true }) (fun t => (t.cal 2).chans == [4] && (t.cal 2).done == [])
    ∧ after (.secondOverlapEnd 2) (ch { step := 2, t0 := 744, overlap := pairs }) (fun t => (t.cal 2).done == [1] && (t.cal 2).chans == [4])
    ∧ after (.secondOverlapEnd 2) (ch { step := 2, t0 := 744, overlap := far }) (fun t => (t.cal 2).done == [] && (t.cal 2).failed == 1
        && t.getF Reg.CAL_CNT_REFUSED == 1 && logged t .CAL_OUTLIER 33 39991 0)
    ∧ after (.calPassEnd 2) ((cal2 { stage := 2, t0 := 5000, again := true }).setF Reg.CAL_STAT_ACTIVE 4) (fun t => !t.calActive 2 && t.calDue 2
        && t.reg (Reg.BANK_CALSLOT 2) == 5000 && (t.cal 2).stage == 0 && t.calh.waiting.map (fun g => g.bank) == [2] && t.getF Reg.CAL_CNT_PASSES == 1)
    ∧ after (.calAbandon 2) ((ch { step := 1, abandon := true }).setF Reg.CAL_STAT_ACTIVE 4) (fun t => t.calDue 2 && !t.calActive 2
        && (t.cal 2).subEnd == some 5512 && logged t .CAL_ABANDON 2 5000 33)
    ∧ after (.substitutionEnd 2) ((cal2 { subEnd := some 5000 }).setF (Reg.BANK_SPARE_CONN 2) 1) (fun t => (t.cal 2).subEnd == none
        && t.getF (Reg.BANK_SPARE_CONN 2) == 0)
    ∧ (let s := (((cal2 {}).setF Reg.SYS_MODE_CUR 2).setF Reg.SYS_MODE_PRIOR 3).setF Reg.CAL_STAT_ACC_STEP 5
       after .calAccDone s (fun t => t.reg Reg.CAL_ACCSLOT == 5000 && t.calh.compact && t.getF Reg.SYS_MODE_PEND == 3 && t.mode.pendAt == some 5001)) := by
  decide +kernel

/-! ### Firmware update -/

/-- The next response of lane 2 refuses with that condition for an OP. -/
def denies (t : State) (c : Cond) (op : Nat) : Bool := answers t 2 [] && logged t c 0 (BitVec.ofNat 64 op) 2

/-- An owner on lane 2 and a staging area for image 7 of 2 pieces in a state. -/
def stage7 (st : Nat) (x : UpdSt) : State :=
  { ((own.setF Reg.UPD_STAGE_IMAGE 7).setF Reg.UPD_STAGE_NPIECES 2).setF Reg.UPD_STAT_STAGE st with upd := x }

/-- A staging area of one piece with a header alone: LEN 512, every part, VERSION 5. -/
def header1 : Sparse W64 := [(0, 0x534B564900010000), (1, 0x0000000700000005), (2, 0x00000200FFFFFFFF)]

/-- A header-only image 7, VERSION 5, LEN 512 for parts 0 and 1, whose key Config.keyDigest names and whose signature that key made. -/
def signed7 : Sparse W64 :=
  [(0, 0x534B564900010000), (1, 0x700000005), (2, 0x20000000003), (3, 0x1000000000000), (8, 0x4AA87CA22BE8B05),
   (9, 0x378EB1C71EF320AD), (10, 0x746E1D3B628BA79B), (11, 0x9859F741E082542A), (12, 0x385502F25DBF5529),
   (13, 0x6C3A545E3872760A), (14, 0xB73617DE4A96262C), (15, 0x6F5D9E98BF9292DC), (16, 0x29F8F41DBD289A14),
   (17, 0x7CE9DA3113B5F0B8), (18, 0xC00A60B1CE1D7E81), (19, 0x9D7A431D7C90EA0E), (20, 0x5F00000000000000),
   (21, 0x8D999057BA3D2D9), (22, 0x69260045C55B97F0), (23, 0x89025959A6F434D6), (24, 0x51D207D19FB96E9E),
   (25, 0x4FE0E86EBE0E64F8), (26, 0x5B96A9C75295DF61), (27, 0x7E2AD57EE3F43DB2), (28, 0x151236AC9E2B62FB),
   (29, 0x8BD0881903EDCA69), (30, 0x5095835ABC0C7D3), (31, 0xEA059D96EA10C073), (32, 0x6AFC3EE1635B38BF)]

/-- A hub held in reset. -/
def held : State := { own with mode := { own.mode with phase := .held } }

/-- An owner's hub in Descent. -/
def descent : State := own.setF Reg.SYS_MODE_CUR 7

/-- Three parts of piece 1, empty but for their CRC. -/
def three (crc : Nat) : UpdSt := { asm := [{ index := 1, parts := [0, 1, 2].map (fun k => { part := k, crc := crc, words := [] }) }] }

theorem test_UpdateStaging_begin :
    let b (w1 : W64) (s : State) (p : State → Bool) : Bool := after (.updBegin 2 hdr w1) s p
    let s := stage7 1 { asm := [{ index := 0, parts := [] }], bmap := [(0, 1)] }
    Accepts s 2 hdr 0x30 [0x0000000700000002] 2 false
    ∧ b 0x0000000700000000 s (fun t => denies t .SYS_FIELD_RANGE 0x30) ∧ b 0x00000007000017F1 s (fun t => denies t .SYS_FIELD_RANGE 0x30)
    ∧ b 0x0000000700000002 s (fun t => answers t 0 [] && t.upd == s.upd)
    ∧ b 0x0000000800000002 (s.setF Reg.UPD_STAT_COPYING 1) (fun t => denies t .UPD_BUSY 0x30)
    ∧ b 0x00000008000017F0 s (fun t => answers t 0 [] && t.upd == {} && t.stageSt == 1 && t.getF Reg.UPD_STAGE_IMAGE == 8 && t.getF Reg.UPD_STAGE_NPIECES == 6128) := by
  unfold Accepts; decide +kernel

theorem test_UpdateStaging_parts :
    let z : List W64 := List.replicate 128 0
    let p (w1 : W64) (data : List W64) (s : State) (q : State → Bool) : Bool := after (.updPiece 2 hdr w1 0x0000000012345678 data) s q
    let full : List UpdAsm := (List.range 16).map (fun i => { index := i + 2, parts := [] })
    let part : UpdPart := { part := 3, crc := 0x12345678, words := z }
    Accepts (stage7 1 {}) 2 hdr 0x31 (0x0000000730000001 :: 0x12345678 :: z) 2 false
    ∧ p 0x0000000730000001 [1] (stage7 1 {}) (fun t => answers t 3 [])
    ∧ p 0x0000000730000001 z (stage7 2 {}) (fun t => denies t .UPD_BUSY 0x31) ∧ p 0x0000000830000001 z (stage7 1 {}) (fun t => denies t .UPD_PIECE_IMAGE 0x31)
    ∧ p 0x0000000730000002 z (stage7 1 {}) (fun t => denies t .UPD_PIECE_INDEX 0x31)
    ∧ p 0x0000000730000001 z (stage7 1 {}) (fun t => t.upd == { asm := [{ index := 1, parts := [part] }] } && t.getF Reg.UPD_CNT_PARTS == 1)
    ∧ p 0x0000000730000001 z (stage7 1 { asm := full }) (fun t => t.upd.asm == full.drop 1 ++ [{ index := 1, parts := [part] }] && t.getF Reg.UPD_CNT_EVICT == 1)
    ∧ p 0x0000000730000001 z (stage7 1 (three 5)) (fun t => t.upd == {} && t.getF Reg.UPD_CNT_CRCFAIL == 1) := by
  unfold Accepts; decide +kernel

set_option maxRecDepth 100000 in
theorem test_UpdateStaging_whole :
    let z : List W64 := List.replicate 128 0
    let c : Nat := 4004437628
    let p (s : State) (q : State → Bool) : Bool := after (.updPiece 2 hdr 0x0000000730000001 (BitVec.ofNat 64 c) z) s q
    p (stage7 1 (three c)) (fun t => t.upd == { ready := [(1, z)] }) := by decide +kernel

theorem test_UpdateStaging_rest :
    let s := stage7 1 { ready := [(65, [7, 8])] }
    let v : State := (stage7 2 { stage := header1 }).setF Reg.UPD_STAGE_NPIECES 1 |>.setF Reg.UPD_STAT_STORED 1
    Accepts s 2 hdr 0x32 [] 0 false ∧ after (.updStatus 2 hdr) (stage7 1 { bmap := [(1, 9)] }) (fun t =>
        (t.hostOf 2).resps.map (fun r => (r.words.length, r.words.getD 5 0)) == [(100, 9)])
    ∧ after (.pieceStore 1) s (fun t => t.stageWord (512 * 65) == 7 && t.stageWord (512 * 65 + 1) == 8 && t.upd.bmap == [(1, 2)] && t.upd.ready == []
        && t.getF Reg.UPD_STAT_STORED == 1 && t.stageSt == 1)
    ∧ after (.pieceStore 0) (s.setF Reg.UPD_STAT_STORED 1) (fun t => t.stageSt == 2)
    ∧ after (.pieceStore 2) s (fun t => t.upd == {} && logged t .UPD_FLASH_FAIL 0 65 0)
    ∧ after (.pieceStore 0) (stage7 1 { ready := [(65, [7])], bmap := [(1, 2)] }) (fun t => t.getF Reg.UPD_CNT_DUPS == 1 && t.upd.ready == [])
    ∧ after .verificationComplete v (fun t => t.stageSt == 4 && logged t .UPD_KEY 0 0 0)
    ∧ (v.setF Reg.UPD_STAT_STORED 0).verifyTests = some .UPD_INCOMPLETE
    ∧ after .verificationComplete s (· == s)
    ∧ after (.bmapDataRead 2) (s.setCopy 2 Reg.UPD_BMAP_PTR 95) (fun t => t.copy 2 Reg.UPD_BMAP_PTR == 0)
    ∧ after (.bmapDataRead 2) (held.setCopy 2 Reg.UPD_BMAP_PTR 95) (· == held.setCopy 2 Reg.UPD_BMAP_PTR 95) := by
  unfold Accepts; decide +kernel

theorem test_UpdateStaging_verified :
    let v : State := ((stage7 2 { stage := signed7 }).setF Reg.UPD_STAGE_NPIECES 1).setF Reg.UPD_STAT_STORED 1
    v.cur ≠ 0 ∧ after .verificationComplete v (fun t => t.stageSt == 3 && t.reg Reg.UPD_SVER == 5) := by decide +kernel

theorem test_UpdateStaging_unsigned :
    imageSigned (State.stagedImage (stage7 2 { stage := signed7.set (fun _ => 0) 4 1 })) = false := by decide +kernel

theorem test_UpdateInstallation :
    let s := stage7 3 { stage := header1 }
    let copy (b : Nat) : State := (s.setF Reg.UPD_STAT_COPYING 1).setF Reg.UPD_STAT_BLOCKS b
    let maint := s.setF Reg.SYS_AUTH_L2 3
    Accepts s 2 hdr 0x33 [] 2 false ∧ Accepts s 2 hdr 0x34 [] 2 false
    ∧ after (.updVerify 2 hdr) (stage7 2 {}) (fun t => denies t .UPD_BUSY 0x33)
    ∧ after (.updVerify 2 hdr) (stage7 1 {}) (fun t => answers t 0 [] && t.stageSt == 2)
    ∧ after (.updVerify 2 hdr) (stage7 4 {}) (fun t => answers t 0 [] && t.stageSt == 4)
    ∧ after (.updInstall 2 hdr) (stage7 1 {}) (fun t => denies t .UPD_NOT_VERIFIED 0x34)
    ∧ after (.updInstall 2 hdr) (s.setF Reg.UPD_STAT_TPEND 1) (fun t => denies t .UPD_BUSY 0x34)
    ∧ after (.updInstall 2 hdr) (s.setF Reg.UPD_VER_RUN 6) (fun t => denies t .UPD_OLDER 0x34)
    ∧ after (.updInstall 2 hdr) (maint.setF Reg.UPD_VER_RUN 6) (fun t => answers t 0 [] && t.copying
        && t.upd.journal.head? == some { kind := .copyBegin, block := 0, image := 7, version := 5 })
    ∧ after (.copyBlock 0) s (· == s)
    ∧ after (.copyBlock 3) (copy 0) (fun t => !t.copying && t.upd == s.upd && logged t .UPD_COPY_FAIL 0 0 0)
    ∧ after (.updRecover 2) descent (· == descent)
    ∧ refused (.updRecover 2) s .SYS_AUTH_DENIED 0 Reg.UPD_CTL 2
    ∧ after (.updRecover 2) maint (fun t => t.mode.phase == .held && t.upd.recover && t.upd.stage == header1) := by
  unfold Accepts; decide +kernel

set_option maxRecDepth 100000 in
theorem test_UpdateInstallation_copy :
    let s := (stage7 3 { stage := header1 }).setF Reg.UPD_STAT_COPYING 1
    after (.copyBlock 0) s (fun t => !t.copying && t.runWord 1 == 0x0000000700000005 && t.getF Reg.UPD_VER_RUN == 5
      && t.upd.journal.head? == some { kind := .copyEnd, block := 0, image := 7, version := 5 }) := by decide +kernel

/-- A store with a system parameter block alone: EPOCH 9 and the sizes in force. -/
def store9 : CfgStore :=
  { words := [(0, 0x0100000003000000), (1, 0x0000000900000000), (2, 0x0300000100000000), (3, 0x00100060000C0000), (4, 0xD4A5997D)], len := 5, seq := some 4 }

/-- Store 1 holds a base with a later epoch and nothing else; the hub, in Ascent, runs from store 0. -/
def base1 (x : UpdSt) : State :=
  let s := (own.setF Reg.SYS_MODE_CUR 3).setF Reg.UPD_STAT_TPEND (b2n x.act.isSome)
  { s with upd := x, cfg := { s.cfg with stores := [(1, { store9 with crc := store9.imageCrc })] } }

theorem test_UpdateInstallation_activation :
    let t6 (a : Nat) : State := ((base1 { act := some (a, 2), loading := true }).setF Reg.SYS_MODE_PENDV 1).setF Reg.SYS_MODE_PEND 6
    Accepts (base1 {}) 2 hdr 0x35 [0] 2 false ∧ Accepts (t6 16) 2 hdr 0x36 [] 2 false
    ∧ after .traverseEnd own (· == own) ∧ after (.shadowLoadComplete none) own (· == own)
    ∧ after (.updActivate 2 hdr 0) own (fun t => denies t .UPD_TRAV_MODE 0x35)
    ∧ after (.updActivate 2 hdr 0) (t6 16) (fun t => denies t .UPD_BUSY 0x35)
    ∧ (base1 {}).activationTest 0 = none
    ∧ after (.updActivate 2 hdr 0) (base1 {}) (fun t => answers t 0 [65536] && t.upd.act == some (65536, 2) && t.upd.loading && t.getF Reg.UPD_STAT_TPEND == 1
        && t.getF Reg.SYS_MODE_PEND == 6 && t.mode.pendAt == some 65536 && t.reg Reg.UPD_TSLOT == 65536)
    ∧ after (.updCancel 2 hdr) (t6 15) (fun t => denies t .UPD_LATE_CANCEL 0x36)
    ∧ after (.updCancel 2 hdr) (t6 16) (fun t => answers t 0 [] && t.upd.act == none && t.getF Reg.UPD_STAT_TPEND == 0 && t.getF Reg.SYS_MODE_PENDV == 0)
    ∧ after (.shadowLoadComplete (some 3)) (t6 16) (fun t => t.upd.act == none && t.getF Reg.SYS_MODE_PENDV == 0 && t.evt.ring.any (fun r => r.code == Cond.UPD_TRAV_LOAD.code && r.unit == 3))
    ∧ (t6 16).activeEngines = []
    ∧ after (.shadowLoadComplete none) (t6 16) (fun t => t.getF Reg.UPD_STAT_SHADOW == 1 && !t.upd.loading && t.upd.act == some (16, 2)) := by
  unfold Accepts; decide +kernel

set_option maxRecDepth 100000 in
theorem test_UpdateInstallation_traverse :
    let s := ((base1 { act := some (84, 2) }).setF Reg.SYS_MODE_CUR 6).setF Reg.SYS_MODE_PRIOR 3
    let n : State := { s with clk := { s.clk with slot := 100 } }
    n.overlayDue = false ∧ (n.storeOf n.otherStore).records = [] ∧ n.getF Reg.CFG_STATUS_OVL_ACT = 15 ∧ n.overlayDef 15 = none := by decide +kernel

/-! ### Faults and the event log -/

/-- Slot 500 of a set time base, with what bank 2 holds and, where asked, a stage fault of its channel 33. -/
def bank2 (x : BankSt) (fault : Bool) : State :=
  { timed 500 with banks := [(2, x)], cals := [(2, { rangeTwice := if fault then 2 else 0 })] }

theorem test_ChannelFaults :
    let s := bank2 {} true
    s.down = false ∧ s.stageFault 33 = true ∧ s.stageFault 34 = false ∧ idle (.chStageFault 34) s
    ∧ idle (.chStageFault 33) (bank2 { holder := some 1 } true)
    ∧ s.spareSlots 33 = (502, 501 + settleSlots 0)
    ∧ after (.chStageFault 33) s (fun t => logged t .CAL_SUSPENDED 2 0 0 && (t.bk 2).holder == some 1 && (t.cal 2).suspended
        && (t.bk 2).subs == [{ pos := 1, first := 502, last := none }] && t.reg (Reg.BANK_SPARE_CAL 2).addr != 0 && t.getF (Reg.BANK_SPARE_POS 2) == 1)
    ∧ after (.chStageFault 33) (bank2 { holder := some 7 } true) (fun t => (t.bk 2).escal == some 1 && (t.bk 2).holder == some 7
        && logged t .CH_STAGE_FAULT 33 502 (BitVec.ofNat 64 (501 + settleSlots 0)))
    ∧ after (.chStageFault 33) (s.setF Reg.SYS_MODE_CUR 7) (fun t => t.banks == s.banks && logged t .CH_STAGE_FAULT 33 502 (BitVec.ofNat 64 (501 + settleSlots 0))) := by
  decide +kernel

theorem test_BankFaults :
    let s := bank2 {} false
    let three := bank2 { faults := [400, 300] } false
    let d := { s with chans := [(32, { drive := .on, level := 5 }), (48, { drive := .on, level := 6 })] }
    after (.bankFault 2 .conv) (s.setF Reg.SYS_MODE_CUR 7) (fun t => logged t .BANK_CONV_FAULT 2 501 0)
    ∧ after (.bankFault 2 .pipe) d (fun t => (t.bk 2).gaps == [(501, none)] && (t.ch 32).drive == .off && (t.ch 48).level == 6 && t.cur == 3)
    ∧ after (.bankFault 2 .supv) d (fun t => (t.bk 2).gaps == [(501, none)] && (t.ch 32).level == 0)
    ∧ after (.bankFault 2 .escalated) (bank2 { escal := some 1 } false) (fun t => (t.ch 33).lost == some 501 && (t.bk 2).gaps == []
        && logged t .CH_LOST 33 501 0)
    ∧ idle (.bankFault 2 .escalated) s
    ∧ after (.bankFault 2 .dds) three (fun t => t.mode.pendAt == some 501 && t.getF Reg.SYS_MODE_PEND == 7 && t.cur == 3
        && logged t .HUB_ESCALATED 0 (BitVec.ofNat 64 Cond.BANK_DDS_FAULT.code) 2)
    ∧ after (.bankRestart 2) (bank2 { gaps := [(499, none)], restartOf := Cond.BANK_DDS_FAULT.code } false) (fun t => (t.bk 2).gaps == [(499, some 499)]
        && logged t .BANK_DDS_FAULT 2 499 499)
    ∧ idle (.bankRestart 2) (bank2 { gaps := [(500, none)] } false) := by decide +kernel

theorem test_MemoryFaults :
    let s := timed 500
    let r : LedRec := { stream := 0, chan := 0, first := 0, count := 1, stride := 1, ratio := 1, words := [1], orig := [], pos := 120, bad := false }
    let many := { s with ladder := { s.ladder with bursts := [(1, List.replicate 64 500)] } }
    let falls (t : State) : Bool := t.getF Reg.SYS_MODE_PENDV == 1 && t.getF Reg.SYS_MODE_PEND == 7 && t.mode.pendAt == some 501 && t.cur == 3
    after (.dramEccError 1 .bulk 130) s (fun t => t.poison == [16, 17, 18, 19, 20, 21, 22, 23] && t.getF (Reg.DBG_DRAM_UNCORR 1) == 1)
    ∧ after (.dramEccError 1 .sram 130) s (fun t => t.sramBad == [16] && t.evt == s.evt) ∧ s.unset = false ∧ s.runs = true
    ∧ after (.dramEccError 0 .capture 130) s (fun t => t.cap.bad == [130])
    ∧ after (.dramEccError 0 .ledger 64) { s with led := { s.led with ring := [r] } } (fun t => t.led.ring == [{ r with bad := true }])
    ∧ after (.dramEccError 0 .ledger 128) { s with led := { s.led with ring := [r] } } (fun t => t.led.ring == [r])
    ∧ after (.dramEccError 1 .queue 0) s (fun t => t.poison == [0, 1, 2, 3, 4, 5, 6, 7] && t.cap == s.cap && t.getF (Reg.DBG_DRAM_UNCORR 1) == 1)
    ∧ after (.dramEccError 1 .reserved 0) s falls
    ∧ after (.dramEccError 1 .bulk 0) many falls ∧ after (.dramEccError 0 .bulk 0) many (fun t => t.getF Reg.SYS_MODE_PENDV == 0)
    ∧ after (.scrub [3, 0]) s (fun t => t.getF (Reg.DBG_DRAM_CORR 0) == 3 && t.getF (Reg.DBG_DRAM_CORR 1) == 0 && t.reg Reg.DBG_SCRUB == 500)
    ∧ after .romUncorrectableError s falls ∧ idle .romUncorrectableError (s.setF Reg.SYS_MODE_CUR 7) := by decide +kernel

/-- A record with a code. -/
def record (c : Nat) : EventRec :=
  { cls := 1, level := 2, code := c, unit := 0, partner := false, notify := false, cont := false, seq := 0, slot := 0, d2 := 0, d3 := 0 }

theorem test_LogInterruptsAndDebug :
    let s : State := { own with evt := { own.evt with flashQ := [record 1, record 2], flash := [record 3, record 4] } }
    let i := (own.setF Reg.EVT_INT_PEND 21).setF Reg.EVT_INT_NHOLD 5
    let en : EngSt := { w := [(1, 9)], ckpts := [{ slot := 7, w := [(1, 8)], p := 3, a := [(0, 5)], pc := 12 }], slot := 7 }
    let d : State := { own with engs := [(0, en)] }
    after .persistentLogWrite s (fun t => t.evt.flashQ == [record 2] && t.evt.flash == [record 1, record 3, record 4])
    ∧ idle .persistentLogWrite own
    ∧ refused (.interruptClear 1 4) (own.setF Reg.SYS_AUTH_L1 0) .SYS_AUTH_DENIED 0 Reg.EVT_INT 1
    ∧ after (.interruptClear 2 4) i (fun t => t.getF Reg.EVT_INT_PEND == 17 && t.getF Reg.EVT_INT_NHOLD == 1)
    ∧ after (.eventRecordRead 2) (own.setCopy 2 Reg.EVT_RDPTR (2 ^ 28 - 1)) (fun t => t.copy 2 Reg.EVT_RDPTR == 0)
    ∧ after (.persistentPointerWrite 1 1) s (fun t => t.persistWord 1 0 == (record 4).word 0 && t.copy 1 Reg.EVT_PRD_PTR == 1)
    ∧ idle (.interruptClear 2 4) descent ∧ idle (.persistentPointerWrite 2 1) descent ∧ idle (.dbgEngPtrWrite 2 1) descent
    ∧ idle (.eventRecordRead 2) held ∧ idle (.dbgEngDataRead 2) held
    ∧ after (.persistentPointerWrite 1 2) s (fun t => t.persistWord 1 0 == 0)
    ∧ refused (.dbgEngPtrWrite 1 1) (own.setF Reg.SYS_AUTH_L1 0) .SYS_AUTH_DENIED 0 Reg.DBG_ENG_PTR 1
    ∧ after (.dbgEngPtrWrite 2 1) d (fun t => t.copy 2 Reg.DBG_ENG_PTR == 1)
    ∧ after (.dbgEngDataRead 2) (own.setCopy 2 Reg.DBG_ENG_PTR 0x3FF) (fun t => t.copy 2 Reg.DBG_ENG_PTR == 0x300) := by decide +kernel
/-! ### The whole machine -/

/-- A step answers a next state of which p holds. -/
def stepped (s : State) (p : State → Bool) : Bool :=
  match step s with
  | .next t => p t
  | _ => false

theorem test_StepRunsFrontCommand :
    stepped { State.reset with pending := [.reset, .drainEnd] } (fun t => decide (t = { State.reset with pending := [.drainEnd], fresh := 1 }))
    ∧ stepped live (fun t => decide (t = live)) := by decide +kernel

theorem test_ResetState :
    State.reset.reg Reg.SYS_MODE = Reg.resetValue Reg.SYS_MODE ∧ State.reset.cur = 1 ∧ State.reset.pending = [] ∧ State.reset.getF Reg.EVT_CFG_NMASK = 0x1C
    ∧ Memory.get State.reset.sram 5 = 0 ∧ (State.reset.ch 383).drive = .off ∧ State.reset.laneUp 3 = false := by decide +kernel

theorem test_CanonicalKept : Memory.wf State.reset.sram = true ∧ Memory.wf State.reset.dram = true ∧ Memory.wf State.reset.cap.mem = true
    ∧ Sparse.wf Reg.resetValue State.reset.regs = true := by decide +kernel
end Sys2Proof.Tests
end

namespace Sys2Proof.Machine
open Sys2Proof

/-! ### What leaves the slot clock and the outstanding RWS writes alone

The slot number, the tick, the edge and the values that an RWS write still holds back (R7, R19, R453) are set at the head of a slot
boundary; nothing that the blocks do after it touches either. -/

/-- The clock of t and the RWS writes outstanding in it are those of s. -/
@[simp] abbrev State.SameClock (s t : State) : Prop := t.clk = s.clk ∧ t.effOld = s.effOld

theorem State.SameClock.trans {s t u : State} (h : s.SameClock t) (h' : t.SameClock u) : s.SameClock u :=
  ⟨h'.1.trans h.1, h'.2.trans h.2⟩

/-- A fold keeps the clock when each of its steps does. -/
theorem State.SameClock.foldl {β : Type} (l : List β) (f : State → β → State) (s : State) (hf : ∀ t x, State.SameClock t (f t x)) :
    s.SameClock (l.foldl f s) := by
  induction l generalizing s with
  | nil => exact ⟨rfl, rfl⟩
  | cons x l ih => exact (hf s x).trans (ih (f s x))

@[simp] theorem State.setS_clock (s : State) (f : Fld) (i : Int) : s.SameClock (s.setS f i) := ⟨rfl, rfl⟩

@[simp] theorem State.free_clock (s : State) : s.SameClock s.free.2 := ⟨rfl, rfl⟩

@[simp] theorem State.freeIn_clock (s : State) (r : Nat) : s.SameClock (s.freeIn r).2 := ⟨rfl, rfl⟩

/-! The filters' settings and the time bases' sources -/

theorem State.recordSettings_clock (s : State) (m : Nat) (regrid : Bool) : s.SameClock (s.recordSettings m regrid) := by
  refine .foldl _ _ s fun t c => ?_
  dsimp only
  split <;> simp

theorem State.closeDetectors_clock (s : State) (m : Nat) : s.SameClock (s.closeDetectors m) := by
  refine .foldl _ _ s fun t c => ?_
  dsimp only
  split
  · split <;> simp
  · simp

theorem State.logDelays_clock (s old : State) (m : Nat) : s.SameClock (s.logDelays old m) := by
  refine .foldl _ _ s fun t c => ?_
  split <;> simp

theorem State.newSettings_clock (s old : State) (m : Nat) : s.SameClock (s.newSettings old m) :=
  ((s.recordSettings_clock m false).trans (State.closeDetectors_clock _ m)).trans (State.logDelays_clock _ old m)

@[simp] theorem State.refreshClass_clock (s : State) (k : Nat) : s.SameClock (s.refreshClass k) := ⟨rfl, rfl⟩

@[simp] theorem State.setTbState_clock (s : State) (k v : Nat) : s.SameClock (s.setTbState k v) := by
  unfold State.setTbState
  dsimp only
  split
  · simp
  · simp [apply_ite State.clk, apply_ite State.effOld]

@[simp] theorem State.abandonSlew_clock (s : State) (k : Nat) : s.SameClock (s.abandonSlew k) := by
  unfold State.abandonSlew
  split <;> simp

@[simp] theorem State.holdRate_clock (s : State) (k : Nat) : s.SameClock (s.holdRate k) := by
  unfold State.holdRate State.holdYi
  split <;> simp

theorem State.tbSrcBoundary_clock (s : State) (k : Nat) : s.SameClock (s.tbSrcBoundary k) := by
  unfold State.tbSrcBoundary
  dsimp only
  split
  · simp
  · simp [apply_ite State.clk, apply_ite State.effOld]

/-! Streams, queues and spills -/

@[simp] theorem State.logLost_clock (s : State) (q : Nat) : s.SameClock (s.logLost q) :=
  State.SameClock.trans (t := s.setQue q { s.que q with lost := [] }) ⟨rfl, rfl⟩ (.foldl _ _ _ fun t e => by simp)

@[simp] theorem State.addPacket_clock (s : State) (q st : Nat) (p : Pkt) : s.SameClock (s.addPacket q st p) := ⟨rfl, rfl⟩

@[simp] theorem State.emptyLast_clock (s : State) (q st : Nat) : s.SameClock (s.emptyLast q st) := ⟨rfl, rfl⟩

@[simp] theorem State.closePkt_clock (s : State) (q st : Nat) (last : Bool) (cmode : Nat) :
    s.SameClock (s.closePkt q st last cmode) := by
  unfold State.closePkt
  split <;> simp

@[simp] theorem State.lastPacket_clock (s : State) (q st : Nat) : s.SameClock (s.lastPacket q st) := by
  unfold State.lastPacket
  dsimp only
  split <;> simp

theorem State.endStream_clock (s : State) (st : Nat) : s.SameClock (s.endStream st) := by
  unfold State.endStream
  dsimp only
  split <;> simp

theorem State.beginStream_clock (s : State) (st : Nat) : s.SameClock (s.beginStream st) := by
  unfold State.beginStream
  dsimp only
  split <;> simp

theorem State.streamsBoundary_clock (s : State) : s.SameClock s.streamsBoundary := by
  unfold State.streamsBoundary
  refine .trans (.trans (.trans (.foldl _ _ s fun t q => ?_) (.foldl _ _ _ fun t st => ?_)) (.foldl _ _ _ fun t st => ?_))
    (.foldl _ _ _ fun t q => ?_)
  · split
    · exact t.endStream_clock _
    · simp
  · split
    · exact t.endStream_clock _
    · simp
  · exact t.beginStream_clock _
  · split <;> simp

@[simp] theorem State.setTrg_clock (s : State) (u st : Nat) : s.SameClock (s.setTrg u st) := ⟨rfl, rfl⟩

theorem State.spillStops_clock (s : State) : s.SameClock s.spillStops := by
  refine .foldl _ _ s fun t u => ?_
  dsimp only
  split <;> simp [State.endSpill]

/-! Calibration in Acclimatise -/

theorem State.referenceTransfer_clock (s : State) : s.SameClock s.referenceTransfer := by
  have h1 := State.SameClock.foldl (List.range 24)
    (fun t b => let f := t.free; f.2.setF (Reg.BANK_VREF_VALUE b) (f.1.toNat % 2 ^ 32)) s fun t b => ⟨rfl, rfl⟩
  unfold State.referenceTransfer
  refine .trans (.trans (.trans h1 ?_) ⟨State.setCalh_clk _ _, State.setCalh_effOld _ _⟩)
    (.foldl _ _ _ fun t b => ⟨State.log_clk _ _ _ _, State.log_effOld _ _ _ _⟩)
  split
  · exact ⟨rfl, rfl⟩
  · exact ⟨State.setF_clk _ _ _, State.setF_effOld _ _ _⟩

/-- Free values taken one after another keep the clock. -/
theorem State.foldl_freeIn_clock (l : List Nat) (r : Nat) (q : List Int × State) :
    q.2.SameClock (l.foldl (fun (q : List Int × State) _ => let f := q.2.freeIn r; (q.1 ++ [f.1], f.2)) q).2 := by
  induction l generalizing q with
  | nil => exact ⟨rfl, rfl⟩
  | cons _ l ih => exact (q.2.freeIn_clock r).trans (ih _)

theorem State.dividerRatios_clock (s : State) : s.SameClock s.dividerRatios :=
  .foldl _ _ s fun t _ =>
    (State.foldl_freeIn_clock (List.range 13) (2 ^ 31) ([], t)).trans ⟨State.setCalh_clk _ _, State.setCalh_effOld _ _⟩

theorem State.fastTerms_clock (s : State) : s.SameClock s.fastTerms := by
  refine .foldl _ _ s fun t k => ?_
  split
  · simp
  · exact ⟨rfl, rfl⟩

@[simp] theorem State.accRelease_clock (s : State) (b : Nat) : s.SameClock (s.accRelease b) := by
  unfold State.accRelease
  dsimp only
  split <;> simp

theorem State.accEnd_clock (s : State) : s.SameClock s.accEnd :=
  State.SameClock.trans (t := s.setF Reg.CAL_STAT_ACC_STEP 0) ⟨rfl, rfl⟩ (.foldl _ _ _ fun t b => by simp)

@[simp] theorem State.cancelOverlay_clock (s : State) : s.SameClock s.cancelOverlay := by
  simp [State.cancelOverlay, State.dropOverlay]

@[simp] theorem State.pendAuto_clock (s : State) (target : Nat) (at_ : Option Nat) : s.SameClock (s.pendAuto target at_) := by
  unfold State.pendAuto
  split <;> simp [State.pendOverlay]

@[simp] theorem State.scheduleAuto_clock (s : State) (target : Nat) (at_ : Option Nat) : s.SameClock (s.scheduleAuto target at_) := by
  unfold State.scheduleAuto
  dsimp only
  split
  · simp [apply_ite State.clk, apply_ite State.effOld]
  · simp

@[simp] theorem State.pendMode_clock (s : State) (target : Nat) (at_ : Option Nat) (port cause : Nat) :
    s.SameClock (s.pendMode target at_ port cause) := by
  simp [State.pendMode]

theorem State.squashMode_clock (s : State) (m : Nat) : s.SameClock (s.squashMode m) := by
  refine .foldl _ _ s fun t l => ?_
  dsimp only
  split <;> simp

theorem State.endChain_clock (s : State) : s.SameClock s.endChain := by
  refine s.accEnd_clock.trans ?_
  unfold State.endChain
  dsimp only
  split
  · simp
  · exact (s.accEnd.pendMode_clock _ _ _ _).trans (State.squashMode_clock _ _)

theorem State.accStep_clock (s : State) : s.SameClock s.accStep := by
  unfold State.accStep
  split
  · simp
  dsimp only
  split
  · split
    · exact State.SameClock.trans (by simp) (State.endChain_clock _)
    · simp
  split
  · exact s.referenceTransfer_clock.trans (by simp)
  split
  · exact s.dividerRatios_clock.trans (by simp)
  split
  · exact ((s.fastTerms_clock.trans (u := s.fastTerms.setF Reg.CAL_STAT_ACC_STEP 5) (by simp)).trans
      (.foldl _ _ _ fun t b => t.accRelease_clock b)).trans (.foldl _ _ _ fun t b => by simp)
  · simp

/-! The other blocks at their boundary -/

theorem State.tivStamp_clock (s : State) (code bins : Nat) : s.SameClock (s.tivStamp code bins) := by
  unfold State.tivStamp
  split <;> simp

theorem State.tivSlotStamps_clock (s : State) : s.SameClock s.tivSlotStamps := by
  unfold State.tivSlotStamps
  split
  · simp
  next h _ =>
    extract_lets _ startC stopC run _ s1 add s2
    have h1 : s.SameClock s1 := State.SameClock.trans (t := s.setTiv _) ⟨rfl, rfl⟩ (State.tivStamp_clock _ 11 h)
    have hadd : ∀ t c, State.SameClock t (add t c) := fun t c => ⟨rfl, rfl⟩
    have h2 : s.SameClock s2 := by
      unfold s2
      split
      · exact h1.trans (hadd s1 10)
      · exact h1
    split
    · exact h1
    · split
      · exact h2.trans (hadd s2 12)
      · exact h2

theorem State.fastOverrange_clock (s : State) : s.SameClock s.fastOverrange := by
  refine .foldl _ _ s fun t k => ?_
  simp [apply_ite State.clk, apply_ite State.effOld]

theorem State.disableBankRefs_clock (s : State) : s.SameClock s.disableBankRefs := by
  refine .foldl _ _ s fun t b => ?_
  unfold State.disableRef
  split <;> simp

theorem State.stopDrive_clock (s : State) (c : Nat) : s.SameClock (s.stopDrive c) := by
  unfold State.stopDrive
  dsimp only
  split <;> simp

theorem State.stopExcitation_clock (s : State) : s.SameClock s.stopExcitation := by
  unfold State.stopExcitation
  split
  · simp
  · split
    · refine .trans (.trans (t := { s with mode := { s.mode with stopAt := none } }) ⟨rfl, rfl⟩ (State.disableBankRefs_clock _))
        (.foldl _ _ _ fun u c => ?_)
      split
      · simp
      · exact u.stopDrive_clock c
    · simp

theorem State.nextAuto_clock (s : State) : s.SameClock s.nextAuto := by
  unfold State.nextAuto
  split
  · simp [apply_ite State.clk, apply_ite State.effOld]
  · simp

theorem State.portsListen_clock (s : State) : s.SameClock s.portsListen := by
  refine .foldl _ _ s fun t k => ?_
  split <;> exact ⟨rfl, rfl⟩

@[simp] theorem State.refreshReady_clock (s : State) : s.SameClock s.refreshReady := by
  unfold State.refreshReady
  simp [apply_ite State.clk, apply_ite State.effOld]

theorem State.pairSlot_clock (s : State) : s.SameClock s.pairSlot := by
  unfold State.pairSlot
  simp [apply_ite State.clk, apply_ite State.effOld]

/-! The two groups of the slot boundary -/

theorem State.blocksBoundary_clock (s : State) : s.SameClock s.blocksBoundary :=
  (((((s.tivSlotStamps_clock.trans (State.fastOverrange_clock _)).trans (State.accStep_clock _)).trans
    (State.stopExcitation_clock _)).trans (State.nextAuto_clock _)).trans (State.portsListen_clock _)).trans (State.pairSlot_clock _)

/-- What takes effect at a boundary settles the RWS writes before anything else and keeps the clock. -/
theorem State.takeEffect_clock (s : State) : s.settleRws.SameClock s.takeEffect :=
  (((State.SameClock.foldl [0, 1, 2, 3] _ _ fun t k => t.tbSrcBoundary_clock k).trans (State.streamsBoundary_clock _)).trans
    (State.spillStops_clock _)).trans (State.newSettings_clock _ s s.now)

theorem State.recordLock_clock (s : State) : s.SameClock s.recordLock := by
  unfold State.recordLock
  simp [apply_ite State.clk, apply_ite State.effOld]

theorem State.useSlot_clock (s : State) : s.SameClock s.useSlot := by
  unfold State.useSlot
  split <;> simp

theorem State.freezeAll_clock (s : State) : s.SameClock s.freezeAll := .foldl _ _ s fun _ _ => ⟨rfl, rfl⟩


/-! ### Root ticks and the slot edge (R19, R248) -/

theorem State.advance_clk (s : State) (k : Nat) :
    (s.advance k).clk = { s.clk with uptime := s.clk.uptime + k, tick := s.clk.tick + k } := by
  unfold State.advance
  dsimp only
  split <;> rfl

theorem State.advance_frame (s : State) (k : Nat) : { s.advance k with clk := s.clk, tbs := s.tbs } = s := by
  unfold State.advance
  dsimp only
  split <;> rfl

theorem State.getS_setTb (s : State) (k : Nat) (x : TbSt) (f : Fld) : (s.setTb k x).getS f = s.getS f := rfl

/-- Outside Bivouac k root ticks run each of the four time bases at its own rate. -/
theorem State.tb_advance (s : State) (k : Nat) (h : s.cur ≠ 0) (i : Fin 4) :
    (s.advance k).tb i = (s.tb i).run (s.getS (Reg.TB_FREQ_Y i)) (s.getS (Reg.TB_FREQ_YI i)) k := by
  have h0 : ∀ (c : ClockSt) (f : Fld), ({ s with clk := c } : State).getS f = s.getS f := fun _ _ => rfl
  have h1 : ∀ (c : ClockSt) (j : Nat), ({ s with clk := c } : State).tb j = s.tb j := fun _ _ => rfl
  unfold State.advance
  dsimp only
  rw [if_neg h]
  fin_cases i <;> simp [State.getS_setTb, State.tb_setTb_ne, h0, h1]

/-- A time base without a commanded slew adds INC at each root tick. -/
theorem TbSt.run_of_slew_none (x : TbSt) (y yi : Int) (k : Nat) (h : x.slew = none) :
    x.run y yi k = { x with time := x.time + k * incOf y } := by
  unfold TbSt.run
  rw [h]

theorem clampI_mem (lo hi v : Int) (h : lo ≤ hi) : lo ≤ clampI lo hi v ∧ clampI lo hi v ≤ hi := by
  unfold clampI
  split
  · omega
  · split <;> omega

/-- The edge of slot n: its tick is 0, its delay-line step is below 64 and the last converter clock period is within one root tick of
32 (R19). -/
theorem State.placeEdge_clk (s : State) (n : Nat) :
    (s.placeEdge n).clk.slot = n ∧ (s.placeEdge n).clk.tick = 0 ∧ (s.placeEdge n).clk.step < 64
      ∧ (s.placeEdge n).clk.period ∈ [31, 32, 33] := by
  unfold State.placeEdge
  extract_lets k d k' s1 step
  have hstep : step < 64 := by
    have := clampI_mem 0 63 (32 - s1.edgeError n) (by decide)
    omega
  refine ⟨rfl, rfl, hstep, ?_⟩
  show 32 + k' - k ∈ [31, 32, 33]
  simp only [List.mem_cons, List.not_mem_nil, or_false]
  unfold k'
  split <;> [skip; split] <;> omega

/-- With no RWS write outstanding every register is in force as it reads (R453). -/
theorem State.eff_of_effOld_nil (s : State) (h : s.effOld = []) (a : Nat) : s.eff a = s.reg a := by
  rw [State.eff, h]
  rfl

theorem State.applyDue_of_accepted_nil (s : State) (h : s.arb.accepted = []) : s.applyDue s.arb.accepted.length = s := by
  rw [h]
  rfl

/-- The slot boundary outside Bivouac with no accepted group to apply: the edge of the next slot is placed, then the blocks follow. -/
theorem execSlotBoundary_of_accepted_nil (s : State) (hheld : s.mode.phase ≠ .held) (hstraps : s.mode.phase ≠ .straps)
    (hcur : s.cur ≠ 0) (hacc : s.arb.accepted = []) :
    execSlotBoundary s = .next (((((s.placeEdge (s.now + 1)).recordHold
      (s.placeEdge (s.now + 1)).oldestBins).useSlot.recordLock).freezeAll).takeEffect.blocksBoundary) := by
  unfold execSlotBoundary
  rw [if_neg (by simp [hheld, hstraps]), if_neg hcur, s.applyDue_of_accepted_nil hacc]

/-- What a boundary records and freezes at its hold instant keeps the clock of the placed edge. -/
theorem State.holdInstant_clock (s : State) (need : Nat) : s.SameClock ((s.recordHold need).useSlot.recordLock).freezeAll :=
  ((State.SameClock.trans (t := s.recordHold need) ⟨rfl, rfl⟩ (State.useSlot_clock _)).trans (State.recordLock_clock _)).trans
    (State.freezeAll_clock _)

/-- Through the rest of a boundary the clock stays, and no RWS write is left outstanding. -/
theorem State.effectsAndBlocks_clock (s : State) :
    s.takeEffect.blocksBoundary.clk = s.clk ∧ s.takeEffect.blocksBoundary.effOld = [] :=
  s.takeEffect_clock.trans (State.blocksBoundary_clock _)

/-! ### SYNC_N (R133, R134) -/

/-- CONT records keep what stands in the ring at an index that they do not push out (FLT_SYNC may carry seven detail items, one more than
State.logged_log takes). -/
theorem State.mem_appendCont_ring (s : State) (d : Dest) (r x : EventRec) (l : List W64) (i : Nat) (hi : i + l.length < 1024)
    (hx : s.evt.ring[i]? = some x) : x ∈ (s.appendCont d r l).evt.ring := by
  have hpush : ∀ r', i + 1 < 1024 → (s.appendRec d r').evt.ring[i + 1]? = some x := by
    intro r' hl
    rw [(State.appendRec_ring _ _ _).1, List.getElem?_take, if_pos hl, List.getElem?_cons_succ, hx]
  match l with
  | [] => exact List.mem_of_getElem? hx
  | [a] => exact List.mem_of_getElem? (hpush _ hi)
  | a :: b :: rest =>
    simp only [List.length_cons] at hi
    exact State.mem_appendCont_ring _ d r x rest (i + 1) (by omega) (hpush _ (by omega))

/-- FLT_SYNC logged with n stands in the log, however many first instants follow. -/
theorem State.logged_fltSync (s : State) (n : W64) (l : List W64) (hl : l.length < 1000) :
    Logged s (s.log .FLT_SYNC 0 (n :: l)) .FLT_SYNC 0 n (l.getD 0 0) := by
  refine ⟨⟨2, 0, Cond.FLT_SYNC.code, 0, false, false, false, s.evt.nextSeq, s.logSlot, n, l.getD 0 0⟩, ?_,
    rfl, rfl, rfl, rfl, rfl, rfl, rfl, rfl, rfl⟩
  refine State.mem_appendCont_ring _ _ _ _ _ 0 (by simp; omega) ?_
  rw [(State.appendRec_ring _ _ _).1]
  rfl

/-- The slot that a record is stamped with does not change with a field outside TIME_CFG and the time bases' status words. -/
theorem State.logSlot_setF (s : State) (f : Fld) (v : Nat) (hcfg : Reg.TIME_CFG_SAMPLE_TB.addr ≠ f.addr)
    (hstat : ∀ k, (Reg.TB_STAT_STATE k).addr ≠ f.addr) : (s.setF f v).logSlot = s.logSlot := by
  unfold State.logSlot
  rw [State.getF_setF_addr s f _ v hcfg, State.getF_setF_addr s f _ v (hstat _), State.setF_clk]

theorem fltSync_ne_tbStat (k : Nat) : (Reg.TB_STAT_STATE k).addr ≠ Reg.FLT_SYNC := by
  simp only [Reg.TB_STAT_STATE, Reg.TB_STAT, Reg.FLT_SYNC]
  omega

/-- A record logged on a state with the event log and the stamp of s is logged on s. -/
theorem Logged.of_same {s s' t : State} {c : Cond} {u : Nat} {d2 d3 : W64} (h : Logged s' t c u d2 d3) (hevt : s'.evt = s.evt)
    (hslot : s'.logSlot = s.logSlot) : Logged s t c u d2 d3 := by
  unfold Logged at h ⊢
  rwa [hevt, hslot] at h

/-- A fold whose steps change filters only changes filters only. -/
theorem State.foldl_flts {β : Type} (l : List β) (f : State → β → State) (s : State)
    (hf : ∀ t x, ∃ y, f t x = { t with flts := y }) : ∃ y, l.foldl f s = { s with flts := y } := by
  induction l generalizing s with
  | nil => exact ⟨s.flts, rfl⟩
  | cons x l ih =>
    obtain ⟨y, hy⟩ := hf s x
    obtain ⟨z, hz⟩ := ih (f s x)
    exact ⟨z, by rw [List.foldl_cons, hz, hy]⟩

theorem State.recordSettings_flts (s : State) (m : Nat) (regrid : Bool) : ∃ y, s.recordSettings m regrid = { s with flts := y } := by
  refine State.foldl_flts _ _ s fun t c => ?_
  dsimp only
  split
  · exact ⟨t.flts, rfl⟩
  · exact ⟨_, rfl⟩

/-- A standalone hub takes an edge of SYNC_N for the next slot, or for the one after it from tick 12,000 on. -/
theorem execSyncNEdge_standalone (s : State) (h : s.anyLocked = false) (next : Nat)
    (hn : next = if s.clk.tick < 12000 then s.clk.slot + 1 else s.clk.slot + 2) :
    execSyncNEdge s = .next { s with fabric := { s.fabric with
      gridAt := if next ∈ s.fabric.gridAt then s.fabric.gridAt else s.fabric.gridAt ++ [next] } } := by
  unfold execSyncNEdge
  simp only [h, State.now, ← hn, List.contains_iff_mem, Bool.false_eq_true, if_false]
  split <;> rfl

/-- The state after an edge of SYNC_N that a locked time base has the hub ignore: counted and logged, nothing else changed. -/
theorem syncN_ignored (s : State) :
    let t := (s.bump Reg.FLT_SYNC_IGNORED).log .FLT_SYNC_IGNORED 0 []
    t.getF Reg.FLT_SYNC_IGNORED = capAt 65535 (s.getF Reg.FLT_SYNC_IGNORED + 1) ∧ Logged s t .FLT_SYNC_IGNORED 0 0 0
      ∧ { t with regs := s.regs, evt := s.evt } = s := by
  refine ⟨?_, ?_, ?_⟩
  · rw [State.getF_log _ _ _ _ _ (by decide)]
    show (s.setF Reg.FLT_SYNC_IGNORED (capAt 65535 (s.getF Reg.FLT_SYNC_IGNORED + 1))).getF _ = _
    rw [State.getF_setF_self _ _ _ (by decide)]
    refine Nat.mod_eq_of_lt ?_
    unfold capAt
    split
    · decide
    · show _ < 65536
      omega
  · exact (State.logged_log _ _ _ _ (by decide)).of_same rfl (State.logSlot_setF s _ _ (by decide) fltSync_ne_tbStat)
  · exact frame_trans (t := s.bump Reg.FLT_SYNC_IGNORED) rfl (State.logTo_frame _ .all .FLT_SYNC_IGNORED 0 [])

/-- The outputs of every channel that delivers pause at a restart; only the filters change. -/
theorem State.regridGaps_flts (s : State) (n : Nat) :
    ∃ y, (List.range 392).foldl (fun u c => if u.delivers c n then u.setFlt c ((u.flt c).regridGap n) else u) s = { s with flts := y } := by
  refine State.foldl_flts _ _ s fun t c => ?_
  split
  · exact ⟨_, rfl⟩
  · exact ⟨t.flts, rfl⟩

/-- The state of a restarted grid: the phase and PSET of FLT_SYNC are written, and filters may differ. -/
theorem State.logged_restart (s : State) (n q : Nat) (y : Sparse FltSt) (l : List W64) (hl : l.length < 1000) :
    let t := ({ (s.setF Reg.FLT_SYNC_PHASE (n % 8192)).setF Reg.FLT_SYNC_PSET q with flts := y } : State).log .FLT_SYNC 0
      (BitVec.ofNat 64 n :: l)
    t.getF Reg.FLT_SYNC_PHASE = n % 8192 ∧ t.fabric = s.fabric ∧ Logged s t .FLT_SYNC 0 (BitVec.ofNat 64 n) (l.getD 0 0) := by
  refine ⟨?_, ?_, ?_⟩
  · rw [State.getF_log _ _ _ _ _ (by decide)]
    show ((s.setF Reg.FLT_SYNC_PHASE (n % 8192)).setF Reg.FLT_SYNC_PSET q).getF Reg.FLT_SYNC_PHASE = n % 8192
    rw [State.getF_setF_beside _ Reg.FLT_SYNC_PSET Reg.FLT_SYNC_PHASE q rfl (by decide) (by decide),
      State.getF_setF_self _ _ _ (by decide)]
    exact Nat.mod_mod n 8192
  · rw [State.log_fabric]
    rfl
  · refine (State.logged_fltSync _ _ l hl).of_same rfl ?_
    exact (State.logSlot_setF _ Reg.FLT_SYNC_PSET q (by decide) fltSync_ne_tbStat).trans
      (State.logSlot_setF s Reg.FLT_SYNC_PHASE _ (by decide) fltSync_ne_tbStat)

/-- GRID_RESTART at a slot that has come: the phase is the slot's, the slot is taken off the list and FLT_SYNC stands in the log. -/
theorem execGridRestart_named (s : State) (n : Nat) (rest : List Nat) (hg : s.fabric.gridAt = n :: rest) (hn : n ≤ s.now)
    (ho : s.overlayDue = false) :
    ∃ t, execGridRestart s = .next t ∧ t.getF Reg.FLT_SYNC_PHASE = n % 8192 ∧ t.fabric.gridAt = rest
      ∧ ∃ d3, Logged s t .FLT_SYNC 0 (BitVec.ofNat 64 n) d3 := by
  unfold execGridRestart
  rw [hg]
  dsimp -zeta only
  rw [if_neg (by simp [ho]; omega)]
  extract_lets p _ s1 s2 used s3
  split
  next hp =>
    refine ⟨_, rfl, ?_, ?_, _, (State.logged_fltSync s1 _ [] (by decide)).of_same rfl rfl⟩
    · rw [State.getF_log _ _ _ _ _ (by decide)]
      exact hp.symm
    · rw [State.log_fabric]
  next hp =>
    have h3 : ∃ y, s3 = { (s1.setF Reg.FLT_SYNC_PHASE p).setF Reg.FLT_SYNC_PSET (b2n (p != 0)) with flts := y } := by
      obtain ⟨x, hx⟩ := State.recordSettings_flts ((s1.setF Reg.FLT_SYNC_PHASE p).setF Reg.FLT_SYNC_PSET (b2n (p != 0))) n true
      obtain ⟨y, hy⟩ := s2.regridGaps_flts n
      exact ⟨y, by rw [show s3 = _ from hy, show s2 = _ from hx]⟩
    have hused : (used.map fun r => BitVec.ofNat 64 (firstNew p r n)).length < 1000 := by
      have := List.length_filter_le (fun r => (List.range 392).any fun c =>
        s2.delivers c n && !(s2.fltNow c).avg && (s2.fltNow c).preset == r) (List.range 6)
      rw [List.length_map]
      exact Nat.lt_of_le_of_lt this (by simp)
    obtain ⟨y, hy⟩ := h3
    obtain ⟨hphase, hfabric, hlog⟩ := State.logged_restart s1 n (b2n (p != 0)) y _ hused
    rw [hy]
    exact ⟨_, rfl, hphase, by rw [hfabric], _, hlog.of_same rfl rfl⟩

/-- GRID_RESTART before the named slot, or with an overlay change due in it, does nothing. -/
theorem execGridRestart_early (s : State) (n : Nat) (rest : List Nat) (hg : s.fabric.gridAt = n :: rest)
    (h : s.now < n ∨ s.overlayDue = true) : execGridRestart s = .next s := by
  unfold execGridRestart
  rw [hg]
  exact if_pos h

theorem execGridRestart_idle (s : State) (hg : s.fabric.gridAt = []) : execGridRestart s = .next s := by
  unfold execGridRestart
  rw [hg]

/-! ### Slot boundaries, root ticks and the output grid -/

/-- SLOT_BOUNDARY in Bivouac: what is left of 12,800 ticks passes, with no time base running. -/
theorem execSlotBoundary_bivouac (s : State) (hheld : s.mode.phase ≠ .held) (hstraps : s.mode.phase ≠ .straps) (hcur : s.cur = 0) :
    execSlotBoundary s = .next { s with effOld := [], clk := { s.clk with
      uptime := s.clk.uptime + (12800 - s.clk.tick), slot := s.clk.slot + 1, tick := 0, edges := s.clk.edges + 1 } } := by
  unfold execSlotBoundary State.advance
  simp only [hheld, hstraps, hcur, or_self, if_false, if_true]
  rfl

/-- Settles O23. A slot boundary reads its clock off the placed edge, which the rest of the boundary keeps; SYNC_N and GRID_RESTART by
the branches of their definitions. -/
theorem slotClockAndGrid : Obligations.SlotClockAndGrid := by
  unfold Obligations.SlotClockAndGrid
  refine ⟨fun s => ⟨?boundary, ?bivouac, ?tick⟩, fun s => ⟨?edge, ?ignored, ?restart, ?early, ?idle⟩⟩
  case boundary =>
    intro hheld hstraps hcur hacc
    have hedge := s.placeEdge_clk (s.now + 1)
    obtain ⟨hclk, heff⟩ := State.effectsAndBlocks_clock
      (((s.placeEdge (s.now + 1)).recordHold (s.placeEdge (s.now + 1)).oldestBins).useSlot.recordLock).freezeAll
    rw [(State.holdInstant_clock _ _).1] at hclk
    rw [← hclk] at hedge
    obtain ⟨hslot, htick, hstep, hperiod⟩ := hedge
    exact ⟨_, execSlotBoundary_of_accepted_nil s hheld hstraps hcur hacc, hslot, htick, hstep, hperiod, State.eff_of_effOld_nil _ heff⟩
  case bivouac => exact execSlotBoundary_bivouac s
  case tick =>
    intro hcur
    refine ⟨s.advance 1, rfl, s.advance_clk 1, s.advance_frame 1, fun k hk => ?_⟩
    rw [s.tb_advance 1 hcur k, TbSt.run_of_slew_none _ _ _ _ hk, Nat.one_mul]
    rfl
  case edge => exact fun h => execSyncNEdge_standalone s h _ rfl
  case ignored =>
    intro h
    exact ⟨_, if_pos h, syncN_ignored s⟩
  case restart => exact execGridRestart_named s
  case early => exact execGridRestart_early s
  case idle => exact execGridRestart_idle s

/-! ### Reset (R7) -/

/-- Nothing is written at reset: every word reads as its reset value. -/
theorem State.reg_reset (a : Nat) : State.reset.reg a = Reg.resetValue a := rfl

/-- The table of engines lists nothing at reset. -/
theorem State.eng_reset (e : Nat) : State.reset.eng e = {} := rfl

theorem EngSt.rw_default (r : Nat) : ({} : EngSt).rw r = 0 := by
  unfold EngSt.rw
  split <;> rfl

theorem Memory.get_nil (a : Nat) : Memory.get [] a = 0 := rfl

theorem canonical_reset : Canonical State.reset :=
  ⟨Memory.wf_nil, Memory.wf_nil, Memory.wf_nil, Sparse.wf_nil _⟩

/-- Settles O57: the tables of the reset state list nothing, so each reads as its default; the fields named are read off the reset values of
their words. -/
theorem resetState : Obligations.ResetState := by
  unfold Obligations.ResetState
  refine ⟨State.reg_reset, ?cur, ?prior, rfl, ?nmask, ?imask, ?timeBasesAndLanes, fun e => ⟨?running, ?registers⟩, fun _ => rfl, rfl,
    fun a => ⟨Memory.get_nil a, Memory.get_nil a⟩, canonical_reset⟩
  case cur => decide
  case prior => decide
  case nmask => decide
  case imask => decide
  case timeBasesAndLanes => decide
  case running => rw [State.eng_reset]
  case registers =>
    rw [State.eng_reset]
    exact fun r => EngSt.rw_default r

end Sys2Proof.Machine

namespace Sys2Proof.Machine
open Sys2Proof

/-! ### The trim and the measured ageing (R17, R246) -/

/-- A new trim code leaves every register but TIV_TRIM and those of the event log alone. -/
theorem State.reg_setTrim (s : State) {a : Nat} (hlog : evtReg a = false) (ha : a ≠ Reg.TIV_TRIM) : s.setTrim.reg a = s.reg a := by
  have hfields : ∀ v i, ((s.setF Reg.TIV_TRIM_CODE v).setS Reg.TIV_TRIM_AGETERM i).reg a = s.reg a := fun v i =>
    (State.reg_setF_ne _ Reg.TIV_TRIM_AGETERM _ ha).trans (State.reg_setF_ne s Reg.TIV_TRIM_CODE v ha)
  unfold State.setTrim
  dsimp only
  split
  · exact hfields _ _
  · split
    · exact hfields _ _
    · exact (State.reg_log _ _ _ _ hlog).trans (hfields _ _)

theorem State.setTrim_lockedAt (s : State) : s.setTrim.tiv.lockedAt = s.tiv.lockedAt := by
  unfold State.setTrim
  dsimp only
  split
  · rfl
  · split
    · rfl
    · rw [State.log_tiv]
      rfl

/-- REF10_FREEZE ends the lock and leaves MEAS as it stands. -/
theorem execRef10Freeze_meas (term : Int) (s : State) :
    ∃ t, execRef10Freeze term s = .next t ∧ t.tiv.lockedAt = none ∧ t.getF Reg.TIV_AGE_MEAS = s.getF Reg.TIV_AGE_MEAS := by
  refine ⟨_, rfl, State.setTrim_lockedAt _, ?_⟩
  rw [State.getF, State.reg_setTrim _ (by decide) (by decide)]
  exact State.getF_setF_addr _ Reg.TIV_STAT_REFLOCK Reg.TIV_AGE_MEAS 0 (by decide)

/-- Without a lock AGE_MEAS_UPDATE does nothing. -/
theorem execAgeMeasUpdate_of_unlocked (s : State) (h : s.tiv.lockedAt = none) : execAgeMeasUpdate s = .next s := by
  unfold execAgeMeasUpdate
  rw [h]

/-- Refutes O31: MEAS does not read 0 in every state without 24 hours of lock. In a hub locked since slot 0 whose MEAS has become 7, REF10_FREEZE
ends the lock and leaves the 7, and AGE_MEAS_UPDATE, which does nothing without a lock, does not clear it. -/
theorem not_frequencyAndTrim : ¬ Obligations.FrequencyAndTrim := by
  unfold Obligations.FrequencyAndTrim
  rintro ⟨-, htrim⟩
  obtain ⟨t, -, hlock, hmeas⟩ := execRef10Freeze_meas 0 { State.reset.setF Reg.TIV_AGE_MEAS 7 with tiv := { lockedAt := some 0 } }
  obtain ⟨-, -, -, -, -, -, -, hunlocked⟩ := htrim t
  obtain ⟨u, hu, hzero, -⟩ := hunlocked (by simp [hlock])
  cases hu.symm.trans (execAgeMeasUpdate_of_unlocked t hlock)
  rw [hmeas] at hzero
  exact absurd hzero (by decide)

/-! ### Channel after channel

A command that works a bank, or the hub, channel by channel is a fold whose step touches the entry of its own channel only. -/

/-- A fold over different channels: where each step keeps Q, brings its channel from x to an x' with P and leaves the others alone, the fold
does so for every channel listed. -/
theorem State.foldl_ch (f : State → Nat → State) (Q : State → Prop) (P : Nat → ChanSt → ChanSt → Prop)
    (hQ : ∀ t c, Q t → Q (f t c)) (hP : ∀ t c, Q t → P c (t.ch c) ((f t c).ch c)) (hne : ∀ t c k, k ≠ c → (f t c).ch k = t.ch k)
    (l : List Nat) (hl : l.Nodup) (s : State) (hs : Q s) :
    Q (l.foldl f s) ∧ (∀ k ∈ l, P k (s.ch k) ((l.foldl f s).ch k)) ∧ ∀ k, k ∉ l → (l.foldl f s).ch k = s.ch k := by
  induction l generalizing s with
  | nil => exact ⟨hs, fun k hk => absurd hk List.not_mem_nil, fun _ _ => rfl⟩
  | cons c l ih =>
    obtain ⟨hc, hl⟩ := List.nodup_cons.mp hl
    obtain ⟨hQ', hin, hout⟩ := ih hl (f s c) (hQ s c hs)
    refine ⟨hQ', fun k hk => ?_, fun k hk => ?_⟩
    · rcases List.mem_cons.mp hk with rfl | hk
      · rw [List.foldl_cons, hout k hc]
        exact hP s k hs
      · have hkc : k ≠ c := fun h => hc (h ▸ hk)
        have := hin k hk
        rwa [hne s c k hkc] at this
    · obtain ⟨hkc, hk⟩ := not_or.mp (mt List.mem_cons.mpr hk)
      rw [List.foldl_cons, hout k hk, hne s c k hkc]

theorem bankChans_nodup (b : Nat) : (bankChans b).Nodup :=
  List.nodup_range.map fun p q (h : 16 * b + p = 16 * b + q) => by omega

@[simp] theorem State.ch_setF (s : State) (f : Fld) (v k : Nat) : (s.setF f v).ch k = s.ch k := rfl

/-- States that differ in their channels only. -/
abbrev State.OnlyChans (s t : State) : Prop := { t with chans := s.chans } = s

theorem State.OnlyChans.trans {s t u : State} (h : s.OnlyChans t) (h' : t.OnlyChans u) : s.OnlyChans u := by
  unfold State.OnlyChans at h h' ⊢
  rw [← h'] at h
  exact h

theorem State.OnlyChans.now {s t : State} (h : s.OnlyChans t) : t.now = s.now := by rw [← h]; rfl

theorem State.OnlyChans.pair {s t : State} (h : s.OnlyChans t) : t.pair = s.pair := by rw [← h]

theorem State.OnlyChans.bk {s t : State} (h : s.OnlyChans t) (b : Nat) : t.bk b = s.bk b := by rw [← h]; rfl

/-! ### Drives removed (R76, R393, R395) -/

/-- The drive of a channel removed at once. -/
def ChanSt.Cut (x : ChanSt) : Prop := x.drive = .off ∧ x.level = 0 ∧ x.retryAt = none

/-- Drives removed channel by channel: those listed are off, the others stay, and nothing but channels changes. -/
theorem State.cutDrives (l : List Nat) (hl : l.Nodup) (s : State) :
    let t := l.foldl (fun u c => u.cutDrive c) s
    s.OnlyChans t ∧ (∀ k ∈ l, (t.ch k).Cut) ∧ ∀ k, k ∉ l → t.ch k = s.ch k :=
  State.foldl_ch (fun u c => u.cutDrive c) (s.OnlyChans ·) (fun _ _ y => y.Cut) (fun _ _ h => h.trans rfl)
    (fun t c _ => by simp [State.cutDrive, ChanSt.Cut]) (fun t c k hk => State.ch_setCh_ne _ _ hk) l hl s rfl

theorem State.cutAllDrives_chans (s : State) : s.OnlyChans s.cutAllDrives ∧ ∀ c < 384, (s.cutAllDrives.ch c).drive = .off := by
  obtain ⟨honly, hcut, -⟩ := s.cutDrives (List.range 384) List.nodup_range
  exact ⟨honly, fun c hc => (hcut c (List.mem_range.mpr hc)).1⟩

/-! ### Full drive (R392) -/

/-- HANDOVER_RAMP_FULL at the end of the ramp: every channel whose ramp is due is on at its target, and nothing but channels that ramped changes. -/
theorem execHandoverRampFull_due (b : Fin 24) (s : State) (hr : s.pair.ramps.get (fun _ => 0) b ≠ 0)
    (hn : s.pair.ramps.get (fun _ => 0) b + 3 ≤ s.now) :
    ∃ t, execHandoverRampFull b s = .next t
      ∧ (∀ k ∈ bankChans b, (s.ch k).drive = .rampUp → (s.ch k).due ≤ s.now → (t.ch k).drive = .on ∧ (t.ch k).level = (s.ch k).target)
      ∧ (∀ k, (s.ch k).drive ≠ .rampUp → t.ch k = s.ch k) ∧ s.OnlyChans t := by
  refine ⟨_, if_pos ⟨hr, hn⟩, ?_⟩
  obtain ⟨honly, hin, hout⟩ := State.foldl_ch
    (fun t c => if (t.ch c).drive = .rampUp ∧ (t.ch c).due ≤ t.now then t.fullDrive c else t) (s.OnlyChans ·)
    (fun _ x y => (x.drive = .rampUp → x.due ≤ s.now → y.drive = .on ∧ y.level = x.target) ∧ (x.drive ≠ .rampUp → y = x))
    (fun t c h => by
      split
      · exact h.trans rfl
      · exact h)
    (fun t c h => by
      rw [h.now]
      split
      next hdue => exact ⟨fun _ _ => by simp [State.fullDrive], fun hne => absurd hdue.1 hne⟩
      next hdue => exact ⟨fun hd ht => absurd ⟨hd, ht⟩ hdue, fun _ => rfl⟩)
    (fun t c k hk => by
      split
      · exact State.ch_setCh_ne _ _ hk
      · rfl)
    (bankChans b) (bankChans_nodup b) s rfl
  refine ⟨fun k hk => (hin k hk).1, fun k hk => ?_, honly⟩
  by_cases hmem : k ∈ bankChans b
  · exact (hin k hmem).2 hk
  · exact hout k hmem

/-! ### Drives removed at a handover (R395, R396) -/

/-- The hub as it hands a bank over at half slot c, before its drives are removed: the HANDOVER window opens and the bank's ramp is forgotten. -/
def State.handOut (s : State) (b c : Nat) : State :=
  { s.openWindow b (c / 2) with
    pair := { s.pair with handed := s.pair.handed.set (fun _ => 0) b (c + 1), ramps := s.pair.ramps.set (fun _ => 0) b 0 } }

/-- The hub as it takes a bank over at half slot c: the HANDOVER window opens, and its end is noted. -/
def State.handIn (s : State) (b c : Nat) : State :=
  { s.openWindow b (c / 2) with
    pair := { s.pair with handed := s.pair.handed.set (fun _ => 0) b (c + 1), windowEnd := s.pair.windowEnd.set (fun _ => 0) b (c / 2 + 64) } }

theorem State.handOut_handed (s : State) (b c : Nat) : (s.handOut b c).pair.handed.get (fun _ => 0) b = c + 1 := by
  simp [State.handOut]

theorem State.handIn_handed (s : State) (b c : Nat) : (s.handIn b c).pair.handed.get (fun _ => 0) b = c + 1 := by
  simp [State.handIn]

theorem State.handIn_windowEnd (s : State) (b c : Nat) : (s.handIn b c).pair.windowEnd.get (fun _ => 0) b = c / 2 + 64 := by
  simp [State.handIn]

theorem State.openWindow_hand (s : State) (b x : Nat) : ((s.openWindow b x).bk b).hand = (x, some (x + 63)) :: (s.bk b).hand :=
  congrArg BankSt.hand (State.bk_setBk_self s b _)

section
variable {b : Fin 24} {s : State} {h port : Nat} {out : Bool} {reason : Nat}

theorem execDriveRemoval_early (hp : s.pair.pend = some (h, port, out, reason))
    (hd : s.handoverWaits = true ∨ 2 * s.now + 1 < s.handoverC b h ∨ s.pair.handed.get (fun _ => 0) b ≠ 0) : execDriveRemoval b s = .next s := by
  unfold execDriveRemoval
  rw [hp]
  exact if_pos hd

theorem execDriveRemoval_due (hp : s.pair.pend = some (h, port, out, reason)) (hw : s.handoverWaits = false)
    (hc : s.handoverC b h ≤ 2 * s.now + 1) (hh : s.pair.handed.get (fun _ => 0) b = 0) :
    execDriveRemoval b s = .next (if out then (bankChans b).foldl (fun t c => t.cutDrive c) (s.handOut b (s.handoverC b h))
      else s.handIn b (s.handoverC b h)) := by
  have hd : ¬ (s.handoverWaits = true ∨ 2 * s.now + 1 < s.handoverC b h ∨ s.pair.handed.get (fun _ => 0) b ≠ 0) := by
    simp [hw, hh]
    omega
  unfold execDriveRemoval
  rw [hp]
  refine (if_neg hd).trans ?_
  cases out <;> rfl

/-- DRIVE_REMOVAL at c_b: the HANDOVER window opens; the outgoing hub removes the bank's drives, the incoming one notes the end of the window. -/
theorem driveRemoval_due (hp : s.pair.pend = some (h, port, out, reason)) (hw : s.handoverWaits = false)
    (hc : s.handoverC b h ≤ 2 * s.now + 1) (hh : s.pair.handed.get (fun _ => 0) b = 0) :
    ∃ t, execDriveRemoval b s = .next t ∧ t.pair.handed.get (fun _ => 0) b = s.handoverC b h + 1
      ∧ (t.bk b).hand = (s.handoverC b h / 2, some (s.handoverC b h / 2 + 63)) :: (s.bk b).hand
      ∧ (out = true → (∀ k ∈ bankChans b, (t.ch k).Cut) ∧ ∀ k, k ∉ bankChans b → t.ch k = s.ch k)
      ∧ (out = false → t.chans = s.chans ∧ t.pair.windowEnd.get (fun _ => 0) b = s.handoverC b h / 2 + 64) := by
  refine ⟨_, execDriveRemoval_due hp hw hc hh, ?_⟩
  generalize s.handoverC b h = c
  cases out with
  | true =>
    obtain ⟨honly, hcut, hout⟩ := State.cutDrives (bankChans b) (bankChans_nodup b) (s.handOut b c)
    refine ⟨?_, ?_, fun _ => ⟨hcut, hout⟩, nofun⟩
    · exact (congrArg (fun p : PairSt => p.handed.get (fun _ => 0) b) honly.pair).trans (s.handOut_handed b c)
    · exact (congrArg BankSt.hand (honly.bk b)).trans (s.openWindow_hand b _)
  | false => exact ⟨s.handIn_handed b c, s.openWindow_hand b _, nofun, fun _ => ⟨rfl, s.handIn_windowEnd b c⟩⟩

end

/-! ### The handover ramp (R382, R392) -/

theorem State.effF_setF_addr (s : State) (f g : Fld) (v : Nat) (h : g.addr ≠ f.addr) : (s.setF f v).effF g = s.effF g := by
  rw [State.effF, State.eff, State.setF_effOld, State.reg_setF_ne s f v h]
  rfl

/-- A field of a bank's settings in force does not change with a status word of a channel. -/
theorem State.exMode_setStatus (s : State) (b c : Nat) (f : Fld) (v : Nat) (hf : f.addr = Reg.CH_STATUS c) :
    (s.setF f v).exMode b = s.exMode b :=
  s.effF_setF_addr f _ v (by simp only [hf, Reg.BANK_CFG_EXMODE, Reg.BANK_CFG, Reg.CH_STATUS]; omega)

/-- What a ramp of bank b reads beside the channel, and what it leaves: the mirror and the handover's state, the clock, the banks and EXMODE. -/
def State.SameRamp (b : Nat) (s t : State) : Prop := t.pair = s.pair ∧ t.clk = s.clk ∧ t.banks = s.banks ∧ t.exMode b = s.exMode b

theorem State.SameRamp.trans {b : Nat} {s t u : State} (h : s.SameRamp b t) (h' : t.SameRamp b u) : s.SameRamp b u :=
  ⟨h'.1.trans h.1, h'.2.1.trans h.2.1, h'.2.2.1.trans h.2.2.1, h'.2.2.2.trans h.2.2.2⟩

theorem State.setCh_sameRamp (b : Nat) (s : State) (c : Nat) (x : ChanSt) : s.SameRamp b (s.setCh c x) := ⟨rfl, rfl, rfl, rfl⟩

theorem State.setStatus_sameRamp (b : Nat) (s : State) (c : Nat) (f : Fld) (v : Nat) (hf : f.addr = Reg.CH_STATUS c) :
    s.SameRamp b (s.setF f v) := ⟨rfl, rfl, rfl, s.exMode_setStatus b c f v hf⟩

/-- The step of State.rampBank for one channel. -/
def State.rampChan (s : State) (b c : Nat) : State :=
  if s.mirF (Reg.CH_EXCFG_EXEN c) = 0 ∨ s.exMode b = 0 then s
  else if s.mirF (Reg.CH_STATUS_EX_LATCH c) = 1 then
    ((s.setCh c { s.ch c with drive := .latched }).setF (Reg.CH_STATUS_EX_LATCH c) 1).setF (Reg.CH_STATUS_DRIVE_OFF c) 1
  else if s.mirF (Reg.CH_STATUS_DRIVE_OFF c) = 1 then
    (s.setCh c { s.ch c with drive := .removed, retryAt := some (s.mir 4 c).toNat }).setF (Reg.CH_STATUS_DRIVE_OFF c) 1
  else s.rampDrive c

/-- The hub at the start of a bank's ramp, before its channels: the slot is noted and the pair factor is 1. -/
def State.rampStart (s : State) (b : Nat) : State :=
  let s0 : State := { s with pair := { s.pair with ramps := s.pair.ramps.set (fun _ => 0) b (s.now + 1) } }
  s0.setBk b { s0.bk b with factor := 1048576 }

theorem State.rampBank_eq (s : State) (b : Nat) : s.rampBank b = (bankChans b).foldl (fun t c => t.rampChan b c) (s.rampStart b) := rfl

theorem State.rampChan_sameRamp (b : Nat) (s : State) (c : Nat) : s.SameRamp b (s.rampChan b c) := by
  have hset := fun (t : State) (f : Fld) (v : Nat) (hf : f.addr = Reg.CH_STATUS c) => t.setStatus_sameRamp b c f v hf
  unfold State.rampChan
  split
  · exact ⟨rfl, rfl, rfl, rfl⟩
  · split
    · exact ((s.setCh_sameRamp b c _).trans (hset _ (Reg.CH_STATUS_EX_LATCH c) 1 rfl)).trans (hset _ (Reg.CH_STATUS_DRIVE_OFF c) 1 rfl)
    · split
      · exact (s.setCh_sameRamp b c _).trans (hset _ (Reg.CH_STATUS_DRIVE_OFF c) 1 rfl)
      · exact ((s.setCh_sameRamp b c _).trans (hset _ (Reg.CH_STATUS_DRIVE_OFF c) 0 rfl)).trans (hset _ (Reg.CH_STATUS_EX_LATCH c) 0 rfl)

theorem State.rampChan_ch_ne (s : State) (b c k : Nat) (h : k ≠ c) : (s.rampChan b c).ch k = s.ch k := by
  unfold State.rampChan
  split
  · rfl
  · split
    · simp [State.ch_setCh_ne _ _ h]
    · split
      · simp [State.ch_setCh_ne _ _ h]
      · simp [State.rampDrive, State.ch_setCh_ne _ _ h]

/-- What the start of a ramp in state s makes of channel c, which was x: nothing where the mirror does not drive it, latched or in its hold-off
as mirrored, else ramping for four slots. -/
structure State.RampStarts (s : State) (c : Nat) (x y : ChanSt) : Prop where
  undriven : s.mirF (Reg.CH_EXCFG_EXEN c) = 0 → y = x
  latched  : s.mirF (Reg.CH_EXCFG_EXEN c) = 1 → s.mirF (Reg.CH_STATUS_EX_LATCH c) = 1 → y.drive = .latched
  removed  : s.mirF (Reg.CH_EXCFG_EXEN c) = 1 → s.mirF (Reg.CH_STATUS_EX_LATCH c) = 0 → s.mirF (Reg.CH_STATUS_DRIVE_OFF c) = 1 →
    y.drive = .removed ∧ y.retryAt = some (s.mir 4 c).toNat
  ramps    : s.mirF (Reg.CH_EXCFG_EXEN c) = 1 → s.mirF (Reg.CH_STATUS_EX_LATCH c) = 0 → s.mirF (Reg.CH_STATUS_DRIVE_OFF c) = 0 →
    y.drive = .rampUp ∧ y.due = s.now + 4

theorem State.rampChan_starts (s : State) (b c : Nat) (hex : s.exMode b ≠ 0) : s.RampStarts c (s.ch c) ((s.rampChan b c).ch c) := by
  unfold State.rampChan
  by_cases hen : s.mirF (Reg.CH_EXCFG_EXEN c) = 0
  · rw [if_pos (.inl hen)]
    exact ⟨fun _ => rfl, by simp [hen], by simp [hen], by simp [hen]⟩
  rw [if_neg (not_or.mpr ⟨hen, hex⟩)]
  by_cases hlatch : s.mirF (Reg.CH_STATUS_EX_LATCH c) = 1
  · rw [if_pos hlatch]
    exact ⟨fun h => absurd h hen, by simp, by simp [hlatch], by simp [hlatch]⟩
  rw [if_neg hlatch]
  by_cases hoff : s.mirF (Reg.CH_STATUS_DRIVE_OFF c) = 1
  · rw [if_pos hoff]
    exact ⟨fun h => absurd h hen, fun _ h => absurd h hlatch, by simp, by simp [hoff]⟩
  · rw [if_neg hoff]
    exact ⟨fun h => absurd h hen, fun _ h => absurd h hlatch, fun _ _ h => absurd h hoff, by simp [State.rampDrive]⟩

/-- The judgement of a channel depends on the mirror and the clock only. -/
theorem State.SameRamp.starts {b c : Nat} {s t : State} {x y : ChanSt} (h : s.SameRamp b t) (ht : t.RampStarts c x y) : s.RampStarts c x y := by
  obtain ⟨hpair, hclk, -, -⟩ := h
  have hmir : ∀ f, t.mirF f = s.mirF f := fun f => by simp only [State.mirF, State.mir, hpair]
  have hword : t.mir 4 c = s.mir 4 c := by simp only [State.mir, hpair]
  have hnow : t.now = s.now := congrArg ClockSt.slot hclk
  obtain ⟨hundriven, hlatched, hremoved, hramps⟩ := ht
  simp only [hmir, hword, hnow] at hundriven hlatched hremoved hramps
  exact ⟨hundriven, hlatched, hremoved, hramps⟩

theorem State.rampStart_starts {b c : Nat} {s : State} {x y : ChanSt} (h : (s.rampStart b).RampStarts c x y) : s.RampStarts c x y :=
  ⟨h.undriven, h.latched, h.removed, h.ramps⟩

/-- The ramp of a bank: its start is noted, the factor is 1, its channels are judged by the mirror where the bank is excited, the others stay. -/
theorem State.rampBank_spec (s : State) (b : Nat) :
    (s.rampBank b).pair.ramps.get (fun _ => 0) b = s.now + 1 ∧ ((s.rampBank b).bk b).factor = 1048576
      ∧ (s.exMode b ≠ 0 → ∀ k ∈ bankChans b, s.RampStarts k (s.ch k) ((s.rampBank b).ch k))
      ∧ ∀ k, k ∉ bankChans b → (s.rampBank b).ch k = s.ch k := by
  obtain ⟨⟨hpair, -, hbanks, -⟩, hin, hout⟩ := State.foldl_ch (fun t c => t.rampChan b c) ((s.rampStart b).SameRamp b)
    (fun c x y => (s.rampStart b).exMode b ≠ 0 → (s.rampStart b).RampStarts c x y)
    (fun t c h => h.trans (t.rampChan_sameRamp b c))
    (fun t c h hex => h.starts (t.rampChan_starts b c (by rwa [h.2.2.2])))
    (fun t c k hk => t.rampChan_ch_ne b c k hk) (bankChans b) (bankChans_nodup b) (s.rampStart b) ⟨rfl, rfl, rfl, rfl⟩
  rw [← State.rampBank_eq] at hpair hbanks hin hout
  refine ⟨?_, ?_, fun hex k hk => State.rampStart_starts (hin k hk hex), hout⟩
  · rw [hpair]
    simp [State.rampStart]
  · rw [State.bk, hbanks]
    exact congrArg BankSt.factor (State.bk_setBk_self _ b _)

section
variable {b : Fin 24} {s : State}

theorem execHandoverRampStart_waits (hw : s.handoverWaits = true) : execHandoverRampStart b s = .next s := if_pos (.inl hw)

theorem execHandoverRampStart_handover {h port reason : Nat} (hp : s.pair.pend = some (h, port, false, reason)) (hw : s.handoverWaits = false)
    (hc : ceilDiv (s.handoverC b h) 2 + 2 ≤ s.now) (hr : s.pair.ramps.get (fun _ => 0) b = 0) :
    execHandoverRampStart b s = .next (s.rampBank b) := by
  unfold execHandoverRampStart
  rw [if_neg (by simp [hw, hr]), hp]
  exact if_pos ⟨rfl, hc⟩

theorem execHandoverRampStart_switchover {d : Nat} (hp : s.pair.pend = none) (ht : s.pair.tookAt = some d) (hw : s.handoverWaits = false)
    (hd : d ≤ s.now) (hrole : s.pairRoleNow = 1) (hr : s.pair.ramps.get (fun _ => 0) b = 0) :
    execHandoverRampStart b s = .next (s.rampBank b) := by
  unfold execHandoverRampStart
  rw [if_neg (by simp [hw, hr]), hp, ht]
  exact if_pos ⟨hd, hrole⟩

end

/-! ### Transitions and overlay activations that become pending or end (R33, R41, R57)

Beside the event log they write CFG_STATUS, a cancelled transition SYS_MODE and UPD_STAT too; no channel is touched. -/

/-- The channels and what stands of a mode change are the same in s and t. -/
@[simp] abbrev State.SameDrives (s t : State) : Prop := t.chans = s.chans ∧ t.mode = s.mode

theorem State.SameDrives.trans {s t u : State} (h : s.SameDrives t) (h' : t.SameDrives u) : s.SameDrives u :=
  ⟨h'.1.trans h.1, h'.2.trans h.2⟩

theorem State.squashMode_engs (s : State) (m : Nat) : ∃ y, s.squashMode m = { s with engs := y } := by
  unfold State.squashMode
  generalize s.activeEngines = l
  induction l generalizing s with
  | nil => exact ⟨s.engs, rfl⟩
  | cons x l ih =>
    rw [List.foldl_cons]
    dsimp only
    split
    · obtain ⟨y, hy⟩ := ih (s.setEng (s.host x) _)
      exact ⟨y, hy⟩
    · exact ih s

theorem State.squashMode_drives (s : State) (m : Nat) : s.SameDrives (s.squashMode m) := by
  obtain ⟨y, hy⟩ := s.squashMode_engs m
  rw [hy]
  exact ⟨rfl, rfl⟩

theorem State.reg_squashMode (s : State) (m a : Nat) : (s.squashMode m).reg a = s.reg a := by
  obtain ⟨y, hy⟩ := s.squashMode_engs m
  rw [hy]
  rfl

theorem State.squashMode_evt (s : State) (m : Nat) : (s.squashMode m).evt = s.evt := by
  obtain ⟨y, hy⟩ := s.squashMode_engs m
  rw [hy]

section
variable (s : State) (target : Nat) (at_ : Option Nat)

theorem State.pendAuto_cases : s.pendAuto target at_ = s ∨ ∃ k, s.pendAuto target at_ = s.pendOverlay k at_ 7 true := by
  unfold State.pendAuto
  split
  · exact .inr ⟨_, rfl⟩
  · exact .inl rfl

/-- What scheduling the automatic activation of a transition does: nothing, a note for later, or a pending activation, before which an explicit one
may be cancelled. -/
theorem State.scheduleAuto_cases :
    s.scheduleAuto target at_ = s ∨ s.scheduleAuto target at_ = { s with cfg := { s.cfg with autoNext := true } }
      ∨ s.scheduleAuto target at_ = s.pendAuto target at_ ∨ s.scheduleAuto target at_ = s.cancelOverlay.pendAuto target at_ := by
  unfold State.scheduleAuto
  extract_lets earlier
  split
  · split
    · exact .inr (.inl rfl)
    · split
      · exact .inr (.inr (.inr rfl))
      · exact .inl rfl
  · exact .inr (.inr (.inl rfl))

theorem State.pendAuto_drives : s.SameDrives (s.pendAuto target at_) := by
  obtain h | ⟨k, h⟩ := s.pendAuto_cases target at_ <;> simp [h, State.pendOverlay]

theorem State.cancelOverlay_drives : s.SameDrives s.cancelOverlay := ⟨State.log_chans _ _ _ _, State.log_mode _ _ _ _⟩

theorem State.scheduleAuto_drives : s.SameDrives (s.scheduleAuto target at_) := by
  obtain h | h | h | h := s.scheduleAuto_cases target at_ <;> rw [h]
  · exact ⟨rfl, rfl⟩
  · exact ⟨rfl, rfl⟩
  · exact s.pendAuto_drives target at_
  · exact s.cancelOverlay_drives.trans (s.cancelOverlay.pendAuto_drives target at_)

theorem State.pendAuto_evt : (s.pendAuto target at_).evt = s.evt := by
  obtain h | ⟨k, h⟩ := s.pendAuto_cases target at_
  · rw [h]
  · rw [h]
    rfl

/-- An automatic activation is logged only with the explicit one that it cancels. -/
theorem State.scheduleAuto_evt : (s.scheduleAuto target at_).evt = s.evt ∨ (s.scheduleAuto target at_).evt = s.cancelOverlay.evt := by
  obtain h | h | h | h := s.scheduleAuto_cases target at_ <;> rw [h]
  · exact .inl rfl
  · exact .inl rfl
  · exact .inl (s.pendAuto_evt target at_)
  · exact .inr (s.cancelOverlay.pendAuto_evt target at_)

variable {a : Nat} (hlog : evtReg a = false) (ha : a ≠ Reg.CFG_STATUS)

include ha in
theorem State.reg_dropOverlay : s.dropOverlay.reg a = s.reg a :=
  (State.reg_setF_ne _ Reg.CFG_STATUS_OVL_PEND 15 ha).trans (State.reg_setF_ne s Reg.CFG_STATUS_PENDV 0 ha)

include ha in
theorem State.reg_pendAuto : (s.pendAuto target at_).reg a = s.reg a := by
  obtain h | ⟨k, h⟩ := s.pendAuto_cases target at_ <;> rw [h]
  exact (State.reg_setF_ne _ Reg.CFG_STATUS_OVL_PEND k ha).trans (State.reg_setF_ne s Reg.CFG_STATUS_PENDV 1 ha)

include hlog ha in
theorem State.reg_scheduleAuto : (s.scheduleAuto target at_).reg a = s.reg a := by
  have hcancel : s.cancelOverlay.reg a = s.reg a := (State.reg_log _ _ _ _ hlog).trans (s.reg_dropOverlay ha)
  obtain h | h | h | h := s.scheduleAuto_cases target at_ <;> rw [h]
  · rfl
  · exact s.reg_pendAuto target at_ ha
  · exact (s.cancelOverlay.reg_pendAuto target at_ ha).trans hcancel

include ha in
theorem State.reg_dropAuto : s.dropAuto.reg a = s.reg a := by
  unfold State.dropAuto
  dsimp only
  split
  · exact State.reg_dropOverlay _ ha
  · rfl

end

theorem State.reg_dropActivation (s : State) {a : Nat} (ha : a ≠ Reg.UPD_STAT) : s.dropActivation.reg a = s.reg a := by
  unfold State.dropActivation
  split
  · exact (State.reg_setF_ne _ Reg.UPD_STAT_SHADOW 0 ha).trans (State.reg_setF_ne s Reg.UPD_STAT_TPEND 0 ha)
  · rfl

theorem State.reg_cancelMode (s : State) {a : Nat} (hlog : evtReg a = false) (hcfg : a ≠ Reg.CFG_STATUS) (hupd : a ≠ Reg.UPD_STAT)
    (hmode : a ≠ Reg.SYS_MODE) : s.cancelMode.reg a = s.reg a := by
  unfold State.cancelMode
  split
  · extract_lets at_ s0 s1 _ s2 s3
    have h0 : s0.reg a = s.reg a := by
      unfold s0
      split
      · exact s.reg_dropActivation hupd
      · rfl
    have h3 : s3.reg a = s.reg a :=
      calc s3.reg a = s2.reg a := State.reg_log _ _ _ _ hlog
        _ = (s0.setF Reg.SYS_MODE_PENDV 0).reg a := State.reg_dropAuto _ hcfg
        _ = s0.reg a := State.reg_setF_ne _ _ _ hmode
        _ = s.reg a := h0
    clear_value s3 at_
    split
    · exact (State.reg_squashMode _ _ _).trans h3
    · exact h3
  · rfl

theorem State.cancelMode_chans (s : State) : s.cancelMode.chans = s.chans := by
  unfold State.cancelMode
  split
  · extract_lets at_ s0 s1 _ s2 s3
    have h0 : s0.chans = s.chans := by
      unfold s0 State.dropActivation
      split
      · split <;> simp
      · rfl
    have h1 : s1.chans = s0.chans := by
      unfold s1 State.dropAuto
      dsimp only
      split <;> simp [State.dropOverlay]
    have h3 : s3.chans = s.chans := (State.log_chans _ _ _ _).trans (h1.trans h0)
    clear_value s3 at_
    split
    · exact (State.squashMode_drives _ _).1.trans h3
    · exact h3
  · rfl

theorem State.cancelMode_of_none (s : State) (h : s.getF Reg.SYS_MODE_PENDV = 0) : s.cancelMode = s := by
  simp [State.cancelMode, State.flag, h]

theorem State.reg_pendMode (s : State) (target : Nat) (at_ : Option Nat) (port cause : Nat) {a : Nat} (hlog : evtReg a = false)
    (hcfg : a ≠ Reg.CFG_STATUS) (hmode : a ≠ Reg.SYS_MODE) : (s.pendMode target at_ port cause).reg a = s.reg a :=
  (State.reg_scheduleAuto _ target at_ hlog hcfg).trans
    ((State.reg_setF_ne _ Reg.SYS_MODE_PEND target hmode).trans (State.reg_setF_ne s Reg.SYS_MODE_PENDV 1 hmode))

/-- A transition that becomes pending: the fields of SYS_MODE, its slot, and the channels as before. -/
theorem State.pendMode_spec (s : State) (target : Nat) (at_ : Option Nat) (port cause : Nat) :
    (s.pendMode target at_ port cause).getF Reg.SYS_MODE_PENDV = 1 ∧ (s.pendMode target at_ port cause).getF Reg.SYS_MODE_PEND = target % 8
      ∧ (s.pendMode target at_ port cause).mode.pendAt = at_ ∧ (s.pendMode target at_ port cause).chans = s.chans := by
  have hreg : (s.pendMode target at_ port cause).reg Reg.SYS_MODE
      = ((s.setF Reg.SYS_MODE_PENDV 1).setF Reg.SYS_MODE_PEND target).reg Reg.SYS_MODE :=
    State.reg_scheduleAuto _ target at_ (by decide) (by decide)
  obtain ⟨hchans, hmode⟩ := State.scheduleAuto_drives { (s.setF Reg.SYS_MODE_PENDV 1).setF Reg.SYS_MODE_PEND target with
    mode := { s.mode with pendAt := at_, pendPort := port, pendCause := cause } } target at_
  refine ⟨?_, ?_, congrArg ModeSt.pendAt hmode, hchans⟩
  · refine (congrArg (fun w => bits w 9 9) hreg).trans ?_
    exact (State.getF_setF_beside _ Reg.SYS_MODE_PEND Reg.SYS_MODE_PENDV target rfl (by decide) (by decide)).trans
      (State.getF_setF_self s Reg.SYS_MODE_PENDV 1 (by decide))
  · exact (congrArg (fun w => bits w 8 6) hreg).trans (State.getF_setF_self _ Reg.SYS_MODE_PEND target (by decide))

/-! ### A record that a second one follows -/

/-- The record of a condition with at most two detail items. -/
def State.recordOf (s : State) (c : Cond) (u : Nat) (l : List W64) : EventRec :=
  { cls := c.rank.1, level := c.rank.2, code := c.code, unit := unitIx u, partner := false, notify := false, cont := false
    seq := s.evt.nextSeq, slot := s.logSlot, d2 := l.getD 0 0, d3 := l.getD 1 0 }

theorem State.log_ring (s : State) (c : Cond) (u : Nat) (l : List W64) (hl : l.length ≤ 2) :
    (s.log c u l).evt.ring = (s.recordOf c u l :: s.evt.ring).take 1024 := by
  have hcont : l.drop 2 = [] := List.drop_eq_nil_iff.mpr hl
  unfold State.log State.logTo
  extract_lets r s1
  have hevt : s1.evt = s.evt := by
    unfold s1
    split
    · rfl
    · split <;> rfl
  rw [hcont, State.appendCont, (State.appendRec_ring _ _ _).1, hevt]
  rfl

/-- A condition logged stands in the log also after a second one. -/
theorem State.logged_log_log {s t : State} {c c' : Cond} {u u' : Nat} {l l' : List W64} (hl : l.length ≤ 2) (hl' : l'.length ≤ 2)
    (ht : t.evt = (s.log c u l).evt) : Logged s (t.log c' u' l') c u (l.getD 0 0) (l.getD 1 0) := by
  refine ⟨s.recordOf c u l, ?_, rfl, rfl, rfl, rfl, rfl, rfl, rfl, rfl, rfl⟩
  rw [State.log_ring _ _ _ _ hl', ht, State.log_ring _ _ _ _ hl]
  simp

theorem Logged.of_evt {s t t' : State} {c : Cond} {u : Nat} {d2 d3 : W64} (h : Logged s t c u d2 d3) (hevt : t'.evt = t.evt) :
    Logged s t' c u d2 d3 := by
  unfold Logged at h ⊢
  rwa [hevt]

/-- A condition logged stands in the log also after a transition has become pending, with the overlay activation that this may cancel. -/
theorem State.logged_log_pendMode (s : State) (c : Cond) (u : Nat) (l : List W64) (hl : l.length ≤ 2) (t : State)
    (ht : t.evt = (s.log c u l).evt) (target : Nat) (at_ : Option Nat) (port cause : Nat) :
    Logged s (t.pendMode target at_ port cause) c u (l.getD 0 0) (l.getD 1 0) := by
  unfold State.pendMode
  extract_lets s1 _ s2
  obtain hevt | hevt := s2.scheduleAuto_evt target at_
  · exact (State.logged_log s c u l (by omega)).of_evt (hevt.trans ht)
  · exact (State.logged_log_log (t := s2.dropOverlay) (l' := [_, _]) hl (Nat.le_refl 2) ht).of_evt hevt

/-! ### Contention (R393) -/

/-- The hub after contention on a bank: no drive stands, and Belay is pending for the next slot. -/
def State.contended (s : State) (b : Nat) : State :=
  let s1 := (s.cutAllDrives.cancelMode.log .PAIR_CONTENTION b [BitVec.ofNat 64 s.now]).setF Reg.PAIR_STAT_CONTEND 1
  let s2 := (s1.pendMode 5 (some (s.now + 1)) 7 7).squashMode (s.now + 1)
  { s2 with pair := { s2.pair with tookAt := none } }

theorem execPairContention_hit (b : Fin 24) (s : State) (d : Nat) (ht : s.pair.tookAt = some d) (hrole : s.pairRoleNow = 1)
    (hnow : s.now < d + 2 * Nat.max 64 (s.carrierK b)) :
    let driven := (bankChans b).filter (fun c => (s.ch c).drive.driving)
    driven ≠ [] → driven.length ≤ 2 * (driven.filter (fun c => decide (4 ≤ (s.ch c).limRun))).length →
    execPairContention b s = .next (s.contended b) := by
  intro driven hne hlen
  unfold execPairContention
  rw [ht]
  exact if_pos ⟨hrole, hnow, hne, hlen⟩

theorem State.OnlyChans.getF {s t : State} (h : s.OnlyChans t) (f : Fld) : t.getF f = s.getF f := by rw [← h]; rfl

theorem State.OnlyChans.evt {s t : State} (h : s.OnlyChans t) : t.evt = s.evt := by rw [← h]

theorem State.OnlyChans.logSlot {s t : State} (h : s.OnlyChans t) : t.logSlot = s.logSlot := by rw [← h]; rfl

theorem State.contended_drives (s : State) (b c : Nat) (hc : c < 384) : ((s.contended b).ch c).drive = .off := by
  have hchans : (s.contended b).chans = s.cutAllDrives.chans :=
    ((State.squashMode_drives _ _).1.trans (State.pendMode_spec _ _ _ _ _).2.2.2).trans ((State.log_chans _ _ _ _).trans (State.cancelMode_chans _))
  rw [State.ch, hchans]
  exact s.cutAllDrives_chans.2 c hc

/-- After contention the hub says so, and Belay is pending for the next slot. -/
theorem State.contended_mode (s : State) (b : Nat) :
    (s.contended b).getF Reg.PAIR_STAT_CONTEND = 1 ∧ (s.contended b).getF Reg.SYS_MODE_PENDV = 1
      ∧ (s.contended b).getF Reg.SYS_MODE_PEND = 5 ∧ (s.contended b).mode.pendAt = some (s.now + 1) := by
  have hreg : ∀ a, (s.contended b).reg a = (State.pendMode _ 5 (some (s.now + 1)) 7 7).reg a := fun a => State.reg_squashMode _ _ a
  obtain ⟨hpendv, hpend, hat, -⟩ := State.pendMode_spec
    ((s.cutAllDrives.cancelMode.log .PAIR_CONTENTION b [BitVec.ofNat 64 s.now]).setF Reg.PAIR_STAT_CONTEND 1) 5 (some (s.now + 1)) 7 7
  refine ⟨?_, ?_, ?_, ?_⟩
  · rw [State.getF, hreg, State.reg_pendMode _ _ _ _ _ (by decide) (by decide) (by decide)]
    exact State.getF_setF_self _ Reg.PAIR_STAT_CONTEND 1 (by decide)
  · rwa [State.getF, hreg]
  · rwa [State.getF, hreg]
  · exact (congrArg ModeSt.pendAt (State.squashMode_drives _ _).2).trans hat

/-- Contention found while no transition is pending stands in the log as a record of that state. -/
theorem State.logged_contended (s : State) (b : Nat) (h : s.getF Reg.SYS_MODE_PENDV = 0) :
    Logged s (s.contended b) .PAIR_CONTENTION b (BitVec.ofNat 64 s.now) 0 := by
  obtain ⟨honly, -⟩ := s.cutAllDrives_chans
  have hcancel : s.cutAllDrives.cancelMode = s.cutAllDrives := State.cancelMode_of_none _ (by rw [honly.getF, h])
  refine Logged.of_same (s' := s.cutAllDrives) ?_ honly.evt honly.logSlot
  refine (State.logged_log_pendMode _ _ b [BitVec.ofNat 64 s.now] (by simp) _ ?_ 5 (some (s.now + 1)) 7 7).of_evt (State.squashMode_evt _ _)
  rw [hcancel]
  rfl

/-! ### The takeover by a Second (R390 to R392) -/

/-- The words in which the mode and the pair's state stand after a takeover. -/
def takeoverWords : List Nat := [Reg.SYS_MODE, Reg.SYS_MODE_SLOT, Reg.PAIR_STAT, Reg.PAIR_HSLOT, Reg.PAIR_CNT]

theorem evtReg_of_mem_takeoverWords {a : Nat} (h : a ∈ takeoverWords) : evtReg a = false := by
  revert a
  decide

theorem takeoverWords_lt {a : Nat} (h : a ∈ takeoverWords) : a < 0x707 := by
  revert a
  decide

/-- The words of a takeover and what the pair's state notes of it are the same in s and t. -/
def State.SameTake (s t : State) : Prop :=
  (∀ a ∈ takeoverWords, t.reg a = s.reg a) ∧ t.pair.released = s.pair.released ∧ t.pair.tookAt = s.pair.tookAt

theorem State.SameTake.refl (s : State) : s.SameTake s := ⟨fun _ _ => rfl, rfl, rfl⟩

theorem State.SameTake.trans {s t u : State} (h : s.SameTake t) (h' : t.SameTake u) : s.SameTake u :=
  ⟨fun a ha => (h'.1 a ha).trans (h.1 a ha), h'.2.1.trans h.2.1, h'.2.2.trans h.2.2⟩

theorem State.SameTake.foldl {β : Type} (l : List β) (f : State → β → State) (s : State) (hf : ∀ t x, State.SameTake t (f t x)) :
    s.SameTake (l.foldl f s) := by
  induction l generalizing s with
  | nil => exact .refl s
  | cons x l ih => exact (hf s x).trans (ih (f s x))

theorem State.SameTake.setReg (s : State) (a : Nat) (v : W64) (ha : a ∉ takeoverWords) : s.SameTake (s.setReg a v) :=
  ⟨fun _ hb => State.reg_setReg_ne s v fun h => ha (h ▸ hb), rfl, rfl⟩

theorem State.SameTake.setF (s : State) (f : Fld) (v : Nat) (ha : f.addr ∉ takeoverWords) : s.SameTake (s.setF f v) := .setReg s _ _ ha

/-- The words of the blocks from 0x707 on are none of a takeover's. -/
theorem not_mem_takeoverWords {a : Nat} (h : 0x707 ≤ a) : a ∉ takeoverWords := fun ha => absurd (takeoverWords_lt ha) (Nat.not_lt.mpr h)

theorem State.SameTake.logTo (s : State) (d : Dest) (c : Cond) (u : Nat) (l : List W64) : s.SameTake (s.logTo d c u l) :=
  ⟨fun _ ha => State.reg_logTo s d c u l (evtReg_of_mem_takeoverWords ha), by rw [State.logTo_pair], by rw [State.logTo_pair]⟩

/-! What the hub does as it starts to send, to judge breaks, to trigger and to calibrate -/

theorem State.numberQueue_strms (s : State) (q : Nat) : ∃ y z, s.numberQueue q = { s with strms := y, queues := z } := by
  have hfold : ∀ (l : List Pkt) (r : List Pkt × State), ∃ y, (l.foldl (fun (a : List Pkt × State) p =>
      if p.seq = noSeq then
        let x := a.2.strmSt p.stream
        (a.1 ++ [{ p with seq := x.nextSeq }], a.2.setStrmSt p.stream { x with nextSeq := (x.nextSeq + 1) % 2 ^ 32 })
      else (a.1 ++ [p], a.2)) r).2 = { r.2 with strms := y } := by
    intro l
    induction l with
    | nil => exact fun r => ⟨r.2.strms, rfl⟩
    | cons p l ih =>
      intro r
      rw [List.foldl_cons]
      split
      · exact ih _
      · exact ih _
  obtain ⟨y, hy⟩ := hfold _ ([], s)
  unfold State.numberQueue
  dsimp only
  rw [hy]
  exact ⟨_, _, rfl⟩

theorem State.startSending_sameTake (s : State) : s.SameTake s.startSending := by
  unfold State.startSending
  extract_lets s1
  have h1 : s.SameTake s1 := by
    refine .foldl _ _ s fun t q => ?_
    split
    · exact .refl _
    · obtain ⟨y, z, h⟩ := t.numberQueue_strms q
      rw [h]
      exact ⟨fun _ _ => rfl, rfl, rfl⟩
  clear_value s1
  exact h1.trans ⟨fun _ _ => rfl, rfl, rfl⟩

theorem State.takeBreaks_sameTake (s : State) (d c : Nat) : s.SameTake (s.takeBreaks d c) := by
  have hset : ∀ (t : State) (x : ChanSt) (f : Fld), f.addr = Reg.CH_STATUS c → t.SameTake ((t.setCh c x).setF f 1) := fun t x f hf =>
    State.SameTake.trans (t := t.setCh c x) ⟨fun _ _ => rfl, rfl, rfl⟩
      (.setF _ _ _ (not_mem_takeoverWords (by simp only [hf, Reg.CH_STATUS]; omega)))
  unfold State.takeBreaks
  extract_lets add
  have hadd : ∀ (t : State) (f : Fld) (l : Lead), f.addr = Reg.CH_STATUS c → t.SameTake (add t f l) := by
    intro t f l hf
    unfold add
    split
    · exact hset t _ f hf
    · exact .refl _
  exact (hadd _ _ _ rfl).trans (hadd _ _ _ rfl)

theorem State.setTrg_sameTake (s : State) (u st : Nat) : s.SameTake (s.setTrg u st) := by
  have hput : ∀ (t : State) (f : Fld) (v : Nat), f.addr = Reg.CAP_STATUS → t.SameTake (t.setF f v) :=
    fun t f v hf => .setF t f v (by rw [hf]; decide)
  unfold State.setTrg
  exact (((State.SameTake.setF _ _ _ (not_mem_takeoverWords (by simp only [Reg.TRG_STAT_STATE, Reg.TRG_STAT]; omega))).trans
    (hput _ Reg.CAP_STATUS_ARMED _ rfl)).trans (hput _ Reg.CAP_STATUS_OPEN _ rfl)).trans (hput _ Reg.CAP_STATUS_REARM _ rfl)

theorem State.armAt_sameTake (s : State) (u i at_ : Nat) : s.SameTake (s.armAt u i at_) := by
  unfold State.armAt
  extract_lets old x s1
  have h1 : s.SameTake s1 := State.SameTake.trans (t := s.setUnit u x) ⟨fun _ _ => rfl, rfl, rfl⟩
    (.setF _ _ _ (not_mem_takeoverWords (by simp only [Reg.TRG_STAT_DESC, Reg.TRG_STAT]; omega)))
  split
  · exact h1.trans (s1.setTrg_sameTake u 2)
  · exact h1.trans (State.SameTake.trans (t := s1.setDescState i 1) ⟨fun _ _ => rfl, rfl, rfl⟩ (State.setTrg_sameTake _ u 1))

theorem State.arm_sameTake (s : State) (program : Bool) (port u i : Nat) : s.SameTake (s.arm program port u i).1 := by
  unfold State.arm
  split
  · exact .logTo s _ _ _ _
  · exact s.armAt_sameTake u i _

theorem State.evaluateDue_sameTake (s : State) (b : Nat) : s.SameTake (s.evaluateDue b) := by
  unfold State.evaluateDue State.makeDue
  dsimp only
  split
  · split
    · exact ⟨fun _ _ => rfl, rfl, rfl⟩
    · exact .setF s _ _ (by decide)
  · exact .refl _

/-! The takeover -/

/-- What the words of a takeover say: the mode m since slot d, the hub acting Leader since d after n switchovers. -/
structure State.TookOver (t : State) (m d n : Nat) : Prop where
  cur   : t.cur = m
  slot  : t.reg Reg.SYS_MODE_SLOT = BitVec.ofNat 64 d
  role  : t.getF Reg.PAIR_STAT_ROLE = 1
  hslot : t.reg Reg.PAIR_HSLOT = BitVec.ofNat 64 d
  count : t.getF Reg.PAIR_CNT_SWITCHOVERS = n

section
variable {s t : State} {m d n : Nat}

theorem State.TookOver.of_reg (h : s.TookOver m d n) (hreg : ∀ a ∈ takeoverWords, t.reg a = s.reg a) : t.TookOver m d n where
  cur := (congrArg (bits · 2 0) (hreg Reg.SYS_MODE (by decide))).trans h.cur
  slot := (hreg _ (by decide)).trans h.slot
  role := (congrArg (bits · 3 2) (hreg Reg.PAIR_STAT (by decide))).trans h.role
  hslot := (hreg _ (by decide)).trans h.hslot
  count := (congrArg (bits · 63 48) (hreg Reg.PAIR_CNT (by decide))).trans h.count

/-- The end of a proof leaves the other fields of PAIR_STAT. -/
theorem State.TookOver.setProof (h : s.TookOver m d n) (v : Nat) : (s.setF Reg.PAIR_STAT_PROOF v).TookOver m d n where
  cur := (s.getF_setF_addr _ Reg.SYS_MODE_CUR v (by decide)).trans h.cur
  slot := (s.reg_setF_ne _ v (by decide)).trans h.slot
  role := (s.getF_setF_beside Reg.PAIR_STAT_PROOF Reg.PAIR_STAT_ROLE v rfl (by decide) (by decide)).trans h.role
  hslot := (s.reg_setF_ne _ v (by decide)).trans h.hslot
  count := (s.getF_setF_addr _ Reg.PAIR_CNT_SWITCHOVERS v (by decide)).trans h.count

/-- A failed proof is counted beside the switchovers. -/
theorem State.TookOver.bumpProofFail (h : s.TookOver m d n) : (s.bump Reg.PAIR_CNT_PROOF_FAIL).TookOver m d n where
  cur := (s.getF_setF_addr Reg.PAIR_CNT_PROOF_FAIL Reg.SYS_MODE_CUR _ (by decide)).trans h.cur
  slot := (s.reg_bump_ne _ (by decide)).trans h.slot
  role := (s.getF_setF_addr Reg.PAIR_CNT_PROOF_FAIL Reg.PAIR_STAT_ROLE _ (by decide)).trans h.role
  hslot := (s.reg_bump_ne _ (by decide)).trans h.hslot
  count := (s.getF_setF_beside Reg.PAIR_CNT_PROOF_FAIL Reg.PAIR_CNT_SWITCHOVERS _ rfl (by decide) (by decide)).trans h.count

theorem State.TookOver.log (h : s.TookOver m d n) (c : Cond) (u : Nat) (l : List W64) : (s.log c u l).TookOver m d n :=
  h.of_reg fun _ ha => State.reg_log s c u l (evtReg_of_mem_takeoverWords ha)

end

theorem State.setMode_words (s : State) (m d cause : Nat) :
    (s.setMode m d cause).cur = m % 8 ∧ (s.setMode m d cause).reg Reg.SYS_MODE_SLOT = BitVec.ofNat 64 d
      ∧ (s.setMode m d cause).getF Reg.PAIR_CNT_SWITCHOVERS = s.getF Reg.PAIR_CNT_SWITCHOVERS := by
  have hlog : ∀ a, evtReg a = false → (s.setMode m d cause).reg a
      = (((s.setF Reg.SYS_MODE_CUR m).setF Reg.SYS_MODE_CAUSE cause).setReg Reg.SYS_MODE_SLOT (BitVec.ofNat 64 d)).reg a :=
    fun a ha => State.reg_log _ _ _ _ ha
  refine ⟨?_, ?_, ?_⟩
  · rw [State.cur, State.getF, hlog _ (by decide), State.reg_setReg_ne _ _ (by decide)]
    exact (State.getF_setF_beside _ Reg.SYS_MODE_CAUSE Reg.SYS_MODE_CUR cause rfl (by decide) (by decide)).trans
      (State.getF_setF_self s Reg.SYS_MODE_CUR m (by decide))
  · rw [hlog _ (by decide), State.reg_setReg_self]
  · rw [State.getF, hlog _ (by decide), State.reg_setReg_ne _ _ (by decide), State.reg_setF_ne _ _ _ (by decide),
      State.reg_setF_ne _ _ _ (by decide)]
    rfl

theorem State.mirroredMode_cases (s : State) : s.mirroredMode = 3 ∨ s.mirroredMode = 4 := by
  unfold State.mirroredMode
  dsimp only
  split
  next h => exact h
  · split
    next h => exact h
    · exact .inl rfl

theorem capAt_le (n v : Nat) : capAt n v ≤ n := by
  unfold capAt
  split <;> omega

/-- The role, the slot and the count of a takeover are written after the mode. -/
theorem State.tookOver_written (s : State) (d n : Nat) (hn : n ≤ 65535) (hslot : s.reg Reg.SYS_MODE_SLOT = BitVec.ofNat 64 d) :
    ((((((s.setF Reg.PAIR_STAT_ROLE 1).setF Reg.PAIR_STAT_HPEND 0).setReg Reg.PAIR_HSLOT (BitVec.ofNat 64 d)).setF
      Reg.PAIR_CNT_SWITCHOVERS n).setF Reg.PAIR_STAT_GUARD 0).TookOver s.cur d n) where
  cur := by
    simp only [State.cur]
    rw [State.getF_setF_addr _ Reg.PAIR_STAT_GUARD _ _ (by decide), State.getF_setF_addr _ Reg.PAIR_CNT_SWITCHOVERS _ _ (by decide),
      State.getF_setReg_addr _ _ _ (by decide), State.getF_setF_addr _ Reg.PAIR_STAT_HPEND _ _ (by decide),
      State.getF_setF_addr _ Reg.PAIR_STAT_ROLE _ _ (by decide)]
  slot := by
    rw [State.reg_setF_ne _ _ _ (by decide), State.reg_setF_ne _ _ _ (by decide), State.reg_setReg_ne _ _ (by decide),
      State.reg_setF_ne _ _ _ (by decide), State.reg_setF_ne _ _ _ (by decide), hslot]
  role := by
    rw [State.getF_setF_beside _ Reg.PAIR_STAT_GUARD Reg.PAIR_STAT_ROLE _ rfl (by decide) (by decide),
      State.getF_setF_addr _ Reg.PAIR_CNT_SWITCHOVERS _ _ (by decide), State.getF_setReg_addr _ _ _ (by decide),
      State.getF_setF_beside _ Reg.PAIR_STAT_HPEND Reg.PAIR_STAT_ROLE _ rfl (by decide) (by decide), State.getF_setF_self _ _ _ (by decide)]
    rfl
  hslot := by
    rw [State.reg_setF_ne _ _ _ (by decide), State.reg_setF_ne _ _ _ (by decide), State.reg_setReg_self]
  count := by
    rw [State.getF_setF_addr _ Reg.PAIR_STAT_GUARD _ _ (by decide), State.getF_setF_self _ _ _ (by decide)]
    exact Nat.mod_eq_of_lt (by simp only [Reg.PAIR_CNT_SWITCHOVERS]; omega)

/-- The count of switchovers after one more. -/
def State.nextSwitchovers (s : State) : Nat := capAt Reg.PAIR_CNT_SWITCHOVERS.max (s.getF Reg.PAIR_CNT_SWITCHOVERS + 1)

/-- The mode m entered at slot d, then the role, the slot and the count of a takeover. -/
theorem State.tookOver_entered (s : State) (m d p : Nat) (hm : m < 8) :
    ((((((((s.setMode m d 3).setF Reg.SYS_MODE_PRIOR p).setF Reg.PAIR_STAT_ROLE 1).setF Reg.PAIR_STAT_HPEND 0).setReg Reg.PAIR_HSLOT
      (BitVec.ofNat 64 d)).bump Reg.PAIR_CNT_SWITCHOVERS).setF Reg.PAIR_STAT_GUARD 0).TookOver m d s.nextSwitchovers) := by
  obtain ⟨hmode, hslot, hcount⟩ := s.setMode_words m d 3
  have hcur : ((s.setMode m d 3).setF Reg.SYS_MODE_PRIOR p).cur = m := by
    rw [State.cur, State.getF_setF_beside _ Reg.SYS_MODE_PRIOR Reg.SYS_MODE_CUR _ rfl (by decide) (by decide)]
    exact hmode.trans (Nat.mod_eq_of_lt hm)
  have hnext : (((((s.setMode m d 3).setF Reg.SYS_MODE_PRIOR p).setF Reg.PAIR_STAT_ROLE 1).setF Reg.PAIR_STAT_HPEND 0).setReg Reg.PAIR_HSLOT
      (BitVec.ofNat 64 d)).getF Reg.PAIR_CNT_SWITCHOVERS = s.getF Reg.PAIR_CNT_SWITCHOVERS := by
    rw [State.getF_setReg_addr _ _ _ (by decide), State.getF_setF_addr _ Reg.PAIR_STAT_HPEND _ _ (by decide),
      State.getF_setF_addr _ Reg.PAIR_STAT_ROLE _ _ (by decide), State.getF_setF_addr _ Reg.SYS_MODE_PRIOR _ _ (by decide), hcount]
  have h := State.tookOver_written ((s.setMode m d 3).setF Reg.SYS_MODE_PRIOR p) d s.nextSwitchovers (capAt_le _ _)
    ((State.reg_setF_ne _ _ _ (by decide)).trans hslot)
  rw [hcur] at h
  rwa [State.bump, State.addF, hnext]

/-- What opens a takeover leaves the count of switchovers alone. -/
theorem State.switchovers_beforeTakeover (s : State) (m d : Nat) (at_ : Option Nat) :
    ((s.cancelMode.scheduleAuto m at_).squashMode d).nextSwitchovers = s.nextSwitchovers := by
  rw [State.nextSwitchovers, State.getF, State.reg_squashMode, State.reg_scheduleAuto _ _ _ (by decide) (by decide),
    State.reg_cancelMode _ (by decide) (by decide) (by decide) (by decide)]
  rfl

/-- The takeover at slot d out of Belay: the mirrored mode since d, the hub acting Leader, the switchover counted, no RELEASE left standing. -/
theorem State.takeOver_spec (s : State) (d : Nat) (hcur : s.cur = 5) :
    (s.takeOver d).TookOver s.mirroredMode d s.nextSwitchovers ∧ (s.takeOver d).pair.released = none
      ∧ (s.takeOver d).pair.tookAt = some d := by
  unfold State.takeOver
  extract_lets m x proof s1 s1' s2 s3 last s4 _ s5 s6 h s7 s8 s9 s10
  have hne : s.cur ≠ 6 := by omega
  have h3 : s3.TookOver m d s.nextSwitchovers := by
    have hs1 : s1 = (s.cancelMode.scheduleAuto m (some d)).squashMode d := congrArg (State.squashMode · d) (if_neg hne)
    have hs1' : s1' = (s1.setMode m d 3).setF Reg.SYS_MODE_PRIOR (bits (s1.mir 2 Reg.SYS_MODE) 5 3) := if_neg hne
    have hm : m < 8 := by
      have := s.mirroredMode_cases
      omega
    rw [← s.switchovers_beforeTakeover m d (some d), ← hs1]
    unfold s3 s2
    rw [hs1']
    exact s1.tookOver_entered m d _ hm
  have h5 := (h3.log .PAIR_SWITCHOVER 0 [BitVec.ofNat 64 d, BitVec.ofNat 64 last, BitVec.ofNat 64 (s3.mirF (Reg.TB_STAT_STATE s3.sampTb))]).of_reg
    (t := s5) fun _ _ => rfl
  have h6 : s6.TookOver m d s.nextSwitchovers ∧ s6.pair.released = none ∧ s6.pair.tookAt = some d := by
    unfold s6
    split
    · split
      · exact ⟨((h5.log .PAIR_PROOF_FAIL 0 []).bumpProofFail).setProof 0, by simp [s5], by simp [s5]⟩
      · exact ⟨h5.setProof 0, rfl, rfl⟩
    · exact ⟨h5, rfl, rfl⟩
  have h7 : s6.SameTake s7 := (State.SameTake.setReg _ _ _ (by decide)).trans (State.startSending_sameTake _)
  have h8 : s7.SameTake s8 := .foldl _ _ _ fun t b => by
    split
    · exact .refl _
    · exact ⟨fun _ _ => rfl, rfl, rfl⟩
  have h9 : s8.SameTake s9 := .foldl _ _ _ fun t c => t.takeBreaks_sameTake d c
  have h10 : s9.SameTake s10 := by
    unfold s10
    split
    · refine .foldl _ _ _ fun t u => ?_
      dsimp only
      split
      · exact t.arm_sameTake _ _ _ _
      · exact .refl _
    · exact .refl _
  have hlast : s10.SameTake s10.evaluateAll := .foldl _ _ _ fun t b => t.evaluateDue_sameTake b
  obtain ⟨hwords, hrel, htook⟩ := (((h7.trans h8).trans h9).trans h10).trans hlast
  exact ⟨h6.1.of_reg hwords, hrel.trans h6.2.1, htook.trans h6.2.2⟩

/-- The slot that a record is stamped with does not change with a field outside TIME_CFG and the status words of the four time bases. -/
theorem State.logSlot_setF_of_four (s : State) (f : Fld) (v : Nat) (hcfg : Reg.TIME_CFG_SAMPLE_TB.addr ≠ f.addr)
    (hstat : ∀ k < 4, (Reg.TB_STAT_STATE k).addr ≠ f.addr) : (s.setF f v).logSlot = s.logSlot := by
  have htb : s.getF Reg.TIME_CFG_SAMPLE_TB < 4 := Nat.mod_lt _ (by decide)
  unfold State.logSlot
  rw [State.getF_setF_addr s f _ v hcfg, State.getF_setF_addr s f _ v (hstat _ htb), State.setF_clk]

/-- A Second in Belay loses its Leader three slots after a RELEASE, or when its STATE frames stay out for two while the pair is ready (R390). -/
theorem State.leaderLost_of (s : State) (hcur : s.cur = 5) (hrole : s.pairRoleNow = 2)
    (h : (∃ e, s.pair.released = some e ∧ e + 3 ≤ s.now) ∨ (s.pairReady = true ∧ ∃ p, s.pair.partner = some p ∧ p.slot + 3 ≤ s.now)) :
    s.leaderLost = true := by
  obtain ⟨e, he, hn⟩ | ⟨hready, p, hp, hn⟩ := h
  · simp [State.leaderLost, State.belay, hcur, hrole, he, hn]
  · simp [State.leaderLost, State.belay, hcur, hrole, hready, hp, hn]

/-- A foreign drive withholds the takeover: GUARD is set and logged, and the hub stays in Belay. -/
theorem execLeaderLost_foreign (s : State) (hlost : s.leaderLost = true) (hguard : s.getF Reg.PAIR_STAT_GUARD = 0) :
    ∃ t, execLeaderLost true s = .next t ∧ t.getF Reg.PAIR_STAT_GUARD = 1 ∧ t.cur = s.cur
      ∧ Logged s t .PAIR_SPLIT_GUARD 0 (BitVec.ofNat 64 s.now) 0 ∧ t.pair = s.pair := by
  refine ⟨(s.setF Reg.PAIR_STAT_GUARD 1).log .PAIR_SPLIT_GUARD 0 [BitVec.ofNat 64 s.now], ?_, ?_, ?_, ?_, ?_⟩
  · simp [execLeaderLost, hlost, State.flag, hguard]
  · rw [State.getF_log _ _ _ _ _ (by decide), State.getF_setF_self _ _ _ (by decide)]
    rfl
  · rw [State.cur, State.getF_log _ _ _ _ _ (by decide), State.getF_setF_addr _ _ _ _ (by decide)]
    rfl
  · exact (State.logged_log _ _ _ _ (by simp)).of_same rfl (s.logSlot_setF_of_four _ 1 (by decide) (by decide))
  · rw [State.log_pair, State.setF_pair]

theorem execLeaderLost_takeover (s : State) (hlost : s.leaderLost = true) : execLeaderLost false s = .next (s.takeOver s.now) := if_pos hlost

/-- Settles O49. Removal, ramp start and full drive are folds over the bank's channels; a takeover's fields are followed through its parts, and what
contention leaves is read off its transition into Belay. -/
theorem pairDrives : Obligations.PairDrives := by
  unfold Obligations.PairDrives
  intro b s chans
  refine ⟨fun h port out reason hp => ⟨?waits, ?early, ?removal, ?ramp⟩, ?switchover, ?idle, ?full, ?window, ?standing, ?lost, ?contention⟩
  case waits => exact fun hw => ⟨execDriveRemoval_early hp (.inl hw), execHandoverRampStart_waits hw⟩
  case early => exact fun hc => execDriveRemoval_early hp (.inr hc)
  case removal => exact driveRemoval_due hp
  case ramp =>
    rintro hw rfl hc hr hex
    obtain ⟨hslot, hfactor, hin, -⟩ := s.rampBank_spec b
    refine ⟨_, execHandoverRampStart_handover hp hw hc hr, hslot, hfactor, fun k hk => ?_⟩
    obtain ⟨hundriven, hlatched, hremoved, hramps⟩ := hin hex k hk
    exact ⟨hundriven, hlatched, hremoved, hramps⟩
  case switchover =>
    intro d hw hp ht hd hrole hr
    obtain ⟨hslot, hfactor, -, hout⟩ := s.rampBank_spec b
    exact ⟨_, execHandoverRampStart_switchover hp ht hw hd hrole hr, hslot, hfactor, hout⟩
  case idle =>
    intro hp
    show execDriveRemoval b s = .next s
    unfold execDriveRemoval
    rw [hp]
  case full =>
    rintro r rfl hr hn
    exact execHandoverRampFull_due b s hr hn
  case window =>
    rintro w rfl hw hn
    exact ⟨_, if_pos ⟨hw, hn⟩, by simp, rfl⟩
  case standing => exact fun foreign h => if_neg (by simp [h])
  case lost =>
    intro hcur hrole hgone
    have hlost := s.leaderLost_of hcur hrole hgone
    refine ⟨fun hguard => ?_, ?_⟩
    · obtain ⟨t, ht, hset, hmode, hlog, hpair⟩ := execLeaderLost_foreign s hlost hguard
      exact ⟨t, ht, hset, hmode.trans hcur, hlog, hpair⟩
    · obtain ⟨⟨hmode, hslot, hlead, hhslot, hcount⟩, hreleased, htook⟩ := s.takeOver_spec s.now hcur
      exact ⟨_, execLeaderLost_takeover s hlost, hmode, hslot, hlead, hhslot, hcount, hreleased, htook⟩
  case contention =>
    intro d ht hrole hn driven hne hlen
    obtain ⟨hcontend, hpendv, hpend, hat⟩ := s.contended_mode b
    exact ⟨_, execPairContention_hit b s d ht hrole hn hne hlen, s.contended_drives b, hcontend, hpendv, hpend, hat, rfl, s.logged_contended b⟩

end Sys2Proof.Machine

namespace Sys2Proof.Machine
open Sys2Proof

/-! ### Records that stay in the log while others follow (R441) -/

/-- From s to t the log takes n records at most: what stands among the newest of its 1,024 stands there still. -/
def State.Pushes (n : Nat) (s t : State) : Prop :=
  ∀ i x, i + n < 1024 → s.evt.ring[i]? = some x → ∃ j ≤ i + n, t.evt.ring[j]? = some x

section
variable {s t u : State} {n m : Nat}

theorem State.Pushes.of_evt (h : t.evt = s.evt) : State.Pushes 0 s t :=
  fun i x _ hx => ⟨i, by omega, by rwa [h]⟩

theorem State.Pushes.trans (h : State.Pushes n s t) (h' : State.Pushes m t u) : State.Pushes (n + m) s u := by
  intro i x hi hx
  obtain ⟨j, hj, hx⟩ := h i x (by omega) hx
  obtain ⟨k, hk, hx⟩ := h' j x (by omega) hx
  exact ⟨k, by omega, hx⟩

theorem State.Pushes.mono (h : State.Pushes n s t) (hn : n ≤ m) : State.Pushes m s t := by
  intro i x hi hx
  obtain ⟨j, hj, hx⟩ := h i x (by omega) hx
  exact ⟨j, by omega, hx⟩

end

theorem State.pushes_appendRec (s : State) (d : Dest) (r : EventRec) : State.Pushes 1 s (s.appendRec d r) := by
  intro i x hi hx
  refine ⟨i + 1, Nat.le_refl _, ?_⟩
  rw [(State.appendRec_ring _ _ _).1, List.getElem?_take, if_pos hi, List.getElem?_cons_succ, hx]

theorem State.pushes_appendCont (s : State) (d : Dest) (r : EventRec) (l : List W64) : State.Pushes l.length s (s.appendCont d r l) := by
  match l with
  | [] => exact .of_evt rfl
  | [a] => exact s.pushes_appendRec d _
  | a :: b :: rest => exact ((s.pushes_appendRec d _).trans (State.pushes_appendCont _ d r rest)).mono (by simp; omega)

/-- A condition logged puts a record in the log, and at most one more for each item. -/
theorem State.pushes_logTo (s : State) (d : Dest) (c : Cond) (u : Nat) (l : List W64) : State.Pushes (l.length + 1) s (s.logTo d c u l) := by
  unfold State.logTo
  extract_lets r s1
  have h1 : State.Pushes 0 s s1 := .of_evt (by
    unfold s1
    split
    · rfl
    · split <;> rfl)
  exact ((h1.trans (s1.pushes_appendRec d r)).trans (State.pushes_appendCont _ d r _)).mono (by simp; omega)

theorem State.pushes_log (s : State) (c : Cond) (u : Nat) (l : List W64) : State.Pushes (l.length + 1) s (s.log c u l) := s.pushes_logTo .all c u l

/-- The record of a condition stands in the log also after the records that follow it. -/
theorem State.logged_of_pushes (s : State) (d : Dest) (c : Cond) (u : Nat) (l : List W64) {t : State} {n : Nat}
    (h : State.Pushes n (s.logTo d c u l) t) (hn : n + l.length < 1024) : Logged s t c u (l.getD 0 0) (l.getD 1 0) := by
  have h0 : ∃ i ≤ l.length, (s.logTo d c u l).evt.ring[i]? = some (s.recordOf c u l) := by
    unfold State.logTo
    extract_lets r s1
    have hevt : s1.evt = s.evt := by
      unfold s1
      split
      · rfl
      · split <;> rfl
    obtain ⟨i, hi, hx⟩ := State.pushes_appendCont (s1.appendRec d r) d r (l.drop 2) 0 { r with seq := s1.evt.nextSeq }
      (by rw [List.length_drop]; omega) (by rw [(State.appendRec_ring _ _ _).1]; rfl)
    rw [hevt] at hx
    exact ⟨i, by rw [List.length_drop] at hi; omega, hx⟩
  obtain ⟨i, hi, hx⟩ := h0
  obtain ⟨j, -, hx⟩ := h i _ (by omega) hx
  exact ⟨_, List.mem_of_getElem? hx, rfl, rfl, rfl, rfl, rfl, rfl, rfl, rfl, rfl⟩

section
variable {s t : State} (hreg : ∀ a, 0x300 ≤ a → a < 0x400 → t.reg a = s.reg a)
include hreg

/-- The state of the sampling time base stands in the words of the TIME block. -/
theorem State.sampState_congr : t.getF (Reg.TB_STAT_STATE t.sampTb) = s.getF (Reg.TB_STAT_STATE s.sampTb) := by
  have htb : s.sampTb < 4 := Nat.mod_lt _ (by decide)
  have hcfg : t.sampTb = s.sampTb := congrArg (bits · 1 0) (hreg _ (by decide) (by decide))
  have hstat : ∀ k < 4, t.reg (Reg.TB_STAT k) = s.reg (Reg.TB_STAT k) := fun k hk =>
    hreg _ (by simp only [Reg.TB_STAT]; omega) (by simp only [Reg.TB_STAT]; omega)
  rw [hcfg]
  exact congrArg (bits · _ _) (hstat _ htb)

theorem State.unset_congr : t.unset = s.unset := by rw [State.unset, State.sampState_congr hreg, State.unset]

/-- The slot that a record is stamped with depends on the clock and on the words of the TIME block. -/
theorem State.logSlot_congr (hclk : t.clk = s.clk) : t.logSlot = s.logSlot := by
  have h : t.getF (Reg.TB_STAT_STATE (t.getF Reg.TIME_CFG_SAMPLE_TB)) = _ := State.sampState_congr hreg
  rw [State.logSlot, h, hclk]
  rfl

end

/-! ### What a transition that becomes pending or is cancelled leaves alone (R33, R57, R501) -/

/-- From s to t nothing changes but registers, the log, the mode, the configuration, the update and the engines. -/
abbrev State.ModeWork (s t : State) : Prop :=
  { t with regs := s.regs, evt := s.evt, mode := s.mode, cfg := s.cfg, upd := s.upd, engs := s.engs } = s

theorem State.ModeWork.trans {s t u : State} (h : s.ModeWork t) (h' : t.ModeWork u) : s.ModeWork u := by
  unfold State.ModeWork at h h' ⊢
  rw [← h'] at h
  exact h

theorem State.ModeWork.of_log {s t : State} (h : { t with regs := s.regs, evt := s.evt } = s) : s.ModeWork t := by
  unfold State.ModeWork
  rw [← h]

theorem State.ModeWork.clk {s t : State} (h : s.ModeWork t) : t.clk = s.clk := by rw [← h]

theorem State.ModeWork.fabric {s t : State} (h : s.ModeWork t) : t.fabric = s.fabric := by rw [← h]

/-- The words that a transition writes as it becomes pending or is cancelled, beside those of the event log. -/
def modeWords : List Nat := [Reg.SYS_MODE, Reg.CFG_STATUS, Reg.UPD_STAT]

theorem ne_of_not_mem_modeWords {a : Nat} (h : a ∉ modeWords) : a ≠ Reg.SYS_MODE ∧ a ≠ Reg.CFG_STATUS ∧ a ≠ Reg.UPD_STAT := by
  simpa [modeWords] using h

theorem not_mem_modeWords_of_time {a : Nat} (h : 0x300 ≤ a) (h' : a < 0x400) : a ∉ modeWords := by
  simp only [modeWords, Reg.SYS_MODE, Reg.CFG_STATUS, Reg.UPD_STAT, List.mem_cons, List.not_mem_nil, or_false]
  omega

theorem evtReg_of_ge {a : Nat} (h : 0x20B ≤ a) : evtReg a = false := by
  simp only [evtReg, Reg.EVT_INT, Reg.EVT_CNT, Bool.or_eq_false_iff, beq_eq_false_iff_ne]
  omega

theorem State.pendAuto_work (s : State) (target : Nat) (at_ : Option Nat) : s.ModeWork (s.pendAuto target at_) := by
  obtain h | ⟨k, h⟩ := s.pendAuto_cases target at_ <;> rw [h]
  rfl

theorem State.cancelOverlay_work (s : State) : s.ModeWork s.cancelOverlay :=
  State.ModeWork.trans (t := s.dropOverlay) rfl (.of_log (State.logTo_frame _ _ _ _ _))

theorem State.scheduleAuto_work (s : State) (target : Nat) (at_ : Option Nat) : s.ModeWork (s.scheduleAuto target at_) := by
  obtain h | h | h | h := s.scheduleAuto_cases target at_ <;> rw [h]
  · exact s.pendAuto_work target at_
  · exact s.cancelOverlay_work.trans (State.pendAuto_work _ target at_)

theorem State.scheduleAuto_pushes (s : State) (target : Nat) (at_ : Option Nat) : State.Pushes 3 s (s.scheduleAuto target at_) := by
  obtain h | h := s.scheduleAuto_evt target at_
  · exact (State.Pushes.of_evt h).mono (by omega)
  · exact ((State.Pushes.of_evt (t := s.dropOverlay) rfl).trans ((State.pushes_log _ .CFG_OVL_CANCELLED 0 _).trans (.of_evt h))).mono (by simp)

/-- A transition that becomes pending: the present mode stays, the mode's state takes slot, port and cause. -/
theorem State.pendMode_mode (s : State) (target : Nat) (at_ : Option Nat) (port cause : Nat) :
    (s.pendMode target at_ port cause).mode = { s.mode with pendAt := at_, pendPort := port, pendCause := cause }
      ∧ (s.pendMode target at_ port cause).cur = s.cur := by
  refine ⟨(State.scheduleAuto_drives _ target at_).2, ?_⟩
  rw [State.cur, State.getF]
  refine (congrArg (bits · 2 0) (State.reg_scheduleAuto _ target at_ (by decide) (by decide))).trans ?_
  exact (State.getF_setF_beside _ Reg.SYS_MODE_PEND Reg.SYS_MODE_CUR target rfl (by decide) (by decide)).trans
    (State.getF_setF_beside s Reg.SYS_MODE_PENDV Reg.SYS_MODE_CUR 1 rfl (by decide) (by decide))

theorem State.pendMode_work (s : State) (target : Nat) (at_ : Option Nat) (port cause : Nat) :
    s.ModeWork (s.pendMode target at_ port cause) :=
  State.ModeWork.trans (t := { (s.setF Reg.SYS_MODE_PENDV 1).setF Reg.SYS_MODE_PEND target with
    mode := { s.mode with pendAt := at_, pendPort := port, pendCause := cause } }) rfl (State.scheduleAuto_work _ target at_)

theorem State.pendMode_pushes (s : State) (target : Nat) (at_ : Option Nat) (port cause : Nat) :
    State.Pushes 3 s (s.pendMode target at_ port cause) :=
  (State.Pushes.of_evt (t := { (s.setF Reg.SYS_MODE_PENDV 1).setF Reg.SYS_MODE_PEND target with
    mode := { s.mode with pendAt := at_, pendPort := port, pendCause := cause } }) rfl).trans (State.scheduleAuto_pushes _ target at_)

/-- The hub with its pending transition withdrawn, before that is logged. -/
def State.withdrawn (s : State) : State :=
  let s1 := ((if s.getF Reg.SYS_MODE_PEND = 6 then s.dropActivation else s).setF Reg.SYS_MODE_PENDV 0).dropAuto
  { s1 with mode := { s1.mode with pendAt := none } }

theorem State.cancelMode_of_pending (s : State) (h : s.getF Reg.SYS_MODE_PENDV = 1) :
    s.cancelMode = (match s.mode.pendAt with
      | some t => (s.withdrawn.log .SYS_MODE_CANCELLED 0 [BitVec.ofNat 64 (s.mode.pendAt.getD 0)]).squashMode t
      | none => s.withdrawn.log .SYS_MODE_CANCELLED 0 [BitVec.ofNat 64 (s.mode.pendAt.getD 0)]) := by
  unfold State.cancelMode
  rw [if_pos (by simp [State.flag, h])]
  rfl

/-- What withdraws an activation keeps: the log, the mode, and every word but CFG_STATUS and UPD_STAT. -/
def State.Drops (s t : State) : Prop :=
  s.ModeWork t ∧ t.mode = s.mode ∧ t.evt = s.evt ∧ ∀ a, a ≠ Reg.CFG_STATUS → a ≠ Reg.UPD_STAT → t.reg a = s.reg a

theorem State.dropAuto_drops (s : State) : s.Drops s.dropAuto := by
  refine ⟨?_, ?_, ?_, fun a ha _ => s.reg_dropAuto ha⟩ <;>
  · unfold State.dropAuto
    dsimp only
    split <;> rfl

theorem State.dropActivation_drops (s : State) : s.Drops s.dropActivation := by
  refine ⟨?_, ?_, ?_, fun a _ ha => s.reg_dropActivation ha⟩ <;>
  · unfold State.dropActivation
    split <;> rfl

/-- A withdrawn transition: the log and the other words stay, PENDV is 0 and no slot is named. -/
theorem State.withdrawn_spec (s : State) :
    s.ModeWork s.withdrawn ∧ s.withdrawn.mode = { s.mode with pendAt := none } ∧ s.withdrawn.evt = s.evt
      ∧ s.withdrawn.reg Reg.SYS_MODE = setBits (s.reg Reg.SYS_MODE) 9 9 0 ∧ ∀ a ∉ modeWords, s.withdrawn.reg a = s.reg a := by
  have h0 : s.Drops (if s.getF Reg.SYS_MODE_PEND = 6 then s.dropActivation else s) := by
    split
    · exact s.dropActivation_drops
    · exact ⟨rfl, rfl, rfl, fun _ _ _ => rfl⟩
  unfold State.withdrawn
  generalize (if s.getF Reg.SYS_MODE_PEND = 6 then s.dropActivation else s) = s0 at h0
  obtain ⟨hwork0, hmode0, hevt0, hreg0⟩ := h0
  obtain ⟨hwork1, hmode1, hevt1, hreg1⟩ := State.dropAuto_drops (s0.setF Reg.SYS_MODE_PENDV 0)
  refine ⟨hwork0.trans (State.ModeWork.trans (t := s0.setF Reg.SYS_MODE_PENDV 0) rfl hwork1),
    congrArg (fun m : ModeSt => { m with pendAt := none }) (hmode1.trans hmode0), hevt1.trans hevt0, ?_, fun a ha => ?_⟩
  · refine (hreg1 _ (by decide) (by decide)).trans ?_
    rw [← hreg0 Reg.SYS_MODE (by decide) (by decide)]
    exact State.reg_setF_self _ Reg.SYS_MODE_PENDV 0
  · obtain ⟨hne, hcfg, hupd⟩ := ne_of_not_mem_modeWords ha
    exact (hreg1 a hcfg hupd).trans ((State.reg_setF_ne _ Reg.SYS_MODE_PENDV 0 hne).trans (hreg0 a hcfg hupd))

/-- A pending transition cancelled: PENDV is 0, the present mode stays, the cancel is logged with its slot. -/
theorem State.cancelMode_spec (s : State) (h : s.getF Reg.SYS_MODE_PENDV = 1) :
    s.ModeWork s.cancelMode ∧ s.cancelMode.mode = { s.mode with pendAt := none } ∧ State.Pushes 2 s s.cancelMode
      ∧ s.cancelMode.reg Reg.SYS_MODE = setBits (s.reg Reg.SYS_MODE) 9 9 0
      ∧ (∀ a ∉ modeWords, evtReg a = false → s.cancelMode.reg a = s.reg a)
      ∧ Logged s s.cancelMode .SYS_MODE_CANCELLED 0 (BitVec.ofNat 64 (s.mode.pendAt.getD 0)) 0 := by
  obtain ⟨hwork, hmode, hevt, hsys, hreg⟩ := s.withdrawn_spec
  generalize hl : s.withdrawn.log .SYS_MODE_CANCELLED 0 [BitVec.ofNat 64 (s.mode.pendAt.getD 0)] = t
  have heng : ∃ y, s.cancelMode = { t with engs := y } := by
    rw [s.cancelMode_of_pending h, hl]
    split
    · exact State.squashMode_engs t _
    · exact ⟨t.engs, rfl⟩
  obtain ⟨y, hy⟩ := heng
  have hslot : s.withdrawn.logSlot = s.logSlot := State.logSlot_congr (fun a h h' => hreg a (not_mem_modeWords_of_time h h')) hwork.clk
  rw [hy]
  have hwork' : s.ModeWork t := by
    rw [← hl]
    exact hwork.trans (.of_log (State.logTo_frame _ _ _ _ _))
  refine ⟨hwork', ?_, ?_, ?_, fun a ha he => ?_, ?_⟩
  · rw [← hmode, ← State.log_mode s.withdrawn _ _ _, hl]
  · refine ((State.Pushes.of_evt hevt).trans (State.pushes_log s.withdrawn .SYS_MODE_CANCELLED 0 [BitVec.ofNat 64 (s.mode.pendAt.getD 0)])).trans
      (m := 0) ?_
    rw [hl]
    exact .of_evt rfl
  · rw [← hsys, ← State.reg_log s.withdrawn _ _ _ (by decide), hl]
    rfl
  · rw [← hreg a ha, ← State.reg_log s.withdrawn _ _ _ he, hl]
    rfl
  · refine Logged.of_same (s' := s.withdrawn) ?_ hevt hslot
    rw [← hl]
    exact (State.logged_log _ _ _ _ (by simp)).of_evt rfl

/-- A field of one bit is 0 or 1. -/
theorem State.getF_bit (s : State) (f : Fld) (h : f.hi = f.lo) : s.getF f = 0 ∨ s.getF f = 1 := by
  have hlt : s.getF f < 2 ^ (f.hi + 1 - f.lo) := Nat.mod_lt _ (by positivity)
  rw [h, show f.lo + 1 - f.lo = 1 by omega] at hlt
  omega

theorem bits_setBits_zero_cur (w : W64) : bits (setBits w 9 9 0) 2 0 = bits w 2 0 := bits_setBits_ne w 0 (by decide) (by decide)

/-- A cancel, whether a transition is pending or not. -/
theorem State.cancelMode_keeps (s : State) :
    s.ModeWork s.cancelMode ∧ (∃ p, s.cancelMode.mode = { s.mode with pendAt := p }) ∧ State.Pushes 2 s s.cancelMode
      ∧ s.cancelMode.cur = s.cur ∧ ∀ a ∉ modeWords, evtReg a = false → s.cancelMode.reg a = s.reg a := by
  rcases s.getF_bit Reg.SYS_MODE_PENDV rfl with h | h
  · rw [s.cancelMode_of_none h]
    exact ⟨rfl, ⟨_, rfl⟩, (State.Pushes.of_evt rfl).mono (by omega), rfl, fun _ _ _ => rfl⟩
  · obtain ⟨hwork, hmode, hpush, hsys, hreg, -⟩ := s.cancelMode_spec h
    exact ⟨hwork, ⟨_, hmode⟩, hpush, (congrArg (bits · 2 0) hsys).trans (bits_setBits_zero_cur _), hreg⟩

/-! ### Descent for the next slot (R438, R480, R501) -/

/-- In t the entry into Descent is pending for the slot after the present one of s, and the mode of s stands. -/
def State.FallsNext (s t : State) : Prop :=
  t.getF Reg.SYS_MODE_PENDV = 1 ∧ t.getF Reg.SYS_MODE_PEND = 7 ∧ t.mode.pendAt = some (s.now + 1) ∧ t.cur = s.cur

theorem State.pendMode_falls (s : State) (port cause : Nat) : s.FallsNext (s.pendMode 7 (some (s.now + 1)) port cause) := by
  obtain ⟨hv, hp, hat, -⟩ := s.pendMode_spec 7 (some (s.now + 1)) port cause
  exact ⟨hv, hp, hat, (s.pendMode_mode _ _ _ _).2⟩

/-- The hub with a fault of its own noted for its pair. -/
def State.withFault (s : State) : State := { s with pair := { s.pair with fault := true } }

/-- The hub with a fault of hub level logged and its pending transition cancelled. -/
def State.faulted (s : State) (c : Cond) (unit : Nat) : State :=
  (s.log .HUB_ESCALATED 0 [BitVec.ofNat 64 c.code, BitVec.ofNat 64 unit]).cancelMode.withFault

theorem State.faulted_spec (s : State) (c : Cond) (unit : Nat) :
    (s.faulted c unit).clk = s.clk ∧ (s.faulted c unit).fabric = s.fabric ∧ (s.faulted c unit).cur = s.cur
      ∧ (∀ a ∉ modeWords, evtReg a = false → (s.faulted c unit).reg a = s.reg a)
      ∧ State.Pushes 2 (s.log .HUB_ESCALATED 0 [BitVec.ofNat 64 c.code, BitVec.ofNat 64 unit]) (s.faulted c unit) := by
  unfold State.faulted
  generalize hl : s.log .HUB_ESCALATED 0 [BitVec.ofNat 64 c.code, BitVec.ofNat 64 unit] = l
  obtain ⟨hwork, -, hpush, hcur, hreg⟩ := l.cancelMode_keeps
  have hframe : s.ModeWork l := .of_log (by rw [← hl]; exact State.logTo_frame _ _ _ _ _)
  have hregl : ∀ a, evtReg a = false → l.reg a = s.reg a := fun a ha => by rw [← hl, State.reg_log _ _ _ _ ha]
  exact ⟨(hframe.trans hwork).clk, (hframe.trans hwork).fabric, hcur.trans (congrArg (bits · 2 0) (hregl _ (by decide))),
    fun a ha he => (hreg a ha he).trans (hregl a he), hpush⟩

/-- A fault of hub level in a running hub outside Descent: HUB_ESCALATED stands in the log, Descent is pending for the next slot, and no
word changes beside those of a pending transition. -/
theorem State.escalate_spec (s : State) (c : Cond) (unit : Nat) (h7 : s.cur ≠ 7) (h0 : s.cur ≠ 0) (hf : s.falling = false)
    (hu : s.unset = false) :
    s.FallsNext (s.escalate c unit) ∧ (s.escalate c unit).mode.pendCause = 5
      ∧ Logged s (s.escalate c unit) .HUB_ESCALATED 0 (BitVec.ofNat 64 c.code) (BitVec.ofNat 64 unit)
      ∧ (s.escalate c unit).fabric = s.fabric
      ∧ ∀ a ∉ modeWords, evtReg a = false → (s.escalate c unit).reg a = s.reg a := by
  obtain ⟨hclk, hfabric, hcur, hreg, hpush⟩ := s.faulted_spec c unit
  have hset : (s.faulted c unit).unset = false :=
    (State.unset_congr fun a h h' => hreg a (not_mem_modeWords_of_time h h') (evtReg_of_ge (by omega))).trans hu
  have heq : s.escalate c unit = (s.faulted c unit).pendMode 7 (some (s.now + 1)) 7 5 := by
    have hnow : (s.faulted c unit).now = s.now := congrArg ClockSt.slot hclk
    rw [← hnow]
    unfold State.escalate
    rw [if_neg (by simp [h7, h0, hf])]
    have hne : (s.faulted c unit).getF (Reg.TB_STAT_STATE (s.faulted c unit).sampTb) ≠ 0 := by simpa [State.unset] using hset
    exact if_neg hne
  rw [heq]
  obtain ⟨hv, hp, hat, -⟩ := (s.faulted c unit).pendMode_spec 7 (some (s.now + 1)) 7 5
  obtain ⟨hmode, hstays⟩ := (s.faulted c unit).pendMode_mode 7 (some (s.now + 1)) 7 5
  refine ⟨⟨hv, hp, hat, hstays.trans hcur⟩, by rw [hmode], ?_, ((s.faulted c unit).pendMode_work _ _ _ _).fabric.trans hfabric,
    fun a ha he => ?_⟩
  · exact State.logged_of_pushes s .all .HUB_ESCALATED 0 [BitVec.ofNat 64 c.code, BitVec.ofNat 64 unit]
      (hpush.trans ((s.faulted c unit).pendMode_pushes _ _ _ _)) (by simp)
  · obtain ⟨hsys, hcfg, -⟩ := ne_of_not_mem_modeWords ha
    rw [State.reg_pendMode _ _ _ _ _ he hcfg hsys, hreg a ha he]

/-! ### Rails and references (R438, R466) -/

/-- SETTLED of a bank's reference lost and logged where it stood. -/
def State.unsettle (s : State) (b : Nat) : State := if s.refSettled b then (s.setSettled b false).log .REF_UNSTABLE b [] else s

theorem State.refSettled_congr {s t : State} (b : Nat) (hf : t.fabric = s.fabric) (hreg : t.reg (Reg.BANK_REF b) = s.reg (Reg.BANK_REF b)) :
    t.refSettled b = s.refSettled b := by
  unfold State.refSettled State.flag State.getF
  rw [hf, show t.reg (Reg.BANK_REF_SETTLED b).addr = _ from hreg]
  rfl

theorem State.refSettled_setSettled (s : State) (b k : Nat) : (s.setSettled b false).refSettled k = if k = b then false else s.refSettled k := by
  unfold State.setSettled
  split
  next hb =>
    subst hb
    by_cases hk : k = 24
    · simp [State.refSettled, hk]
    · simp only [State.refSettled, hk, if_false]
      rfl
  next hb =>
    by_cases hk : k = b
    · subst hk
      simp only [State.refSettled, hb, if_false, if_true, State.flag]
      rw [State.getF_setF_self _ (Reg.BANK_REF_SETTLED k) _ (by simp [Reg.BANK_REF_SETTLED])]
      rfl
    · rw [if_neg hk]
      refine State.refSettled_congr k rfl (State.reg_setF_ne _ (Reg.BANK_REF_SETTLED b) _ ?_)
      simp only [Reg.BANK_REF_SETTLED, Reg.BANK_REF]
      omega

theorem State.refSettled_unsettle (s : State) (b k : Nat) : (s.unsettle b).refSettled k = if k = b then false else s.refSettled k := by
  unfold State.unsettle
  split
  · rw [← State.refSettled_setSettled]
    exact State.refSettled_congr k (State.log_fabric _ _ _ _)
      (State.reg_log _ _ _ _ (evtReg_of_ge (by simp only [Reg.BANK_REF]; omega)))
  next h =>
    split
    next hk => exact hk ▸ Bool.eq_false_iff.mpr h
    · rfl

/-- From s to t the clock and the mode stay, and the words outside EVT and BANK. -/
def State.SameRun (s t : State) : Prop := t.clk = s.clk ∧ t.mode = s.mode ∧ ∀ a < 0x1C40, evtReg a = false → t.reg a = s.reg a

theorem State.SameRun.trans {s t u : State} (h : s.SameRun t) (h' : t.SameRun u) : s.SameRun u :=
  ⟨h'.1.trans h.1, h'.2.1.trans h.2.1, fun a ha he => (h'.2.2 a ha he).trans (h.2.2 a ha he)⟩

theorem State.setSettled_sameRun (s : State) (b : Nat) (v : Bool) : s.SameRun (s.setSettled b v) := by
  unfold State.setSettled
  split
  · exact ⟨rfl, rfl, fun _ _ _ => rfl⟩
  · exact ⟨rfl, rfl, fun a ha _ => State.reg_setF_ne s (Reg.BANK_REF_SETTLED b) _ (by simp only [Reg.BANK_REF_SETTLED, Reg.BANK_REF]; omega)⟩

theorem State.unsettle_sameRun (s : State) (b : Nat) : s.SameRun (s.unsettle b) := by
  unfold State.unsettle
  split
  · exact (s.setSettled_sameRun b false).trans ⟨State.log_clk _ _ _ _, State.log_mode _ _ _ _, fun _ _ he => State.reg_log _ _ _ _ he⟩
  · exact ⟨rfl, rfl, fun _ _ _ => rfl⟩

/-- References unsettled one after another: each one named is, and none becomes settled. -/
theorem State.unsettleAll_spec (l : List Nat) (s : State) :
    s.SameRun (l.foldl State.unsettle s) ∧ ∀ k, (l.foldl State.unsettle s).refSettled k = if k ∈ l then false else s.refSettled k := by
  induction l generalizing s with
  | nil => exact ⟨⟨rfl, rfl, fun _ _ _ => rfl⟩, fun k => by simp⟩
  | cons b l ih =>
    obtain ⟨hrun, hset⟩ := ih (s.unsettle b)
    refine ⟨(s.unsettle_sameRun b).trans hrun, fun k => ?_⟩
    rw [List.foldl_cons, hset, s.refSettled_unsettle]
    by_cases hk : k = b <;> simp [hk]

theorem State.SameRun.cur {s t : State} (h : s.SameRun t) : t.cur = s.cur := congrArg (bits · 2 0) (h.2.2 _ (by decide) (by decide))

theorem State.SameRun.falling {s t : State} (h : s.SameRun t) : t.falling = s.falling := by
  obtain ⟨-, hmode, hreg⟩ := h
  simp only [State.falling, State.flag, State.getF, hmode, hreg Reg.SYS_MODE (by decide) (by decide),
    show Reg.SYS_MODE_PENDV.addr = Reg.SYS_MODE from rfl, show Reg.SYS_MODE_PEND.addr = Reg.SYS_MODE from rfl]

theorem State.SameRun.unset {s t : State} (h : s.SameRun t) : t.unset = s.unset :=
  State.unset_congr fun a ha ha' => h.2.2 a (by omega) (evtReg_of_ge (by omega))

/-- The hub after a rail left its range: where the rail feeds the references, none of them is settled. -/
def State.railLost (s : State) (rail : Fin 10) : State :=
  if (rail.val = 2 ∨ rail.val = 3) ∧ s.runs = true then (List.range 25).foldl State.unsettle s else s

theorem execSupplyMonitorFault_eq (rail : Fin 10) (s : State) : execSupplyMonitorFault rail s = .next ((s.railLost rail).hubFault rail) := rfl

theorem State.railLost_sameRun (s : State) (rail : Fin 10) : s.SameRun (s.railLost rail) := by
  unfold State.railLost
  split
  · exact (State.unsettleAll_spec _ s).1
  · exact ⟨rfl, rfl, fun _ _ _ => rfl⟩

theorem State.hubFault_of_runs (s : State) (unit : Nat) (h : s.runs = true) : s.hubFault unit = s.escalate .HUB_ESCALATED unit := if_pos h

/-- A hub in Descent absorbs a fault of hub level. -/
theorem State.hubFault_descent (s : State) (unit : Nat) (h : s.cur = 7) : s.hubFault unit = s := by
  simp [State.hubFault, State.escalate, h]

/-- A rail out of range in a running hub outside Descent. -/
theorem supplyMonitorFault_spec (s : State) (rail : Fin 10) (hr : s.runs = true) (h0 : s.cur ≠ 0) (h7 : s.cur ≠ 7) (hf : s.falling = false)
    (hu : s.unset = false) :
    ∃ t, execSupplyMonitorFault rail s = .next t ∧ s.FallsNext t ∧ t.mode.pendCause = 5
      ∧ (rail ≠ 2 → rail ≠ 3 → Logged s t .HUB_ESCALATED 0 (BitVec.ofNat 64 Cond.HUB_ESCALATED.code) (BitVec.ofNat 64 rail.val))
      ∧ (rail = 2 ∨ rail = 3 → ∀ b < 25, t.refSettled b = false) := by
  have hrun := s.railLost_sameRun rail
  have hr' : (s.railLost rail).runs = true := by rw [State.runs, hrun.2.1]; exact hr
  obtain ⟨⟨hv, hp, hat, hcur⟩, hcause, hlog, hfabric, hreg⟩ := (s.railLost rail).escalate_spec .HUB_ESCALATED rail
    (by rwa [hrun.cur]) (by rwa [hrun.cur]) (by rw [hrun.falling, hf]) (by rw [hrun.unset, hu])
  refine ⟨_, by rw [execSupplyMonitorFault_eq, State.hubFault_of_runs _ _ hr'], ⟨hv, hp, ?_, hcur.trans hrun.cur⟩, hcause, ?_, ?_⟩
  · rw [hat, State.now, hrun.1]
    rfl
  · intro h2 h3
    have : s.railLost rail = s := if_neg (by rintro ⟨h | h, -⟩ <;> [exact h2 (Fin.ext h); exact h3 (Fin.ext h)])
    rwa [this] at hlog ⊢
  · intro h b hb
    have hb' : (s.railLost rail).refSettled b = false := by
      unfold State.railLost
      rw [if_pos ⟨by rcases h with rfl | rfl <;> simp, hr⟩, (State.unsettleAll_spec _ s).2, if_pos (List.mem_range.mpr hb)]
    rw [← hb']
    exact State.refSettled_congr b hfabric (hreg _ (by
      simp only [modeWords, Reg.BANK_REF, Reg.SYS_MODE, Reg.CFG_STATUS, Reg.UPD_STAT, List.mem_cons, List.not_mem_nil, or_false]
      omega) (evtReg_of_ge (by simp only [Reg.BANK_REF]; omega)))

/-! ### The test access port (R480, R501) -/

/-- A test instruction that acts on the pins, in an acquiring hub: Descent is pending for the next slot, with the instruction to act there. -/
theorem tapActing_spec (s : State) (op : TapOp) (hop : tapActs op = true) (hacq : s.acquiring = true) (hf : s.falling = false) :
    ∃ t, execTapInstructionLoad op s = .next t ∧ s.FallsNext t ∧ t.mode.pendCause = 6 ∧ t.mode.tapWait = some op
      ∧ t.mode.tap = s.mode.tap := by
  obtain ⟨hwork, ⟨p, hmode⟩, -, hcur, -⟩ := s.cancelMode_keeps
  have hnow : s.cancelMode.now = s.now := congrArg ClockSt.slot hwork.clk
  refine ⟨_, by rw [execTapInstructionLoad, if_neg (by simp [hf]), if_pos (by simp [hop, hacq])], ?_⟩
  obtain ⟨hv, hp, hat, -⟩ := State.pendMode_spec { s.cancelMode with mode := { s.cancelMode.mode with tapWait := some op } } 7
    (some (s.cancelMode.now + 1)) 7 6
  obtain ⟨hm, hstays⟩ := State.pendMode_mode { s.cancelMode with mode := { s.cancelMode.mode with tapWait := some op } } 7
    (some (s.cancelMode.now + 1)) 7 6
  refine ⟨⟨hv, hp, hat.trans (by rw [hnow]), hstays.trans hcur⟩, congrArg ModeSt.pendCause hm, congrArg ModeSt.tapWait hm, ?_⟩
  have htap : s.cancelMode.mode.tap = s.mode.tap := by rw [hmode]
  exact (congrArg ModeSt.tap hm).trans htap

theorem tapActs_iff (op : TapOp) : tapActs op = true ↔ op = .extest ∨ op = .clamp ∨ op = .highz := by
  cases op <;> simp [tapActs]

/-- A test instruction that waits behind the hub's own fall. -/
theorem execTapInstructionLoad_falling (s : State) (op : TapOp) (hop : tapActs op = true) (hacq : s.acquiring = true)
    (hf : s.falling = true) : execTapInstructionLoad op s = .next { s with mode := { s.mode with tapWait := some op } } :=
  if_pos (by simp [hop, hacq, hf])

/-- Any other test instruction is taken at once. -/
theorem execTapInstructionLoad_at_once (s : State) (op : TapOp) (h : (tapActs op && s.acquiring) = false) (hid : op ≠ .idcode) :
    execTapInstructionLoad op s = .next { s with mode := { s.mode with tap := op, tapWait := none } } := by
  unfold execTapInstructionLoad
  rw [h, if_neg (by simp), if_neg (by simp), if_neg hid]

/-- Settles O22. A fault of hub level is followed through State.escalate, a rail's also through the references; the test port by the branches of
its definition. -/
theorem hubFaultsAndTestPort : Obligations.HubFaultsAndTestPort := by
  unfold Obligations.HubFaultsAndTestPort
  intro s falls code
  refine ⟨fun hr h0 h7 hf hu => ?faults, fun h7 => ?absorbed, fun op hop hacq => ⟨fun hf => ?waits, fun hf => ?acts⟩, fun op hop hid => ?taken⟩
  case faults =>
    obtain ⟨hfalls, hcause, hlog, -⟩ := s.escalate_spec .HUB_ESCALATED 0 h7 h0 hf hu
    have hfault : ∀ c, exec c s = .next (s.hubFault 0) →
        Gives c s (fun t => falls t ∧ t.mode.pendCause = 5 ∧ Logged s t .HUB_ESCALATED 0 code 0) :=
      fun c hc => ⟨_, by rw [hc, s.hubFault_of_runs 0 hr], hfalls, hcause, hlog⟩
    exact ⟨hfault _ rfl, hfault _ rfl, fun rail => supplyMonitorFault_spec s rail hr h0 h7 hf hu⟩
  case absorbed => exact ⟨congrArg _ (s.hubFault_descent 0 h7), congrArg _ (s.hubFault_descent 0 h7)⟩
  case waits => exact execTapInstructionLoad_falling s op ((tapActs_iff op).mpr hop) hacq hf
  case acts => exact tapActing_spec s op ((tapActs_iff op).mpr hop) hacq hf
  case taken =>
    refine execTapInstructionLoad_at_once s op ?_ hid
    rcases hop with h | rfl | rfl
    · rw [h, Bool.and_false]
    · rfl
    · rfl

end Sys2Proof.Machine

namespace Sys2Proof.Machine
open Sys2Proof

/-! ### Reads and writes of the words of a block (R449 to R454) -/

theorem State.getF_bump (s : State) (f : Fld) (h : f.hi < 64) : (s.bump f).getF f = capAt f.max (s.getF f + 1) := by
  have hlt : capAt f.max (s.getF f + 1) < 2 ^ (f.hi + 1 - f.lo) := by
    have hle := capAt_le f.max (s.getF f + 1)
    have hpos : 0 < 2 ^ (f.hi + 1 - f.lo) := by positivity
    unfold Fld.max at hle ⊢
    omega
  exact (State.getF_setF_self s f _ h).trans (Nat.mod_eq_of_lt hlt)

section
variable {a : Nat} (ha : a < 0x100)
include ha

theorem blockOf_sys : blockOf a = 0 := if_pos ha

/-- A word of SYS that is no port's own copy is read as it stands. -/
theorem State.view_sys (s : State) (port : Nat) (hc : copiedWord a = false) : s.view port a = s.reg a := by
  unfold State.view
  rw [blockOf_sys ha]
  simp [hc]

/-- Reading a word of SYS clears its RC fields, and nothing else. -/
theorem State.readEffect_sys (s : State) (port : Nat) (hl : a ≠ Reg.SYS_SPLOST) : s.readEffect port a = s.clearRc a := by
  have hne : ∀ b, 0x100 ≤ b → a ≠ b := by omega
  unfold State.readEffect
  rw [if_neg (hne _ (by decide)), if_neg (hne _ (by decide)), if_neg (hne _ (by decide)), if_neg (hne _ (by decide)),
    if_neg (hne _ (by decide)), if_neg (hne _ (by decide)), if_neg hl]

end

/-- The RC fields of a word cleared: the word without their bits, and nothing else changes. -/
theorem State.clearRc_spec (s : State) {a : Nat} {d : RegDesc} (hd : findReg a = some d) :
    (s.clearRc a).reg a = s.reg a &&& ~~~ d.accMask (fun c => c == .rc) ∧ (∀ b ≠ a, (s.clearRc a).reg b = s.reg b)
      ∧ { s.clearRc a with regs := s.regs } = s := by
  unfold State.clearRc
  rw [hd]
  dsimp only
  split
  next h => exact ⟨by rw [h]; exact BitVec.and_allOnes.symm, fun _ _ => rfl, rfl⟩
  · exact ⟨State.reg_setReg_self _ _ _, fun _ hb => State.reg_setReg_ne _ _ hb, rfl⟩

/-- A word without an RC field is read without an effect. -/
theorem State.clearRc_of_no_rc (s : State) {a : Nat} (h : (findReg a).map (fun d => d.accMask (fun c => c == .rc)) = some 0) : s.clearRc a = s := by
  obtain ⟨d, hd, hm⟩ := Option.map_eq_some_iff.mp h
  unfold State.clearRc
  rw [hd]
  exact if_pos hm

theorem bits_and_not (w m : W64) (hi lo : Nat) (h : ∀ i < hi + 1 - lo, m.getLsbD (lo + i) = true) : bits (w &&& ~~~ m) hi lo = 0 := by
  apply Nat.eq_of_testBit_eq
  intro i
  rw [testBit_bits]
  by_cases hi' : i < hi + 1 - lo
  · simp [h i hi']
  · simp [hi']

/-- The hub after a write's reserved bits were counted. -/
def State.countReserved (s : State) (own v : W64) : State := if v &&& ~~~ own = 0 then s else s.bump Reg.SYS_ERRCNT_RSVD

/-- A write by a port whose class suffices of a word that no lane's scope and no lock guards: its reserved bits are counted, and its block
judges the others. -/
theorem State.writeExt_of_unlockable (s : State) (x : Ext) (w : WCtx) {a : Nat} (v : W64) {d : RegDesc} (hd : findReg a = some d)
    (hlane : wordLane a = none) (hc : s.needClass w a v ≤ s.classOf w.port) (hrwl : d.accMask (fun c => c == .rwl) = 0) :
    s.writeExt x w a v
      = (s.countReserved (s.knownBits w.port a d) v).writeBlock x w d a (v &&& s.knownBits w.port a d) := by
  unfold State.writeExt
  rw [hd]
  dsimp only
  rw [if_neg (by omega), hlane, if_neg (by simp), hrwl]
  have hkeep : ∀ (b : Bool) (old : W64), (if b = true then v &&& ~~~0 ||| old &&& 0 else v) = v := by
    intro b old
    cases b
    · rfl
    · exact (congrArg₂ (· ||| ·) BitVec.and_allOnes BitVec.and_zero).trans BitVec.or_zero
  rw [hkeep]
  change (match (s.countReserved (s.knownBits w.port a d) v).writeBlock x w d a (v &&& s.knownBits w.port a d) with
    | (t, none) => _
    | (t, some c) => _) = _
  generalize (s.countReserved (s.knownBits w.port a d) v).writeBlock x w d a (v &&& s.knownBits w.port a d) = r
  obtain ⟨t, c | c⟩ := r <;> simp

/-! ### EVT_CFG written (R449, R451, R452) -/

/-- What the table says of EVT_CFG: two fields, both of them read and written. -/
def evtCfgDesc : RegDesc := ⟨0x0208, 0, 1, 0x1C1C, [⟨12, 8, .rw⟩, ⟨4, 0, .rw⟩]⟩

theorem findReg_evtCfg : findReg Reg.EVT_CFG = some evtCfgDesc := by decide

theorem needClass_evtCfg (s : State) (w : WCtx) (v : W64) : s.needClass w Reg.EVT_CFG v = 1 := rfl

theorem State.writeExt_evtCfg_observer (s : State) (x : Ext) (w : WCtx) (v : W64) (hc : s.classOf w.port = 0) :
    s.writeExt x w Reg.EVT_CFG v = s.refuse .SYS_AUTH_DENIED 0 Reg.EVT_CFG w.port := by
  unfold State.writeExt
  rw [findReg_evtCfg]
  exact if_pos (by rw [hc, needClass_evtCfg]; decide)

theorem State.storeReg_evtCfg (s : State) (w : WCtx) (v : W64) (hw : w.isCfg = false) :
    s.storeReg w evtCfgDesc Reg.EVT_CFG (v &&& 0x1F1F) = s.setReg Reg.EVT_CFG (v &&& 0x1F1F) := by
  have hkept : evtCfgDesc.accMask (fun c => c == .ro || c == .rc) = 0 := by decide
  have htake : evtCfgDesc.accMask (fun c => c == .rw || c == .rwl || c == .rws) = 0x1F1F := by decide
  have hseen : evtCfgDesc.accMask (fun c => c == .w1c) = 0 := by decide
  have hrws : evtCfgDesc.accMask (fun c => c == .rws) = 0 := by decide
  unfold State.storeReg
  rw [if_neg (by decide), hw, hkept, htake, hseen, if_neg (by decide), if_pos hrws]
  congr 1
  simp [BitVec.and_assoc]

/-- A port of class 1 at least writes the two fields of EVT_CFG. -/
theorem State.writeExt_evtCfg (s : State) (x : Ext) (w : WCtx) (v : W64) (hw : w.isCfg = false) (hc : 1 ≤ s.classOf w.port) :
    s.writeExt x w Reg.EVT_CFG v = ((s.countReserved 0x1F1F v).setReg Reg.EVT_CFG (v &&& 0x1F1F), none) := by
  have hknown : s.knownBits w.port Reg.EVT_CFG evtCfgDesc = 0x1F1F := by
    unfold State.knownBits
    rw [if_neg (by decide), if_neg (by decide)]
    decide
  rw [s.writeExt_of_unlockable x w v findReg_evtCfg (by decide) hc (by decide), hknown]
  exact congrArg (·, none) (State.storeReg_evtCfg _ w v hw)

/-! ### Transactions of the management serial port (R364 to R371) -/

/-- The hub as a transaction of the serial port begins: its status byte is taken, and ERR is clear. -/
def State.spBegun (s : State) : State := { s with sp := { err := false, out := [], status := s.spStatusByte } }

/-- The hub with the words that a transaction gave. -/
def State.spGave (t : State) (out : List W64) : State := { t with sp := { t.sp with out := out } }

section
variable {s : State} {body : State → List W64 × State}

/-- A transaction of a running hub: its body acts, and gives its words. -/
theorem State.spTransaction_of_runs (h : s.runs = true) :
    s.spTransaction body = .next ((body s.spBegun).2.spGave (body s.spBegun).1) := if_pos h

/-- Before the PLL is locked nothing answers. -/
theorem State.spTransaction_of_held (h : s.runs = false) : s.spTransaction body = .next s := if_neg (by simp [h])

end

section
variable (s : State) (addr : BitVec 13)

theorem exec_spStatus (e : Nat) : exec (.spStatus e) s = execSpStatus e s := rfl

theorem exec_spShort : exec .spShort s = execSpShort s := rfl

theorem exec_spIllegal (code : Fin 2) (e : Nat) : exec (.spIllegal code e) s = execSpIllegal code e s := rfl

theorem exec_spRead (n : Nat) (cut extra : Bool) : exec (.spRead addr n cut extra) s = execSpRead addr n cut extra s := rfl

theorem exec_spReadNoinc (n : Nat) (cut : Bool) : exec (.spReadNoinc addr n cut) s = execSpReadNoinc addr n cut s := rfl

theorem exec_spSnapshot (extra : Bool) : exec (.spSnapshot addr extra) s = execSpSnapshot addr extra s := rfl

theorem exec_spWrite (words : List W64) : exec (.spWrite addr words) s = execSpWrite addr words s := rfl

theorem exec_spWriteNoinc (words : List W64) : exec (.spWriteNoinc addr words) s = execSpWriteNoinc addr words s := rfl

end

theorem State.spReads_sys (s : State) {a : Nat} (ha : a < 0x100) : s.spReads a = true := by
  simp [State.spReads, State.portReads, State.answers, spPort, State.openWord, blockOf_sys ha]

theorem State.spReadWords_succ_sys (s : State) (inc : Bool) (n : Nat) {a : Nat} (ha : a < 0x100) (hc : copiedWord a = false)
    (hl : a ≠ Reg.SYS_SPLOST) :
    s.spReadWords inc a (n + 1) = (s.reg a :: ((s.clearRc a).spReadWords inc (if inc then a + 1 else a) n).1,
      ((s.clearRc a).spReadWords inc (if inc then a + 1 else a) n).2) := by
  rw [State.spReadWords, if_neg (by omega), if_pos (s.spReads_sys ha), State.readWord, s.view_sys ha _ hc, s.readEffect_sys ha _ hl]

theorem State.spReadNoinc_mode (s : State) (n : Nat) :
    s.spReadWords false Reg.SYS_MODE n = (List.replicate n (s.reg Reg.SYS_MODE), s) := by
  induction n with
  | zero => rfl
  | succ n ih =>
    rw [s.spReadWords_succ_sys false n (by decide) (by decide) (by decide), s.clearRc_of_no_rc (by decide), if_neg (by decide), ih]
    rfl

theorem State.snapWords_mode (s : State) :
    s.snapWords spPort [Reg.SYS_MODE, Reg.SYS_MODE_SLOT] = ([s.reg Reg.SYS_MODE, s.reg Reg.SYS_MODE_SLOT], s) := by
  have heffect : ∀ a ∈ [Reg.SYS_MODE, Reg.SYS_MODE_SLOT], s.readEffect spPort a = s := by
    intro a ha
    simp only [List.mem_cons, List.not_mem_nil, or_false] at ha
    rcases ha with rfl | rfl
    · rw [s.readEffect_sys (by decide) _ (by decide), s.clearRc_of_no_rc (by decide)]
    · rw [s.readEffect_sys (by decide) _ (by decide), s.clearRc_of_no_rc (by decide)]
  simp only [State.snapWords, List.map_cons, List.map_nil, List.foldl_cons, List.foldl_nil,
    s.view_sys (show Reg.SYS_MODE < 0x100 by decide) spPort (by decide),
    s.view_sys (show Reg.SYS_MODE_SLOT < 0x100 by decide) spPort (by decide), heffect _ (List.mem_cons_self), 
    heffect Reg.SYS_MODE_SLOT (by simp)]

/-- From s to t a count of SYS_SPSTAT went up by one, and ERR is set. -/
def State.SpCounted (s t : State) (f : Fld) : Prop := t.getF f = capAt f.max (s.getF f + 1) ∧ t.sp.err = true

theorem State.spCounted_of_same {s u : State} (f : Fld) (hf : f.hi < 64) (h : u.getF f = s.getF f) (out : List W64) :
    s.SpCounted ((u.spCount f true).spGave out) f :=
  ⟨(u.getF_bump f hf).trans (by rw [h]), rfl⟩

/-- A cut read of SYS_ERRCNT: what it held is kept in SYS_SPLOST under its address, its counts are clear, and the transaction is short. -/
theorem State.spCut_errcnt (s : State) : ∃ u : State, s.spCut Reg.SYS_ERRCNT = u.spCount Reg.SYS_SPSTAT_SHORT true
    ∧ u.reg Reg.SYS_SPLOST = s.reg Reg.SYS_ERRCNT ∧ u.getF Reg.SYS_SPSTAT_LOSTV = 1 ∧ u.getF Reg.SYS_SPSTAT_LOSTADDR = Reg.SYS_ERRCNT
    ∧ u.getF Reg.SYS_ERRCNT_UNIMPL = 0 ∧ u.getF Reg.SYS_SPSTAT_SHORT = s.getF Reg.SYS_SPSTAT_SHORT := by
  obtain ⟨d, hd, hm⟩ := Option.map_eq_some_iff.mp
    (show (findReg Reg.SYS_ERRCNT).map (fun d => d.accMask (fun c => c == .rc)) = some 0xFFFFFFFF00000000 by decide)
  obtain ⟨hreg, hother, -⟩ := s.clearRc_spec hd
  refine ⟨(((s.clearRc Reg.SYS_ERRCNT).setReg Reg.SYS_SPLOST (s.reg Reg.SYS_ERRCNT)).setF Reg.SYS_SPSTAT_LOSTADDR Reg.SYS_ERRCNT).setF
    Reg.SYS_SPSTAT_LOSTV 1, ?_, ?_, ?_, ?_, ?_, ?_⟩
  · unfold State.spCut
    rw [if_pos (s.spReads_sys (by decide)), State.readWord, s.view_sys (by decide) _ (by decide), s.readEffect_sys (by decide) _ (by decide)]
    exact congrArg (fun u : State => u.spCount Reg.SYS_SPSTAT_SHORT true) (if_pos (by decide))
  · rw [State.reg_setF_ne _ _ _ (by decide), State.reg_setF_ne _ _ _ (by decide), State.reg_setReg_self]
  · exact State.getF_setF_self _ _ _ (by decide)
  · exact (State.getF_setF_beside _ Reg.SYS_SPSTAT_LOSTV Reg.SYS_SPSTAT_LOSTADDR 1 rfl (by decide) (by decide)).trans
      (State.getF_setF_self _ _ _ (by decide))
  · rw [State.getF_setF_addr _ _ _ _ (by decide), State.getF_setF_addr _ _ _ _ (by decide), State.getF_setReg_addr _ _ _ (by decide),
      State.getF, show Reg.SYS_ERRCNT_UNIMPL.addr = Reg.SYS_ERRCNT from rfl, hreg, hm]
    exact bits_and_not _ _ _ _ (by decide)
  · refine (State.getF_setF_beside _ Reg.SYS_SPSTAT_LOSTV Reg.SYS_SPSTAT_SHORT 1 rfl (by decide) (by decide)).trans
      ((State.getF_setF_beside _ Reg.SYS_SPSTAT_LOSTADDR Reg.SYS_SPSTAT_SHORT _ rfl (by decide) (by decide)).trans ?_)
    rw [State.getF_setReg_addr _ _ _ (by decide), State.getF, hother _ (by decide), State.getF]

/-- The hub after EVT_CFG was written by a port of class 1 at least. -/
def State.evtCfgSet (s : State) (v : W64) : State := (s.countReserved 0x1F1F v).setReg Reg.EVT_CFG (v &&& 0x1F1F)

theorem State.evtCfgSet_frame (s : State) (v : W64) :
    { s.evtCfgSet v with regs := s.regs } = s ∧ (s.evtCfgSet v).reg Reg.EVT_CFG = v &&& 0x1F1F
      ∧ ∀ a, a ≠ Reg.EVT_CFG → a ≠ Reg.SYS_ERRCNT → (s.evtCfgSet v).reg a = s.reg a := by
  refine ⟨?_, State.reg_setReg_self _ _ _, fun a ha he => (State.reg_setReg_ne _ _ ha).trans ?_⟩
  · unfold State.evtCfgSet State.countReserved
    split <;> rfl
  · unfold State.countReserved
    split
    · rfl
    · exact State.reg_bump_ne _ _ he

theorem State.spWrites_of_acquiring (s : State) (a : Nat) (hr : s.serviceRuns = true) (h0 : s.cur ≠ 0) (h7 : s.cur ≠ 7) :
    s.spWrites a = true := by
  simp [State.spWrites, State.portOpen, State.answers, spPort, h0, h7, hr]

theorem State.runs_of_serviceRuns (s : State) (h : s.serviceRuns = true) : s.runs = true := by
  have hphase : s.mode.phase = .running := by simpa [State.serviceRuns] using h
  rw [State.runs, hphase]

/-- The serial port may write: the hub runs, it is in none of Basecamp and Descent, and the port's class is 1 at least. -/
structure State.SpOpen (s : State) : Prop where
  runs : s.serviceRuns = true
  notBasecamp : s.cur ≠ 0
  notDescent : s.cur ≠ 7
  authority : 1 ≤ s.getF Reg.SYS_AUTH_SP

theorem State.SpOpen.evtCfgSet {s : State} (h : s.SpOpen) (v : W64) : (s.evtCfgSet v).SpOpen := by
  obtain ⟨hframe, -, hreg⟩ := s.evtCfgSet_frame v
  have hcur : (s.evtCfgSet v).cur = s.cur := congrArg (bits · 2 0) (hreg Reg.SYS_MODE (by decide) (by decide))
  exact ⟨(congrArg State.serviceRuns hframe).trans h.runs, by rw [hcur]; exact h.notBasecamp, by rw [hcur]; exact h.notDescent,
    h.authority.trans (congrArg (bits · 9 8) (hreg Reg.SYS_AUTH (by decide) (by decide))).ge⟩

theorem State.spWriteWords_nil (s : State) (inc : Bool) (a : Nat) : s.spWriteWords inc a [] = s := rfl

section
variable (s : State) (inc : Bool) {a : Nat} (rest : List W64) {v : W64} {t : State} (ha : a < 8192) (hw : s.spWrites a = true)
include ha hw

theorem State.spWriteWords_taken (h : s.writeExt hubExt (s.wctx spPort) a v = (t, none)) (ht : t.runs = true) :
    s.spWriteWords inc a (v :: rest) = t.spWriteWords inc (if inc then a + 1 else a) rest := by
  rw [State.spWriteWords, if_neg (Nat.not_le.mpr ha), if_pos hw, h]
  exact if_pos ht

theorem State.spWriteWords_refused {c : Cond} (h : s.writeExt hubExt (s.wctx spPort) a v = (t, some c)) :
    s.spWriteWords inc a [v] = t.spCount Reg.SYS_SPSTAT_REFUSED true := by
  rw [State.spWriteWords, if_neg (Nat.not_le.mpr ha), if_pos hw, h]
  exact ite_self _

end

theorem State.spWriteWords_evtCfg {s : State} (h : s.SpOpen) (inc : Bool) (v : W64) (rest : List W64) :
    s.spWriteWords inc Reg.EVT_CFG (v :: rest)
      = (s.evtCfgSet v).spWriteWords inc (if inc then Reg.EVT_CFG + 1 else Reg.EVT_CFG) rest := by
  exact s.spWriteWords_taken inc rest (by decide) (s.spWrites_of_acquiring _ h.runs h.notBasecamp h.notDescent)
    (s.writeExt_evtCfg hubExt (s.wctx spPort) v rfl h.authority) (State.runs_of_serviceRuns _ (h.evtCfgSet v).runs)

/-- A word that the serial port's class does not cover is refused, logged and counted. -/
theorem State.spWriteWords_observer (s : State) (inc : Bool) (v : W64) (hr : s.serviceRuns = true) (h0 : s.cur ≠ 0) (h7 : s.cur ≠ 7)
    (hc : s.getF Reg.SYS_AUTH_SP = 0) :
    s.spWriteWords inc Reg.EVT_CFG [v] = (s.logRefusal .SYS_AUTH_DENIED 0 Reg.EVT_CFG 4).spCount Reg.SYS_SPSTAT_REFUSED true := by
  exact s.spWriteWords_refused inc (by decide) (s.spWrites_of_acquiring _ hr h0 h7) (s.writeExt_evtCfg_observer hubExt (s.wctx spPort) v hc)

/-- A read of one word of SYS gives what stands in it, and clears its RC fields. -/
theorem State.exec_spRead_one (s : State) {addr : BitVec 13} (h : s.runs = true) (ha : addr.toNat < 0x100) (hc : copiedWord addr.toNat = false)
    (hl : addr.toNat ≠ Reg.SYS_SPLOST) :
    exec (.spRead addr 1 false false) s = .next ((s.spBegun.clearRc addr.toNat).spGave [s.reg addr.toNat]) := by
  rw [exec_spRead]
  refine (State.spTransaction_of_runs h).trans ?_
  dsimp only
  rw [s.spBegun.spReadWords_succ_sys true 0 ha hc hl, decide_eq_false (show ¬ 8192 < addr.toNat + 1 by omega)]
  rfl

/-- The hub as a write of the serial port begins: its stamp is taken beside the status byte. -/
def State.spWriting (s : State) : State := s.spBegun.spStampNow

theorem State.exec_spWrite_one (s : State) (h : s.runs = true) (v : W64) :
    exec (.spWrite (BitVec.ofNat 13 Reg.EVT_CFG) [v]) s = .next ((s.spWriting.spWriteWords true Reg.EVT_CFG [v]).spGave []) := by
  rw [exec_spWrite]
  refine (State.spTransaction_of_runs h).trans ?_
  dsimp only
  rw [decide_eq_false (show ¬ 8192 < (BitVec.ofNat 13 Reg.EVT_CFG).toNat + [v].length from (by decide : ¬ 8192 < 0x0208 + 1))]
  exact congrArg (fun u : State => (.next (u.spGave []) : Res)) (ite_self _)

theorem State.spWriting_spec (s : State) :
    s.spWriting.reg Reg.SYS_SPSTAMP = s.sspStamp ∧ (∀ a ≠ Reg.SYS_SPSTAMP, s.spWriting.reg a = s.reg a) ∧ s.spWriting.cur = s.cur :=
  ⟨State.reg_setReg_self _ _ _, fun _ h => State.reg_setReg_ne _ _ h, State.getF_setReg_addr _ Reg.SYS_MODE_CUR _ (by decide)⟩

/-- What EVT_CFG written once or more leaves of the hub as the transaction began. -/
theorem State.evtCfgSet_spWriting {s t : State} {v : W64} (ht : ∃ u : State, t = u.evtCfgSet v ∧ u.sp = s.spBegun.sp
      ∧ u.reg Reg.SYS_SPSTAMP = s.sspStamp ∧ { u with sp := s.sp, regs := s.regs } = s) :
    (t.spGave []).sp = { err := false, out := [], status := s.spStatusByte } ∧ (t.spGave []).reg Reg.EVT_CFG = v &&& 0x1F1F
      ∧ (t.spGave []).reg Reg.SYS_SPSTAMP = s.sspStamp ∧ { t.spGave [] with sp := s.sp, regs := s.regs } = s := by
  obtain ⟨u, rfl, hsp, hstamp, hu⟩ := ht
  obtain ⟨hframe, hcfg, hreg⟩ := u.evtCfgSet_frame v
  refine ⟨?_, hcfg, (hreg _ (by decide) (by decide)).trans hstamp,
    (congrArg (fun t : State => { t with sp := s.sp, regs := s.regs }) hframe).trans hu⟩
  exact congrArg (fun x : SpSt => { x with out := [] }) ((congrArg State.sp hframe).trans hsp)

/-- Settles O45, transaction by transaction: what its body does to the hub with the status byte taken. -/
theorem managementSerialPort : Obligations.ManagementSerialPort := by
  unfold Obligations.ManagementSerialPort
  intro s up byte clean
  refine ⟨fun h => ?held, fun h =>
    ⟨fun e he => ?whole, fun e he => ?long, fun e he h8 => ?short, ?cut, fun code e => ⟨fun he => ?illegalShort, fun he => ?illegal⟩,
      fun addr d ha hd hc hl => ?read, ?lost, fun n => ?noinc, fun hs h0 => ⟨?snap, fun addr hg => ?noGroup, fun h7 u v => ?write⟩⟩⟩
  case held =>
    exact ⟨(exec_spShort s).trans (State.spTransaction_of_held h),
      fun e => (exec_spStatus s e).trans (State.spTransaction_of_held h)⟩
  case whole =>
    refine ⟨_, (exec_spStatus s e).trans (State.spTransaction_of_runs h), ?_⟩
    rcases he with rfl | rfl <;> exact ⟨rfl, rfl⟩
  case long =>
    refine ⟨_, (exec_spStatus s e).trans (State.spTransaction_of_runs h), ?_⟩
    rw [decide_eq_true he, decide_eq_false (by omega)]
    exact ⟨State.spCounted_of_same _ (by decide) rfl _, rfl⟩
  case short =>
    refine ⟨_, (exec_spStatus s e).trans (State.spTransaction_of_runs h), ?_⟩
    rw [decide_eq_false (by omega), decide_eq_true (by omega)]
    exact ⟨State.spCounted_of_same _ (by decide) rfl _, rfl⟩
  case cut =>
    refine ⟨_, (exec_spShort s).trans (State.spTransaction_of_runs h), ?_, rfl, rfl⟩
    exact State.spCounted_of_same _ (by decide) rfl _
  case illegalShort =>
    refine ⟨_, (exec_spIllegal s code e).trans (State.spTransaction_of_runs h), ?_⟩
    rw [if_pos he]
    exact State.spCounted_of_same _ (by decide) rfl _
  case illegal =>
    refine ⟨_, (exec_spIllegal s code e).trans (State.spTransaction_of_runs h), ?_⟩
    rw [if_neg (by omega)]
    have hill := State.spCounted_of_same (s := s) (u := s.spBegun) Reg.SYS_SPSTAT_ILLEGAL (by decide) rfl []
    by_cases he' : 8 < e
    · rw [decide_eq_true he']
      refine ⟨⟨(State.getF_setF_beside _ Reg.SYS_SPSTAT_LONG Reg.SYS_SPSTAT_ILLEGAL _ rfl (by decide) (by decide)).trans hill.1, rfl⟩,
        fun _ => State.spCounted_of_same _ (by decide) ?_ _⟩
      exact State.getF_setF_beside _ Reg.SYS_SPSTAT_ILLEGAL Reg.SYS_SPSTAT_LONG _ rfl (by decide) (by decide)
    · rw [decide_eq_false he']
      exact ⟨hill, fun h => absurd h he'⟩
  case read =>
    obtain ⟨hreg, -, hframe⟩ := s.spBegun.clearRc_spec hd
    exact ⟨_, s.exec_spRead_one h ha hc hl, congrArg (fun u : State => { u.sp with out := [s.reg addr.toNat] }) hframe, hreg,
      congrArg (fun u : State => { u with sp := s.sp, regs := s.regs }) hframe⟩
  case lost =>
    obtain ⟨u, hcut, hlost, hv, haddr, hzero, hsame⟩ := s.spBegun.spCut_errcnt
    have hexec : exec (.spRead (BitVec.ofNat 13 Reg.SYS_ERRCNT) 0 true false) s
        = .next (((s.spBegun.spCut Reg.SYS_ERRCNT).spCount Reg.SYS_SPSTAT_LONG false).spGave []) :=
      (exec_spRead s _ _ _ _).trans (State.spTransaction_of_runs h)
    rw [hcut] at hexec
    refine ⟨_, hexec, ?_, ?_, ?_, ?_, State.spCounted_of_same _ (by decide) hsame _⟩
    · exact (State.reg_bump_ne u Reg.SYS_SPSTAT_SHORT (by decide)).trans hlost
    · exact (State.getF_setF_beside u Reg.SYS_SPSTAT_SHORT Reg.SYS_SPSTAT_LOSTV _ rfl (by decide) (by decide)).trans hv
    · exact (State.getF_setF_beside u Reg.SYS_SPSTAT_SHORT Reg.SYS_SPSTAT_LOSTADDR _ rfl (by decide) (by decide)).trans haddr
    · exact (State.getF_setF_addr u Reg.SYS_SPSTAT_SHORT Reg.SYS_ERRCNT_UNIMPL _ (by decide)).trans hzero
  case noinc =>
    have hexec : exec (.spReadNoinc (BitVec.ofNat 13 Reg.SYS_MODE) n false) s
        = .next ((s.spBegun.spReadWords false Reg.SYS_MODE n).2.spGave (s.spBegun.spReadWords false Reg.SYS_MODE n).1) :=
      (exec_spReadNoinc s _ n false).trans (State.spTransaction_of_runs h)
    rw [s.spBegun.spReadNoinc_mode] at hexec
    exact ⟨_, hexec, rfl, rfl⟩
  case snap =>
    have hexec : exec (.spSnapshot (BitVec.ofNat 13 Reg.SYS_MODE) false) s
        = .next ((s.spBegun.snapWords spPort [Reg.SYS_MODE, Reg.SYS_MODE_SLOT]).2.spGave
            (s.spBegun.snapWords spPort [Reg.SYS_MODE, Reg.SYS_MODE_SLOT]).1) := by
      rw [exec_spSnapshot]
      refine (State.spTransaction_of_runs h).trans ?_
      rw [if_pos (show s.spBegun.serviceRuns = true from hs)]
      rfl
    rw [s.spBegun.snapWords_mode] at hexec
    exact ⟨_, hexec, rfl, rfl⟩
  case noGroup =>
    have hexec : exec (.spSnapshot addr false) s = .next ((s.spBegun.spCount Reg.SYS_SPSTAT_ILLEGAL true).spGave [0]) := by
      rw [exec_spSnapshot]
      refine (State.spTransaction_of_runs h).trans ?_
      rw [if_pos (show s.spBegun.serviceRuns = true from hs), hg]
      rfl
    exact ⟨_, hexec, State.spCounted_of_same _ (by decide) rfl _, rfl⟩
  case write =>
    obtain ⟨hstamp, hsame, hcur⟩ := s.spWriting_spec
    refine ⟨fun hc => ?_, fun hc => ?_⟩
    · have hexec := s.exec_spWrite_one h v
      rw [s.spWriting.spWriteWords_observer _ _ hs (by rwa [hcur]) (by rwa [hcur])
        ((congrArg (bits · 9 8) (hsame Reg.SYS_AUTH (by decide))).trans hc)]
        at hexec
      refine ⟨_, hexec, State.spCounted_of_same _ (by decide) ?_ _, ?_, ?_⟩
      · exact congrArg (bits · 23 16) ((State.reg_logTo _ _ _ _ _ (by decide)).trans (hsame Reg.SYS_SPSTAT (by decide)))
      · exact (State.reg_bump_ne _ Reg.SYS_SPSTAT_REFUSED (by decide)).trans
          ((State.reg_logTo _ _ _ _ _ (by decide)).trans (hsame Reg.EVT_CFG (by decide)))
      · refine Logged.of_same (s' := s.spWriting) ((State.logged_logRefusal _ _ _ _ _).of_evt rfl) rfl ?_
        exact State.logSlot_congr (fun a ha _ => hsame a (by rintro rfl; revert ha; decide)) rfl
    · have hopen : s.spWriting.SpOpen :=
        ⟨hs, by rwa [hcur], by rwa [hcur], hc.trans (congrArg (bits · 9 8) (hsame Reg.SYS_AUTH (by decide))).ge⟩
      refine ⟨?_, ?_⟩
      · have hexec := s.exec_spWrite_one h v
        rw [State.spWriteWords_evtCfg hopen, State.spWriteWords_nil] at hexec
        exact ⟨_, hexec, State.evtCfgSet_spWriting ⟨_, rfl, rfl, hstamp, rfl⟩⟩
      · have hexec : exec (.spWriteNoinc (BitVec.ofNat 13 Reg.EVT_CFG) [u, v]) s
            = .next ((s.spWriting.spWriteWords false Reg.EVT_CFG [u, v]).spGave []) :=
          (exec_spWriteNoinc s _ _).trans (State.spTransaction_of_runs h)
        obtain ⟨hframe, -, hreg⟩ := s.spWriting.evtCfgSet_frame u
        rw [State.spWriteWords_evtCfg hopen, if_neg (by decide), State.spWriteWords_evtCfg (hopen.evtCfgSet u), State.spWriteWords_nil] at hexec
        exact ⟨_, hexec, State.evtCfgSet_spWriting ⟨_, rfl, (congrArg State.sp hframe :), (hreg _ (by decide) (by decide)).trans hstamp,
          congrArg (fun t : State => { t with sp := s.sp, regs := s.regs }) hframe⟩⟩

end Sys2Proof.Machine

namespace Sys2Proof.Machine
open Sys2Proof

/-! ### Crossings (R212 to R214) -/

/-- The crossings of a comparator that are held, newest first. -/
def State.crossings (s : State) (k : Nat) (cmp : Comparator) : List (Bool × Nat) :=
  if cmp == .a then (s.fasts.get (fun _ => {}) k).crossA else (s.fasts.get (fun _ => {}) k).crossB

/-- The crossings of a comparator replaced. -/
def State.setCrossings (s : State) (k : Nat) (cmp : Comparator) (l : List (Bool × Nat)) : State :=
  { s with fasts := s.fasts.set (fun _ => {}) k (if cmp == .a then { s.fasts.get (fun _ => {}) k with crossA := l }
    else { s.fasts.get (fun _ => {}) k with crossB := l }) }

/-- EN, LVL and CROSS of a comparator. -/
def cmpEn (k : Nat) (cmp : Comparator) : Fld := if cmp == .a then Reg.FC_CMP_EN_A k else Reg.FC_CMP_EN_B k
/-- LVL. -/
def cmpLvl (k : Nat) (cmp : Comparator) : Fld := if cmp == .a then Reg.FC_CSTAT_LVL_A k else Reg.FC_CSTAT_LVL_B k
/-- CROSS. -/
def cmpCnt (k : Nat) (cmp : Comparator) : Fld := if cmp == .a then Reg.FC_CSTAT_CROSS_A k else Reg.FC_CSTAT_CROSS_B k

section
variable (k : Nat) (cmp : Comparator)

theorem cmpLvl_place : (cmpLvl k cmp).addr = Reg.FC_CSTAT k ∧ (cmpLvl k cmp).hi = (cmpLvl k cmp).lo ∧ (cmpLvl k cmp).hi < 2 := by
  cases cmp
  · exact ⟨rfl, rfl, show 0 < 2 by decide⟩
  · exact ⟨rfl, rfl, show 1 < 2 by decide⟩

theorem cmpCnt_place : (cmpCnt k cmp).addr = Reg.FC_CSTAT k ∧ (cmpCnt k cmp).hi < 64 ∧ 31 < (cmpCnt k cmp).lo
    ∧ (cmpCnt k cmp).hi + 1 - (cmpCnt k cmp).lo = 16 := by
  cases cmp
  · exact ⟨rfl, show 63 < 64 by decide, show 31 < 48 by decide, rfl⟩
  · exact ⟨rfl, show 47 < 64 by decide, show 31 < 32 by decide, rfl⟩

theorem cmpCnt_max : (cmpCnt k cmp).max = 65535 := by
  rw [Fld.max, (cmpCnt_place k cmp).2.2.2]
  rfl

end

theorem State.crossings_setCrossings (s : State) (k : Nat) (cmp : Comparator) (l : List (Bool × Nat)) :
    (s.setCrossings k cmp l).crossings k cmp = l := by
  unfold State.crossings State.setCrossings
  cases cmp <;> simp [Sparse.get_set_self]

section
variable (k : Fin 8) (cmp : Comparator) (rising : Bool) (stamp : Nat) (s : State)

/-- The time of a crossing: its stamp less FC_CSKEW. -/
def State.crossTime (s : State) (k stamp : Nat) : Nat := ((stamp : Int) - s.getS (Reg.FC_CSKEW_SKEW k)).toNat

theorem execCrossing_off (h : s.effFlag (cmpEn k cmp) = false) : execCrossing k cmp rising stamp s = .next s := by
  unfold execCrossing
  exact if_pos (by rw [Bool.not_eq_true']; exact h)

/-- A crossing that no other one within 16 root ticks precedes. -/
theorem execCrossing_kept (h : s.effFlag (cmpEn k cmp) = true)
    (hfar : ∀ c rest, s.crossings k cmp = c :: rest → c.2 + 1024 < s.crossTime k stamp) :
    execCrossing k cmp rising stamp s = .next (((s.setCrossings k cmp ((rising, s.crossTime k stamp) :: s.crossings k cmp)).bump
      (cmpCnt k cmp)).setF (cmpLvl k cmp) (b2n rising)) := by
  have hon : (!s.effFlag (cmpEn k cmp)) ≠ true := by simp [h]
  refine (if_neg hon).trans ?_
  dsimp only
  split
  next c rest hl =>
    exact if_neg (Nat.not_le.mpr (hfar c rest hl))
  next hl =>
    have hl' : s.crossings k cmp = [] := hl
    rw [hl']
    rfl

/-- A crossing within 16 root ticks of the one before it: both are discarded. -/
theorem execCrossing_merged (h : s.effFlag (cmpEn k cmp) = true) {c : Bool × Nat} {rest : List (Bool × Nat)}
    (hl : s.crossings k cmp = c :: rest) (hnear : s.crossTime k stamp ≤ c.2 + 1024) :
    execCrossing k cmp rising stamp s = .next ((((s.setCrossings k cmp rest).setF (cmpCnt k cmp) (s.getF (cmpCnt k cmp) - 1)).bump
      (Reg.FC_CSTAT_MERGED k)).setF (cmpLvl k cmp) (b2n (!c.1))) := by
  have hon : (!s.effFlag (cmpEn k cmp)) ≠ true := by simp [h]
  refine (if_neg hon).trans ?_
  dsimp only
  split
  next c' rest' hl' =>
    obtain ⟨rfl, rfl⟩ := List.cons.inj (hl.symm.trans hl')
    exact if_pos hnear
  next hl' => exact absurd (hl.symm.trans hl') (List.cons_ne_nil _ _)

end

/-- A field of FC_CSTAT below CROSS written, or MERGED counted, leaves CROSS. -/
theorem State.getF_cmpCnt_below (s : State) (k : Nat) (cmp : Comparator) (f : Fld) (v : Nat) (ha : f.addr = Reg.FC_CSTAT k) (hf : f.hi < 32) :
    (s.setF f v).getF (cmpCnt k cmp) = s.getF (cmpCnt k cmp) := by
  obtain ⟨haddr, hhi, hlo, -⟩ := cmpCnt_place k cmp
  exact State.getF_setF_beside s f _ v (haddr.trans ha.symm) hhi (Or.inr (by omega))

theorem State.getF_cmpLvl_set (s : State) (k : Nat) (cmp : Comparator) (b : Bool) :
    (s.setF (cmpLvl k cmp) (b2n b)).getF (cmpLvl k cmp) = if b then 1 else 0 := by
  obtain ⟨-, heq, hlt⟩ := cmpLvl_place k cmp
  rw [State.getF_setF_self _ _ _ (by omega), heq, show (cmpLvl k cmp).lo + 1 - (cmpLvl k cmp).lo = 1 by omega]
  cases b <;> rfl

section
variable (k : Fin 8) (cmp : Comparator) (rising : Bool) (stamp : Nat) (s : State)

theorem crossing_kept (h : s.effFlag (cmpEn k cmp) = true)
    (hfar : ∀ c rest, s.crossings k cmp = c :: rest → c.2 + 1024 < s.crossTime k stamp) :
    Gives (.crossing k cmp rising stamp) s (fun t =>
      t.crossings k cmp = (rising, s.crossTime k stamp) :: s.crossings k cmp
      ∧ t.getF (cmpCnt k cmp) = capAt 65535 (s.getF (cmpCnt k cmp) + 1)
      ∧ t.getF (cmpLvl k cmp) = (if rising then 1 else 0) ∧ { t with regs := s.regs, fasts := s.fasts } = s) := by
  obtain ⟨hlvl, hlo, hlt⟩ := cmpLvl_place k cmp
  refine ⟨_, execCrossing_kept k cmp rising stamp s h hfar, ?_, ?_, State.getF_cmpLvl_set _ _ _ _, rfl⟩
  · exact State.crossings_setCrossings s k cmp _
  · rw [State.getF_cmpCnt_below _ _ _ _ _ hlvl (by omega), State.getF_bump _ _ (cmpCnt_place k cmp).2.1, cmpCnt_max]
    rfl

theorem crossing_merged (h : s.effFlag (cmpEn k cmp) = true) {r : Bool} {m : Nat} {rest : List (Bool × Nat)}
    (hl : s.crossings k cmp = (r, m) :: rest) (hnear : s.crossTime k stamp ≤ m + 1024) :
    Gives (.crossing k cmp rising stamp) s (fun t =>
      t.crossings k cmp = rest ∧ t.getF (cmpCnt k cmp) = s.getF (cmpCnt k cmp) - 1 ∧ t.getF (cmpLvl k cmp) = (if r then 0 else 1)
      ∧ t.getF (Reg.FC_CSTAT_MERGED k) = capAt 65535 (s.getF (Reg.FC_CSTAT_MERGED k) + 1)
      ∧ { t with regs := s.regs, fasts := s.fasts } = s) := by
  obtain ⟨hlvl, hlo, hlt⟩ := cmpLvl_place k cmp
  obtain ⟨hcnt, hhi, hcnt31, hwidth⟩ := cmpCnt_place k cmp
  refine ⟨_, execCrossing_merged k cmp rising stamp s h hl hnear, State.crossings_setCrossings s k cmp _, ?_, ?_, ?_, rfl⟩
  · have hold : s.getF (cmpCnt k cmp) < 2 ^ 16 := by
      rw [← hwidth]
      exact Nat.mod_lt _ (by positivity)
    rw [State.getF_cmpCnt_below _ _ _ _ _ hlvl (by omega)]
    refine (State.getF_cmpCnt_below _ k cmp (Reg.FC_CSTAT_MERGED k) _ rfl (show 31 < 32 by decide)).trans ?_
    rw [State.getF_setF_self _ _ _ hhi, hwidth]
    omega
  · rw [State.getF_cmpLvl_set]
    cases r <;> rfl
  · rw [State.getF_setF_beside _ _ (Reg.FC_CSTAT_MERGED k) _ hlvl.symm (show 31 < 64 by decide) (Or.inr (show _ < 16 by omega)),
      State.getF_bump _ _ (show 31 < 64 by decide)]
    refine congrArg (fun n => capAt 65535 (n + 1)) ?_
    exact State.getF_setF_beside (s.setCrossings k cmp rest) (cmpCnt k cmp) (Reg.FC_CSTAT_MERGED k) _ hcnt.symm (show 31 < 64 by decide) (Or.inl hcnt31)

end
/-! ### Descriptors and units (R220 to R226, R231) -/

theorem State.desc_setDesc (s : State) (i w j k : Nat) (v : W64) :
    (s.setDesc i w v).desc j k = if 16 * j + k = 16 * i + w then v else s.desc j k := Sparse.get_set _ s.cap.descs _ _ v

theorem State.desc_setDesc_ne (s : State) (i : Nat) {w k : Nat} (v : W64) (h : k ≠ w) : (s.setDesc i w v).desc i k = s.desc i k := by
  rw [State.desc_setDesc, if_neg (by omega)]

theorem State.desc_setDesc_self (s : State) (i w : Nat) (v : W64) : (s.setDesc i w v).desc i w = v := by
  rw [State.desc_setDesc, if_pos rfl]

theorem State.descState_setDescState (s : State) (i v : Nat) (h : v < 16) : (s.setDescState i v).descState i = v := by
  rw [State.descState, State.setDescState, State.desc_setDesc_self, bits_setBits _ _ (by decide)]
  exact Nat.mod_eq_of_lt h

/-- STATE of a unit written: the unit is in it, and TRG_STAT changes in nothing else. -/
theorem State.setTrg_spec (s : State) (u st : Nat) (h : st < 16) :
    (s.setTrg u st).trgState u = st
      ∧ ∀ f : Fld, f.addr = Reg.TRG_STAT u → f.hi < 60 → (s.setTrg u st).getF f = s.getF f := by
  have hcap : ∀ (f : Fld) (t : State) (g : Fld) (v : Nat), f.addr = Reg.TRG_STAT u → g.addr = Reg.CAP_STATUS → (t.setF g v).getF f = t.getF f := by
    intro f t g v hf hg
    refine State.getF_setF_addr t g f v ?_
    rw [hf, hg]
    simp only [Reg.TRG_STAT, Reg.CAP_STATUS]
    omega
  have hput : ∀ f : Fld, f.addr = Reg.TRG_STAT u → (s.setTrg u st).getF f = (s.setF (Reg.TRG_STAT_STATE u) st).getF f := fun f hf =>
    (hcap f _ _ _ hf rfl).trans ((hcap f _ _ _ hf rfl).trans (hcap f _ _ _ hf rfl))
  refine ⟨(hput _ rfl).trans ?_, fun f hf hhi => (hput f hf).trans ?_⟩
  · rw [State.getF_setF_self _ _ _ (show 63 < 64 by decide)]
    exact Nat.mod_eq_of_lt h
  · exact State.getF_setF_beside s _ f _ hf (by omega) (Or.inl hhi)

/-- The trigger point at an instant in TDC bins. -/
def State.pointAt (s : State) (bins : Nat) : TrigPoint :=
  { clock := bins / 2048, bins := bins, slot := (s.place bins).1, bin := (s.place bins).2, frac := bins % 2048 }

/-- The unit's side of a record that a trigger opens. -/
def State.openedUnit (s : State) (u : Nat) (p : TrigPoint) (decM decFlags : Nat) : TrigSt :=
  let j := p.clock - (s.unit u).first
  { s.unit u with trig := j, kept := j - capAt (s.descPre (s.trgDesc u)) j, post := s.descPost (s.trgDesc u), decM := decM, decFlags := decFlags }

/-- The hub with a unit's record open and the times of its frames not yet written. -/
def State.opening (s : State) (u : Nat) (p : TrigPoint) (decM decFlags : Nat) : State :=
  ((s.setUnit u (s.openedUnit u p decM decFlags)).setTrg u 3).setDescState (s.trgDesc u) 2

theorem State.openRecord_eq (s : State) (u : Nat) (p : TrigPoint) (m fl : Nat) : ∃ v5 v14 v6 v7 : W64,
    s.openRecord u p m fl = (((((s.opening u p m fl).setDesc (s.trgDesc u) 4 (BitVec.ofNat 64 p.slot)).setDesc (s.trgDesc u) 5 v5).setDesc
      (s.trgDesc u) 14 v14).setDesc (s.trgDesc u) 6 v6).setDesc (s.trgDesc u) 7 v7 := ⟨_, _, _, _, rfl⟩

theorem State.getF_congr {s t : State} (h : t.regs = s.regs) (f : Fld) : t.getF f = s.getF f := by rw [State.getF, State.reg, h, ← State.reg, ← State.getF]

theorem State.unit_congr {s t : State} (h : t.cap.units = s.cap.units) (u : Nat) : t.unit u = s.unit u := by rw [State.unit, h, ← State.unit]

theorem State.getF_setDesc (s : State) (i w : Nat) (v : W64) (f : Fld) : (s.setDesc i w v).getF f = s.getF f :=
  State.getF_congr (State.setDesc_regs _ _ _ _) f

theorem State.unit_setDesc (s : State) (i w : Nat) (v : W64) (u : Nat) : (s.setDesc i w v).unit u = s.unit u :=
  State.unit_congr rfl u

theorem State.unit_setTrg (s : State) (u st k : Nat) : (s.setTrg u st).unit k = s.unit k :=
  State.unit_congr (congrArg CapSt.units (show (s.setTrg u st).cap = s.cap from rfl)) k

theorem State.opening_descState (s : State) (u : Nat) (p : TrigPoint) (m fl : Nat) : (s.opening u p m fl).descState (s.trgDesc u) = 2 :=
  State.descState_setDescState _ _ 2 (by decide)

theorem State.opening_unit (s : State) (u : Nat) (p : TrigPoint) (m fl : Nat) : (s.opening u p m fl).unit u = s.openedUnit u p m fl :=
  (State.unit_setDesc _ _ _ _ _).trans ((State.unit_setTrg _ _ _ _).trans (State.unit_setUnit_self s u _))

theorem State.getF_opening (s : State) (u : Nat) (p : TrigPoint) (m fl : Nat) (f : Fld) :
    (s.opening u p m fl).getF f = ((s.setUnit u (s.openedUnit u p m fl)).setTrg u 3).getF f := State.getF_setDesc _ _ _ _ _

theorem State.opening_stat (s : State) (u : Nat) (p : TrigPoint) (m fl : Nat) : (s.opening u p m fl).trgState u = 3
    ∧ (s.opening u p m fl).getF (Reg.TRG_STAT_TRIGS u) = s.getF (Reg.TRG_STAT_TRIGS u) := by
  obtain ⟨hst, hother⟩ := State.setTrg_spec (s.setUnit u (s.openedUnit u p m fl)) u 3 (by decide)
  rw [State.trgState, s.getF_opening, s.getF_opening]
  exact ⟨hst, (hother (Reg.TRG_STAT_TRIGS u) rfl (show 31 < 60 by decide)).trans (State.getF_congr (State.setUnit_regs _ _ _) _)⟩

/-- A record opened: the unit and its descriptor are OPEN, word 4 names the slot of the trigger. -/
theorem State.openRecord_spec (s : State) (u : Nat) (p : TrigPoint) (m fl : Nat) :
    (s.openRecord u p m fl).trgState u = 3 ∧ (s.openRecord u p m fl).descState (s.trgDesc u) = 2
      ∧ (s.openRecord u p m fl).desc (s.trgDesc u) 4 = BitVec.ofNat 64 p.slot ∧ (s.openRecord u p m fl).unit u = s.openedUnit u p m fl
      ∧ (s.openRecord u p m fl).getF (Reg.TRG_STAT_TRIGS u) = s.getF (Reg.TRG_STAT_TRIGS u) := by
  obtain ⟨v5, v14, v6, v7, h⟩ := s.openRecord_eq u p m fl
  obtain ⟨hst, htrigs⟩ := s.opening_stat u p m fl
  rw [h, State.trgState, State.descState]
  refine ⟨?_, ?_, ?_, ?_, ?_⟩
  · simp only [State.getF_setDesc]
    exact hst
  · rw [State.desc_setDesc_ne _ _ _ (by decide), State.desc_setDesc_ne _ _ _ (by decide),
      State.desc_setDesc_ne _ _ _ (by decide), State.desc_setDesc_ne _ _ _ (by decide), State.desc_setDesc_ne _ _ _ (by decide)]
    exact s.opening_descState u p m fl
  · rw [State.desc_setDesc_ne _ _ _ (by decide), State.desc_setDesc_ne _ _ _ (by decide),
      State.desc_setDesc_ne _ _ _ (by decide), State.desc_setDesc_ne _ _ _ (by decide), State.desc_setDesc_self]
  · simp only [State.unit_setDesc, s.opening_unit]
  · simp only [State.getF_setDesc, htrigs]

/-- A trigger counted: its stamp waits, and of TRG_STAT only TRIGS changes. -/
theorem State.trigActions_spec (s : State) (u : Nat) (p : TrigPoint) :
    (s.trigActions u p).trgState u = s.trgState u ∧ (s.trigActions u p).unit u = { s.unit u with stamps := (s.unit u).stamps ++ [p] }
      ∧ (s.trigActions u p).getF (Reg.TRG_STAT_TRIGS u) = capAt 65535 (s.getF (Reg.TRG_STAT_TRIGS u) + 1)
      ∧ ∀ i w, (s.trigActions u p).desc i w = s.desc i w :=
  ⟨State.getF_setF_beside _ (Reg.TRG_STAT_TRIGS u) (Reg.TRG_STAT_STATE u) _ rfl (show 63 < 64 by decide) (Or.inr (show 31 < 60 by decide)),
    State.unit_setUnit_self s u _, State.getF_bump _ (Reg.TRG_STAT_TRIGS u) (show 31 < 64 by decide), fun _ _ => rfl⟩

/-! ### What a trigger at an instant does (R220, R224 to R226, R231, R233) -/

section
variable (s : State) (u b m fl : Nat)

/-- A trigger of a ready unit with a record opens it. -/
theorem State.fire_opens (hst : s.trgState u = 1 ∨ s.trgState u = 2) (hi : s.trgDesc u ≠ 255) (hb : (s.unit u).first ≤ b / 2048) :
    s.fire u b m fl = (s.openRecord u (s.pointAt b) m fl).trigActions u (s.pointAt b) := by
  unfold State.fire
  rw [if_neg (by omega), if_pos hst, if_neg hi]
  exact if_neg (Nat.not_lt.mpr hb)

theorem State.fire_opens_spec (hst : s.trgState u = 1 ∨ s.trgState u = 2) (hi : s.trgDesc u ≠ 255) (hb : (s.unit u).first ≤ b / 2048) :
    (s.fire u b m fl).trgState u = 3 ∧ (s.fire u b m fl).descState (s.trgDesc u) = 2
      ∧ (s.fire u b m fl).desc (s.trgDesc u) 4 = BitVec.ofNat 64 (s.place b).1
      ∧ (∃ l, (s.fire u b m fl).unit u = { s.openedUnit u (s.pointAt b) m fl with stamps := l })
      ∧ (s.fire u b m fl).getF (Reg.TRG_STAT_TRIGS u) = capAt 65535 (s.getF (Reg.TRG_STAT_TRIGS u) + 1) := by
  obtain ⟨hstate, hdesc, hslot, hunit, htrigs⟩ := s.openRecord_spec u (s.pointAt b) m fl
  obtain ⟨hstate', hunit', htrigs', hdesc'⟩ := (s.openRecord u (s.pointAt b) m fl).trigActions_spec u (s.pointAt b)
  rw [s.fire_opens u b m fl hst hi hb]
  refine ⟨hstate'.trans hstate, ?_, (hdesc' _ 4).trans hslot, ⟨_, by rw [hunit', hunit]⟩, by rw [htrigs', htrigs]⟩
  rw [State.descState, hdesc', ← State.descState, hdesc]

/-- The trigger lies before the Summit exit of its unit, if one is due. -/
def TrigSt.before (x : TrigSt) (b : Nat) : Prop := ∀ lim, x.exitAt = some lim → b / 2048 * 2048 < lim

theorem TrigSt.before_iff (x : TrigSt) : x.before b ↔ ¬ x.exitAt.any (fun lim => decide (lim ≤ b / 2048 * 2048)) = true := by
  unfold TrigSt.before
  cases x.exitAt <;> simp

theorem State.fire_secondary (hst : s.trgState u = 3) (hx : (s.unit u).before b)
    (hb : b / 2048 < (s.unit u).first + (s.unit u).trig + (s.unit u).post) :
    ∃ at_, s.fire u b m fl = (s.setUnit u { s.unit u with secs := capAt (2 ^ 32 - 1) ((s.unit u).secs + 1), secAt := at_ }).trigActions u
      (s.pointAt b) := by
  unfold State.fire
  rw [if_neg (by omega), if_neg (by omega)]
  exact ⟨_, (if_neg ((TrigSt.before_iff b _).mp hx)).trans (if_pos ⟨hst, hb⟩)⟩

/-- From a Summit exit on a trigger is neither secondary nor a miss. -/
theorem State.fire_after_exit (hst : 3 ≤ s.trgState u) (hx : ¬ (s.unit u).before b) : s.fire u b m fl = s := by
  unfold State.fire
  rw [if_neg (by omega), if_neg (by omega)]
  exact if_pos (by by_contra h; exact hx ((TrigSt.before_iff b _).mpr h))

theorem State.fire_missed (hst : 4 ≤ s.trgState u) (hx : (s.unit u).before b) : s.fire u b m fl = s.missTrig u (s.pointAt b) := by
  unfold State.fire
  rw [if_neg (by omega), if_neg (by omega)]
  exact (if_neg ((TrigSt.before_iff b _).mp hx)).trans (if_neg (by omega))

end

/-- A miss while the miss log has room. -/
theorem State.missTrig_eq (s : State) (u : Nat) (p : TrigPoint) (h : s.cap.misses.length < 64) : ∃ (n : Nat) (x : Miss),
    s.missTrig u p
      = { (s.bump (Reg.TRG_STAT_MISSES u)).setF Reg.CAP_MISS_CNT_TOTAL n with cap := { s.cap with misses := s.cap.misses ++ [x] } } :=
  ⟨_, _, if_pos h⟩

theorem State.missTrig_spec (s : State) (u : Nat) (p : TrigPoint) (h : s.cap.misses.length < 64) :
    (s.missTrig u p).trgState u = s.trgState u ∧ (s.missTrig u p).cap.misses.length = s.cap.misses.length + 1
      ∧ (s.missTrig u p).getF (Reg.TRG_STAT_MISSES u) = capAt 65535 (s.getF (Reg.TRG_STAT_MISSES u) + 1) := by
  obtain ⟨n, x, heq⟩ := s.missTrig_eq u p h
  have hne : Reg.TRG_STAT u ≠ Reg.CAP_MISS_CNT := by
    simp only [Reg.TRG_STAT, Reg.CAP_MISS_CNT]
    omega
  have hregs : (s.missTrig u p).regs = ((s.bump (Reg.TRG_STAT_MISSES u)).setF Reg.CAP_MISS_CNT_TOTAL n).regs := by rw [heq]
  refine ⟨?_, by rw [heq]; exact List.length_append, ?_⟩
  · exact (State.getF_congr hregs _).trans <| (State.getF_setF_addr _ Reg.CAP_MISS_CNT_TOTAL (Reg.TRG_STAT_STATE u) _ hne).trans
      (State.getF_setF_beside s (Reg.TRG_STAT_MISSES u) (Reg.TRG_STAT_STATE u) _ rfl (show 63 < 64 by decide) (Or.inr (show 15 < 60 by decide)))
  · exact (State.getF_congr hregs _).trans <| (State.getF_setF_addr _ Reg.CAP_MISS_CNT_TOTAL (Reg.TRG_STAT_MISSES u) _ hne).trans (s.getF_bump _ (show 15 < 64 by decide))

/-- The unit with the time it judged last, and the hub with it. -/
def State.judged (s : State) (u at_ : Nat) : State := s.setUnit u { s.unit u with seen := at_ }

theorem takeTrigger_some (s : State) (u : Fin 8) {at_ b : Nat} (h : s.nextTrigger u = some (at_, b)) :
    ∃ m fl, exec (.triggerQualified u) s = .next ((s.judged u at_).fire u b m fl) := by
  have heq : s.takeTrigger u = s.takePoint u at_ b := by
    unfold State.takeTrigger
    rw [h]
  exact ⟨_, _, congrArg (.next : State → Res) heq⟩

theorem takeTrigger_none (s : State) (u : Fin 8) (h : s.nextTrigger u = none) : exec (.triggerQualified u) s = .next s := by
  have heq : s.takeTrigger u = s := by
    unfold State.takeTrigger
    rw [h]
  exact congrArg (.next : State → Res) heq

theorem capAt_eq_min (n v : Nat) : capAt n v = min n v := by
  unfold capAt
  split <;> omega

/-- What a trigger that opens a record leaves, whatever of its unit was noted with it. -/
def State.Opens (s : State) (u b : Nat) (t : State) : Prop :=
  t.trgState u = 3 ∧ t.descState (s.trgDesc u) = 2 ∧ t.desc (s.trgDesc u) 4 = BitVec.ofNat 64 (s.place b).1
    ∧ (t.unit u).trig = b / 2048 - (s.unit u).first
    ∧ (t.unit u).kept = b / 2048 - (s.unit u).first - min (s.descPre (s.trgDesc u)) (b / 2048 - (s.unit u).first)
    ∧ (t.unit u).post = s.descPost (s.trgDesc u)
    ∧ t.getF (Reg.TRG_STAT_TRIGS u) = capAt 65535 (s.getF (Reg.TRG_STAT_TRIGS u) + 1)

/-- A trigger of a ready unit, once the unit has noted what it took as x: its record is OPEN. -/
theorem State.opens_of_ready (s : State) (u b m fl : Nat) (x : TrigSt) (hx : x.first = (s.unit u).first)
    (hst : s.trgState u = 1 ∨ s.trgState u = 2) (hi : s.trgDesc u ≠ 255) (hb : (s.unit u).first ≤ b / 2048) :
    s.Opens u b ((s.setUnit u x).fire u b m fl) ∧ (((s.setUnit u x).fire u b m fl).unit u).toUsed = x.toUsed := by
  have hunit : (s.setUnit u x).unit u = x := State.unit_setUnit_self s u x
  obtain ⟨hstate, hdesc, hslot, ⟨l, hl⟩, htrigs⟩ := (s.setUnit u x).fire_opens_spec u b m fl hst hi (by rwa [hunit, hx])
  have hopened : (s.setUnit u x).openedUnit u ((s.setUnit u x).pointAt b) m fl
      = { x with trig := b / 2048 - x.first, kept := b / 2048 - x.first - capAt (s.descPre (s.trgDesc u)) (b / 2048 - x.first),
                 post := s.descPost (s.trgDesc u), decM := m, decFlags := fl } := by
    unfold State.openedUnit
    rw [hunit]
    rfl
  rw [hopened, hx, capAt_eq_min] at hl
  exact ⟨⟨hstate, hdesc, hslot, by rw [hl], by rw [hl], by rw [hl], htrigs⟩, by rw [hl]⟩

section
variable {s : State} {u : Fin 8} {at_ b : Nat} (h : s.nextTrigger u = some (at_, b))
include h

theorem triggerQualified_opens (hst : s.trgState u = 1 ∨ s.trgState u = 2) (hi : s.trgDesc u ≠ 255) (hb : (s.unit u).first ≤ b / 2048) :
    Gives (.triggerQualified u) s (s.Opens u b) := by
  obtain ⟨m, fl, hexec⟩ := takeTrigger_some s u h
  exact ⟨_, hexec, (s.opens_of_ready u b m fl { s.unit u with seen := at_ } rfl hst hi hb).1⟩

theorem triggerQualified_secondary (hst : s.trgState u = 3) (hx : (s.unit u).before b)
    (hb : b / 2048 < (s.unit u).first + (s.unit u).trig + (s.unit u).post) :
    Gives (.triggerQualified u) s (fun t =>
      t.trgState u = 3 ∧ (t.unit u).secs = capAt (2 ^ 32 - 1) ((s.unit u).secs + 1) ∧ (t.unit u).seen = at_) := by
  obtain ⟨m, fl, hexec⟩ := takeTrigger_some s u h
  have hunit : (s.judged u at_).unit u = { s.unit u with seen := at_ } := State.unit_setUnit_self s u _
  obtain ⟨w, hw⟩ := (s.judged u at_).fire_secondary u b m fl hst (by rw [hunit]; exact hx) (by rw [hunit]; exact hb)
  rw [hw, hunit] at hexec
  obtain ⟨hstate, hu, -, -⟩ := State.trigActions_spec ((s.judged u at_).setUnit u { s.unit u with
    seen := at_, secs := capAt (2 ^ 32 - 1) ((s.unit u).secs + 1), secAt := w }) u ((s.judged u at_).pointAt b)
  rw [State.unit_setUnit_self] at hu
  exact ⟨_, hexec, hstate.trans hst, by rw [hu], by rw [hu]⟩

theorem triggerQualified_after_exit (hst : 3 ≤ s.trgState u) (hx : ¬ (s.unit u).before b) :
    exec (.triggerQualified u) s = .next (s.judged u at_) := by
  obtain ⟨m, fl, hexec⟩ := takeTrigger_some s u h
  have hunit : (s.judged u at_).unit u = { s.unit u with seen := at_ } := State.unit_setUnit_self s u _
  rw [hexec, (s.judged u at_).fire_after_exit u b m fl hst (by rw [hunit]; exact hx)]

theorem triggerQualified_missed (hst : 4 ≤ s.trgState u) (hx : (s.unit u).before b) (hroom : s.cap.misses.length < 64) :
    Gives (.triggerQualified u) s (fun t =>
      t.trgState u = s.trgState u ∧ t.cap.misses.length = s.cap.misses.length + 1
        ∧ t.getF (Reg.TRG_STAT_MISSES u) = capAt 65535 (s.getF (Reg.TRG_STAT_MISSES u) + 1)) := by
  obtain ⟨m, fl, hexec⟩ := takeTrigger_some s u h
  have hunit : (s.judged u at_).unit u = { s.unit u with seen := at_ } := State.unit_setUnit_self s u _
  rw [(s.judged u at_).fire_missed u b m fl hst (by rw [hunit]; exact hx)] at hexec
  exact ⟨_, hexec, (s.judged u at_).missTrig_spec u _ hroom⟩

end

/-- A TIMEOUT unit that is ready fires for its reference, and remembers it. -/
theorem triggerTimeout_opens {s : State} {u : Fin 8} {r n b : Nat} (hty : s.effF (Reg.TRG_CFG_TYPE u) = 3)
    (hst : s.trgState u = 1 ∨ s.trgState u = 2) (href : s.timeoutRef u = some (r, n)) (hpt : s.pointOf u n = some b)
    (hdue : b / 2048 + 6 ≤ s.edgeNow) (hi : s.trgDesc u ≠ 255) (hb : (s.unit u).first ≤ b / 2048) :
    Gives (.triggerTimeout u) s (fun t => s.Opens u b t ∧ (t.unit u).toUsed = some r) := by
  have hnext : s.nextTimeout u = some (r, n, b) := by
    unfold State.nextTimeout
    rw [if_neg (by omega), href]
    simp only [hpt, Option.map_some]
  have hexec : exec (.triggerTimeout u) s = .next (s.takeTimeout u r n b) := by
    change execTriggerTimeout u s = _
    unfold execTriggerTimeout
    rw [hnext]
    exact if_pos hdue
  exact ⟨_, hexec, s.opens_of_ready u b _ _ { s.unit u with toUsed := some r } rfl hst hi hb⟩

/-! ### Trigger stamps (R220, R234) -/

/-- A step of a fold that changes the engines only makes the fold change the engines only. -/
theorem State.foldl_engs {β : Type} (l : List β) (f : State → β → State) (s : State) (hf : ∀ t x, ∃ y, f t x = { t with engs := y }) :
    ∃ y, l.foldl f s = { s with engs := y } := by
  induction l generalizing s with
  | nil => exact ⟨s.engs, rfl⟩
  | cons x l ih =>
    obtain ⟨y, hy⟩ := hf s x
    obtain ⟨z, hz⟩ := ih (f s x)
    exact ⟨z, by rw [List.foldl_cons, hz, hy]⟩

/-- A redirect that is raised reaches the engines, and nothing else. -/
theorem State.raiseRedirect_engs (s : State) (code slot : Nat) : ∃ y, s.raiseRedirect code slot = { s with engs := y } := by
  refine State.foldl_engs _ _ s fun t l => ?_
  extract_lets named e en
  split
  · exact ⟨_, rfl⟩
  · exact ⟨t.engs, rfl⟩

/-- The hub with the oldest stamp of a unit written. -/
def State.stamped (s : State) (u : Nat) (p : TrigPoint) (rest : List TrigPoint) : State :=
  ((s.setUnit u { s.unit u with stamps := rest }).setReg (Reg.TRG_TSLOT u) (BitVec.ofNat 64 p.slot)).setReg (Reg.TRG_TBIN u)
    (BitVec.ofNat 64 (p.frac <<< 32 + p.bin))

theorem execTriggerStampWrite_due {s : State} {u : Fin 8} {p : TrigPoint} {rest : List TrigPoint} (hl : (s.unit u).stamps = p :: rest)
    (hdue : p.clock + 16 ≤ s.edgeNow) :
    ∃ y, exec (.triggerStampWrite u) s = .next { s.stamped u p rest with
      engs := y, tiv := { s.tiv with stamps := s.tiv.stamps ++ [(2 + u.val, p.bins)] } } := by
  obtain ⟨y, hy⟩ := (s.stamped u p rest).raiseRedirect_engs u p.slot
  refine ⟨y, ?_⟩
  change execTriggerStampWrite u s = _
  unfold execTriggerStampWrite
  extract_lets x
  split
  next hnil => exact absurd (hl.symm.trans hnil) (List.cons_ne_nil _ _)
  next p' rest' hcons =>
    obtain ⟨rfl, rfl⟩ := List.cons.inj (hl.symm.trans hcons)
    refine (if_pos hdue).trans ?_
    exact congrArg (fun t : State => (.next { t with tiv := { t.tiv with stamps := t.tiv.stamps ++ [(2 + u.val, p.bins)] } } : Res)) hy

theorem triggerStampWrite_due {s : State} {u : Fin 8} {p : TrigPoint} {rest : List TrigPoint} (hl : (s.unit u).stamps = p :: rest)
    (hdue : p.clock + 16 ≤ s.edgeNow) :
    Gives (.triggerStampWrite u) s (fun t =>
      t.reg (Reg.TRG_TSLOT u) = BitVec.ofNat 64 p.slot ∧ t.reg (Reg.TRG_TBIN u) = BitVec.ofNat 64 (2 ^ 32 * p.frac + p.bin)
      ∧ (t.unit u).stamps = rest ∧ t.tiv.stamps = s.tiv.stamps ++ [(2 + u.val, p.bins)]) := by
  obtain ⟨y, hexec⟩ := execTriggerStampWrite_due hl hdue
  have hunit : (s.stamped u p rest).unit u = { s.unit u with stamps := rest } := State.unit_setUnit_self s u _
  have hbin : (s.stamped u p rest).reg (Reg.TRG_TBIN u) = BitVec.ofNat 64 (2 ^ 32 * p.frac + p.bin) := by
    rw [State.stamped, State.reg_setReg_self, Nat.shiftLeft_eq, Nat.mul_comm]
  have hslot : (s.stamped u p rest).reg (Reg.TRG_TSLOT u) = BitVec.ofNat 64 p.slot := by
    rw [State.stamped, State.reg_setReg_ne _ _ (by simp only [Reg.TRG_TSLOT, Reg.TRG_TBIN]; omega), State.reg_setReg_self]
  exact ⟨_, hexec, hslot, hbin, congrArg TrigSt.stamps hunit, rfl⟩

/-- Settles O27, crossing by crossing and by what State.fire does at an instant. -/
theorem captureTriggers : Obligations.CaptureTriggers := by
  unfold Obligations.CaptureTriggers
  refine ⟨fun k cmp rising stamp s => ⟨fun h => execCrossing_off k cmp rising stamp s h, fun h hfar => ?kept, fun r m rest h hl hnear => ?merged⟩,
    fun u s => ⟨fun h => takeTrigger_none s u h, fun at_ b h => ⟨fun hst hi hb => ?opens, fun hst hx hb => ?secondary, fun hst hx => ?exit,
      fun hst hx hroom => ?missed⟩, fun r n b hty hst href hpt hdue hi hb => ?timeout, fun p rest hl hdue => triggerStampWrite_due hl hdue⟩⟩
  case kept => exact crossing_kept k cmp rising stamp s h fun c rest hl => hfar c.1 c.2 rest hl
  case merged => exact crossing_merged k cmp rising stamp s h hl hnear
  case opens => exact triggerQualified_opens h hst hi hb
  case secondary => exact triggerQualified_secondary h hst hx hb
  case exit => exact ⟨_, triggerQualified_after_exit h hst hx, rfl, rfl⟩
  case missed => exact triggerQualified_missed h hst hx hroom
  case timeout =>
    obtain ⟨t, hexec, ⟨hst', hdesc, -⟩, hused⟩ := triggerTimeout_opens hty hst href hpt hdue hi hb
    exact ⟨t, hexec, hst', hdesc, hused⟩

end Sys2Proof.Machine

namespace Sys2Proof.Machine
open Sys2Proof

/-! ### Folds whose steps work on their own parts of the hub -/

/-- A fold that comes to x once, where the other steps leave what is viewed: what the fold leaves there is what the step of x makes of what
stood there before. -/
theorem foldl_once {σ β γ : Type} (l : List β) (f : σ → β → σ) (s : σ) (view : σ → γ) {x : β} (hx : x ∈ l) (hnd : l.Nodup)
    (hkeep : ∀ t, ∀ y ∈ l, y ≠ x → view (f t y) = view t) : ∃ t, view t = view s ∧ view (l.foldl f s) = view (f t x) := by
  have hall : ∀ (r : List β) (t : σ), (∀ u, ∀ y ∈ r, view (f u y) = view u) → view (r.foldl f t) = view t := by
    intro r
    induction r with
    | nil => exact fun t _ => rfl
    | cons y r ih =>
      intro t h
      rw [List.foldl_cons, ih _ fun u z hz => h u z (List.mem_cons_of_mem _ hz), h t y List.mem_cons_self]
  induction l generalizing s with
  | nil => cases hx
  | cons y l ih =>
    obtain ⟨hy, hl⟩ := List.nodup_cons.mp hnd
    rw [List.foldl_cons]
    rcases List.mem_cons.mp hx with rfl | hx
    · exact ⟨s, rfl, hall l _ fun u z hz => hkeep u z (List.mem_cons_of_mem _ hz) (by rintro rfl; exact hy hz)⟩
    · obtain ⟨t, ht, h⟩ := ih (f s y) hx hl fun u z hz => hkeep u z (List.mem_cons_of_mem _ hz)
      exact ⟨t, ht.trans (hkeep s y List.mem_cons_self (by rintro rfl; exact hy hx)), h⟩

/-- A relation that each step keeps is kept by the fold. -/
theorem foldl_rel {σ β : Type} (R : σ → σ → Prop) (hrefl : ∀ s, R s s) (htrans : ∀ s t u, R s t → R t u → R s u) (l : List β)
    (f : σ → β → σ) (s : σ) (hf : ∀ t, ∀ x ∈ l, R t (f t x)) : R s (l.foldl f s) := by
  induction l generalizing s with
  | nil => exact hrefl s
  | cons x l ih => exact htrans _ _ _ (hf s x List.mem_cons_self) (ih _ fun t y hy => hf t y (List.mem_cons_of_mem _ hy))

/-! ### Masks of positions, codes -/

theorem testBit_sum_range (f : Nat → Bool) (n : Nat) :
    ((List.range n).map (fun p => if f p then 2 ^ p else 0)).sum < 2 ^ n
      ∧ ∀ p, ((List.range n).map (fun p => if f p then 2 ^ p else 0)).sum.testBit p = (decide (p < n) && f p) := by
  induction n with
  | zero => simp
  | succ n ih =>
    obtain ⟨hlt, hbit⟩ := ih
    rw [List.range_succ, List.map_append, List.sum_append, List.map_singleton, List.sum_singleton]
    generalize ((List.range n).map (fun p => if f p then 2 ^ p else 0)).sum = m at hlt hbit
    cases hf : f n
    · refine ⟨by simp only [Bool.false_eq_true, if_false]; omega, fun p => ?_⟩
      simp only [Bool.false_eq_true, if_false, Nat.add_zero, hbit]
      rcases Nat.lt_trichotomy p n with h | rfl | h
      · simp [h, Nat.lt_succ_of_lt h]
      · simp [hf]
      · simp [Nat.not_lt.mpr h.le, Nat.not_lt.mpr h]
    · have hlt' : 2 ^ n + m < 2 ^ (n + 1) := by omega
      simp only [if_true, Nat.add_comm m]
      refine ⟨hlt', fun p => ?_⟩
      rcases Nat.lt_trichotomy p n with h | rfl | h
      · rw [Nat.testBit_two_pow_add_gt h, hbit]
        simp [h, Nat.lt_succ_of_lt h]
      · rw [Nat.testBit_two_pow_add_eq, hbit]
        simp [hf]
      · rw [Nat.testBit_lt_two_pow (Nat.lt_of_lt_of_le hlt' (Nat.pow_le_pow_right (by decide) h))]
        simp [Nat.not_lt.mpr h]

theorem testBit_maskOf (f : Nat → Bool) (p : Nat) : (maskOf f).testBit p = (decide (p < 16) && f p) := (testBit_sum_range f 16).2 p

theorem maskOf_lt (f : Nat → Bool) : maskOf f < 2 ^ 16 := (testBit_sum_range f 16).1

theorem maskOf_congr {f g : Nat → Bool} (h : ∀ p < 16, f p = g p) : maskOf f = maskOf g := by
  unfold maskOf
  exact congrArg List.sum (List.map_congr_left fun p hp => by rw [h p (List.mem_range.mp hp)])

/-- A mask of positions with bit 16 beside it. -/
theorem testBit_maskOf_add (f : Nat → Bool) (c : Bool) :
    (∀ p < 16, (maskOf f + if c then 0 else 2 ^ 16).testBit p = f p) ∧ (maskOf f + if c then 0 else 2 ^ 16).testBit 16 = !c := by
  cases c
  · simp only [Bool.false_eq_true, if_false, Nat.add_comm (maskOf f)]
    refine ⟨fun p hp => ?_, ?_⟩
    · rw [Nat.testBit_two_pow_add_gt hp, testBit_maskOf]
      simp [hp]
    · rw [Nat.testBit_two_pow_add_eq, testBit_maskOf]
      rfl
  · simp only [if_true, Nat.add_zero]
    exact ⟨fun p hp => by simp [testBit_maskOf, hp], by simp [testBit_maskOf]⟩

theorem signed_toNat {n : Nat} (x : BitVec n) (hn : 0 < n) : signed n x.toNat = x.toInt := by
  have hpow : 2 ^ n = 2 * 2 ^ (n - 1) := by rw [← Nat.pow_succ', Nat.succ_eq_add_one, Nat.sub_add_cancel hn]
  rw [signed, Nat.mod_eq_of_lt x.isLt, BitVec.toInt_eq_toNat_cond]
  split <;> split <;> omega

/-- The code of a fast channel: 16 bits of the eight codes. -/
theorem signed_extract (codes : BitVec 128) (k : Nat) : signed 16 (codes.toNat / 2 ^ (16 * k)) = (codes.extractLsb' (16 * k) 16).toInt := by
  rw [← signed_toNat _ (by decide), BitVec.extractLsb'_toNat, Nat.shiftRight_eq_div_pow, signed, signed, Nat.mod_mod]

/-! ### Rescue arbitration (R99, R103 to R107) -/

/-- From s to t nothing changes but engines and registers, and of these none from `from_` on. -/
def State.Reports (from_ : Nat) (s t : State) : Prop :=
  { t with engs := s.engs, regs := s.regs } = s ∧ ∀ a, from_ ≤ a → t.reg a = s.reg a

theorem State.Reports.refl (n : Nat) (s : State) : s.Reports n s := ⟨rfl, fun _ _ => rfl⟩

theorem State.Reports.trans {n : Nat} {s t u : State} (h : s.Reports n t) (h' : t.Reports n u) : s.Reports n u := by
  obtain ⟨hf, hr⟩ := h
  obtain ⟨hf', hr'⟩ := h'
  refine ⟨?_, fun a ha => (hr' a ha).trans (hr a ha)⟩
  rw [← hf'] at hf
  exact hf

theorem State.Reports.banks {n : Nat} {s t : State} (h : s.Reports n t) : t.banks = s.banks :=
  (congrArg State.banks h.1 :)

theorem State.bump_range_reports (s : State) {l : Nat} (hl : l < 16) : s.Reports 0x1000 (s.bump (Reg.ENG_SQ_RANGE l)) :=
  ⟨rfl, fun a ha => State.reg_bump_ne s _ (by simp only [Reg.ENG_SQ_RANGE, Reg.ENG_SQ]; omega)⟩

theorem State.reportRange_reports (s : State) {l : Nat} (chan n : Nat) (hl : l < 16) : s.Reports 0x1000 (s.reportRange l chan n) := by
  unfold State.reportRange
  extract_lets e en
  split
  · exact ⟨rfl, fun _ _ => rfl⟩
  · exact State.Reports.trans (t := s.setEng e { en with ecause := ecauseWord 1 0 chan n }) ⟨rfl, fun _ _ => rfl⟩ (State.bump_range_reports _ hl)

theorem State.reportAll_reports (s : State) (b n : Nat) (ps : List (Nat × Nat)) : s.Reports 0x1000 (s.reportAll b n ps) := by
  refine foldl_rel (State.Reports 0x1000) (State.Reports.refl _) (fun _ _ _ => State.Reports.trans) _ _ s fun t l hl => ?_
  have hl' := List.mem_range.mp hl
  split
  · exact .refl _ t
  · exact (t.reportRange_reports _ n hl').trans
      (foldl_rel (State.Reports 0x1000) (State.Reports.refl _) (fun _ _ _ => State.Reports.trans) _ _ _ fun u _ _ => u.bump_range_reports hl')

/-- What a slot's judgement shows of one position: its states and path, and the counts of what befell it. -/
def State.showPosition (s : State) (ch : Nat) (warn clip path guarded rescued coarse : Bool) : State :=
  let t1 := ((s.setF (Reg.CH_CONVSTAT_WARNST ch) (b2n warn)).setF (Reg.CH_CONVSTAT_CLIPST ch) (b2n clip)).setF (Reg.CH_CONVSTAT_PATH ch) (b2n path)
  let t2 := if guarded then t1.bump (Reg.CH_CONVSTAT_GUARDED ch) else t1
  let t3 := if rescued then t2.bump (Reg.CH_CONVSTAT_RESCUED ch) else t2
  if coarse then t3.bump (Reg.CH_CONVSTAT_COARSED ch) else t3

/-- Only registers change, and of these CH_CONVSTAT of a channel only. -/
def State.ShowsAt (s t : State) (ch : Nat) : Prop := { t with regs := s.regs } = s ∧ ∀ a, a ≠ Reg.CH_CONVSTAT ch → t.reg a = s.reg a

theorem State.ShowsAt.trans {s t u : State} {ch : Nat} (h : s.ShowsAt t ch) (h' : t.ShowsAt u ch) : s.ShowsAt u ch := by
  obtain ⟨hf, hr⟩ := h
  obtain ⟨hf', hr'⟩ := h'
  refine ⟨?_, fun a ha => (hr' a ha).trans (hr a ha)⟩
  rw [← hf'] at hf
  exact hf

theorem State.setF_showsAt (s : State) {ch : Nat} {f : Fld} (v : Nat) (hf : f.addr = Reg.CH_CONVSTAT ch) : s.ShowsAt (s.setF f v) ch :=
  ⟨rfl, fun _ ha => State.reg_setF_ne s f v (by rw [hf]; exact ha)⟩

/-- A count of CH_CONVSTAT that goes up where a test holds leaves the states below. -/
theorem State.count_convstat (s : State) {ch : Nat} {f : Fld} (b : Bool) (hf : f.addr = Reg.CH_CONVSTAT ch) (hlo : 16 ≤ f.lo) :
    s.ShowsAt (if b then s.bump f else s) ch
      ∧ ∀ g : Fld, g.addr = Reg.CH_CONVSTAT ch → g.hi < 16 → (if b then s.bump f else s).getF g = s.getF g := by
  cases b
  · exact ⟨⟨rfl, fun _ _ => rfl⟩, fun _ _ _ => rfl⟩
  · exact ⟨s.setF_showsAt _ hf, fun g hg hhi => State.getF_setF_beside s f g _ (hg.trans hf.symm) (by omega) (Or.inl (by omega))⟩

theorem b2n_mod_two (b : Bool) : b2n b % 2 = if b then 1 else 0 := by cases b <;> rfl

theorem State.showPosition_spec (s : State) (ch : Nat) (warn clip path guarded rescued coarse : Bool) :
    let t := s.showPosition ch warn clip path guarded rescued coarse
    s.ShowsAt t ch ∧ t.getF (Reg.CH_CONVSTAT_WARNST ch) = (if warn then 1 else 0) ∧ t.getF (Reg.CH_CONVSTAT_CLIPST ch) = (if clip then 1 else 0)
      ∧ t.getF (Reg.CH_CONVSTAT_PATH ch) = (if path then 1 else 0) := by
  intro t
  let s1 := s.setF (Reg.CH_CONVSTAT_WARNST ch) (b2n warn)
  let s2 := s1.setF (Reg.CH_CONVSTAT_CLIPST ch) (b2n clip)
  let s3 := s2.setF (Reg.CH_CONVSTAT_PATH ch) (b2n path)
  obtain ⟨h4, k4⟩ := s3.count_convstat guarded (f := Reg.CH_CONVSTAT_GUARDED ch) rfl (show 16 ≤ 16 by decide)
  obtain ⟨h5, k5⟩ := State.count_convstat _ rescued (f := Reg.CH_CONVSTAT_RESCUED ch) rfl (show 16 ≤ 48 by decide)
  obtain ⟨h6, k6⟩ := State.count_convstat _ coarse (f := Reg.CH_CONVSTAT_COARSED ch) rfl (show 16 ≤ 32 by decide)
  have hkeep : ∀ g : Fld, g.addr = Reg.CH_CONVSTAT ch → g.hi < 16 → t.getF g = s3.getF g := fun g hg hhi =>
    (k6 g hg hhi).trans ((k5 g hg hhi).trans (k4 g hg hhi))
  refine ⟨(s.setF_showsAt _ rfl).trans ((s1.setF_showsAt _ rfl).trans ((s2.setF_showsAt _ rfl).trans (h4.trans (h5.trans h6)))), ?_, ?_, ?_⟩
  · rw [hkeep _ rfl (show 3 < 16 by decide)]
    exact (State.getF_setF_beside s2 (Reg.CH_CONVSTAT_PATH ch) (Reg.CH_CONVSTAT_WARNST ch) _ rfl (show 3 < 64 by decide) (Or.inr (show 1 < 3 by decide))).trans
      ((State.getF_setF_beside s1 (Reg.CH_CONVSTAT_CLIPST ch) (Reg.CH_CONVSTAT_WARNST ch) _ rfl (show 3 < 64 by decide) (Or.inr (show 2 < 3 by decide))).trans
      ((State.getF_setF_self s _ _ (show 3 < 64 by decide)).trans (b2n_mod_two warn)))
  · rw [hkeep _ rfl (show 2 < 16 by decide)]
    exact (State.getF_setF_beside s2 (Reg.CH_CONVSTAT_PATH ch) (Reg.CH_CONVSTAT_CLIPST ch) _ rfl (show 2 < 64 by decide) (Or.inr (show 1 < 2 by decide))).trans
      ((State.getF_setF_self s1 _ _ (show 2 < 64 by decide)).trans (b2n_mod_two clip))
  · rw [hkeep _ rfl (show 1 < 16 by decide)]
    exact (State.getF_setF_self s2 _ _ (show 1 < 64 by decide)).trans (b2n_mod_two path)

/-- The positions of a bank shown one after the other. -/
theorem State.showPositions_spec (s : State) (b : Nat) (warn clip path guarded rescued coarse : Nat → Bool) :
    let t := positions.foldl (fun t p => t.showPosition (16 * b + p) (warn p) (clip p) (path p) (guarded p) (rescued p) (coarse p)) s
    { t with regs := s.regs } = s ∧ ∀ p < 16, t.getF (Reg.CH_CONVSTAT_WARNST (16 * b + p)) = (if warn p then 1 else 0)
      ∧ t.getF (Reg.CH_CONVSTAT_CLIPST (16 * b + p)) = (if clip p then 1 else 0)
      ∧ t.getF (Reg.CH_CONVSTAT_PATH (16 * b + p)) = (if path p then 1 else 0) := by
  intro t
  refine ⟨?_, fun p hp => ?_⟩
  · refine foldl_rel (fun u v : State => { v with regs := u.regs } = u) (fun _ => rfl) (fun u v w h h' => ?_) _ _ s fun u p _ =>
      (u.showPosition_spec (16 * b + p) _ _ _ _ _ _).1.1
    rw [← h'] at h
    exact h
  · obtain ⟨u, -, hu⟩ := foldl_once positions
      (fun t p => t.showPosition (16 * b + p) (warn p) (clip p) (path p) (guarded p) (rescued p) (coarse p)) s
      (fun t => t.reg (Reg.CH_CONVSTAT (16 * b + p))) (List.mem_range.mpr hp) List.nodup_range fun t q _ hq =>
        (t.showPosition_spec (16 * b + q) _ _ _ _ _ _).1.2 _ (by simp only [Reg.CH_CONVSTAT]; omega)
    obtain ⟨-, hwarn, hclip, hpath⟩ := u.showPosition_spec (16 * b + p) (warn p) (clip p) (path p) (guarded p) (rescued p) (coarse p)
    exact ⟨(congrArg (bits · 3 3) hu).trans hwarn, (congrArg (bits · 2 2) hu).trans hclip, (congrArg (bits · 1 1) hu).trans hpath⟩

/-- The positions converted fine in their own opportunity. -/
def State.finePath (s : State) (b c : Nat) : Nat := maskOf (fun p => (s.bk b).plan.pred.testBit p && !c.testBit p)

/-- The mispredicted positions, to be rescued. -/
def State.mispredicted (s : State) (b c n : Nat) : Nat :=
  maskOf (fun p => (maskOf (fun p => s.chOn (16 * b + p) && ((s.bk b).substAt p n).isNone)).testBit p && !(s.finePath b c).testBit p && !c.testBit p)

theorem State.mispredicted_eq (s : State) (b n : Nat) (clip : BitVec 17) :
    s.mispredicted b clip.toNat n = maskOf (fun p => s.chOn (16 * b + p) && ((s.bk b).substAt p n).isNone
      && !(s.bk b).plan.pred.testBit p && !clip.getLsbD p) := by
  refine maskOf_congr fun p hp => ?_
  rw [State.finePath, testBit_maskOf, testBit_maskOf, ← BitVec.testBit_toNat]
  simp only [hp, decide_true, Bool.true_and]
  cases clip.toNat.testBit p <;> simp

/-- The slots with a rescue and with more mispredictions than rescues counted. -/
def State.countRescues (s : State) (b : Nat) (rescued : List Nat) (coarse : Nat) : State :=
  let s1 := if rescued.isEmpty then s else s.bump (Reg.BANK_CONVSTAT_RESC_SLOTS b)
  if coarse = 0 then s1 else s1.bump (Reg.BANK_CONVSTAT_OVF_SLOTS b)

/-- Only registers change, and of these none below the banks' words. -/
def State.BankCounts (s t : State) : Prop := { t with regs := s.regs } = s ∧ ∀ a < 0x1C40, t.reg a = s.reg a

theorem State.BankCounts.trans {s t u : State} (h : s.BankCounts t) (h' : t.BankCounts u) : s.BankCounts u := by
  obtain ⟨hf, hr⟩ := h
  obtain ⟨hf', hr'⟩ := h'
  refine ⟨?_, fun a ha => (hr' a ha).trans (hr a ha)⟩
  rw [← hf'] at hf
  exact hf

theorem State.bump_convstat_counts (s : State) {b : Nat} {f : Fld} (hf : f.addr = Reg.BANK_CONVSTAT b) : s.BankCounts (s.bump f) :=
  ⟨rfl, fun a ha => State.reg_bump_ne s f (by rw [hf]; simp only [Reg.BANK_CONVSTAT]; omega)⟩

theorem State.countRescues_counts (s : State) (b : Nat) (rescued : List Nat) (coarse : Nat) : s.BankCounts (s.countRescues b rescued coarse) := by
  have h1 : s.BankCounts (if rescued.isEmpty then s else s.bump (Reg.BANK_CONVSTAT_RESC_SLOTS b)) := by
    split
    · exact ⟨rfl, fun _ _ => rfl⟩
    · exact s.bump_convstat_counts rfl
  unfold State.countRescues
  extract_lets s1
  split
  · exact h1
  · exact h1.trans (s1.bump_convstat_counts rfl)

section
variable (b : Fin 24) (clip warn : BitVec 17) (s : State)

/-- A plan that is frozen for this slot and not yet judged, in a slot whose hold stands. -/
def State.judgeDue (b : Nat) : Prop :=
  (s.bk b).plan.live = true ∧ (s.bk b).plan.slot = s.clk.slot ∧ (s.bk b).plan.judged = false ∧ s.heldAt s.clk.slot = true

theorem State.judgeDue_iff : s.judgeDue b
    ↔ ((s.bk b).plan.live && (s.bk b).plan.slot == s.now && !(s.bk b).plan.judged && s.heldAt s.now) = true := by
  simp [State.judgeDue, State.now, and_assoc]

theorem rescueArbitration_idle (h : ¬ s.judgeDue b) : exec (.rescueArbitration b clip warn) s = .next s :=
  if_neg (by rwa [← s.judgeDue_iff b])

end

section
variable (s : State) (b : Nat) (clip warn : BitVec 17)

/-- The order in which a bank's mispredicted positions are served. -/
def State.serveOrder : List Nat := s.rescueOrder b s.clk.slot (s.mispredicted b clip.toNat s.clk.slot)

/-- The positions that no rescue reaches. -/
def State.coarseMask : Nat := maskOf (fun p => ((s.serveOrder b clip).drop 3).contains p)

/-- A bank with its plan judged. -/
def State.judgedBank (refu : Bool) (pins arb : Nat) (own : Option (Nat × Bool)) (lw : Sparse Nat) : BankSt :=
  { s.bk b with
    plan := { (s.bk b).plan with
      judged := true, refu := refu, pins := pins, arb := arb, calOwn := own, clip := clip.toNat
      path := s.finePath b clip.toNat + (if clip.toNat.testBit 16 then 0 else 2 ^ 16), rescued := (s.serveOrder b clip).take 3
      coarse := s.coarseMask b clip }
    lastWarn := lw }

/-- The hub t with a bank's judgement in s shown in CH_CONVSTAT and counted. -/
def State.showJudged (t : State) (guarded : Nat) : State :=
  (positions.foldl (fun t p => t.showPosition (16 * b + p) (warn.toNat.testBit p)
      (clip.toNat.testBit p) ((s.finePath b clip.toNat).testBit p || ((s.serveOrder b clip).take 3).contains p) (guarded.testBit p)
      (((s.serveOrder b clip).take 3).contains p) ((s.coarseMask b clip).testBit p)) t).countRescues b ((s.serveOrder b clip).take 3)
    (s.coarseMask b clip)

end

theorem rescueArbitration_due (b : Fin 24) (clip warn : BitVec 17) (s : State) (h : s.judgeDue b) :
    ∃ (refu : Bool) (pins arb : Nat) (own : Option (Nat × Bool)) (lw : Sparse Nat) (guarded : Nat) (qs : List (Nat × Nat)),
      exec (.rescueArbitration b clip warn) s = .next ((s.showJudged b clip warn (s.setBk b (s.judgedBank b clip refu pins arb own lw)) guarded).reportAll
        b s.clk.slot qs) := by
  have hexec : exec (.rescueArbitration b clip warn) s = execRescueArbitration b clip warn s := rfl
  unfold execRescueArbitration at hexec
  extract_lets x pl n c on own onNode pins arb guarded path mis order rescued coarse delivered calOwn lw pl' s1 s2 s3 s4 at hexec
  rw [if_pos (show (pl.live && pl.slot == n && !pl.judged && s.heldAt n) = true from (s.judgeDue_iff b).mp h)] at hexec
  exact ⟨x.refOnAt.isSome && !s.flag (Reg.BANK_REF_SETTLED b), pins, arb, calOwn, lw, guarded, _, hexec⟩

theorem regs_engs_trans {s t u : State} (h : { t with regs := s.regs, engs := s.engs } = s) (h' : { u with regs := t.regs, engs := t.engs } = t) :
    { u with regs := s.regs, engs := s.engs } = s := by
  rw [← h'] at h
  exact h

theorem regs_engs_of_regs {s t : State} (h : { t with regs := s.regs } = s) : { t with regs := s.regs, engs := s.engs } = s :=
  congrArg (fun x : State => { x with engs := s.engs }) h

theorem State.showJudged_spec (s t : State) (b : Fin 24) (clip warn : BitVec 17) (guarded n : Nat) (qs : List (Nat × Nat)) :
    let u := (s.showJudged b clip warn t guarded).reportAll b n qs
    { u with regs := t.regs, engs := t.engs } = t ∧ ∀ p : Fin 16,
      u.getF (Reg.CH_CONVSTAT_WARNST (16 * b + p)) = (if warn.getLsbD p then 1 else 0)
      ∧ u.getF (Reg.CH_CONVSTAT_CLIPST (16 * b + p)) = (if clip.getLsbD p then 1 else 0)
      ∧ u.getF (Reg.CH_CONVSTAT_PATH (16 * b + p))
        = (if (s.bk b).plan.pred.testBit p && !clip.getLsbD p || ((s.serveOrder b clip).take 3).contains p.val then 1 else 0) := by
  intro u
  obtain ⟨hframe, hshow⟩ := t.showPositions_spec b (fun p => warn.toNat.testBit p) (fun p => clip.toNat.testBit p)
    (fun p => (s.finePath b clip.toNat).testBit p || ((s.serveOrder b clip).take 3).contains p) (fun p => guarded.testBit p)
    (fun p => ((s.serveOrder b clip).take 3).contains p) (fun p => (s.coarseMask b clip).testBit p)
  generalize hv : positions.foldl _ t = v at hframe hshow
  have hu : u = ((v.countRescues b ((s.serveOrder b clip).take 3) (s.coarseMask b clip))).reportAll b n qs := by
    rw [← hv]
    rfl
  obtain ⟨hcf, hcr⟩ := v.countRescues_counts b ((s.serveOrder b clip).take 3) (s.coarseMask b clip)
  obtain ⟨hrf, hrr⟩ := (v.countRescues b ((s.serveOrder b clip).take 3) (s.coarseMask b clip)).reportAll_reports b n qs
  rw [← hu] at hrf hrr
  have hconv : ∀ p : Fin 16, u.reg (Reg.CH_CONVSTAT (16 * b + p)) = v.reg (Reg.CH_CONVSTAT (16 * b + p)) := fun p =>
    (hrr _ (by simp only [Reg.CH_CONVSTAT]; omega)).trans (hcr _ (by simp only [Reg.CH_CONVSTAT]; omega))
  refine ⟨?_, fun p => ?_⟩
  · exact regs_engs_trans (regs_engs_of_regs hframe) (regs_engs_trans (regs_engs_of_regs hcf) hrf)
  · obtain ⟨hwarn, hclip, hpath⟩ := hshow p p.isLt
    rw [State.finePath, testBit_maskOf, decide_eq_true p.isLt, Bool.true_and] at hpath
    simp only [BitVec.testBit_toNat] at hwarn hclip hpath
    exact ⟨(congrArg (bits · 3 3) (hconv p)).trans hwarn, (congrArg (bits · 2 2) (hconv p)).trans hclip,
      (congrArg (bits · 1 1) (hconv p)).trans hpath⟩

/-- A judgement, as the slot's plan, CH_CONVSTAT and the other banks show it. -/
theorem rescueArbitration_spec (b : Fin 24) (clip warn : BitVec 17) (s : State) (h : s.judgeDue b) :
    Gives (.rescueArbitration b clip warn) s (fun t =>
      (∃ refu pins arb own lw, t.bk b = s.judgedBank b clip refu pins arb own lw)
      ∧ (∀ p : Fin 16, t.getF (Reg.CH_CONVSTAT_WARNST (16 * b.val + p.val)) = (if warn.getLsbD p then 1 else 0)
        ∧ t.getF (Reg.CH_CONVSTAT_CLIPST (16 * b.val + p.val)) = (if clip.getLsbD p then 1 else 0)
        ∧ t.getF (Reg.CH_CONVSTAT_PATH (16 * b.val + p.val))
          = (if (s.bk b).plan.pred.testBit p && !clip.getLsbD p || ((s.serveOrder b clip).take 3).contains p.val then 1 else 0))
      ∧ (∀ d, d ≠ b.val → t.bk d = s.bk d) ∧ { t with banks := s.banks, regs := s.regs, engs := s.engs } = s) := by
  obtain ⟨refu, pins, arb, own, lw, guarded, qs, hexec⟩ := rescueArbitration_due b clip warn s h
  obtain ⟨hframe, hshow⟩ := s.showJudged_spec (s.setBk b (s.judgedBank b clip refu pins arb own lw)) b clip warn guarded s.clk.slot qs
  generalize (s.showJudged b clip warn (s.setBk b (s.judgedBank b clip refu pins arb own lw)) guarded).reportAll b s.clk.slot qs = t
    at hexec hframe hshow
  have hbank : ∀ d, t.bk d = (s.setBk b (s.judgedBank b clip refu pins arb own lw)).bk d := fun d => (congrArg (fun x : State => x.bk d) hframe :)
  refine ⟨t, hexec, ⟨refu, pins, arb, own, lw, ?_⟩, hshow, fun d hd => ?_, ?_⟩
  · rw [hbank, State.bk_setBk_self]
  · rw [hbank, State.bk_setBk_ne _ _ hd]
  · exact (congrArg (fun x : State => { x with banks := s.banks }) hframe :)

/-! ### Codes and injections of a conversion cycle (R97, R98, R110, R112) -/

/-- A bank whose slice k took an injection with code c. -/
def State.injected (s : State) (b k : Nat) (c : BitVec 18) : BankSt :=
  let x := s.bk b
  let n := x.injStep.get (fun _ => 0) k
  let y := { x with lastInj := x.lastInj.set (fun _ => 0) k s.now, injStep := x.injStep.set (fun _ => 0) k ((n + 1) % 16) }
  if s.flag (Reg.BANK_CONV_FREEZE b) then y
  else { y with slices := y.slices.modify (fun _ => {}) k (fun t => t.inject (Config.injOrder k (Fin.ofNat 16 n)).val (signed 18 c.toNat)) }

theorem State.inject_off (s : State) (b k : Nat) (c : BitVec 18) (h : s.flag (Reg.BANK_CONV_INJ b) = false) : s.inject b k c = s :=
  if_pos (by rw [h]; rfl)

theorem State.inject_on (s : State) (b k : Nat) (c : BitVec 18) (h : s.flag (Reg.BANK_CONV_INJ b) = true) :
    s.inject b k c = (s.setBk b (s.injected b k c)).setF (Reg.BANK_CONVSTAT_STARVED b) (withBit (s.getF (Reg.BANK_CONVSTAT_STARVED b)) k false) := by
  unfold State.inject
  exact if_neg (by rw [h]; decide)

/-- What the injection of slice k makes of each slice of its bank. -/
theorem State.injected_spec (s : State) (b k : Nat) (c : BitVec 18) :
    (s.injected b k c).plan = (s.bk b).plan
      ∧ ∀ j, (s.injected b k c).lastInj.get (fun _ => 0) j = (if j = k then s.now else (s.bk b).lastInj.get (fun _ => 0) j)
        ∧ (s.injected b k c).injStep.get (fun _ => 0) j
          = (if j = k then ((s.bk b).injStep.get (fun _ => 0) k + 1) % 16 else (s.bk b).injStep.get (fun _ => 0) j)
        ∧ (s.injected b k c).slices.get (fun _ => {}) j = (if j = k ∧ s.flag (Reg.BANK_CONV_FREEZE b) = false
            then ((s.bk b).slices.get (fun _ => {}) k).inject (Config.injOrder k (Fin.ofNat 16 ((s.bk b).injStep.get (fun _ => 0) k))).val c.toInt
            else (s.bk b).slices.get (fun _ => {}) j) := by
  unfold State.injected
  cases hf : s.flag (Reg.BANK_CONV_FREEZE b)
  · refine ⟨rfl, fun j => ⟨Sparse.get_set _ _ _ _ _, Sparse.get_set _ _ _ _ _, ?_⟩⟩
    simp only [Bool.false_eq_true, if_false, and_true]
    rw [Sparse.modify, Sparse.get_set, signed_toNat c (by decide)]
  · refine ⟨rfl, fun j => ⟨Sparse.get_set _ _ _ _ _, Sparse.get_set _ _ _ _ _, ?_⟩⟩
    simp

theorem testBit_withBit_starved : ∀ (v : Fin 16) (i j : Fin 4), (withBit v i false % 16).testBit j = (decide (j ≠ i) && v.val.testBit j) := by
  decide

/-- A code latched in a slot's plan. -/
def State.latch (s : State) (b o : Nat) (c : BitVec 18) : State :=
  s.setBk b { s.bk b with plan := { (s.bk b).plan with codes := (s.bk b).plan.codes.set (fun _ => none) o (some c) } }

/-- What lane l does in a conversion cycle. -/
def State.convertLane (pl : SlotPlan) (b cycle n : Nat) (codes : Nat → BitVec 18) (s : State) (l : Nat) : State :=
  if pl.used (4 * cycle + l) then s.latch b (4 * cycle + l) (codes l) else s.inject b (sliceOf l n) (codes l)

/-- What a lane of a bank works on in a conversion cycle: the code of its opportunity o, and of its slice k the terms, the last injection, the
place in the order of levels and STARVED, under the controls of injections in their slot. -/
structure LaneView where
  code : Option (BitVec 18)
  slice : SliceTerms
  last : Nat
  step : Nat
  starved : Bool
  inj : Nat
  freeze : Nat
  slot : Nat

/-- The view of opportunity o and slice k. -/
def State.laneView (s : State) (b o k : Nat) : LaneView :=
  { code := (s.bk b).plan.codes.get (fun _ => none) o, slice := (s.bk b).slices.get (fun _ => {}) k, last := (s.bk b).lastInj.get (fun _ => 0) k
    step := (s.bk b).injStep.get (fun _ => 0) k, starved := (s.getF (Reg.BANK_CONVSTAT_STARVED b)).testBit k
    inj := s.getF (Reg.BANK_CONV_INJ b), freeze := s.getF (Reg.BANK_CONV_FREEZE b), slot := s.now }

theorem State.laneView_latch (s : State) (b o o' k : Nat) (c : BitVec 18) :
    (s.latch b o' c).laneView b o k = { s.laneView b o k with code := if o = o' then some c else (s.laneView b o k).code } := by
  have hbank := State.bk_setBk_self s b { s.bk b with plan := { (s.bk b).plan with codes := (s.bk b).plan.codes.set (fun _ => none) o' (some c) } }
  unfold State.laneView
  rw [State.latch, hbank, Sparse.get_set]
  rfl

/-- What an injection of slice k changes: its bank, and in the registers its bit of STARVED. -/
theorem State.inject_spec (s : State) (b : Nat) {k : Nat} (c : BitVec 18) (hk : k < 4) (h : s.getF (Reg.BANK_CONV_INJ b) = 1) :
    (s.inject b k c).bk b = s.injected b k c ∧ (∀ d, d ≠ b → (s.inject b k c).bk d = s.bk d)
      ∧ (∀ j < 4, ((s.inject b k c).getF (Reg.BANK_CONVSTAT_STARVED b)).testBit j
          = (decide (j ≠ k) && (s.getF (Reg.BANK_CONVSTAT_STARVED b)).testBit j))
      ∧ (∀ f : Fld, f.addr = Reg.BANK_CONV b → (s.inject b k c).getF f = s.getF f)
      ∧ { s.inject b k c with banks := s.banks, regs := s.regs } = s := by
  rw [s.inject_on b k c (by rw [State.flag, h]; rfl)]
  refine ⟨State.bk_setBk_self s b _, fun d hd => State.bk_setBk_ne s _ hd, fun j hj => ?_, fun f hf => ?_, rfl⟩
  · have hlt : s.getF (Reg.BANK_CONVSTAT_STARVED b) < 16 := Nat.mod_lt _ (show 0 < 2 ^ (23 + 1 - 20) by decide)
    rw [State.getF_setF_self _ _ _ (show 23 < 64 by decide)]
    refine (testBit_withBit_starved ⟨_, hlt⟩ ⟨k, hk⟩ ⟨j, hj⟩).trans ?_
    simp [Fin.ext_iff]
  · refine (State.getF_setF_addr _ (Reg.BANK_CONVSTAT_STARVED b) f _ ?_).trans (State.getF_congr (State.setBk_regs _ _ _) f)
    rw [hf]
    simp only [Reg.BANK_CONV, Reg.BANK_CONVSTAT, Reg.BANK_CONVSTAT_STARVED]
    omega

theorem State.laneView_inject (s : State) (b o : Nat) {k k' : Nat} (c : BitVec 18) (hk : k < 4) (hk' : k' < 4) (h : s.getF (Reg.BANK_CONV_INJ b) = 1) :
    (s.inject b k' c).laneView b o k = (if k = k' then
      { s.laneView b o k with
        last := s.now, step := ((s.laneView b o k).step + 1) % 16, starved := false
        slice := if s.getF (Reg.BANK_CONV_FREEZE b) = 1 then (s.laneView b o k).slice
          else (s.laneView b o k).slice.inject (Config.injOrder k (Fin.ofNat 16 (s.laneView b o k).step)).val c.toInt }
      else s.laneView b o k) := by
  obtain ⟨hbank, -, hstarved, hconv, hframe⟩ := s.inject_spec b c hk' h
  obtain ⟨hplan, hslices⟩ := s.injected_spec b k' c
  obtain ⟨hlast, hstep, hslice⟩ := hslices k
  have hnow : (s.inject b k' c).now = s.now := (congrArg State.now hframe :)
  unfold State.laneView
  rw [hbank, hstarved k hk, hconv _ rfl, hconv _ rfl, hnow, hplan, hlast, hstep, hslice]
  by_cases hkk : k = k'
  · subst hkk
    rcases s.getF_bit (Reg.BANK_CONV_FREEZE b) rfl with hf | hf <;> simp [State.flag, hf]
  · simp [hkk]

/-- Of two lanes of a cycle neither works on what the other one works on. -/
theorem State.laneView_convertLane_ne (s : State) (pl : SlotPlan) (b cycle n : Nat) (codes : Nat → BitVec 18) {l l' : Nat} (hl : l < 4) (hl' : l' < 4)
    (h : l' ≠ l) :
    (s.convertLane pl b cycle n codes l').laneView b (4 * cycle + l) (sliceOf l n) = s.laneView b (4 * cycle + l) (sliceOf l n) := by
  have hslice : ∀ i < 4, sliceOf i n < 4 := fun i _ => Nat.mod_lt _ (by decide)
  have hne : sliceOf l n ≠ sliceOf l' n := by
    unfold sliceOf
    omega
  unfold State.convertLane
  split
  · rw [State.laneView_latch, if_neg (by omega)]
  · rcases s.getF_bit (Reg.BANK_CONV_INJ b) rfl with hi | hi
    · rw [s.inject_off _ _ _ (by simp [State.flag, hi])]
    · rw [s.laneView_inject b _ _ (hslice l hl) (hslice l' hl') hi, if_neg hne]

/-- What a conversion cycle leaves alone: the other banks, the codes of other cycles, and all but banks and registers. -/
def State.CycleKeeps (b cycle : Nat) (s t : State) : Prop :=
  (∀ o, o / 4 ≠ cycle → (t.bk b).plan.codes.get (fun _ => none) o = (s.bk b).plan.codes.get (fun _ => none) o)
    ∧ (∀ d, d ≠ b → t.bk d = s.bk d) ∧ { t with banks := s.banks, regs := s.regs } = s

theorem State.CycleKeeps.refl (b cycle : Nat) (s : State) : s.CycleKeeps b cycle s := ⟨fun _ _ => rfl, fun _ _ => rfl, rfl⟩

theorem State.CycleKeeps.trans {b cycle : Nat} {s t u : State} (h : s.CycleKeeps b cycle t) (h' : t.CycleKeeps b cycle u) :
    s.CycleKeeps b cycle u := by
  obtain ⟨hc, hb, hf⟩ := h
  obtain ⟨hc', hb', hf'⟩ := h'
  refine ⟨fun o ho => (hc' o ho).trans (hc o ho), fun d hd => (hb' d hd).trans (hb d hd), ?_⟩
  rw [← hf'] at hf
  exact hf

theorem State.convertLane_keeps (s : State) (pl : SlotPlan) (b cycle n : Nat) (codes : Nat → BitVec 18) {l : Nat} (hl : l < 4) :
    s.CycleKeeps b cycle (s.convertLane pl b cycle n codes l) := by
  unfold State.convertLane
  split
  · refine ⟨fun o ho => ?_, fun d hd => State.bk_setBk_ne s _ hd, rfl⟩
    rw [State.latch, State.bk_setBk_self]
    exact Sparse.get_set_ne (fun _ => none) (s.bk b).plan.codes (some (codes l)) (by omega)
  · rcases s.getF_bit (Reg.BANK_CONV_INJ b) rfl with hi | hi
    · rw [s.inject_off _ _ _ (by simp [State.flag, hi])]
      exact .refl b cycle s
    · obtain ⟨hbank, hothers, -, -, hframe⟩ := s.inject_spec b (k := sliceOf l n) (codes l) (Nat.mod_lt _ (by decide)) hi
      exact ⟨fun o _ => by rw [hbank, (s.injected_spec b _ _).1], hothers, hframe⟩

/-- A plan that stands for this slot, in a slot whose hold stands. -/
def State.cycleDue (s : State) (b : Nat) : Prop :=
  (s.bk b).plan.live = true ∧ (s.bk b).plan.slot = s.clk.slot ∧ s.heldAt s.clk.slot = true

theorem State.cycleDue_iff (s : State) (b : Nat) :
    s.cycleDue b ↔ ((s.bk b).plan.live && (s.bk b).plan.slot == s.now && s.heldAt s.now) = true := by
  simp [State.cycleDue, State.now, and_assoc]

section
variable (b : Fin 24) (cycle : Fin 5) (c0 c1 c2 c3 : BitVec 18) (s : State)

theorem conversionCycle_idle (h : ¬ s.cycleDue b) : exec (.conversionCycle b cycle c0 c1 c2 c3) s = .next s :=
  if_neg (by rwa [← s.cycleDue_iff b])

theorem conversionCycle_due (h : s.cycleDue b) : exec (.conversionCycle b cycle c0 c1 c2 c3) s = .next ((List.range 4).foldl
    (State.convertLane (s.bk b).plan b cycle s.clk.slot (fun l => [c0, c1, c2, c3].getD l 0)) s) :=
  if_pos ((s.cycleDue_iff b).mp h)

theorem conversionCycle_spec (h : s.cycleDue b) :
    Gives (.conversionCycle b cycle c0 c1 c2 c3) s (fun t => s.CycleKeeps b cycle t ∧ ∀ l : Fin 4,
      let v := s.laneView b (4 * cycle + l) (sliceOf l s.clk.slot)
      let w := t.laneView b (4 * cycle + l) (sliceOf l s.clk.slot)
      let c := [c0, c1, c2, c3].getD l.val 0
      ((s.bk b).plan.used (4 * cycle + l) = true → w.code = some c ∧ w.slice = v.slice)
      ∧ ((s.bk b).plan.used (4 * cycle + l) = false → s.getF (Reg.BANK_CONV_INJ b) = 1 →
        w.last = s.now ∧ w.step = (v.step + 1) % 16 ∧ w.starved = false
        ∧ w.slice = if s.getF (Reg.BANK_CONV_FREEZE b) = 1 then v.slice
          else v.slice.inject (Config.injOrder (sliceOf l s.clk.slot) (Fin.ofNat 16 v.step)).val c.toInt)) := by
  refine ⟨_, conversionCycle_due b cycle c0 c1 c2 c3 s h, ?_, fun l => ?_⟩
  · exact foldl_rel (State.CycleKeeps b cycle) (State.CycleKeeps.refl _ _) (fun _ _ _ => State.CycleKeeps.trans) _ _ s
      fun t l hl => t.convertLane_keeps _ _ _ _ _ (List.mem_range.mp hl)
  · obtain ⟨u, hu, hfold⟩ := foldl_once (List.range 4)
      (State.convertLane (s.bk b).plan b cycle s.clk.slot (fun l => [c0, c1, c2, c3].getD l 0)) s
      (fun t => t.laneView b (4 * cycle + l) (sliceOf l s.clk.slot)) (List.mem_range.mpr l.isLt) List.nodup_range
      fun t y hy hne => t.laneView_convertLane_ne _ _ _ _ _ l.isLt (List.mem_range.mp hy) hne
    intro v w c
    have hw : w = _ := hfold
    have hv : u.laneView b (4 * cycle + l) (sliceOf l s.clk.slot) = v := hu
    rw [hw]
    unfold State.convertLane
    refine ⟨fun hused => ?_, fun hfree hinj => ?_⟩
    · rw [if_pos hused, State.laneView_latch, hv]
      exact ⟨if_pos rfl, rfl⟩
    · have hinj' : u.getF (Reg.BANK_CONV_INJ b) = 1 := (congrArg LaneView.inj hu).trans hinj
      have hfreeze : u.getF (Reg.BANK_CONV_FREEZE b) = s.getF (Reg.BANK_CONV_FREEZE b) := congrArg LaneView.freeze hu
      have hnow : u.now = s.now := congrArg LaneView.slot hu
      have hk : sliceOf l s.clk.slot < 4 := Nat.mod_lt _ (by decide)
      rw [if_neg (by rw [hfree]; decide), u.laneView_inject b _ _ hk hk hinj', if_pos rfl, hv, hfreeze, hnow]
      exact ⟨rfl, rfl, rfl, rfl⟩

end

/-! ### The fast converters (R40, R120 to R122, R233) -/

/-- A frame that is written reaches the capture engine only. -/
theorem State.writeFrame_fasts (s : State) (a u : Nat) : (s.writeFrame a u).fasts = s.fasts := by
  unfold State.writeFrame
  extract_lets st i x j fb len codes at_ s1
  split
  · split
    · rfl
    · split <;> rfl
  · rfl

theorem State.anyOpen_iff (s : State) : s.anyOpen = true ↔ ∃ u < 8, s.trgState u = 3 := by simp [State.anyOpen]

/-- A fast channel that takes a code under the number of an edge. -/
def FastSt.take (f : FastSt) (e : Nat) (v : Int) : FastSt := { f with codes := (e, v) :: f.codes.take 8191, railed := f.railed || overCode v }

/-- The eight channels that take their codes. -/
def State.takeCodes (s : State) (e : Nat) (v : Nat → Int) : State :=
  (List.range 8).foldl (fun t k => { t with fasts := t.fasts.set (fun _ => {}) k ((t.fasts.get (fun _ => {}) k).take e (v k)) }) s

theorem State.takeCodes_spec (s : State) (e : Nat) (v : Nat → Int) (k : Fin 8) :
    (s.takeCodes e v).fasts.get (fun _ => {}) k = (s.fasts.get (fun _ => {}) k).take e (v k) := by
  obtain ⟨t, ht, hfold⟩ := foldl_once (List.range 8)
    (fun (t : State) k => { t with fasts := t.fasts.set (fun _ => {}) k ((t.fasts.get (fun _ => {}) k).take e (v k)) }) s
    (fun t => t.fasts.get (fun _ => {}) k.val) (List.mem_range.mpr k.isLt) List.nodup_range
    fun t y _ hy => Sparse.get_set_ne (fun _ => {}) t.fasts ((t.fasts.get (fun _ => {}) y).take e (v y)) (Ne.symm hy)
  refine hfold.trans ((Sparse.get_set_self (fun _ => {}) t.fasts k ((t.fasts.get (fun _ => {}) k).take e (v k))).trans ?_)
  exact congrArg (fun f : FastSt => f.take e (v k)) ht

theorem fastConverterSample_taken (codes : BitVec 128) (s : State) (h0 : s.cur ≠ 0) (h : s.cur ≠ 7 ∨ s.anyOpen = true) :
    Gives (.fastConverterSample codes) s (fun t => ∀ k : Fin 8, t.fasts.get (fun _ => {}) k.val
      = (s.fasts.get (fun _ => {}) k.val).take s.edgeNow (codes.extractLsb' (16 * k.val) 16).toInt) := by
  have hrun : ¬ (s.cur = 0 ∨ (s.cur = 7 ∧ s.anyOpen = false)) := by
    rintro (h' | ⟨h7, hopen⟩)
    · exact h0 h'
    · rcases h with h | h
      · exact h h7
      · rw [h] at hopen
        cases hopen
  refine ⟨_, if_neg hrun, fun k => ?_⟩
  have hfasts := foldl_rel (fun t u : State => u.fasts = t.fasts) (fun _ => rfl) (fun _ _ _ h h' => h'.trans h) (List.range 8)
    (fun t u => t.writeFrame (s.edgeNow - 14) u) (s.takeCodes s.edgeNow (fun k => signed 16 (codes.toNat / 2 ^ (16 * k))))
    fun t u _ => t.writeFrame_fasts _ u
  refine (congrArg (fun l : Sparse FastSt => l.get (fun _ => {}) k.val) hfasts).trans ?_
  rw [State.takeCodes_spec, signed_extract]

/-- Settles O14: the judgement by its plan and what it shows, the cycle lane by lane, the fast channels one by one. -/
theorem conversionCodes : Obligations.ConversionCodes := by
  unfold Obligations.ConversionCodes
  refine ⟨fun b clip warn s => ⟨fun h => ?judged, fun h => rescueArbitration_idle b clip warn s h⟩,
    fun b cycle c0 c1 c2 c3 s => ⟨fun h => ?cycle, fun h => conversionCycle_idle b cycle c0 c1 c2 c3 s h⟩, fun codes s => ⟨fun h0 h => ?fast, fun h => ?still⟩⟩
  case judged =>
    obtain ⟨t, hexec, ⟨refu, pins, arb, own, lw, hbank⟩, hshow, hothers, hframe⟩ := rescueArbitration_spec b clip warn s h
    obtain ⟨-, hslot, -, -⟩ := h
    have horder : s.serveOrder b clip = s.rescueOrder b s.clk.slot (maskOf (fun p => s.chOn (16 * b.val + p)
        && ((s.bk b).substAt p s.clk.slot).isNone && !(s.bk b).plan.pred.testBit p && !clip.getLsbD p)) := by
      rw [State.serveOrder, State.mispredicted_eq]
    obtain ⟨hfine, hspare⟩ := testBit_maskOf_add (fun p => (s.bk b).plan.pred.testBit p && !clip.toNat.testBit p) (clip.toNat.testBit 16)
    refine ⟨t, hexec, ?_⟩
    dsimp only
    rw [← horder, hbank]
    refine ⟨rfl, rfl, rfl, hslot, rfl, fun p => ?_, ?_, fun p => ?_, hshow, hothers, hframe⟩
    · rw [← BitVec.testBit_toNat]
      exact hfine p p.isLt
    · rw [← BitVec.testBit_toNat]
      exact hspare
    · exact (testBit_maskOf _ p).trans (by rw [decide_eq_true p.isLt, Bool.true_and])
  case cycle =>
    obtain ⟨t, hexec, ⟨hcodes, hothers, hframe⟩, hlanes⟩ := conversionCycle_spec b cycle c0 c1 c2 c3 s h
    refine ⟨t, hexec, fun l => ⟨fun hused => (hlanes l).1 hused, fun hfree hinj => ?_⟩, hcodes, hothers, hframe⟩
    obtain ⟨hlast, hstep, hstarved, hslice⟩ := (hlanes l).2 hfree hinj
    exact ⟨hlast, hstep, hslice, hstarved⟩
  case fast =>
    obtain ⟨t, hexec, ht⟩ := fastConverterSample_taken codes s h0 (h.imp_right s.anyOpen_iff.mpr)
    refine ⟨t, hexec, fun k => (ht k).trans ?_⟩
    simp [FastSt.take, overCode, State.edgeNow, Bool.or_assoc]
  case still =>
    refine if_pos (h.imp_right fun ⟨h7, hclosed⟩ => ⟨h7, ?_⟩)
    rw [Bool.eq_false_iff, Ne, s.anyOpen_iff]
    rintro ⟨u, hu, hst⟩
    exact hclosed u hu hst

end Sys2Proof.Machine

namespace Sys2Proof.Machine
open Sys2Proof

/-! ### What the blocks leave of the hub's control

The mode, the configuration and the words of SYS, CFG and TIME with PAIR_CFG and ENG_CTL change where a request, a transition or a load changes them. What the channels,
banks, filters, triggers, calibrations and the log do beside it leaves them alone. -/

/-- A word of the hub's control: SYS, CFG, EVT and TIME less what the log writes itself, PAIR_CFG, and ENG_CTL of each logical engine. -/
def ctlWord (a : Nat) : Bool :=
  !evtReg a && (decide (a < 0x400) || a == Reg.PAIR_CFG || (decide (0x800 ≤ a) && decide (a < 0xC00) && a % 64 == 0))

theorem ctlWord_of_ge {a : Nat} (h : 0xC00 ≤ a) : ctlWord a = false := by
  simp [ctlWord, show ¬ a < 0x400 by omega, show ¬ a < 0xC00 by omega, show a ≠ Reg.PAIR_CFG by simp only [Reg.PAIR_CFG]; omega]

theorem ctlWord_evtReg {a : Nat} (h : ctlWord a = true) : evtReg a = false := by
  simp only [ctlWord, Bool.and_eq_true, Bool.not_eq_true'] at h
  exact h.1

/-- From s to t the mode, the configuration and the words of the hub's control stay. -/
def State.SameControl (s t : State) : Prop := t.mode = s.mode ∧ t.cfg = s.cfg ∧ ∀ a, ctlWord a = true → t.reg a = s.reg a

theorem State.SameControl.refl (s : State) : s.SameControl s := ⟨rfl, rfl, fun _ _ => rfl⟩

theorem State.SameControl.trans {s t u : State} (h : s.SameControl t) (h' : t.SameControl u) : s.SameControl u :=
  ⟨h'.1.trans h.1, h'.2.1.trans h.2.1, fun a ha => (h'.2.2 a ha).trans (h.2.2 a ha)⟩

/-- A fold keeps the control when each of its steps does. -/
theorem State.SameControl.foldl {β : Type} (l : List β) (f : State → β → State) (s : State) (hf : ∀ t x, State.SameControl t (f t x)) :
    s.SameControl (l.foldl f s) :=
  foldl_rel State.SameControl .refl (fun _ _ _ => .trans) l f s fun t x _ => hf t x

theorem State.SameControl.setReg (s : State) {a : Nat} (v : W64) (ha : ctlWord a = false) : s.SameControl (s.setReg a v) :=
  ⟨rfl, rfl, fun b hb => State.reg_setReg_ne s v (by rintro rfl; rw [ha] at hb; cases hb)⟩

theorem State.SameControl.setF (s : State) (f : Fld) (v : Nat) (hf : ctlWord f.addr = false) : s.SameControl (s.setF f v) := .setReg s _ hf

theorem State.SameControl.logTo (s : State) (d : Dest) (c : Cond) (u : Nat) (l : List W64) : s.SameControl (s.logTo d c u l) :=
  ⟨State.logTo_mode s d c u l, State.logTo_cfg s d c u l, fun _ ha => State.reg_logTo s d c u l (ctlWord_evtReg ha)⟩

theorem State.SameControl.log (s : State) (c : Cond) (u : Nat) (l : List W64) : s.SameControl (s.log c u l) := .logTo s .all c u l

section
variable {s t : State} (h : s.SameControl t)
include h

theorem State.SameControl.getF (f : Fld) (hf : ctlWord f.addr = true) : t.getF f = s.getF f := by
  rw [State.getF, h.2.2 _ hf, ← State.getF]

theorem State.SameControl.cur : t.cur = s.cur := h.getF Reg.SYS_MODE_CUR (by decide)

end

/-! Drives and filters -/

theorem State.beginDrive_control (s : State) (c : Nat) (start : Bool) : s.SameControl (s.beginDrive c start) := by
  unfold State.beginDrive
  extract_lets x lvl fresh y b
  exact State.SameControl.trans (t := (s.setCh c y).setBk b { s.bk b with factor := 1048576 }) ⟨rfl, rfl, fun _ _ => rfl⟩
    (.setF _ _ _ (ctlWord_of_ge (by simp only [Reg.CH_STATUS_DRIVE_OFF, Reg.CH_STATUS]; omega)))

theorem State.startDrive_control (s : State) (c : Nat) : s.SameControl (s.startDrive c) := by
  unfold State.startDrive
  split
  · exact s.beginDrive_control c true
  · exact .refl s

theorem State.stopDrive_control (s : State) (c : Nat) : s.SameControl (s.stopDrive c) := by
  unfold State.stopDrive
  extract_lets x
  split <;> exact ⟨rfl, rfl, fun _ _ => rfl⟩

theorem State.excfgChanged_control (s old : State) (c : Nat) : s.SameControl (s.excfgChanged old c) := by
  unfold State.excfgChanged
  extract_lets en was lvl x
  split
  · exact s.startDrive_control c
  split
  · exact s.stopDrive_control c
  split
  · exact .refl s
  split
  · exact ⟨rfl, rfl, fun _ _ => rfl⟩
  split
  · exact ⟨rfl, rfl, fun _ _ => rfl⟩
  · exact .refl s

theorem State.excitationChanged_control (s old : State) : s.SameControl (s.excitationChanged old) := by
  unfold State.excitationChanged
  split
  · exact .foldl _ _ s fun t c => t.excfgChanged_control old c
  · exact .refl s

theorem State.closeDetectors_flts (s : State) (m : Nat) : ∃ y, s.closeDetectors m = { s with flts := y } := by
  refine State.foldl_flts _ _ s fun t c => ?_
  extract_lets f
  split
  · split
    · exact ⟨_, rfl⟩
    · exact ⟨t.flts, rfl⟩
  · exact ⟨t.flts, rfl⟩

theorem State.logDelays_control (s old : State) (m : Nat) : s.SameControl (s.logDelays old m) := by
  refine .foldl _ _ s fun t c => ?_
  split
  · exact .refl t
  · exact .log t _ _ _

theorem State.newSettings_control (s old : State) (m : Nat) : s.SameControl (s.newSettings old m) := by
  obtain ⟨y, hy⟩ := s.recordSettings_flts m false
  obtain ⟨z, hz⟩ := (s.recordSettings m false).closeDetectors_flts m
  have h : s.SameControl ((s.recordSettings m false).closeDetectors m) := by
    rw [hz, hy]
    exact ⟨rfl, rfl, fun _ _ => rfl⟩
  exact h.trans (State.logDelays_control _ old m)

/-! ### An overlay takes effect (R56, R58) -/

theorem State.reg_congr {s t : State} (h : t.regs = s.regs) (a : Nat) : t.reg a = s.reg a := by rw [State.reg, h, ← State.reg]

theorem State.noteConfig_regs (s : State) : s.noteConfig.regs = s.regs := rfl

theorem State.noteConfig_frame (s : State) : { s.noteConfig with led := s.led } = s := rfl

/-- CFG_DIGEST and CFG_EPOCH written. -/
def State.writeDigest (s : State) (v : W64) (p : CfgParams) : State :=
  ((s.setReg Reg.CFG_DIGEST v).setF Reg.CFG_EPOCH_EPOCH p.epoch).setF Reg.CFG_EPOCH_GROUP p.group

theorem State.writeDigest_spec (s : State) (v : W64) (p : CfgParams) :
    (s.writeDigest v p).reg Reg.CFG_DIGEST = v ∧ (∀ a, a ≠ Reg.CFG_DIGEST → a ≠ Reg.CFG_EPOCH → (s.writeDigest v p).reg a = s.reg a)
      ∧ { s.writeDigest v p with regs := s.regs } = s :=
  ⟨(State.reg_setF_ne _ Reg.CFG_EPOCH_GROUP _ (by decide)).trans ((State.reg_setF_ne _ Reg.CFG_EPOCH_EPOCH _ (by decide)).trans
      (State.reg_setReg_self s _ _)),
    fun _ hd he => (State.reg_setF_ne _ Reg.CFG_EPOCH_GROUP _ he).trans ((State.reg_setF_ne _ Reg.CFG_EPOCH_EPOCH _ he).trans
      (State.reg_setReg_ne s _ hd)), rfl⟩

theorem State.showConfig_eq (s : State) : s.showConfig
    = (s.writeDigest ((s.storeOf s.activeStore).digest (s.getF Reg.CFG_STATUS_OVL_ACT)) s.cfg.params).noteConfig := rfl

/-- CFG_DIGEST as the active store and the active overlay give it; the words of CFG beside CFG_DIGEST and CFG_EPOCH stay. -/
theorem State.showConfig_spec (s : State) :
    s.showConfig.reg Reg.CFG_DIGEST = (s.storeOf s.activeStore).digest (s.getF Reg.CFG_STATUS_OVL_ACT)
      ∧ (∀ a, a ≠ Reg.CFG_DIGEST → a ≠ Reg.CFG_EPOCH → s.showConfig.reg a = s.reg a)
      ∧ { s.showConfig with regs := s.regs, led := s.led } = s := by
  rw [s.showConfig_eq]
  obtain ⟨hd, hr, hf⟩ := s.writeDigest_spec ((s.storeOf s.activeStore).digest (s.getF Reg.CFG_STATUS_OVL_ACT)) s.cfg.params
  generalize s.writeDigest ((s.storeOf s.activeStore).digest (s.getF Reg.CFG_STATUS_OVL_ACT)) s.cfg.params = t at hd hr hf
  exact ⟨(State.reg_congr t.noteConfig_regs _).trans hd, fun a ha he => (State.reg_congr t.noteConfig_regs a).trans (hr a ha he),
    (congrArg (fun x : State => { x with led := s.led }) hf :)⟩

/-- The hub with overlay k shown as active from slot m on, before the digest follows. -/
def State.overlayShown (s : State) (k m : Nat) : State := (s.setF Reg.CFG_STATUS_OVL_ACT k).setReg Reg.CFG_OVL_SLOT (BitVec.ofNat 64 m)

theorem State.overlayShown_spec (s : State) (k m : Nat) (hk : k < 16) :
    (s.overlayShown k m).getF Reg.CFG_STATUS_OVL_ACT = k
      ∧ (∀ f : Fld, f.addr = Reg.CFG_STATUS → f.hi < 64 → f.hi < 4 ∨ 7 < f.lo → (s.overlayShown k m).getF f = s.getF f)
      ∧ (s.overlayShown k m).reg Reg.CFG_OVL_SLOT = BitVec.ofNat 64 m ∧ (s.overlayShown k m).cfg = s.cfg := by
  refine ⟨?_, fun f hf hhi hd => ?_, State.reg_setReg_self _ _ _, rfl⟩
  · rw [State.overlayShown, State.getF_setReg_addr _ _ _ (by decide), State.getF_setF_self _ _ _ (by decide)]
    exact Nat.mod_eq_of_lt hk
  · rw [State.overlayShown, State.getF_setReg_addr _ _ _ (by rw [hf]; decide)]
    exact State.getF_setF_beside s Reg.CFG_STATUS_OVL_ACT f k hf hhi hd

/-- An overlay put into effect whole, as CFG_STATUS, CFG_OVL_SLOT and CFG_DIGEST show it. -/
theorem State.putOverlay_whole (s u : State) (k m port : Nat) (hk : k < 16)
    (h : s.changeOverlay s.recCtx (s.overlayDef (s.getF Reg.CFG_STATUS_OVL_ACT)) (s.overlayDef k) = (u, none)) :
    (s.putOverlay k m port).getF Reg.CFG_STATUS_OVL_ACT = k
      ∧ (∀ f : Fld, f.addr = Reg.CFG_STATUS → f.hi < 64 → f.hi < 4 ∨ 7 < f.lo → (s.putOverlay k m port).getF f = u.getF f)
      ∧ (s.putOverlay k m port).reg Reg.CFG_OVL_SLOT = BitVec.ofNat 64 m
      ∧ (s.putOverlay k m port).reg Reg.CFG_DIGEST = (u.storeOf u.activeStore).digest k := by
  have heq : s.putOverlay k m port = ((u.overlayActive k m).excitationChanged s).newSettings s m := by
    unfold State.putOverlay
    rw [h]
  obtain ⟨hact, hstatus, hslot, hcfg⟩ := u.overlayShown_spec k m hk
  obtain ⟨hdigest, hwords, -⟩ := (u.overlayShown k m).showConfig_spec
  have hctl : (u.overlayActive k m).SameControl (s.putOverlay k m port) := by
    rw [heq]
    exact (State.excitationChanged_control _ s).trans (State.newSettings_control _ s m)
  have hreg : ∀ a, ctlWord a = true → a ≠ Reg.CFG_DIGEST → a ≠ Reg.CFG_EPOCH → (s.putOverlay k m port).reg a = (u.overlayShown k m).reg a :=
    fun a ha hd he => (hctl.2.2 a ha).trans (hwords a hd he)
  have hfld : ∀ f : Fld, f.addr = Reg.CFG_STATUS → (s.putOverlay k m port).getF f = (u.overlayShown k m).getF f := fun f hf => by
    rw [State.getF, hf, hreg _ (by decide) (by decide) (by decide), ← hf, ← State.getF]
  have hstore : (u.overlayShown k m).activeStore = u.activeStore := hstatus Reg.CFG_STATUS_STORE rfl (by decide) (by decide)
  refine ⟨(hfld _ rfl).trans hact, fun f hf hhi hd => (hfld f hf).trans (hstatus f hf hhi hd),
    (hreg _ (by decide) (by decide) (by decide)).trans hslot, (hctl.2.2 _ (by decide)).trans ?_⟩
  refine hdigest.trans ?_
  rw [hact, hstore, State.storeOf, hcfg, ← State.storeOf]

/-! ### Requests (R55, R57) -/

/-- The word of a request names its overlay and whether a slot is named. -/
theorem ovlReq_word : ∀ (a : Bool) (o : BitVec 4), bits (BitVec.ofNat 64 (16 * b2n a + o.toNat)) 3 0 = o.toNat
    ∧ bit (BitVec.ofNat 64 (16 * b2n a + o.toNat)) 4 = a ∧ BitVec.ofNat 64 (16 * b2n a + o.toNat) &&& 0x1F = BitVec.ofNat 64 (16 * b2n a + o.toNat)
    ∧ BitVec.ofNat 64 (16 * b2n a + o.toNat) &&& ~~~(0x1F : W64) = 0 := by decide

/-- What the table says of CFG_OVL_REQ. -/
def ovlReqDesc : RegDesc := ⟨0x0120, 0, 1, 0x0, [⟨4, 4, .wo⟩, ⟨3, 0, .wo⟩]⟩

theorem findReg_ovlReq : findReg Reg.CFG_OVL_REQ = some ovlReqDesc := by decide

theorem needClass_ovlReq (s : State) (w : WCtx) (v : W64) : s.needClass w Reg.CFG_OVL_REQ v = 1 := rfl

section
variable (s : State) (port : Port) (at_ : Bool) (o : BitVec 4)

/-- A request by a port whose class suffices is judged as such. -/
theorem State.portWrite_ovlReq (hc : 1 ≤ s.classOf port) : s.portWrite port Reg.CFG_OVL_REQ (BitVec.ofNat 64 (16 * b2n at_ + o.toNat))
    = (s.overlayRequest port (BitVec.ofNat 64 (16 * b2n at_ + o.toNat))).1 := by
  obtain ⟨-, -, hown, hrest⟩ := ovlReq_word at_ o
  have hknown : s.knownBits port Reg.CFG_OVL_REQ ovlReqDesc = 0x1F := by
    unfold State.knownBits
    rw [if_neg (by decide), if_neg (by decide)]
    decide
  rw [State.portWrite, s.writeExt_of_unlockable hubExt (s.wctx port) _ findReg_ovlReq (by decide) hc (by decide)]
  change ((s.countReserved (s.knownBits port Reg.CFG_OVL_REQ ovlReqDesc) _).writeBlock hubExt (s.wctx port) ovlReqDesc Reg.CFG_OVL_REQ
    (_ &&& s.knownBits port Reg.CFG_OVL_REQ ovlReqDesc)).1 = _
  rw [hknown, hown, State.countReserved, if_pos hrest]
  rfl

theorem State.portWrite_ovlReq_observer (v : W64) (hc : s.classOf port = 0) :
    s.portWrite port Reg.CFG_OVL_REQ v = s.logRefusal .SYS_AUTH_DENIED 0 Reg.CFG_OVL_REQ port := by
  have hw : s.writeExt hubExt (s.wctx port) Reg.CFG_OVL_REQ v = s.refuse .SYS_AUTH_DENIED 0 Reg.CFG_OVL_REQ port := by
    unfold State.writeExt
    rw [findReg_ovlReq]
    exact if_pos (by rw [needClass_ovlReq]; exact Nat.lt_of_le_of_lt (Nat.le_of_eq hc) (by decide))
  rw [State.portWrite, hw]
  rfl

/-- The overlay of a request is stored, or none is asked for while one is active. -/
def State.ovlThere (k : Nat) : Prop :=
  if k = 15 then s.getF Reg.CFG_STATUS_OVL_ACT ≠ 15 else k < 8 ∧ (s.getF Reg.CFG_STATUS_OVL_PRESENT).testBit k = true

/-- The slot of a request. -/
def State.ovlWhen : Nat := if at_ then (s.copy port Reg.CFG_OVL_AT).toNat else s.now + 16

/-- Tests 2 to 4 of a request. -/
def State.ovlTests (k when_ : Nat) : Option Cond := firstFail
  [(if k = 15 then s.getF Reg.CFG_STATUS_OVL_ACT != 15 else decide (k < 8) && (s.getF Reg.CFG_STATUS_OVL_PRESENT).testBit k, .CFG_OVL_ABSENT),
    (!s.flag Reg.CFG_STATUS_PENDV && !s.cfg.autoNext, .CFG_OVL_BUSY), (decide (s.now + 16 ≤ when_), .CFG_OVL_LATE)]

/-- Test 5: every record of the change as its block judges it. -/
def State.ovlJudged (k when_ : Nat) : Option (Nat × Nat × Cond) :=
  (s.changeOverlay { port := cfgPort, slot := when_, asked := s.now } (s.overlayDef (s.getF Reg.CFG_STATUS_OVL_ACT)) (s.overlayDef k)).2

theorem State.ovlThere_iff (k : Nat) : s.ovlThere k
    ↔ (if k = 15 then s.getF Reg.CFG_STATUS_OVL_ACT != 15 else decide (k < 8) && (s.getF Reg.CFG_STATUS_OVL_PRESENT).testBit k) = true := by
  unfold State.ovlThere
  split <;> simp

/-- No activation is pending or waits behind one. -/
def State.ovlFree : Prop := s.getF Reg.CFG_STATUS_PENDV = 0 ∧ s.cfg.autoNext = false

theorem State.ovlFree_iff : s.ovlFree ↔ (!s.flag Reg.CFG_STATUS_PENDV && !s.cfg.autoNext) = true := by
  simp [State.ovlFree, State.flag]

section
variable {s} {k when_ : Nat}

theorem State.ovlTests_absent (h : ¬ s.ovlThere k) : s.ovlTests k when_ = some .CFG_OVL_ABSENT := by
  rw [s.ovlThere_iff, Bool.not_eq_true] at h
  simp only [State.ovlTests, firstFail, h, Bool.false_eq_true, if_false]

theorem State.ovlTests_busy (h : s.ovlThere k) (hf : ¬ s.ovlFree) : s.ovlTests k when_ = some .CFG_OVL_BUSY := by
  rw [s.ovlThere_iff] at h
  rw [s.ovlFree_iff, Bool.not_eq_true] at hf
  simp only [State.ovlTests, firstFail, h, hf, Bool.false_eq_true, if_false, if_true]

theorem State.ovlTests_late (h : s.ovlThere k) (hf : s.ovlFree) (hl : when_ < s.now + 16) : s.ovlTests k when_ = some .CFG_OVL_LATE := by
  rw [s.ovlThere_iff] at h
  rw [s.ovlFree_iff] at hf
  simp only [State.ovlTests, firstFail, h, hf, decide_eq_false (Nat.not_le.mpr hl), Bool.false_eq_true, if_false, if_true]

theorem State.ovlTests_passed (h : s.ovlThere k) (hf : s.ovlFree) (hl : s.now + 16 ≤ when_) : s.ovlTests k when_ = none := by
  rw [s.ovlThere_iff] at h
  rw [s.ovlFree_iff] at hf
  simp only [State.ovlTests, firstFail, h, hf, decide_eq_true hl, if_true]

end

/-- The hub with an overlay pending for its slot. -/
theorem State.pendOverlay_spec (k when_ : Nat) (hk : k < 16) :
    (s.pendOverlay k (some when_) port false).getF Reg.CFG_STATUS_PENDV = 1
      ∧ (s.pendOverlay k (some when_) port false).getF Reg.CFG_STATUS_OVL_PEND = k
      ∧ (s.pendOverlay k (some when_) port false).getF Reg.CFG_STATUS_OVL_ACT = s.getF Reg.CFG_STATUS_OVL_ACT := by
  have hregs : (s.pendOverlay k (some when_) port false).regs = ((s.setF Reg.CFG_STATUS_PENDV 1).setF Reg.CFG_STATUS_OVL_PEND k).regs := rfl
  refine ⟨(State.getF_congr hregs _).trans ?_, (State.getF_congr hregs _).trans ?_, (State.getF_congr hregs _).trans ?_⟩
  · exact (State.getF_setF_beside _ Reg.CFG_STATUS_OVL_PEND Reg.CFG_STATUS_PENDV _ rfl (by decide) (by decide)).trans
      (State.getF_setF_self s _ _ (by decide))
  · exact (State.getF_setF_self _ _ _ (by decide)).trans (Nat.mod_eq_of_lt hk)
  · exact (State.getF_setF_beside _ Reg.CFG_STATUS_OVL_PEND Reg.CFG_STATUS_OVL_ACT _ rfl (by decide) (by decide)).trans
      (State.getF_setF_beside s Reg.CFG_STATUS_PENDV Reg.CFG_STATUS_OVL_ACT _ rfl (by decide) (by decide))

/-- A request by its overlay and its slot. -/
def State.requestOverlay (k when_ : Nat) : WriteRes :=
  match s.ovlTests k when_ with
  | some c => s.refuse c k Reg.CFG_OVL_REQ port
  | none =>
    match s.ovlJudged k when_ with
    | some e => (s.overlayRefused (.refusal port) k port e, some .CFG_OVL_REFUSED)
    | none => (s.pendOverlay k (some when_) port false, none)

theorem State.overlayRequest_eq :
    s.overlayRequest port (BitVec.ofNat 64 (16 * b2n at_ + o.toNat)) = s.requestOverlay port o.toNat (s.ovlWhen port at_) := by
  obtain ⟨hovl, hat, -, -⟩ := ovlReq_word at_ o
  unfold State.overlayRequest
  rw [hovl, hat]
  rfl

section
variable (hopen : s.portOpen port Reg.CFG_OVL_REQ = true)
include hopen

theorem overlayRequest_open : exec (.overlayRequest port at_ o) s
    = .next (s.portWrite port Reg.CFG_OVL_REQ (BitVec.ofNat 64 (16 * b2n at_ + o.toNat))) := if_pos hopen

theorem overlayRequest_observer (hc : s.classOf port = 0) : Refuses (.overlayRequest port at_ o) s .SYS_AUTH_DENIED 0 Reg.CFG_OVL_REQ port := by
  refine ⟨_, overlayRequest_open s port at_ o hopen, ?_⟩
  rw [s.portWrite_ovlReq_observer port _ hc]
  exact ⟨s.logged_logRefusal _ _ _ _, s.logTo_frame _ _ _ _⟩

theorem overlayRequest_exec (hc : 1 ≤ s.classOf port) :
    exec (.overlayRequest port at_ o) s = .next (s.requestOverlay port o.toNat (s.ovlWhen port at_)).1 := by
  rw [overlayRequest_open s port at_ o hopen, s.portWrite_ovlReq port at_ o hc, s.overlayRequest_eq]

/-- A request that fails a test. -/
theorem overlayRequest_fails (hc : 1 ≤ s.classOf port) {c : Cond} (h : s.ovlTests o.toNat (s.ovlWhen port at_) = some c) :
    Refuses (.overlayRequest port at_ o) s c o.toNat Reg.CFG_OVL_REQ port := by
  refine ⟨_, overlayRequest_exec s port at_ o hopen hc, ?_⟩
  unfold State.requestOverlay
  rw [h]
  exact ⟨s.logged_logRefusal _ _ _ _, s.logTo_frame _ _ _ _⟩

/-- A request with a record that its block refuses. -/
theorem overlayRequest_judged (hc : 1 ≤ s.classOf port) (h : s.ovlTests o.toNat (s.ovlWhen port at_) = none) {e : Nat × Nat × Cond}
    (hj : s.ovlJudged o.toNat (s.ovlWhen port at_) = some e) :
    Gives (.overlayRequest port at_ o) s (fun t =>
      Logged s t .CFG_OVL_REFUSED o.toNat (BitVec.ofNat 64 e.1) (BitVec.ofNat 64 port.val) ∧ { t with regs := s.regs, evt := s.evt } = s) := by
  refine ⟨_, overlayRequest_exec s port at_ o hopen hc, ?_⟩
  unfold State.requestOverlay
  rw [h]
  dsimp only
  rw [hj]
  exact ⟨s.logged_logTo (.refusal port) .CFG_OVL_REFUSED o.toNat
    [BitVec.ofNat 64 e.1, BitVec.ofNat 64 port, BitVec.ofNat 64 e.2.1, BitVec.ofNat 64 e.2.2.code] (by simp), s.logTo_frame _ _ _ _⟩

/-- A request that is accepted waits for its slot. -/
theorem overlayRequest_accepted (hc : 1 ≤ s.classOf port) (h : s.ovlTests o.toNat (s.ovlWhen port at_) = none)
    (hj : s.ovlJudged o.toNat (s.ovlWhen port at_) = none) :
    exec (.overlayRequest port at_ o) s = .next (s.pendOverlay o.toNat (some (s.ovlWhen port at_)) port false) := by
  rw [overlayRequest_exec s port at_ o hopen hc]
  unfold State.requestOverlay
  rw [h]
  dsimp only
  rw [hj]

end

end

/-! ### The activation (R55 to R58) -/

theorem State.dropOverlay_getF_act (s : State) : s.dropOverlay.getF Reg.CFG_STATUS_OVL_ACT = s.getF Reg.CFG_STATUS_OVL_ACT := by
  refine (State.getF_congr (show s.dropOverlay.regs = ((s.setF Reg.CFG_STATUS_PENDV 0).setF Reg.CFG_STATUS_OVL_PEND 15).regs from rfl) _).trans ?_
  exact (State.getF_setF_beside _ Reg.CFG_STATUS_OVL_PEND Reg.CFG_STATUS_OVL_ACT _ rfl (by decide) (by decide)).trans
    (State.getF_setF_beside s Reg.CFG_STATUS_PENDV Reg.CFG_STATUS_OVL_ACT _ rfl (by decide) (by decide))

theorem overlayActivation_due {s : State} {m : Nat} (hat : s.cfg.pendAt = some m) (hdue : s.overlayDue = true)
    (hk : s.getF Reg.CFG_STATUS_OVL_PEND = 15 ∨ s.overlayDef (s.getF Reg.CFG_STATUS_OVL_PEND) ≠ none) :
    exec .overlayActivation s = .next (s.dropOverlay.putOverlay (s.getF Reg.CFG_STATUS_OVL_PEND) m s.cfg.pendPort) := by
  change execOverlayActivation s = _
  unfold execOverlayActivation
  rw [hat]
  refine (if_pos hdue).trans (if_neg ?_)
  rintro ⟨hne, hnone⟩
  exact hk.elim hne fun h => h (Option.isNone_iff_eq_none.mp hnone)

theorem overlayActivation_idle {s : State} (h : s.overlayDue = false) : exec .overlayActivation s = .next s := by
  change execOverlayActivation s = _
  unfold execOverlayActivation
  split
  · exact if_neg (by simp [h])
  · rfl

/-- Settles O24: the tests of a request in their order, and the activation by what putOverlay shows. -/
theorem overlayChanges : Obligations.OverlayChanges := by
  unfold Obligations.OverlayChanges
  refine ⟨fun port at_ o s => ⟨fun h => if_neg (by simp [h]), fun hopen => ⟨overlayRequest_observer s port at_ o hopen,
      fun hc hn => ?absent, fun hc ht hf => ?busy, fun hc ht hf hl => ?late, fun hc ht hf hl e hj => ?refused, fun hc ht hf hl hj => ?accepted⟩⟩,
    fun m u s => ?active, fun s h => overlayActivation_idle h⟩
  case absent => exact overlayRequest_fails s port at_ o hopen hc (State.ovlTests_absent hn)
  case busy => exact overlayRequest_fails s port at_ o hopen hc (State.ovlTests_busy ht hf)
  case late => exact overlayRequest_fails s port at_ o hopen hc (State.ovlTests_late ht hf hl)
  case refused => exact overlayRequest_judged s port at_ o hopen hc (State.ovlTests_passed ht hf hl) hj
  case accepted =>
    obtain ⟨hv, hp, hact⟩ := s.pendOverlay_spec port o.toNat (s.ovlWhen port at_) o.isLt
    exact ⟨_, overlayRequest_accepted s port at_ o hopen hc (State.ovlTests_passed ht hf hl) hj, hv, hp, hact, rfl, rfl, rfl⟩
  case active =>
    intro k hat hv hm hk hchange
    have hdue : s.overlayDue = true := by simp [State.overlayDue, State.flag, hv, hat, hm]
    have hlt : k < 16 := Nat.mod_lt _ (by decide)
    obtain ⟨hact, hstatus, hslot, hdigest⟩ := s.dropOverlay.putOverlay_whole u k m s.cfg.pendPort hlt (by rw [s.dropOverlay_getF_act]; exact hchange)
    exact ⟨_, overlayActivation_due hat hdue hk, hact, hstatus Reg.CFG_STATUS_PENDV rfl (by decide) (by decide), hslot, hdigest⟩

end Sys2Proof.Machine

namespace Sys2Proof.Machine
open Sys2Proof

/-! ### A host command that is taken up (R348, R352 to R360) -/

/-- Counting a command changes the command counts of its lane only. -/
theorem State.countCmd_spec (s : State) (l status : Nat) :
    (∃ m, s.countCmd l status = { s with regs := m }) ∧ ∀ b, b ≠ Reg.SYS_HOST l → (s.countCmd l status).reg b = s.reg b := by
  unfold State.countCmd
  extract_lets s1
  split
  · exact ⟨⟨_, rfl⟩, fun b hb => State.reg_bump_ne _ (Reg.SYS_HOST_CMDS l) hb⟩
  · exact ⟨⟨_, rfl⟩, fun b hb =>
      (State.reg_bump_ne _ (Reg.SYS_HOST_REFUSED l) hb).trans (State.reg_bump_ne _ (Reg.SYS_HOST_CMDS l) hb)⟩

/-- What answering adds to a body's state: the response in the host context, and the counts of the lane. -/
theorem State.answer_spec (s : State) (l : Nat) (c : Cmd) (op tag : Nat) (a : Answer) :
    (∃ m x, s.answer l c op tag a = { a.st with regs := m, hosts := x })
      ∧ (∀ b, b ≠ Reg.SYS_HOST l → (s.answer l c op tag a).reg b = a.st.reg b)
      ∧ ((s.answer l c op tag a).hostOf l).resps = (a.st.hostOf l).resps
          ++ [{ dst := c.src, op := op, tag := tag, status := a.status, detail := a.detail, words := a.words, ready := s.upSlots }] := by
  obtain ⟨⟨m, hm⟩, hreg⟩ := a.st.countCmd_spec l a.status
  unfold State.answer
  extract_lets r s1 x
  have hx : x = a.st.hostOf l := (congrArg (fun u : State => u.hostOf l) hm :)
  refine ⟨⟨m, _, (congrArg (fun u : State => u.setHost l { x with resps := x.resps ++ [r], store := ((c, r) :: x.store).take 16 }) hm :)⟩,
    fun b hb => hreg b hb, ?_⟩
  rw [← hx]
  exact congrArg HostSt.resps (s1.hostOf_setHost_self l _)

/-- A command taken up is answered as its body says, and changes what its body changes. -/
theorem State.command_answered {s : State} {l : Nat} {h : CmdHdr} {op : Nat} {ops : List W64} {cls : Nat} {sysRead : Bool}
    (hacc : Accepts s l h op ops cls sysRead) (body : State → Answer) (hphase : (body s).st.mode.phase = s.mode.phase)
    (hhosts : (body s).st.hosts = s.hosts) :
    Answered s (s.command l h op ops cls sysRead body) l h op (body s).status (body s).words
      ∧ (∃ m x, s.command l h op ops cls sysRead body = { (body s).st with regs := m, hosts := x })
      ∧ ∀ a, a ≠ Reg.SYS_HOST l → (s.command l h op ops cls sysRead body).reg a = (body s).st.reg a := by
  obtain ⟨hheld, hpair, hans, hroom, hnew, hserved, hcls⟩ := hacc
  have hfind : (if h.tag = 0 then none else (s.hostOf l).store.find? (fun e => e.1 == { src := h.src.toNat, words := cmdFrame h op ops }))
      = none := by
    split
    · rfl
    next htag =>
      rw [List.find?_eq_none]
      intro e he
      simpa using (hnew.resolve_left htag) e he
  obtain ⟨⟨m, x, hm⟩, hreg, hresps⟩ := s.answer_spec l { src := h.src.toNat, words := cmdFrame h op ops } op h.tag.toNat (body s)
  have hown : (body s).st.hostOf l = s.hostOf l := by rw [State.hostOf, hhosts, ← State.hostOf]
  rw [hown] at hresps
  unfold State.command
  extract_lets c y a t
  rw [if_neg (by simp [hpair, hans]), if_neg (Nat.not_le.mpr hroom), hfind]
  dsimp -zeta only
  have ha : a = body s := (if_neg (by simp [hserved])).trans (if_neg (Nat.not_lt.mpr hcls))
  have ht : t = s.answer l c op h.tag.toNat (body s) := by
    rw [← ha]
    exact if_neg (by rw [ha, hphase]; exact hheld)
  rw [← ht] at hm hreg hresps
  split
  · refine ⟨⟨_, (congrArg HostSt.resps (t.hostOf_setHost_self l _)).trans hresps,
      rfl, rfl, rfl, rfl, rfl⟩, ⟨m, _, (congrArg (fun u : State => u.setHost l { t.hostOf l with sub := some h.src.toNat }) hm :)⟩,
      fun a ha => hreg a ha⟩
  · exact ⟨⟨_, hresps, rfl, rfl, rfl, rfl, rfl⟩, ⟨m, x, hm⟩, hreg⟩

/-- What a command gives is judged from the answer that its body comes to. -/
theorem Gives.of_command {c : Instr} {s : State} {l : Nat} {h : CmdHdr} {op : Nat} {ops : List W64} {cls : Nat} {sysRead : Bool}
    {body : State → Answer} {a : Answer} {P : State → Prop} (hexec : exec c s = .next (s.command l h op ops cls sysRead body))
    (hacc : Accepts s l h op ops cls sysRead) (hb : body s = a) (hphase : a.st.mode.phase = s.mode.phase) (hhosts : a.st.hosts = s.hosts)
    (hP : ∀ t m x, Answered s t l h op a.status a.words → t = { a.st with regs := m, hosts := x } →
      (∀ r, r ≠ Reg.SYS_HOST l → t.reg r = a.st.reg r) → P t) : Gives c s P := by
  subst hb
  obtain ⟨hans, ⟨m, x, hm⟩, hreg⟩ := State.command_answered hacc body hphase hhosts
  exact ⟨_, hexec, hP _ m x hans hm hreg⟩

theorem sysHost_ne {a : Nat} (ha : 0x100 ≤ a) (l : Fin 4) : a ≠ Reg.SYS_HOST l := by
  simp only [Reg.SYS_HOST]
  omega

/-! ### Configuration stores by command (R53, R54, R361, R500) -/

theorem State.otherStore_ne (s : State) : s.otherStore ≠ s.activeStore := by
  rw [State.otherStore]
  omega

theorem State.storeOf_congr {s t : State} (h : t.cfg = s.cfg) (k : Nat) : t.storeOf k = s.storeOf k := by
  rw [State.storeOf, h, ← State.storeOf]

/-- The other store erased and held by a port, from offset 0. -/
def State.begun (s : State) (port : Nat) : State :=
  let s1 := s.setStore s.otherStore {}
  ({ s1 with cfg := { s1.cfg with writer := some port, nextOff := 0, newer := false } } : State).setF Reg.CFG_STATUS_OTHER_VALID 0

theorem State.cfgBegin_of_free {s : State} {port : Nat} (h : ∀ p, s.cfg.writer = some p → p = port) : s.cfgBegin port = (s.begun port, none) := by
  unfold State.cfgBegin
  extract_lets busy s1
  refine if_neg ?_
  cases hw : s.cfg.writer with
  | none => simp [busy, hw]
  | some p => simp [busy, hw, h p hw]

theorem State.storeOf_begun (s : State) (port k : Nat) : (s.begun port).storeOf k = (s.setStore s.otherStore {}).storeOf k := rfl

/-- CFG_BEGIN erases the other store for its port. -/
theorem cfgBegin_erases (l : Fin 4) (h : CmdHdr) (s : State) (hacc : Accepts s l h 0x20 [] 2 false)
    (hfree : ∀ p, s.cfg.writer = some p → p = l.val) : Gives (.cfgBegin l h) s (fun t =>
      Answered s t l h 0x20 0 [] ∧ (t.storeOf s.otherStore).len = 0 ∧ (t.storeOf s.otherStore).seq = none ∧ t.cfg.writer = some l.val
      ∧ t.cfg.nextOff = 0 ∧ t.storeOf s.activeStore = s.storeOf s.activeStore) := by
  refine Gives.of_command rfl hacc (a := { st := s.begun l.val }) ?_ rfl rfl fun t m x hans ht _ => ?_
  · rw [State.cfgBegin_of_free hfree]
  · have hstore : ∀ k, t.storeOf k = (s.setStore s.otherStore {}).storeOf k := fun k => by rw [ht]; rfl
    rw [hstore, hstore, State.storeOf_setStore_self, State.storeOf_setStore_ne s _ s.otherStore_ne.symm]
    exact ⟨hans, rfl, rfl, by rw [ht]; rfl, by rw [ht]; rfl, rfl⟩

/-- The other store with a word written at an offset. -/
def State.wordWritten (s : State) (off : Nat) (v : W64) : State :=
  let x := s.storeOf s.otherStore
  let s1 := s.setStore s.otherStore { x with words := x.words.set (fun _ => 0) off v, len := off + 1 }
  { s1 with cfg := { s1.cfg with nextOff := off + 1 } }

theorem State.storeOf_wordWritten (s : State) (off : Nat) (v : W64) : (s.wordWritten off v).storeOf s.otherStore
    = { s.storeOf s.otherStore with words := (s.storeOf s.otherStore).words.set (fun _ => 0) off v, len := off + 1 } :=
  State.storeOf_setStore_self s _ _

theorem State.cfgWords_next {s : State} {port : Nat} {v : W64} (hw : s.cfg.writer = some port) (hsize : s.cfg.nextOff < storeWordsMax) (i : Nat) :
    s.cfgWords port i s.cfg.nextOff [v] = (s.wordWritten s.cfg.nextOff v, none) := by
  rw [State.cfgWords, if_neg (by simp [hw]), if_neg (Nat.not_le.mpr hsize)]
  rfl

theorem State.cfgWords_other {s : State} {port off : Nat} {v : W64} (hoff : off ≠ s.cfg.nextOff) (i : Nat) :
    s.cfgWords port i off [v] = (s, some (i, .CFG_WRITE_ORDER)) := by
  rw [State.cfgWords, if_pos (Or.inr hoff)]

/-- CFG_WRITE of one word: written at the next offset, refused at another one. -/
theorem cfgWrite_word (l : Fin 4) (h : CmdHdr) (s : State) (off v : W64) (hacc : Accepts s l h 0x21 [off, v] 2 false)
    (hw : s.cfg.writer = some l.val) (hsize : off.toNat < storeWordsMax) : Gives (.cfgWrite l h off [v]) s (fun t =>
      (off.toNat = s.cfg.nextOff → Answered s t l h 0x21 0 [] ∧ (t.storeOf s.otherStore).word off.toNat = v
        ∧ (t.storeOf s.otherStore).len = off.toNat + 1 ∧ t.cfg.nextOff = off.toNat + 1)
      ∧ (off.toNat ≠ s.cfg.nextOff → Answered s t l h 0x21 2 [] ∧ t.cfg = s.cfg
        ∧ Logged s t .CFG_WRITE_ORDER 0 0x21 (BitVec.ofNat 64 l.val))) := by
  by_cases hoff : off.toNat = s.cfg.nextOff
  · refine Gives.of_command rfl hacc (a := { st := s.wordWritten off.toNat v }) ?_ rfl rfl fun t m x hans ht _ => ⟨fun _ => ?_, fun hne => absurd hoff hne⟩
    · refine (if_neg Bool.false_ne_true).trans ?_
      rw [hoff, State.cfgWords_next hw (hoff ▸ hsize)]
    · have hstore : t.storeOf s.otherStore = (s.wordWritten off.toNat v).storeOf s.otherStore := by rw [ht]; rfl
      rw [hstore, State.storeOf_wordWritten]
      exact ⟨hans, Sparse.get_set_self (fun _ => 0) _ off.toNat v, rfl, by rw [ht]; rfl⟩
  · refine Gives.of_command rfl hacc (a := s.refused .CFG_WRITE_ORDER 0 0x21 l) ?_ ?_ ?_ fun t m x hans ht _ => ⟨fun he => absurd he hoff, fun _ => ⟨hans, ?_, ?_⟩⟩
    · refine (if_neg Bool.false_ne_true).trans ?_
      rw [State.cfgWords_other hoff]
      rfl
    · exact congrArg ModeSt.phase (s.logRefusal_mode _ _ _ _)
    · exact s.logRefusal_hosts _ _ _ _
    · rw [ht]
      exact s.logRefusal_cfg _ _ _ _
    · exact (s.logged_logRefusal .CFG_WRITE_ORDER 0 0x21 l).of_evt (by rw [ht]; rfl)

/-- The other store committed under a sequence number. -/
def State.committedAs (s : State) (n : Nat) : State :=
  let s1 := s.setStore s.otherStore { s.storeOf s.otherStore with seq := some n, crc := (s.storeOf s.otherStore).imageCrc }
  ({ s1 with cfg := { s1.cfg with writer := none, newer := true } } : State).setF Reg.CFG_STATUS_OTHER_VALID 1

theorem State.storeOf_committedAs (s : State) (n : Nat) : (s.committedAs n).storeOf s.otherStore
    = { s.storeOf s.otherStore with seq := some n, crc := (s.storeOf s.otherStore).imageCrc } := State.storeOf_setStore_self s _ _

theorem State.commitTest_none {s : State} {port : Nat} (hw : s.cfg.writer = some port) (hcheck : (s.storeOf s.otherStore).check = none)
    (hepoch : s.getF Reg.CFG_EPOCH_EPOCH ≤ (s.storeOf s.otherStore).params.epoch) : s.commitTest port = none := by
  unfold State.commitTest
  extract_lets x
  rw [if_neg (by simp [hw]), hcheck]
  exact if_neg fun ⟨hlt, _⟩ => Nat.not_lt.mpr hepoch hlt

/-- A store that checks is valid under any sequence number and the CRC of its image. -/
theorem CfgStore.valid_committed {x : CfgStore} (h : x.check = none) (n : Nat) :
    ({ x with seq := some n, crc := x.imageCrc } : CfgStore).valid = true := by
  have hcheck : ({ x with seq := some n, crc := x.imageCrc } : CfgStore).check = none := h
  have hcrc : ({ x with seq := some n, crc := x.imageCrc } : CfgStore).imageCrc = x.imageCrc := rfl
  rw [CfgStore.valid, hcheck, CfgStore.committed, hcrc]
  simp

/-- CFG_COMMIT of a store that checks: it takes the number after the active store's. -/
theorem cfgCommit_takes (l : Fin 4) (h : CmdHdr) (s : State) (hacc : Accepts s l h 0x22 [] 2 false) (hw : s.cfg.writer = some l.val)
    (hcheck : (s.storeOf s.otherStore).check = none) (hepoch : s.getF Reg.CFG_EPOCH_EPOCH ≤ (s.storeOf s.otherStore).params.epoch) :
    let n := (((s.storeOf s.activeStore).seq.getD 0) + 1) % 2 ^ 64
    Gives (.cfgCommit l h) s (fun t => Answered s t l h 0x22 0 [BitVec.ofNat 64 n] ∧ (t.storeOf s.otherStore).seq = some n
      ∧ (t.storeOf s.otherStore).valid = true ∧ t.cfg.newer = true ∧ t.cfg.writer = none ∧ t.getF Reg.CFG_STATUS_OTHER_VALID = 1) := by
  intro n
  refine Gives.of_command rfl hacc (a := { st := s.committedAs n, words := [BitVec.ofNat 64 n] }) ?_ rfl rfl fun t m x hans ht hreg => ?_
  · rw [State.commitTest_none hw hcheck hepoch]
    rfl
  · have hstore : t.storeOf s.otherStore = (s.committedAs n).storeOf s.otherStore := by rw [ht]; rfl
    rw [hstore, State.storeOf_committedAs]
    refine ⟨hans, rfl, CfgStore.valid_committed hcheck n, by rw [ht]; rfl, by rw [ht]; rfl, ?_⟩
    rw [State.getF, hreg _ (sysHost_ne (by decide) l), ← State.getF]
    exact State.getF_setF_self _ _ _ (by decide)

/-- CFG_LOAD outside Basecamp is refused. -/
theorem cfgLoad_refused (l : Fin 4) (h : CmdHdr) (s : State) (hacc : Accepts s l h 0x23 [] 2 false) (hcur : s.cur ≠ 1) :
    Gives (.cfgLoad l h) s (fun t => Answered s t l h 0x23 2 [] ∧ t.cfg = s.cfg ∧ Logged s t .CFG_LOAD_MODE 0 0x23 (BitVec.ofNat 64 l.val)) := by
  refine Gives.of_command rfl hacc (if_neg hcur) ?_ ?_ fun t m x hans ht _ => ⟨hans, ?_, ?_⟩
  · exact congrArg ModeSt.phase (s.logRefusal_mode _ _ _ _)
  · exact s.logRefusal_hosts _ _ _ _
  · rw [ht]
    exact s.logRefusal_cfg _ _ _ _
  · exact (s.logged_logRefusal .CFG_LOAD_MODE 0 0x23 l).of_evt (by rw [ht]; rfl)

/-! Another base configuration in effect (R53, R361) -/

theorem State.stopEngines_engs (s : State) : ∃ y, s.stopEngines = { s with engs := y } := by
  refine State.foldl_engs _ _ s fun t e => ?_
  split
  · exact ⟨_, rfl⟩
  · exact ⟨t.engs, rfl⟩

theorem State.loadPrograms_engs (s : State) : ∃ y, s.loadPrograms = { s with engs := y } := State.foldl_engs _ _ s fun _ _ => ⟨_, rfl⟩

/-- Loading the SRAM image changes SRAM only. -/
theorem State.loadSram_sram (s : State) : ∃ y, s.loadSram = { s with sram := y } := by
  unfold State.loadSram
  extract_lets x own images
  exact foldl_rel (fun s t : State => ∃ y, t = { s with sram := y }) (fun s => ⟨s.sram, rfl⟩)
    (fun _ _ _ ⟨_, hy⟩ ⟨z, hz⟩ => ⟨z, by rw [hz, hy]⟩) _ _ s fun _ _ _ => ⟨_, rfl⟩

/-- CFG_STATUS and the START of SYS_MODE as a store in effect shows them. -/
def State.storeShown (s : State) (k present valid start : Nat) : State :=
  ((((s.setF Reg.CFG_STATUS_STORE k).setF Reg.CFG_STATUS_LOADED 1).setF Reg.CFG_STATUS_OVL_PRESENT present).setF
    Reg.CFG_STATUS_OTHER_VALID valid).setF Reg.SYS_MODE_START start

theorem State.storeShown_spec (s : State) (k : Fin 2) (present valid start : Nat) :
    (s.storeShown k present valid start).getF Reg.CFG_STATUS_STORE = k ∧ (s.storeShown k present valid start).getF Reg.CFG_STATUS_LOADED = 1
      ∧ (∀ f : Fld, f.addr = Reg.CFG_STATUS → 2 < f.lo → f.hi < 16 → (s.storeShown k present valid start).getF f = s.getF f) := by
  have hlast : ∀ f : Fld, f.addr = Reg.CFG_STATUS → (s.storeShown k present valid start).getF f = _ := fun f hf =>
    State.getF_setF_addr _ Reg.SYS_MODE_START f start (by rw [hf]; decide)
  refine ⟨?_, ?_, fun f hf hlo hhi => ?_⟩
  · rw [hlast _ rfl, State.getF_setF_beside _ Reg.CFG_STATUS_OTHER_VALID Reg.CFG_STATUS_STORE _ rfl (by decide) (by decide),
      State.getF_setF_beside _ Reg.CFG_STATUS_OVL_PRESENT Reg.CFG_STATUS_STORE _ rfl (by decide) (by decide),
      State.getF_setF_beside _ Reg.CFG_STATUS_LOADED Reg.CFG_STATUS_STORE _ rfl (by decide) (by decide), State.getF_setF_self _ _ _ (by decide)]
    exact Nat.mod_eq_of_lt k.isLt
  · rw [hlast _ rfl, State.getF_setF_beside _ Reg.CFG_STATUS_OTHER_VALID Reg.CFG_STATUS_LOADED _ rfl (by decide) (by decide),
      State.getF_setF_beside _ Reg.CFG_STATUS_OVL_PRESENT Reg.CFG_STATUS_LOADED _ rfl (by decide) (by decide), State.getF_setF_self _ _ _ (by decide)]
    rfl
  · have hw : f.hi < 64 := by omega
    rw [hlast f hf, State.getF_setF_beside _ Reg.CFG_STATUS_OTHER_VALID f _ hf hw (Or.inr (show 1 < f.lo by omega)),
      State.getF_setF_beside _ Reg.CFG_STATUS_OVL_PRESENT f _ hf hw (Or.inl hhi),
      State.getF_setF_beside _ Reg.CFG_STATUS_LOADED f _ hf hw (Or.inr hlo),
      State.getF_setF_beside _ Reg.CFG_STATUS_STORE f _ hf hw (Or.inr (show 0 < f.lo by omega))]

/-- What a store's parameters, programs and overlays in effect show. -/
theorem State.takeStore_spec (s : State) (k : Fin 2) :
    (s.takeStore k).activeStore = k ∧ (s.takeStore k).getF Reg.CFG_STATUS_LOADED = 1
      ∧ (∀ f : Fld, f.addr = Reg.CFG_STATUS → 2 < f.lo → f.hi < 16 → (s.takeStore k).getF f = s.getF f)
      ∧ (s.takeStore k).cfg = { s.cfg with params := (s.storeOf k).params, progs := (s.storeOf k).progs, ovls := (s.storeOf k).overlays, newer := false }
      ∧ { s.takeStore k with regs := s.regs, cfg := s.cfg } = s := by
  unfold State.takeStore
  extract_lets x p ovls c s1 present
  obtain ⟨hstore, hloaded, hkeep⟩ := s1.storeShown_spec k present (b2n (s.storeOf (1 - k)).valid) p.startMode
  exact ⟨hstore, hloaded, fun f hf hlo hhi => hkeep f hf hlo hhi, rfl, rfl⟩

/-- A base configuration without register records sets no register. -/
theorem State.loadBase_of_no_records {s : State} (h : (s.storeOf s.activeStore).records = []) :
    s.loadBase = { s with cfg := { s.cfg with recs := [] } } := by
  unfold State.loadBase
  rw [h]
  rfl

theorem State.changeOverlay_none (s : State) (w : WCtx) : s.changeOverlay w none none = (s.resetCfgCopies.resetCfgCopies, none) := rfl

theorem State.newSettings_hosts (s old : State) (m : Nat) : (s.newSettings old m).hosts = s.hosts := by
  obtain ⟨y, hy⟩ := s.recordSettings_flts m false
  obtain ⟨z, hz⟩ := (s.recordSettings m false).closeDetectors_flts m
  have h : ((s.recordSettings m false).closeDetectors m).hosts = s.hosts := by rw [hz, hy]
  refine Eq.trans ?_ h
  refine foldl_rel (fun s t : State => t.hosts = s.hosts) (fun _ => rfl) (fun _ _ _ h h' => h'.trans h) _ _ _ fun t c _ => ?_
  split
  · rfl
  · exact t.log_hosts _ _ _

/-- What a store without register records and without overlays puts in effect where no overlay is active. -/
theorem State.switchBase_plain {s : State} {k : Fin 2} {m mode : Nat} (hrec : (s.storeOf k).records = [])
    (hact : s.getF Reg.CFG_STATUS_OVL_ACT = 15) (hdef : s.overlayDef 15 = none) (hovl : (s.storeOf k).overlays = []) :
    (s.switchBase k m mode).activeStore = k ∧ (s.switchBase k m mode).cfg.params = (s.storeOf k).params
      ∧ (s.switchBase k m mode).cfg.newer = false ∧ (s.switchBase k m mode).mode = s.mode ∧ (s.switchBase k m mode).hosts = s.hosts := by
  have hout : s.changeOverlay s.recCtx (s.overlayDef 15) none = (s.resetCfgCopies.resetCfgCopies, none) := by
    rw [hdef]
    rfl
  obtain ⟨hstore, -, hkeep, hcfg, hframe⟩ := s.resetCfgCopies.resetCfgCopies.takeStore_spec k
  generalize ht : s.resetCfgCopies.resetCfgCopies.takeStore k = t at hstore hkeep hcfg hframe
  have hbase : t.loadBase = { t with cfg := { t.cfg with recs := [] } } := by
    refine State.loadBase_of_no_records ?_
    rw [hstore, State.storeOf, hcfg]
    exact hrec
  have hovls : t.loadBase.cfg.ovls = [] := by
    rw [hbase]
    exact (congrArg CfgSt.ovls hcfg).trans hovl
  have hnone : ∀ j, t.loadBase.overlayDef j = none := fun j => by rw [State.overlayDef, hovls, List.find?_nil]
  have hbound : t.loadBase.boundTo mode = none := by rw [State.boundTo, hovls, List.find?_nil, Option.map_none]
  have heq : s.switchBase k m mode = (t.loadBase.resetCfgCopies.resetCfgCopies.showConfig).newSettings s m := by
    simp only [State.switchBase, hact, hdef, State.changeOverlay_none, ht, hnone, hbound, Option.isSome_none, Bool.false_eq_true, if_false,
      Option.getD_none, if_true]
  generalize hu : t.loadBase.resetCfgCopies.resetCfgCopies = u at heq
  have hucfg : u.cfg = { t.cfg with recs := [] } := by
    rw [← hu, hbase]
    rfl
  have huregs : u.regs = t.regs := by
    rw [← hu, hbase]
    rfl
  have huframe : u.mode = s.mode ∧ u.hosts = s.hosts := by
    rw [← hu, hbase]
    exact ⟨(congrArg State.mode hframe :), (congrArg State.hosts hframe :)⟩
  obtain ⟨-, hwords, hshow⟩ := u.showConfig_spec
  have hctl := u.showConfig.newSettings_control s m
  have hhosts := u.showConfig.newSettings_hosts s m
  rw [← heq] at hctl hhosts
  obtain ⟨hmode, hccfg, -⟩ := id hctl
  have hcfgs : (s.switchBase k m mode).cfg = { t.cfg with recs := [] } :=
    (hccfg.trans (congrArg State.cfg hshow :)).trans hucfg
  refine ⟨?_, ?_, ?_, (hmode.trans (congrArg State.mode hshow :)).trans huframe.1, (hhosts.trans (congrArg State.hosts hshow :)).trans huframe.2⟩
  · calc (s.switchBase k m mode).activeStore = u.showConfig.activeStore := hctl.getF Reg.CFG_STATUS_STORE (by decide)
      _ = u.activeStore := by
        rw [State.activeStore, State.getF, hwords _ (by decide) (by decide)]
        rfl
      _ = t.activeStore := State.getF_congr huregs _
      _ = k := hstore
  · rw [hcfgs, hcfg]
    rfl
  · rw [hcfgs, hcfg]

/-- CFG_LOAD in Basecamp puts the newer store in effect. -/
theorem cfgLoad_loads (l : Fin 4) (h : CmdHdr) (s : State) (hacc : Accepts s l h 0x23 [] 2 false) (hcur : s.cur = 1)
    (hnewer : s.cfg.newer = true) (hrec : (s.storeOf s.otherStore).records = []) (hact : s.getF Reg.CFG_STATUS_OVL_ACT = 15)
    (hdef : s.overlayDef 15 = none) (hovl : (s.storeOf s.otherStore).overlays = []) : Gives (.cfgLoad l h) s (fun t =>
      Answered s t l h 0x23 0 [] ∧ t.activeStore = s.otherStore ∧ t.cfg.params = (s.storeOf s.otherStore).params ∧ t.cfg.newer = false) := by
  have hother : s.otherStore < 2 := by
    rw [State.otherStore]
    omega
  obtain ⟨y, hstop⟩ := s.stopEngines_engs
  obtain ⟨hstore, hparams, hnew, hmode, hhosts⟩ := State.switchBase_plain (s := s.stopEngines) (k := ⟨s.otherStore, hother⟩) (m := s.now) (mode := 1)
    (by rw [hstop]; exact hrec) (by rw [hstop]; exact hact) (by rw [hstop]; exact hdef) (by rw [hstop]; exact hovl)
  have hloaded : s.cfgLoad = (s.stopEngines.switchBase s.otherStore s.now 1).loadSram.loadPrograms := if_pos hnewer
  generalize s.stopEngines.switchBase s.otherStore s.now 1 = u at hstore hparams hnew hmode hhosts hloaded
  obtain ⟨z, hz⟩ := u.loadSram_sram
  obtain ⟨e, he⟩ := u.loadSram.loadPrograms_engs
  have hall : s.cfgLoad = { u with sram := z, engs := e } := by rw [hloaded, he, hz]
  refine Gives.of_command rfl hacc (if_pos hcur) ?_ ?_ fun t m x hans ht hreg => ?_
  · rw [hall]
    refine (congrArg ModeSt.phase hmode).trans ?_
    rw [hstop]
  · rw [hall]
    refine hhosts.trans ?_
    rw [hstop]
  · refine ⟨hans, ?_, ?_, ?_⟩
    · rw [State.activeStore, State.getF, hreg _ (sysHost_ne (by decide) l), hall]
      exact hstore
    · rw [ht, hall]
      refine hparams.trans ?_
      rw [hstop]
      rfl
    · rw [ht, hall]
      exact hnew

/-! ### The beacon (R60) -/

/-- The lane takes the beacon: a chain or pair lane that is UP and in no master state. -/
def State.takesBeacon (s : State) (l : Nat) : Bool :=
  s.laneUp l && (s.laneRole l == 1 || s.laneRole l == 2) && !([0, 1, 2, 3].any (fun t => s.pstate t l == 6))

theorem State.takesBeacon_iff (s : State) (l : Nat) : s.takesBeacon l = true
    ↔ s.laneUp l = true ∧ (s.laneRole l = 1 ∨ s.laneRole l = 2) ∧ ∀ k : Fin 4, s.pstate k l ≠ 6 := by
  simp [State.takesBeacon, Fin.forall_fin_succ, and_assoc]

/-- The beacon as it leaves at a lane. -/
def State.beaconFrame (s : State) (l : Nat) : TxFrame :=
  { s.neilFrame 6 beaconMac (s.getF (Reg.SW_PORT_PVID l)) (0x1700000000000000#64 :: s.tlvWords) with encap := 0 }

/-- The beacon sent at a lane where s takes it. -/
def State.sendBeacon (s t : State) (l : Nat) : State := if s.takesBeacon l then t.pushFrame l (t.beaconFrame l) else t

/-- The hub with its beacon time set. -/
def State.beaconTimed (s : State) : State := { s with cfg := { s.cfg with beaconAt := some s.upSlots } }

theorem configBeacon_due {s : State} (hrun : s.mode.phase = .running) (hdue : ∀ n, s.cfg.beaconAt = some n → n + 250000 ≤ s.upSlots) :
    exec .configBeacon s = .next ((List.range 4).foldl s.sendBeacon s.beaconTimed) := by
  change execConfigBeacon s = _
  unfold execConfigBeacon
  extract_lets due c s1 on
  have hd : due = true := by
    cases h : s.cfg.beaconAt with
    | none => simp only [due, h]
    | some n => simp only [due, h, hdue n h, decide_true]
  exact if_pos (by rw [hd, State.serviceRuns, hrun]; rfl)

theorem configBeacon_idle {s : State} (h : s.mode.phase ≠ .running ∨ ∃ n, s.cfg.beaconAt = some n ∧ s.upSlots < n + 250000) :
    exec .configBeacon s = .next s := by
  change execConfigBeacon s = _
  unfold execConfigBeacon
  extract_lets due c s1 on
  refine if_neg ?_
  obtain hrun | ⟨n, hn, hlt⟩ := h
  · simp [State.serviceRuns, hrun]
  · simp only [due, hn, Bool.and_eq_true, decide_eq_true_eq]
    omega

/-- A beacon sent at a lane adds one frame there, and nothing else. -/
theorem State.sendBeacon_spec (s t : State) (l : Nat) : (∃ x, s.sendBeacon t l = { t with sw := x })
    ∧ (s.sendBeacon t l).egressOf l = (if s.takesBeacon l then t.egressOf l ++ [t.beaconFrame l] else t.egressOf l)
    ∧ ∀ j, j ≠ l → (s.sendBeacon t l).egressOf j = t.egressOf j := by
  unfold State.sendBeacon
  split
  · exact ⟨⟨_, rfl⟩, t.egressOf_setEgress_self l _, fun j hj => t.egressOf_setEgress_ne _ hj⟩
  · exact ⟨⟨t.sw, rfl⟩, rfl, fun _ _ => rfl⟩

/-- The frame's words follow from the registers. -/
theorem State.tlvWords_congr {s t : State} (h : t.regs = s.regs) : t.tlvWords = s.tlvWords := by
  rw [State.tlvWords, State.tlvWords, State.reg_congr h, State.getF_congr h, State.getF_congr h, State.cur, State.getF_congr h, State.cur]

/-- The beacon at its time. -/
theorem configBeacon_sends {s : State} (hrun : s.mode.phase = .running) (hdue : ∀ n, s.cfg.beaconAt = some n → n + 250000 ≤ s.upSlots) :
    Gives .configBeacon s (fun t =>
      t.cfg = { s.cfg with beaconAt := some s.upSlots } ∧ { t with sw := s.sw, cfg := s.cfg } = s ∧ ∀ l : Fin 4,
        if s.laneUp l = true ∧ (s.laneRole l = 1 ∨ s.laneRole l = 2) ∧ ∀ k : Fin 4, s.pstate k l ≠ 6 then
          ∃ f, t.egressOf l = s.egressOf l ++ [f] ∧ f.dst = beaconMac ∧ f.prio = 6 ∧ f.words = 0x1700000000000000#64 :: s.tlvWords
        else t.egressOf l = s.egressOf l) := by
  obtain ⟨x, hx⟩ : ∃ x, (List.range 4).foldl s.sendBeacon s.beaconTimed = { s.beaconTimed with sw := x } :=
    foldl_rel (fun s t : State => ∃ x, t = { s with sw := x }) (fun s => ⟨s.sw, rfl⟩)
      (fun _ _ _ ⟨_, hy⟩ ⟨z, hz⟩ => ⟨z, by rw [hz, hy]⟩) _ _ _ fun t l _ => (s.sendBeacon_spec t l).1
  refine ⟨_, configBeacon_due hrun hdue, by rw [hx]; rfl, by rw [hx]; rfl, fun l => ?_⟩
  obtain ⟨t, ht, hfold⟩ := foldl_once (List.range 4) s.sendBeacon s.beaconTimed (fun t => (t.egressOf l, t.regs)) (List.mem_range.mpr l.isLt)
    List.nodup_range fun u j _ hj => by
      obtain ⟨⟨y, hy⟩, -, hother⟩ := s.sendBeacon_spec u j
      exact Prod.ext (hother l (Ne.symm hj)) (by rw [hy])
  obtain ⟨hold, hregs⟩ := Prod.ext_iff.mp ht
  have hnew := (Prod.ext_iff.mp hfold).1.trans (s.sendBeacon_spec t l).2.1
  simp only [← s.takesBeacon_iff]
  split
  next hon =>
    rw [if_pos hon] at hnew
    refine ⟨t.beaconFrame l, hnew.trans (congrArg (· ++ [t.beaconFrame l]) hold), rfl, rfl, ?_⟩
    exact congrArg _ (State.tlvWords_congr hregs)
  next hoff =>
    rw [if_neg hoff] at hnew
    exact hnew.trans hold

/-! ### What a received TLV sets (R61) -/

/-- The hub with a condition of the TLV shown in CFG_STATUS and logged. -/
def State.tlvShown (s : State) (c : CfgSt) (f : Fld) (cond : Cond) (l : List W64) : State :=
  (({ s with cfg := c } : State).setF f 1).log cond 0 l

theorem State.tlvShown_spec (s : State) (c : CfgSt) {f : Fld} (hf : f.addr = Reg.CFG_STATUS) (hhi : f.hi < 64) (hone : f.hi = f.lo)
    (cond : Cond) (l : List W64) (hl : l.length ≤ 6) : (s.tlvShown c f cond l).getF f = 1
      ∧ Logged s (s.tlvShown c f cond l) cond 0 (l.getD 0 0) (l.getD 1 0) ∧ (s.tlvShown c f cond l).cfg = c
      ∧ ∀ a, ctlWord a = true → a ≠ Reg.CFG_STATUS → (s.tlvShown c f cond l).reg a = s.reg a := by
  have hctl := State.SameControl.log (({ s with cfg := c } : State).setF f 1) cond 0 l
  refine ⟨?_, ?_, hctl.2.1, fun a ha hne => (hctl.2.2 a ha).trans (State.reg_setF_ne { s with cfg := c } f 1 (by rwa [hf]))⟩
  · refine (hctl.getF f (by rw [hf]; decide)).trans ?_
    rw [State.getF_setF_self _ _ _ hhi, hone, Nat.add_sub_cancel_left]
    rfl
  · refine (State.logged_log _ cond 0 l hl).of_same rfl ?_
    exact State.logSlot_setF { s with cfg := c } f 1 (by rw [hf]; decide) fun k => by rw [hf]; exact Nat.ne_of_gt (by simp only [Reg.TB_STAT_STATE, Reg.TB_STAT, Reg.CFG_STATUS]; omega)

/-- The hub with CFG_DIV_PEER and CFG_DIV_DIGEST set. -/
def State.divergedFrom (s : State) (sender digest : W64) : State := (s.setReg Reg.CFG_DIV_PEER sender).setReg Reg.CFG_DIV_DIGEST digest

/-- The peers with what a TLV of the sender says. -/
def State.heard (s : State) (sender digest : W64) (epoch : Nat) : CfgSt :=
  { s.cfg with
    peers := { sender := sender.toNat, differs := epoch == s.getF Reg.CFG_EPOCH_EPOCH && digest != s.reg Reg.CFG_DIGEST, epoch := epoch }
      :: s.cfg.peers.filter (fun p => p.sender != sender.toNat) }

section
variable {sender digest : W64} {epoch : BitVec 32} {group : BitVec 16} {s : State}

theorem tlvReceived_mismatch (hgroup : group.toNat = s.getF Reg.CFG_EPOCH_GROUP) (hepoch : epoch.toNat ≠ s.getF Reg.CFG_EPOCH_EPOCH)
    (hnew : (sender.toNat, epoch.toNat) ∉ s.cfg.logged) : ∃ c : CfgSt, (sender.toNat, epoch.toNat) ∈ c.logged
      ∧ exec (.tlvReceived sender digest epoch group) s
        = .next (s.tlvShown c Reg.CFG_STATUS_EPOCH_MISMATCH .CFG_EPOCH_MISMATCH [sender, BitVec.ofNat 64 epoch.toNat]) := by
  refine ⟨{ s.heard sender digest epoch.toNat with otherAt := some s.upSlots, logged := (sender.toNat, epoch.toNat) :: s.cfg.logged },
    List.mem_cons_self, ?_⟩
  change execTlvReceived sender digest epoch group s = _
  unfold execTlvReceived
  rw [if_neg (by simp [hgroup])]
  extract_lets k e old same differs src c s1 twice src' s2
  have hs : same = false := beq_eq_false_iff_ne.mpr hepoch
  have hl : s.cfg.logged.contains (sender.toNat, epoch.toNat) = false := by simpa using hnew
  rw [if_neg (by simp [hs])]
  exact if_neg (ne_true_of_eq_false hl)

theorem tlvReceived_diverged {p : TlvPeer} (hgroup : group.toNat = s.getF Reg.CFG_EPOCH_GROUP) (hepoch : epoch.toNat = s.getF Reg.CFG_EPOCH_EPOCH)
    (hdigest : digest ≠ s.reg Reg.CFG_DIGEST) (hold : s.cfg.peers.find? (fun q => q.sender == sender.toNat) = some p) (hdiff : p.differs = true)
    (hsame : p.epoch = s.getF Reg.CFG_EPOCH_EPOCH) : exec (.tlvReceived sender digest epoch group) s
      = .next ((s.divergedFrom sender digest).tlvShown (s.heard sender digest epoch.toNat) Reg.CFG_STATUS_DIVERGED .CFG_DIVERGED [sender, digest]) := by
  change execTlvReceived sender digest epoch group s = _
  unfold execTlvReceived
  rw [if_neg (by simp [hgroup])]
  extract_lets k e old same differs src c s1 twice src' s2
  have hs : same = true := beq_iff_eq.mpr hepoch
  have hd : differs = true := Bool.and_eq_true_iff.mpr ⟨hs, bne_iff_ne.mpr hdigest⟩
  have ht : twice = true := by simp [twice, old, k, e, hold, hdiff, hsame, hepoch]
  rw [if_pos hs]
  exact if_pos (by rw [hd, ht]; rfl)

end

theorem epochMismatchClear_quiet {s : State} (h : ∀ n, s.cfg.otherAt = some n → n + 2000000 ≤ s.upSlots) :
    exec .epochMismatchClear s = .next (s.setF Reg.CFG_STATUS_EPOCH_MISMATCH 0) := by
  change execEpochMismatchClear s = _
  unfold execEpochMismatchClear
  split
  next n hn => exact if_neg (Nat.not_lt.mpr (h n hn))
  next => rfl

/-- Settles O25. Each command's body is evaluated under its tests and its answer followed into the state; the beacon is a fold over the lanes; a TLV and
the clearing of EPOCH_MISMATCH write the fields they name. -/
theorem configurationStoresAndTlv : Obligations.ConfigurationStoresAndTlv := by
  unfold Obligations.ConfigurationStoresAndTlv
  refine ⟨fun l h s => ⟨cfgBegin_erases l h s, fun off v => cfgWrite_word l h s off v, cfgCommit_takes l h s, cfgLoad_refused l h s,
      cfgLoad_loads l h s⟩, fun s => ⟨fun h => configBeacon_idle h, fun hrun hdue => configBeacon_sends hrun hdue, fun sender digest epoch group => ⟨?_, ?_, ?_⟩, ?_⟩⟩
  · exact fun hgroup => if_pos hgroup
  · intro hgroup hepoch hnew
    obtain ⟨c, hmem, hexec⟩ := tlvReceived_mismatch (digest := digest) hgroup hepoch hnew
    obtain ⟨hbit, hlog, hcfg, -⟩ := s.tlvShown_spec c (f := Reg.CFG_STATUS_EPOCH_MISMATCH) rfl (by decide) rfl .CFG_EPOCH_MISMATCH
      [sender, BitVec.ofNat 64 epoch.toNat] (show 2 ≤ 6 by decide)
    exact ⟨_, hexec, hbit, hlog, by rwa [hcfg]⟩
  · intro p hgroup hepoch hdigest hold hdiff hsame
    have hexec := tlvReceived_diverged hgroup hepoch hdigest hold hdiff hsame
    obtain ⟨hbit, hlog, -, hwords⟩ := (s.divergedFrom sender digest).tlvShown_spec (s.heard sender digest epoch.toNat) (f := Reg.CFG_STATUS_DIVERGED) rfl (by decide) rfl
      .CFG_DIVERGED [sender, digest] (show 2 ≤ 6 by decide)
    refine ⟨_, hexec, hbit, (hwords _ (by decide) (by decide)).trans ?_, (hwords _ (by decide) (by decide)).trans (State.reg_setReg_self _ _ _),
      hlog.of_same rfl ?_⟩
    · exact (State.reg_setReg_ne _ _ (by decide)).trans (State.reg_setReg_self _ _ _)
    · refine State.logSlot_congr (fun a h _ => ?_) rfl
      exact (State.reg_setReg_ne _ _ (Nat.ne_of_gt (Nat.lt_of_lt_of_le (by decide) h))).trans
        (State.reg_setReg_ne _ _ (Nat.ne_of_gt (Nat.lt_of_lt_of_le (by decide) h)))
  · exact fun h => ⟨_, epochMismatchClear_quiet h, State.getF_setF_self _ _ _ (by decide), rfl⟩

end Sys2Proof.Machine

namespace Sys2Proof.Machine
open Sys2Proof

/-! ### Requests and cancels (R33, R35, R352, R384) -/

theorem Refuses.of_exec {c : Instr} {s : State} {cond : Cond} {u a p : Nat} (h : exec c s = .next (s.logRefusal cond u a p)) :
    Refuses c s cond u a p := ⟨_, h, s.logged_logRefusal cond u a p, State.logTo_frame s _ _ _ _⟩

/-- The word of a request names the target and whether a slot is named; it is no cancel. -/
theorem modeReq_word : ∀ (at_ : Bool) (target : BitVec 3), bit (BitVec.ofNat 64 (8 * b2n at_ + target.toNat)) 4 = false
    ∧ bit (BitVec.ofNat 64 (8 * b2n at_ + target.toNat)) 3 = at_
    ∧ bits (BitVec.ofNat 64 (8 * b2n at_ + target.toNat)) 2 0 = target.toNat := by decide

/-- The slot that a request names with AT = 1. -/
def State.modeAtSlot (s : State) (port : Nat) (at_ : Bool) : Option Nat := if at_ then some (s.copy port Reg.SYS_MODE_AT).toNat else none

section
variable {s : State} {port : Port} {at_ : Bool} {target : BitVec 3}

theorem modeRequest_open (h : s.portOpen port Reg.SYS_MODE_REQ = true) : exec (.modeRequest port at_ target) s
    = .next (s.modeReqWrite port (BitVec.ofNat 64 (8 * b2n at_ + target.toNat))).1 := if_pos h

theorem modeCancel_open (h : s.portOpen port Reg.SYS_MODE_REQ = true) : exec (.modeCancel port) s = .next (s.modeReqWrite port 16).1 := if_pos h

/-- A request outside Belay is judged by its tests. -/
theorem State.modeReqWrite_request (hb : s.belay = false) : s.modeReqWrite port (BitVec.ofNat 64 (8 * b2n at_ + target.toNat))
    = (match s.modeTests port target.toNat (s.modeAtSlot port at_) with
      | some c => s.refuse c 0 Reg.SYS_MODE_REQ port
      | none => (s.takeRequest port target.toNat (s.modeAtSlot port at_), none)) := by
  obtain ⟨hcancel, hat, htarget⟩ := modeReq_word at_ target
  unfold State.modeReqWrite
  extract_lets no t slot
  rw [if_neg (by rw [hcancel]; decide), if_neg (by simp [hb])]
  simp only [t, slot, hat, htarget]
  rfl

theorem modeRequest_refused (h : s.portOpen port Reg.SYS_MODE_REQ = true) (hb : s.belay = false) {c : Cond}
    (hc : s.modeTests port target.toNat (s.modeAtSlot port at_) = some c) : Refuses (.modeRequest port at_ target) s c 0 Reg.SYS_MODE_REQ port := by
  refine .of_exec ((modeRequest_open h).trans ?_)
  rw [State.modeReqWrite_request hb, hc]
  rfl

theorem modeRequest_taken (h : s.portOpen port Reg.SYS_MODE_REQ = true) (hb : s.belay = false)
    (hc : s.modeTests port target.toNat (s.modeAtSlot port at_) = none) :
    exec (.modeRequest port at_ target) s = .next (s.takeRequest port target.toNat (s.modeAtSlot port at_)) := by
  rw [modeRequest_open h, State.modeReqWrite_request hb, hc]

/-- In Belay a request is refused unless it asks for Descent with maintenance authority. -/
theorem modeRequest_belay (h : s.portOpen port Reg.SYS_MODE_REQ = true) (hb : s.belay = true) (ht : target.toNat ≠ 7 ∨ s.classOf port < 3) :
    Refuses (.modeRequest port at_ target) s .PAIR_MIRRORED 0 Reg.SYS_MODE_REQ port := by
  obtain ⟨hcancel, -, htarget⟩ := modeReq_word at_ target
  refine .of_exec ((modeRequest_open h).trans ?_)
  unfold State.modeReqWrite
  extract_lets no t slot
  rw [if_neg (by rw [hcancel]; decide), if_pos ⟨hb, by simp only [t, htarget]; omega⟩]
  rfl

/-! Cancels -/

theorem modeCancel_refused {c : Cond} (h : s.portOpen port Reg.SYS_MODE_REQ = true)
    (hc : s.modeReqWrite port 16 = s.refuse c 0 Reg.SYS_MODE_REQ port) : Refuses (.modeCancel port) s c 0 Reg.SYS_MODE_REQ port :=
  .of_exec ((modeCancel_open h).trans (by rw [hc]; rfl))

theorem State.modeReqWrite_cancel_belay (hb : s.belay = true) : s.modeReqWrite port 16 = s.refuse .PAIR_MIRRORED 0 Reg.SYS_MODE_REQ port := by
  unfold State.modeReqWrite
  extract_lets no
  rw [if_pos (by decide), if_pos hb]

theorem State.modeReqWrite_cancel_none (hb : s.belay = false) (hfree : s.getF Reg.SYS_MODE_PENDV = 0) :
    s.modeReqWrite port 16 = s.refuse .SYS_MODE_NOPEND 0 Reg.SYS_MODE_REQ port := by
  unfold State.modeReqWrite
  extract_lets no
  rw [if_pos (by decide), if_neg (by simp [hb]), if_pos (by simp [State.flag, hfree])]

theorem State.modeReqWrite_cancel_other (hb : s.belay = false) (hpend : s.getF Reg.SYS_MODE_PENDV = 1) (hp : s.mode.pendPort ≠ port) :
    s.modeReqWrite port 16 = s.refuse .SYS_MODE_CANCEL_PORT 0 Reg.SYS_MODE_REQ port := by
  unfold State.modeReqWrite
  extract_lets no
  rw [if_pos (by decide), if_neg (by simp [hb]), if_neg (by simp [State.flag, hpend]), if_pos hp]

/-- The port that asked cancels until two slots before the transition. -/
theorem State.modeReqWrite_cancel_own {p : Nat} (hb : s.belay = false) (hpend : s.getF Reg.SYS_MODE_PENDV = 1) (hp : s.mode.pendPort = port)
    (hat : s.mode.pendAt = some p) : s.modeReqWrite port 16
      = if p < s.now + 2 then s.refuse .SYS_MODE_LATE 0 Reg.SYS_MODE_REQ port else (s.cancelMode, none) := by
  unfold State.modeReqWrite
  extract_lets no
  rw [if_pos (by decide), if_neg (by simp [hb]), if_neg (by simp [State.flag, hpend]), if_neg (not_not.mpr hp), hat]

theorem modeCancel_withdraws {p : Nat} (h : s.portOpen port Reg.SYS_MODE_REQ = true) (hb : s.belay = false)
    (hpend : s.getF Reg.SYS_MODE_PENDV = 1) (hp : s.mode.pendPort = port) (hat : s.mode.pendAt = some p) (htime : s.now + 2 ≤ p) :
    Gives (.modeCancel port) s (fun t => t.getF Reg.SYS_MODE_PENDV = 0 ∧ t.mode.pendAt = none ∧ t.cur = s.cur
      ∧ Logged s t .SYS_MODE_CANCELLED 0 (BitVec.ofNat 64 p) 0) := by
  obtain ⟨-, hmode, -, hsys, -, hlog⟩ := s.cancelMode_spec hpend
  rw [hat] at hlog
  refine ⟨s.cancelMode, ?_, ?_, ?_, ?_, hlog⟩
  · rw [modeCancel_open h, State.modeReqWrite_cancel_own hb hpend hp hat, if_neg (by omega)]
  · rw [State.getF, show Reg.SYS_MODE_PENDV.addr = Reg.SYS_MODE from rfl, hsys]
    exact bits_setBits _ _ (by decide)
  · rw [hmode]
  · exact (congrArg (bits · 2 0) hsys).trans (bits_setBits_zero_cur _)

/-! The tests of a request -/

/-- The transition table with the class it asks (R35). -/
def State.ModeLegal (s : State) (tg k : Nat) : Prop :=
  (s.cur, tg, k) ∈ [(1, 3, 1), (1, 4, 1), (3, 4, 1), (3, 1, 1), (4, 3, 1), (4, 1, 1), (1, 2, 2), (3, 2, 2)]
    ∨ (s.cur = 1 ∧ tg = 5 ∧ k = 2 ∧ ∃ l : Fin 4, s.pairRole l = true) ∨ (s.cur = 2 ∧ tg = s.prior ∧ tg ≠ 7 ∧ k = 2)
    ∨ (s.cur ≠ 0 ∧ tg = 7 ∧ k = 3)

theorem State.modeClass_iff (tg k : Nat) : s.modeClass tg = some k ↔ s.ModeLegal tg k := by
  have hlane : (List.range 4).any (fun l => s.pairRole l) = true ↔ ∃ l : Fin 4, s.pairRole l = true := by
    simp [Fin.exists_iff]
  unfold State.modeClass State.ModeLegal
  extract_lets c
  rw [← hlane]
  generalize (List.range 4).any (fun l => s.pairRole l) = paired
  have hc : s.cur = c := rfl
  simp only [hc, List.mem_cons, Prod.mk.injEq, List.not_mem_nil, or_false]
  generalize s.prior = prior
  clear hlane hc
  clear_value c
  by_cases h7 : tg = 7
  · subst h7
    by_cases h0 : c = 0
    · simp [h0]
    · simp [h0, eq_comm]
  · rw [if_neg h7]
    split_ifs <;> simp only [Option.some.injEq, false_iff] <;> grind

/-- A legal request is not held back by Acclimatise or Traverse (R41). -/
theorem State.modeHeld_of_legal {tg k : Nat} (h : s.ModeLegal tg k) : s.modeHeld tg = false := by
  simp only [State.ModeLegal, List.mem_cons, Prod.mk.injEq, List.not_mem_nil, or_false] at h
  simp only [State.modeHeld, Bool.or_eq_false_iff, Bool.and_eq_false_iff, beq_eq_false_iff_ne, bne_eq_false_iff_eq]
  omega

section
variable {tg k : Nat} {slot : Option Nat}

theorem State.modeTests_illegal (h : ∀ k, ¬ s.ModeLegal tg k) : s.modeTests port tg slot = some .SYS_MODE_ILLEGAL := by
  have hclass : s.modeClass tg = none := Option.eq_none_iff_forall_ne_some.mpr fun k hk => h k ((State.modeClass_iff _ _).mp hk)
  unfold State.modeTests
  rw [hclass]

variable (h : s.ModeLegal tg k)
include h

theorem State.modeTests_auth (hc : s.classOf port < k) : s.modeTests port tg slot = some .SYS_MODE_AUTH := by
  unfold State.modeTests
  rw [(State.modeClass_iff _ _).mpr h]
  exact if_neg (by simpa using hc)

theorem State.modeTests_busy (hc : k ≤ s.classOf port) (hp : s.getF Reg.SYS_MODE_PENDV = 1) : s.modeTests port tg slot = some .SYS_MODE_BUSY := by
  unfold State.modeTests
  rw [(State.modeClass_iff _ _).mpr h]
  exact (if_pos (decide_eq_true hc)).trans (if_neg (by simp [State.flag, hp]))

/-- The tests left where no transition is pending: the slot named. -/
theorem State.modeTests_slot (hc : k ≤ s.classOf port) (hp : s.getF Reg.SYS_MODE_PENDV = 0) : s.modeTests port tg slot
    = if (slot.all fun n => !s.unset && decide (s.now + 16 ≤ n)) then none else some .SYS_MODE_LATE := by
  unfold State.modeTests
  rw [(State.modeClass_iff _ _).mpr h]
  refine (if_pos (decide_eq_true hc)).trans ((if_pos (by simp [State.flag, hp, State.modeHeld_of_legal h])).trans ?_)
  cases slot <;> rfl

end

/-! A request that is accepted -/

theorem State.modeAtSlot_late {at_ : Bool} (h : (if at_ then (s.copy port Reg.SYS_MODE_AT).toNat else s.now + 16) < s.now + 16
    ∨ (at_ = true ∧ s.unset = true)) : ((s.modeAtSlot port at_).all fun n => !s.unset && decide (s.now + 16 ≤ n)) = false := by
  cases at_ with
  | false => simp at h
  | true =>
    simp only [if_true, true_and] at h
    simp only [State.modeAtSlot, if_true, Option.all_some, Bool.and_eq_false_iff, decide_eq_false_iff_not, Bool.not_eq_false']
    exact h.symm.imp_right Nat.not_le.mpr

theorem State.modeAtSlot_timely {at_ : Bool} (hu : s.unset = false)
    (h : s.now + 16 ≤ (if at_ then (s.copy port Reg.SYS_MODE_AT).toNat else s.now + 16)) :
    ((s.modeAtSlot port at_).all fun n => !s.unset && decide (s.now + 16 ≤ n)) = true := by
  cases at_ with
  | false => rfl
  | true => simpa [State.modeAtSlot, hu] using h

theorem State.takeRequest_set (hu : s.unset = false) : ∃ cause, s.takeRequest port target.toNat (s.modeAtSlot port at_)
    = s.pendMode target.toNat (some (if at_ then (s.copy port Reg.SYS_MODE_AT).toNat else s.now + 16)) port cause := by
  unfold State.takeRequest
  extract_lets cause
  refine ⟨cause, (if_neg (by simp [hu])).trans ?_⟩
  cases at_ <;> rfl

theorem State.takeRequest_unset {tg : Nat} (hu : s.unset = true) (ht : tg ≠ 7) : s.takeRequest port tg none = s.pendMode tg none port 1 := by
  unfold State.takeRequest
  extract_lets cause
  rw [if_pos hu, if_neg ht, show cause = 1 from if_neg ht]

theorem State.takeRequest_descent (hu : s.unset = true) : s.takeRequest port 7 none = (s.scheduleAuto 7 (some s.now)).transit 7 0 6 := by
  unfold State.takeRequest
  extract_lets cause
  rw [if_pos hu, if_pos rfl]
  rfl

end

/-! ### What a transition leaves of the hub's control -/

theorem State.SameControl.of_regs {s t : State} (hmode : t.mode = s.mode) (hcfg : t.cfg = s.cfg) (hregs : t.regs = s.regs) : s.SameControl t :=
  ⟨hmode, hcfg, fun a _ => State.reg_congr hregs a⟩

theorem State.SameControl.bump (s : State) (f : Fld) (hf : ctlWord f.addr = false) : s.SameControl (s.bump f) := .setF s f _ hf

section
variable (s : State) (k : Nat)

theorem State.setUnit_control (x : TrigSt) : s.SameControl (s.setUnit k x) := .of_regs rfl rfl rfl
theorem State.setDesc_control (w : Nat) (v : W64) : s.SameControl (s.setDesc k w v) := .of_regs rfl rfl rfl
theorem State.setCal_control (x : CalSt) : s.SameControl (s.setCal k x) := .of_regs rfl rfl rfl
theorem State.setCalh_control (x : CalHub) : s.SameControl (s.setCalh x) := .of_regs rfl rfl rfl
theorem State.setBk_control (x : BankSt) : s.SameControl (s.setBk k x) := .of_regs rfl rfl rfl
theorem State.setFlt_control (x : FltSt) : s.SameControl (s.setFlt k x) := .of_regs rfl rfl rfl
theorem State.setEng_control (x : EngSt) : s.SameControl (s.setEng k x) := .of_regs rfl rfl rfl

end

/-! Trigger units and captures -/

theorem ctlWord_trgStat (u : Nat) : ctlWord (Reg.TRG_STAT u) = false := ctlWord_of_ge (by simp only [Reg.TRG_STAT]; omega)

theorem State.setTrg_control (s : State) (u st : Nat) : s.SameControl (s.setTrg u st) :=
  (((State.SameControl.setF s (Reg.TRG_STAT_STATE u) _ (ctlWord_trgStat u)).trans (.setF _ Reg.CAP_STATUS_ARMED _ (by decide))).trans
    (.setF _ Reg.CAP_STATUS_OPEN _ (by decide))).trans (.setF _ Reg.CAP_STATUS_REARM _ (by decide))

theorem State.setDescState_control (s : State) (i v : Nat) : s.SameControl (s.setDescState i v) := .of_regs rfl rfl rfl

theorem State.openRecord_control (s : State) (u : Nat) (p : TrigPoint) (m fl : Nat) : s.SameControl (s.openRecord u p m fl) := by
  have hopen : s.SameControl (s.opening u p m fl) :=
    ((s.setUnit_control u _).trans (State.setTrg_control _ u 3)).trans (State.setDescState_control _ _ 2)
  obtain ⟨v5, v14, v6, v7, h⟩ := s.openRecord_eq u p m fl
  rw [h]
  generalize s.opening u p m fl = t at hopen
  exact ((((hopen.trans (t.setDesc_control _ _ _)).trans (State.setDesc_control _ _ _ _)).trans (State.setDesc_control _ _ _ _)).trans
    (State.setDesc_control _ _ _ _)).trans (State.setDesc_control _ _ _ _)

theorem State.trigActions_control (s : State) (u : Nat) (p : TrigPoint) : s.SameControl (s.trigActions u p) :=
  (State.SameControl.of_regs rfl rfl rfl).trans (.bump _ (Reg.TRG_STAT_TRIGS u) (ctlWord_trgStat u))

theorem State.missTrig_control (s : State) (u : Nat) (p : TrigPoint) : s.SameControl (s.missTrig u p) := by
  unfold State.missTrig
  extract_lets s1 i m
  have h1 : s.SameControl s1 := (State.SameControl.bump s (Reg.TRG_STAT_MISSES u) (ctlWord_trgStat u)).trans (.bump _ Reg.CAP_MISS_CNT_TOTAL (by decide))
  split
  · exact h1.trans (.of_regs rfl rfl rfl)
  · exact h1.trans ((State.SameControl.bump s1 Reg.CAP_MISS_CNT_LOST (by decide)).trans (.setF _ Reg.CAP_STATUS_MISS_OVF _ (by decide)))

theorem State.fire_control (s : State) (u b m fl : Nat) : s.SameControl (s.fire u b m fl) := by
  unfold State.fire
  extract_lets pl p st x s1
  split
  · exact .refl s
  split
  · split
    · split
      · exact .refl s
      · exact s.trigActions_control u p
    · split
      · exact .refl s
      · exact (s.openRecord_control u p m fl).trans (State.trigActions_control _ u p)
  split
  · exact .refl s
  split
  · exact (State.SameControl.of_regs rfl rfl rfl).trans (State.trigActions_control s1 u p)
  · exact s.missTrig_control u p

theorem State.takePoint_control (s : State) (u t b : Nat) : s.SameControl (s.takePoint u t b) :=
  (State.SameControl.of_regs rfl rfl rfl).trans (State.fire_control _ u b _ _)

theorem State.takeTimeout_control (s : State) (u r t b : Nat) : s.SameControl (s.takeTimeout u r t b) :=
  (State.SameControl.of_regs rfl rfl rfl).trans (State.fire_control _ u b _ _)

theorem State.takeBefore_control (s : State) (u lim n : Nat) : s.SameControl (s.takeBefore u lim n) := by
  induction n generalizing s with
  | zero => exact .refl s
  | succ n ih =>
    unfold State.takeBefore
    split
    · split
      · exact (s.takePoint_control u _ _).trans (ih _)
      · exact .refl s
    · split
      · exact (s.takeTimeout_control u _ _ _).trans (ih _)
      · exact .refl s
    · exact .refl s

theorem State.disarm_control (s : State) (u : Nat) : s.SameControl (s.disarm u) := by
  unfold State.disarm
  extract_lets st i s1
  have h1 : s.SameControl s1 := by
    simp only [s1]
    split
    · exact .refl s
    · exact s.setDescState_control i 4
  split
  · exact h1.trans (s1.setTrg_control u 0)
  split
  · exact .of_regs rfl rfl rfl
  split
  · exact .of_regs rfl rfl rfl
  split
  · exact s.setTrg_control u 0
  · exact .refl s

theorem State.summitExit_control (s : State) (m : Nat) : s.SameControl (s.summitExit m) := by
  refine .foldl _ _ s fun t u => ?_
  extract_lets lim t1 st x t2
  have h1 : t.SameControl t1 := t.takeBefore_control u lim _
  have h2 : t1.SameControl t2 := by
    simp only [t2]
    split
    · exact .of_regs rfl rfl rfl
    · exact t1.disarm_control u
  exact (h1.trans h2).trans (t2.setUnit_control u _)

/-! Calibration -/

theorem State.accRelease_control (s : State) (b : Nat) : s.SameControl (s.accRelease b) := by
  unfold State.accRelease
  extract_lets k x s1
  have h1 : s.SameControl s1 := s.setBk_control b _
  split
  · exact h1.trans (.setF s1 (Reg.BANK_SPARE_CAL b) 0 (ctlWord_of_ge (by simp only [Reg.BANK_SPARE_CAL, Reg.BANK_SPARE]; omega)))
  · exact h1

theorem State.accEnd_control (s : State) : s.SameControl s.accEnd := by
  unfold State.accEnd
  extract_lets s1
  refine State.SameControl.trans (t := s1) (.setF s Reg.CAL_STAT_ACC_STEP 0 (by decide)) (.foldl _ _ s1 fun t b => ?_)
  exact (t.accRelease_control b).trans (State.setCal_control _ b _)

theorem State.abandonAll_control (s : State) : s.SameControl s.abandonAll := by
  refine .foldl _ _ s fun t b => ?_
  split
  · exact .refl t
  · exact .of_regs rfl rfl rfl

theorem State.accSpare_control (s : State) (b : Nat) : s.SameControl (s.accSpare b) := by
  have hb : ctlWord (Reg.BANK_SPARE b) = false := ctlWord_of_ge (by simp only [Reg.BANK_SPARE]; omega)
  unfold State.accSpare
  extract_lets k step s1
  have h1 : s.SameControl s1 := (State.SameControl.setF s (Reg.BANK_SPARE_CONN b) 0 hb).trans (.setF _ (Reg.BANK_SPARE_CAL b) 1 hb)
  split
  · exact h1.trans (s1.setBk_control b _)
  · exact .refl s

theorem State.accBegin_control (s : State) : s.SameControl s.accBegin := by
  unfold State.accBegin
  extract_lets x s1
  have h1 : s.SameControl s1 := (s.abandonAll_control.trans (.setF _ Reg.CAL_STAT_ACC_STEP 1 (by decide))).trans (State.setCalh_control _ _)
  refine h1.trans (.foldl _ _ s1 fun t b => ?_)
  extract_lets t1
  have h2 : t.SameControl t1 := by
    simp only [t1]
    split
    · exact .log t _ _ _
    · exact .refl t
  exact (h2.trans (t1.setCal_control b _)).trans (State.accSpare_control _ b)

theorem State.evaluateDue_control (s : State) (b : Nat) : s.SameControl (s.evaluateDue b) := by
  unfold State.evaluateDue State.makeDue
  extract_lets hot age old
  split
  · split
    · exact .of_regs rfl rfl rfl
    · exact .setF s Reg.CAL_STAT_DUE _ (by decide)
  · exact .refl s

theorem State.evaluateAll_control (s : State) : s.SameControl s.evaluateAll := .foldl _ _ s fun t b => t.evaluateDue_control b

theorem State.calMode_control (s : State) (old t : Nat) : s.SameControl (s.calMode old t) := by
  unfold State.calMode
  extract_lets s1
  have h1 : s.SameControl s1 := by
    simp only [s1]
    split
    · exact s.accEnd_control.trans (State.abandonAll_control _)
    · exact .refl s
  split
  · exact (h1.trans s1.accBegin_control).trans (State.evaluateAll_control _)
  split
  · exact h1.trans s1.evaluateAll_control
  · exact h1.trans s1.abandonAll_control

/-! References, carriers, filters, engines -/

theorem State.setSettled_control (s : State) (b : Nat) (v : Bool) : s.SameControl (s.setSettled b v) := by
  unfold State.setSettled
  split
  · exact .of_regs rfl rfl rfl
  · exact .setF s (Reg.BANK_REF_SETTLED b) _ (ctlWord_of_ge (by simp only [Reg.BANK_REF_SETTLED, Reg.BANK_REF]; omega))

theorem State.enableRef_control (s : State) (b : Nat) : s.SameControl (s.enableRef b) := by
  unfold State.enableRef
  split
  · exact .of_regs rfl rfl rfl
  · exact (s.setBk_control b _).trans (State.setSettled_control _ b false)

theorem State.selectRef_control (s : State) (b : Nat) : s.SameControl (s.selectRef b) := by
  have hb : ctlWord (Reg.BANK_REF b) = false := ctlWord_of_ge (by simp only [Reg.BANK_REF]; omega)
  unfold State.selectRef
  extract_lets sel
  split
  · split
    next f s1 hfree =>
      have h1 : s.SameControl s1 := by
        rw [show s1 = s.free.2 by rw [hfree]]
        exact .of_regs rfl rfl rfl
      split
      · exact (h1.trans (s1.setBk_control b _)).trans (.setF _ (Reg.BANK_REF_ACT b) 1 hb)
      · exact h1.trans (.setF s1 (Reg.BANK_REF_ACT b) 0 hb)
  · exact (s.setBk_control b _).trans (.setF _ (Reg.BANK_REF_ACT b) sel hb)

theorem State.startCarriers_control (s : State) (m : Nat) : s.SameControl (s.startCarriers m) := by
  refine .foldl _ _ s fun t b => ?_
  split
  · exact .setReg t _ (ctlWord_of_ge (by simp only [Reg.BANK_PHASE]; omega))
  · exact .refl t

theorem State.startFilters_control (s : State) (t : Nat) : s.SameControl (s.startFilters t) := .foldl _ _ s fun _ _ => .of_regs rfl rfl rfl

theorem State.startEngines_control (s : State) (m : Nat) : s.SameControl (s.startEngines m) := by
  refine .foldl _ _ s fun t l => ?_
  extract_lets e
  split
  · exact .refl t
  · exact .of_regs rfl rfl rfl

/-- The mode's record with acquisition begun at slot m. -/
def State.acquiringFrom (s : State) (m : Nat) : State :=
  { s with mode := { s.mode with entry := some m, spans := (m, none) :: s.mode.spans, writing := true, drain := none, stopAt := none } }

/-- Acquisition beginning at a slot changes the hub's control in the mode's record only. -/
theorem State.startAcq_control (s : State) (m : Nat) : (s.acquiringFrom m).SameControl (s.startAcq m) := by
  unfold State.startAcq
  extract_lets src mo s1 s2 s3
  have h2 : s1.SameControl s2 :=
    ((State.SameControl.setF s1 Reg.FLT_SYNC_PHASE 0 (by decide)).trans (.setF _ Reg.FLT_SYNC_PSET 0 (by decide))).trans
      (.foldl _ _ _ fun t b => ((t.setBk_control b _).trans (State.selectRef_control _ b)).trans (State.enableRef_control _ b))
  have h3 : s1.SameControl s3 := ((h2.trans (s2.startCarriers_control m)).trans (State.startFilters_control _ m)).trans (State.startEngines_control _ m)
  split
  · exact h3.trans (.foldl _ _ s3 fun t c => t.startDrive_control c)
  · exact h3

theorem ctlWord_engCtl : ∀ l < 16, ctlWord (Reg.ENG_CTL l) = true := by decide

/-- The engines in use and their lags follow from ENG_CTL. -/
theorem State.lagMax_congr {s t : State} (h : ∀ l < 16, t.reg (Reg.ENG_CTL l) = s.reg (Reg.ENG_CTL l)) : t.lagMax = s.lagMax := by
  have hf : ∀ l < 16, ∀ f : Fld, f.addr = Reg.ENG_CTL l → t.getF f = s.getF f := fun l hl f hf => by
    rw [State.getF, hf, h l hl, ← hf, ← State.getF]
  have hact : t.activeEngines = s.activeEngines := List.filter_congr fun l hl => by
    rw [State.role, hf l (List.mem_range.mp hl) (Reg.ENG_CTL_ROLE l) rfl, State.role]
  have hmap : s.activeEngines.map (fun l => t.getF (Reg.ENG_CTL_LAGMAX l)) = s.activeEngines.map (fun l => s.getF (Reg.ENG_CTL_LAGMAX l)) :=
    List.map_congr_left fun l hl => hf l (List.mem_range.mp (List.mem_of_mem_filter hl)) _ rfl
  rw [State.lagMax, hact, hmap, ← State.lagMax]

/-! ### A transition between Basecamp, Ascent and Summit outside a pair (R34, R36, R37) -/

/-- A hub outside a pair in mode t since slot m, with no transition pending. -/
def State.Arrived (u : State) (t m : Nat) : Prop :=
  u.cur = t ∧ u.reg Reg.SYS_MODE_SLOT = BitVec.ofNat 64 m ∧ u.getF Reg.SYS_MODE_PENDV = 0 ∧ u.pairOn = false

theorem State.Arrived.of_words {s u : State} {t m : Nat} (h : s.Arrived t m) (hw : ∀ a, ctlWord a = true → u.reg a = s.reg a) : u.Arrived t m := by
  have hf : ∀ f : Fld, ctlWord f.addr = true → u.getF f = s.getF f := fun f hf => by rw [State.getF, hw _ hf, ← State.getF]
  obtain ⟨hcur, hslot, hpend, hpair⟩ := h
  refine ⟨(hf Reg.SYS_MODE_CUR (by decide)).trans hcur, (hw _ (by decide)).trans hslot, (hf Reg.SYS_MODE_PENDV (by decide)).trans hpend, ?_⟩
  rw [State.pairOn, State.flag, hf Reg.PAIR_CFG_EN (by decide), ← State.flag, ← State.pairOn, hpair]

/-- The hub with no transition pending and the mode shown. -/
def State.shownIn (s : State) (t m cause : Nat) : State :=
  ({ s.setF Reg.SYS_MODE_PENDV 0 with mode := { s.mode with pendAt := none } } : State).setMode t m cause

theorem State.setMode_keeps (s : State) (t m cause : Nat) {a : Nat} (ha : ctlWord a = true) (hmode : a ≠ Reg.SYS_MODE) (hslot : a ≠ Reg.SYS_MODE_SLOT) :
    (s.setMode t m cause).reg a = s.reg a :=
  (State.reg_log _ _ _ _ (ctlWord_evtReg ha)).trans ((State.reg_setReg_ne _ _ hslot).trans
    ((State.reg_setF_ne _ Reg.SYS_MODE_CAUSE _ hmode).trans (State.reg_setF_ne _ Reg.SYS_MODE_CUR _ hmode)))

theorem State.setMode_getF_pendv (s : State) (t m cause : Nat) : (s.setMode t m cause).getF Reg.SYS_MODE_PENDV = s.getF Reg.SYS_MODE_PENDV := by
  rw [State.getF, show Reg.SYS_MODE_PENDV.addr = Reg.SYS_MODE from rfl, State.setMode, State.reg_log _ _ _ _ (by decide),
    State.reg_setReg_ne _ _ (by decide)]
  exact (State.getF_setF_beside _ Reg.SYS_MODE_CAUSE Reg.SYS_MODE_PENDV cause rfl (by decide) (by decide)).trans
    (State.getF_setF_beside s Reg.SYS_MODE_CUR Reg.SYS_MODE_PENDV t rfl (by decide) (by decide))

theorem State.setMode_mode (s : State) (t m cause : Nat) : (s.setMode t m cause).mode = s.mode := State.log_mode _ _ _ _

theorem State.shownIn_spec (s : State) {t m cause : Nat} (ht : t < 8) (hp : s.pairOn = false) :
    (s.shownIn t m cause).Arrived t m ∧ (s.shownIn t m cause).mode = { s.mode with pendAt := none } ∧ (s.shownIn t m cause).lagMax = s.lagMax := by
  unfold State.shownIn
  generalize h0 : ({ s.setF Reg.SYS_MODE_PENDV 0 with mode := { s.mode with pendAt := none } } : State) = s0
  have hreg : ∀ a, ctlWord a = true → a ≠ Reg.SYS_MODE → a ≠ Reg.SYS_MODE_SLOT → (s0.setMode t m cause).reg a = s.reg a := fun a ha hne hne' => by
    rw [s0.setMode_keeps t m cause ha hne hne', ← h0]
    exact State.reg_setF_ne s Reg.SYS_MODE_PENDV 0 hne
  obtain ⟨hcur, hslot, -⟩ := s0.setMode_words t m cause
  refine ⟨⟨hcur.trans (Nat.mod_eq_of_lt ht), hslot, ?_, ?_⟩, ?_, State.lagMax_congr fun l hl => hreg _ (ctlWord_engCtl l hl) ?_ ?_⟩
  · rw [s0.setMode_getF_pendv, ← h0]
    exact State.getF_setF_self s Reg.SYS_MODE_PENDV 0 (by decide)
  · rw [State.pairOn, State.flag, State.getF, hreg _ (by decide) (by decide) (by decide)]
    exact hp
  · rw [State.setMode_mode, ← h0]
  · simp only [Reg.ENG_CTL, Reg.SYS_MODE]
    omega
  · simp only [Reg.ENG_CTL, Reg.SYS_MODE_SLOT]
    omega

/-- What capture and calibration do at a transition. -/
def State.unitsLeft (s : State) (old t m : Nat) : State :=
  (if (old = 4 ∧ t ≠ 6) ∨ (old = 6 ∧ t ≠ 4) then s.summitExit m else s).calMode old t

theorem State.unitsLeft_control (s : State) (old t m : Nat) : s.SameControl (s.unitsLeft old t m) := by
  refine State.SameControl.trans ?_ (State.calMode_control _ old t)
  split
  · exact s.summitExit_control m
  · exact .refl s

theorem State.pairMode_alone {s : State} (h : s.pairOn = false) (old t m cause : Nat) : s.pairMode old t m cause = s := by
  unfold State.pairMode
  exact if_pos (by simp [h])

section
variable {s : State} {t m cause : Nat} (hp : s.pairOn = false) (ht : t = 1 ∨ t = 3 ∨ t = 4)
include ht

theorem State.transit_mid : s.transit t m cause
    = (let s5 := (s.shownIn t m cause).unitsLeft s.cur t m
      let s6 := if acquiringMode t = true ∧ acquiringMode s.cur = false then s5.startAcq m
        else if acquiringMode s.cur = true ∧ t = 1 then (s5.stopAcq m).applyParts m
        else s5
      s6.pairMode s.cur t m cause) := by
  have h7 : t ≠ 7 := by omega
  have hsend : s.sendRelease t = s := if_neg fun h => h7 h.1
  unfold State.transit
  extract_lets old src mo s1 s2 s3 s4 s5 s6 mo' s7
  have h1 : s1 = { s.setF Reg.SYS_MODE_PENDV 0 with mode := { s.mode with pendAt := none } } := by
    simp only [s1, src, mo]
    rw [hsend]
  have h2 : s2 = s1 := if_neg (by omega)
  have h3 : s3 = s.shownIn t m cause := by
    simp only [s3]
    rw [h2, h1]
    rfl
  have h5 : s5 = (s.shownIn t m cause).unitsLeft s.cur t m := by
    simp only [s5, s4]
    rw [h3]
    rfl
  have h7' : s7 = s6 := by
    simp only [s7]
    rw [if_neg h7]
  have h6 : s6 = if acquiringMode t = true ∧ acquiringMode s.cur = false then s5.startAcq m
      else if acquiringMode s.cur = true ∧ t = 1 then (s5.stopAcq m).applyParts m else s5 := by
    simp only [s6]
    rw [if_neg h7]
  rw [h7', h6, h5]

end

/-! The parts of the stores that a change of partition discards -/

theorem State.logUncoded_control (s : State) (u : Nat) (l : List W64) : s.SameControl (s.logUncoded u l) := by
  unfold State.logUncoded
  split
  next f s1 hfree =>
    have h1 : s.SameControl s1 := by
      rw [show s1 = s.free.2 by rw [hfree]]
      exact .of_regs rfl rfl rfl
    extract_lets r
    exact h1.trans ⟨(State.appendCont_mode _ _ _ _).trans (State.appendRec_mode _ _ _),
      (State.appendCont_cfg _ _ _ _).trans (State.appendRec_cfg _ _ _),
      fun a ha => (State.reg_appendCont _ _ _ _ (ctlWord_evtReg ha)).trans (State.reg_appendRec _ _ _ (ctlWord_evtReg ha))⟩

theorem State.discardStore_control (s : State) (m : Nat) : s.SameControl (s.discardStore m) := by
  unfold State.discardStore
  extract_lets h c l p s1
  have h1 : s.SameControl s1 := .of_regs rfl rfl rfl
  exact (h1.trans (.setReg s1 _ (by decide))).trans (State.logUncoded_control _ _ _)

theorem State.applyParts_words (s : State) (m : Nat) : (s.applyParts m).mode = s.mode ∧ ∀ a, ctlWord a = true → (s.applyParts m).reg a = s.reg a := by
  unfold State.applyParts
  extract_lets p
  split
  · exact ⟨rfl, fun _ _ => rfl⟩
  · obtain ⟨hmode, -, hwords⟩ :=
      State.discardStore_control ({ s with cfg := { s.cfg with parts := (p.cap, p.led, p.bulk) } } : State) m
    exact ⟨hmode, hwords⟩

theorem acquiringMode_iff (t : Nat) : acquiringMode t = true ↔ 2 ≤ t ∧ t ≤ 6 := by simp [acquiringMode]

theorem State.transit_alone {s : State} {t m cause : Nat} (hp : s.pairOn = false) (hold : s.cur = 1 ∨ s.cur = 3 ∨ s.cur = 4)
    (ht : t = 1 ∨ t = 3 ∨ t = 4) :
    (s.transit t m cause).Arrived t m
      ∧ (s.cur = 1 → t ≠ 1 → (s.transit t m cause).mode.entry = some m ∧ (s.transit t m cause).mode.writing = true)
      ∧ (s.cur ≠ 1 → t = 1 → (s.transit t m cause).mode.leave = some m ∧ (s.transit t m cause).mode.stopAt = some (m + 4)
        ∧ (s.transit t m cause).mode.drain = some (m + 7 + s.lagMax)) := by
  rw [State.transit_mid ht]
  obtain ⟨harr, hmode, hlag⟩ := s.shownIn_spec (t := t) (m := m) (cause := cause) (by omega) hp
  have hctl := (s.shownIn t m cause).unitsLeft_control s.cur t m
  generalize s.shownIn t m cause = s3 at harr hmode hlag hctl
  generalize s3.unitsLeft s.cur t m = s5 at hctl
  have harr5 : s5.Arrived t m := harr.of_words hctl.2.2
  have hlag5 : s5.lagMax = s.lagMax := (State.lagMax_congr fun l hl => hctl.2.2 _ (ctlWord_engCtl l hl)).trans hlag
  extract_lets s5' s6
  have harr6 : s6.Arrived t m ∧ (s.cur = 1 → t ≠ 1 → s6.mode.entry = some m ∧ s6.mode.writing = true)
      ∧ (s.cur ≠ 1 → t = 1 → s6.mode.leave = some m ∧ s6.mode.stopAt = some (m + 4) ∧ s6.mode.drain = some (m + 7 + s.lagMax)) := by
    simp only [s6]
    split
    next hin =>
      obtain ⟨hacq, hnot⟩ := hin
      obtain ⟨hmode', -, hwords⟩ := s5.startAcq_control m
      refine ⟨harr5.of_words hwords, fun _ _ => ?_, fun h => absurd hnot ?_⟩
      · rw [hmode']
        exact ⟨rfl, rfl⟩
      · rw [Bool.not_eq_false, acquiringMode_iff]
        omega
    next hnin =>
      split
      next hout =>
        obtain ⟨hmode', hwords⟩ := (s5.stopAcq m).applyParts_words m
        refine ⟨harr5.of_words hwords, fun _ h => absurd hout.2 h, fun _ _ => ?_⟩
        rw [hmode', ← hlag5]
        exact ⟨rfl, rfl, rfl⟩
      next hstay =>
        have h1 : acquiringMode 1 = false := rfl
        refine ⟨harr5, fun hc h1 => absurd ⟨?_, ?_⟩ hnin, fun hc h1 => absurd ⟨?_, h1⟩ hstay⟩
        · rw [acquiringMode_iff]
          omega
        · rw [hc]
          rfl
        · rw [acquiringMode_iff]
          omega
  rwa [State.pairMode_alone harr6.1.2.2.2]

/-! ### Descent at once while the sampling time base is unset (R33) -/

theorem State.sendRelease_regs (s : State) (t : Nat) : (s.sendRelease t).regs = s.regs := by
  unfold State.sendRelease State.sendPair
  split
  · split
    · rfl
    · rfl
  · rfl

/-- A fold keeps the registers when each of its steps does. -/
theorem State.foldl_regs {β : Type} (l : List β) (f : State → β → State) (s : State) (hf : ∀ t x, (f t x).regs = t.regs) :
    (l.foldl f s).regs = s.regs :=
  foldl_rel (fun s t : State => t.regs = s.regs) (fun _ => rfl) (fun _ _ _ h h' => h'.trans h) l f s fun t x _ => hf t x

theorem State.flushLedger_held_regs (s : State) : (s.flushLedger false).regs = s.regs := by
  unfold State.flushLedger
  extract_lets ls l s1
  refine (State.foldl_regs ls _ s1 fun t l => ?_).trans rfl
  extract_lets t1
  rw [if_neg (by simp)]
  rfl

theorem State.cutAllDrives_regs (s : State) : s.cutAllDrives.regs = s.regs := by
  unfold State.cutAllDrives
  exact State.foldl_regs _ _ s fun t c => (rfl : (t.cutDrive c).regs = t.regs)

theorem State.disableRef_regs (s : State) (b : Nat) : (s.disableRef b).regs = s.regs := by
  unfold State.disableRef
  split <;> rfl

theorem State.disableBankRefs_regs (s : State) : s.disableBankRefs.regs = s.regs := State.foldl_regs _ _ s State.disableRef_regs

theorem State.dropTakeovers_regs (s : State) : s.dropTakeovers.regs = s.regs := rfl

theorem State.stopEngines_regs (s : State) : s.stopEngines.regs = s.regs := by
  obtain ⟨y, hy⟩ := s.stopEngines_engs
  rw [hy]

theorem State.stopAll_regs (s : State) : s.stopAll.regs = s.regs := by
  unfold State.stopAll
  extract_lets s1 m
  have h1 : s1.regs = s.regs := by
    simp only [s1]
    rw [State.flushLedger_held_regs, State.dropTakeovers_regs, State.stopEngines_regs, State.disableBankRefs_regs, State.cutAllDrives_regs]
  clear_value m s1
  exact h1

theorem State.dropActivation_sysMode (s : State) : s.dropActivation.reg Reg.SYS_MODE = s.reg Reg.SYS_MODE := by
  unfold State.dropActivation
  split
  · exact (State.reg_setF_ne _ Reg.UPD_STAT_SHADOW _ (by decide)).trans (State.reg_setF_ne s Reg.UPD_STAT_TPEND _ (by decide))
  · rfl

/-- The role that a hub of a pair takes in Descent leaves the mode as it is. -/
theorem State.pairMode_descent (s : State) (old m : Nat) : (s.pairMode old 7 m 6).reg Reg.SYS_MODE = s.reg Reg.SYS_MODE := by
  unfold State.pairMode
  split
  · rfl
  · extract_lets s0 p0 p s1 took s2
    have h0 : s0 = s := if_neg (by decide)
    have h2 : s2.reg Reg.SYS_MODE = s.reg Reg.SYS_MODE := by
      refine (State.reg_setF_ne _ Reg.PAIR_STAT_ROLE _ (by decide)).trans ?_
      rw [h0]
      split
      · exact State.reg_log _ _ _ _ (by decide)
      · rfl
    rw [if_neg (by decide), if_neg (by decide)]
    exact h2

theorem State.closeSpan_regs (s : State) (m : Nat) : (s.closeSpan m).regs = s.regs := rfl

/-- Descent entered with the sampling time base unset: the hub shows it, and no transition is pending. -/
theorem State.transit_descent (s : State) : (s.transit 7 0 6).cur = 7 ∧ (s.transit 7 0 6).getF Reg.SYS_MODE_PENDV = 0 := by
  unfold State.transit
  extract_lets old src mo s1 s2 s3 s4 s5 s6 mo' s7
  have h2 : s2 = s1 := if_neg (by decide)
  have h3 : s3.cur = 7 ∧ s3.getF Reg.SYS_MODE_PENDV = 0 := by
    refine ⟨(State.setMode_words s2 7 0 6).1, (State.setMode_getF_pendv s2 7 0 6).trans ?_⟩
    rw [h2]
    exact State.getF_setF_self (s.sendRelease 7) Reg.SYS_MODE_PENDV 0 (by decide)
  have h5 : s5.reg Reg.SYS_MODE = s3.reg Reg.SYS_MODE := (s3.unitsLeft_control old 7 0).2.2 _ (by decide)
  have h6 : s6.reg Reg.SYS_MODE = s5.reg Reg.SYS_MODE := by
    have hin : s6 = (if acquiringMode old then s5.closeSpan 0 else s5).stopAll.dropActivation := by
      simp only [s6]
      rw [if_neg (fun h => absurd h.1 (by decide)), if_neg (fun h => absurd h.2 (by decide)), if_pos trivial]
    rw [hin, State.dropActivation_sysMode, State.reg_congr (State.stopAll_regs _)]
    split
    · exact State.reg_congr (s5.closeSpan_regs 0) _
    · rfl
  have h7 : s7.reg Reg.SYS_MODE = s6.reg Reg.SYS_MODE := by
    simp only [s7]
    split <;> rfl
  have hall : (s7.pairMode old 7 0 6).reg Reg.SYS_MODE = s3.reg Reg.SYS_MODE := (s7.pairMode_descent old 0).trans (h7.trans (h6.trans h5))
  exact ⟨(congrArg (bits · 2 0) hall).trans h3.1, (congrArg (bits · 9 9) hall).trans h3.2⟩

/-! ### The drain end and the time marks (R37, R46) -/

theorem drainEnd_holds {s : State} {d : Nat} (hd : s.mode.drain = some d) (hdue : d ≤ s.now) :
    Gives .drainEnd s (fun t => t.mode.drain = none ∧ t.mode.writing = false) := by
  change ∃ t, execDrainEnd s = .next t ∧ _
  unfold execDrainEnd
  rw [hd]
  exact ⟨_, if_pos hdue, rfl, rfl⟩

/-- A table read after the keys that p refuses are taken out. -/
theorem Sparse.get_filter_key {α : Type} (d : Nat → α) (m : Sparse α) (p : Nat → Bool) (j : Nat) :
    Sparse.get d (m.filter (fun c => p c.1)) j = if p j then Sparse.get d m j else d j := by
  induction m with
  | nil => simp [Sparse.get]
  | cons c r ih =>
    obtain ⟨i, v⟩ := c
    by_cases hi : p i = true
    · rw [List.filter_cons_of_pos (p := fun c : Nat × α => p c.1) hi, Sparse.get, Sparse.get, ih]
      split
      next hij => rw [← hij, if_pos hi]
      next hij => rfl
    · rw [List.filter_cons_of_neg (p := fun c : Nat × α => p c.1) hi, ih, Sparse.get]
      split
      next hj =>
        have hij : i ≠ j := fun h => hi (h ▸ hj)
        rw [if_neg hij]
      next hj => rfl

/-- The marks that are left when a place is taken: its sector is erased before its first place is written. -/
def State.marksFor (s : State) (at_ : Nat) : Sparse (Option TimeMark) :=
  if at_ % 256 = 0 then s.mode.marks.filter (fun c => c.1 / 256 != at_ / 256) else s.mode.marks

theorem State.marksFor_get (s : State) (at_ j : Nat) : (s.marksFor at_).get (fun _ => none) j
    = if at_ % 256 = 0 ∧ j / 256 = at_ / 256 then none else s.mode.marks.get (fun _ => none) j := by
  unfold State.marksFor
  split
  next hfirst =>
    rw [Sparse.get_filter_key _ _ (fun i => i / 256 != at_ / 256)]
    by_cases hj : j / 256 = at_ / 256 <;> simp [hfirst, hj]
  next hlater => rw [if_neg fun h => hlater h.1]

/-- A mark that is due goes to the place after the newest one, under the next sequence number. -/
theorem timeMark_due {s : State} {u k : Nat} {m : TimeMark} (hacq : s.acquiring = true) (hat : s.mode.markAt = some u) (hdue : u + 2 ^ 26 ≤ s.now)
    (hnew : s.newestMark = some (k, m)) : Gives .timeMark s (fun t =>
      t.mode.marks = (s.marksFor ((k + 1) % 4096)).set (fun _ => none) ((k + 1) % 4096)
        (some { sec := (s.tb s.sampTb).sec, seq := (m.seq + 1) % 2 ^ 32, crc := markCrc (s.tb s.sampTb).sec ((m.seq + 1) % 2 ^ 32) })
      ∧ t.mode.markAt = some s.now ∧ { t with mode := s.mode } = s) := by
  have hput : s.putMark (s.tb s.sampTb).sec = { s with mode := { s.mode with
      marks := (s.marksFor ((k + 1) % 4096)).set (fun _ => none) ((k + 1) % 4096)
        (some { sec := (s.tb s.sampTb).sec, seq := (m.seq + 1) % 2 ^ 32, crc := markCrc (s.tb s.sampTb).sec ((m.seq + 1) % 2 ^ 32) })
      markAt := some s.now } } := by
    unfold State.putMark
    rw [hnew]
    rfl
  refine ⟨s.putMark (s.tb s.sampTb).sec, ?_, by rw [hput], by rw [hput], by rw [hput]⟩
  change execTimeMark s = _
  unfold execTimeMark
  rw [hat]
  exact if_pos (Bool.and_eq_true_iff.mpr ⟨hacq, decide_eq_true hdue⟩)

theorem timeMark_idle {s : State} {u : Nat} (hat : s.mode.markAt = some u) (h : s.now < u + 2 ^ 26) : exec .timeMark s = .next s := by
  change execTimeMark s = _
  unfold execTimeMark
  rw [hat]
  exact if_neg fun hd => Nat.not_le.mpr h (of_decide_eq_true (Bool.and_eq_true_iff.mp hd).2)

/-! ### The transition at its slot, and what is settled -/

theorem modeTransition_due {s : State} {m : Nat} (hat : s.mode.pendAt = some m) (hm : m ≤ s.now) (hp : s.getF Reg.SYS_MODE_PENDV = 1)
    (hovl : s.overlayDue = false) (hswap : s.mode.pendCause ≠ 4 ∨ s.swapDue = false) :
    exec .modeTransition s = .next (s.transit (s.getF Reg.SYS_MODE_PEND) m s.mode.pendCause) := by
  have hdue : s.modeDue = true := by simp [State.modeDue, State.flag, hp, hat, hm]
  change execModeTransition s = _
  unfold execModeTransition
  rw [hat]
  refine if_pos ?_
  rw [hdue, hovl]
  rcases hswap with h | h <;> simp [h]

/-- Settles O21. The tests of a request follow the table; an accepted one is pendMode, and Descent with the time base unset is followed through its
transition by the word SYS_MODE; a transition among Basecamp, Ascent and Summit changes the hub's control in the mode only. -/
theorem modeRequestsAndTransitions : Obligations.ModeRequestsAndTransitions := by
  unfold Obligations.ModeRequestsAndTransitions
  refine ⟨fun port at_ target s => ⟨fun hopen => ?_, fun hopen hb => ⟨modeRequest_belay hopen hb, modeCancel_refused hopen (State.modeReqWrite_cancel_belay hb)⟩,
    fun hopen hb => ⟨fun hill => modeRequest_refused hopen hb (State.modeTests_illegal hill),
      fun k hk hc => modeRequest_refused hopen hb (State.modeTests_auth hk hc),
      fun k hk hc hp => modeRequest_refused hopen hb (State.modeTests_busy hk hc hp),
      fun k hk hc hfree hlate => modeRequest_refused hopen hb ?_, fun k hk hc hfree hu hwhen => ?_, fun k hk hc hfree hu hat => ?_,
      fun hfree => modeCancel_refused hopen (State.modeReqWrite_cancel_none hb hfree),
      fun hp hport => modeCancel_refused hopen (State.modeReqWrite_cancel_other hb hp hport),
      fun p hp hport hat hlate => modeCancel_refused hopen ?_, fun p => modeCancel_withdraws hopen hb⟩⟩,
    fun s => ⟨fun m hat hm hp hovl hswap hpair hcur hpend => ?_, fun d => drainEnd_holds, fun u k m hacq hat hdue hnew => ?_, fun u => timeMark_idle⟩⟩
  · have hno : ¬ s.portOpen port Reg.SYS_MODE_REQ = true := by simp [hopen]
    exact ⟨if_neg hno, if_neg hno⟩
  · rw [State.modeTests_slot hk hc hfree, State.modeAtSlot_late hlate]
    rfl
  · have htaken := modeRequest_taken hopen hb (at_ := at_) (target := target) (by rw [State.modeTests_slot hk hc hfree, State.modeAtSlot_timely hu hwhen]; rfl)
    obtain ⟨cause, htake⟩ := State.takeRequest_set (port := port) (at_ := at_) (target := target) hu
    rw [htake] at htaken
    obtain ⟨hpendv, hpend, hslot, -⟩ := s.pendMode_spec target.toNat (some (if at_ then (s.copy port Reg.SYS_MODE_AT).toNat else s.now + 16)) port cause
    obtain ⟨hmode, hcur⟩ := s.pendMode_mode target.toNat (some (if at_ then (s.copy port Reg.SYS_MODE_AT).toNat else s.now + 16)) port cause
    exact ⟨_, htaken, hpendv, hpend.trans (Nat.mod_eq_of_lt target.isLt), hcur, hslot, by rw [hmode]⟩
  · subst hat
    have htaken := modeRequest_taken hopen hb (at_ := false) (target := target) (by rw [State.modeTests_slot hk hc hfree]; rfl)
    by_cases h7 : target.toNat = 7
    · refine ⟨_, htaken, fun h => absurd h7 h, fun _ => ?_⟩
      rw [h7, State.modeAtSlot, if_neg (by decide), State.takeRequest_descent hu]
      exact State.transit_descent _
    · refine ⟨_, htaken, fun _ => ?_, fun h => absurd h h7⟩
      rw [State.modeAtSlot, if_neg (by decide), State.takeRequest_unset hu h7]
      obtain ⟨hpendv, hpend, hslot, -⟩ := s.pendMode_spec target.toNat none port 1
      exact ⟨hpendv, hpend.trans (Nat.mod_eq_of_lt target.isLt), (s.pendMode_mode _ _ _ _).2, hslot⟩
  · rw [State.modeReqWrite_cancel_own hb hp hport hat, if_pos hlate]
  · obtain ⟨⟨hcur', hslot, hpendv, -⟩, hin, hout⟩ := State.transit_alone (m := m) (cause := s.mode.pendCause) hpair (by simpa using hcur) (by simpa using hpend)
    refine ⟨_, modeTransition_due hat hm hp hovl hswap, hcur', hslot, hpendv, fun h1 hne => hin h1 ?_, fun h1 heq => hout h1 ?_⟩
    · rwa [hcur'] at hne
    · rwa [hcur'] at heq
  · obtain ⟨t, hexec, hmarks, hmarkAt, hframe⟩ := timeMark_due hacq hat hdue hnew
    refine ⟨t, hexec, by rw [hmarks, Sparse.get_set_self], fun j hj hsect => ?_, fun j hj hsame hfirst => ?_, hmarkAt, hframe⟩
    · rw [hmarks, Sparse.get_set_ne _ _ _ hj, s.marksFor_get]
      refine if_neg ?_
      rintro ⟨hfirst, hsame⟩
      exact hsect.elim (fun h => h hsame) fun h => h hfirst
    · rw [hmarks, Sparse.get_set_ne _ _ _ hj, s.marksFor_get]
      exact if_pos ⟨hfirst, hsame⟩

end Sys2Proof.Machine

namespace Sys2Proof.Machine
open Sys2Proof

/-! ### What leaves the mode alone (R450 to R453)

No function behind a register write changes the mode's record, but for a request, a cancel and the naming of the first mode. -/

theorem State.foldl_mode {β : Type} (l : List β) (f : State → β → State) (s : State) (hf : ∀ t x, (f t x).mode = t.mode) :
    (l.foldl f s).mode = s.mode :=
  foldl_rel (fun s t : State => t.mode = s.mode) (fun _ => rfl) (fun _ _ _ h h' => h'.trans h) l f s fun t x _ => hf t x

@[simp] theorem State.free_mode (s : State) : s.free.2.mode = s.mode := rfl

/-! The log and overlays -/

@[simp] theorem State.refuse_mode (s : State) (c : Cond) (unit addr port : Nat) : (s.refuse c unit addr port).1.mode = s.mode := by
  unfold State.refuse
  simp

@[simp] theorem State.pendOverlay_mode (s : State) (ovl : Nat) (at_ : Option Nat) (port : Nat) (auto : Bool) :
    (s.pendOverlay ovl at_ port auto).mode = s.mode := by
  unfold State.pendOverlay
  simp

@[simp] theorem State.dropOverlay_mode (s : State) : s.dropOverlay.mode = s.mode := by
  unfold State.dropOverlay
  simp

@[simp] theorem State.pendAuto_mode (s : State) (target : Nat) (at_ : Option Nat) : (s.pendAuto target at_).mode = s.mode := by
  unfold State.pendAuto
  split <;> simp

@[simp] theorem State.cancelOverlay_mode (s : State) : s.cancelOverlay.mode = s.mode := by
  unfold State.cancelOverlay
  exact (State.log_mode _ _ _ _).trans s.dropOverlay_mode

@[simp] theorem State.scheduleAuto_mode (s : State) (target : Nat) (at_ : Option Nat) : (s.scheduleAuto target at_).mode = s.mode := by
  unfold State.scheduleAuto
  extract_lets
  repeat' split
  all_goals simp

@[simp] theorem State.dropAuto_mode (s : State) : s.dropAuto.mode = s.mode := by
  unfold State.dropAuto
  dsimp only
  repeat' split
  all_goals simp

@[simp] theorem State.dropActivation_mode (s : State) : s.dropActivation.mode = s.mode := by
  unfold State.dropActivation
  split <;> simp

/-! Drives, coefficients -/

@[simp] theorem State.beginDrive_mode (s : State) (c : Nat) (start : Bool) : (s.beginDrive c start).mode = s.mode := by
  unfold State.beginDrive
  simp

@[simp] theorem State.startDrive_mode (s : State) (c : Nat) : (s.startDrive c).mode = s.mode := by
  unfold State.startDrive
  split <;> simp

@[simp] theorem State.clearLatch_mode (s : State) (c : Nat) : (s.clearLatch c).mode = s.mode := by
  unfold State.clearLatch
  split <;> simp

@[simp] theorem State.advanceCoef_mode (s : State) (port : Nat) : (s.advanceCoef port).mode = s.mode := by
  unfold State.advanceCoef
  dsimp only
  repeat' split
  all_goals simp

@[simp] theorem State.coefWrite_mode (s : State) (port : Nat) (v : W64) : (s.coefWrite port v).1.mode = s.mode := by
  unfold State.coefWrite
  dsimp only
  repeat' split
  all_goals simp

@[simp] theorem State.coefPtrWrite_mode (s : State) (port : Nat) (v : W64) : (s.coefPtrWrite port v).1.mode = s.mode := by
  unfold State.coefPtrWrite
  dsimp only
  repeat' split
  all_goals simp

@[simp] theorem State.swapRequest_mode (s : State) (port : Nat) (at_ : Bool) (banks : Nat) : (s.swapRequest port at_ banks).1.mode = s.mode := by
  unfold State.swapRequest
  extract_lets bs t u
  split
  · simp
  · split
    · simp
    · exact State.foldl_mode _ _ _ fun r b => by simp

/-! Packets, streams, queues -/

@[simp] theorem State.pushFrame_mode (s : State) (p : Nat) (f : TxFrame) : (s.pushFrame p f).mode = s.mode := by
  unfold State.pushFrame
  simp

@[simp] theorem State.sendNeil_mode (s : State) (l prio dst : Nat) (words : List W64) : (s.sendNeil l prio dst words).mode = s.mode := by
  unfold State.sendNeil
  simp

@[simp] theorem State.addPacket_mode (s : State) (q st : Nat) (p : Pkt) : (s.addPacket q st p).mode = s.mode := by
  unfold State.addPacket
  simp

@[simp] theorem State.closePkt_mode (s : State) (q st : Nat) (last : Bool) (cmode : Nat) : (s.closePkt q st last cmode).mode = s.mode := by
  unfold State.closePkt
  split <;> simp

@[simp] theorem State.logLost_mode (s : State) (q : Nat) : (s.logLost q).mode = s.mode := by
  unfold State.logLost
  refine State.foldl_mode _ _ _ fun t x => ?_
  simp

@[simp] theorem State.discardStore_mode (s : State) (slot : Nat) : (s.discardStore slot).mode = s.mode := by
  exact (s.discardStore_control slot).1

@[simp] theorem State.storeStrm_mode (s : State) (st w : Nat) (v : W64) : (s.storeStrm st w v).mode = s.mode := by
  unfold State.storeStrm
  simp

@[simp] theorem State.overlayStream_mode (s : State) (st w : Nat) (v : W64) : (s.overlayStream st w v).mode = s.mode := by
  unfold State.overlayStream
  dsimp only
  repeat' split
  all_goals simp

@[simp] theorem State.strmWrite_mode (s : State) (port st w : Nat) (v0 : W64) : (s.strmWrite port st w v0).1.mode = s.mode := by
  unfold State.strmWrite
  dsimp only
  repeat' split
  all_goals simp

@[simp] theorem State.advanceStrm_mode (s : State) (port : Nat) : (s.advanceStrm port).mode = s.mode := by
  unfold State.advanceStrm
  simp

@[simp] theorem State.strmDataWrite_mode (s : State) (port : Nat) (v : W64) : (s.strmDataWrite port v).1.mode = s.mode := by
  unfold State.strmDataWrite
  extract_lets p
  have h := s.strmWrite_mode port (p / 4) (p % 4) v
  split
  next t ht => simpa [ht] using h
  next => exact h

@[simp] theorem State.flushQueue_mode (s : State) (q : Nat) : (s.flushQueue q).mode = s.mode := by
  unfold State.flushQueue
  dsimp only
  repeat' split
  all_goals simp

@[simp] theorem State.rxCfgWritten_mode (s : State) (j : Nat) (old : W64) : (s.rxCfgWritten j old).mode = s.mode := by
  unfold State.rxCfgWritten
  split <;> simp

/-! Time bases -/

@[simp] theorem State.reslot_mode (s : State) : s.reslot.mode = s.mode := by
  unfold State.reslot
  simp

/-! Capture -/

@[simp] theorem State.setDescState_mode (s : State) (i v : Nat) : (s.setDescState i v).mode = s.mode := by
  unfold State.setDescState
  simp

@[simp] theorem State.setTrg_mode (s : State) (u st : Nat) : (s.setTrg u st).mode = s.mode := by
  unfold State.setTrg
  simp

@[simp] theorem State.armAt_mode (s : State) (u i at_ : Nat) : (s.armAt u i at_).mode = s.mode := by
  unfold State.armAt
  repeat' split
  all_goals simp

@[simp] theorem State.arm_mode (s : State) (program : Bool) (port u i : Nat) : (s.arm program port u i).1.mode = s.mode := by
  unfold State.arm
  split <;> simp

@[simp] theorem State.disarm_mode (s : State) (u : Nat) : (s.disarm u).mode = s.mode := by
  unfold State.disarm
  dsimp only
  repeat' split
  all_goals simp

@[simp] theorem State.trgCtlWrite_mode (s : State) (port u : Nat) (v : W64) : (s.trgCtlWrite port u v).1.mode = s.mode := by
  unfold State.trgCtlWrite
  split
  · simp
  split
  · simp
  split
  · simp
  split
  · exact (State.disarm_mode _ _).trans (s.takeBefore_control u _ _).1
  · rfl

@[simp] theorem State.missPop_mode (s : State) : s.missPop.mode = s.mode := by
  unfold State.missPop
  simp

@[simp] theorem State.advanceDesc_mode (s : State) (port : Nat) : (s.advanceDesc port).mode = s.mode := by
  unfold State.advanceDesc
  simp

@[simp] theorem State.descWrite_mode (s : State) (port i w : Nat) (v : W64) : (s.descWrite port i w v).1.mode = s.mode := by
  unfold State.descWrite
  extract_lets st copying s1
  have h1 : s1.mode = s.mode := by
    simp only [s1]
    split
    · rfl
    · exact State.foldl_mode _ _ _ fun t k => by simp
  split
  · rfl
  split
  · simp
  · simpa using h1

@[simp] theorem State.descDataWrite_mode (s : State) (port : Nat) (v : W64) : (s.descDataWrite port v).1.mode = s.mode := by
  unfold State.descDataWrite
  extract_lets p
  have h := s.descWrite_mode port (p / 16) (p % 16) v
  split
  · simp
  split
  next t ht => simpa [ht] using h
  next => exact h

@[simp] theorem State.copyGo_mode (s : State) (port : Nat) (len : Nat) : (s.copyGo port len).1.mode = s.mode := by
  unfold State.copyGo
  dsimp only
  repeat' split
  all_goals simp

/-! The time-interval unit -/

@[simp] theorem State.tivArm_mode (s : State) (port : Nat) : (s.tivArm port).1.mode = s.mode := by
  unfold State.tivArm
  split <;> simp

@[simp] theorem State.fstart_mode (s : State) (port : Nat) : (s.fstart port).1.mode = s.mode := by
  unfold State.fstart
  split <;> simp

@[simp] theorem State.fstop_mode (s : State) : s.fstop.mode = s.mode := by
  unfold State.fstop
  simp

@[simp] theorem State.tivResult_mode (s : State) (first : Bool) (began : Nat) (res : Int) (timeout : Bool) :
    (s.tivResult first began res timeout).mode = s.mode := by
  unfold State.tivResult
  split <;> simp

@[simp] theorem State.tivAgain_mode (s : State) (edge : Bool) (end_ : Nat) : (s.tivAgain edge end_).mode = s.mode := by
  unfold State.tivAgain
  repeat' split
  all_goals simp

@[simp] theorem State.tivExpire_mode (s : State) (t0 : Nat) : (s.tivExpire t0).mode = s.mode := by
  unfold State.tivExpire
  simp

@[simp] theorem State.tivUpTo_mode (s : State) (t : Nat) : (s.tivUpTo t).mode = s.mode := by
  unfold State.tivUpTo
  repeat' split
  all_goals simp

theorem State.tivMeet_mode (s : State) (code t : Nat) : (s.tivMeet code t).mode = s.mode := by
  unfold State.tivMeet
  split
  extract_lets signed
  split
  · rfl
  split
  · split
    · simp
    · split <;> simp
  · extract_lets ends d
    split <;> simp

theorem State.tivNext_mode (s : State) : s.tivNext.mode = s.mode := by
  unfold State.tivNext
  split
  · rfl
  next c _ =>
    split
    · exact (State.tivMeet_mode _ _ _).trans ((State.tivUpTo_mode _ _).trans (s.setTiv_mode _))
    · rfl

@[simp] theorem State.tivDrain_mode (s : State) (n : Nat) : (s.tivDrain n).mode = s.mode := by
  induction n generalizing s with
  | zero => rfl
  | succ n ih => exact (ih s.tivNext).trans s.tivNext_mode

@[simp] theorem State.tivAbort_mode (s : State) : s.tivAbort.mode = s.mode := by
  unfold State.tivAbort
  extract_lets s1
  have h1 : s1.mode = s.mode := (State.tivUpTo_mode _ _).trans (s.tivDrain_mode _)
  exact h1

@[simp] theorem State.tivCtlWrite_mode (s : State) (port : Nat) (v : W64) : (s.tivCtlWrite port v).1.mode = s.mode := by
  unfold State.tivCtlWrite
  repeat' split
  all_goals simp

/-! Sample-and-stimulus ports -/

@[simp] theorem State.sspStart_mode (s : State) (n : Nat) : (s.sspStart n).mode = s.mode := by
  unfold State.sspStart
  repeat' split
  all_goals simp

@[simp] theorem State.sspStop_mode (s : State) (n : Nat) : (s.sspStop n).mode = s.mode := by
  unfold State.sspStop
  split <;> simp

@[simp] theorem State.sspCount_mode (s : State) (n : Nat) : (s.sspCount n).mode = s.mode := by
  unfold State.sspCount
  simp

@[simp] theorem State.sspPop_mode (s : State) (n : Nat) : (s.sspPop n).mode = s.mode := by
  unfold State.sspPop
  simp

@[simp] theorem State.sspCtlWrite_mode (s : State) (n : Nat) (v : W64) : (s.sspCtlWrite n v).mode = s.mode := by
  unfold State.sspCtlWrite
  repeat' split
  all_goals simp

/-! Time -/

@[simp] theorem State.refreshClass_mode (s : State) (t : Nat) : (s.refreshClass t).mode = s.mode := by
  unfold State.refreshClass
  simp

@[simp] theorem State.setTbState_mode (s : State) (t v : Nat) : (s.setTbState t v).mode = s.mode := by
  unfold State.setTbState
  dsimp only
  repeat' split
  all_goals simp

@[simp] theorem State.holdYi_mode (s : State) (t : Nat) : (s.holdYi t).mode = s.mode := by
  unfold State.holdYi
  simp

@[simp] theorem State.servo_mode (s : State) (t : Nat) (theta : Int) (tau : Nat) : (s.servo t theta tau).mode = s.mode := by
  unfold State.servo
  dsimp only
  repeat' split
  all_goals simp

@[simp] theorem State.lockCriterion_mode (s : State) (t : Nat) (theta : Int) : (s.lockCriterion t theta).mode = s.mode := by
  unfold State.lockCriterion
  dsimp only
  repeat' split
  all_goals simp

@[simp] theorem State.refuseOffset_mode (s : State) (t : Nat) (theta : Int) : (s.refuseOffset t theta).mode = s.mode := by
  unfold State.refuseOffset
  dsimp only
  repeat' split
  all_goals simp

@[simp] theorem State.takeOffset_mode (s : State) (t : Nat) (theta : Int) (tau : Nat) : (s.takeOffset t theta tau).mode = s.mode := by
  unfold State.takeOffset
  dsimp only
  repeat' split
  all_goals simp

@[simp] theorem State.offset_mode (s : State) (t : Nat) (theta : Int) (tau : Nat) : (s.offset t theta tau).mode = s.mode := by
  unfold State.offset
  dsimp only
  repeat' split
  all_goals simp

@[simp] theorem State.abandonSlew_mode (s : State) (t : Nat) : (s.abandonSlew t).mode = s.mode := by
  unfold State.abandonSlew
  split <;> simp

@[simp] theorem State.holdRate_mode (s : State) (t : Nat) : (s.holdRate t).mode = s.mode := by
  unfold State.holdRate
  split <;> simp

@[simp] theorem State.loseSource_mode (s : State) (t : Nat) : (s.loseSource t).mode = s.mode := by
  unfold State.loseSource
  dsimp only
  repeat' split
  all_goals simp

@[simp] theorem State.extOffset_mode (s : State) (t : Nat) (theta : W64) : (s.extOffset t theta).mode = s.mode := by
  unfold State.extOffset
  dsimp only
  repeat' split
  all_goals simp

@[simp] theorem State.servoWritten_mode (s : State) (t : Nat) : (s.servoWritten t).mode = s.mode := by
  unfold State.servoWritten
  simp

@[simp] theorem State.tbCfgWritten_mode (s : State) (t : Nat) (old : W64) : (s.tbCfgWritten t old).mode = s.mode := by
  unfold State.tbCfgWritten
  dsimp only
  repeat' split
  all_goals simp

@[simp] theorem State.discardAbove_mode (s : State) (slot : Nat) : (s.discardAbove slot).mode = s.mode := by
  unfold State.discardAbove
  split <;> simp

@[simp] theorem State.timeCmd_mode (s : State) (port t op : Nat) : (s.timeCmd port t op).1.mode = s.mode := by
  unfold State.timeCmd
  split <;> simp

@[simp] theorem State.setAlarmAt_mode (s : State) (a time : Nat) : (s.setAlarmAt a time).mode = s.mode := by
  unfold State.setAlarmAt
  simp

@[simp] theorem State.almCfgWrite_mode (s : State) (port a : Nat) (v0 : W64) : (s.almCfgWrite port a v0).1.mode = s.mode := by
  unfold State.almCfgWrite
  extract_lets v old s1
  have h1 : s1.mode = s.mode := (State.setF_mode _ _ _).trans (s.setReg_mode _ _)
  split
  · split
    · exact s.logRefusal_mode _ _ _ _
    · exact (State.setF_mode _ _ _).trans (s.setReg_mode _ _)
  split
  · split
    · exact s.logRefusal_mode _ _ _ _
    · exact (State.addF_mode _ _ _).trans ((State.setAlarmAt_mode _ _ _).trans h1)
  · exact s.setReg_mode _ _

@[simp] theorem State.ppsWritten_mode (s : State) (old : Nat) : (s.ppsWritten old).mode = s.mode := by
  unfold State.ppsWritten
  simp

@[simp] theorem State.setPtp_mode (s : State) (t l : Nat) (p : PtpPort) : (s.setPtp t l p).mode = s.mode := by
  unfold State.setPtp
  simp

@[simp] theorem State.setPstate_mode (s : State) (t l v : Nat) : (s.setPstate t l v).mode = s.mode := by
  unfold State.setPstate
  simp

/-! The pair, lanes, the switch -/

@[simp] theorem State.sendPair_mode (s : State) (sub h : Nat) (rest : List W64) : (s.sendPair sub h rest).mode = s.mode := by
  unfold State.sendPair
  split <;> simp

@[simp] theorem State.refreshReady_mode (s : State) : s.refreshReady.mode = s.mode := by
  unfold State.refreshReady
  dsimp only
  repeat' split
  all_goals simp

@[simp] theorem State.moveEgress_mode (s : State) (a b : Nat) : (s.moveEgress a b).mode = s.mode := by
  unfold State.moveEgress
  split <;> simp

@[simp] theorem State.bringUp_mode (s : State) (l : Nat) : (s.bringUp l).mode = s.mode := by
  unfold State.bringUp
  extract_lets
  repeat' split
  all_goals simp

@[simp] theorem State.lanePorts_mode (s : State) (l v : Nat) : (s.lanePorts l v).mode = s.mode := by
  unfold State.lanePorts
  refine State.foldl_mode _ _ _ fun t x => ?_
  split <;> simp

@[simp] theorem State.resendFrom_mode (s : State) (l : Nat) (ls : List Nat) : (s.resendFrom l ls).mode = s.mode := by
  unfold State.resendFrom
  extract_lets s1 again s2
  have h1 : s1.mode = s.mode := State.foldl_mode _ _ _ fun t q => by
    extract_lets x due
    repeat' split
    all_goals simp
  exact h1

@[simp] theorem State.barRate_mode (s : State) (l rate cause : Nat) : (s.barRate l rate cause).mode = s.mode := by
  unfold State.barRate
  dsimp only
  repeat' split
  all_goals simp

@[simp] theorem State.declareLoss_mode (s : State) (l cause : Nat) : (s.declareLoss l cause).mode = s.mode := by
  unfold State.declareLoss
  dsimp only
  repeat' split
  all_goals simp

@[simp] theorem State.clearBars_mode (s : State) (l bits : Nat) : (s.clearBars l bits).mode = s.mode := by
  unfold State.clearBars
  refine State.foldl_mode _ _ _ fun t x => ?_
  split <;> simp

@[simp] theorem State.makeActive_mode (s : State) (port l : Nat) : (s.makeActive port l).1.mode = s.mode := by
  unfold State.makeActive
  split
  · rfl
  split
  · simp
  · exact (State.foldl_mode _ _ _ fun t k => by simp).trans (s.setF_mode _ _)

@[simp] theorem State.laneTestWrite_mode (s : State) (port l : Nat) (v : W64) : (s.laneTestWrite port l v).1.mode = s.mode := by
  unfold State.laneTestWrite
  dsimp only
  repeat' split
  all_goals simp

@[simp] theorem State.disableStreams_mode (s : State) (l : Nat) : (s.disableStreams l).mode = s.mode := by
  unfold State.disableStreams
  split
  · rfl
  · refine State.foldl_mode _ _ _ fun t st => ?_
    extract_lets x
    split <;> simp

@[simp] theorem State.leaveGroup_mode (s : State) (l group : Nat) : (s.leaveGroup l group).mode = s.mode := by
  unfold State.leaveGroup
  repeat' split
  all_goals simp

@[simp] theorem State.laneCfgWritten_mode (s : State) (l : Nat) (old : W64) : (s.laneCfgWritten l old).mode = s.mode := by
  unfold State.laneCfgWritten
  dsimp only
  repeat' split
  all_goals simp

@[simp] theorem State.vlanWrite_mode (s : State) (port : Nat) (v : W64) : (s.vlanWrite port v).mode = s.mode := by
  unfold State.vlanWrite
  extract_lets
  split <;> simp

@[simp] theorem State.fdbWrite_mode (s : State) (port : Nat) (v : W64) : (s.fdbWrite port v).mode = s.mode := by
  unfold State.fdbWrite
  simp

/-! Calibration -/

@[simp] theorem State.setDue_mode (s : State) (b : Nat) (v : Bool) : (s.setDue b v).mode = s.mode := by
  unfold State.setDue
  simp

@[simp] theorem State.makeDue_mode (s : State) (b : Nat) : (s.makeDue b).mode = s.mode := by
  unfold State.makeDue
  split <;> simp

@[simp] theorem State.abandonAll_mode (s : State) : s.abandonAll.mode = s.mode := by
  unfold State.abandonAll
  refine State.foldl_mode _ _ _ fun t x => ?_
  split <;> simp

/-! Handovers -/

@[simp] theorem State.propose_mode (s : State) (h port reason : Nat) : (s.propose h port reason).mode = s.mode := by
  unfold State.propose
  simp

@[simp] theorem State.pairSwitch_mode (s : State) (port : Nat) : (s.pairSwitch port).1.mode = s.mode := by
  unfold State.pairSwitch
  extract_lets
  split <;> simp

@[simp] theorem State.pairProof_mode (s : State) (port : Nat) : (s.pairProof port).1.mode = s.mode := by
  unfold State.pairProof
  split <;> simp

@[simp] theorem State.pairClear_mode (s : State) : s.pairClear.mode = s.mode := by
  unfold State.pairClear
  simp

/-! Updates -/

@[simp] theorem State.updBegin_mode (s : State) (image n : Nat) : (s.updBegin image n).1.mode = s.mode := by
  unfold State.updBegin
  repeat' split
  all_goals simp

@[simp] theorem State.pieceComplete_mode (s : State) (a : UpdAsm) : (s.pieceComplete a).mode = s.mode := by
  unfold State.pieceComplete
  extract_lets
  repeat' split
  all_goals simp

@[simp] theorem State.takePart_mode (s : State) (index : Nat) (p : UpdPart) : (s.takePart index p).mode = s.mode := by
  unfold State.takePart
  dsimp only
  repeat' split
  all_goals simp

@[simp] theorem State.updPart_mode (s : State) (image index part crc : Nat) (words : List W64) :
    (s.updPart image index part crc words).1.mode = s.mode := by
  unfold State.updPart
  split <;> simp

@[simp] theorem State.updVerify_mode (s : State) : s.updVerify.1.mode = s.mode := by
  unfold State.updVerify
  repeat' split
  all_goals simp

@[simp] theorem State.journal_mode (s : State) (k : JournalKind) (block : Nat) : (s.journal k block).mode = s.mode := by
  unfold State.journal
  simp

@[simp] theorem State.beginCopy_mode (s : State) : s.beginCopy.mode = s.mode := by
  unfold State.beginCopy
  split <;> simp

@[simp] theorem State.updInstall_mode (s : State) (port : Nat) : (s.updInstall port).1.mode = s.mode := by
  unfold State.updInstall
  split <;> simp

@[simp] theorem State.pieceData_mode (s : State) (port : Nat) (v : W64) : (s.pieceData port v).1.mode = s.mode := by
  unfold State.pieceData
  dsimp only
  repeat' split
  all_goals simp

/-! Pointers and interrupts -/

@[simp] theorem State.persistPtr_mode (s : State) (port : Nat) (v : W64) : (s.persistPtr port v).mode = s.mode := by
  unfold State.persistPtr
  simp

@[simp] theorem State.clearInt_mode (s : State) (bits_ : Nat) : (s.clearInt bits_).mode = s.mode := by
  unfold State.clearInt
  simp

@[simp] theorem State.dbgPtr_mode (s : State) (port : Nat) (v : W64) : (s.dbgPtr port v).mode = s.mode := by
  unfold State.dbgPtr
  simp

/-! The store -/

@[simp] theorem State.storeReg_mode (s : State) (w : WCtx) (d : RegDesc) (a : Nat) (v : W64) : (s.storeReg w d a v).mode = s.mode := by
  unfold State.storeReg
  repeat' split
  all_goals simp

/-- A word tested and stored leaves the mode alone when what follows the store does. -/
theorem State.tested_mode (s : State) (w : WCtx) (d : RegDesc) (a : Nat) (v : W64) (c : Option Cond) {post : State → State}
    (hpost : ∀ t, (post t).mode = t.mode) : (s.tested w d a v c post).1.mode = s.mode := by
  unfold State.tested
  split
  · simp
  · exact (hpost _).trans (s.storeReg_mode w d a v)

@[simp] theorem State.syncLock_mode (s : State) : s.syncLock.mode = s.mode := by
  unfold State.syncLock
  simp

theorem State.writeEvt_mode (s : State) (w : WCtx) (d : RegDesc) (a : Nat) (v : W64) : (s.writeEvt w d a v).1.mode = s.mode := by
  unfold State.writeEvt
  split
  · exact s.clearInt_mode _
  split
  · exact s.persistPtr_mode _ _
  · exact s.tested_mode w d a v _ fun _ => rfl

theorem State.writeTiv_mode (s : State) (w : WCtx) (d : RegDesc) (a : Nat) (v : W64) : (s.writeTiv w d a v).1.mode = s.mode := by
  unfold State.writeTiv
  split
  · exact s.tested_mode w d a v _ fun _ => rfl
  split
  · exact s.tested_mode w d a v _ fun _ => rfl
  split
  · exact s.tested_mode w d a v _ fun _ => rfl
  split
  · exact s.tivCtlWrite_mode _ _
  split
  · exact s.tested_mode w d a v _ fun _ => rfl
  · exact s.tested_mode w d a v _ fun _ => rfl

theorem State.writeLane_mode (s : State) (w : WCtx) (d : RegDesc) (a : Nat) (v : W64) : (s.writeLane w d a v).1.mode = s.mode := by
  unfold State.writeLane
  extract_lets l o
  split
  · exact s.tested_mode w d a v _ fun t => t.laneCfgWritten_mode _ _
  split
  · exact s.clearBars_mode _ _
  split
  · exact s.laneTestWrite_mode _ _ _
  split
  · exact s.tested_mode w d a v _ fun _ => rfl
  split
  · split
    · exact s.makeActive_mode _ _
    · rfl
  · exact s.tested_mode w d a v _ fun _ => rfl

theorem State.writeSw_mode (s : State) (w : WCtx) (d : RegDesc) (a : Nat) (v : W64) : (s.writeSw w d a v).1.mode = s.mode := by
  unfold State.writeSw
  split
  · exact s.tested_mode w d a v _ fun _ => rfl
  split
  · exact s.tested_mode w d a v _ fun _ => rfl
  split
  · exact s.tested_mode w d a v _ fun _ => rfl
  split
  · exact s.vlanWrite_mode _ _
  split
  · exact s.fdbWrite_mode _ _
  split
  · exact s.tested_mode w d a v _ fun _ => rfl
  split
  · exact s.tested_mode w d a v _ fun _ => rfl
  · exact s.tested_mode w d a v _ fun _ => rfl

@[simp] theorem State.roleChanged_mode (s : State) (e : Nat) : (s.roleChanged e).mode = s.mode := by
  unfold State.roleChanged
  extract_lets
  repeat' split
  all_goals simp

theorem State.writeEng_mode (s : State) (w : WCtx) (d : RegDesc) (a : Nat) (v : W64) : (s.writeEng w d a v).1.mode = s.mode := by
  unfold State.writeEng
  extract_lets e
  split
  · refine s.tested_mode w d a v _ fun t => ?_
    split
    · rfl
    · exact t.roleChanged_mode _
  · exact s.tested_mode w d a v _ fun _ => rfl

theorem State.writeQue_mode (s : State) (w : WCtx) (d : RegDesc) (a : Nat) (v : W64) : (s.writeQue w d a v).1.mode = s.mode := by
  unfold State.writeQue
  extract_lets q
  split
  · exact s.tested_mode w d a v _ fun _ => rfl
  split
  · split
    · exact s.flushQueue_mode _
    · rfl
  · exact s.tested_mode w d a v _ fun _ => rfl

theorem State.writeStrm_mode (s : State) (w : WCtx) (d : RegDesc) (a : Nat) (v : W64) : (s.writeStrm w d a v).1.mode = s.mode := by
  unfold State.writeStrm
  split
  · exact s.strmDataWrite_mode _ _
  split
  · exact s.tested_mode w d a v _ fun _ => rfl
  · exact s.tested_mode w d a v _ fun _ => rfl

theorem State.writeCap_mode (s : State) (w : WCtx) (d : RegDesc) (a : Nat) (v : W64) : (s.writeCap w d a v).1.mode = s.mode := by
  unfold State.writeCap
  split
  · exact s.tested_mode w d a v _ fun _ => rfl
  split
  · exact s.descDataWrite_mode _ _
  split
  · split
    · exact s.missPop_mode
    · rfl
  split
  · split
    · exact s.copyGo_mode _ _
    · rfl
  split
  · extract_lets u o
    split
    · exact s.trgCtlWrite_mode _ _ _
    split
    · exact s.tested_mode w d a v _ fun _ => rfl
    · exact s.tested_mode w d a v _ fun _ => rfl
  · exact s.tested_mode w d a v _ fun _ => rfl

theorem State.writeCal_mode (s : State) (w : WCtx) (d : RegDesc) (a : Nat) (v : W64) : (s.writeCal w d a v).1.mode = s.mode := by
  unfold State.writeCal
  split
  · exact s.tested_mode w d a v _ fun _ => rfl
  split
  · extract_lets s1
    have h1 : s1.mode = s.mode := State.foldl_mode _ _ _ fun t b => t.makeDue_mode b
    split
    · exact s1.abandonAll_mode.trans h1
    · exact h1
  · exact s.tested_mode w d a v _ fun _ => rfl

theorem State.writeCh_mode (s : State) (w : WCtx) (d : RegDesc) (a : Nat) (v0 : W64) : (s.writeCh w d a v0).1.mode = s.mode := by
  have hlatch : ∀ (b : Bool) (c : Nat), (if b then s.clearLatch c else s).mode = s.mode := fun b c => by cases b <;> simp
  have hseen : ∀ (b : Bool) (f : Fld), (if b then s.setF f 0 else s).mode = s.mode := fun b f => by cases b <;> rfl
  rw [State.writeCh]
  split
  · exact s.tested_mode w d a _ _ fun _ => rfl
  split
  · exact s.tested_mode w d a _ _ fun _ => rfl
  split
  · exact s.tested_mode w d a _ _ fun _ => rfl
  split
  · split
    · exact (State.tested_mode _ w d a _ _ fun _ => rfl).trans (hlatch _ _)
    · exact hseen _ _
  split
  · exact s.tested_mode w d a _ _ fun _ => rfl
  split
  · exact s.tested_mode w d a _ _ fun _ => rfl
  split
  · exact s.tested_mode w d a _ _ fun _ => rfl
  · exact s.tested_mode w d a _ _ fun _ => rfl

theorem State.writeBank_mode (s : State) (w : WCtx) (d : RegDesc) (a : Nat) (v : W64) : (s.writeBank w d a v).1.mode = s.mode := by
  unfold State.writeBank
  extract_lets b o
  split
  · exact s.tested_mode w d a v _ fun _ => rfl
  split
  · exact s.tested_mode w d a v _ fun _ => rfl
  split
  · exact s.tested_mode w d a v _ fun _ => rfl
  · exact s.tested_mode w d a v _ fun _ => rfl

theorem State.writeFc_mode (s : State) (w : WCtx) (d : RegDesc) (a : Nat) (v : W64) : (s.writeFc w d a v).1.mode = s.mode := by
  unfold State.writeFc
  extract_lets k o
  split
  · exact s.tested_mode w d a v _ fun _ => rfl
  split
  · exact s.tested_mode w d a v _ fun _ => rfl
  · exact s.tested_mode w d a v _ fun _ => rfl

theorem State.writeFlt_mode (s : State) (w : WCtx) (d : RegDesc) (a : Nat) (v : W64) : (s.writeFlt w d a v).1.mode = s.mode := by
  unfold State.writeFlt
  split
  · exact s.coefPtrWrite_mode _ _
  split
  · exact s.coefWrite_mode _ _
  split
  · exact s.swapRequest_mode _ _ _
  · exact s.tested_mode w d a v _ fun _ => rfl

theorem State.writeCmp_mode (s : State) (w : WCtx) (d : RegDesc) (a : Nat) (v : W64) : (s.writeCmp w d a v).1.mode = s.mode := by
  unfold State.writeCmp
  extract_lets j
  split
  · exact s.tested_mode w d a v _ fun _ => rfl
  split
  · exact s.tested_mode w d a v _ fun t => t.rxCfgWritten_mode _ _
  split
  · exact s.tested_mode w d a v _ fun _ => rfl
  · exact s.tested_mode w d a v _ fun _ => rfl

theorem State.writeSsp_mode (s : State) (w : WCtx) (d : RegDesc) (a : Nat) (v : W64) : (s.writeSsp w d a v).1.mode = s.mode := by
  unfold State.writeSsp
  extract_lets n o
  split
  · exact s.tested_mode w d a v _ fun _ => rfl
  split
  · exact s.sspCtlWrite_mode _ _
  split
  · exact s.tested_mode w d a v _ fun _ => rfl
  · exact s.tested_mode w d a v _ fun _ => rfl

/-! ### What leaves the phase of start-up alone (R50 to R53)

A record of a configuration acts with the class of an owner: it asks for no Descent and for no reset. -/

theorem State.pendMode_phase (s : State) (target : Nat) (at_ : Option Nat) (port cause : Nat) :
    (s.pendMode target at_ port cause).mode.phase = s.mode.phase := by rw [(s.pendMode_mode target at_ port cause).1]

theorem State.cancelMode_phase (s : State) : s.cancelMode.mode.phase = s.mode.phase := by
  obtain ⟨-, ⟨p, hmode⟩, -⟩ := s.cancelMode_keeps
  rw [hmode]

theorem State.nameStart_phase (s : State) : s.nameStart.mode.phase = s.mode.phase := by
  unfold State.nameStart
  split
  · extract_lets early at_ m s1
    rw [State.scheduleAuto_mode, State.dropAuto_mode]
  · rfl

theorem State.selectSampleTb_phase (s : State) (t : Nat) : (s.selectSampleTb t).mode.phase = s.mode.phase := by
  unfold State.selectSampleTb
  extract_lets s0 s1
  have h0 : s0.mode = s.mode := s.discardAbove_mode _
  have h1 : s1.mode = s.mode :=
    (State.foldl_mode _ _ _ fun u k => u.setF_mode _ _).trans ((s0.setF_mode _ _).trans h0)
  split
  · rw [h0]
  split
  · rw [h1]
  · rw [State.nameStart_phase, State.reslot_mode, h1]

theorem State.timeCfgWrite_phase (s : State) (w : WCtx) (v : W64) : (s.timeCfgWrite w v).1.mode.phase = s.mode.phase := by
  unfold State.timeCfgWrite
  extract_lets t startUp c s1
  clear_value c
  cases c with
  | some c => exact congrArg ModeSt.phase (s.refuse_mode _ _ _ _)
  | none => exact s1.selectSampleTb_phase t

theorem State.withdrawHandover_phase (s : State) : s.withdrawHandover.mode.phase = s.mode.phase := by
  unfold State.withdrawHandover
  split
  · rfl
  · extract_lets q p s1 s2
    have h2 : s2.mode = s.mode := by
      simp only [s2]
      split <;> rfl
    split
    · rw [State.cancelMode_phase, h2]
    · rw [h2]

theorem State.pairCancel_phase (s : State) (port : Nat) : (s.pairCancel port).1.mode.phase = s.mode.phase := by
  unfold State.pairCancel
  extract_lets mine
  clear_value mine
  cases mine with
  | none => rfl
  | some h =>
    dsimp only
    split
    · exact congrArg ModeSt.phase (s.refuse_mode _ _ _ _)
    · exact (State.withdrawHandover_phase _).trans (congrArg ModeSt.phase (s.sendPair_mode _ _ _))

/-- One bit of PAIR_CTL acted on. -/
def pairCtlStep (r : WriteRes) (b : Bool) (f : State → WriteRes) : WriteRes :=
  if b then (match f r.1 with
    | (t, some c) => (t, some (r.2.getD c))
    | (t, none) => (t, r.2)) else r

theorem pairCtlStep_phase {s : State} {r : WriteRes} {b : Bool} {f : State → WriteRes} (hr : r.1.mode.phase = s.mode.phase)
    (hf : ∀ t, (f t).1.mode.phase = t.mode.phase) : (pairCtlStep r b f).1.mode.phase = s.mode.phase := by
  have h := hf r.1
  unfold pairCtlStep
  split
  · split
    next t c hfr => exact (congrArg (fun x : WriteRes => x.1.mode.phase) hfr.symm).trans (h.trans hr)
    next t hfr => exact (congrArg (fun x : WriteRes => x.1.mode.phase) hfr.symm).trans (h.trans hr)
  · exact hr

theorem State.pairCtlWrite_phase (s : State) (port : Nat) (v : W64) : (s.pairCtlWrite port v).1.mode.phase = s.mode.phase := by
  have h0 : (pairCtlStep (s, none) (bit v 0) fun t => t.pairSwitch port).1.mode.phase = s.mode.phase :=
    pairCtlStep_phase rfl fun t => congrArg ModeSt.phase (t.pairSwitch_mode port)
  have h1 := pairCtlStep_phase (b := bit v 1) h0 fun t => congrArg ModeSt.phase (t.pairProof_mode port)
  have h2 := pairCtlStep_phase (b := bit v 2) h1 fun t => t.pairCancel_phase port
  exact pairCtlStep_phase (b := bit v 3) (f := fun t => (t.pairClear, none)) h2 fun t => congrArg ModeSt.phase t.pairClear_mode

theorem State.updCancel_phase (s : State) (port : Nat) : (s.updCancel port).1.mode.phase = s.mode.phase := by
  unfold State.updCancel
  split
  · split
    · split
      · rfl
      · exact (State.cancelMode_phase _).trans (congrArg ModeSt.phase s.dropActivation_mode)
    · rfl
  · rfl

/-- A request by a port below maintenance that is accepted asks for another mode than Descent. -/
theorem State.modeTests_descent {s : State} {port : Nat} {at_ : Option Nat} (hc : s.classOf port < 3) : s.modeTests port 7 at_ ≠ none := by
  have hclass : s.modeClass 7 = none ∨ s.modeClass 7 = some 3 := by
    unfold State.modeClass
    extract_lets c
    rw [if_pos rfl]
    split
    · exact .inl rfl
    · exact .inr rfl
  unfold State.modeTests
  rcases hclass with h | h
  · rw [h]
    exact Option.some_ne_none _
  · rw [h]
    exact fun hn => Option.some_ne_none _ ((if_neg (by simpa using hc)).symm.trans hn)

theorem State.takeRequest_phase {s : State} {t : Nat} (ht : t ≠ 7) (port : Nat) (at_ : Option Nat) :
    (s.takeRequest port t at_).mode.phase = s.mode.phase := by
  unfold State.takeRequest
  extract_lets cause
  rw [if_neg ht]
  split
  · exact s.pendMode_phase _ _ _ _
  · exact s.pendMode_phase _ _ _ _

theorem State.modeReqWrite_phase {s : State} {port : Nat} (hc : s.classOf port < 3) (v : W64) :
    (s.modeReqWrite port v).1.mode.phase = s.mode.phase := by
  have hno : ∀ c, (s.refuse c 0 Reg.SYS_MODE_REQ port).1.mode.phase = s.mode.phase := fun c => congrArg ModeSt.phase (s.refuse_mode _ _ _ _)
  unfold State.modeReqWrite
  extract_lets no t at_
  split
  · split
    · exact hno _
    split
    · exact hno _
    split
    · exact hno _
    split
    · split
      · exact hno _
      · exact s.cancelMode_phase
    · exact s.cancelMode_phase
  · split
    · exact hno _
    split
    · exact hno _
    next htests => exact State.takeRequest_phase (fun h7 => State.modeTests_descent hc (h7 ▸ htests)) port at_

/-! Writes by block -/

section
variable (s : State) (w : WCtx) (d : RegDesc) (a : Nat) (v : W64)

theorem State.tested_phase (c : Option Cond) {post : State → State} (hpost : ∀ t, (post t).mode = t.mode) :
    (s.tested w d a v c post).1.mode.phase = s.mode.phase := congrArg ModeSt.phase (s.tested_mode w d a v c hpost)

theorem State.writeSys_phase (hc : s.classOf w.port < 3) : (s.writeSys w d a v).1.mode.phase = s.mode.phase := by
  unfold State.writeSys
  split
  · exact State.modeReqWrite_phase hc v
  split
  · exact s.tested_phase w d a v _ fun t => t.syncLock_mode
  split
  · exact s.tested_phase w d a _ _ fun t => t.syncLock_mode
  · exact s.tested_phase w d a v _ fun _ => rfl

theorem State.writeTime_phase : (s.writeTime w d a v).1.mode.phase = s.mode.phase := by
  unfold State.writeTime
  split
  · extract_lets t o
    split
    · exact s.tested_phase w d a v _ fun u => u.tbCfgWritten_mode _ _
    split
    · exact s.tested_phase w d a v _ fun u => u.servoWritten_mode _
    split
    · exact s.tested_phase w d a v _ fun _ => rfl
    split
    · exact s.tested_phase w d a v _ fun u => u.refreshClass_mode _
    split
    · exact congrArg ModeSt.phase (s.extOffset_mode _ _)
    · exact s.tested_phase w d a v _ fun _ => rfl
  split
  · extract_lets i o
    split
    · exact congrArg ModeSt.phase (s.almCfgWrite_mode _ _ _)
    split
    · exact s.tested_phase w d a v _ fun _ => rfl
    · exact s.tested_phase w d a v _ fun _ => rfl
  split
  · exact s.timeCfgWrite_phase w v
  split
  · exact congrArg ModeSt.phase (s.timeCmd_mode _ _ _)
  split
  · exact s.tested_phase w d a v _ fun u => u.ppsWritten_mode _
  · exact s.tested_phase w d a v _ fun _ => rfl

theorem State.writePair_phase : (s.writePair w d a v).1.mode.phase = s.mode.phase := by
  unfold State.writePair
  split
  · exact s.tested_phase w d a v _ fun _ => rfl
  split
  · exact s.tested_phase w d a v _ fun _ => rfl
  split
  · exact s.pairCtlWrite_phase _ _
  · exact s.tested_phase w d a v _ fun _ => rfl

theorem State.logged_phase (port : Nat) {r : State × Option Cond} (hr : r.1.mode.phase = s.mode.phase) :
    (s.logged a port r).1.mode.phase = s.mode.phase := by
  unfold State.logged
  split
  · exact congrArg ModeSt.phase (s.refuse_mode _ _ _ _)
  · exact hr

end

theorem thenWrite_phase {s : State} {r : WriteRes} {b : Bool} {f : State → WriteRes} (hr : r.1.mode.phase = s.mode.phase)
    (hf : ∀ t, (f t).1.mode.phase = t.mode.phase) : (thenWrite r b f).1.mode.phase = s.mode.phase := by
  unfold thenWrite
  split
  · exact (hf r.1).trans hr
  · exact hr

/-- UPD_CTL without RECOVER, written by a record. -/
theorem State.writeUpdCtl_phase (s : State) (w : WCtx) {v : W64} (hv : bit v 4 = false) :
    (s.writeUpdCtl w v noExt.act).1.mode.phase = s.mode.phase := by
  unfold State.writeUpdCtl
  extract_lets r0 r1 r2 r3
  have h0 : r0.1.mode.phase = s.mode.phase :=
    thenWrite_phase (r := (s, none)) rfl fun t => t.logged_phase _ _ (congrArg ModeSt.phase t.updVerify_mode)
  have h1 : r1.1.mode.phase = s.mode.phase := thenWrite_phase h0 fun t => t.logged_phase _ _ (congrArg ModeSt.phase (t.updInstall_mode _))
  have h2 : r2.1.mode.phase = s.mode.phase := thenWrite_phase h1 fun _ => rfl
  have h3 : r3.1.mode.phase = s.mode.phase := thenWrite_phase h2 fun t => t.logged_phase _ _ (t.updCancel_phase _)
  rw [thenWrite, hv]
  exact h3

theorem State.writeUpd_phase (s : State) (w : WCtx) (d : RegDesc) (a : Nat) {v : W64} (hv : a = Reg.UPD_CTL → bit v 4 = false) :
    (s.writeUpd w d a v noExt.act).1.mode.phase = s.mode.phase := by
  unfold State.writeUpd
  split
  · exact s.logged_phase _ _ (congrArg ModeSt.phase (s.updBegin_mode _ _))
  split
  next ha => exact s.writeUpdCtl_phase w (hv ha)
  split
  · exact s.tested_phase w d a v _ fun _ => rfl
  split
  · exact s.tested_phase w d a v _ fun t => t.setUpd_mode _
  split
  · have h := s.pieceData_mode w.port v
    split
    next t c ht => exact congrArg ModeSt.phase ((t.refuse_mode _ _ _ _).trans ((congrArg (fun x : State × Option Cond => x.1.mode) ht.symm).trans h))
    next t ht => exact congrArg ModeSt.phase ((congrArg (fun x : State × Option Cond => x.1.mode) ht.symm).trans h)
  · exact s.tested_phase w d a v _ fun _ => rfl

theorem State.writeBlock_phase (s : State) (w : WCtx) (d : RegDesc) (a : Nat) {v : W64} (hc : s.classOf w.port < 3)
    (hv : a = Reg.UPD_CTL → bit v 4 = false) : (s.writeBlock noExt w d a v).1.mode.phase = s.mode.phase := by
  unfold State.writeBlock
  split
  · exact s.writeSys_phase w d a v hc
  · split
    · rfl
    · exact s.tested_phase w d a v _ fun _ => rfl
  · exact congrArg ModeSt.phase (s.writeEvt_mode w d a v)
  · exact s.writeTime_phase w d a v
  · exact congrArg ModeSt.phase (s.writeTiv_mode w d a v)
  · exact congrArg ModeSt.phase (s.writeLane_mode w d a v)
  · exact congrArg ModeSt.phase (s.writeSw_mode w d a v)
  · exact s.writePair_phase w d a v
  · exact congrArg ModeSt.phase (s.writeEng_mode w d a v)
  · exact congrArg ModeSt.phase (s.writeQue_mode w d a v)
  · exact congrArg ModeSt.phase (s.writeStrm_mode w d a v)
  · exact congrArg ModeSt.phase (s.writeCap_mode w d a v)
  · exact congrArg ModeSt.phase (s.writeCal_mode w d a v)
  · exact s.writeUpd_phase w d a hv
  · exact congrArg ModeSt.phase (s.writeCh_mode w d a v)
  · exact congrArg ModeSt.phase (s.writeBank_mode w d a v)
  · exact congrArg ModeSt.phase (s.writeFc_mode w d a v)
  · exact congrArg ModeSt.phase (s.writeFlt_mode w d a v)
  · exact congrArg ModeSt.phase (s.writeCmp_mode w d a v)
  · exact congrArg ModeSt.phase (s.writeSsp_mode w d a v)
  · split
    · exact congrArg ModeSt.phase (s.dbgPtr_mode _ _)
    · exact s.tested_phase w d a v _ fun _ => rfl

/-! Records of a configuration -/

theorem State.classOf_cfgPort (s : State) : s.classOf cfgPort = 2 := rfl

/-- What the table says of UPD_CTL. -/
def updCtlDesc : RegDesc := ⟨0x0F84, 0, 1, 0x0, [⟨4, 4, .wo⟩, ⟨3, 3, .wo⟩, ⟨2, 2, .wo⟩, ⟨1, 1, .wo⟩, ⟨0, 0, .wo⟩]⟩

theorem findReg_updCtl : findReg Reg.UPD_CTL = some updCtlDesc := by decide

theorem updCtl_unlocked : updCtlDesc.accMask (fun c => c == .rwl) = 0 := by decide

theorem State.needClass_updCtl (s : State) (w : WCtx) (v : W64) : s.needClass w Reg.UPD_CTL v = if bit v 4 then 3 else 2 := rfl

/-- What is left of a word under a mask that locks nothing. -/
theorem bit_and_eq_false {v known : W64} {i : Nat} (h : bit v i = false) : bit (v &&& known) i = false := by
  rw [bit, BitVec.toNat_and, Nat.testBit_and, ← bit, h, Bool.false_and]

theorem State.writeExt_record_phase (s : State) {w : WCtx} (hw : w.port = cfgPort) (a : Nat) (v : W64) :
    (s.writeExt noExt w a v).1.mode.phase = s.mode.phase := by
  have href : ∀ (c : Cond) (u : Nat), (s.refuse c u a w.port).1.mode.phase = s.mode.phase := fun c u =>
    congrArg ModeSt.phase (s.refuse_mode _ _ _ _)
  unfold State.writeExt
  split
  · rfl
  next d hd =>
    extract_lets u foreign known s1 rwl old locked clash v1
    split
    · exact href _ _
    next hclass =>
      split
      · exact href _ _
      · have h1 : s1.mode = s.mode := by
          simp only [s1]
          split
          · rfl
          · exact s.bump_mode _
        have hrecover : a = Reg.UPD_CTL → bit v1 4 = false := by
          rintro rfl
          obtain rfl : d = updCtlDesc := Option.some.inj (hd.symm.trans findReg_updCtl)
          have hv : bit v 4 = false := by
            rw [hw, State.classOf_cfgPort, State.needClass_updCtl] at hclass
            by_contra hb
            exact hclass (by simp [hb])
          have hrwl : rwl = 0 := updCtl_unlocked
          refine bit_and_eq_false ?_
          rw [hrwl]
          split
          · rw [show old &&& 0 = 0 from BitVec.and_zero, show v &&& ~~~0 ||| 0 = v &&& ~~~0 from BitVec.or_zero]
            exact bit_and_eq_false hv
          · exact hv
        have hblock := s1.writeBlock_phase w d a (v := v1) (by rw [hw]; exact (by decide : 2 < 3)) hrecover
        rw [h1] at hblock
        split
        next t ht =>
          rw [ht] at hblock
          split
          · exact (congrArg ModeSt.phase (t.refuse_mode _ _ _ _)).trans hblock
          · exact hblock
        next t c ht =>
          rw [ht] at hblock
          split
          · exact (congrArg ModeSt.phase (s1.refuse_mode _ _ _ _)).trans (congrArg ModeSt.phase h1)
          · exact hblock

theorem State.writeRec_phase (s : State) {w : WCtx} (hw : w.port = cfgPort) (r : CfgRec) :
    (s.writeRec noExt w r).1.mode.phase = s.mode.phase := s.writeExt_record_phase hw _ _

theorem State.contRecord_phase (s : State) (i : Nat) : (s.contRecord i).mode.phase = s.mode.phase := by
  unfold State.contRecord
  split
  · exact congrArg ModeSt.phase (s.appendRec_mode _ _)
  · rfl

theorem State.loadRecords_phase (s : State) {w : WCtx} (hw : w.port = cfgPort) (i : Nat) (l : List CfgRec) :
    (s.loadRecords w i l).1.mode.phase = s.mode.phase := by
  induction l generalizing s i with
  | nil => rfl
  | cons r rest ih =>
    have h := s.writeRec_phase hw r
    unfold State.loadRecords
    split
    next t ht =>
      rw [ht] at h
      exact (ih t (i + 1)).trans h
    next t c ht =>
      rw [ht] at h
      exact (ih _ (i + 1)).trans ((t.contRecord_phase i).trans h)

theorem State.loadSections_phase (s : State) {w : WCtx} (hw : w.port = cfgPort) (l : List (List CfgRec)) :
    (s.loadSections w l).1.mode.phase = s.mode.phase := by
  induction l generalizing s with
  | nil => rfl
  | cons r rest ih => exact (ih _).trans (s.resetCfgCopies.loadRecords_phase hw 0 r)

theorem State.loadBase_phase (s : State) : s.loadBase.mode.phase = s.mode.phase :=
  s.loadSections_phase (w := s.recCtx) rfl (s.storeOf s.activeStore).records

theorem State.applyAll_phase {f : State → CfgRec → WriteRes} (hf : ∀ t r, (f t r).1.mode.phase = t.mode.phase) (s : State) (i : Nat)
    (l : List CfgRec) : (s.applyAll f i l).1.mode.phase = s.mode.phase := by
  induction l generalizing s i with
  | nil => rfl
  | cons r rest ih =>
    have h := hf s r
    unfold State.applyAll
    split
    next t ht =>
      rw [ht] at h
      exact (ih t (i + 1)).trans h
    · rfl

theorem State.returnRec_phase (s img : State) {w : WCtx} (hw : w.port = cfgPort) (r : CfgRec) :
    (s.returnRec img w r).1.mode.phase = s.mode.phase := by
  unfold State.returnRec
  split
  · exact s.writeRec_phase hw r
  · exact s.writeRec_phase hw _

theorem State.changeOverlay_phase (s : State) {w : WCtx} (hw : w.port = cfgPort) (out inc : Option OverlayDef) :
    (s.changeOverlay w out inc).1.mode.phase = s.mode.phase := by
  unfold State.changeOverlay
  extract_lets img
  have hout := s.resetCfgCopies.applyAll_phase (fun t r => t.returnRec_phase img hw r) 0 ((out.map (fun o => o.recs)).getD [])
  split
  · rfl
  next t ht =>
    rw [ht] at hout
    have hin := t.resetCfgCopies.applyAll_phase (fun u r => u.writeRec_phase hw r) 0 ((inc.map (fun o => o.recs)).getD [])
    split
    · rfl
    next u hu =>
      rw [hu] at hin
      exact hin.trans hout

theorem State.putOverlay_phase (s : State) (k m port : Nat) : (s.putOverlay k m port).mode.phase = s.mode.phase := by
  have h := s.changeOverlay_phase (w := s.recCtx) rfl (s.overlayDef (s.getF Reg.CFG_STATUS_OVL_ACT)) (s.overlayDef k)
  unfold State.putOverlay
  split
  · exact congrArg ModeSt.phase (s.logTo_mode _ _ _ _)
  next t ht =>
    rw [ht] at h
    have hshow : (t.overlayActive k m).mode = t.mode := (congrArg State.mode (t.overlayShown k m).showConfig_spec.2.2 :)
    exact (congrArg ModeSt.phase (((State.newSettings_control _ s m).1.trans (State.excitationChanged_control _ s).1).trans hshow)).trans h

/-! ### The configuration store chosen at start-up (R43, R50 to R54) -/

theorem State.reportStore_control (s : State) (k : Nat) : s.SameControl (s.reportStore k) := by
  unfold State.reportStore
  extract_lets x
  split
  · exact .log s _ _ _
  · exact .refl s

theorem State.takeBank_control (s : State) (r : CalBank) : s.SameControl (s.takeBank r) := by
  unfold State.takeBank
  extract_lets x s1 c s2
  have h2 : s.SameControl s2 := (s.setBk_control r.bank _).trans (s1.setCalh_control _)
  exact (h2.trans (.setF s2 (Reg.BANK_VREF_VALUE r.bank) _ (ctlWord_of_ge (by simp only [Reg.BANK_VREF_VALUE, Reg.BANK_VREF]; omega)))).trans
    (.setF _ (Reg.BANK_TEMP_TCAL r.bank) _ (ctlWord_of_ge (by simp only [Reg.BANK_TEMP_TCAL, Reg.BANK_TEMP]; omega)))

theorem State.loadCalSet_control (s : State) : s.SameControl s.loadCalSet := by
  have hfc : ∀ k, ctlWord (Reg.FC_CAL k) = false ∧ ctlWord (Reg.FC_CSKEW k) = false := fun k =>
    ⟨ctlWord_of_ge (by simp only [Reg.FC_CAL]; omega), ctlWord_of_ge (by simp only [Reg.FC_CSKEW]; omega)⟩
  unfold State.loadCalSet
  extract_lets l f report
  have hreport : ∀ t : State, t.SameControl (report t) := fun t => .log t _ _ _
  split
  · exact ((State.SameControl.setF s Reg.CAL_SET_SRC 0 (by decide)).trans (State.logUncoded_control _ 0 [])).trans (hreport _)
  · extract_lets s1 s2 s3
    have h1 : s.SameControl s1 := .foldl _ _ s fun t r => t.takeBank_control r
    have h2 : s1.SameControl s2 := .foldl _ _ s1 fun t k => by
      split
      · exact (State.SameControl.setReg t _ (hfc k).1).trans (.setReg _ _ (hfc k).2)
      · exact .refl t
    have h3 : s2.SameControl s3 := ((State.SameControl.setF s2 Reg.CAL_VINT_VALUE _ (by decide)).trans
      (.setF _ Reg.CAL_EXTREF_VALUE _ (by decide))).trans (.setReg _ _ (by decide))
    have h4 : ∀ a b c : Nat, s3.SameControl ((((s3.setF Reg.CAL_SET_FBANK f).setF Reg.CAL_SET_SEQ a).setF Reg.CAL_SET_SRC b).setF
        Reg.CAL_SET_OTHER_VALID c) := fun a b c =>
      (((State.SameControl.setF s3 Reg.CAL_SET_FBANK f (by decide)).trans (.setF _ Reg.CAL_SET_SEQ a (by decide))).trans
        (.setF _ Reg.CAL_SET_SRC b (by decide))).trans (.setF _ Reg.CAL_SET_OTHER_VALID c (by decide))
    exact (((h1.trans h2).trans h3).trans (h4 _ _ _)).trans (hreport _)

/-! The initial set of the time bases -/

/-- From s to t the mode, the configuration and CFG_STATUS stay. -/
def State.SameStatus (s t : State) : Prop := t.mode = s.mode ∧ t.cfg = s.cfg ∧ t.reg Reg.CFG_STATUS = s.reg Reg.CFG_STATUS

theorem State.SameStatus.trans {s t u : State} (h : s.SameStatus t) (h' : t.SameStatus u) : s.SameStatus u :=
  ⟨h'.1.trans h.1, h'.2.1.trans h.2.1, h'.2.2.trans h.2.2⟩

theorem State.SameStatus.of_control {s t : State} (h : s.SameControl t) : s.SameStatus t := ⟨h.1, h.2.1, h.2.2 _ (by decide)⟩

theorem State.SameStatus.setF (s : State) (f : Fld) (v : Nat) (hf : f.addr ≠ Reg.CFG_STATUS) : s.SameStatus (s.setF f v) :=
  ⟨rfl, rfl, State.reg_setF_ne s f v hf.symm⟩

theorem tbStat_ne_cfgStatus (t : Nat) : Reg.TB_STAT t ≠ Reg.CFG_STATUS := by
  simp only [Reg.TB_STAT, Reg.CFG_STATUS]
  omega

theorem State.setTbState_status (s : State) (t v : Nat) : s.SameStatus (s.setTbState t v) := by
  unfold State.setTbState
  extract_lets o x y s1 s2 c s3
  have h1 : s.SameStatus s1 :=
    State.SameStatus.trans (t := s.setTb t y) ⟨rfl, rfl, rfl⟩ (.setF _ (Reg.TB_STAT_STATE t) v (tbStat_ne_cfgStatus t))
  have h2 : s1.SameStatus s2 := by
    simp only [s2]
    split
    · exact ⟨rfl, rfl, rfl⟩
    · exact .setF s1 (Reg.TB_STAT_REFPEND t) 0 (tbStat_ne_cfgStatus t)
  have h3 : s2.SameStatus s3 :=
    State.SameStatus.trans (t := s2.refreshClass t) (.setF s2 (Reg.TB_STAT_CLASS t) _ (tbStat_ne_cfgStatus t)) (.of_control (.log _ _ _ _))
  split
  · exact ⟨rfl, rfl, rfl⟩
  split
  · exact ((h1.trans h2).trans h3).trans (.of_control (.log s3 _ _ _))
  · exact (h1.trans h2).trans h3

theorem State.nameStart_of_not_running {s : State} (h : s.mode.phase ≠ .running) : s.nameStart = s := if_neg fun hr => h hr.1

/-- The initial set of a time base, in a hub that does not run yet. -/
theorem State.initialSet_status {s : State} (h : s.mode.phase ≠ .running) (t time state : Nat) (fromMark : Bool) :
    s.SameStatus (s.initialSet t time state fromMark) := by
  unfold State.initialSet
  extract_lets x s0 s1 s2 s3
  have h1 : s.SameStatus s1 := by
    refine State.SameStatus.trans (t := if t = s0.sampTb then s0.reslot else s0) ?_ (State.setTbState_status _ t state)
    split <;> exact ⟨rfl, rfl, rfl⟩
  have h3 : s.SameStatus s3 := by
    simp only [s3]
    split
    · exact h1.trans (.of_control (.log s2 _ _ _))
    · exact h1
  split
  · rw [State.nameStart_of_not_running (by rw [h3.1]; exact h)]
    exact h3
  · exact h1

theorem State.setFromMark_status {s : State} (h : s.mode.phase ≠ .running) (t : Nat) : s.SameStatus (s.setFromMark t) := by
  unfold State.setFromMark
  split
  · exact State.initialSet_status h _ _ _ _
  · exact ⟨rfl, rfl, rfl⟩

theorem State.setFromMarks_status {s : State} (h : s.mode.phase ≠ .running) : s.SameStatus s.setFromMarks := by
  refine foldl_rel (fun s t : State => s.mode.phase ≠ .running → s.SameStatus t) (fun _ _ => ⟨rfl, rfl, rfl⟩)
    (fun s t u h1 h2 hs => (h1 hs).trans (h2 (by rw [(h1 hs).1]; exact hs))) _ _ s (fun t k _ ht => ?_) h
  extract_lets src
  split
  · exact State.setFromMark_status ht k
  · exact ⟨rfl, rfl, rfl⟩

/-! The choice -/

/-- The hub with the stores storesReported and the phase moved on. -/
def State.storesReported (s : State) : State := ((s.reportStore 0).reportStore 1).toPhase .configured

theorem State.storesReported_spec (s : State) : s.storesReported.mode = { s.mode with phase := .configured } ∧ s.storesReported.cfg = s.cfg := by
  obtain ⟨hmode, hcfg, -⟩ := (s.reportStore_control 0).trans (State.reportStore_control _ 1)
  refine ⟨?_, hcfg⟩
  unfold State.storesReported
  generalize (s.reportStore 0).reportStore 1 = t at hmode
  rw [← hmode]
  rfl

/-- The hub with store k in effect, before an overlay. -/
def State.withStore (s : State) (k : Nat) : State := ((((s.takeStore k).applyParts s.now).loadBase).loadSram).showConfig.logDelays s s.now

/-- The hub with its configuration loaded, before the calibration set. -/
def State.withConfig (s : State) : State :=
  match s.chooseStore with
  | none => s.log .CFG_NONE 0 []
  | some k => match (s.withStore k).boundTo 1 with
    | some j => (s.withStore k).putOverlay j (s.withStore k).now 7
    | none => s.withStore k

theorem configLoad_exec {s : State} (hphase : s.mode.phase = .lanes) (hcur : s.cur ≠ 0) :
    exec .configLoad s = .next s.storesReported.withConfig.loadCalSet.setFromMarks :=
  (if_neg (by simp [hphase, hcur]) : execConfigLoad s = _)

theorem State.takeStore_mode (s : State) (k : Nat) : (s.takeStore k).mode = s.mode := rfl

theorem State.applyParts_cfg (s : State) (m : Nat) : ∃ p, (s.applyParts m).cfg = { s.cfg with parts := p } := by
  unfold State.applyParts
  extract_lets p
  split
  · exact ⟨s.cfg.parts, rfl⟩
  · exact ⟨_, (State.discardStore_control _ m).2.1⟩

theorem State.showConfig_mode (s : State) : s.showConfig.mode = s.mode := (congrArg State.mode s.showConfig_spec.2.2 :)

theorem State.showConfig_cfg (s : State) : s.showConfig.cfg = s.cfg := (congrArg State.cfg s.showConfig_spec.2.2 :)

theorem State.loadSram_mode (s : State) : s.loadSram.mode = s.mode := by
  obtain ⟨y, hy⟩ := s.loadSram_sram
  rw [hy]

theorem State.withStore_phase (s : State) (k : Nat) : (s.withStore k).mode.phase = s.mode.phase := by
  unfold State.withStore
  rw [(State.logDelays_control _ s s.now).1, State.showConfig_mode, State.loadSram_mode, State.loadBase_phase, (State.applyParts_words _ _).1,
    State.takeStore_mode]

theorem State.withConfig_phase (s : State) : s.withConfig.mode.phase = s.mode.phase := by
  unfold State.withConfig
  split
  · exact congrArg ModeSt.phase (s.log_mode _ _ _)
  next k _ =>
    split
    · exact (State.putOverlay_phase _ _ _ _).trans (s.withStore_phase k)
    · exact s.withStore_phase k

/-- A chosen store without register records, and without an overlay bound to Basecamp, is shown with its parameters. -/
theorem State.withConfig_store {s : State} {k : Fin 2} (hk : s.chooseStore = some k.val) (hrec : (s.storeOf k).records = [])
    (hbind : ∀ o ∈ (s.storeOf k).overlays, o.bind ≠ 1) :
    s.withConfig.getF Reg.CFG_STATUS_LOADED = 1 ∧ s.withConfig.getF Reg.CFG_STATUS_STORE = k ∧ s.withConfig.cfg.params = (s.storeOf k).params := by
  obtain ⟨hstore, hloaded, -, hcfg, -⟩ := s.takeStore_spec k
  generalize ht : s.takeStore k = t at hstore hloaded hcfg
  obtain ⟨-, hwords⟩ := t.applyParts_words s.now
  obtain ⟨p, hparts⟩ := t.applyParts_cfg s.now
  generalize hu : t.applyParts s.now = u at hwords hparts
  have hfld : ∀ f : Fld, f.addr = Reg.CFG_STATUS → u.getF f = t.getF f := fun f hf => by
    rw [State.getF, hf, hwords _ (by decide), ← hf, ← State.getF]
  have hbase : u.loadBase = { u with cfg := { u.cfg with recs := [] } } := by
    refine State.loadBase_of_no_records ?_
    rw [State.activeStore, hfld Reg.CFG_STATUS_STORE rfl, ← State.activeStore, hstore, State.storeOf, hparts, hcfg]
    exact hrec
  obtain ⟨y, hsram⟩ := u.loadBase.loadSram_sram
  obtain ⟨-, hshow, -⟩ := u.loadBase.loadSram.showConfig_spec
  have hdelays := State.logDelays_control u.loadBase.loadSram.showConfig s s.now
  have hwith : s.withStore k = u.loadBase.loadSram.showConfig.logDelays s s.now := by
    rw [State.withStore, ht, hu]
  rw [← hwith] at hdelays
  have hcfgs : (s.withStore k).cfg = { u.cfg with recs := [] } := by
    rw [hdelays.2.1, State.showConfig_cfg, hsram, hbase]
  have hregs : u.loadBase.loadSram.regs = u.regs := by rw [hsram, hbase]
  have hfields : ∀ f : Fld, f.addr = Reg.CFG_STATUS → (s.withStore k).getF f = t.getF f := fun f hf => by
    rw [State.getF, hf, hdelays.2.2 _ (by decide), hshow _ (by decide) (by decide), State.reg_congr hregs, ← hf, ← State.getF, hfld f hf]
  have hunbound : (s.withStore k).boundTo 1 = none := by
    rw [State.boundTo, hcfgs, hparts, hcfg, List.find?_eq_none.mpr fun o ho => by simpa using hbind o ho, Option.map_none]
  have heq : s.withConfig = s.withStore k := by
    unfold State.withConfig
    rw [hk]
    dsimp only
    rw [hunbound]
  rw [heq, hfields _ rfl, hfields _ rfl, hcfgs, hparts, hcfg]
  exact ⟨hloaded, hstore, rfl⟩

/-- CONFIG_LOAD in its phase. -/
theorem configLoad_loads {s : State} (hphase : s.mode.phase = .lanes) (hcur : s.cur ≠ 0) : Gives .configLoad s (fun t =>
    t.mode.phase = .configured ∧ ∀ k : Fin 2, s.chooseStore = some k.val → (s.storeOf k).records = [] →
      (∀ o ∈ (s.storeOf k).overlays, o.bind ≠ 1) →
      t.getF Reg.CFG_STATUS_LOADED = 1 ∧ t.getF Reg.CFG_STATUS_STORE = k.val ∧ t.cfg.params = (s.storeOf k).params) := by
  obtain ⟨hmode, hcfg⟩ := s.storesReported_spec
  have hexec := configLoad_exec hphase hcur
  generalize s.storesReported = s0 at hmode hcfg hexec
  have hconf : s0.withConfig.mode.phase = .configured := by rw [s0.withConfig_phase, hmode]
  have hcal := s0.withConfig.loadCalSet_control
  have hmarks := State.setFromMarks_status (s := s0.withConfig.loadCalSet) (by rw [hcal.1, hconf]; decide)
  have hlast := (State.SameStatus.of_control hcal).trans hmarks
  have hfld : ∀ f : Fld, f.addr = Reg.CFG_STATUS → s0.withConfig.loadCalSet.setFromMarks.getF f = s0.withConfig.getF f := fun f hf => by
    rw [State.getF, hf, hlast.2.2, ← hf, ← State.getF]
  refine ⟨_, hexec, by rw [hlast.1, hconf], fun k hk hrec hbind => ?_⟩
  have hstores : ∀ j, s0.storeOf j = s.storeOf j := State.storeOf_congr hcfg
  have hchoose : s0.chooseStore = some k.val := by
    rw [← hk, State.chooseStore, hstores, hstores, ← State.chooseStore]
  rw [hfld _ rfl, hfld _ rfl, hlast.2.1, ← hstores]
  exact State.withConfig_store hchoose (by rw [hstores]; exact hrec) (by rw [hstores]; exact hbind)

/-! ### The other phases of start-up (R42 to R48) -/

/-- The straps sampled into the words they give. -/
def State.strapped (s : State) (x : Straps) (v : W64) : State :=
  (((s.setReg Reg.SYS_STRAPS v).setF Reg.SYS_AUTH_L0 (x.auth.toNat / 4)).setF Reg.SYS_AUTH_SP (x.auth.toNat % 4)).setF Reg.PAIR_STAT_DESIG
    (b2n x.pairRole)

theorem State.strapped_spec (s : State) (x : Straps) (v : W64) :
    (s.strapped x v).getF Reg.SYS_AUTH_L0 = x.auth.toNat / 4 ∧ (s.strapped x v).getF Reg.SYS_AUTH_SP = x.auth.toNat % 4
      ∧ (s.strapped x v).getF Reg.PAIR_STAT_DESIG = if x.pairRole then 1 else 0 := by
  have hauth := x.auth.isLt
  refine ⟨?_, ?_, ?_⟩
  · rw [State.strapped, State.getF_setF_addr _ _ _ _ (by decide), State.getF_setF_beside _ Reg.SYS_AUTH_SP Reg.SYS_AUTH_L0 _ rfl (by decide) (by decide),
      State.getF_setF_self _ _ _ (by decide)]
    exact Nat.mod_eq_of_lt (show x.auth.toNat / 4 < 4 by omega)
  · rw [State.strapped, State.getF_setF_addr _ _ _ _ (by decide), State.getF_setF_self _ _ _ (by decide)]
    exact Nat.mod_eq_of_lt (show x.auth.toNat % 4 < 4 by omega)
  · rw [State.strapped, State.getF_setF_self _ _ _ (by decide)]
    cases x.pairRole <;> rfl

theorem startUp_samples {s : State} (x : Straps) (h : s.mode.phase = .held) : Gives (.startUp x true) s (fun t =>
    t.mode.phase = .straps ∧ t.getF Reg.SYS_AUTH_L0 = x.auth.toNat / 4 ∧ t.getF Reg.SYS_AUTH_SP = x.auth.toNat % 4
      ∧ t.getF Reg.PAIR_STAT_DESIG = (if x.pairRole then 1 else 0) ∧ { t with regs := s.regs, mode := s.mode } = s) := by
  have hexec : ∃ v last, exec (.startUp x true) s
      = .next { s.strapped x v with mode := { s.mode with phase := .straps, lastMark := last } } :=
    ⟨_, _, (if_pos ⟨h, rfl⟩ : execStartUp x true s = _)⟩
  obtain ⟨v, last, hexec⟩ := hexec
  obtain ⟨hl0, hsp, hdesig⟩ := s.strapped_spec x v
  exact ⟨_, hexec, rfl, hl0, hsp, hdesig, rfl⟩

theorem rootPllLock_locks {s : State} (h : s.mode.phase = .straps) : exec .rootPllLock s = .next { s with
    mode := { s.mode with phase := .locked }, fabric := { s.fabric with fastRefAt := some s.now, fastQuiet := s.now, fastSettled := false } } :=
  (if_pos h : execRootPllLock s = _)

theorem loaderDecision_loads {s : State} (h : s.mode.phase = .locked) (hcopy : s.copying = false) (hrec : s.upd.recover = false)
    (hpend : s.copyPending = false) (hrun : s.runUsable = true) :
    exec .loaderDecision s = .next { s with mode := { s.mode with phase := .loaded } } := by
  change execLoaderDecision s = _
  unfold execLoaderDecision
  rw [if_neg (by simp [h, hcopy]), if_neg (by simp [hrec]), if_neg (by simp [hpend]), if_pos hrun]
  rfl

theorem dramTraining_clears {s : State} (h : s.mode.phase = .configured) : exec .dramTraining s = .next { s with
    dram := [], poison := [], cap := { s.cap with mem := [], bad := [] }, mode := { s.mode with phase := .trained } } :=
  (if_pos h : execDramTraining s = _)

/-! The lanes' bring-up -/

/-- The state that a lane's bring-up begins in. -/
def State.firstLaneState (s : State) (l : Nat) : Nat :=
  if s.getF (Reg.LANE_CFG_EN l) = 0 then 0 else if s.getF (Reg.LANE_CFG_FIXRATE l) = 0 then 1 else 3

theorem State.bringUp_spec (s : State) (l : Nat) : (s.bringUp l).laneState l = s.firstLaneState l
    ∧ ∀ a, a ≠ Reg.LANE_STAT l → (s.bringUp l).reg a = s.reg a := by
  have hset : ∀ (t : State) (v : Nat), v < 16 → t.regs = s.regs → (t.setF (Reg.LANE_STAT_STATE l) v).laneState l = v
      ∧ ∀ a, a ≠ Reg.LANE_STAT l → (t.setF (Reg.LANE_STAT_STATE l) v).reg a = s.reg a := fun t v hv ht =>
    ⟨(State.getF_setF_self t (Reg.LANE_STAT_STATE l) v (show 3 < 64 by decide)).trans (Nat.mod_eq_of_lt hv),
      fun a ha => (State.reg_setF_ne t (Reg.LANE_STAT_STATE l) v ha).trans (State.reg_congr ht a)⟩
  unfold State.bringUp State.firstLaneState
  extract_lets x fix
  split
  · exact hset _ 0 (by decide) rfl
  split
  · exact hset _ 1 (by decide) rfl
  · exact hset _ 3 (by decide) rfl

theorem laneBringUp_begins {s : State} (h : s.mode.phase = .loaded) : Gives .laneBringUp s (fun t =>
    t.mode.phase = .lanes ∧ ∀ l : Fin 4, t.laneState l =
      (if s.getF (Reg.LANE_CFG_EN l) = 0 then 0 else if s.getF (Reg.LANE_CFG_FIXRATE l) = 0 then 1 else 3)) := by
  refine ⟨_, (if_pos h : execLaneBringUp s = _), ?_, fun l => ?_⟩
  · exact congrArg ModeSt.phase (State.foldl_mode (List.range 4) (fun t l => t.bringUp l) (s.toPhase .lanes) fun t l => t.bringUp_mode l)
  · have hne : ∀ y, y ≠ l.val → Reg.LANE_STAT l ≠ Reg.LANE_STAT y ∧ Reg.LANE_CFG l ≠ Reg.LANE_STAT y := fun y hy => by
      simp only [Reg.LANE_STAT, Reg.LANE_CFG]
      omega
    obtain ⟨t, ht, hfold⟩ := foldl_once (List.range 4) (fun t l => t.bringUp l) (s.toPhase .lanes)
      (fun t => (t.reg (Reg.LANE_STAT l), t.reg (Reg.LANE_CFG l))) (List.mem_range.mpr l.isLt) List.nodup_range
      fun u y _ hy => Prod.ext ((u.bringUp_spec y).2 _ (hne y hy).1) ((u.bringUp_spec y).2 _ (hne y hy).2)
    have hcfg : t.reg (Reg.LANE_CFG l) = s.reg (Reg.LANE_CFG l) := (Prod.ext_iff.mp ht).2
    have hstat := (Prod.ext_iff.mp hfold).1
    have hfirst : t.firstLaneState l = s.firstLaneState l := by
      have hfld : ∀ f : Fld, f.addr = Reg.LANE_CFG l → t.getF f = s.getF f := fun f hf => by rw [State.getF, hf, hcfg, ← hf, ← State.getF]
      rw [State.firstLaneState, hfld _ rfl, hfld _ rfl, ← State.firstLaneState]
    exact (congrArg (bits · 3 0) hstat).trans ((t.bringUp_spec l).1.trans hfirst)

/-! The programs, and the hub running -/

theorem State.nameFirst_unloaded {s : State} (h : s.getF Reg.CFG_STATUS_LOADED = 0) : s.nameFirst = s := if_pos (by simp [State.flag, h])

/-- The hub running from its image, with the wait for the initial set. -/
def State.runningFrom (s : State) : State :=
  let s1 := (s.setF Reg.UPD_VER_ACT (headerVersion s.runWord)).toPhase .running
  { s1 with mode := { s1.mode with
    setWaitEnd := if s1.unset then some (s1.clk.uptime + s1.cfg.params.tsetWait * 3200000000) else none } }

theorem programLoad_runs {s : State} (h : s.mode.phase = .trained) (hsect : (firmwareSections s.runWord).2 = true)
    (hload : s.getF Reg.CFG_STATUS_LOADED = 0) : Gives .programLoad s (fun t =>
      t.mode.phase = .running ∧ t.getF Reg.UPD_VER_ACT = headerVersion s.runWord
      ∧ t.mode.setWaitEnd = (if s.unset then some (s.clk.uptime + s.cfg.params.tsetWait * 3200000000) else none)) := by
  have hname : s.runningFrom.nameFirst = s.runningFrom := State.nameFirst_unloaded
    ((State.getF_setF_addr s Reg.UPD_VER_ACT Reg.CFG_STATUS_LOADED _ (by decide)).trans hload)
  have hexec : exec .programLoad s = .next s.runningFrom := by
    rw [← hname]
    change execProgramLoad s = _
    unfold execProgramLoad
    rw [if_neg (by simp [h]), if_neg (by simp [hsect]), if_neg (by simp [State.flag, hload])]
    rfl
  have hunset : ((s.setF Reg.UPD_VER_ACT (headerVersion s.runWord)).toPhase .running).unset = s.unset :=
    State.unset_congr fun a _ ha => State.reg_setF_ne s Reg.UPD_VER_ACT _ (Nat.ne_of_lt (Nat.lt_of_lt_of_le ha (by decide)))
  refine ⟨_, hexec, rfl, ?_, ?_⟩
  · refine (State.getF_setF_self s Reg.UPD_VER_ACT _ (by decide)).trans (Nat.mod_eq_of_lt ?_)
    exact Nat.mod_lt _ (by decide)
  · rw [← hunset]
    rfl

/-! The initial set from the time mark (R46, R48) -/

theorem State.nameStart_pushes (s : State) : State.Pushes 3 s s.nameStart := by
  have hdrop : ∀ u : State, u.dropAuto.evt = u.evt := fun u => by
    unfold State.dropAuto
    extract_lets c u1
    split <;> rfl
  unfold State.nameStart
  split
  · extract_lets early at_ m s1
    exact (State.Pushes.of_evt (t := s1.dropAuto) (hdrop s1)).trans (State.scheduleAuto_pushes _ _ _)
  · exact (State.Pushes.of_evt rfl).mono (by omega)

/-- The words of the TIME block stay when the first mode is named. -/
theorem State.nameStart_time (s : State) {a : Nat} (h : 0x300 ≤ a) : s.nameStart.reg a = s.reg a := by
  have hcfg : a ≠ Reg.CFG_STATUS := Nat.ne_of_gt (Nat.lt_of_lt_of_le (by decide) h)
  have hevt : evtReg a = false := by
    simp only [evtReg, Reg.EVT_INT, Reg.EVT_CNT, Bool.or_eq_false_iff, beq_eq_false_iff_ne]
    omega
  unfold State.nameStart
  split
  · extract_lets early at_ m s1
    exact (State.reg_scheduleAuto _ _ _ hevt hcfg).trans (State.reg_dropAuto _ hcfg)
  · rfl

theorem State.setTbState_pushes (s : State) (t v : Nat) : State.Pushes 4 s (s.setTbState t v) := by
  unfold State.setTbState
  extract_lets o x y s1 s2 c s3
  have h2 : s2.evt = s.evt := by
    simp only [s2]
    split <;> rfl
  have h3 : State.Pushes 3 s s3 := (State.Pushes.of_evt (t := s2.refreshClass t) h2).trans
    (State.pushes_log _ c t [BitVec.ofNat 64 o, BitVec.ofNat 64 v])
  split
  · exact (State.Pushes.of_evt rfl).mono (by omega)
  split
  · exact h3.trans (s3.pushes_log .FLT_OFFGRID t [])
  · exact h3.mono (by omega)

/-- A time base in a new state shows it, and TIME_CFG stays. -/
theorem State.setTbState_spec (s : State) (t : Nat) {v : Nat} (hv : v < 16) :
    (s.setTbState t v).tbState t = v ∧ (s.setTbState t v).sampTb = s.sampTb := by
  have hcfg : ∀ (u : State) (f : Fld) (x : Nat), f.addr = Reg.TB_STAT t → (u.setF f x).sampTb = u.sampTb := fun u f x hf => by
    refine State.getF_setF_addr u f Reg.TIME_CFG_SAMPLE_TB x ?_
    rw [hf]
    simp only [Reg.TIME_CFG_SAMPLE_TB, Reg.TIME_CFG, Reg.TB_STAT]
    omega
  have hbeside : ∀ (u : State) (f : Fld) (x : Nat), f.addr = Reg.TB_STAT t → 3 < f.lo → (u.setF f x).tbState t = u.tbState t := fun u f x hf hlo =>
    State.getF_setF_beside u f (Reg.TB_STAT_STATE t) x hf.symm (show 3 < 64 by decide) (Or.inl hlo)
  have hlog : ∀ (u : State) (c : Cond) (k : Nat) (l : List W64), (u.log c k l).tbState t = u.tbState t ∧ (u.log c k l).sampTb = u.sampTb := by
    intro u c k l
    have hstat : evtReg (Reg.TB_STAT t) = false := by
      simp only [evtReg, Reg.TB_STAT, Reg.EVT_INT, Reg.EVT_CNT, Bool.or_eq_false_iff, beq_eq_false_iff_ne]
      omega
    exact ⟨congrArg (bits · 3 0) (State.reg_log u c k l hstat), congrArg (bits · 1 0) (State.reg_log u c k l (by decide))⟩
  unfold State.setTbState
  extract_lets o x y s1 s2 c s3
  split
  next h => exact ⟨h, rfl⟩
  next =>
    have h1 : s1.tbState t = v ∧ s1.sampTb = s.sampTb :=
      ⟨(State.getF_setF_self _ (Reg.TB_STAT_STATE t) v (show 3 < 64 by decide)).trans (Nat.mod_eq_of_lt hv), hcfg _ (Reg.TB_STAT_STATE t) v rfl⟩
    have h2 : s2.tbState t = v ∧ s2.sampTb = s.sampTb := by
      simp only [s2]
      split
      · exact h1
      · exact ⟨(hbeside s1 (Reg.TB_STAT_REFPEND t) 0 rfl (show 3 < 29 by decide)).trans h1.1, (hcfg s1 (Reg.TB_STAT_REFPEND t) 0 rfl).trans h1.2⟩
    have h3 : s3.tbState t = v ∧ s3.sampTb = s.sampTb :=
      ⟨(hlog _ _ _ _).1.trans ((hbeside s2 (Reg.TB_STAT_CLASS t) _ rfl (show 3 < 40 by decide)).trans h2.1),
        (hlog _ _ _ _).2.trans ((hcfg s2 (Reg.TB_STAT_CLASS t) _ rfl).trans h2.2)⟩
    split
    · exact ⟨(hlog s3 _ _ _).1.trans h3.1, (hlog s3 _ _ _).2.trans h3.2⟩
    · exact h3

theorem State.reslot_frame (s : State) : s.reslot.evt = s.evt ∧ s.reslot.regs = s.regs := ⟨rfl, rfl⟩

/-- An initial set of the sampling time base from the mark logs no step back: the time, the slots anew, the state, the start. -/
theorem State.initialSet_sampling (s : State) (time : Nat) {v : Nat} (hv : v < 16) :
    s.initialSet s.sampTb time v true = ((s.setTb s.sampTb { s.tb s.sampTb with time := time }).reslot.setTbState s.sampTb v).nameStart := by
  rw [State.initialSet]
  have h0 : (s.setTb s.sampTb { s.tb s.sampTb with time := time }).regs = s.regs := rfl
  generalize s.setTb s.sampTb { s.tb s.sampTb with time := time } = s0 at h0
  have htb0 : s0.sampTb = s.sampTb := State.getF_congr h0 Reg.TIME_CFG_SAMPLE_TB
  have htb1 : (s0.reslot.setTbState s.sampTb v).sampTb = s.sampTb :=
    (State.setTbState_spec _ _ hv).2.trans ((State.getF_congr s0.reslot_frame.2 Reg.TIME_CFG_SAMPLE_TB).trans htb0)
  rw [if_pos htb0.symm, if_pos htb1.symm]
  rfl

/-- The initial set of the sampling time base from the mark: it is set, and at most seven records follow. -/
theorem State.setFromMark_sampling {s : State} (h : s.unset = true) :
    (s.setFromMark s.sampTb).unset = false ∧ State.Pushes 7 s (s.setFromMark s.sampTb) := by
  have hunset : s.tbState s.sampTb = 0 := beq_iff_eq.mp h
  have hx : s.setFromMark s.sampTb = _ := (if_pos hunset).trans (s.initialSet_sampling s.markTime (by decide))
  have hset : ∀ x, (s.setTb s.sampTb x).evt = s.evt ∧ (s.setTb s.sampTb x).regs = s.regs := fun x => ⟨rfl, rfl⟩
  have hframe := hset { s.tb s.sampTb with time := s.markTime }
  generalize s.setTb s.sampTb { s.tb s.sampTb with time := s.markTime } = s0 at hx hframe
  have hevt : s0.reslot.evt = s.evt := s0.reslot_frame.1.trans hframe.1
  have htb0 : s0.reslot.sampTb = s.sampTb := State.getF_congr (s0.reslot_frame.2.trans hframe.2) Reg.TIME_CFG_SAMPLE_TB
  generalize s0.reslot = t at hx hevt htb0
  obtain ⟨hstate, htb⟩ := t.setTbState_spec s.sampTb (v := 1) (by decide)
  have hpush := t.setTbState_pushes s.sampTb 1
  generalize t.setTbState s.sampTb 1 = u at hx hstate htb hpush
  rw [hx]
  refine ⟨?_, ((State.Pushes.of_evt hevt).trans hpush).trans u.nameStart_pushes⟩
  rw [State.unset_congr fun a ha _ => u.nameStart_time ha, State.unset, htb, htb0]
  exact beq_eq_false_iff_ne.mpr (by rw [← State.tbState, hstate]; decide)

theorem tsetWaitExpiry_sets {s : State} {t0 : Nat} (hend : s.mode.setWaitEnd = some t0) (hdue : t0 ≤ s.clk.uptime) (h : s.unset = true) :
    Gives .tsetWaitExpiry s (fun t => t.unset = false ∧ Logged s t .TIME_START_MARK s.sampTb 0 0) := by
  have hexec : exec .tsetWaitExpiry s = .next ((({ s with mode := { s.mode with setWaitEnd := none } } : State).log .TIME_START_MARK s.sampTb
      []).setFromMark s.sampTb) := by
    change execTsetWaitExpiry s = _
    unfold execTsetWaitExpiry
    rw [hend]
    exact (if_pos hdue).trans (if_pos h)
  generalize hs1 : ({ s with mode := { s.mode with setWaitEnd := none } } : State) = s1 at hexec
  have hsame : s1.regs = s.regs ∧ s1.clk = s.clk ∧ s1.evt = s.evt := by
    rw [← hs1]
    exact ⟨rfl, rfl, rfl⟩
  have hlog : ∀ a, 0x300 ≤ a → a < 0x400 → (s1.log .TIME_START_MARK s.sampTb []).reg a = s.reg a := fun a ha _ => by
    have hevt : evtReg a = false := by
      simp only [evtReg, Reg.EVT_INT, Reg.EVT_CNT, Bool.or_eq_false_iff, beq_eq_false_iff_ne]
      omega
    rw [State.reg_log _ _ _ _ hevt, State.reg_congr hsame.1]
  have htb : (s1.log .TIME_START_MARK s.sampTb []).sampTb = s.sampTb := congrArg (bits · 1 0) (hlog Reg.TIME_CFG (by decide) (by decide))
  obtain ⟨hset, hpush⟩ := State.setFromMark_sampling ((State.unset_congr hlog).trans h)
  rw [htb] at hset hpush
  refine ⟨_, hexec, hset, ?_⟩
  exact (State.logged_of_pushes s1 .all .TIME_START_MARK s.sampTb [] hpush (by decide)).of_same hsame.2.2
    (State.logSlot_congr (fun a _ _ => State.reg_congr hsame.1 a) hsame.2.1)

/-- A reset: the hub is held, its memories empty and its registers as after reset but those of the update areas; the flash and the
commands outside stay. -/
theorem reset_keepsFlash (s : State) : Gives .reset s (fun t =>
    t.mode.phase = .held ∧ t.sram = [] ∧ t.dram = [] ∧ t.engs = [] ∧ t.chans = [] ∧ t.pending = s.pending
    ∧ (∀ a, a ∉ [Reg.UPD_STAGE, Reg.UPD_STAT, Reg.UPD_SVER, Reg.UPD_VER] → t.reg a = Reg.resetValue a)
    ∧ t.cfg.stores = s.cfg.stores ∧ t.mode.marks = s.mode.marks ∧ t.upd.stage = s.upd.stage ∧ t.upd.run = s.upd.run
    ∧ t.upd.journal = s.upd.journal ∧ t.evt.flash = s.evt.flash ∧ t.calh.flash = s.calh.flash) := by
  refine ⟨s.resetHub, rfl, ?_⟩
  unfold State.resetHub
  extract_lets rel last st base evt0 mode0 cfg0 sw0 calh0 upd0 r r1 r2 r3
  have hr3 : ∃ m, r3 = { r with regs := m } ∧ ∀ a, a ≠ Reg.UPD_STAGE → a ≠ Reg.UPD_STAT → a ≠ Reg.UPD_SVER → r3.reg a = Reg.resetValue a := by
    have hr2 : ∀ a, a ≠ Reg.UPD_STAGE → a ≠ Reg.UPD_STAT → r2.reg a = Reg.resetValue a := fun a hstage hstat =>
      (State.reg_setF_ne _ _ _ hstat).trans ((State.reg_setF_ne _ _ _ hstat).trans (State.reg_setReg_ne _ _ hstage))
    simp only [r3]
    split
    · exact ⟨_, rfl, fun a hstage hstat hsver => (State.reg_setReg_ne _ _ hsver).trans (hr2 a hstage hstat)⟩
    · exact ⟨_, rfl, fun a hstage hstat _ => hr2 a hstage hstat⟩
  clear_value r3
  obtain ⟨m, hm, hreg⟩ := hr3
  have hregs : ∀ a, a ∉ [Reg.UPD_STAGE, Reg.UPD_STAT, Reg.UPD_SVER, Reg.UPD_VER] →
      (r3.setF Reg.UPD_VER_RUN (headerVersion s.runWord)).reg a = Reg.resetValue a := fun a ha => by
    simp only [List.mem_cons, List.not_mem_nil, or_false, not_or] at ha
    obtain ⟨hstage, hstat, hsver, hver⟩ := ha
    exact (State.reg_setF_ne _ _ _ hver).trans (hreg a hstage hstat hsver)
  refine ⟨?_, ?_, ?_, ?_, ?_, ?_, hregs, ?_, ?_, ?_, ?_, ?_, ?_, ?_⟩ <;> (rw [hm]; rfl)

/-- Settles O20: each phase of start-up by its own lemma, the reset by what `State.resetHub` puts on top of `State.reset`. -/
theorem startUpAndReset : Obligations.StartUpAndReset := by
  unfold Obligations.StartUpAndReset
  exact ⟨fun s => ⟨fun x => startUp_samples x, rootPllLock_locks, loaderDecision_loads, laneBringUp_begins, configLoad_loads,
    dramTraining_clears, programLoad_runs, fun t0 => tsetWaitExpiry_sets⟩, reset_keepsFlash⟩

end Sys2Proof.Machine

namespace Sys2Proof.Machine
open Sys2Proof

/-! ### Ramps, zero crossings and the crosspoint (R70, R75 to R77) -/

section
variable {c : Fin 384} {s : State}

theorem execExcitationRampEnd_up (hdue : (s.ch c).due ≤ s.now) (hd : (s.ch c).drive = .rampUp) :
    execExcitationRampEnd c s = .next (s.fullDrive c) := by
  unfold execExcitationRampEnd
  dsimp only
  rw [if_pos hdue, hd]

theorem execExcitationRampEnd_down (hdue : (s.ch c).due ≤ s.now) (hd : (s.ch c).drive = .rampDown) :
    execExcitationRampEnd c s = .next (s.cutDrive c) := by
  unfold execExcitationRampEnd
  dsimp only
  rw [if_pos hdue, hd]

end

theorem State.fullDrive_reaches (s : State) (c : Nat) :
    ((s.fullDrive c).ch c).drive = .on ∧ ((s.fullDrive c).ch c).level = (s.ch c).target ∧ s.OnlyChans (s.fullDrive c) :=
  ⟨by simp [State.fullDrive], by simp [State.fullDrive], rfl⟩

theorem State.cutDrive_cuts (s : State) (c : Nat) : ((s.cutDrive c).ch c).Cut ∧ s.OnlyChans (s.cutDrive c) :=
  ⟨by simp [State.cutDrive, ChanSt.Cut], rfl⟩

/-- A channel at slot n, in a bank whose carrier began at slot s0: a zero crossing of the carrier of its drive falls there. -/
def ChanSt.crosses (x : ChanSt) (s0 n : Nat) : Bool := x.ac && zeroCrossing s0 x.k n

/-- The step of CARRIER_ZERO_CROSSING for one channel. -/
def State.crossChan (s0 n : Nat) (s : State) (c : Nat) : State :=
  if (s.ch c).crosses s0 n then
    match (s.ch c).drive with
    | .waitStart | .waitLevel => s.fullDrive c
    | .waitStop => s.cutDrive c
    | _ => s
  else s

theorem execCarrierZeroCrossing_eq (b : Fin 24) (s : State) :
    execCarrierZeroCrossing b s = .next ((bankChans b).foldl (State.crossChan (s.reg (Reg.BANK_PHASE b)).toNat s.now) s) := rfl

/-- What a zero crossing makes of channel x: a drive that waits for it starts, takes its level or stops. -/
structure ChanSt.Crossed (s0 n : Nat) (x y : ChanSt) : Prop where
  takes : x.crosses s0 n = true → x.drive = .waitStart ∨ x.drive = .waitLevel → y.drive = .on ∧ y.level = x.target
  stops : x.crosses s0 n = true → x.drive = .waitStop → y.drive = .off ∧ y.level = 0
  stays : x.crosses s0 n = false → y = x

section
variable {s0 n : Nat} {s : State} {c : Nat}

theorem State.crossChan_takes (h : (s.ch c).crosses s0 n = true) (hd : (s.ch c).drive = .waitStart ∨ (s.ch c).drive = .waitLevel) :
    s.crossChan s0 n c = s.fullDrive c := by
  rw [State.crossChan, if_pos h]
  rcases hd with hd | hd <;> rw [hd]

theorem State.crossChan_stops (h : (s.ch c).crosses s0 n = true) (hd : (s.ch c).drive = .waitStop) : s.crossChan s0 n c = s.cutDrive c := by
  rw [State.crossChan, if_pos h, hd]

theorem State.crossChan_stays (h : (s.ch c).crosses s0 n = false) : s.crossChan s0 n c = s := if_neg (by simp [h])

end

/-- The step for a channel replaces that channel only. -/
theorem State.crossChan_sets (s0 n : Nat) (s : State) (c : Nat) : s.crossChan s0 n c = s ∨ ∃ x, s.crossChan s0 n c = s.setCh c x := by
  unfold State.crossChan
  split
  · split
    · exact .inr ⟨_, rfl⟩
    · exact .inr ⟨_, rfl⟩
    · exact .inr ⟨_, rfl⟩
    · exact .inl rfl
  · exact .inl rfl

theorem State.crossChan_only (s0 n : Nat) (s : State) (c : Nat) : s.OnlyChans (s.crossChan s0 n c) := by
  obtain h | ⟨x, h⟩ := s.crossChan_sets s0 n c
  · rw [h]
  · rw [h]
    rfl

theorem State.crossChan_ch_ne (s0 n : Nat) (s : State) {c k : Nat} (hk : k ≠ c) : (s.crossChan s0 n c).ch k = s.ch k := by
  obtain h | ⟨x, h⟩ := s.crossChan_sets s0 n c
  · rw [h]
  · rw [h, State.ch_setCh_ne s x hk]

theorem State.crossChan_crossed (s0 n : Nat) (s : State) (c : Nat) : ChanSt.Crossed s0 n (s.ch c) ((s.crossChan s0 n c).ch c) where
  takes h hd := by
    obtain ⟨hon, hlevel, -⟩ := s.fullDrive_reaches c
    rw [State.crossChan_takes h hd]
    exact ⟨hon, hlevel⟩
  stops h hd := by
    obtain ⟨⟨hoff, hlevel, -⟩, -⟩ := s.cutDrive_cuts c
    rw [State.crossChan_stops h hd]
    exact ⟨hoff, hlevel⟩
  stays h := by rw [State.crossChan_stays h]

/-- CARRIER_ZERO_CROSSING: every channel of the bank as its drive waits, no other channel, and nothing but channels. -/
theorem carrierZeroCrossing_crosses (b : Fin 24) (s : State) : ∃ t, execCarrierZeroCrossing b s = .next t
    ∧ (∀ k ∈ bankChans b, ChanSt.Crossed (s.reg (Reg.BANK_PHASE b)).toNat s.now (s.ch k) (t.ch k))
    ∧ (∀ k, k ∉ bankChans b → t.ch k = s.ch k) ∧ s.OnlyChans t := by
  generalize hs0 : (s.reg (Reg.BANK_PHASE b)).toNat = s0
  obtain ⟨honly, hin, hout⟩ := State.foldl_ch (State.crossChan s0 s.now) (s.OnlyChans ·) (fun _ => ChanSt.Crossed s0 s.now)
    (fun t c h => h.trans (t.crossChan_only s0 s.now c)) (fun t c _ => t.crossChan_crossed s0 s.now c)
    (fun t c k hk => t.crossChan_ch_ne s0 s.now hk) (bankChans b) (bankChans_nodup b) s rfl
  exact ⟨_, hs0 ▸ execCarrierZeroCrossing_eq b s, hin, hout, honly⟩

theorem mem_bankChans_iff (b c : Nat) : c ∈ bankChans b ↔ c / 16 = b := by
  simp only [bankChans, List.mem_map, List.mem_range]
  constructor
  · rintro ⟨p, hp, rfl⟩
    omega
  · intro h
    exact ⟨c % 16, by omega, by omega⟩

section
variable {b : Fin 24} {s : State}

/-- CROSSPOINT_SWITCH to another position: the spare takes it with the settings of its channel. -/
theorem execCrosspointSwitch_connects (hconn : s.effF (Reg.BANK_SPARE_CONN b) = 1)
    (hxp : (s.bk b).xp ≠ some (s.effF (Reg.BANK_SPARE_POS b))) :
    let c := 16 * b.val + s.effF (Reg.BANK_SPARE_POS b)
    ∃ x : BankSt, x.xp = some (s.effF (Reg.BANK_SPARE_POS b)) ∧ x.xpSettle = s.now + settleSlots (s.effF (Reg.CH_CFG_AAF c))
      ∧ x.spareAaf = s.effF (Reg.CH_CFG_AAF c) ∧ x.spareRange = s.effF (Reg.CH_CFG_RANGE c)
      ∧ execCrosspointSwitch b s = .next (s.setBk b x) := by
  have hflag : s.effFlag (Reg.BANK_SPARE_CONN b) = true := by simp [State.effFlag, hconn]
  unfold execCrosspointSwitch
  rw [hflag]
  exact ⟨_, rfl, rfl, rfl, rfl, if_neg hxp⟩

/-- CROSSPOINT_SWITCH without a position: the spare leaves its pair. -/
theorem execCrosspointSwitch_leaves (hconn : s.effF (Reg.BANK_SPARE_CONN b) = 0) (hxp : (s.bk b).xp ≠ none) :
    ∃ x : BankSt, x.xp = none ∧ execCrosspointSwitch b s = .next (s.setBk b x) := by
  have hflag : s.effFlag (Reg.BANK_SPARE_CONN b) = false := by simp [State.effFlag, hconn]
  unfold execCrosspointSwitch
  rw [hflag]
  exact ⟨_, rfl, if_neg hxp⟩

end

/-- Settles O17: the ramp's end by its two cases, the zero crossing as a fold over the channels of the bank, the crosspoint by CONN. -/
theorem driveTransitions : Obligations.DriveTransitions := by
  unfold Obligations.DriveTransitions
  refine ⟨fun c s hdue hd => ?_, fun c s hdue hd => ?_, fun b s => ?_, fun b s => ?_, fun b s hconn hxp => ?_⟩
  · exact ⟨_, execExcitationRampEnd_up hdue hd, s.fullDrive_reaches c⟩
  · obtain ⟨⟨hoff, hlevel, -⟩, honly⟩ := s.cutDrive_cuts c
    exact ⟨_, execExcitationRampEnd_down hdue hd, hoff, hlevel, honly⟩
  · obtain ⟨t, ht, hin, hout, honly⟩ := carrierZeroCrossing_crosses b s
    refine ⟨t, ht, fun p => ?_, fun c hc => hout c (mt (mem_bankChans_iff b c).mp hc), honly⟩
    intro c x here
    obtain ⟨htakes, hstops, hstays⟩ := hin c ((mem_bankChans_iff b c).mpr (by omega))
    have hhere : x.crosses (s.reg (Reg.BANK_PHASE b)).toNat s.now = true ↔ here := Bool.and_eq_true_iff
    exact ⟨fun h => htakes (hhere.mpr h), fun h => hstops (hhere.mpr h), fun h => hstays (by rwa [← Bool.not_eq_true, hhere])⟩
  · intro p aaf hconn hxp
    obtain ⟨x, hpos, hsettle, haaf, hrange, ht⟩ := execCrosspointSwitch_connects hconn hxp
    refine ⟨_, ht, ?_⟩
    beta_reduce
    rw [State.bk_setBk_self]
    exact ⟨hpos, hsettle, haaf, hrange, fun d hd => State.bk_setBk_ne s _ hd, rfl⟩
  · obtain ⟨x, hx, ht⟩ := execCrosspointSwitch_leaves hconn hxp
    exact ⟨_, ht, by rwa [State.bk_setBk_self], rfl⟩

end Sys2Proof.Machine

namespace Sys2Proof.Machine
open Sys2Proof

/-! ### The status word of a channel -/

theorem evtReg_chStatus (c : Nat) : evtReg (Reg.CH_STATUS c) = false := evtReg_of_ge (by simp only [Reg.CH_STATUS]; omega)

/-- A record's stamp does not depend on the words of the banks and channels. -/
theorem State.logSlot_congr_of_lt {s t : State} (hreg : ∀ a < 0x1000, t.reg a = s.reg a) (hclk : t.clk = s.clk) : t.logSlot = s.logSlot :=
  State.logSlot_congr (fun a _ ha => hreg a (by omega)) hclk

section
variable {c : Nat} {f : Fld} (hf : f.addr = Reg.CH_STATUS c) (s : State)
include hf

theorem State.getF_log_chStatus (cond : Cond) (u : Nat) (l : List W64) : (s.log cond u l).getF f = s.getF f :=
  State.getF_log s cond u l f (hf ▸ evtReg_chStatus c)

theorem State.reg_setF_chStatus (v : Nat) {a : Nat} (ha : a < 0x1000) : (s.setF f v).reg a = s.reg a :=
  State.reg_setF_ne s f v (by simp only [hf, Reg.CH_STATUS]; omega)

end

/-- A one-bit field read after it is written. -/
theorem State.getF_setF_flag (s : State) {f : Fld} (hhi : f.hi < 64) (hone : f.hi = f.lo) (b : Bool) : (s.setF f (b2n b)).getF f = b2n b := by
  rw [State.getF_setF_self s f _ hhi, hone, Nat.add_sub_cancel_left]
  cases b <;> rfl

/-! ### Trips (R76, R89 to R91) -/

/-- The hub with channel c replaced by y, DRIVE_OFF set and the trip counted. -/
def State.driveOff (s : State) (c : Nat) (y : ChanSt) : State := ((s.setCh c y).setF (Reg.CH_STATUS_DRIVE_OFF c) 1).bump (Reg.CH_STATUS_TRIPS c)

/-- A trip takes the drive off and sets the latch, which is logged, where the run of trips is full. -/
theorem State.trip_cases (s : State) (c t : Nat) : ∃ y : ChanSt, y.drive.driving = false ∧ y.level = 0
    ∧ (s.trip c t = s.driveOff c y
      ∨ s.trip c t = ((s.driveOff c y).setF (Reg.CH_STATUS_EX_LATCH c) 1).log .EX_LATCHED c [BitVec.ofNat 64 t]) := by
  unfold State.trip
  extract_lets x run retry latch y s1
  refine ⟨y, ?_, rfl, ?_⟩
  · unfold y
    cases latch <;> rfl
  · cases latch
    · exact .inl rfl
    · exact .inr rfl

/-- From s to t the drive of channel c has been removed: what stands below EX_LATCH in its status stays, and so do the newest records. -/
structure State.Removes (s t : State) (c : Nat) : Prop where
  drive : (t.ch c).drive.driving = false
  level : (t.ch c).level = 0
  off   : t.getF (Reg.CH_STATUS_DRIVE_OFF c) = 1
  below : ∀ f : Fld, f.addr = Reg.CH_STATUS c → f.hi < 10 → t.getF f = s.getF f
  log   : State.Pushes 2 s t

theorem State.driveOff_removes (s : State) (c : Nat) {y : ChanSt} (hd : y.drive.driving = false) (hl : y.level = 0) :
    s.Removes (s.driveOff c y) c := by
  have hch : (s.driveOff c y).ch c = y := s.ch_setCh_self c y
  refine ⟨by rwa [hch], by rwa [hch], ?_, fun f hf hhi => ?_, (State.Pushes.of_evt rfl).mono (Nat.zero_le 2)⟩
  · refine (State.getF_setF_beside _ (Reg.CH_STATUS_TRIPS c) (Reg.CH_STATUS_DRIVE_OFF c) _ rfl (by decide : 11 < 64)
      (.inl (by decide : 11 < 56))).trans ?_
    exact State.getF_setF_flag _ (by decide : 11 < 64) rfl true
  · refine (State.getF_setF_beside _ (Reg.CH_STATUS_TRIPS c) f _ hf (by omega) (.inl (by omega : f.hi < 56))).trans ?_
    exact State.getF_setF_beside _ (Reg.CH_STATUS_DRIVE_OFF c) f 1 hf (by omega) (.inl (by omega : f.hi < 11))

theorem State.Removes.latched {s t : State} {c : Nat} (h : s.Removes t c) (hlog : State.Pushes 0 s t) (n : Nat) :
    s.Removes ((t.setF (Reg.CH_STATUS_EX_LATCH c) 1).log .EX_LATCHED c [BitVec.ofNat 64 n]) c := by
  have hch : ((t.setF (Reg.CH_STATUS_EX_LATCH c) 1).log .EX_LATCHED c [BitVec.ofNat 64 n]).ch c = t.ch c := by
    rw [State.ch, State.log_chans]
    rfl
  refine ⟨by rw [hch]; exact h.drive, by rw [hch]; exact h.level, ?_, fun f hf hhi => ?_, ?_⟩
  · rw [State.getF_log_chStatus rfl, State.getF_setF_beside t (Reg.CH_STATUS_EX_LATCH c) (Reg.CH_STATUS_DRIVE_OFF c) 1 rfl
      (by decide : 11 < 64) (.inr (by decide : 10 < 11))]
    exact h.off
  · rw [State.getF_log_chStatus hf, State.getF_setF_beside t (Reg.CH_STATUS_EX_LATCH c) f 1 hf (by omega) (.inl hhi)]
    exact h.below f hf hhi
  · have hset : State.Pushes 0 t (t.setF (Reg.CH_STATUS_EX_LATCH c) 1) := .of_evt rfl
    exact (hlog.trans hset).trans (State.pushes_log _ .EX_LATCHED c [BitVec.ofNat 64 n])

theorem State.trip_removes (s : State) (c t : Nat) : s.Removes (s.trip c t) c := by
  obtain ⟨y, hd, hl, h | h⟩ := s.trip_cases c t
  · rw [h]
    exact s.driveOff_removes c hd hl
  · rw [h]
    exact (s.driveOff_removes c hd hl).latched (.of_evt rfl) t

/-- A condition of channel c in the present slot: it is logged, the field f that remembers it is set and the drive is tripped. -/
def State.tripFor (s : State) (c : Nat) (cond : Cond) (f : Fld) : State := ((s.log cond c [BitVec.ofNat 64 s.now]).setF f 1).trip c s.now

theorem State.tripFor_removes (s : State) (c : Nat) (cond : Cond) {f : Fld} (hf : f.addr = Reg.CH_STATUS c) (hhi : f.hi < 10)
    (hone : f.hi = f.lo) :
    ((s.tripFor c cond f).ch c).drive.driving = false ∧ ((s.tripFor c cond f).ch c).level = 0
      ∧ (s.tripFor c cond f).getF (Reg.CH_STATUS_DRIVE_OFF c) = 1 ∧ (s.tripFor c cond f).getF f = 1
      ∧ Logged s (s.tripFor c cond f) cond c (BitVec.ofNat 64 s.now) 0 := by
  obtain ⟨hdrive, hlevel, hoff, hbelow, hlog⟩ := ((s.log cond c [BitVec.ofNat 64 s.now]).setF f 1).trip_removes c s.now
  refine ⟨hdrive, hlevel, hoff, (hbelow f hf hhi).trans ?_, ?_⟩
  · exact State.getF_setF_flag _ (by omega) hone true
  · exact s.logged_of_pushes .all cond c [BitVec.ofNat 64 s.now] ((State.Pushes.of_evt rfl).trans hlog) (by simp)

/-! ### The supervisor at the end of a slot (R80, R89, R90) -/

/-- The conductance changes neither the drive nor the energy window. -/
theorem ChanSt.conduct_keeps (x : ChanSt) (on : Bool) (level now : Nat) (e q h : Int) :
    (x.conduct on level now e q h).drive = x.drive ∧ (x.conduct on level now e q h).level = x.level
      ∧ (x.conduct on level now e q h).win = x.win := by
  unfold ChanSt.conduct
  split
  · exact ⟨rfl, rfl, rfl⟩
  · split <;> exact ⟨rfl, rfl, rfl⟩

/-- From s to t the supervisor has measured channel c: the energy window is w, the slot ended at vEnd, ILIM shows the limiter, and nothing changed
but the channel and its status word. -/
structure State.Measured (s t : State) (c : Nat) (w : List Int) (vEnd : Int) (limiter : Bool) : Prop where
  win    : (t.ch c).win = w
  drive  : (t.ch c).drive = (s.ch c).drive
  level  : (t.ch c).level = (s.ch c).level
  ended  : (t.ch c).vEnd = vEnd
  ilim   : t.getF (Reg.CH_STATUS_ILIM c) = b2n limiter
  others : ∀ d, d ≠ c → t.ch d = s.ch d
  words  : ∀ a, a ≠ Reg.CH_STATUS c → t.reg a = s.reg a
  frame  : ∃ x m, t = { s with chans := x, regs := m }

section
variable {s t : State} {c : Nat} {w : List Int} {vEnd : Int} {limiter : Bool} (h : s.Measured t c w vEnd limiter)
include h

theorem State.Measured.clk : t.clk = s.clk := by
  obtain ⟨x, m, ht⟩ := h.frame
  rw [ht]

theorem State.Measured.evt : t.evt = s.evt := by
  obtain ⟨x, m, ht⟩ := h.frame
  rw [ht]

theorem State.Measured.logSlot : t.logSlot = s.logSlot :=
  State.logSlot_congr_of_lt (fun a ha => h.words a (by simp only [Reg.CH_STATUS]; omega)) h.clk

theorem State.Measured.only : { t with chans := s.chans, regs := s.regs } = s := by
  obtain ⟨x, m, ht⟩ := h.frame
  rw [ht]

end

/-- SUPERVISOR_EVALUATION: the slot is measured; a driven channel whose window exceeds PO is then tripped. -/
theorem execSupervisorEvaluation_spec (c : Fin 384) (energy : Int) (square : Nat) (vEnd : Int) (limiter : Bool) (s : State) :
    let w := (energy :: (s.ch c).win).take 250
    ∃ t : State, s.Measured t c w vEnd limiter ∧ execSupervisorEvaluation c energy square vEnd limiter s =
      if (s.ch c).drive.driving && decide (((50000 * s.effF (Reg.CH_EXCFG_PO c) : Nat) : Int) < w.sum) then
        .next (t.tripFor c .EX_LIMIT (Reg.CH_STATUS_LIMIT_SEEN c))
      else .next t := by
  unfold execSupervisorEvaluation
  extract_lets w x0 _ x w' s1
  obtain ⟨hdrive, hlevel, hwin⟩ : x.drive = x0.drive ∧ x.level = x0.level ∧ x.win = x0.win := x0.conduct_keeps _ _ _ _ _ _
  have hw : w' = w := congrArg (fun l => (energy :: l).take 250) hwin
  have hch : s1.ch c = { x with
      win := w', limRun := if limiter then x.limRun + 1 else 0, lastOn := if x.drive.driving then some s.now else x.lastOn
      exlim := if limiter then (s.now, s.now) :: x.exlim else x.exlim } := s.ch_setCh_self c _
  have hilim : s1.getF (Reg.CH_STATUS_ILIM c) = b2n limiter := State.getF_setF_flag _ (by decide : 12 < 64) rfl limiter
  refine ⟨s1, ⟨by rw [hch, ← hw], by rw [hch, ← hdrive], by rw [hch, ← hlevel], by rw [hch], hilim,
    fun d hd => State.ch_setCh_ne s _ hd, fun a ha => State.reg_setF_ne _ (Reg.CH_STATUS_ILIM c) _ ha, ⟨_, _, rfl⟩⟩, ?_⟩
  rw [hdrive, hw]
  rfl

section
variable (c : Fin 384) {energy : Int} (square : Nat) (vEnd : Int) (limiter : Bool) {s : State}

/-- A channel within its power, or not driven, is measured only. -/
theorem execSupervisorEvaluation_within
    (h : ((energy :: (s.ch c).win).take 250).sum ≤ ((50000 * s.effF (Reg.CH_EXCFG_PO c) : Nat) : Int) ∨ (s.ch c).drive.driving = false) :
    ∃ t : State, s.Measured t c ((energy :: (s.ch c).win).take 250) vEnd limiter
      ∧ execSupervisorEvaluation c energy square vEnd limiter s = .next t := by
  obtain ⟨t, ht, hexec⟩ := execSupervisorEvaluation_spec c energy square vEnd limiter s
  refine ⟨t, ht, hexec.trans (if_neg ?_)⟩
  rw [Bool.and_eq_true, decide_eq_true_eq, not_and_or, Int.not_lt, Bool.not_eq_true]
  exact h.symm

/-- A driven channel beyond its power is tripped, and the record is the first one logged. -/
theorem execSupervisorEvaluation_beyond (hd : (s.ch c).drive.driving = true)
    (h : ((50000 * s.effF (Reg.CH_EXCFG_PO c) : Nat) : Int) < ((energy :: (s.ch c).win).take 250).sum) :
    ∃ t : State, execSupervisorEvaluation c energy square vEnd limiter s = .next t
      ∧ (t.ch c).drive.driving = false ∧ (t.ch c).level = 0 ∧ t.getF (Reg.CH_STATUS_DRIVE_OFF c) = 1
      ∧ t.getF (Reg.CH_STATUS_LIMIT_SEEN c) = 1 ∧ Logged s t .EX_LIMIT c (BitVec.ofNat 64 s.now) 0 := by
  obtain ⟨u, hu, hexec⟩ := execSupervisorEvaluation_spec c energy square vEnd limiter s
  obtain ⟨hdrive, hlevel, hoff, hseen, hlog⟩ := u.tripFor_removes c .EX_LIMIT (f := Reg.CH_STATUS_LIMIT_SEEN c) rfl (by decide : 5 < 10) rfl
  rw [State.now, hu.clk] at hlog
  refine ⟨_, hexec.trans (if_pos ?_), hdrive, hlevel, hoff, hseen,
    hlog.of_same hu.evt hu.logSlot⟩
  rw [Bool.and_eq_true, decide_eq_true_eq]
  exact ⟨hd, h⟩

end

/-- EX_SHORT of a driven channel whose limiter stood for 64 slots. -/
theorem execExShort_trips {c : Fin 384} {s : State} (hrun : 64 ≤ (s.ch c).limRun) (hd : (s.ch c).drive.driving = true) :
    execExShort c s = .next (s.tripFor c .EX_SHORT (Reg.CH_STATUS_SHORT_SEEN c)) := if_pos ⟨hrun, hd⟩

/-! ### The drive begins (R76, R80, R91) -/

/-- From s to t the drive of channel c has begun. -/
structure State.Begins (s t : State) (c : Nat) (start : Bool) : Prop where
  drive  : (t.ch c).drive = if s.exMode (c / 16) = 2 then .waitStart else .rampUp
  target : (t.ch c).target = s.effF (Reg.CH_EXCFG_LEVEL c)
  gRef   : (t.ch c).gRef = if start then none else (s.ch c).gRef
  run    : (t.ch c).runTrips = (s.ch c).runTrips
  off    : t.getF (Reg.CH_STATUS_DRIVE_OFF c) = 0
  latch  : t.getF (Reg.CH_STATUS_EX_LATCH c) = s.getF (Reg.CH_STATUS_EX_LATCH c)

theorem State.getF_clear_driveOff (s : State) (c : Nat) : (s.setF (Reg.CH_STATUS_DRIVE_OFF c) 0).getF (Reg.CH_STATUS_DRIVE_OFF c) = 0 :=
  State.getF_setF_flag s (by decide : 11 < 64) rfl false

theorem State.getF_latch_beside (s : State) (c v : Nat) :
    (s.setF (Reg.CH_STATUS_DRIVE_OFF c) v).getF (Reg.CH_STATUS_EX_LATCH c) = s.getF (Reg.CH_STATUS_EX_LATCH c) :=
  State.getF_setF_beside s _ (Reg.CH_STATUS_EX_LATCH c) v rfl (by decide : 10 < 64) (.inl (by decide : 10 < 11))

theorem State.beginDrive_begins (s : State) (c : Nat) (start : Bool) : s.Begins (s.beginDrive c start) c start := by
  unfold State.beginDrive
  extract_lets x lvl fresh y b
  have hch : (((s.setCh c y).setBk b { s.bk b with factor := 1048576 }).setF (Reg.CH_STATUS_DRIVE_OFF c) 0).ch c = y := s.ch_setCh_self c y
  exact ⟨by rw [hch]; rfl, by rw [hch], by rw [hch], by rw [hch], State.getF_clear_driveOff _ c, State.getF_latch_beside _ c 0⟩

/-- EXCITATION_RETRY after the hold-off of a drive that may stand. -/
theorem execExcitationRetry_due {c : Fin 384} {s : State} {t0 : Nat} (hat : (s.ch c).retryAt = some t0) (hdue : t0 ≤ s.now)
    (hd : (s.ch c).drive = .removed) (hmay : s.mayDrive c = true) : execExcitationRetry c s = .next (s.beginDrive c false) := by
  unfold execExcitationRetry
  rw [hat]
  exact if_pos ⟨hdue, hd, hmay⟩

/-- TRIP_RUN_END 10 s after the last trip. -/
theorem execTripRunEnd_due {c : Fin 384} {s : State} {t0 : Nat} (hlast : (s.ch c).lastTrip = some t0) (hdue : t0 + 2500000 ≤ s.now) :
    execTripRunEnd c s = .next (s.setCh c { s.ch c with runTrips := 0, lastTrip := none }) := by
  unfold execTripRunEnd
  dsimp only
  rw [hlast]
  exact if_pos hdue

/-! ### The latch cleared (R91) -/

/-- DRIVE_OFF has no say in whether a drive may stand. -/
theorem State.mayDrive_setDriveOff (s : State) (c v : Nat) : (s.setF (Reg.CH_STATUS_DRIVE_OFF c) v).mayDrive c = s.mayDrive c := by
  have hctl : s.SameControl (s.setF (Reg.CH_STATUS_DRIVE_OFF c) v) :=
    .setF s _ v (ctlWord_of_ge (by simp only [Reg.CH_STATUS_DRIVE_OFF, Reg.CH_STATUS]; omega))
  have hen : (s.setF (Reg.CH_STATUS_DRIVE_OFF c) v).effF (Reg.CH_EXCFG_EXEN c) = s.effF (Reg.CH_EXCFG_EXEN c) :=
    s.effF_setF_addr _ (Reg.CH_EXCFG_EXEN c) v
      (by simp only [Reg.CH_EXCFG_EXEN, Reg.CH_EXCFG, Reg.CH_STATUS_DRIVE_OFF, Reg.CH_STATUS]; omega)
  have hprior : (s.setF (Reg.CH_STATUS_DRIVE_OFF c) v).prior = s.prior := hctl.getF Reg.SYS_MODE_PRIOR (by decide)
  have hex : (s.setF (Reg.CH_STATUS_DRIVE_OFF c) v).exMode (chBank c) = s.exMode (chBank c) := s.exMode_setStatus _ c _ v rfl
  simp only [State.mayDrive, State.effFlag, State.flag, State.bankExcited, State.exciting, hen, hprior, hctl.cur, State.setF_pair, hex,
    s.getF_latch_beside]

/-- The hub with the latch of channel c cleared, before its drive starts. -/
def State.unlatched (s : State) (c : Nat) : State :=
  ((s.setCh c { s.ch c with drive := .off, runTrips := 0, lastTrip := none }).setF (Reg.CH_STATUS_EX_LATCH c) 0).setF (Reg.CH_STATUS_DRIVE_OFF c) 0

theorem State.clearLatch_latched {s : State} {c : Nat} (h : s.getF (Reg.CH_STATUS_EX_LATCH c) = 1) :
    s.clearLatch c = (s.unlatched c).startDrive c := if_pos (by simp [State.flag, h])

/-- A latch cleared: LATCH and DRIVE_OFF read 0, the run of trips is forgotten, and a drive that may not stand is off. -/
theorem State.clearLatch_clears {s : State} {c : Nat} (h : s.getF (Reg.CH_STATUS_EX_LATCH c) = 1) :
    (s.clearLatch c).getF (Reg.CH_STATUS_EX_LATCH c) = 0 ∧ (s.clearLatch c).getF (Reg.CH_STATUS_DRIVE_OFF c) = 0
      ∧ ((s.clearLatch c).ch c).runTrips = 0
      ∧ ((s.setF (Reg.CH_STATUS_EX_LATCH c) 0).mayDrive c = false → ((s.clearLatch c).ch c).drive = .off) := by
  have hch : (s.unlatched c).ch c = { s.ch c with drive := .off, runTrips := 0, lastTrip := none } := s.ch_setCh_self c _
  have hlatch : (s.unlatched c).getF (Reg.CH_STATUS_EX_LATCH c) = 0 :=
    (State.getF_latch_beside _ c 0).trans (State.getF_setF_flag _ (by decide : 10 < 64) rfl false)
  have hmay : (s.unlatched c).mayDrive c = (s.setF (Reg.CH_STATUS_EX_LATCH c) 0).mayDrive c := State.mayDrive_setDriveOff _ c 0
  rw [State.clearLatch_latched h, State.startDrive]
  split
  next hon =>
    obtain ⟨-, -, -, hrun, hoff, hkeep⟩ := (s.unlatched c).beginDrive_begins c true
    exact ⟨hkeep.trans hlatch, hoff, by rw [hrun, hch], fun hno => absurd (hmay.symm.trans hon) (by simp [hno])⟩
  next => exact ⟨hlatch, State.getF_clear_driveOff _ c, by rw [hch], fun _ => by rw [hch]⟩

section
variable {port : Port} {c : Fin 384} {s : State}

theorem execLatchClear_closed (h : s.portOpen port (Reg.CH_STATUS c) = false) : execLatchClear port c s = .next s := if_neg (by simp [h])

theorem execLatchClear_clears (h : s.portOpen port (Reg.CH_STATUS c) = true) (hclass : 1 ≤ s.classOf port) :
    execLatchClear port c s = .next (s.clearLatch c) := (if_pos h).trans (if_neg (Nat.not_lt.mpr hclass))

theorem execLatchClear_denied (h : s.portOpen port (Reg.CH_STATUS c) = true) (hclass : s.classOf port = 0) :
    execLatchClear port c s = .next (s.logRefusal .SYS_AUTH_DENIED c (Reg.CH_STATUS c) port) := (if_pos h).trans (if_pos (by simp [hclass]))

end

/-! ### G_ref and C_ref (R80) -/

/-- The unique least-squares solution of a fit whose determinant is positive. -/
def Fit.solution (f : Fit) : GRef := { g := f.eq * f.hh - f.eh * f.qh, c := f.eh * f.qq - f.eq * f.qh, det := f.qq * f.hh - f.qh * f.qh }

/-- GREF_LEARNED 64 slots after a start: the references are set, to the solution where it is unique. -/
theorem execGrefLearned_due {c : Fin 384} {s : State} {t0 : Nat} (hat : (s.ch c).startAt = some t0) (hdue : t0 + 64 ≤ s.now)
    (hnone : (s.ch c).gRef = none) :
    ∃ (r : GRef) (n : Nat), (0 < (s.ch c).fit.solution.det → r = (s.ch c).fit.solution)
      ∧ execGrefLearned c s = .next ({ s with fresh := n }.setCh c { s.ch c with gRef := some r }) := by
  unfold execGrefLearned
  dsimp only
  rw [hat]
  dsimp only
  rw [if_pos ⟨hdue, hnone⟩]
  by_cases hdet : 0 < (s.ch c).fit.solution.det
  · exact ⟨_, s.fresh, fun _ => rfl, if_pos hdet⟩
  · exact ⟨_, s.fresh + 2, fun h => absurd h hdet, if_neg hdet⟩

/-- Settles O18: the measured slot and what a trip removes, then each command by the case of its definition that applies. -/
theorem excitationSupervision : Obligations.ExcitationSupervision := by
  unfold Obligations.ExcitationSupervision
  refine ⟨⟨fun c energy square vEnd limiter s => ⟨fun h => ?_, fun hd h => execSupervisorEvaluation_beyond c square vEnd limiter hd h⟩,
    fun c s hrun hd => ?_⟩, fun c s t0 hat hdue hd hmay => ?_, fun c s t0 hlast hdue => ?_,
    fun port c s hclosed => execLatchClear_closed hclosed, fun port c s hopen hclass hlatch => ?_, fun port c s hopen hclass => ?_,
    fun c t0 s hat hdue hnone => ?_⟩
  · obtain ⟨t, ht, hexec⟩ := execSupervisorEvaluation_within c square vEnd limiter h
    exact ⟨t, hexec, ht.win, ht.drive, ht.level, ht.ended, ht.ilim, ht.others, ht.only⟩
  · exact ⟨_, execExShort_trips hrun hd, s.tripFor_removes c .EX_SHORT rfl (by decide : 6 < 10) rfl⟩
  · obtain ⟨hdrive, htarget, hgref, -, hoff, -⟩ := s.beginDrive_begins c false
    exact ⟨_, execExcitationRetry_due hat hdue hd hmay, hdrive, htarget, hgref, hoff⟩
  · exact ⟨_, execTripRunEnd_due hlast hdue, s.ch_setCh_self c _, fun d hd => State.ch_setCh_ne s _ hd, rfl⟩
  · exact ⟨_, execLatchClear_clears hopen hclass, State.clearLatch_clears hlatch⟩
  · exact ⟨_, execLatchClear_denied hopen hclass, s.logged_logRefusal _ _ _ _, s.logTo_frame _ _ _ _⟩
  · obtain ⟨r, n, hr, hexec⟩ := execGrefLearned_due hat hdue hnone
    exact ⟨_, hexec, ⟨r, State.ch_setCh_self _ c _, hr⟩, fun d hd => State.ch_setCh_ne _ _ hd, rfl⟩

end Sys2Proof.Machine

namespace Sys2Proof.Machine
open Sys2Proof

/-! ### Breaks of a lead (R80 to R86) -/

/-- The state bit of a lead. -/
def leadBit (c : Nat) : Lead → Fld
  | .exc => Reg.CH_STATUS_WB_EXC c
  | .sense => Reg.CH_STATUS_WB_SENSE c

/-- The condition that a break of a lead logs. -/
def openCond : Lead → Cond
  | .exc => .WB_EXC_OPEN
  | .sense => .WB_SENSE_OPEN

theorem leadBit_place (c : Nat) (l : Lead) :
    (leadBit c l).addr = Reg.CH_STATUS c ∧ (leadBit c l).hi < 64 ∧ (leadBit c l).hi = (leadBit c l).lo ∧ 7 < (leadBit c l).lo := by
  cases l
  · exact ⟨rfl, (by decide : 9 < 64), rfl, (by decide : 7 < 9)⟩
  · exact ⟨rfl, (by decide : 8 < 64), rfl, (by decide : 7 < 8)⟩

/-- The hub with a break of lead l added to channel c and its bits set, before it is logged. -/
def State.breakShown (s : State) (c : Nat) (l : Lead) : State :=
  ((s.setCh c { s.ch c with breaks := { lead := l, start := s.now, fin := none } :: (s.ch c).breaks }).setF (leadBit c l) 1).setF
    (Reg.CH_STATUS_WB_SEEN c) 1

theorem State.seeBreak_eq (s : State) (c : Nat) (l : Lead) :
    s.seeBreak c l = (s.breakShown c l).log (openCond l) c
      [BitVec.ofNat 64 s.now, BitVec.ofNat 64 (breakBound l (s.exMode (c / 16)) (s.carrierK (c / 16)))] := by
  cases l <;> rfl

theorem State.breakShown_spec (s : State) (c : Nat) (l : Lead) :
    (s.breakShown c l).getF (leadBit c l) = 1 ∧ (s.breakShown c l).getF (Reg.CH_STATUS_WB_SEEN c) = 1
      ∧ ((s.breakShown c l).ch c).open_ l = true ∧ (s.breakShown c l).logSlot = s.logSlot := by
  obtain ⟨haddr, hhi, hone, hlo⟩ := leadBit_place c l
  have hch : (s.breakShown c l).ch c = { s.ch c with breaks := { lead := l, start := s.now, fin := none } :: (s.ch c).breaks } :=
    s.ch_setCh_self c _
  refine ⟨?_, State.getF_setF_flag _ (by decide : 7 < 64) rfl true, by simp [hch, ChanSt.open_], ?_⟩
  · exact (State.getF_setF_beside _ (Reg.CH_STATUS_WB_SEEN c) (leadBit c l) 1 haddr hhi (.inr hlo)).trans (State.getF_setF_flag _ hhi hone true)
  · exact State.logSlot_congr_of_lt (fun a ha => (State.reg_setF_chStatus rfl _ 1 ha).trans (State.reg_setF_chStatus haddr _ 1 ha)) rfl

/-- From s to t the channels and their status words stay, and the newest records. -/
structure State.KeepsChans (s t : State) : Prop where
  chans  : t.chans = s.chans
  status : ∀ c < 384, t.reg (Reg.CH_STATUS c) = s.reg (Reg.CH_STATUS c)
  log    : State.Pushes 2 s t

/-- The judgement of the bank's return touches its own status word and the log. -/
theorem State.judgeReturn_keepsChans (s : State) (b : Nat) : s.KeepsChans (s.judgeReturn b) := by
  unfold State.judgeReturn
  extract_lets driven seen
  split
  · generalize hu : (s.setBk b { s.bk b with retAt := some s.now }).setF (Reg.BANK_STATUS_RET_OPEN b) 1 = u
    have hreg : ∀ c < 384, u.reg (Reg.CH_STATUS c) = s.reg (Reg.CH_STATUS c) := fun c hc => by
      rw [← hu]
      exact State.reg_setF_ne _ (Reg.BANK_STATUS_RET_OPEN b) 1
        (by simp only [Reg.BANK_STATUS_RET_OPEN, Reg.BANK_STATUS, Reg.CH_STATUS]; omega)
    have hevt : u.evt = s.evt := by rw [← hu]; rfl
    have hchans : u.chans = s.chans := by rw [← hu]; rfl
    exact ⟨(State.log_chans _ _ _ _).trans hchans, fun c hc => (State.reg_log _ _ _ _ (evtReg_chStatus c)).trans (hreg c hc),
      ((State.Pushes.of_evt hevt).trans (u.pushes_log _ _ _)).mono (by simp)⟩
  · exact ⟨rfl, fun _ _ => rfl, (State.Pushes.of_evt rfl).mono (by omega)⟩

/-- A break seen on a channel: its bits are set, it stands open, and its record carries the slot and the bound; the return is judged after. -/
theorem State.seeBreak_judged (s : State) (b : Nat) {c : Nat} (hc : c < 384) (l : Lead) :
    let t := (s.seeBreak c l).judgeReturn b
    t.getF (leadBit c l) = 1 ∧ t.getF (Reg.CH_STATUS_WB_SEEN c) = 1 ∧ (t.ch c).open_ l = true
      ∧ Logged s t (openCond l) c (BitVec.ofNat 64 s.now) (BitVec.ofNat 64 (breakBound l (s.exMode (c / 16)) (s.carrierK (c / 16)))) := by
  obtain ⟨hbit, hseen, hopen, hslot⟩ := s.breakShown_spec c l
  obtain ⟨hchans, hstatus, hlog⟩ := (s.seeBreak c l).judgeReturn_keepsChans b
  generalize (s.seeBreak c l).judgeReturn b = t at hchans hstatus hlog ⊢
  rw [State.seeBreak_eq] at hchans hstatus hlog
  have hgetF : ∀ f : Fld, f.addr = Reg.CH_STATUS c → t.getF f = (s.breakShown c l).getF f := fun f hf => by
    rw [State.getF, hf, hstatus c hc, ← hf]
    exact State.getF_log_chStatus hf _ _ _ _
  have hch : t.ch c = (s.breakShown c l).ch c := by rw [State.ch, hchans, State.log_chans, ← State.ch]
  exact ⟨(hgetF _ (leadBit_place c l).1).trans hbit, (hgetF _ rfl).trans hseen, by rw [hch, hopen],
    (State.logged_of_pushes _ .all _ c _ hlog (by simp)).of_same rfl hslot⟩

/-- WB_EXC_OPEN after two evaluated slots in a row below G_ref / 4. -/
theorem execWbExcOpen_opens {c : Fin 384} {s : State} (hev : s.evaluates c .exc = true) (hlow : 2 ≤ (s.ch c).low)
    (hopen : (s.ch c).open_ .exc = false) : execWbExcOpen c s = .next ((s.seeBreak c .exc).judgeReturn (c / 16)) :=
  if_pos (by simp [hev, hlow, hopen])

/-- WB_SENSE_OPEN with a residue beyond VTH. -/
theorem execWbSenseOpen_opens {c : Fin 384} {s : State} {r : Int × Nat} (hev : s.evaluates c .sense = true)
    (hres : (s.ch c).sense.resid = some r) (hbeyond : s.vthScaled c r.2 < 2500 * r.1.natAbs) (hopen : (s.ch c).open_ .sense = false) :
    execWbSenseOpen c s = .next ((s.seeBreak c .sense).judgeReturn (c / 16)) :=
  if_pos (by simp [hev, hres, hbeyond, hopen])

/-! ### A lead restored (R83, R86) -/

/-- A break that ends in slot n where it is one of lead l that stands. -/
def Break.endedBy (l : Lead) (n : Nat) (b : Break) : Break := if b.lead == l && b.fin.isNone then { b with fin := some n } else b

theorem Break.endedBy_closed (l : Lead) (n : Nat) (b : Break) : ((b.endedBy l n).lead == l && (b.endedBy l n).fin.isNone) = false := by
  unfold Break.endedBy
  split
  next => simp
  next h => exact Bool.not_eq_true _ ▸ h

/-- The hub with the standing breaks of a lead of channel c ended and its bit cleared, before the bank's return is judged. -/
def State.leadWhole (s : State) (c : Nat) (l : Lead) : State :=
  (s.setCh c { s.ch c with breaks := (s.ch c).breaks.map (Break.endedBy l s.now) }).setF (leadBit c l) 0

theorem State.leadWhole_spec (s : State) (c : Nat) (l : Lead) :
    (s.leadWhole c l).getF (leadBit c l) = 0 ∧ ((s.leadWhole c l).ch c).open_ l = false ∧ ∀ a < 0x1000, (s.leadWhole c l).reg a = s.reg a := by
  obtain ⟨haddr, hhi, hone, -⟩ := leadBit_place c l
  have hch : (s.leadWhole c l).ch c = { s.ch c with breaks := (s.ch c).breaks.map (Break.endedBy l s.now) } := s.ch_setCh_self c _
  refine ⟨State.getF_setF_flag _ hhi hone false, ?_, fun a ha => State.reg_setF_chStatus haddr _ 0 ha⟩
  rw [hch, ChanSt.open_, List.any_map, List.any_eq_false]
  exact fun b _ => by simp [Break.endedBy_closed]

/-- The hub u with the return of channel c's bank no longer open, where it was seen in the slot of a break of lead l that stands in s. -/
def State.clearReturn (s : State) (c : Nat) (l : Lead) (u : State) : State :=
  if (s.ch c).breaks.any (fun k => k.lead == l && k.fin.isNone && (s.bk (c / 16)).retAt == some k.start) then
    (u.setBk (c / 16) { u.bk (c / 16) with retAt := none }).setF (Reg.BANK_STATUS_RET_OPEN (c / 16)) 0
  else u

theorem State.restoreLead_eq (s : State) (c : Nat) (l : Lead) :
    s.restoreLead c l = (s.clearReturn c l (s.leadWhole c l)).log .WB_RESTORED c [BitVec.ofNat 64 s.now] := by
  cases l <;> rfl

theorem State.clearReturn_sets (s : State) (c : Nat) (l : Lead) (u : State) : s.clearReturn c l u = u
    ∨ ∃ y, s.clearReturn c l u = (u.setBk (c / 16) y).setF (Reg.BANK_STATUS_RET_OPEN (c / 16)) 0 := by
  unfold State.clearReturn
  split
  · exact .inr ⟨_, rfl⟩
  · exact .inl rfl

/-- Clearing the return changes the bank and its status word only. -/
theorem State.clearReturn_keeps (s : State) (c : Nat) (l : Lead) (u : State) :
    (∃ m k, s.clearReturn c l u = { u with regs := m, banks := k })
      ∧ ∀ a, a ≠ Reg.BANK_STATUS (c / 16) → (s.clearReturn c l u).reg a = u.reg a := by
  obtain h | ⟨y, h⟩ := s.clearReturn_sets c l u
  · rw [h]
    exact ⟨⟨_, _, rfl⟩, fun _ _ => rfl⟩
  · rw [h]
    exact ⟨⟨_, _, rfl⟩, fun a ha => State.reg_setF_ne _ (Reg.BANK_STATUS_RET_OPEN (c / 16)) 0 ha⟩

/-- A restored lead: its bit is clear, none of its breaks stands, and the restoration is logged. -/
theorem State.restoreLead_restores (s : State) {c : Nat} (hc : c < 384) (l : Lead) :
    (s.restoreLead c l).getF (leadBit c l) = 0 ∧ ((s.restoreLead c l).ch c).open_ l = false
      ∧ Logged s (s.restoreLead c l) .WB_RESTORED c (BitVec.ofNat 64 s.now) 0 := by
  obtain ⟨hbit, hopen, hlow⟩ := s.leadWhole_spec c l
  obtain ⟨⟨m, k, hframe⟩, hreg⟩ := s.clearReturn_keeps c l (s.leadWhole c l)
  have haddr := (leadBit_place c l).1
  rw [State.restoreLead_eq]
  generalize s.clearReturn c l (s.leadWhole c l) = u at hframe hreg
  have hchans : u.chans = (s.leadWhole c l).chans := by rw [hframe]
  have hclk : u.clk = s.clk := by rw [hframe]; rfl
  have hevt : u.evt = s.evt := by rw [hframe]; rfl
  have hwords : ∀ a < 0x1000, u.reg a = s.reg a := fun a ha =>
    (hreg a (by simp only [Reg.BANK_STATUS]; omega)).trans (hlow a ha)
  refine ⟨?_, ?_, (u.logged_log .WB_RESTORED c _ (by simp)).of_same hevt (State.logSlot_congr_of_lt hwords hclk)⟩
  · rw [State.getF_log_chStatus haddr, State.getF, hreg _ (by simp only [haddr, Reg.BANK_STATUS, Reg.CH_STATUS]; omega), ← State.getF, hbit]
  · rw [State.ch, State.log_chans, hchans, ← State.ch, hopen]

/-- The consecutive evaluations in which a lead was whole. -/
def ChanSt.wholeFor (x : ChanSt) : Lead → Nat
  | .exc => x.whole
  | .sense => x.sense.whole

theorem execWbRestored_restores {c : Fin 384} {l : Lead} {s : State} (hev : s.evaluates c l = true) (hwhole : 256 ≤ (s.ch c).wholeFor l)
    (hopen : (s.ch c).open_ l = true) : execWbRestored c l s = .next (s.restoreLead c l) := by
  cases l <;> exact if_pos ⟨hev, hwhole, hopen⟩

theorem execBankFactorUpdate_due {b : Fin 24} {measured : Nat} {s : State} (hb : s.belay = true) (hm : measured ≠ 0) (hex : s.exMode b ≠ 0)
    (hdue : (s.bk b).factorFrom + 2 ^ 16 ≤ s.upSlots) : execBankFactorUpdate b measured s
      = .next (s.setBk b { s.bk b with factor := (roundEven (2 ^ 40) measured).toNat, factorFrom := s.upSlots }) :=
  if_pos ⟨hb, hm, hex, hdue⟩

theorem State.evaluates_exc {s : State} {c : Nat} (hdet : s.detects c = true) (hon : s.effFlag (Reg.CH_WB_EXC c) = true)
    (hheld : (s.ch c).drive.held = true) : s.evaluates c .exc = true := by
  simp [State.evaluates, hdet, hon, hheld]

theorem State.evaluates_sense {s : State} {c : Nat} (hdet : s.detects c = true) (hon : s.effFlag (Reg.CH_WB_SENSE c) = true)
    (hbias : s.effFlag (Reg.CH_WB_BIAS c) = true) (hwin : s.pair.windowEnd.get (fun _ => 0) (c / 16) = 0) : s.evaluates c .sense = true := by
  simp [State.evaluates, hdet, hon, hbias, chBank, hwin]

/-- Settles O19: a break of either lead by what `State.seeBreak` shows and logs, a restored lead by what `State.restoreLead` leaves. -/
theorem wireBreakDetection : Obligations.WireBreakDetection := by
  unfold Obligations.WireBreakDetection
  refine ⟨fun c s hdet hon hheld hlow hopen => ?_, fun c r s hdet hon hbias hwin hres hbeyond hopen => ?_,
    fun c l s hev hwhole hopen => ?_, fun b measured s hb hm hex hdue => ?_⟩
  · exact ⟨_, execWbExcOpen_opens (State.evaluates_exc hdet hon hheld) hlow hopen, s.seeBreak_judged (c / 16) c.isLt .exc⟩
  · exact ⟨_, execWbSenseOpen_opens (State.evaluates_sense hdet hon hbias hwin) hres hbeyond hopen, s.seeBreak_judged (c / 16) c.isLt .sense⟩
  · refine ⟨_, execWbRestored_restores hev ?_ hopen, ?_⟩
    · cases l <;> exact hwhole
    · cases l <;> exact s.restoreLead_restores c.isLt _
  · exact ⟨_, execBankFactorUpdate_due hb hm hex hdue, State.bk_setBk_self s b _, fun d hd => State.bk_setBk_ne s _ hd, rfl⟩

end Sys2Proof.Machine

namespace Sys2Proof.Machine
open Sys2Proof

/-! ### Fields beside the one written -/

/-- A field read where another one is written: in another word, or above or below it in the same one. -/
theorem State.getF_setF_apart (s : State) {f g : Fld} (v : Nat) (hg : g.hi < 64) (h : g.addr ≠ f.addr ∨ g.hi < f.lo ∨ f.hi < g.lo) :
    (s.setF f v).getF g = s.getF g := by
  by_cases ha : g.addr = f.addr
  · exact s.getF_setF_beside f g v ha hg (h.resolve_left (not_not_intro ha))
  · exact s.getF_setF_addr f g v ha

section
variable (s : State) (b k : Nat)

@[simp] theorem State.getF_setBk (x : BankSt) (f : Fld) : (s.setBk b x).getF f = s.getF f := rfl

@[simp] theorem State.getF_setCal (x : CalSt) (f : Fld) : (s.setCal b x).getF f = s.getF f := rfl

@[simp] theorem State.logSlot_setBk (x : BankSt) : (s.setBk b x).logSlot = s.logSlot := State.logSlot_congr_of_lt (fun _ _ => rfl) rfl

@[simp] theorem State.bk_setF (f : Fld) (v : Nat) : (s.setF f v).bk b = s.bk b := rfl

@[simp] theorem State.bk_setCal (x : CalSt) : (s.setCal k x).bk b = s.bk b := rfl

@[simp] theorem State.bk_log (c : Cond) (u : Nat) (l : List W64) : (s.log c u l).bk b = s.bk b := by
  rw [State.bk, State.log_banks, ← State.bk]

@[simp] theorem State.cal_setF (f : Fld) (v : Nat) : (s.setF f v).cal b = s.cal b := rfl

@[simp] theorem State.cal_setBk (x : BankSt) : (s.setBk k x).cal b = s.cal b := rfl

@[simp] theorem State.cal_log (c : Cond) (u : Nat) (l : List W64) : (s.log c u l).cal b = s.cal b := by
  rw [State.cal, State.log_cals, ← State.cal]

end

/-! ### Offset tracking (R111) -/

theorem clampI_eq {lo hi : Int} (h : lo ≤ hi) (v : Int) : clampI lo hi v = max lo (min hi v) := by
  unfold clampI
  split
  · omega
  · split <;> omega

/-- The offset of one hold half moved by a step, within its range. -/
def moveHalf (m : Sparse HalfTerms) (k : Nat) (step : Int) : Sparse HalfTerms :=
  m.set (fun _ => {}) k { m.get (fun _ => {}) k with d := clampI (-(2 ^ 26)) (2 ^ 26) ((m.get (fun _ => {}) k).d + step) }

/-- The two halves of path i moved in opposite directions. -/
def moveHalves (step : Nat → Int) (m : Sparse HalfTerms) (i : Nat) : Sparse HalfTerms :=
  moveHalf (moveHalf m (2 * i) (step i)) (2 * i + 1) (-step i)

theorem get_moveHalf (m : Sparse HalfTerms) (k j : Nat) (step : Int) :
    ((moveHalf m k step).get (fun _ => {}) j).d
      = if j = k then max (-2 ^ 26) (min (2 ^ 26) ((m.get (fun _ => {}) k).d + step)) else (m.get (fun _ => {}) j).d := by
  unfold moveHalf
  rw [Sparse.get_set]
  split
  · exact clampI_eq (by decide) _
  · rfl

theorem halfKey_index (i h : Nat) : halfKey (i / 2) (i % 2 == 1) h = 2 * i + h := by
  unfold halfKey
  have hb : b2n (i % 2 == 1) = i % 2 := by
    rcases Nat.mod_two_eq_zero_or_one i with h | h <;> rw [h] <;> rfl
  omega

theorem scaleKey_lt (p : Fin 19) (fine : Bool) : scaleKey p fine < 38 := by
  unfold scaleKey b2n
  split <;> omega

theorem halfKey_eq (p : Nat) (fine : Bool) (h : Nat) : halfKey p fine h = 2 * scaleKey p fine + h := by
  unfold halfKey scaleKey
  omega

/-- Of the halves of all paths each one moves by the step of its own path. -/
theorem moveHalves_all (step : Nat → Int) (m : Sparse HalfTerms) {i : Nat} (hi : i < 38) :
    (((List.range 38).foldl (moveHalves step) m).get (fun _ => {}) (2 * i)).d
        = max (-2 ^ 26) (min (2 ^ 26) ((m.get (fun _ => {}) (2 * i)).d + step i))
      ∧ (((List.range 38).foldl (moveHalves step) m).get (fun _ => {}) (2 * i + 1)).d
        = max (-2 ^ 26) (min (2 ^ 26) ((m.get (fun _ => {}) (2 * i + 1)).d - step i)) := by
  obtain ⟨u, hu, hfold⟩ := foldl_once (List.range 38) (moveHalves step) m
    (fun m => ((m.get (fun _ => {}) (2 * i)).d, (m.get (fun _ => {}) (2 * i + 1)).d)) (List.mem_range.mpr hi) List.nodup_range
    fun t y _ hy => by
      unfold moveHalves
      simp only [get_moveHalf]
      rw [if_neg (by omega), if_neg (by omega), if_neg (by omega), if_neg (by omega)]
  obtain ⟨hu0, hu1⟩ := Prod.mk.inj hu
  obtain ⟨h0, h1⟩ := Prod.mk.inj hfold
  rw [h0, h1, ← hu0, ← hu1]
  unfold moveHalves
  have hne : 2 * i + 1 ≠ 2 * i := by omega
  simp only [get_moveHalf, if_true, if_neg hne, if_neg hne.symm, sub_eq_add_neg, and_self]

section
variable (b : Fin 24) (s : State)

theorem offsetTrackUpdate_early (h : s.acquiring = false ∨ s.clk.slot < (s.bk b).trackFrom + 2 ^ 18) :
    exec (.offsetTrackUpdate b) s = .next s := if_pos h

/-- The hold halves of a bank moved by the steps that its sums give. -/
def BankSt.movedHalves (x : BankSt) : Sparse HalfTerms :=
  (List.range 38).foldl (moveHalves fun i => (x.sums.get (fun _ => {}) i).step (i % 2 == 1)) x.halves

/-- A bank whose halves have moved, at the beginning of the next window. -/
def State.tracked : BankSt := { s.bk b with halves := (s.bk b).movedHalves, sums := [], trackFrom := s.now }

theorem offsetTrackUpdate_due (hacq : s.acquiring = true) (h : (s.bk b).trackFrom + 2 ^ 18 ≤ s.clk.slot) :
    exec (.offsetTrackUpdate b) s = .next (s.setBk b (s.tracked b)) := by
  have hexec : exec (.offsetTrackUpdate b) s = execOffsetTrackUpdate b s := rfl
  have hnot : ¬ (s.acquiring = false ∨ s.now < (s.bk b).trackFrom + 2 ^ 18) := by
    rw [hacq]
    exact fun h' => h'.elim nofun fun h' => absurd h (Nat.not_le.mpr h')
  unfold execOffsetTrackUpdate at hexec
  extract_lets x hv at hexec
  rw [if_neg hnot] at hexec
  have hmoved : hv = (s.bk b).movedHalves := by
    unfold hv BankSt.movedHalves moveHalves moveHalf
    simp only [halfKey_index, Nat.add_zero]
    rfl
  exact hexec.trans (by rw [hmoved]; rfl)

theorem BankSt.movedHalves_spec (x : BankSt) (p : Fin 19) (fine : Bool) :
    let st := (x.sums.get (fun _ => {}) (scaleKey p fine)).step fine
    let d := fun (m : Sparse HalfTerms) (h : Nat) => (m.get (fun _ => {}) (halfKey p fine h)).d
    d x.movedHalves 0 = max (-2 ^ 26) (min (2 ^ 26) (d x.halves 0 + st))
      ∧ d x.movedHalves 1 = max (-2 ^ 26) (min (2 ^ 26) (d x.halves 1 - st)) := by
  have hfine : (scaleKey p fine % 2 == 1) = fine := by
    unfold scaleKey b2n
    cases fine <;> simp
  have h := moveHalves_all (fun i => (x.sums.get (fun _ => {}) i).step (i % 2 == 1)) x.halves (scaleKey_lt p fine)
  simp only [hfine] at h
  unfold BankSt.movedHalves
  simp only [halfKey_eq, Nat.add_zero]
  exact h

/-! ### Starved slices (R112) -/

theorem testBit_withBit_set : ∀ (v : Fin 16) (i : Fin 4), (withBit v i true % 16).testBit i = true := by decide

theorem convStarved_due (k : Fin 4) (hacq : s.acquiring = true)
    (hdue : max ((s.bk b).lastInj.get (fun _ => 0) k) (s.mode.entry.getD 0) + 2 ^ 18 ≤ s.clk.slot)
    (hno : (s.getF (Reg.BANK_CONVSTAT_STARVED b)).testBit k = false) :
    Gives (.convStarved b k) s (fun t =>
      (t.getF (Reg.BANK_CONVSTAT_STARVED b)).testBit k = true ∧ Logged s t .CONV_STARVED b (BitVec.ofNat 64 k.val) 0) := by
  refine ⟨_, if_pos ⟨hacq, hdue, hno⟩, ?_, ?_⟩
  · have hlt : s.getF (Reg.BANK_CONVSTAT_STARVED b) < 16 := Nat.mod_lt _ (show 0 < 2 ^ (23 + 1 - 20) by decide)
    rw [State.getF_log _ _ _ _ _ (evtReg_of_ge (by simp only [Reg.BANK_CONVSTAT_STARVED, Reg.BANK_CONVSTAT]; omega)),
      State.getF_setF_self _ _ _ (show 23 < 64 by decide)]
    exact testBit_withBit_set ⟨_, hlt⟩ k
  · refine (State.logged_log _ .CONV_STARVED b [BitVec.ofNat 64 k.val] (by simp)).of_same rfl (State.logSlot_congr_of_lt (fun a ha => ?_) rfl)
    exact State.reg_setF_ne s _ _ (by simp only [Reg.BANK_CONVSTAT_STARVED, Reg.BANK_CONVSTAT]; omega)

/-! ### References (R116, R117, R122) -/

theorem evtReg_bankRef (b : Nat) : evtReg (Reg.BANK_REF b) = false := evtReg_of_ge (by simp only [Reg.BANK_REF]; omega)

theorem State.setSettled_bank (v : Bool) : s.setSettled b v = s.setF (Reg.BANK_REF_SETTLED b) (b2n v) := if_neg (by omega)

theorem State.getF_setSettled_bank (v : Bool) : (s.setSettled b v).getF (Reg.BANK_REF_SETTLED b) = b2n v := by
  rw [State.setSettled_bank]
  exact State.getF_setF_flag s (show 4 < 64 by decide) rfl v

theorem State.quietFrom_bank : s.quietFrom b = (s.bk b).quietFrom := if_neg (by omega)

theorem State.refAt_bank : s.refAt b = (s.bk b).refOnAt := if_neg (by omega)

theorem State.refSettled_bank : s.refSettled b = s.flag (Reg.BANK_REF_SETTLED b) := if_neg (by omega)

/-- A record's stamp does not depend on a bank's reference. -/
theorem State.logSlot_setF_bankRef (f : Fld) (v : Nat) (hf : f.addr = Reg.BANK_REF b) : (s.setF f v).logSlot = s.logSlot :=
  State.logSlot_congr_of_lt (fun a ha => State.reg_setF_ne s f v (by simp only [hf, Reg.BANK_REF]; omega)) rfl

theorem referenceSettled_due (h : b.val < 25) (hon : (s.bk b).refOnAt.isSome = true) (hquiet : (s.bk b).quietFrom + 256 ≤ s.clk.slot) :
    exec (.referenceSettled ⟨b.val, h⟩) s = .next (s.setSettled b true) :=
  if_pos ⟨by rwa [s.refAt_bank b], by rwa [s.quietFrom_bank b]⟩

theorem referenceSettled_early (h : b.val < 25) (hquiet : s.clk.slot < (s.bk b).quietFrom + 256) :
    exec (.referenceSettled ⟨b.val, h⟩) s = .next s :=
  if_neg fun hdue => by
    have := hdue.2
    rw [s.quietFrom_bank b] at this
    exact absurd this (Nat.not_le.mpr hquiet)

theorem referenceSettled_fast (hon : s.fabric.fastRefAt.isSome = true) (hquiet : s.fabric.fastQuiet + 256 ≤ s.clk.slot) :
    exec (.referenceSettled 24) s = .next { s with fabric := { s.fabric with fastSettled := true } } := if_pos ⟨hon, hquiet⟩

theorem refSettleLate_due {t0 : Nat} (hat : (s.bk b).refOnAt = some t0) (hdue : t0 + 5000 ≤ s.clk.slot) (hext : s.getF (Reg.BANK_REF_ACT b) = 1)
    (hno : s.getF (Reg.BANK_REF_SETTLED b) = 0) (hlog : (s.bk b).lateLogged = false) :
    ∃ x : BankSt, x.lateLogged = true ∧ exec (.refSettleLate b) s = .next ((s.setBk b x).log .REF_SETTLE_LATE b []) := by
  have hexec : exec (.refSettleLate b) s = execRefSettleLate b s := rfl
  unfold execRefSettleLate at hexec
  extract_lets x at hexec
  have hsettled : s.refSettled b = false := by
    rw [s.refSettled_bank b, State.flag, hno]
    rfl
  have hall : t0 + 5000 ≤ s.now ∧ s.getF (Reg.BANK_REF_ACT b) = 1 ∧ s.refSettled b = false ∧ x.lateLogged = false := ⟨hdue, hext, hsettled, hlog⟩
  rw [show x.refOnAt = some t0 from hat] at hexec
  exact ⟨_, rfl, hexec.trans (if_pos hall)⟩

/-- A bank whose reference varies: SETTLED is lost and its quiet slots count from the present one. -/
theorem refUnstable_bank (h : b.val < 25) (hset : s.getF (Reg.BANK_REF_SETTLED b) = 1) :
    exec (.refUnstable ⟨b.val, h⟩) s
      = .next (((s.setBk b { s.bk b with quietFrom := s.now }).setF (Reg.BANK_REF_SETTLED b) 0).log .REF_UNSTABLE b []) := by
  have hquiet : s.noQuiet b = s.setBk b { s.bk b with quietFrom := s.now } := if_neg (by omega)
  have hsettled : (s.noQuiet b).refSettled b = true := by
    rw [State.refSettled_bank, hquiet]
    exact (congrArg (fun n => n != 0) hset :)
  refine (if_pos hsettled).trans ?_
  rw [State.setSettled_bank, hquiet]
  rfl

theorem refUnstable_fast (hset : s.fabric.fastSettled = true) :
    exec (.refUnstable 24) s
      = .next (({ s with fabric := { s.fabric with fastSettled := false, fastQuiet := s.now } } : State).log .REF_UNSTABLE 24 []) := if_pos hset

/-! ### The fall back to the internal reference (R117, R411) -/

/-- A bank that has given REF_EXT up: the internal reference is enabled afresh. -/
def State.fellBack : State :=
  (((s.setBk b { s.bk b with fellBack := true }).setF (Reg.BANK_REF_ACT b) 0).setF (Reg.BANK_REF_FALLBACK b) 1).enableRef b

theorem refFallback_due (hacq : s.acquiring = true) (hext : s.getF (Reg.BANK_REF_ACT b) = 1) :
    exec (.refFallback b) s = .next
      (if (s.cal b).stage = 0 then (s.fellBack b).log .REF_FALLBACK b []
        else ((s.fellBack b).log .REF_FALLBACK b []).setCal b { s.cal b with abandon := true, restart := true }) := by
  have hcal : ((s.fellBack b).log .REF_FALLBACK b []).cals = s.cals := by
    rw [State.log_cals, State.fellBack, State.enableRef, if_neg (by omega), State.setSettled_bank]
    rfl
  have hexec : exec (.refFallback b) s = execRefFallback b s := rfl
  unfold execRefFallback at hexec
  extract_lets x s0 s1 k at hexec
  have hs1 : s1 = (s.fellBack b).log .REF_FALLBACK b [] := rfl
  have hk : k = s.cal b := by
    unfold k
    rw [hs1, hcal]
    rfl
  rw [if_pos ⟨hacq, hext⟩, hk, hs1] at hexec
  rw [hexec]
  split <;> rfl

theorem State.fellBack_spec :
    (s.fellBack b).getF (Reg.BANK_REF_ACT b) = 0 ∧ (s.fellBack b).getF (Reg.BANK_REF_FALLBACK b) = 1
      ∧ (s.fellBack b).getF (Reg.BANK_REF_SETTLED b) = 0 ∧ ((s.fellBack b).bk b).refOnAt = some s.clk.slot
      ∧ (s.fellBack b).evt = s.evt ∧ (s.fellBack b).logSlot = s.logSlot := by
  unfold State.fellBack State.enableRef
  rw [if_neg (by omega), State.setSettled_bank]
  refine ⟨?_, ?_, ?_, ?_, rfl, ?_⟩
  · rw [State.getF_setF_apart _ (f := Reg.BANK_REF_SETTLED b) (g := Reg.BANK_REF_ACT b) _ (show 3 < 64 by decide) (.inr (.inl (show 3 < 4 by decide))),
      State.getF_setBk, State.getF_setF_apart _ (f := Reg.BANK_REF_FALLBACK b) (g := Reg.BANK_REF_ACT b) _ (show 3 < 64 by decide)
        (.inr (.inl (show 3 < 5 by decide)))]
    exact State.getF_setF_self _ (Reg.BANK_REF_ACT b) 0 (show 3 < 64 by decide)
  · rw [State.getF_setF_apart _ (f := Reg.BANK_REF_SETTLED b) (g := Reg.BANK_REF_FALLBACK b) _ (show 5 < 64 by decide)
      (.inr (.inr (show 4 < 5 by decide))), State.getF_setBk]
    exact State.getF_setF_self _ (Reg.BANK_REF_FALLBACK b) 1 (show 5 < 64 by decide)
  · exact State.getF_setF_self _ (Reg.BANK_REF_SETTLED b) 0 (show 4 < 64 by decide)
  · rw [State.bk_setF, State.bk_setBk_self]
    rfl
  · rw [State.logSlot_setF_bankRef _ _ _ _ rfl, State.logSlot_setBk]
    exact (State.logSlot_setF_bankRef b _ (Reg.BANK_REF_FALLBACK b) 1 rfl).trans ((State.logSlot_setF_bankRef b _ (Reg.BANK_REF_ACT b) 0 rfl).trans
      (s.logSlot_setBk b _))

end

/-- Settles O16: the windows by the bank they leave, the references by the state each command answers. -/
theorem offsetsAndReferences : Obligations.OffsetsAndReferences := by
  unfold Obligations.OffsetsAndReferences
  refine ⟨⟨fun b s => ⟨offsetTrackUpdate_early b s, fun hacq hdue => ?track⟩, fun b k s => convStarved_due b s k⟩,
    fun b h s hon hquiet => ?settled, fun b h s => referenceSettled_early b s h,
    fun s hon hquiet => ⟨_, referenceSettled_fast s hon hquiet, rfl, rfl⟩,
    fun b s t0 hat hdue hext hno hlog => ?late, fun b h s hset => ?unstable, fun s hset => ?fast, fun b s hacq hext => ?fallback⟩
  case track =>
    refine ⟨_, offsetTrackUpdate_due b s hacq hdue, ?_⟩
    simp only [State.bk_setBk_self, State.tracked, true_and]
    exact ⟨rfl, fun d hd => State.bk_setBk_ne s _ hd, rfl, (s.bk b).movedHalves_spec⟩
  case settled =>
    refine ⟨_, referenceSettled_due b s h hon hquiet, s.getF_setSettled_bank b true, ?_⟩
    rw [State.setSettled_bank]
    rfl
  case late =>
    obtain ⟨x, hx, hexec⟩ := refSettleLate_due b s hat hdue hext hno hlog
    refine ⟨_, hexec, ?_, (State.logged_log _ _ _ _ (by simp)).of_same rfl (State.logSlot_congr_of_lt (fun _ _ => rfl) rfl)⟩
    rwa [State.bk_log, State.bk_setBk_self]
  case unstable =>
    refine ⟨_, refUnstable_bank b s h hset, ?_, ?_, ?_⟩
    · rw [State.getF_log _ _ _ _ _ (evtReg_bankRef b)]
      exact State.getF_setF_self _ (Reg.BANK_REF_SETTLED b) 0 (show 4 < 64 by decide)
    · rw [State.bk_log, State.bk_setF, State.bk_setBk_self]
      rfl
    · exact (State.logged_log _ _ _ _ (by simp)).of_same rfl (State.logSlot_setF_bankRef b _ (Reg.BANK_REF_SETTLED b) 0 rfl)
  case fast =>
    exact ⟨_, refUnstable_fast s hset, State.log_fabric _ _ _ _,
      (State.logged_log _ _ _ _ (by simp)).of_same rfl (State.logSlot_congr_of_lt (fun _ _ => rfl) rfl)⟩
  case fallback =>
    obtain ⟨hact, hfall, hset, hon, hevt, hslot⟩ := s.fellBack_spec b
    have hlog : Logged s ((s.fellBack b).log .REF_FALLBACK b []) .REF_FALLBACK b 0 0 := (State.logged_log _ _ _ _ (by simp)).of_same hevt hslot
    have hreg : ∀ f : Fld, f.addr = Reg.BANK_REF b → ((s.fellBack b).log .REF_FALLBACK b []).getF f = (s.fellBack b).getF f := fun f hf =>
      State.getF_log _ _ _ _ f (hf ▸ evtReg_bankRef b)
    refine ⟨_, refFallback_due b s hacq hext, ?_⟩
    dsimp only
    split
    next h0 => exact ⟨(hreg _ rfl).trans hact, (hreg _ rfl).trans hfall, (hreg _ rfl).trans hset, by rwa [State.bk_log], hlog, fun h => absurd h0 h⟩
    next =>
      refine ⟨(hreg _ rfl).trans hact, (hreg _ rfl).trans hfall, (hreg _ rfl).trans hset, ?_, hlog, fun _ => ?_⟩
      · rw [State.bk_setCal, State.bk_log]
        exact hon
      · rw [State.cal_setCal_self]
        exact ⟨rfl, rfl⟩

end Sys2Proof.Machine

namespace Sys2Proof.Machine
open Sys2Proof

/-! ### Raw values of a bank (R109, R113) -/

/-- A value that enters a channel's sense detector changes that detector only. -/
theorem State.senseSample_eq (s : State) (c n : Nat) (v : Int) : ∃ y, s.senseSample c n v = s.setCh c { s.ch c with sense := y } := by
  unfold State.senseSample
  extract_lets x b k j q next
  split
  · exact ⟨_, rfl⟩
  · split
    extract_lets y r
    cases r with
    | none => exact ⟨y, rfl⟩
    | some r => exact ⟨_, rfl⟩

/-- From s to t nothing changes that the raw values of channel c are read from or kept in. -/
structure State.KeepsRaw (c : Nat) (s t : State) : Prop where
  sys    : t.reg Reg.SYS_MODE = s.reg Reg.SYS_MODE
  pair   : t.pair = s.pair
  fabric : t.fabric = s.fabric
  chan   : t.ch c = s.ch c
  flt    : t.flt c = s.flt c

theorem State.rawOf_congr {b p : Nat} {s t : State} (h : s.KeepsRaw (16 * b + p) t) (x : BankSt) (pl : SlotPlan) (clip : Bool) :
    t.rawOf x pl b p clip = s.rawOf x pl b p clip := by
  have hbelay : t.belay = s.belay := by
    unfold State.belay State.cur State.prior State.getF
    rw [show t.reg Reg.SYS_MODE_CUR.addr = _ from h.sys, show t.reg Reg.SYS_MODE_PRIOR.addr = _ from h.sys]
    rfl
  have hwire : t.wireExlim (16 * b + p) pl.slot = s.wireExlim (16 * b + p) pl.slot := by
    unfold State.wireExlim State.mirF State.mir
    rw [hbelay, h.pair, h.chan]
  have hlock : t.lockedAt pl.slot = s.lockedAt pl.slot := by
    unfold State.lockedAt
    rw [h.fabric]
  unfold State.rawOf
  dsimp only
  rw [hwire, hlock]

/-- The raw sample of a position kept under its slot, its run of clipped samples counted and its sense detector fed. -/
def State.keepRaw (t : State) (pl : SlotPlan) (c : Nat) (clipped : Bool) (r : Raw) : State :=
  let x := { t.ch c with clipRun := if clipped && decide (r.value.natAbs ≤ 2 ^ 25) then (t.ch c).clipRun + 1 else 0 }
  let t3 := t.setCh c x
  (t3.setFlt c ((t3.flt c).putRaw pl.slot r)).senseSample c pl.slot r.value

/-- CLIP and CLIP_SEEN of a channel as the input stood. -/
def State.showClip (t : State) (c : Nat) (cl : Bool) : State :=
  if cl then (t.setF (Reg.CH_STATUS_CLIP c) (b2n cl)).setF (Reg.CH_STATUS_CLIP_SEEN c) 1 else t.setF (Reg.CH_STATUS_CLIP c) (b2n cl)

/-- What position p does as the raw values of a slot enter the pipeline. -/
def State.enterRaw (x : BankSt) (pl : SlotPlan) (b : Nat) (clip : BitVec 16) (t : State) (p : Nat) : State :=
  let t2 := t.showClip (16 * b + p) (clip.toNat.testBit p)
  ((t2.rawOf x pl b p (clip.toNat.testBit p)).map (t2.keepRaw pl (16 * b + p) (pl.clip.testBit p))).getD t2

theorem State.showClip_keeps (t : State) (c k : Nat) (cl : Bool) : t.KeepsRaw k (t.showClip c cl) := by
  have hsys : ∀ (u : State) (f : Fld) (v : Nat), f.addr = Reg.CH_STATUS c → (u.setF f v).reg Reg.SYS_MODE = u.reg Reg.SYS_MODE := fun u f v hf =>
    State.reg_setF_chStatus hf u v (by decide)
  unfold State.showClip
  split
  · exact ⟨(hsys _ _ _ rfl).trans (hsys t _ _ rfl), rfl, rfl, rfl, rfl⟩
  · exact ⟨hsys t _ _ rfl, rfl, rfl, rfl, rfl⟩

theorem State.KeepsRaw.trans {c : Nat} {s t u : State} (h : s.KeepsRaw c t) (h' : t.KeepsRaw c u) : s.KeepsRaw c u :=
  ⟨h'.sys.trans h.sys, h'.pair.trans h.pair, h'.fabric.trans h.fabric, h'.chan.trans h.chan, h'.flt.trans h.flt⟩

theorem State.keepRaw_keeps (t : State) (pl : SlotPlan) {c k : Nat} (hk : k ≠ c) (clipped : Bool) (r : Raw) :
    t.KeepsRaw k (t.keepRaw pl c clipped r) := by
  unfold State.keepRaw
  extract_lets _ x t3
  obtain ⟨y, hy⟩ := (t3.setFlt c ((t3.flt c).putRaw pl.slot r)).senseSample_eq c pl.slot r.value
  rw [hy]
  refine ⟨rfl, rfl, rfl, ?_, ?_⟩
  · rw [State.ch_setCh_ne _ _ hk]
    exact State.ch_setCh_ne t _ hk
  · exact State.flt_setFlt_ne t3 _ hk

/-- The sample stands in the channel's pipeline under its slot. -/
theorem State.keepRaw_raws (t : State) (pl : SlotPlan) (c : Nat) (clipped : Bool) (r : Raw) :
    ((t.keepRaw pl c clipped r).flt c).raws.get (fun _ => none) pl.slot = some r := by
  unfold State.keepRaw
  extract_lets _ x t3
  obtain ⟨y, hy⟩ := (t3.setFlt c ((t3.flt c).putRaw pl.slot r)).senseSample_eq c pl.slot r.value
  have hflt : ((t3.setFlt c ((t3.flt c).putRaw pl.slot r)).senseSample c pl.slot r.value).flt c = (t3.flt c).putRaw pl.slot r := by
    rw [hy]
    exact State.flt_setFlt_self t3 c _
  rw [hflt]
  exact Sparse.get_set_self (fun _ => none) ((t3.flt c).raws.filter fun e => decide (pl.slot < e.1 + 600000)) pl.slot (some r)

section
variable (x : BankSt) (pl : SlotPlan) (b : Nat) (clip : BitVec 16) (t : State)

theorem State.enterRaw_keeps {p q : Nat} (h : q ≠ p) : t.KeepsRaw (16 * b + p) (t.enterRaw x pl b clip q) := by
  have hclip := t.showClip_keeps (16 * b + q) (16 * b + p) (clip.toNat.testBit q)
  unfold State.enterRaw
  extract_lets t2
  cases t2.rawOf x pl b q (clip.toNat.testBit q) with
  | none => exact hclip
  | some r => exact hclip.trans (t2.keepRaw_keeps pl (by omega) _ r)

theorem State.enterRaw_raws (p : Nat) {r : Raw} (hr : t.rawOf x pl b p (clip.toNat.testBit p) = some r) :
    ((t.enterRaw x pl b clip p).flt (16 * b + p)).raws.get (fun _ => none) pl.slot = some r := by
  have hclip := t.showClip_keeps (16 * b + p) (16 * b + p) (clip.toNat.testBit p)
  unfold State.enterRaw
  extract_lets t2
  rw [State.rawOf_congr hclip, hr]
  exact t2.keepRaw_raws pl _ _ r

/-- Each of different positions that has a raw value keeps it. -/
theorem State.enterRaws_raws {p : Nat} {l : List Nat} (hp : p ∈ l) (hl : l.Nodup) {r : Raw}
    (hr : t.rawOf x pl b p (clip.toNat.testBit p) = some r) :
    ((l.foldl (State.enterRaw x pl b clip) t).flt (16 * b + p)).raws.get (fun _ => none) pl.slot = some r := by
  obtain ⟨u, hu, hfold⟩ := foldl_once l (State.enterRaw x pl b clip) t
    (fun t => (t.rawOf x pl b p (clip.toNat.testBit p), (t.flt (16 * b + p)).raws.get (fun _ => none) pl.slot)) hp hl
    fun t q _ hq => by
      have hkeep := t.enterRaw_keeps x pl b clip hq
      rw [State.rawOf_congr hkeep, hkeep.flt]
  obtain ⟨hraw, -⟩ := Prod.mk.inj hu
  obtain ⟨-, hflt⟩ := Prod.mk.inj hfold
  rw [hflt]
  exact u.enterRaw_raws x pl b clip p (hraw.trans hr)

/-- A slot's values reach the calibration of the bank, if anything. -/
theorem State.calSample_cases : t.calSample b x pl = t ∨ ∃ k, t.calSample b x pl = t.setCal b k := by
  have usable : ∀ (c : Bool) (k : CalSt), (if c = true then t.setCal b k else t) = t ∨ ∃ k', (if c = true then t.setCal b k else t) = t.setCal b k' := by
    intro c k
    cases c
    · exact .inl rfl
    · exact .inr ⟨k, rfl⟩
  unfold State.calSample
  extract_lets k n
  split
  · exact .inl rfl
  split
  · exact .inl rfl
  split
  split
  · split
    · exact usable _ _
    · exact .inl rfl
  split
  · split
    · exact usable _ _
    · exact .inl rfl
  split
  · split
    · exact .inr ⟨_, rfl⟩
    · exact .inl rfl
  · exact .inl rfl

theorem State.calSample_flts : (t.calSample b x pl).flts = t.flts := by
  obtain h | ⟨k, h⟩ := t.calSample_cases x pl b <;> rw [h]
  rfl

theorem State.checkSample_flts : (t.checkSample b x pl).flts = t.flts := by
  unfold State.checkSample
  split
  · split <;> rfl
  · rfl

end

theorem State.rawBank_flts {s : State} {b : Nat} {clip : BitVec 16} (hlive : (s.bk b).prev.live = true) (hjudged : (s.bk b).prev.judged = true)
    (hslot : (s.bk b).prev.slot + 1 = s.clk.slot) (hheld : s.heldAt (s.bk b).prev.slot = true) (hhere : (s.bk b).missing (s.bk b).prev.slot = false) :
    (s.rawBank b clip).flts = ((s.enabledPos b).foldl (State.enterRaw (s.bk b) (s.bk b).prev b clip) s).flts := by
  unfold State.rawBank
  extract_lets x pl n s1 s2
  have hs1 : s1 = (s.enabledPos b).foldl (State.enterRaw (s.bk b) (s.bk b).prev b clip) s := by
    refine congrArg (fun f => (s.enabledPos b).foldl f s) (funext fun t => funext fun p => ?_)
    extract_lets c cl t1 t2
    have ht2 : t2 = t.showClip c cl := rfl
    unfold State.enterRaw
    extract_lets u
    rw [show u = t2 from ht2.symm]
    cases t2.rawOf x pl b p cl with
    | none => rfl
    | some r => rfl
  have hdue : (pl.live && pl.judged && decide (n + 1 = s.now) && s.heldAt n && !x.missing n) = true := by
    simp only [Bool.and_eq_true, decide_eq_true_eq, Bool.not_eq_true']
    exact ⟨⟨⟨⟨hlive, hjudged⟩, hslot⟩, hheld⟩, hhere⟩
  rw [if_pos hdue, State.checkSample_flts, State.calSample_flts, ← hs1]
  rfl

/-- The values of a slot stand in the pipeline under it once RAW_VALUE_TO_PIPELINE has run. -/
theorem rawValueToPipeline_bank {b : Fin 24} (h : b.val < 25) {clip : BitVec 16} {s : State} (hlive : (s.bk b).prev.live = true)
    (hjudged : (s.bk b).prev.judged = true) (hslot : (s.bk b).prev.slot + 1 = s.clk.slot) (hheld : s.heldAt (s.bk b).prev.slot = true)
    (hhere : (s.bk b).missing (s.bk b).prev.slot = false) :
    Gives (.rawValueToPipeline ⟨b.val, h⟩ clip) s (fun t =>
      ∀ p : Fin 16, p.val ∈ s.enabledPos b → ∀ r, s.rawOf (s.bk b) (s.bk b).prev b p (clip.getLsbD p) = some r →
        (t.flt (16 * b.val + p.val)).raws.get (fun _ => none) (s.bk b).prev.slot = some r) := by
  have hnotfast : (⟨b.val, h⟩ : Fin 25).val ≠ 24 := Nat.ne_of_lt b.isLt
  refine ⟨s.rawBank b clip, if_neg hnotfast, fun p hp r hr => ?_⟩
  rw [State.flt, State.rawBank_flts hlive hjudged hslot hheld hhere]
  exact s.enterRaws_raws (s.bk b) (s.bk b).prev b clip hp (List.nodup_range.filter _) hr

/-! ### Raw values of the fast channels (R150) -/

/-- What fast channel k does as the raw values of slot n enter the pipeline. -/
def State.enterFast (n : Nat) (t : State) (k : Nat) : State :=
  if t.effFlag (Reg.FC_CFG_EN k) then
    match t.fastRaw k n with
    | some v => t.setFlt (384 + k) ((t.flt (384 + k)).putRaw n
        { value := v, flags := rawFlags false false false false false (!t.lockedAt n), refu := !t.fabric.fastSettled, clip := false })
    | none => t
  else t

theorem State.enterFast_cases (n : Nat) (t : State) (k : Nat) : t.enterFast n k = t ∨ ∃ x, t.enterFast n k = t.setFlt (384 + k) x := by
  unfold State.enterFast
  split
  · split
    · exact .inr ⟨_, rfl⟩
    · exact .inl rfl
  · exact .inl rfl

theorem rawValueToPipeline_fast {k : Fin 8} {clip : BitVec 16} {v : Int} {s : State} (hheld : s.heldAt (s.clk.slot - 1) = true)
    (hon : s.effFlag (Reg.FC_CFG_EN k) = true) (hraw : s.fastRaw k (s.clk.slot - 1) = some v) :
    Gives (.rawValueToPipeline 24 clip) s (fun t => (t.flt (384 + k.val)).raws.get (fun _ => none) (s.clk.slot - 1)
      = some { value := v, flags := (if s.lockedAt (s.clk.slot - 1) then 0 else 2), refu := !s.fabric.fastSettled, clip := false }) := by
  have hexec : exec (.rawValueToPipeline 24 clip) s = .next ((List.range 8).foldl (State.enterFast (s.clk.slot - 1)) s) := by
    refine (show exec (.rawValueToPipeline 24 clip) s = .next s.rawFast from rfl).trans ?_
    unfold State.rawFast
    exact congrArg _ (if_pos hheld)
  obtain ⟨u, hu, hfold⟩ := foldl_once (List.range 8) (State.enterFast (s.clk.slot - 1)) s
    (fun t => ({ t with flts := s.flts }, (t.flt (384 + k)).raws.get (fun _ => none) (s.clk.slot - 1))) (List.mem_range.mpr k.isLt) List.nodup_range
    fun t j _ hj => by
      obtain h | ⟨x, h⟩ := t.enterFast_cases (s.clk.slot - 1) j <;> rw [h]
      rw [State.flt_setFlt_ne t x (by omega)]
      rfl
  obtain ⟨hframe, -⟩ := Prod.mk.inj hu
  obtain ⟨-, hflt⟩ := Prod.mk.inj hfold
  have hon' : u.effFlag (Reg.FC_CFG_EN k) = true := (congrArg (fun t : State => t.effFlag (Reg.FC_CFG_EN k)) hframe).trans hon
  have hraw' : u.fastRaw k (s.clk.slot - 1) = some v := (congrArg (fun t : State => t.fastRaw k (s.clk.slot - 1)) hframe).trans hraw
  have hlock : u.lockedAt (s.clk.slot - 1) = s.lockedAt (s.clk.slot - 1) := (congrArg (fun t : State => t.lockedAt (s.clk.slot - 1)) hframe :)
  have hsettled : u.fabric.fastSettled = s.fabric.fastSettled := (congrArg (fun t : State => t.fabric.fastSettled) hframe :)
  refine ⟨_, hexec, hflt.trans ?_⟩
  unfold State.enterFast
  rw [if_pos hon', hraw', hlock, hsettled]
  dsimp only
  rw [State.flt_setFlt_self, FltSt.putRaw, Sparse.get_set_self]
  cases s.lockedAt (s.clk.slot - 1) <;> rfl

/-! ### The output buffer (R132, R148) -/

theorem FltSt.word_putWord_self (f : FltSt) (kind m : Nat) (w : W64) : (f.putWord kind m w).word kind m = some w := by
  unfold FltSt.word FltSt.putWord Sparse.modify
  rw [Sparse.get_set_self]
  simp

theorem FltSt.word_putWord_ne (f : FltSt) {kind kind' : Nat} (h : kind' ≠ kind) (m m' : Nat) (w : W64) :
    (f.putWord kind m w).word kind' m' = f.word kind' m' := by
  unfold FltSt.word FltSt.putWord Sparse.modify
  rw [Sparse.get_set_ne _ _ _ h]

/-- A detector window that closes leaves the VALUE words alone. -/
theorem FltSt.closeWindow_value (f : FltSt) (c : Nat) (e : FltEntry) (m : Nat) (tunl : Bool) (n : Nat) :
    (f.closeWindow c e m tunl).word 0 n = f.word 0 n := by
  unfold FltSt.closeWindow
  extract_lets lo l vals fl mx mn f1
  have hf1 : f1.word 0 n = f.word 0 n := by
    unfold f1
    split
    · rw [FltSt.word_putWord_ne _ (by decide), FltSt.word_putWord_ne _ (by decide)]
    · rfl
  split
  · rfl
  split
  · rw [FltSt.word_putWord_ne _ (by decide), hf1]
  · exact hf1

/-- The envelope leaves the VALUE words alone. -/
theorem FltSt.envelope_value (f : FltSt) (c : Nat) (e : FltEntry) (o : Out) (tunl : Bool) (n : Nat) :
    (f.envelope c e o tunl).word 0 n = f.word 0 n := by
  unfold FltSt.envelope
  extract_lets l
  split
  · rfl
  split
  · exact f.word_putWord_ne (by decide) _ _ _
  split
  · exact f.word_putWord_ne (by decide) _ _ _
  · rfl

/-- The detector words that an output word completes leave the VALUE words alone. -/
theorem FltSt.detectors_value (f : FltSt) (c : Nat) (e : FltEntry) (m : Nat) (o : Out) (tunl closes late : Bool) (n : Nat) :
    (if late then f else (if closes then f.closeWindow c e m tunl else f).envelope c e o tunl).word 0 n = f.word 0 n := by
  cases late
  · refine (FltSt.envelope_value _ c e o tunl n).trans ?_
    cases closes
    · rfl
    · exact f.closeWindow_value c e m tunl n
  · rfl

theorem State.flt_decEvaluate (s : State) (c m : Nat) (v : Int) (flags k : Nat) : (s.decEvaluate c m v flags).flt k = s.flt k := by
  refine foldl_rel (fun t u : State => u.flt k = t.flt k) (fun _ => rfl) (fun _ _ _ h h' => h'.trans h) (List.range 8) _ s fun t u _ => ?_
  dsimp only
  split <;> rfl

theorem outputWordReady_value {c : Fin 392} {e : FltEntry} {nxt : Option FltEntry} {l : List Raw} {s : State}
    (hout : s.outputAt c (s.clk.slot - 6) = some (e, nxt, l)) (hnew : ∀ o ∈ (s.flt c).outs, o.at_ ≠ s.clk.slot - 6) :
    Gives (.outputWordReady c) s (fun t =>
      (t.flt c).word 0 (s.clk.slot - 6) = some (sampleWord ((s.flt c).output e.set (s.tapsFor c e.set.preset (s.clk.slot - 6)) (s.clk.slot - 6)).1 c
        (orFlags l ||| (if s.lockedAt (s.clk.slot - 6) then 0 else 2)) (s.clk.slot - 6))) := by
  have hexec : exec (.outputWordReady c) s = execOutputWordReady c s := rfl
  have htunl : 2 * b2n (!s.lockedAt (s.clk.slot - 6)) = if s.lockedAt (s.clk.slot - 6) then 0 else 2 := by
    cases s.lockedAt (s.clk.slot - 6) <;> rfl
  unfold execOutputWordReady at hexec
  extract_lets m f tunl at hexec
  have hany : ¬ (f.outs.any fun o => o.at_ == m) = true := fun h => by
    obtain ⟨o, ho, hm⟩ := List.any_eq_true.mp h
    exact hnew o ho (beq_iff_eq.mp hm)
  rw [show s.outputAt c m = some (e, nxt, l) from hout] at hexec
  dsimp only at hexec
  rw [if_neg hany] at hexec
  refine ⟨_, hexec, ?_⟩
  beta_reduce
  rw [← htunl, State.flt_decEvaluate, State.flt_setFlt_self]
  exact (FltSt.detectors_value _ _ _ _ _ _ _ _ _).trans (FltSt.word_putWord_self _ _ _ _)

/-- Settles O15: the raw values position by position, the fast channels one by one, the VALUE word as the one that no detector word replaces. -/
theorem samplesReachTheBuffer : Obligations.SamplesReachTheBuffer := by
  unfold Obligations.SamplesReachTheBuffer
  exact ⟨fun b h clip s hlive hjudged hslot hheld hhere => rawValueToPipeline_bank h hlive hjudged hslot hheld hhere,
    fun k clip v s hheld hon hraw => rawValueToPipeline_fast hheld hon hraw,
    fun c e nxt l s hout hnew => outputWordReady_value hout hnew⟩

end Sys2Proof.Machine

namespace Sys2Proof.Machine
open Sys2Proof

/-! ### What calibration leaves alone (R405 to R412) -/

theorem State.getF_setF_fits (s : State) {f : Fld} {v : Nat} (hhi : f.hi < 64) (hv : v < 2 ^ (f.hi + 1 - f.lo)) : (s.setF f v).getF f = v :=
  (s.getF_setF_self f v hhi).trans (Nat.mod_eq_of_lt hv)

/-- From s to t the log, the clock and the hub's calibration stay, and every word below those of the banks. -/
structure State.BankWork (s t : State) : Prop where
  evt  : t.evt = s.evt
  clk  : t.clk = s.clk
  calh : t.calh = s.calh
  reg  : ∀ a < 0x1C40, t.reg a = s.reg a

theorem State.BankWork.refl (s : State) : s.BankWork s := ⟨rfl, rfl, rfl, fun _ _ => rfl⟩

theorem State.BankWork.of_regs {s t : State} (hevt : t.evt = s.evt) (hclk : t.clk = s.clk) (hcalh : t.calh = s.calh) (h : t.regs = s.regs) :
    s.BankWork t := ⟨hevt, hclk, hcalh, fun a _ => State.reg_congr h a⟩

theorem State.BankWork.setReg (s : State) {a : Nat} (v : W64) (ha : 0x1C40 ≤ a) : s.BankWork (s.setReg a v) :=
  ⟨rfl, rfl, rfl, fun _ hc => State.reg_setReg_ne s v (by omega)⟩

theorem State.BankWork.setF (s : State) {f : Fld} (v : Nat) (hf : 0x1C40 ≤ f.addr) : s.BankWork (s.setF f v) := .setReg s _ hf

section
variable {s t u : State} (h : s.BankWork t)
include h

theorem State.BankWork.trans (h' : t.BankWork u) : s.BankWork u :=
  ⟨h'.evt.trans h.evt, h'.clk.trans h.clk, h'.calh.trans h.calh, fun a ha => (h'.reg a ha).trans (h.reg a ha)⟩

theorem State.BankWork.getF (f : Fld) (hf : f.addr < 0x1C40) : t.getF f = s.getF f := by
  rw [State.getF, h.reg _ hf, ← State.getF]

theorem State.BankWork.now : t.now = s.now := congrArg ClockSt.slot h.clk

theorem State.BankWork.logSlot : t.logSlot = s.logSlot := State.logSlot_congr (fun a _ ha => h.reg a (by omega)) h.clk

/-- A record logged after work on a bank counts as logged before it. -/
theorem State.BankWork.logged {v : State} {c : Cond} {n : Nat} {d2 d3 : W64} (hlog : Logged t v c n d2 d3) : Logged s v c n d2 d3 :=
  hlog.of_same h.evt h.logSlot

/-- A record logged stands in the log after work on a bank. -/
theorem State.BankWork.stands {v : State} {c : Cond} {n : Nat} {d2 d3 : W64} (hlog : Logged v s c n d2 d3) : Logged v t c n d2 d3 :=
  hlog.of_evt h.evt

end

theorem bank_spare_ge (b : Nat) : 0x1C40 ≤ Reg.BANK_SPARE b := by simp only [Reg.BANK_SPARE]; omega
theorem bank_cal_ge (b : Nat) : 0x1C40 ≤ Reg.BANK_CAL b := by simp only [Reg.BANK_CAL]; omega
theorem bank_temp_ge (b : Nat) : 0x1C40 ≤ Reg.BANK_TEMP b := by simp only [Reg.BANK_TEMP]; omega
theorem bank_calslot_ge (b : Nat) : 0x1C40 ≤ Reg.BANK_CALSLOT b := by simp only [Reg.BANK_CALSLOT]; omega

theorem State.cal_congr {s t : State} (h : t.cals = s.cals) (b : Nat) : t.cal b = s.cal b := by rw [State.cal, h, ← State.cal]

section
variable (s : State) (b : Nat)

theorem State.setBk_work (x : BankSt) : s.BankWork (s.setBk b x) := .of_regs rfl rfl rfl rfl

theorem State.setCal_work (k : CalSt) : s.BankWork (s.setCal b k) := .of_regs rfl rfl rfl rfl

theorem State.spareToNode_work (r : Nat) : s.BankWork (s.spareToNode b r) :=
  ((s.setBk_work b _).trans (.setF _ 0 (bank_spare_ge b))).trans (.setF _ 1 (bank_cal_ge b))

theorem State.restoreTerms_work (p : Nat) : s.BankWork (s.restoreTerms b p) := s.setBk_work b _

theorem State.accSpare_cases : s.accSpare b = s
    ∨ ∃ x, s.accSpare b = ((s.setF (Reg.BANK_SPARE_CONN b) 0).setF (Reg.BANK_SPARE_CAL b) 1).setBk b x := by
  unfold State.accSpare
  extract_lets k step s1
  split
  · exact .inr ⟨_, rfl⟩
  · exact .inl rfl

theorem State.accSpare_work : s.BankWork (s.accSpare b) := by
  obtain h | ⟨x, h⟩ := s.accSpare_cases b <;> rw [h]
  · exact .refl s
  · exact ((State.BankWork.setF s 0 (bank_spare_ge b)).trans (.setF _ 1 (bank_spare_ge b))).trans (State.setBk_work _ b x)

theorem State.accRelease_work : s.BankWork (s.accRelease b) := by
  unfold State.accRelease
  extract_lets k x s1
  split
  · exact (s.setBk_work b _).trans (.setF s1 0 (bank_spare_ge b))
  · exact s.setBk_work b _

@[simp] theorem State.cal_accSpare (c : Nat) : (s.accSpare b).cal c = s.cal c := by
  obtain h | ⟨x, h⟩ := s.accSpare_cases b <;> rw [h]
  rfl

/-- A result put in line for flash stands there (R415). -/
theorem State.storeResult_waits : ∃ r ∈ (s.storeResult b).calh.waiting, r.bank = b :=
  ⟨s.calBank b, List.mem_append_right _ (List.mem_singleton_self _), rfl⟩

theorem State.reg_storeResult {a : Nat} (ha : a ≠ Reg.CAL_SET) : (s.storeResult b).reg a = s.reg a :=
  State.reg_setF_ne _ Reg.CAL_SET_PENDING _ ha

end

/-! ### The bits of CAL_STAT (R404) -/

theorem testBit_withBit_self (v i : Nat) (x : Bool) : (withBit v i x).testBit i = x := by
  unfold withBit
  split
  next h => exact h
  next h =>
    cases x
    · have hset : v.testBit i = true := by simpa using h
      have hle : 2 ^ i ≤ v := Nat.ge_two_pow_of_testBit hset
      have hsub := Nat.testBit_two_pow_add_eq (v - 2 ^ i) i
      rw [Nat.add_sub_cancel' hle, hset] at hsub
      simpa using hsub.symm
    · have hclear : v.testBit i = false := by simpa using h
      simp [Nat.add_comm v, Nat.testBit_two_pow_add_eq, hclear]

section
variable (s : State) {b : Nat} (hb : b < 24) (v : Bool)
include hb

theorem State.calDue_setDue : (s.setDue b v).calDue b = v := by
  unfold State.calDue State.setDue
  rw [State.getF_setF_self _ _ _ (by decide), Nat.testBit_mod_two_pow, testBit_withBit_self,
    decide_eq_true (show b < Reg.CAL_STAT_DUE.hi + 1 - Reg.CAL_STAT_DUE.lo from hb), Bool.true_and]

theorem State.calActive_setActive : (s.setActive b v).calActive b = v := by
  unfold State.calActive State.setActive
  rw [State.getF_setF_self _ _ _ (by decide), Nat.testBit_mod_two_pow, testBit_withBit_self,
    decide_eq_true (show b < Reg.CAL_STAT_ACTIVE.hi + 1 - Reg.CAL_STAT_ACTIVE.lo from hb), Bool.true_and]

end

theorem State.calDue_congr {s t : State} (h : t.reg Reg.CAL_STAT = s.reg Reg.CAL_STAT) (b : Nat) : t.calDue b = s.calDue b :=
  congrArg (fun w => (bits w 47 24).testBit b) h

theorem State.calActive_congr {s t : State} (h : t.reg Reg.CAL_STAT = s.reg Reg.CAL_STAT) (b : Nat) : t.calActive b = s.calActive b :=
  congrArg (fun w => (bits w 23 0).testBit b) h

theorem State.calDue_setActive (s : State) (b c : Nat) (v : Bool) : (s.setActive b v).calDue c = s.calDue c := by
  unfold State.calDue State.setActive
  rw [State.getF_setF_beside _ Reg.CAL_STAT_ACTIVE Reg.CAL_STAT_DUE _ rfl (by decide) (by decide)]

theorem State.calActive_setDue (s : State) (b c : Nat) (v : Bool) : (s.setDue b v).calActive c = s.calActive c := by
  unfold State.calActive State.setDue
  rw [State.getF_setF_beside _ Reg.CAL_STAT_DUE Reg.CAL_STAT_ACTIVE _ rfl (by decide) (by decide)]

/-! ### The start of a pass (R404, R405) -/

theorem State.eff_setReg_ne (s : State) {a c : Nat} (v : W64) (h : c ≠ a) : (s.setReg a v).eff c = s.eff c := by
  unfold State.eff
  rw [State.setReg_effOld, State.reg_setReg_ne s v h]

theorem State.eff_log (s : State) (c : Cond) (u : Nat) (l : List W64) {a : Nat} (h : evtReg a = false) : (s.log c u l).eff a = s.eff a := by
  unfold State.eff
  rw [State.log_effOld, State.reg_log s c u l h]

section
variable {s t : State} (h : ∀ c, t.eff (Reg.CH_CFG c) = s.eff (Reg.CH_CFG c)) (b : Nat)
include h

/-- Which positions a bank enables is read from their settings in force. -/
theorem State.enabledPos_congr : t.enabledPos b = s.enabledPos b := by
  unfold State.enabledPos
  refine congrArg (positions.filter ·) (funext fun p => ?_)
  exact congrArg (fun w => bits w 0 0 != 0) (h (16 * b + p))

theorem State.usedRanges_congr : t.usedRanges b = s.usedRanges b := by
  unfold State.usedRanges
  rw [State.enabledPos_congr h]
  refine congrArg ([0, 1, 2].filter ·) (funext fun r => congrArg ((s.enabledPos b).any ·) (funext fun p => ?_))
  exact congrArg (fun w => bits w 9 8 == r) (h (16 * b + p))

end

/-- A bank that begins its pass: no longer due but active, its spare taken, TCAL the present T. -/
def State.takenBy (s : State) (b : Nat) : State :=
  (((s.setDue b false).setActive b true).setF (Reg.BANK_SPARE_CAL b) 1).setF (Reg.BANK_TEMP_TCAL b) (s.getF (Reg.BANK_TEMP_T b))

theorem State.takenBy_eff (s : State) (b c : Nat) : (s.takenBy b).eff (Reg.CH_CFG c) = s.eff (Reg.CH_CFG c) := by
  have hstat : Reg.CH_CFG c ≠ Reg.CAL_STAT := by
    simp only [Reg.CH_CFG, Reg.CAL_STAT]
    omega
  have hspare : Reg.CH_CFG c ≠ Reg.BANK_SPARE b := by
    simp only [Reg.CH_CFG, Reg.BANK_SPARE]
    omega
  have htemp : Reg.CH_CFG c ≠ Reg.BANK_TEMP b := by
    simp only [Reg.CH_CFG, Reg.BANK_TEMP]
    omega
  exact (State.eff_setReg_ne _ _ htemp).trans ((State.eff_setReg_ne _ _ hspare).trans ((State.eff_setReg_ne _ _ hstat).trans (State.eff_setReg_ne s _ hstat)))

theorem State.takenBy_spec (s : State) {b : Nat} (hb : b < 24) :
    (s.takenBy b).calDue b = false ∧ (s.takenBy b).calActive b = true ∧ (s.takenBy b).getF (Reg.BANK_TEMP_TCAL b) = s.getF (Reg.BANK_TEMP_T b)
      ∧ (s.takenBy b).getF (Reg.BANK_SPARE_CAL b) = 1 := by
  have hwork : ((s.setDue b false).setActive b true).BankWork (s.takenBy b) :=
    (State.BankWork.setF _ 1 (bank_spare_ge b)).trans (.setF _ _ (bank_temp_ge b))
  have hstat := hwork.reg Reg.CAL_STAT (by decide)
  have htemp : s.getF (Reg.BANK_TEMP_T b) < 65536 := Nat.mod_lt _ (show 0 < 2 ^ (31 + 1 - 16) by decide)
  refine ⟨?_, ?_, State.getF_setF_fits _ (show 15 < 64 by decide) htemp, ?_⟩
  · rw [State.calDue_congr hstat, State.calDue_setActive, State.calDue_setDue s hb]
  · rw [State.calActive_congr hstat, State.calActive_setActive _ hb]
  · refine (State.getF_setF_addr _ (Reg.BANK_TEMP_TCAL b) (Reg.BANK_SPARE_CAL b) _ ?_).trans (State.getF_setF_fits _ (show 8 < 64 by decide) (show 1 < 2 by decide))
    simp only [Reg.BANK_SPARE_CAL, Reg.BANK_TEMP_TCAL, Reg.BANK_SPARE, Reg.BANK_TEMP]
    omega

/-- The spare goes to the node for the first range, if any is used. -/
def State.toFirstRange (s : State) (b : Nat) (rs : List Nat) : State := (rs.head?.map (s.spareToNode b)).getD s

/-- The state of a pass that begins. -/
def State.passBegun (s : State) (b : Nat) : CalSt :=
  { s.cal b with
    stage := if (s.usedRanges b).isEmpty then 2 else 1, t0 := s.now, ranges := s.usedRanges b, chans := s.enabledPos b, step := 3
    ext := 0, overlap := [], interval := 0, sums := [], refused := false, done := [], failed := 0, moved := 0
    abandon := false, restart := false, again := false }

/-- The hub once a due bank has begun its pass, from the state after a preemption was logged. -/
def State.passStarted (s : State) (b : Nat) : State :=
  (((s.takenBy b).setCal b (s.passBegun b)).log .CAL_PASS_START b [BitVec.ofNat 64 s.now]).toFirstRange b (s.usedRanges b)

/-- The state at the start of a pass: where the spare was connected by hand, that is logged first. -/
def State.preempted (s : State) (b : Nat) : State :=
  if s.effFlag (Reg.BANK_SPARE_CONN b) then s.log .BANK_SPARE_PREEMPT b [BitVec.ofNat 64 s.now] else s

theorem calPassStart_idle {b : Fin 24} {s : State} (h : s.passMayStart b = false) : exec (.calPassStart b) s = .next s := if_neg (by simp [h])

theorem calPassStart_due {b : Fin 24} {s : State} (h : s.passMayStart b = true) :
    exec (.calPassStart b) s = .next ((s.preempted b).passStarted b) := by
  have hexec : exec (.calPassStart b) s = execCalPassStart b s := rfl
  unfold execCalPassStart at hexec
  rw [if_pos h] at hexec
  extract_lets s0 s1 rs k k1 s2 at hexec
  have hs1 : s1 = s0.takenBy b := rfl
  have hchans : s1.enabledPos b = s0.enabledPos b := State.enabledPos_congr (s0.takenBy_eff b) b
  have hrs : rs = s0.usedRanges b := State.usedRanges_congr (s0.takenBy_eff b) b
  have hk1 : k1 = s0.passBegun b := by
    unfold k1 State.passBegun
    rw [hchans, hrs]
    rfl
  have hs2 : s2 = ((s0.takenBy b).setCal b (s0.passBegun b)).log .CAL_PASS_START b [BitVec.ofNat 64 s0.now] := by
    unfold s2
    rw [hk1]
    rfl
  have hs0 : s0 = s.preempted b := rfl
  rw [hrs] at hexec
  rw [hexec, ← hs0, State.passStarted, State.toFirstRange, ← hs2]
  cases s0.usedRanges b <;> rfl

theorem State.spareToNode_bk (s : State) (b r : Nat) : (s.spareToNode b r).bk b = { s.bk b with node := true, spareRange := r } :=
  State.bk_setBk_self s b _

/-- The spare on its node: BANK_CAL.STATE says so, CAL and TCAL of the bank stay. -/
theorem State.spareToNode_words (s : State) (b r : Nat) :
    (s.spareToNode b r).getF (Reg.BANK_CAL_STATE b) = 1 ∧ (s.spareToNode b r).getF (Reg.BANK_SPARE_CAL b) = s.getF (Reg.BANK_SPARE_CAL b)
      ∧ (s.spareToNode b r).getF (Reg.BANK_TEMP_TCAL b) = s.getF (Reg.BANK_TEMP_TCAL b) := by
  unfold State.spareToNode
  simp (disch := (dsimp only [Reg.BANK_CAL_STATE, Reg.BANK_CAL, Reg.BANK_SPARE_CAL, Reg.BANK_SPARE_CONN, Reg.BANK_SPARE, Reg.BANK_TEMP_TCAL,
    Reg.BANK_TEMP]; omega)) only [State.getF_setF_apart, State.getF_setF_fits, State.getF_setBk, and_self]

/-- What stands after the spare has gone to its first range. -/
theorem State.toFirstRange_spec (s : State) (b : Nat) (rs : List Nat) :
    s.BankWork (s.toFirstRange b rs) ∧ (s.toFirstRange b rs).cals = s.cals
      ∧ (s.toFirstRange b rs).getF (Reg.BANK_SPARE_CAL b) = s.getF (Reg.BANK_SPARE_CAL b)
      ∧ (s.toFirstRange b rs).getF (Reg.BANK_TEMP_TCAL b) = s.getF (Reg.BANK_TEMP_TCAL b)
      ∧ ∀ r rest, rs = r :: rest → ((s.toFirstRange b rs).bk b).node = true ∧ ((s.toFirstRange b rs).bk b).spareRange = r
        ∧ (s.toFirstRange b rs).getF (Reg.BANK_CAL_STATE b) = 1 := by
  cases rs with
  | nil => exact ⟨.refl s, rfl, rfl, rfl, nofun⟩
  | cons r rest =>
    obtain ⟨hstate, hcal, htcal⟩ := s.spareToNode_words b r
    refine ⟨s.spareToNode_work b r, rfl, hcal, htcal, fun r' rest' h => ?_⟩
    cases h
    exact ⟨congrArg BankSt.node (s.spareToNode_bk b r), congrArg BankSt.spareRange (s.spareToNode_bk b r), hstate⟩

/-- The preemption that is logged changes nothing that the pass begins with. -/
theorem State.preempted_spec (s : State) (b : Nat) :
    (∀ c, (s.preempted b).eff (Reg.CH_CFG c) = s.eff (Reg.CH_CFG c)) ∧ (s.preempted b).now = s.now
      ∧ (s.preempted b).getF (Reg.BANK_TEMP_T b) = s.getF (Reg.BANK_TEMP_T b) := by
  have hcfg : ∀ c, evtReg (Reg.CH_CFG c) = false := fun c => evtReg_of_ge (by simp only [Reg.CH_CFG]; omega)
  have htemp : evtReg (Reg.BANK_TEMP b) = false := evtReg_of_ge (Nat.le_trans (by decide) (bank_temp_ge b))
  unfold State.preempted
  split
  · exact ⟨fun c => State.eff_log s _ _ _ (hcfg c), congrArg ClockSt.slot (State.log_clk _ _ _ _), State.getF_log s _ _ _ _ htemp⟩
  · exact ⟨fun _ => rfl, rfl, rfl⟩

/-- What stands after a pass has begun. -/
theorem State.passStarted_spec (s : State) {b : Nat} (hb : b < 24) :
    let t := s.passStarted b
    t.calDue b = false ∧ t.calActive b = true ∧ t.getF (Reg.BANK_TEMP_TCAL b) = s.getF (Reg.BANK_TEMP_T b)
      ∧ t.getF (Reg.BANK_SPARE_CAL b) = 1 ∧ t.cal b = s.passBegun b
      ∧ (∀ r rest, s.usedRanges b = r :: rest → (t.bk b).node = true ∧ (t.bk b).spareRange = r ∧ t.getF (Reg.BANK_CAL_STATE b) = 1)
      ∧ Logged s t .CAL_PASS_START b (BitVec.ofNat 64 s.now) 0 := by
  obtain ⟨hdue, hactive, htcal, hspare⟩ := s.takenBy_spec hb
  generalize hu : ((s.takenBy b).setCal b (s.passBegun b)).log .CAL_PASS_START b [BitVec.ofNat 64 s.now] = u
  have hreg : ∀ a, evtReg a = false → u.reg a = (s.takenBy b).reg a := fun a ha => by
    rw [← hu, State.reg_log _ _ _ _ ha, State.reg_congr (State.setCal_regs _ _ _)]
  have hcal : u.cal b = s.passBegun b := by
    rw [← hu, State.cal_log, State.cal_setCal_self]
  have hlog : Logged s u .CAL_PASS_START b (BitVec.ofNat 64 s.now) 0 := by
    rw [← hu]
    refine (State.logged_log _ .CAL_PASS_START b [BitVec.ofNat 64 s.now] (by simp)).of_same rfl (State.logSlot_congr (fun a _ ha => ?_) rfl)
    have hstat : a ≠ Reg.CAL_STAT := Nat.ne_of_lt (Nat.lt_of_lt_of_le ha (by decide))
    have hwork : ((s.setDue b false).setActive b true).BankWork (s.takenBy b) :=
      (State.BankWork.setF _ 1 (bank_spare_ge b)).trans (.setF _ _ (bank_temp_ge b))
    rw [State.reg_congr (State.setCal_regs _ _ _)]
    exact (hwork.reg a (by omega)).trans ((State.reg_setReg_ne _ _ hstat).trans (State.reg_setReg_ne s _ hstat))
  obtain ⟨hwork, hcals, hspare', htcal', hnode⟩ := u.toFirstRange_spec b (s.usedRanges b)
  have hstat : (u.toFirstRange b (s.usedRanges b)).reg Reg.CAL_STAT = (s.takenBy b).reg Reg.CAL_STAT :=
    (hwork.reg _ (by decide)).trans (hreg _ (by decide))
  have hbank : ∀ f : Fld, 0x1C40 ≤ f.addr → u.getF f = (s.takenBy b).getF f := fun f hf =>
    congrArg (bits · f.hi f.lo) (hreg f.addr (evtReg_of_ge (Nat.le_trans (by decide) hf)))
  have ht : s.passStarted b = u.toFirstRange b (s.usedRanges b) := by
    rw [← hu]
    rfl
  intro t
  rw [show t = _ from ht]
  exact ⟨(State.calDue_congr hstat b).trans hdue, (State.calActive_congr hstat b).trans hactive,
    htcal'.trans ((hbank _ (bank_temp_ge b)).trans htcal), hspare'.trans ((hbank _ (bank_spare_ge b)).trans hspare),
    (State.cal_congr hcals b).trans hcal, hnode, hwork.stands hlog⟩

theorem calPassStart_begins {b : Fin 24} {s : State} (h : s.passMayStart b = true) : Gives (.calPassStart b) s (fun t =>
    t.calDue b = false ∧ t.calActive b = true ∧ t.getF (Reg.BANK_TEMP_TCAL b) = s.getF (Reg.BANK_TEMP_T b)
    ∧ t.getF (Reg.BANK_SPARE_CAL b) = 1 ∧ (t.cal b).chans = s.enabledPos b ∧ (t.cal b).ranges = s.usedRanges b ∧ (t.cal b).t0 = s.now
    ∧ (t.cal b).stage = (if s.usedRanges b = [] then 2 else 1)
    ∧ (∀ r rest, s.usedRanges b = r :: rest → (t.bk b).node = true ∧ (t.bk b).spareRange = r ∧ t.getF (Reg.BANK_CAL_STATE b) = 1)
    ∧ (s.effFlag (Reg.BANK_SPARE_CONN b) = false → Logged s t .CAL_PASS_START b (BitVec.ofNat 64 s.now) 0)) := by
  obtain ⟨heff, hnow, htemp⟩ := s.preempted_spec b
  obtain ⟨hdue, hactive, htcal, hspare, hcal, hnode, hlog⟩ := (s.preempted b).passStarted_spec b.isLt
  rw [State.usedRanges_congr heff] at hnode
  have hstage : ((s.preempted b).passBegun b).stage = if s.usedRanges b = [] then 2 else 1 := by
    unfold State.passBegun
    rw [State.usedRanges_congr heff]
    exact if_congr List.isEmpty_iff rfl rfl
  refine ⟨_, calPassStart_due h, hdue, hactive, htcal.trans htemp, hspare, ?_, ?_, ?_, ?_, hnode, fun hconn => ?_⟩
  · rw [hcal]
    exact State.enabledPos_congr heff b
  · rw [hcal]
    exact State.usedRanges_congr heff b
  · rw [hcal]
    exact hnow
  · rw [hcal]
    exact hstage
  · have hs : s.preempted b = s := if_neg (by simp [hconn])
    rw [hs] at hlog ⊢
    exact hlog

end Sys2Proof.Machine

namespace Sys2Proof.Machine
open Sys2Proof

/-! ### The terms of a path (R113, R405) -/

/-- Terms in the ranges of R113. -/
def PathTerms.Fits (t : PathTerms) : Prop :=
  t.d0.natAbs ≤ 2 ^ 26 ∧ t.e0.natAbs ≤ 2 ^ 23 ∧ t.d1.natAbs ≤ 2 ^ 26 ∧ t.e1.natAbs ≤ 2 ^ 23 ∧ t.g.natAbs ≤ 2 ^ 27 ∧ t.o.natAbs ≤ 2 ^ 24

/-- A bank with the terms of a path replaced. -/
def BankSt.withTerms (x : BankSt) (p : Nat) (fine traced : Bool) (t : PathTerms) : BankSt :=
  { x with
    halves := (x.halves.set (fun _ => {}) (halfKey p fine 0) { d := t.d0, e := t.e0 }).set (fun _ => {}) (halfKey p fine 1)
      { d := t.d1, e := t.e1 }
    scales := x.scales.set (fun _ => {}) (scaleKey p fine) { g := t.g, o := t.o, traced := traced } }

theorem State.putTerms_eq (s : State) (b p : Nat) (fine traced : Bool) (t : PathTerms) :
    s.putTerms b p fine traced t = s.setBk b ((s.bk b).withTerms p fine traced t) := rfl

theorem halfKey_ne (p : Nat) (fine : Bool) : halfKey p fine 1 ≠ halfKey p fine 0 := by
  unfold halfKey
  omega

section
variable (x : BankSt) (p : Nat) (fine traced : Bool) (t : PathTerms)

theorem BankSt.withTerms_halves (k : Nat) : (x.withTerms p fine traced t).halves.get (fun _ => {}) k
    = if k = halfKey p fine 1 then { d := t.d1, e := t.e1 } else if k = halfKey p fine 0 then { d := t.d0, e := t.e0 } else x.halves.get (fun _ => {}) k := by
  unfold BankSt.withTerms
  rw [Sparse.get_set, Sparse.get_set]

theorem BankSt.withTerms_scales (k : Nat) : (x.withTerms p fine traced t).scales.get (fun _ => {}) k
    = if k = scaleKey p fine then { g := t.g, o := t.o, traced := traced } else x.scales.get (fun _ => {}) k := Sparse.get_set _ _ _ _ _

/-- What stands in the bank for the path itself. -/
theorem BankSt.withTerms_self :
    (x.withTerms p fine traced t).halves.get (fun _ => {}) (halfKey p fine 0) = { d := t.d0, e := t.e0 }
      ∧ (x.withTerms p fine traced t).halves.get (fun _ => {}) (halfKey p fine 1) = { d := t.d1, e := t.e1 }
      ∧ (x.withTerms p fine traced t).scales.get (fun _ => {}) (scaleKey p fine) = { g := t.g, o := t.o, traced := traced } := by
  rw [x.withTerms_halves, x.withTerms_halves, x.withTerms_scales, if_neg (halfKey_ne p fine).symm, if_pos rfl, if_pos rfl, if_pos rfl]
  exact ⟨rfl, rfl, rfl⟩

/-- What stands in the bank for the other path of the position stays. -/
theorem BankSt.withTerms_other :
    (∀ h, h < 2 → (x.withTerms p fine traced t).halves.get (fun _ => {}) (halfKey p (!fine) h) = x.halves.get (fun _ => {}) (halfKey p (!fine) h))
      ∧ (x.withTerms p fine traced t).scales.get (fun _ => {}) (scaleKey p (!fine)) = x.scales.get (fun _ => {}) (scaleKey p (!fine)) := by
  have hkey : scaleKey p (!fine) ≠ scaleKey p fine := by
    unfold scaleKey b2n
    cases fine <;> simp
  refine ⟨fun h hh => ?_, ?_⟩
  · rw [x.withTerms_halves, if_neg, if_neg] <;> rw [halfKey_eq, halfKey_eq] <;> omega
  · rw [x.withTerms_scales, if_neg hkey]

theorem BankSt.termsInRange_congr {x y : BankSt} (hh : ∀ h, h < 2 → y.halves.get (fun _ => {}) (halfKey p fine h) = x.halves.get (fun _ => {}) (halfKey p fine h))
    (hs : y.scales.get (fun _ => {}) (scaleKey p fine) = x.scales.get (fun _ => {}) (scaleKey p fine)) :
    y.termsInRange p fine = x.termsInRange p fine := by
  unfold BankSt.termsInRange
  simp only [List.all_cons, List.all_nil, hs, hh 0 (by decide), hh 1 (by decide)]

theorem BankSt.termsInRange_withTerms {t : PathTerms} (ht : t.Fits) : (x.withTerms p fine traced t).termsInRange p fine = true := by
  obtain ⟨h0, h1, hs⟩ := x.withTerms_self p fine traced t
  obtain ⟨hd0, he0, hd1, he1, hg, ho⟩ := ht
  unfold BankSt.termsInRange
  simp only [List.all_cons, List.all_nil, h0, h1, hs, decide_eq_true hd0, decide_eq_true he0, decide_eq_true hd1, decide_eq_true he1,
    decide_eq_true hg, decide_eq_true ho, Bool.and_self]

end

/-- The state once n free values have been taken. -/
def State.drawn (s : State) (n : Nat) : State := { s with fresh := n }

/-- A free value lies in its range, and taking it changes nothing else. -/
theorem State.freeIn_draws (s : State) (n r : Nat) : ∃ d : Int, d.natAbs ≤ r ∧ (s.drawn n).freeIn r = (d, s.drawn (n + 1)) := by
  refine ⟨_, ?_, rfl⟩
  have hlt : (Config.freeValue n).toNat % (2 * r + 1) < 2 * r + 1 := Nat.mod_lt _ (Nat.succ_pos _)
  change (((((Config.freeValue n).toNat % (2 * r + 1) : Nat) : Int)) - (r : Int)).natAbs ≤ r
  omega

/-- New terms of a spare path are free values in the ranges of R113 (R405). -/
theorem State.newTerms_draws (s : State) (n b p : Nat) (fine traced : Bool) :
    ∃ t : PathTerms, t.Fits ∧ (s.drawn n).newTerms b p fine traced = (s.drawn (n + 6)).putTerms b p fine traced t := by
  obtain ⟨d0, hd0, h0⟩ := s.freeIn_draws n (2 ^ 26)
  obtain ⟨e0, he0, h1⟩ := s.freeIn_draws (n + 1) (2 ^ 23)
  obtain ⟨d1, hd1, h2⟩ := s.freeIn_draws (n + 2) (2 ^ 26)
  obtain ⟨e1, he1, h3⟩ := s.freeIn_draws (n + 3) (2 ^ 23)
  obtain ⟨g, hg, h4⟩ := s.freeIn_draws (n + 4) (2 ^ 27)
  obtain ⟨o, ho, h5⟩ := s.freeIn_draws (n + 5) (2 ^ 24)
  unfold State.newTerms
  simp only [h0, h1, h2, h3, h4, h5]
  exact ⟨⟨d0, e0, d1, e1, g, o⟩, ⟨hd0, he0, hd1, he1, hg, ho⟩, rfl⟩

/-- New terms of a spare path: the bank takes terms that fit, and its free values apart nothing else changes. -/
theorem State.newTerms_spec (s : State) (b p : Nat) (fine traced : Bool) :
    s.BankWork (s.newTerms b p fine traced) ∧ (s.newTerms b p fine traced).cals = s.cals
      ∧ ∃ t : PathTerms, t.Fits ∧ (s.newTerms b p fine traced).bk b = (s.bk b).withTerms p fine traced t := by
  obtain ⟨t, ht, h⟩ := s.newTerms_draws s.fresh b p fine traced
  rw [show s.newTerms b p fine traced = _ from h]
  exact ⟨.of_regs rfl rfl rfl rfl, rfl, t, ht, State.bk_setBk_self _ b _⟩

/-- The new terms of both paths of the spare fit. -/
theorem State.spareTerms_fit (s : State) (b p : Nat) (traced : Bool) :
    let t := (s.newTerms b p false traced).newTerms b p true traced
    s.BankWork t ∧ t.cals = s.cals ∧ (t.bk b).termsInRange p false = true ∧ (t.bk b).termsInRange p true = true ∧ (t.bk b).subs = (s.bk b).subs := by
  intro t
  obtain ⟨hwork, hcals, u, hu, hcoarse⟩ := s.newTerms_spec b p false traced
  obtain ⟨hwork', hcals', v, hv, hfine⟩ := (s.newTerms b p false traced).newTerms_spec b p true traced
  rw [hcoarse] at hfine
  obtain ⟨hhalves, hscales⟩ := ((s.bk b).withTerms p false traced u).withTerms_other p true traced v
  rw [show t.bk b = _ from hfine]
  refine ⟨hwork.trans hwork', hcals'.trans hcals, ?_, BankSt.termsInRange_withTerms _ p true traced hv, rfl⟩
  rw [BankSt.termsInRange_congr p false hhalves hscales]
  exact BankSt.termsInRange_withTerms _ p false traced hu

/-- The next range's turn, or the end of the spare phases: the spare is on its node while a range is left. -/
def State.toNextRange (s : State) (b : Nat) (rest : List Nat) : State :=
  (rest.head?.map (s.spareToNode b)).getD (s.setBk b { s.bk b with node := false })

theorem State.toNextRange_spec (s : State) (b : Nat) (rest : List Nat) :
    (s.toNextRange b rest).cals = s.cals
      ∧ ∃ r, (s.toNextRange b rest).bk b = { s.bk b with node := !rest.isEmpty, spareRange := r } := by
  cases rest with
  | nil => exact ⟨rfl, _, State.bk_setBk_self _ b _⟩
  | cons r rest => exact ⟨rfl, r, s.spareToNode_bk b r⟩

/-- A spare phase that ends: the spare's terms of the range fit, and the next range follows, or the first channel (R405). -/
theorem calSparePhaseEnd_sets {b : Fin 24} {s : State} {r : Nat} {rest : List Nat} (hr : (s.cal b).ranges = r :: rest) (hst : (s.cal b).stage = 1)
    (hdue : (s.cal b).t0 + 288 ≤ s.now) (hab : (s.cal b).abandon = false) : Gives (.calSparePhaseEnd b) s (fun t =>
      t.cal b = { s.cal b with ranges := rest, t0 := (s.cal b).t0 + 288, stage := if rest.isEmpty then 2 else 1 }
      ∧ (t.bk b).termsInRange (16 + r) false = true ∧ (t.bk b).termsInRange (16 + r) true = true
      ∧ (t.bk b).node = !rest.isEmpty ∧ (t.bk b).subs = (s.bk b).subs) := by
  obtain ⟨-, -, hcoarse, hfine, hsubs⟩ := s.spareTerms_fit b (16 + r) (s.cur == 2)
  generalize hu : (s.newTerms b (16 + r) false (s.cur == 2)).newTerms b (16 + r) true (s.cur == 2) = u at hcoarse hfine hsubs
  let k1 : CalSt := { s.cal b with ranges := rest, t0 := (s.cal b).t0 + 288, stage := if rest.isEmpty then 2 else 1 }
  obtain ⟨hcals, n, hbk⟩ := (u.setCal b k1).toNextRange_spec b rest
  have hexec : exec (.calSparePhaseEnd b) s = execCalSparePhaseEnd b s := rfl
  unfold execCalSparePhaseEnd at hexec
  extract_lets k at hexec
  rw [show k.ranges = r :: rest from hr] at hexec
  have hall : k.stage = 1 ∧ k.t0 + 288 ≤ s.now ∧ k.abandon = false := ⟨hst, hdue, hab⟩
  dsimp only at hexec
  rw [if_pos hall, hu] at hexec
  have hnext : exec (.calSparePhaseEnd b) s = .next ((u.setCal b k1).toNextRange b rest) := by
    rw [hexec]
    cases rest <;> rfl
  refine ⟨_, hnext, (State.cal_congr hcals b).trans (State.cal_setCal_self _ _ _), ?_⟩
  rw [hbk]
  exact ⟨hcoarse, hfine, rfl, hsubs⟩

end Sys2Proof.Machine

namespace Sys2Proof.Machine
open Sys2Proof

/-- A pass event counted in CAL_CNT and logged. -/
theorem State.counted_logged {s u : State} (hevt : u.evt = s.evt) (hslot : u.logSlot = s.logSlot) (hcnt : u.reg Reg.CAL_CNT = s.reg Reg.CAL_CNT)
    {f : Fld} (hf : f.addr = Reg.CAL_CNT) (hhi : f.hi < 64) (c : Cond) (n : Nat) (l : List W64) (hl : l.length ≤ 6) :
    ((u.bump f).log c n l).getF f = capAt f.max (s.getF f + 1) ∧ Logged s ((u.bump f).log c n l) c n (l.getD 0 0) (l.getD 1 0) := by
  have hslot' : (u.bump f).logSlot = u.logSlot :=
    State.logSlot_congr (fun a _ ha => State.reg_bump_ne u f (by rw [hf]; simp only [Reg.CAL_CNT]; omega)) rfl
  refine ⟨?_, (State.logged_log (u.bump f) c n l hl).of_same ((State.bump_evt u f).trans hevt) (hslot'.trans hslot)⟩
  rw [State.getF_log _ _ _ _ _ (by rw [hf]; decide), State.getF_bump _ _ hhi, State.getF, hf, hcnt, ← hf, ← State.getF]

/-! ### A channel of a pass (R406, R407) -/

/-- The crosspoint on the position of a channel. -/
def State.connectSpare (s : State) (b p : Nat) : State :=
  (((((s.setF (Reg.BANK_SPARE_CONN b) 1).setF (Reg.BANK_SPARE_POS b) p).setF (Reg.BANK_CAL_STATE b) 2).setF (Reg.BANK_CAL_POS b) p).setF
    (Reg.BANK_CAL_EXT b) 0)

/-- Words alone differ between two states, and still do after one more is written. -/
theorem State.words_setF {s t : State} (h : { t with regs := s.regs } = s) (f : Fld) (v : Nat) : { t.setF f v with regs := s.regs } = s := h

theorem State.connectSpare_frame (s : State) (b p : Nat) : { s.connectSpare b p with regs := s.regs } = s :=
  State.words_setF (State.words_setF (State.words_setF (State.words_setF (State.words_setF (t := s) rfl _ _) _ _) _ _) _ _) _ _

theorem State.connectSpare_words (s : State) (b : Nat) {p : Nat} (hp : p < 16) :
    (s.connectSpare b p).getF (Reg.BANK_SPARE_CONN b) = 1 ∧ (s.connectSpare b p).getF (Reg.BANK_SPARE_POS b) = p
      ∧ (s.connectSpare b p).getF (Reg.BANK_CAL_STATE b) = 2 ∧ (s.connectSpare b p).getF (Reg.BANK_CAL_POS b) = p := by
  unfold State.connectSpare
  simp (disch := (dsimp only [Reg.BANK_SPARE_CONN, Reg.BANK_SPARE_POS, Reg.BANK_SPARE, Reg.BANK_CAL_STATE, Reg.BANK_CAL_POS, Reg.BANK_CAL_EXT,
    Reg.BANK_CAL]; omega)) only [State.getF_setF_apart, State.getF_setF_fits, and_self]

theorem calChannelStart_connects {b : Fin 24} {s : State} {p : Nat} {rest : List Nat} (hch : (s.cal b).chans = p :: rest) (hp : p < 16)
    (hab : (s.cal b).abandon = false) (hst : (s.cal b).stage = 2) (hstep : (s.cal b).step = 3) (hdue : (s.cal b).t0 ≤ s.now) :
    Gives (.calChannelStart b) s (fun t =>
      (t.cal b).step = 0 ∧ (t.cal b).overlap = [] ∧ t.getF (Reg.BANK_SPARE_CONN b) = 1 ∧ t.getF (Reg.BANK_SPARE_POS b) = p
      ∧ t.getF (Reg.BANK_CAL_STATE b) = 2 ∧ t.getF (Reg.BANK_CAL_POS b) = p ∧ { t with cals := s.cals, regs := s.regs } = s) := by
  let k1 : CalSt := { s.cal b with step := 0, ext := 0, overlap := [], interval := 0, sums := [], refused := false }
  have hexec : exec (.calChannelStart b) s = execCalChannelStart b s := rfl
  unfold execCalChannelStart at hexec
  extract_lets k at hexec
  rw [show k.chans = p :: rest from hch] at hexec
  have hall : k.stage = 2 ∧ k.step = 3 ∧ k.t0 ≤ s.now ∧ k.abandon = false := ⟨hst, hstep, hdue, hab⟩
  dsimp only at hexec
  rw [if_pos hall] at hexec
  have hnext : exec (.calChannelStart b) s = .next ((s.setCal b k1).connectSpare b p) := hexec
  have hcal : ((s.setCal b k1).connectSpare b p).cal b = k1 := by
    simp only [State.connectSpare, State.cal_setF, State.cal_setCal_self]
  obtain ⟨hconn, hpos, hstate, hcpos⟩ := (s.setCal b k1).connectSpare_words b hp
  have hframe : { (s.setCal b k1).connectSpare b p with cals := s.cals, regs := s.regs } = s := by
    exact congrArg (fun x : State => { x with cals := s.cals, regs := s.regs }) ((s.setCal b k1).connectSpare_frame b p)
  refine ⟨_, hnext, ?_, ?_, hconn, hpos, hstate, hcpos, hframe⟩ <;> rw [hcal]

section
variable {b : Fin 24} {s : State} {p : Nat} {rest : List Nat} (hch : (s.cal b).chans = p :: rest)
  (hab : (s.cal b).abandon = false) (hst : (s.cal b).stage = 2)

theorem State.cal_nextChannel (s : State) (b : Nat) :
    (s.nextChannel b).cal b = { s.cal b with chans := (s.cal b).chans.drop 1, t0 := (s.cal b).t0 + 4256, step := 3 } := State.cal_setCal_self _ _ _

section
variable (hstep : (s.cal b).step = 0) (hdue : (s.cal b).t0 + 96 ≤ s.now)
include hch hab hst hstep hdue

/-- With 32 usable slots the substitution begins. -/
theorem firstOverlapEnd_matches (hn : 32 ≤ (s.cal b).overlap.length) : Gives (.firstOverlapEnd b) s (fun t =>
    (t.cal b).step = 1 ∧ (t.cal b).interval = 0
    ∧ (t.bk b).subs = matchOf (s.cal b).overlap p ((s.cal b).t0 + 96) ((s.cal b).t0 + 4255) :: (s.bk b).subs
    ∧ { t with cals := s.cals, banks := s.banks } = s) := by
  have hexec : exec (.firstOverlapEnd b) s = execFirstOverlapEnd b s := rfl
  unfold execFirstOverlapEnd at hexec
  extract_lets k at hexec
  rw [show k.chans = p :: rest from hch] at hexec
  have hall : k.stage = 2 ∧ k.step = 0 ∧ k.t0 + 96 ≤ s.now ∧ k.abandon = false := ⟨hst, hstep, hdue, hab⟩
  dsimp only at hexec
  rw [if_pos hall, if_pos hn] at hexec
  refine ⟨_, hexec, ?_, ?_, ?_, rfl⟩
  · exact congrArg CalSt.step (State.cal_setCal_self _ _ _)
  · exact congrArg CalSt.interval (State.cal_setCal_self _ _ _)
  · exact congrArg BankSt.subs (State.bk_setBk_self s b _)

/-- With fewer the overlap is extended. -/
theorem firstOverlapEnd_extends (hn : (s.cal b).overlap.length < 32) (hext : (s.cal b).ext < 4) : Gives (.firstOverlapEnd b) s (fun t =>
    t.cal b = { s.cal b with ext := (s.cal b).ext + 1, t0 := (s.cal b).t0 + 64 }
    ∧ Logged s t .CAL_EXTEND (16 * b.val + p) (BitVec.ofNat 64 s.now) 0) := by
  have hexec : exec (.firstOverlapEnd b) s = execFirstOverlapEnd b s := rfl
  unfold execFirstOverlapEnd at hexec
  extract_lets k at hexec
  rw [show k.chans = p :: rest from hch] at hexec
  have hall : k.stage = 2 ∧ k.step = 0 ∧ k.t0 + 96 ≤ s.now ∧ k.abandon = false := ⟨hst, hstep, hdue, hab⟩
  dsimp only at hexec
  rw [if_pos hall, if_neg (Nat.not_le.mpr hn), if_pos hext] at hexec
  generalize hu : (s.setCal b _).setF (Reg.BANK_CAL_EXT b) (capAt 3 (k.ext + 1)) = u at hexec
  have hcal : u.cal b = { s.cal b with ext := (s.cal b).ext + 1, t0 := (s.cal b).t0 + 64 } := by
    rw [← hu, State.cal_setF, State.cal_setCal_self, ← hch]
  have hwork : s.BankWork u := by
    rw [← hu]
    exact (s.setCal_work b _).trans (.setF _ _ (bank_cal_ge b))
  refine ⟨_, hexec, ?_, hwork.logged (State.logged_log _ _ _ _ (by simp))⟩
  rw [State.cal_log, hcal]

/-- After four extensions the channel is skipped. -/
theorem firstOverlapEnd_skips (hn : (s.cal b).overlap.length < 32) (hext : 4 ≤ (s.cal b).ext) : Gives (.firstOverlapEnd b) s (fun t =>
    t.cal b = { s.cal b with failed := (s.cal b).failed + 1, chans := rest, t0 := (s.cal b).t0 + 4256, step := 3 }
    ∧ t.getF Reg.CAL_CNT_SKIPS = capAt Reg.CAL_CNT_SKIPS.max (s.getF Reg.CAL_CNT_SKIPS + 1)
    ∧ Logged s t .CAL_SKIP (16 * b.val + p) (BitVec.ofNat 64 s.now) 0) := by
  have hexec : exec (.firstOverlapEnd b) s = execFirstOverlapEnd b s := rfl
  unfold execFirstOverlapEnd at hexec
  extract_lets k at hexec
  rw [show k.chans = p :: rest from hch] at hexec
  have hall : k.stage = 2 ∧ k.step = 0 ∧ k.t0 + 96 ≤ s.now ∧ k.abandon = false := ⟨hst, hstep, hdue, hab⟩
  dsimp only at hexec
  rw [if_pos hall, if_neg (Nat.not_le.mpr hn), if_neg (Nat.not_lt.mpr hext)] at hexec
  generalize hu : ((s.setCal b _).nextChannel b).setF (Reg.BANK_SPARE_CONN b) 0 = u at hexec
  have hcal : u.cal b = { s.cal b with failed := (s.cal b).failed + 1, chans := rest, t0 := (s.cal b).t0 + 4256, step := 3 } := by
    rw [← hu, State.cal_setF, State.cal_nextChannel, State.cal_setCal_self]
    rfl
  have hwork : s.BankWork u := by
    rw [← hu]
    exact ((s.setCal_work b _).trans (State.setCal_work _ b _)).trans (.setF _ 0 (bank_spare_ge b))
  obtain ⟨hcnt, hlog⟩ := State.counted_logged hwork.evt hwork.logSlot (hwork.reg _ (by decide)) (f := Reg.CAL_CNT_SKIPS) rfl (by decide)
    .CAL_SKIP (16 * b.val + p) [BitVec.ofNat 64 s.now] (by simp)
  refine ⟨_, hexec, ?_, hcnt, hlog⟩
  rw [State.cal_log, ← hcal]
  exact State.cal_setF u b Reg.CAL_CNT_SKIPS _

end
end

end Sys2Proof.Machine

namespace Sys2Proof.Machine
open Sys2Proof

/-! ### A refused result and a judged one (R408) -/

/-- A refused result: the channel counts as failed, which is logged and counted in CAL_CNT. -/
theorem State.refuseResult_spec (s : State) (b p : Nat) (c : Cond) (l : List W64) (hl : l.length ≤ 6) :
    (s.refuseResult b p c l).cal b = { s.cal b with refused := true, failed := (s.cal b).failed + 1 }
      ∧ (s.refuseResult b p c l).getF Reg.CAL_CNT_REFUSED = capAt Reg.CAL_CNT_REFUSED.max (s.getF Reg.CAL_CNT_REFUSED + 1)
      ∧ Logged s (s.refuseResult b p c l) c (16 * b + p) (l.getD 0 0) (l.getD 1 0) := by
  unfold State.refuseResult
  extract_lets s1 k s2 x sv
  have hwork := s.restoreTerms_work b p
  have hk : k = s.cal b := by
    unfold k s1
    rw [State.bump, State.addF, State.cal_setF, State.cal_log]
    rfl
  have hcal : s2.cal b = { s.cal b with refused := true, failed := (s.cal b).failed + 1 } := by
    rw [← hk]
    exact State.cal_setCal_self s1 b _
  have hcnt : s2.getF Reg.CAL_CNT_REFUSED = capAt Reg.CAL_CNT_REFUSED.max (s.getF Reg.CAL_CNT_REFUSED + 1) := by
    unfold s2 s1
    rw [State.getF_setCal, State.getF_bump _ _ (by decide), State.getF_log _ _ _ _ _ (by decide), hwork.getF _ (by decide)]
  have hlog : Logged s s2 c (16 * b + p) (l.getD 0 0) (l.getD 1 0) := by
    refine (hwork.logged (State.logged_log _ c (16 * b + p) l hl)).of_evt ?_
    exact (State.setCal_work s1 b _).evt.trans (State.bump_evt _ _)
  clear_value s2
  split
  · exact ⟨hcal, (State.getF_setBk _ _ _ _).trans hcnt, hlog.of_evt (s2.setBk_work b _).evt⟩
  · exact ⟨hcal, hcnt, hlog⟩

/-- A channel under the terms that its intervals yield, the former ones kept aside. -/
def State.measured (s : State) (b p : Nat) : State :=
  let x := s.bk b
  let tr (fine : Bool) : Bool := s.cur == 2 || (x.scales.get (fun _ => {}) (scaleKey p fine)).traced
  ((s.setCal b { s.cal b with oldHalves := x.halves, oldScales := x.scales }).putTerms b p false (tr false)
    (s.measuredTerms b p false)).putTerms b p true (tr true) (s.measuredTerms b p true)

theorem State.cal_measured (s : State) (b p : Nat) :
    (s.measured b p).cal b = { s.cal b with oldHalves := (s.bk b).halves, oldScales := (s.bk b).scales } := by
  unfold State.measured
  rw [State.putTerms_eq, State.putTerms_eq, State.cal_setBk, State.cal_setBk, State.cal_setCal_self]

/-- The terms measured stand for both paths of the channel. -/
theorem State.measured_terms (s : State) (b p : Nat) (fine : Bool) :
    let m := s.measuredTerms b p fine
    ((s.measured b p).bk b).halves.get (fun _ => {}) (halfKey p fine 0) = { d := m.d0, e := m.e0 }
      ∧ ((s.measured b p).bk b).halves.get (fun _ => {}) (halfKey p fine 1) = { d := m.d1, e := m.e1 }
      ∧ (((s.measured b p).bk b).scales.get (fun _ => {}) (scaleKey p fine)).g = m.g
      ∧ (((s.measured b p).bk b).scales.get (fun _ => {}) (scaleKey p fine)).o = m.o := by
  have hbk : ∃ x tr tr', (s.measured b p).bk b
      = (BankSt.withTerms x p false tr (s.measuredTerms b p false)).withTerms p true tr' (s.measuredTerms b p true) := by
    unfold State.measured
    rw [State.putTerms_eq, State.putTerms_eq, State.bk_setBk_self, State.bk_setBk_self]
    exact ⟨_, _, _, rfl⟩
  obtain ⟨x, tr, tr', hbk⟩ := hbk
  intro m
  rw [hbk]
  cases fine with
  | true =>
    obtain ⟨h0, h1, hs⟩ := (BankSt.withTerms x p false tr (s.measuredTerms b p false)).withTerms_self p true tr' (s.measuredTerms b p true)
    rw [hs]
    exact ⟨h0, h1, rfl, rfl⟩
  | false =>
    obtain ⟨h0, h1, hs⟩ := x.withTerms_self p false tr (s.measuredTerms b p false)
    obtain ⟨hh, hs'⟩ := (BankSt.withTerms x p false tr (s.measuredTerms b p false)).withTerms_other p true tr' (s.measuredTerms b p true)
    rw [Bool.not_true] at hs' hh
    rw [hs', hs]
    exact ⟨(hh 0 (by decide)).trans h0, (hh 1 (by decide)).trans h1, rfl, rfl⟩

/-- A judged result is refused, or stands with its terms in range; its range record apart nothing else changes. -/
theorem State.judgeResult_cases (s : State) (b p : Nat) : ∃ u : State, ∃ ref twice : Nat,
    s.judgeResult b p = u.setCal b { u.cal b with rangeTwice := twice, rangeRef := ref }
      ∧ ((∃ c, u = (s.measured b p).refuseResult b p c [])
        ∨ u = s.measured b p ∧ ∀ fine, ((s.measured b p).bk b).termsInRange p fine = true) := by
  unfold State.judgeResult
  extract_lets x k s1 tr s2 y bad noisy apart range mark
  have hs2 : s2 = s.measured b p := rfl
  rw [← hs2]
  by_cases hbad : bad = true
  · rw [if_pos hbad]
    exact ⟨_, _, _, rfl, .inl ⟨_, rfl⟩⟩
  rw [if_neg hbad]
  by_cases hnoisy : noisy = true
  · rw [if_pos hnoisy]
    exact ⟨_, _, _, rfl, .inl ⟨_, rfl⟩⟩
  rw [if_neg hnoisy]
  by_cases hapart : apart = true
  · rw [if_pos hapart]
    exact ⟨_, _, _, rfl, .inl ⟨_, rfl⟩⟩
  rw [if_neg hapart]
  refine ⟨_, _, _, rfl, .inr ⟨rfl, fun fine => ?_⟩⟩
  have hboth : y.termsInRange p false = true ∧ y.termsInRange p true = true := by simpa [bad] using hbad
  cases fine
  · exact hboth.1
  · exact hboth.2

/-- What stands once the result of a channel has been judged. -/
theorem State.judgeResult_spec (s : State) (b p : Nat) :
    ((s.judgeResult b p).cal b).step = (s.cal b).step ∧ ((s.judgeResult b p).cal b).oldHalves = (s.bk b).halves
      ∧ (((s.judgeResult b p).cal b).refused = false → (s.judgeResult b p).bk b = (s.measured b p).bk b
        ∧ ∀ fine, ((s.measured b p).bk b).termsInRange p fine = true) := by
  obtain ⟨u, ref, twice, h, hu⟩ := s.judgeResult_cases b p
  rw [h, State.cal_setCal_self, State.bk_setCal]
  obtain ⟨c, rfl⟩ | ⟨rfl, hrange⟩ := hu
  · obtain ⟨hcal, -, -⟩ := (s.measured b p).refuseResult_spec b p c [] (by simp)
    rw [hcal, State.cal_measured]
    exact ⟨rfl, rfl, nofun⟩
  · rw [State.cal_measured]
    exact ⟨rfl, rfl, fun _ => ⟨rfl, hrange⟩⟩

/-- The hub after the end of an interval: the next interval, with the result judged after interval 6, or the second overlap after interval 7. -/
def State.intervalEnded (s : State) (b p : Nat) : State :=
  if (s.cal b).interval = 7 then s.setCal b { s.cal b with step := 2, overlap := [] }
  else
    let s1 := if (s.cal b).interval = 6 then s.judgeResult b p else s
    s1.setCal b { s1.cal b with interval := (s.cal b).interval + 1 }

section
variable {s : State} {b : Nat} (p : Nat)

theorem State.intervalEnded_of_lt (h : (s.cal b).interval < 6) :
    s.intervalEnded b p = s.setCal b { s.cal b with interval := (s.cal b).interval + 1 } := by
  have h6 : ¬ (s.cal b).interval = 6 := by omega
  have h7 : ¬ (s.cal b).interval = 7 := by omega
  rw [State.intervalEnded, if_neg h7, if_neg h6]

theorem State.intervalEnded_of_six (h : (s.cal b).interval = 6) :
    s.intervalEnded b p = (s.judgeResult b p).setCal b { (s.judgeResult b p).cal b with interval := 7 } := by
  have h7 : ¬ (s.cal b).interval = 7 := by omega
  rw [State.intervalEnded, if_neg h7, if_pos h, h]

theorem State.intervalEnded_of_seven (h : (s.cal b).interval = 7) :
    s.intervalEnded b p = s.setCal b { s.cal b with step := 2, overlap := [] } := if_pos h

end

section
variable {b : Fin 24} {s : State} {p : Nat} {rest : List Nat} (hch : (s.cal b).chans = p :: rest)
  (hab : (s.cal b).abandon = false) (hst : (s.cal b).stage = 2)

section
variable (hstep : (s.cal b).step = 1) (hdue : (s.cal b).t0 + 96 + 512 * ((s.cal b).interval + 1) ≤ s.now)
include hch hab hst hstep hdue

theorem calIntervalEnd_due : exec (.calIntervalEnd b) s = .next (s.intervalEnded b p) := by
  have hexec : exec (.calIntervalEnd b) s = execCalIntervalEnd b s := rfl
  rw [hexec]
  unfold execCalIntervalEnd
  extract_lets k
  split
  next h => exact absurd (h.symm.trans hch) nofun
  next q l h =>
    obtain ⟨rfl, rfl⟩ := List.cons.inj (h.symm.trans hch)
    have hall : k.stage = 2 ∧ k.step = 1 ∧ k.t0 + 96 + 512 * (k.interval + 1) ≤ s.now ∧ k.abandon = false := ⟨hst, hstep, hdue, hab⟩
    rw [if_pos hall]
    exact (apply_ite Host.Outcome.next _ _ _).symm

theorem calIntervalEnd_steps : Gives (.calIntervalEnd b) s (fun t =>
    ((s.cal b).interval < 6 → t.cal b = { s.cal b with interval := (s.cal b).interval + 1 } ∧ { t with cals := s.cals } = s)
    ∧ ((s.cal b).interval = 6 → (t.cal b).interval = 7 ∧ (t.cal b).step = 1 ∧ (t.cal b).oldHalves = (s.bk b).halves
        ∧ ((t.cal b).refused = false → ∀ fine : Bool, let m := s.measuredTerms b p fine
            (t.bk b).halves.get (fun _ => {}) (halfKey p fine 0) = { d := m.d0, e := m.e0 }
            ∧ (t.bk b).halves.get (fun _ => {}) (halfKey p fine 1) = { d := m.d1, e := m.e1 }
            ∧ ((t.bk b).scales.get (fun _ => {}) (scaleKey p fine)).g = m.g
            ∧ ((t.bk b).scales.get (fun _ => {}) (scaleKey p fine)).o = m.o
            ∧ (t.bk b).termsInRange p fine = true))
    ∧ ((s.cal b).interval = 7 → t.cal b = { s.cal b with step := 2, overlap := [] } ∧ { t with cals := s.cals } = s)) := by
  refine ⟨_, calIntervalEnd_due hch hab hst hstep hdue, fun hlt => ?_, fun h6 => ?_, fun h7 => ?_⟩
  · rw [State.intervalEnded_of_lt p hlt, State.cal_setCal_self]
    exact ⟨rfl, rfl⟩
  · obtain ⟨hstep', hold, hterms⟩ := s.judgeResult_spec b p
    rw [State.intervalEnded_of_six p h6]
    generalize s.judgeResult b p = t at hstep' hold hterms ⊢
    rw [State.cal_setCal_self, State.bk_setCal]
    refine ⟨rfl, hstep'.trans hstep, hold, fun href fine => ?_⟩
    obtain ⟨hbk, hrange⟩ := hterms href
    obtain ⟨h0, h1, hg, ho⟩ := s.measured_terms b p fine
    rw [hbk]
    exact ⟨h0, h1, hg, ho, hrange fine⟩
  · rw [State.intervalEnded_of_seven p h7, State.cal_setCal_self]
    exact ⟨rfl, rfl⟩

end

/-! ### The second overlap (R409) -/

/-- Passes alone differ between two states, and still do after one more is written. -/
theorem State.passes_setCal {s t : State} (h : { t with cals := s.cals } = s) (b : Nat) (k : CalSt) : { t.setCal b k with cals := s.cals } = s := h

theorem State.passes_nextChannel {s t : State} (h : { t with cals := s.cals } = s) (b : Nat) : { t.nextChannel b with cals := s.cals } = s :=
  State.passes_setCal h b _

section
variable (hstep : (s.cal b).step = 2) (hdue : (s.cal b).t0 + 4256 ≤ s.now)
include hch hab hst hstep hdue

theorem secondOverlapEnd_refused (href : (s.cal b).refused = true) : Gives (.secondOverlapEnd b) s (fun t =>
    t.cal b = { s.cal b with chans := rest, t0 := (s.cal b).t0 + 4256, step := 3 }) := by
  have hexec : exec (.secondOverlapEnd b) s = execSecondOverlapEnd b s := rfl
  unfold execSecondOverlapEnd at hexec
  extract_lets k at hexec
  rw [show k.chans = p :: rest from hch] at hexec
  have hall : k.stage = 2 ∧ k.step = 2 ∧ k.t0 + 4256 ≤ s.now ∧ k.abandon = false := ⟨hst, hstep, hdue, hab⟩
  dsimp only at hexec
  rw [if_pos hall, if_pos href] at hexec
  refine ⟨_, hexec, (s.cal_nextChannel b).trans ?_⟩
  rw [hch]
  rfl

theorem secondOverlapEnd_applies (href : (s.cal b).refused = false)
    (hin : ¬ (32 ≤ (s.cal b).overlap.length ∧ (s.cal b).overlap.length * 2 ^ 15 < ((s.cal b).overlap.map (fun q : Int × Int => q.1 - q.2)).sum.natAbs)) :
    Gives (.secondOverlapEnd b) s (fun t => (t.cal b).done = (s.cal b).done ++ [p] ∧ (t.cal b).chans = rest ∧ (t.cal b).step = 3
      ∧ { t with cals := s.cals } = s) := by
  have hexec : exec (.secondOverlapEnd b) s = execSecondOverlapEnd b s := rfl
  unfold execSecondOverlapEnd at hexec
  extract_lets k at hexec
  rw [show k.chans = p :: rest from hch] at hexec
  have hall : k.stage = 2 ∧ k.step = 2 ∧ k.t0 + 4256 ≤ s.now ∧ k.abandon = false := ⟨hst, hstep, hdue, hab⟩
  dsimp only at hexec
  rw [if_pos hall, if_neg (by simp [href, k]), if_neg hin] at hexec
  refine ⟨_, hexec, ?_, ?_, ?_, State.passes_nextChannel (State.passes_setCal (t := s) rfl b _) b⟩ <;>
    rw [State.cal_nextChannel, State.cal_setCal_self]
  rfl

theorem secondOverlapEnd_outlies (href : (s.cal b).refused = false)
    (hout : 32 ≤ (s.cal b).overlap.length ∧ (s.cal b).overlap.length * 2 ^ 15 < ((s.cal b).overlap.map (fun q : Int × Int => q.1 - q.2)).sum.natAbs) :
    Gives (.secondOverlapEnd b) s (fun t => (t.cal b).done = (s.cal b).done ∧ (t.cal b).failed = (s.cal b).failed + 1 ∧ (t.cal b).chans = rest
      ∧ t.getF Reg.CAL_CNT_REFUSED = capAt Reg.CAL_CNT_REFUSED.max (s.getF Reg.CAL_CNT_REFUSED + 1)
      ∧ Logged s t .CAL_OUTLIER (16 * b.val + p)
        (W64.ofInt (roundEven ((s.cal b).overlap.map (fun q : Int × Int => q.1 - q.2)).sum (Nat.max 1 (s.cal b).overlap.length))) 0) := by
  have hexec : exec (.secondOverlapEnd b) s = execSecondOverlapEnd b s := rfl
  unfold execSecondOverlapEnd at hexec
  extract_lets k at hexec
  rw [show k.chans = p :: rest from hch] at hexec
  have hall : k.stage = 2 ∧ k.step = 2 ∧ k.t0 + 4256 ≤ s.now ∧ k.abandon = false := ⟨hst, hstep, hdue, hab⟩
  dsimp only at hexec
  rw [if_pos hall, if_neg (by simp [href, k]), if_pos hout] at hexec
  obtain ⟨hcal, hcnt, hlog⟩ := s.refuseResult_spec b p .CAL_OUTLIER
    [W64.ofInt (roundEven (k.overlap.map (fun q : Int × Int => q.1 - q.2)).sum (Nat.max 1 k.overlap.length))] (by simp)
  refine ⟨_, hexec, ?_, ?_, ?_, (State.getF_setCal _ _ _ _).trans hcnt, hlog.of_evt (State.setCal_work _ b _).evt⟩ <;>
    rw [State.cal_nextChannel, hcal]
  rw [hch]
  rfl

end
end

end Sys2Proof.Machine

namespace Sys2Proof.Machine
open Sys2Proof

/-! ### A pass that is over (R406, R411) -/

theorem State.reg_setActive (s : State) (b : Nat) (v : Bool) {a : Nat} (ha : a ≠ Reg.CAL_STAT) : (s.setActive b v).reg a = s.reg a :=
  State.reg_setF_ne s Reg.CAL_STAT_ACTIVE _ ha

theorem State.reg_setDue (s : State) (b : Nat) (v : Bool) {a : Nat} (ha : a ≠ Reg.CAL_STAT) : (s.setDue b v).reg a = s.reg a :=
  State.reg_setF_ne s Reg.CAL_STAT_DUE _ ha

theorem State.evt_setDue (s : State) (b : Nat) (v : Bool) : (s.setDue b v).evt = s.evt := rfl

theorem State.cal_setDue (s : State) (b : Nat) (v : Bool) (c : Nat) : (s.setDue b v).cal c = s.cal c := rfl

theorem State.cal_storeResult (s : State) (b c : Nat) : (s.storeResult b).cal c = s.cal c := rfl

theorem State.evt_storeResult (s : State) (b : Nat) : (s.storeResult b).evt = s.evt := rfl

/-- A bank whose pass ends one way or the other: no longer active, counted and logged. -/
def State.passOver (u : State) (b : Nat) (f : Fld) (c : Cond) (l : List W64) : State := ((u.setActive b false).bump f).log c b l

section
variable {s u : State} (hwork : s.BankWork u) {b : Nat} {f : Fld} (hf : f.addr = Reg.CAL_CNT) (c : Cond) (l : List W64)
include hf

theorem State.reg_passOver {a : Nat} (ha : 0x1C40 ≤ a) : (u.passOver b f c l).reg a = u.reg a := by
  have hevt : evtReg a = false := evtReg_of_ge (Nat.le_trans (by decide) ha)
  have hcnt : a ≠ f.addr := by
    rw [hf]
    exact Nat.ne_of_gt (Nat.lt_of_lt_of_le (by decide) ha)
  have hstat : a ≠ Reg.CAL_STAT := Nat.ne_of_gt (Nat.lt_of_lt_of_le (by decide) ha)
  rw [State.passOver, State.reg_log _ _ _ _ hevt, State.reg_bump_ne _ _ hcnt, State.reg_setActive _ _ _ hstat]

theorem State.calActive_passOver (hb : b < 24) : (u.passOver b f c l).calActive b = false := by
  have hstat : (u.passOver b f c l).reg Reg.CAL_STAT = (u.setActive b false).reg Reg.CAL_STAT := by
    rw [State.passOver, State.reg_log _ _ _ _ (by decide), State.reg_bump_ne _ _ (by rw [hf]; decide)]
  rw [State.calActive_congr hstat, State.calActive_setActive _ hb]

include hwork

theorem State.passOver_counts (hhi : f.hi < 64) (hl : l.length ≤ 2) :
    (u.passOver b f c l).getF f = capAt f.max (s.getF f + 1)
      ∧ Logged s (u.passOver b f c l) c b (l.getD 0 0) (l.getD 1 0)
      ∧ ∀ c' n' (l' : List W64), l'.length ≤ 2 → Logged s ((u.passOver b f c l).log c' n' l') c b (l.getD 0 0) (l.getD 1 0) := by
  have hslot : (u.setActive b false).logSlot = s.logSlot :=
    State.logSlot_congr (fun a _ ha => (State.reg_setActive u b false (by simp only [Reg.CAL_STAT]; omega)).trans (hwork.reg a (by omega))) hwork.clk
  have hcnt : (u.setActive b false).reg Reg.CAL_CNT = s.reg Reg.CAL_CNT :=
    (State.reg_setActive u b false (by decide)).trans (hwork.reg _ (by decide))
  have hevt : (u.setActive b false).evt = s.evt := hwork.evt
  obtain ⟨hcount, hlog⟩ := State.counted_logged hevt hslot hcnt hf hhi c b l (by omega)
  refine ⟨hcount, hlog, fun c' n' l' hl' => ?_⟩
  have hbump : ((u.setActive b false).bump f).logSlot = s.logSlot := by
    rw [← hslot]
    exact State.logSlot_congr (fun a _ ha => State.reg_bump_ne _ _ (by rw [hf]; simp only [Reg.CAL_CNT]; omega)) rfl
  exact (State.logged_log_log (s := (u.setActive b false).bump f) hl hl' rfl).of_same ((State.bump_evt _ f).trans hevt) hbump

end

/-- The crosspoint released, the spare held by the controller or let go. -/
def State.spareLeft (s : State) (b v : Nat) : State := (s.setF (Reg.BANK_SPARE_CONN b) 0).setF (Reg.BANK_SPARE_CAL b) v

theorem State.spareLeft_words (s : State) (b : Nat) {v : Nat} (hv : v < 2) :
    (s.spareLeft b v).getF (Reg.BANK_SPARE_CONN b) = 0 ∧ (s.spareLeft b v).getF (Reg.BANK_SPARE_CAL b) = v := by
  unfold State.spareLeft
  simp (disch := (dsimp only [Reg.BANK_SPARE_CONN, Reg.BANK_SPARE_CAL, Reg.BANK_SPARE]; omega)) only [State.getF_setF_apart,
    State.getF_setF_fits, and_self]

theorem State.spareLeft_frame (s : State) (b v : Nat) : { s.spareLeft b v with regs := s.regs } = s :=
  State.words_setF (State.words_setF (t := s) rfl _ _) _ _

theorem State.spareLeft_work (s : State) (b v : Nat) : s.BankWork (s.spareLeft b v) :=
  (State.BankWork.setF s 0 (bank_spare_ge b)).trans (.setF _ v (bank_spare_ge b))

/-- The words of a bank whose last channel is behind: its spare released, no calibration state, the slot of its pass. -/
def State.released (s : State) (b : Nat) : State :=
  ((s.spareLeft b 0).setReg (Reg.BANK_CAL b) 0).setReg (Reg.BANK_CALSLOT b) (BitVec.ofNat 64 s.now)

theorem State.released_spec (s : State) (b : Nat) :
    s.BankWork (s.released b) ∧ (s.released b).reg (Reg.BANK_CALSLOT b) = BitVec.ofNat 64 s.now ∧ (s.released b).getF (Reg.BANK_SPARE_CONN b) = 0 := by
  have hslot : Reg.BANK_SPARE b ≠ Reg.BANK_CALSLOT b := by
    simp only [Reg.BANK_SPARE, Reg.BANK_CALSLOT]
    omega
  have hcal : Reg.BANK_SPARE b ≠ Reg.BANK_CAL b := by
    simp only [Reg.BANK_SPARE, Reg.BANK_CAL]
    omega
  refine ⟨((s.spareLeft_work b 0).trans (.setReg _ 0 (bank_cal_ge b))).trans (.setReg _ _ (bank_calslot_ge b)), State.reg_setReg_self _ _ _, ?_⟩
  have hreg : (s.released b).reg (Reg.BANK_SPARE b) = (s.spareLeft b 0).reg (Reg.BANK_SPARE b) :=
    (State.reg_setReg_ne _ _ hslot).trans (State.reg_setReg_ne _ _ hcal)
  obtain ⟨hconn, -⟩ := s.spareLeft_words b (v := 0) (by decide)
  rw [← hconn]
  exact congrArg (bits · 4 4) hreg

/-- The end of a pass recorded: its result waits for flash, and the bank is due again where it was named meanwhile. -/
def State.passStored (s : State) (b : Nat) (k : CalSt) (again : Bool) : State :=
  if again then ((s.setCal b k).storeResult b).setDue b true else (s.setCal b k).storeResult b

theorem State.passStored_spec (s : State) {b : Nat} (hb : b < 24) (k : CalSt) (again : Bool) :
    let t := s.passStored b k again
    t.cal b = k ∧ (∃ r ∈ t.calh.waiting, r.bank = b) ∧ (again = true → t.calDue b = true) ∧ t.calActive b = s.calActive b
      ∧ t.evt = s.evt ∧ ∀ a, a ≠ Reg.CAL_SET → a ≠ Reg.CAL_STAT → t.reg a = s.reg a := by
  have hcal : ((s.setCal b k).storeResult b).cal b = k := (State.cal_storeResult _ b b).trans (State.cal_setCal_self s b k)
  have hreg : ∀ a, a ≠ Reg.CAL_SET → ((s.setCal b k).storeResult b).reg a = s.reg a := fun a ha =>
    (State.reg_storeResult _ b ha).trans (State.reg_congr (State.setCal_regs _ _ _) a)
  have hevt : ((s.setCal b k).storeResult b).evt = s.evt := (State.evt_storeResult _ b).trans (s.setCal_work b k).evt
  have hwaits := (s.setCal b k).storeResult_waits b
  have hactive : ((s.setCal b k).storeResult b).calActive b = s.calActive b := State.calActive_congr (hreg _ (by decide)) b
  unfold State.passStored
  generalize (s.setCal b k).storeResult b = u at *
  cases again with
  | true =>
    exact ⟨(u.cal_setDue b true b).trans hcal, hwaits, fun _ => u.calDue_setDue hb true, (u.calActive_setDue b b true).trans hactive,
      hevt, fun a h1 h2 => (u.reg_setDue b true h2).trans (hreg a h1)⟩
  | false => exact ⟨hcal, hwaits, nofun, hactive, hevt, fun a h1 _ => hreg a h1⟩

section
variable {b : Fin 24} {s : State}

theorem calPassEnd_ends (hst : (s.cal b).stage = 2) (hstep : (s.cal b).step = 3) (hch : (s.cal b).chans = []) (hdue : (s.cal b).t0 ≤ s.now)
    (hab : (s.cal b).abandon = false) : Gives (.calPassEnd b) s (fun t =>
      t.calActive b = false ∧ t.reg (Reg.BANK_CALSLOT b) = BitVec.ofNat 64 s.now ∧ t.getF (Reg.BANK_SPARE_CONN b) = 0
      ∧ t.getF Reg.CAL_CNT_PASSES = capAt Reg.CAL_CNT_PASSES.max (s.getF Reg.CAL_CNT_PASSES + 1)
      ∧ (t.cal b).stage = 0 ∧ (t.cal b).lastDone = s.upSlots ∧ (∃ r ∈ t.calh.waiting, r.bank = b.val)
      ∧ ((s.cal b).again = true → t.calDue b = true) ∧ Logged s t .CAL_PASS_END b (BitVec.ofNat 64 s.now) 0) := by
  obtain ⟨hwork, hslot, hconn⟩ := s.released_spec b
  have hexec : exec (.calPassEnd b) s = execCalPassEnd b s := rfl
  unfold execCalPassEnd at hexec
  extract_lets k s1 s2 s3 at hexec
  have hall : k.stage = 2 ∧ k.step = 3 ∧ k.chans = [] ∧ k.t0 ≤ s.now ∧ k.abandon = false := ⟨hst, hstep, hch, hdue, hab⟩
  rw [if_pos hall] at hexec
  have hs2 : s2 = (s.released b).passOver b Reg.CAL_CNT_PASSES .CAL_PASS_END [BitVec.ofNat 64 s.now] := rfl
  obtain ⟨hcnt, hlog, hlog'⟩ := State.passOver_counts hwork (b := b) (f := Reg.CAL_CNT_PASSES) rfl .CAL_PASS_END [BitVec.ofNat 64 s.now]
    (by decide) (by simp)
  rw [← hs2] at hcnt hlog hlog'
  have hactive : s2.calActive b = false := State.calActive_passOver (f := Reg.CAL_CNT_PASSES) rfl _ _ b.isLt
  have hbank : ∀ a, 0x1C40 ≤ a → s2.reg a = (s.released b).reg a := fun a ha => State.reg_passOver (f := Reg.CAL_CNT_PASSES) rfl _ _ ha
  have hreg3 : ∀ a, evtReg a = false → s3.reg a = s2.reg a := fun a ha => by
    unfold s3
    split
    · rfl
    · exact State.reg_log _ _ _ _ ha
  have hlog3 : Logged s s3 .CAL_PASS_END b (BitVec.ofNat 64 s.now) 0 := by
    unfold s3
    split
    · exact hlog
    · exact hlog' _ _ _ (by simp)
  let k1 : CalSt := { s.cal b with stage := 0, again := false, acc := false, lastDone := s.upSlots }
  have hnext : exec (.calPassEnd b) s = .next (s3.passStored b k1 (s.cal b).again) := hexec
  obtain ⟨hcal, hwaits, hagain, hactive', hevt, hreg⟩ := s3.passStored_spec b.isLt k1 (s.cal b).again
  have hword : ∀ a, 0x1C40 ≤ a → (s3.passStored b k1 (s.cal b).again).reg a = (s.released b).reg a := fun a ha =>
    (hreg a (Nat.ne_of_gt (Nat.lt_of_lt_of_le (by decide) ha)) (Nat.ne_of_gt (Nat.lt_of_lt_of_le (by decide) ha))).trans
      ((hreg3 a (evtReg_of_ge (Nat.le_trans (by decide) ha))).trans (hbank a ha))
  refine ⟨_, hnext, hactive'.trans ?_, (hword _ (bank_calslot_ge b)).trans hslot, ?_, ?_, ?_, ?_, hwaits, hagain, hlog3.of_evt hevt⟩
  · rw [State.calActive_congr (hreg3 _ (by decide)), hactive]
  · rw [← hconn]
    exact congrArg (bits · 4 4) (hword _ (bank_spare_ge b))
  · rw [← hcnt]
    exact congrArg (bits · 63 48) ((hreg _ (by decide) (by decide)).trans (hreg3 _ (by decide)))
  · rw [hcal]
  · rw [hcal]

/-- An abandoned pass recorded: the channels that are done wait for flash, the bank is due again and its spare back on REFCAL where a step of
Acclimatise holds it. -/
def State.passDropped (s : State) (b : Nat) (k : CalSt) (empty : Bool) : State :=
  ((if empty then s.setCal b k else (s.setCal b k).storeResult b).setDue b true).accSpare b

theorem State.passDropped_spec (s : State) {b : Nat} (hb : b < 24) (k : CalSt) (empty : Bool) :
    let t := s.passDropped b k empty
    t.cal b = k ∧ t.calDue b = true ∧ t.calActive b = s.calActive b ∧ t.evt = s.evt ∧ t.reg Reg.CAL_CNT = s.reg Reg.CAL_CNT := by
  generalize hu : (if empty then s.setCal b k else (s.setCal b k).storeResult b) = u
  have hset : (s.setCal b k).reg = s.reg := funext (State.reg_congr (State.setCal_regs _ _ _))
  have hcal : u.cal b = k := by
    rw [← hu]
    split
    · exact State.cal_setCal_self s b k
    · exact (State.cal_storeResult _ b b).trans (State.cal_setCal_self s b k)
  have hevt : u.evt = s.evt := by
    rw [← hu]
    split
    · exact (s.setCal_work b k).evt
    · exact (State.evt_storeResult _ b).trans (s.setCal_work b k).evt
  have hreg : ∀ a, a ≠ Reg.CAL_SET → u.reg a = s.reg a := by
    intro a ha
    rw [← hu]
    split
    · exact congrFun hset a
    · exact (State.reg_storeResult _ b ha).trans (congrFun hset a)
  have hwork := (u.setDue b true).accSpare_work b
  have hstat := hwork.reg Reg.CAL_STAT (by decide)
  have ht : s.passDropped b k empty = (u.setDue b true).accSpare b := by rw [State.passDropped, hu]
  intro t
  rw [show t = _ from ht]
  refine ⟨?_, ?_, ?_, hwork.evt.trans ((u.evt_setDue b true).trans hevt), ?_⟩
  · rw [State.cal_accSpare, State.cal_setDue, hcal]
  · rw [State.calDue_congr hstat, State.calDue_setDue u hb]
  · rw [State.calActive_congr hstat, State.calActive_setDue, State.calActive_congr (hreg _ (by decide))]
  · rw [hwork.reg _ (by decide), State.reg_setDue _ _ _ (by decide), hreg _ (by decide)]

theorem calAbandon_abandons (hst : (s.cal b).stage ≠ 0) (hab : (s.cal b).abandon = true) : Gives (.calAbandon b) s (fun t =>
    t.calActive b = false ∧ t.calDue b = true ∧ (t.cal b).stage = 0 ∧ (t.cal b).abandon = false
    ∧ t.getF Reg.CAL_CNT_ABANDONS = capAt Reg.CAL_CNT_ABANDONS.max (s.getF Reg.CAL_CNT_ABANDONS + 1)
    ∧ (t.cal b).subEnd = (if (s.cal b).stage = 2 ∧ ((s.cal b).step = 1 ∨ (s.cal b).step = 2) ∧ (s.cal b).suspended = false
        then some (s.now + 512) else none)
    ∧ Logged s t .CAL_ABANDON b (BitVec.ofNat 64 s.now) (BitVec.ofNat 64 (16 * b.val + (s.cal b).chans.headD 0))) := by
  have hexec : exec (.calAbandon b) s = execCalAbandon b s := rfl
  unfold execCalAbandon at hexec
  extract_lets k a p on sub s0 x subs s1 s2 s3 at hexec
  rw [if_pos (show k.stage ≠ 0 ∧ k.abandon = true from ⟨hst, hab⟩)] at hexec
  have hwork0 : s.BankWork s0 := by
    unfold s0
    split
    · exact s.restoreTerms_work b p
    · exact .refl s
  have hwork : s.BankWork s2 := by
    have hleft : s.BankWork (if sub ∨ k.suspended = true then s1 else s1.spareLeft b 0) := by
      split
      · exact hwork0.trans (s0.setBk_work b _)
      · exact (hwork0.trans (s0.setBk_work b _)).trans (s1.spareLeft_work b 0)
    exact hleft.trans (.setReg _ 0 (bank_cal_ge b))
  clear_value s2
  let l : List W64 := [BitVec.ofNat 64 s.now, BitVec.ofNat 64 (16 * b.val + p)]
  obtain ⟨hcnt, hlog, -⟩ := State.passOver_counts hwork (b := b) (f := Reg.CAL_CNT_ABANDONS) rfl .CAL_ABANDON l (by decide) (by simp [l])
  have hactive : s3.calActive b = false := State.calActive_passOver (f := Reg.CAL_CNT_ABANDONS) rfl _ _ b.isLt
  have hs3 : s3 = s2.passOver b Reg.CAL_CNT_ABANDONS .CAL_ABANDON l := rfl
  rw [← hs3] at hcnt hlog
  clear_value s3
  let k1 : CalSt := { s.cal b with stage := 0, abandon := false, again := false, subEnd := if sub then some (s.now + 512) else none }
  have hnext : exec (.calAbandon b) s = .next (s3.passDropped b k1 (s.cal b).done.isEmpty) := hexec
  obtain ⟨hcal, hdue, hactive', hevt, hreg⟩ := s3.passDropped_spec b.isLt k1 (s.cal b).done.isEmpty
  refine ⟨_, hnext, hactive'.trans hactive, hdue, ?_, ?_, ?_, ?_, hlog.of_evt hevt⟩
  · rw [hcal]
  · rw [hcal]
  · rw [← hcnt]
    exact congrArg (bits · 15 0) hreg
  · rw [hcal]
    exact if_congr and_assoc rfl rfl

/-! ### The end of a substitution (R411) -/

theorem State.accSpare_conn (s : State) (b : Nat) (h : s.getF (Reg.BANK_SPARE_CONN b) = 0) : (s.accSpare b).getF (Reg.BANK_SPARE_CONN b) = 0 := by
  obtain hs | ⟨x, hs⟩ := s.accSpare_cases b <;> rw [hs]
  · exact h
  · obtain ⟨hconn, -⟩ := s.spareLeft_words b (v := 1) (by decide)
    exact (State.getF_setBk _ _ _ _).trans hconn

theorem State.accSpare_of_mode (s : State) (b : Nat) (h : s.cur ≠ 2) : s.accSpare b = s := if_neg fun hall => h hall.1

theorem substitutionEnd_releases {n : Nat} (hend : (s.cal b).subEnd = some n) (hdue : n ≤ s.now) : Gives (.substitutionEnd b) s (fun t =>
    (t.cal b).subEnd = none ∧ t.getF (Reg.BANK_SPARE_CONN b) = 0
    ∧ (s.cur ≠ 2 → t.getF (Reg.BANK_SPARE_CAL b) = b2n (s.cal b).suspended ∧ { t with cals := s.cals, regs := s.regs } = s)) := by
  let k1 : CalSt := { s.cal b with subEnd := none }
  have hexec : exec (.substitutionEnd b) s = execSubstitutionEnd b s := rfl
  have hnext : exec (.substitutionEnd b) s = .next (((s.setCal b k1).spareLeft b (b2n (s.cal b).suspended)).accSpare b) := by
    rw [hexec]
    unfold execSubstitutionEnd
    extract_lets k
    split
    next m h =>
      obtain rfl : m = n := Option.some.inj (h.symm.trans hend)
      rw [if_pos hdue]
      rfl
    next h => exact absurd (h.symm.trans hend) nofun
  have hv : b2n (s.cal b).suspended < 2 := by
    unfold b2n
    split <;> decide
  obtain ⟨hconn, hcal⟩ := (s.setCal b k1).spareLeft_words b hv
  refine ⟨_, hnext, ?_, State.accSpare_conn _ b hconn, fun hmode => ?_⟩
  · rw [State.cal_accSpare, State.spareLeft, State.cal_setF, State.cal_setF, State.cal_setCal_self]
  · have hwork := (s.setCal_work b k1).trans (State.spareLeft_work _ b (b2n (s.cal b).suspended))
    have hcur : ((s.setCal b k1).spareLeft b (b2n (s.cal b).suspended)).cur ≠ 2 := by
      rw [State.cur, hwork.getF _ (by decide)]
      exact hmode
    rw [State.accSpare_of_mode _ _ hcur]
    refine ⟨hcal, ?_⟩
    exact congrArg (fun y : State => { y with cals := s.cals, regs := s.regs })
      ((s.setCal b k1).spareLeft_frame b (b2n (s.cal b).suspended))

end

end Sys2Proof.Machine

namespace Sys2Proof.Machine
open Sys2Proof

/-! ### The end of Acclimatise (R412) -/

/-- The end of the chain writes CAL_STAT and words of the banks only, and clears the step. -/
theorem State.accEnd_work (s : State) : (s.setF Reg.CAL_STAT_ACC_STEP 0).BankWork s.accEnd :=
  foldl_rel State.BankWork .refl (fun _ _ _ => .trans) _ _ _ fun t b _ => (t.accRelease_work b).trans (State.setCal_work _ b _)

/-- The words and the parts of the hub that the end of the chain leaves (R412). -/
theorem State.accEnd_spec (s : State) :
    s.accEnd.evt = s.evt ∧ s.accEnd.now = s.now ∧ s.accEnd.calh = s.calh ∧ s.accEnd.getF Reg.CAL_STAT_ACC_STEP = 0
      ∧ ∀ a, a < 0x1C40 → a ≠ Reg.CAL_STAT → s.accEnd.reg a = s.reg a := by
  have hwork := s.accEnd_work
  refine ⟨hwork.evt, hwork.now, hwork.calh, ?_, fun a ha hstat => (hwork.reg a ha).trans (State.reg_setF_ne s Reg.CAL_STAT_ACC_STEP 0 hstat)⟩
  rw [hwork.getF _ (by decide)]
  exact State.getF_setF_fits s (by decide) (by decide)

theorem State.ModeWork.calh {s t : State} (h : s.ModeWork t) : t.calh = s.calh := by rw [← h]

/-- The return to PRIOR made pending: the fields of SYS_MODE, its slot, what else stays. -/
theorem State.toPrior_spec (s : State) :
    let t := (s.pendMode s.prior (some (s.now + 1)) 7 2).squashMode (s.now + 1)
    t.getF Reg.SYS_MODE_PENDV = 1 ∧ t.getF Reg.SYS_MODE_PEND = s.prior ∧ t.mode.pendAt = some (s.now + 1) ∧ t.calh = s.calh
      ∧ State.Pushes 3 s t ∧ ∀ a, evtReg a = false → a ≠ Reg.CFG_STATUS → a ≠ Reg.SYS_MODE → t.reg a = s.reg a := by
  obtain ⟨hpendv, hpend, hat, -⟩ := s.pendMode_spec s.prior (some (s.now + 1)) 7 2
  have hprior : s.prior < 8 := Nat.mod_lt _ (by decide)
  have hcalh : (s.pendMode s.prior (some (s.now + 1)) 7 2).calh = s.calh :=
    (s.pendMode_work s.prior (some (s.now + 1)) 7 2).calh
  have hpush := s.pendMode_pushes s.prior (some (s.now + 1)) 7 2
  have hreg : ∀ a, evtReg a = false → a ≠ Reg.CFG_STATUS → a ≠ Reg.SYS_MODE →
      (s.pendMode s.prior (some (s.now + 1)) 7 2).reg a = s.reg a := fun a he hc hm => s.reg_pendMode _ _ _ _ he hc hm
  generalize s.pendMode s.prior (some (s.now + 1)) 7 2 = u at *
  obtain ⟨y, hy⟩ := u.squashMode_engs (s.now + 1)
  intro t
  rw [show t = { u with engs := y } from hy]
  exact ⟨hpendv, hpend.trans (Nat.mod_eq_of_lt hprior), hat, hcalh, hpush, hreg⟩

/-- After the end of the chain the return to PRIOR is pending, by this end or by an earlier request. -/
theorem State.endChain_spec (s : State) :
    s.endChain.calh = s.calh ∧ s.endChain.getF Reg.CAL_STAT_ACC_STEP = 0 ∧ s.endChain.reg Reg.CAL_ACCSLOT = s.reg Reg.CAL_ACCSLOT
      ∧ s.endChain.getF Reg.SYS_MODE_PENDV = 1
      ∧ (s.getF Reg.SYS_MODE_PENDV = 0 → s.endChain.getF Reg.SYS_MODE_PEND = s.prior ∧ s.endChain.mode.pendAt = some (s.now + 1))
      ∧ State.Pushes 3 s s.endChain := by
  obtain ⟨hevt, hnow, hcalh, hstep, hreg⟩ := s.accEnd_spec
  have hmode : s.accEnd.reg Reg.SYS_MODE = s.reg Reg.SYS_MODE := hreg _ (by decide) (by decide)
  have hprior : s.accEnd.prior = s.prior := congrArg (bits · 5 3) hmode
  have hpendv : s.accEnd.getF Reg.SYS_MODE_PENDV = s.getF Reg.SYS_MODE_PENDV := congrArg (bits · 9 9) hmode
  have hslot := hreg Reg.CAL_ACCSLOT (by decide) (by decide)
  have hpush : State.Pushes 3 s s.accEnd := (State.Pushes.of_evt hevt).mono (by decide)
  unfold State.endChain
  extract_lets s2
  split
  next hflag =>
    have hone : s.accEnd.getF Reg.SYS_MODE_PENDV ≠ 0 := by simpa [State.flag] using hflag
    refine ⟨hcalh, hstep, hslot, (State.getF_bit _ Reg.SYS_MODE_PENDV rfl).resolve_left hone, fun h => ?_, hpush⟩
    exact absurd (hpendv.trans h) hone
  next hflag =>
    obtain ⟨hv, hp, hat, hcalh', hpush', hreg'⟩ := s.accEnd.toPrior_spec
    refine ⟨hcalh'.trans hcalh, ?_, (hreg' _ (by decide) (by decide) (by decide)).trans hslot, hv, fun _ => ⟨hp.trans hprior, ?_⟩, ?_⟩
    · rw [← hstep]
      exact congrArg (bits · 55 52) (hreg' _ (by decide) (by decide) (by decide))
    · rw [← hnow]
      exact hat
    · exact ((State.Pushes.of_evt hevt).trans hpush').mono (by decide)

theorem calAccDone_ends {s : State} (hcur : s.cur = 2) (hstep : s.getF Reg.CAL_STAT_ACC_STEP = 5)
    (hidle : ∀ c < 24, (s.cal c).acc = false ∧ (s.cal c).stage = 0) : Gives .calAccDone s (fun t =>
      t.reg Reg.CAL_ACCSLOT = BitVec.ofNat 64 s.now ∧ t.calh.compact = true ∧ t.getF Reg.CAL_STAT_ACC_STEP = 0
      ∧ t.getF Reg.SYS_MODE_PENDV = 1
      ∧ (s.getF Reg.SYS_MODE_PENDV = 0 → t.getF Reg.SYS_MODE_PEND = s.prior ∧ t.mode.pendAt = some (s.now + 1))
      ∧ Logged s t .CAL_ACC_DONE 0 (BitVec.ofNat 64 s.calh.deviant.length)
          (BitVec.ofNat 64 (((List.range 24).map (fun c => (s.cal c).failed)).sum))) := by
  have hall : (List.range 24).all (fun b => !(s.cal b).acc && (s.cal b).stage == 0) = true := by
    rw [List.all_eq_true]
    intro b hb
    obtain ⟨hacc, hstage⟩ := hidle b (List.mem_range.mp hb)
    simp [hacc, hstage]
  have hexec : exec .calAccDone s = execCalAccDone s := rfl
  unfold execCalAccDone at hexec
  rw [if_pos ⟨hcur, hstep, hall⟩] at hexec
  extract_lets failed calh s1 at hexec
  have hreg1 : ∀ a, a ≠ Reg.CAL_ACCSLOT → s1.reg a = s.reg a := fun a ha => State.reg_setReg_ne s _ ha
  have hslot1 : s1.reg Reg.CAL_ACCSLOT = BitVec.ofNat 64 s.now := State.reg_setReg_self s Reg.CAL_ACCSLOT _
  have hlogSlot : s1.logSlot = s.logSlot := State.logSlot_congr (fun a _ ha => hreg1 a (by simp only [Reg.CAL_ACCSLOT]; omega)) rfl
  have hnow : s1.now = s.now := rfl
  have hevt : s1.evt = s.evt := rfl
  have hcompact : s1.calh.compact = true := rfl
  clear_value s1
  let l : List W64 := [BitVec.ofNat 64 s.calh.deviant.length, BitVec.ofNat 64 failed]
  have hmode : (s1.log .CAL_ACC_DONE 0 l).reg Reg.SYS_MODE = s.reg Reg.SYS_MODE :=
    (State.reg_log _ _ _ _ (by decide)).trans (hreg1 _ (by decide))
  obtain ⟨hcalh, hstep', hslot, hpendv, hpend, hpush⟩ := (s1.log .CAL_ACC_DONE 0 l).endChain_spec
  refine ⟨_, hexec, ?_, ?_, hstep', hpendv, fun h => ?_, ?_⟩
  · rw [hslot, State.reg_log _ _ _ _ (by decide), hslot1]
  · rw [hcalh, State.log_calh, hcompact]
  · obtain ⟨hp, hat⟩ := hpend ((congrArg (bits · 9 9) hmode).trans h)
    refine ⟨hp.trans (congrArg (bits · 5 3) hmode), hat.trans ?_⟩
    rw [State.now, State.log_clk, ← State.now, hnow]
  · exact (State.logged_of_pushes s1 .all .CAL_ACC_DONE 0 l hpush (by simp [l])).of_same hevt hlogSlot

/-- Settles O51: each step of a pass by its own lemma: the start, the spare phases, the channel's overlaps, intervals and judgement, the end, the
abandoning and the end of its substitution; the end of Acclimatise by the state that its chain leaves and the transition to PRIOR. -/
theorem calibrationPasses : Obligations.CalibrationPasses := by
  unfold Obligations.CalibrationPasses
  intro b s k now
  refine ⟨calPassStart_idle, calPassStart_begins, fun r rest hr hst hdue hab => calSparePhaseEnd_sets hr hst hdue hab, ?_,
    fun hst hstep hch hdue hab => calPassEnd_ends hst hstep hch hdue hab, fun hst hab => calAbandon_abandons hst hab,
    fun n hend hdue => substitutionEnd_releases hend hdue, fun hcur hstep hidle => calAccDone_ends hcur hstep hidle⟩
  intro p rest hch hp hab hst
  refine ⟨fun hstep hdue => calChannelStart_connects hch hp hab hst hstep hdue, fun hstep hdue => ⟨?_, ?_, ?_⟩,
    fun hstep hdue => calIntervalEnd_steps hch hab hst hstep hdue, fun hstep hdue => ⟨?_, ?_, ?_⟩⟩
  · exact firstOverlapEnd_matches hch hab hst hstep hdue
  · exact firstOverlapEnd_extends hch hab hst hstep hdue
  · exact firstOverlapEnd_skips hch hab hst hstep hdue
  · exact secondOverlapEnd_refused hch hab hst hstep hdue
  · exact secondOverlapEnd_applies hch hab hst hstep hdue
  · exact secondOverlapEnd_outlies hch hab hst hstep hdue

end Sys2Proof.Machine

namespace Sys2Proof.Machine
open Sys2Proof

/-! ### Where a port may write, one-bit fields, copies -/

/-- Outside the update block a word is open to writes only once the host service runs (R352, R428). -/
theorem State.running_of_portOpen {s : State} {port a : Nat} (ha : blockOf a ≠ 13) (h : s.portOpen port a = true) : s.mode.phase = .running := by
  unfold State.portOpen at h
  split at h
  · simp [ha] at h
  · simp only [Bool.and_eq_true, State.serviceRuns, beq_iff_eq] at h
    exact h.1.1

theorem State.flag_eq_true_iff (s : State) {f : Fld} (hf : f.hi = f.lo) : s.flag f = true ↔ s.getF f = 1 := by
  rcases s.getF_bit f hf with h | h <;> simp [State.flag, h]

theorem State.flag_eq_false_iff (s : State) (f : Fld) : s.flag f = false ↔ s.getF f = 0 := by simp [State.flag]

@[simp] theorem State.copy_setCopy_self (s : State) (port a : Nat) (v : W64) : (s.setCopy port a v).copy port a = v :=
  Sparse.get_set_self _ s.copies _ v

theorem State.setCopy_frame (s : State) (port a : Nat) (v : W64) : { s.setCopy port a v with copies := s.copies } = s := by
  unfold State.setCopy
  rfl

theorem State.setF_setCopy_frame (s : State) (port a : Nat) (v : W64) (f : Fld) (n : Nat) :
    { (s.setCopy port a v).setF f n with regs := s.regs, copies := s.copies } = s := by
  unfold State.setF State.setReg State.setCopy
  rfl

theorem State.coefPtr_setCopy (s : State) (port : Nat) (v : W64) :
    (s.setCopy port Reg.FLT_COEF_PTR v).coefPtr port = (bits v 28 24, bits v 20 20, bits v 18 16, bits v 7 0) := by
  simp only [State.coefPtr, State.copy_setCopy_self]

/-! ### The pointer of a port (R139, R456) -/

section
variable {s : State} {port : Nat}

/-- A data access advances TAP. -/
theorem State.advanceCoef_tap (h : (s.coefPtr port).2.2.2 < 255) : s.advanceCoef port
    = s.setCopy port Reg.FLT_COEF_PTR (setBits (s.copy port Reg.FLT_COEF_PTR) 7 0 ((s.coefPtr port).2.2.2 + 1)) := if_pos h

/-- From TAP 255 it goes on at TAP 0 of the next preset. -/
theorem State.advanceCoef_preset (h : (s.coefPtr port).2.2.2 = 255) (hp : (s.coefPtr port).2.2.1 < 5) : s.advanceCoef port
    = s.setCopy port Reg.FLT_COEF_PTR (setBits (setBits (s.copy port Reg.FLT_COEF_PTR) 7 0 0) 18 16 ((s.coefPtr port).2.2.1 + 1)) :=
  (if_neg fun hlt => absurd h (Nat.ne_of_lt hlt)).trans (if_pos hp)

theorem State.coefPtr_advanceCoef_tap (h : (s.coefPtr port).2.2.2 < 255) : (s.advanceCoef port).coefPtr port
    = ((s.coefPtr port).1, (s.coefPtr port).2.1, (s.coefPtr port).2.2.1, (s.coefPtr port).2.2.2 + 1) := by
  rw [State.advanceCoef_tap h, State.coefPtr_setCopy, bits_setBits_ne _ _ (by decide) (by decide), bits_setBits_ne _ _ (by decide) (by decide),
    bits_setBits_ne _ _ (by decide) (by decide), bits_setBits _ _ (by decide), Nat.mod_eq_of_lt (by omega)]
  rfl

theorem State.coefPtr_advanceCoef_preset (h : (s.coefPtr port).2.2.2 = 255) (hp : (s.coefPtr port).2.2.1 < 5) :
    (s.advanceCoef port).coefPtr port = ((s.coefPtr port).1, (s.coefPtr port).2.1, (s.coefPtr port).2.2.1 + 1, 0) := by
  rw [State.advanceCoef_preset h hp, State.coefPtr_setCopy]
  simp only [bits_setBits_ne, bits_setBits, Nat.reduceLT, true_or, or_true]
  rw [Nat.mod_eq_of_lt (by omega)]
  rfl

end

section
variable (s : State) (port : Nat)

/-- An advance touches the port's copy, and past the last preset the count of free values. -/
theorem State.advanceCoef_eq : ∃ c n, s.advanceCoef port = { s with copies := c, fresh := n } := by
  unfold State.advanceCoef
  dsimp only
  split
  · exact ⟨_, s.fresh, rfl⟩
  · split
    · exact ⟨_, s.fresh, rfl⟩
    · exact ⟨_, s.fresh + 1, rfl⟩

theorem State.coef_advanceCoef (b : Nat) : (s.advanceCoef port).coef b = s.coef b := by
  obtain ⟨c, n, h⟩ := s.advanceCoef_eq port
  rw [h]
  rfl

theorem State.getF_advanceCoef (f : Fld) : (s.advanceCoef port).getF f = s.getF f := by
  obtain ⟨c, n, h⟩ := s.advanceCoef_eq port
  rw [h]
  rfl

end

/-! ### Coefficient data (R139) -/

/-- A bank's coefficients with one of them replaced. -/
def CoefSt.withTap (x : CoefSt) (set preset k : Nat) (v : Int) : CoefSt :=
  { x with taps := x.taps.set (fun _ => none) (2048 * set + 256 * preset + k) (some v) }

theorem CoefSt.tap_withTap_self (x : CoefSt) (set preset k : Nat) (v : Int) : (x.withTap set preset k v).tap set preset k = v := by
  simp [CoefSt.tap, CoefSt.withTap]

/-- The hub with the coefficient that a port's pointer names replaced and READY of its bank cleared. -/
def State.takeTap (s : State) (port : Nat) (v : W64) : State :=
  let p := s.coefPtr port
  (s.setCoef p.1 ((s.coef p.1).withTap p.2.1 p.2.2.1 p.2.2.2 (signed 24 (bits v 23 0)))).setF (Reg.FLT_BSTAT_READY p.1) 0

section
variable {s : State} {port : Port} {v : W64}

/-- A write beside the active set, with no swap pending, is taken. -/
theorem State.coefWrite_taken (hset : (s.coefPtr port).2.1 ≠ s.getF (Reg.FLT_BSTAT_ACTIVE (s.coefPtr port).1))
    (hpend : s.getF (Reg.FLT_BSTAT_PENDV (s.coefPtr port).1) = 0) : s.coefWrite port v = ((s.takeTap port v).advanceCoef port, none) := by
  have hactive : decide ((s.coefPtr port).2.1 = s.getF (Reg.FLT_BSTAT_ACTIVE (s.coefPtr port).1)) = false := decide_eq_false hset
  have hflag := (s.flag_eq_false_iff _).mpr hpend
  unfold State.coefWrite
  dsimp only
  simp only [hactive, hflag]
  rfl

/-- While the host service runs, a write into the active set or beside a pending swap is refused. -/
theorem State.coefWrite_refused (hrun : s.mode.phase = .running)
    (h : (s.coefPtr port).2.1 = s.getF (Reg.FLT_BSTAT_ACTIVE (s.coefPtr port).1) ∨ s.getF (Reg.FLT_BSTAT_PENDV (s.coefPtr port).1) = 1) :
    s.coefWrite port v = s.refuse .FLT_COEF_ACTIVE (s.coefPtr port).1 Reg.FLT_COEF_DATA port := by
  have hloads : (s.mode.phase == Phase.lanes) = false := by rw [hrun]; rfl
  have hrefuse : decide ((s.coefPtr port).2.1 = s.getF (Reg.FLT_BSTAT_ACTIVE (s.coefPtr port).1)) = true
      ∨ s.flag (Reg.FLT_BSTAT_PENDV (s.coefPtr port).1) = true := h.imp decide_eq_true (s.flag_eq_true_iff rfl).mpr
  unfold State.coefWrite
  dsimp only
  refine if_pos ?_
  rw [hloads, Bool.and_false, Bool.not_false, Bool.and_true, Bool.or_eq_true]
  exact hrefuse

theorem coefDataAccess_open (hopen : s.portOpen port Reg.FLT_COEF_DATA = true) (hc : 1 ≤ s.classOf port) :
    exec (.coefDataAccess port (some v)) s = .next (s.coefWrite port v).1 := (if_pos hopen).trans (if_neg (by omega))

theorem coefDataAccess_observer (hopen : s.portOpen port Reg.FLT_COEF_DATA = true) (hc : s.classOf port = 0) :
    Refuses (.coefDataAccess port (some v)) s .SYS_AUTH_DENIED 0 Reg.FLT_COEF_DATA port :=
  .of_exec ((if_pos hopen).trans (if_pos (by omega)))

theorem coefDataAccess_writes (hopen : s.portOpen port Reg.FLT_COEF_DATA = true) (hc : 1 ≤ s.classOf port)
    (hset : (s.coefPtr port).2.1 ≠ s.getF (Reg.FLT_BSTAT_ACTIVE (s.coefPtr port).1))
    (hpend : s.getF (Reg.FLT_BSTAT_PENDV (s.coefPtr port).1) = 0) :
    exec (.coefDataAccess port (some v)) s = .next ((s.takeTap port v).advanceCoef port) := by
  rw [coefDataAccess_open hopen hc, State.coefWrite_taken hset hpend]

theorem coefDataAccess_refused (hopen : s.portOpen port Reg.FLT_COEF_DATA = true) (hc : 1 ≤ s.classOf port)
    (h : (s.coefPtr port).2.1 = s.getF (Reg.FLT_BSTAT_ACTIVE (s.coefPtr port).1) ∨ s.getF (Reg.FLT_BSTAT_PENDV (s.coefPtr port).1) = 1) :
    Refuses (.coefDataAccess port (some v)) s .FLT_COEF_ACTIVE (s.coefPtr port).1 Reg.FLT_COEF_DATA port := by
  refine .of_exec ((coefDataAccess_open hopen hc).trans ?_)
  rw [State.coefWrite_refused (State.running_of_portOpen (by decide) hopen) h]
  rfl

theorem coefDataAccess_reads (hopen : s.portReads port Reg.FLT_COEF_DATA = true) :
    exec (.coefDataAccess port none) s = .next (s.advanceCoef port) := if_pos hopen

/-- What a taken write leaves. -/
theorem State.takeTap_spec (s : State) (port : Nat) (v : W64) :
    (((s.takeTap port v).advanceCoef port).coef (s.coefPtr port).1).tap (s.coefPtr port).2.1 (s.coefPtr port).2.2.1 (s.coefPtr port).2.2.2
        = signed 24 (bits v 23 0)
      ∧ ((s.takeTap port v).advanceCoef port).getF (Reg.FLT_BSTAT_READY (s.coefPtr port).1) = 0 := by
  rw [State.coef_advanceCoef, State.getF_advanceCoef]
  refine ⟨?_, State.getF_setF_self _ (Reg.FLT_BSTAT_READY _) 0 (by decide : 4 < 64)⟩
  refine Eq.trans (congrArg (fun x : CoefSt => x.tap _ _ _) (State.coef_setCoef_self s _ _)) ?_
  exact CoefSt.tap_withTap_self _ _ _ _ _

/-! ### COMMIT (R139, R456) -/

theorem coefCommit_open (hopen : s.portOpen port Reg.FLT_COEF_PTR = true) :
    exec (.coefCommit port v) s = .next (s.coefPtrWrite port (setBits v 31 31 1)).1 := if_pos hopen

theorem bit_setBits_commit (v : W64) : bit (setBits v 31 31 1) 31 = true := by
  rw [bit, BitVec.testBit_toNat, getLsbD_setBits _ _ _ _ _ (by decide)]
  rfl

theorem coefCommit_bank (hopen : s.portOpen port Reg.FLT_COEF_PTR = true) (hc : 1 ≤ s.classOf port) (hb : 24 ≤ bits v 28 24) :
    Refuses (.coefCommit port v) s .FLT_COEF_BANK 0 Reg.FLT_COEF_PTR port := by
  refine .of_exec ((coefCommit_open hopen).trans ?_)
  unfold State.coefPtrWrite
  extract_lets commit
  rw [bits_setBits_ne v 1 (by decide) (by decide), if_neg (by omega), if_pos hb]
  rfl

/-- COMMIT for a bank and a preset that exist marks the bank's inactive set ready. -/
theorem coefCommit_commits (hopen : s.portOpen port Reg.FLT_COEF_PTR = true) (hc : 1 ≤ s.classOf port) (hb : bits v 28 24 < 24)
    (hp : bits v 18 16 < 6) : exec (.coefCommit port v) s
      = .next ((s.setCopy port Reg.FLT_COEF_PTR (setBits v 31 31 1 &&& 0x1F1700FF#64)).setF (Reg.FLT_BSTAT_READY (bits v 28 24)) 1) := by
  rw [coefCommit_open hopen]
  unfold State.coefPtrWrite
  extract_lets commit s1
  rw [bits_setBits_ne v 1 (by decide) (by decide), bits_setBits_ne v 1 (by decide) (by decide), if_neg (by omega), if_neg (by omega),
    if_neg (by omega)]
  dsimp only
  rw [if_pos (bit_setBits_commit v)]

end

/-! ### The sets of one bank beside those of others -/

/-- What a swap reads and writes of bank b: the present slot, FLT_BSTAT, FLT_SWAP_SLOT and the bank's coefficients. -/
def State.setsOf (s : State) (b : Nat) : Nat × W64 × W64 × CoefSt := (s.now, s.reg (Reg.FLT_BSTAT b), s.reg (Reg.FLT_SWAP_SLOT b), s.coef b)

theorem State.setsOf_eq_iff {s t : State} {b : Nat} : t.setsOf b = s.setsOf b
    ↔ t.now = s.now ∧ t.reg (Reg.FLT_BSTAT b) = s.reg (Reg.FLT_BSTAT b) ∧ t.reg (Reg.FLT_SWAP_SLOT b) = s.reg (Reg.FLT_SWAP_SLOT b)
      ∧ t.coef b = s.coef b := by
  simp only [State.setsOf, Prod.mk.injEq]

section
variable {s t : State} {b y : Nat}

theorem State.getF_of_setsOf (h : t.setsOf b = s.setsOf b) {f : Fld} (hf : f.addr = Reg.FLT_BSTAT b) : t.getF f = s.getF f := by
  rw [State.getF, hf, (State.setsOf_eq_iff.mp h).2.1, ← hf, ← State.getF]

theorem State.setsOf_setCoef_ne (x : CoefSt) (h : b ≠ y) : (s.setCoef y x).setsOf b = s.setsOf b :=
  State.setsOf_eq_iff.mpr ⟨rfl, rfl, rfl, State.coef_setCoef_ne s x h⟩

theorem State.setsOf_setF_ne {f : Fld} (v : Nat) (hf : f.addr = Reg.FLT_BSTAT y) (hy : y < 24) (h : b ≠ y) :
    (s.setF f v).setsOf b = s.setsOf b := by
  refine State.setsOf_eq_iff.mpr ⟨rfl, State.reg_setF_ne s f v ?_, State.reg_setF_ne s f v ?_, rfl⟩
  all_goals
    rw [hf]
    simp only [Reg.FLT_BSTAT, Reg.FLT_SWAP_SLOT]
    omega

theorem State.setsOf_setReg_swapSlot_ne (v : W64) (hb : b < 24) (h : b ≠ y) : (s.setReg (Reg.FLT_SWAP_SLOT y) v).setsOf b = s.setsOf b := by
  refine State.setsOf_eq_iff.mpr ⟨rfl, State.reg_setReg_ne s v ?_, State.reg_setReg_ne s v ?_, rfl⟩
  all_goals
    simp only [Reg.FLT_BSTAT, Reg.FLT_SWAP_SLOT]
    omega

end

/-! ### A swap request (R140) -/

theorem all_bitsSet_iff {n : Nat} (v : BitVec n) (p : Nat → Bool) :
    (bitsSet n v.toNat).all p = true ↔ ∀ b : Fin n, v.getLsbD b = true → p b = true := by
  simp only [bitsSet, List.all_filter, List.all_eq_true, List.mem_range, BitVec.testBit_toNat, Bool.or_eq_true, Bool.not_eq_true']
  refine ⟨fun h b hb => (h b b.isLt).resolve_left (by simp [hb]), fun h i hi => ?_⟩
  cases hv : v.getLsbD i
  · exact .inl rfl
  · exact .inr (h ⟨i, hi⟩ hv)

theorem mem_bitsSet_iff {n : Nat} (v : BitVec n) (b : Fin n) : b.val ∈ bitsSet n v.toNat ↔ v.getLsbD b = true := by
  simp [bitsSet, BitVec.testBit_toNat]

theorem lt_of_mem_bitsSet {n v i : Nat} (h : i ∈ bitsSet n v) : i < n := List.mem_range.mp (List.mem_filter.mp h).1

theorem bitsSet_nodup (n v : Nat) : (bitsSet n v).Nodup := List.nodup_range.filter _

/-- Bank b with its swap named for slot n. -/
def State.pendSwap (n : Nat) (s : State) (b : Nat) : State :=
  (s.setF (Reg.FLT_BSTAT_PENDV b) 1).setCoef b { s.coef b with swapAt := some n }

theorem State.pendSwap_spec (n : Nat) (s : State) (b : Nat) :
    (s.pendSwap n b).getF (Reg.FLT_BSTAT_PENDV b) = 1 ∧ ((s.pendSwap n b).coef b).swapAt = some n :=
  ⟨State.getF_setF_self s (Reg.FLT_BSTAT_PENDV b) 1 (by decide : 3 < 64), congrArg CoefSt.swapAt (State.coef_setCoef_self _ b _)⟩

theorem State.setsOf_pendSwap_ne (n : Nat) (s : State) {b y : Nat} (hy : y < 24) (h : b ≠ y) : (s.pendSwap n y).setsOf b = s.setsOf b :=
  (State.setsOf_setCoef_ne _ h).trans (State.setsOf_setF_ne 1 rfl hy h)

/-- States that differ in the registers and the coefficients only. -/
abbrev State.OnlyCoefs (s t : State) : Prop := { t with regs := s.regs, coefs := s.coefs } = s

theorem State.OnlyCoefs.trans {s t u : State} (h : s.OnlyCoefs t) (h' : t.OnlyCoefs u) : s.OnlyCoefs u :=
  (congrArg (fun x : State => { x with regs := s.regs, coefs := s.coefs }) h').trans h

theorem State.OnlyCoefs.setReg (s : State) (a : Nat) (v : W64) : s.OnlyCoefs (s.setReg a v) := rfl

theorem State.OnlyCoefs.setF (s : State) (f : Fld) (v : Nat) : s.OnlyCoefs (s.setF f v) := .setReg s _ _

theorem State.OnlyCoefs.setCoef (s : State) (b : Nat) (x : CoefSt) : s.OnlyCoefs (s.setCoef b x) := rfl

theorem State.OnlyCoefs.foldl {β : Type} (l : List β) (f : State → β → State) (s : State) (hf : ∀ t x, State.OnlyCoefs t (f t x)) :
    s.OnlyCoefs (l.foldl f s) :=
  foldl_rel State.OnlyCoefs (fun _ => rfl) (fun _ _ _ => .trans) l f s fun t x _ => hf t x

theorem State.pendSwap_onlyCoefs (n : Nat) (s : State) (b : Nat) : s.OnlyCoefs (s.pendSwap n b) := .trans (.setF s _ 1) (.setCoef _ b _)

/-- The banks of a mask, each with its swap named. -/
theorem State.pendSwaps_spec (n : Nat) (s : State) (banks : BitVec 24) (b : Fin 24) :
    let t := (bitsSet 24 banks.toNat).foldl (State.pendSwap n) s
    if banks.getLsbD b = true then t.getF (Reg.FLT_BSTAT_PENDV b) = 1 ∧ (t.coef b).swapAt = some n
    else t.reg (Reg.FLT_BSTAT b) = s.reg (Reg.FLT_BSTAT b) ∧ t.coef b = s.coef b := by
  intro t
  have hother : ∀ (u : State), ∀ y ∈ bitsSet 24 banks.toNat, y ≠ b → (u.pendSwap n y).setsOf b = u.setsOf b :=
    fun u y hy hne => u.setsOf_pendSwap_ne n (lt_of_mem_bitsSet hy) hne.symm
  split
  case isTrue hb =>
    obtain ⟨u, -, hu⟩ := foldl_once _ (State.pendSwap n) s (fun u => u.setsOf b) ((mem_bitsSet_iff banks b).mpr hb) (bitsSet_nodup _ _) hother
    obtain ⟨hpend, hat⟩ := u.pendSwap_spec n b
    exact ⟨(State.getF_of_setsOf hu rfl).trans hpend, (congrArg CoefSt.swapAt (State.setsOf_eq_iff.mp hu).2.2.2).trans hat⟩
  case isFalse hb =>
    have hkeep : t.setsOf b = s.setsOf b := foldl_rel (fun s t : State => t.setsOf b = s.setsOf b) (fun _ => rfl)
      (fun _ _ _ h h' => h'.trans h) _ _ s fun u y hy => hother u y hy (by rintro rfl; exact hb ((mem_bitsSet_iff banks b).mp hy))
    obtain ⟨-, hstat, -, hcoef⟩ := State.setsOf_eq_iff.mp hkeep
    exact ⟨hstat, hcoef⟩

/-- The slot that a swap request names. -/
def State.swapSlot (s : State) (port : Nat) (at_ : Bool) : Nat := if at_ then (s.copy port Reg.FLT_SWAP_AT).toNat else s.now + 16

/-- The tests of a swap request, in their order. -/
def State.swapTests (s : State) (banks at_ : Nat) : Option Cond :=
  firstFail [((bitsSet 24 banks).all (fun b => s.flag (Reg.FLT_BSTAT_READY b)), .FLT_SWAP_NOTREADY),
    ((bitsSet 24 banks).all (fun b => !s.flag (Reg.FLT_BSTAT_PENDV b)), .FLT_SWAP_BUSY), (decide (s.now + 16 ≤ at_), .FLT_SWAP_LATE)]

section
variable {s : State} {port : Port} {at_ : Bool} {banks : BitVec 24}

theorem State.swapReady_iff : (bitsSet 24 banks.toNat).all (fun b => s.flag (Reg.FLT_BSTAT_READY b)) = true
    ↔ ∀ b : Fin 24, banks.getLsbD b = true → s.getF (Reg.FLT_BSTAT_READY b) = 1 := by
  rw [all_bitsSet_iff]
  exact forall₂_congr fun b _ => s.flag_eq_true_iff rfl

theorem State.swapIdle_iff : (bitsSet 24 banks.toNat).all (fun b => !s.flag (Reg.FLT_BSTAT_PENDV b)) = true
    ↔ ∀ b : Fin 24, banks.getLsbD b = true → s.getF (Reg.FLT_BSTAT_PENDV b) = 0 := by
  rw [all_bitsSet_iff]
  exact forall₂_congr fun b _ => (Bool.not_eq_true' _).to_iff.trans (s.flag_eq_false_iff _)

theorem State.swapTests_notReady {n : Nat} (h : ¬ ∀ b : Fin 24, banks.getLsbD b = true → s.getF (Reg.FLT_BSTAT_READY b) = 1) :
    s.swapTests banks.toNat n = some .FLT_SWAP_NOTREADY := if_neg (mt State.swapReady_iff.mp h)

theorem State.swapTests_busy {n : Nat} (hready : ∀ b : Fin 24, banks.getLsbD b = true → s.getF (Reg.FLT_BSTAT_READY b) = 1)
    (h : ¬ ∀ b : Fin 24, banks.getLsbD b = true → s.getF (Reg.FLT_BSTAT_PENDV b) = 0) :
    s.swapTests banks.toNat n = some .FLT_SWAP_BUSY :=
  (if_pos (State.swapReady_iff.mpr hready)).trans (if_neg (mt State.swapIdle_iff.mp h))

/-- Where every named bank is ready and idle, the slot decides. -/
theorem State.swapTests_slot {n : Nat} (hready : ∀ b : Fin 24, banks.getLsbD b = true → s.getF (Reg.FLT_BSTAT_READY b) = 1)
    (hidle : ∀ b : Fin 24, banks.getLsbD b = true → s.getF (Reg.FLT_BSTAT_PENDV b) = 0) :
    s.swapTests banks.toNat n = if s.now + 16 ≤ n then none else some .FLT_SWAP_LATE := by
  refine ((if_pos (State.swapReady_iff.mpr hready)).trans (if_pos (State.swapIdle_iff.mpr hidle))).trans ?_
  simp only [firstFail, decide_eq_true_eq]

/-- An operator's request is judged by its tests. -/
theorem State.swapRequest_eq (hc : 1 ≤ s.classOf port) : s.swapRequest port at_ banks.toNat
    = (match s.swapTests banks.toNat (s.swapSlot port at_) with
      | some c => s.refuse c ((bitsSet 24 banks.toNat).getD 0 0) Reg.FLT_SWAP_REQ port
      | none => ((bitsSet 24 banks.toNat).foldl (State.pendSwap (s.swapSlot port at_)) s, none)) := if_neg (by omega)

theorem swapRequest_open (hopen : s.portOpen port Reg.FLT_SWAP_REQ = true) :
    exec (.swapRequest port at_ banks) s = .next (s.swapRequest port at_ banks.toNat).1 := if_pos hopen

theorem swapRequest_refused (hopen : s.portOpen port Reg.FLT_SWAP_REQ = true) (hc : 1 ≤ s.classOf port) {c : Cond}
    (h : s.swapTests banks.toNat (s.swapSlot port at_) = some c) :
    Refuses (.swapRequest port at_ banks) s c ((bitsSet 24 banks.toNat).getD 0 0) Reg.FLT_SWAP_REQ port := by
  refine .of_exec ((swapRequest_open hopen).trans ?_)
  rw [State.swapRequest_eq hc, h]
  rfl

theorem swapRequest_taken (hopen : s.portOpen port Reg.FLT_SWAP_REQ = true) (hc : 1 ≤ s.classOf port)
    (h : s.swapTests banks.toNat (s.swapSlot port at_) = none) :
    exec (.swapRequest port at_ banks) s = .next ((bitsSet 24 banks.toNat).foldl (State.pendSwap (s.swapSlot port at_)) s) := by
  rw [swapRequest_open hopen, State.swapRequest_eq hc, h]

end

/-! ### The swap at its slot (R28, R140) -/

/-- A bank's coefficients with set a computing from instant n on and no swap pending. -/
def CoefSt.swappedTo (x : CoefSt) (n a : Nat) : CoefSt := { x with swapAt := none, swaps := (n, a) :: x.swaps }

theorem CoefSt.setAt_swappedTo (x : CoefSt) (n a : Nat) : (x.swappedTo n a).setAt n = a := by
  simp [CoefSt.setAt, CoefSt.swappedTo]

/-- Bank b with its other set active from slot n on. -/
def State.swapped (s : State) (b n : Nat) : State :=
  let a := 1 - s.getF (Reg.FLT_BSTAT_ACTIVE b)
  ((((s.setCoef b ((s.coef b).swappedTo n a)).setF (Reg.FLT_BSTAT_PENDV b) 0).setF
    (Reg.FLT_BSTAT_ACTIVE b) a).setF (Reg.FLT_BSTAT_READY b) 1).setReg (Reg.FLT_SWAP_SLOT b) (BitVec.ofNat 64 n)

section
variable {s : State} {b n : Nat}

theorem State.swapBank_unnamed (h : (s.coef b).swapAt = none) : s.swapBank b = s := by
  simp only [State.swapBank, h]

theorem State.swapBank_waits (h : (s.coef b).swapAt = some n) (hn : ¬ n ≤ s.now) : s.swapBank b = s := by
  simp only [State.swapBank, h, if_neg hn]

theorem State.swapBank_due (h : (s.coef b).swapAt = some n) (hn : n ≤ s.now) : s.swapBank b = s.swapped b n := by
  simp only [State.swapBank, h, if_pos hn]
  rfl

theorem State.swapBank_cases (s : State) (b : Nat) : s.swapBank b = s ∨ ∃ n, s.swapBank b = s.swapped b n := by
  cases h : (s.coef b).swapAt with
  | none => exact .inl (State.swapBank_unnamed h)
  | some n =>
    by_cases hn : n ≤ s.now
    · exact .inr ⟨n, State.swapBank_due h hn⟩
    · exact .inl (State.swapBank_waits h hn)

end

/-- FLT_BSTAT as a swap writes it, field after field. -/
theorem State.swapStat_spec (s : State) (b : Nat) {a : Nat} (ha : a < 2) :
    let t := ((s.setF (Reg.FLT_BSTAT_PENDV b) 0).setF (Reg.FLT_BSTAT_ACTIVE b) a).setF (Reg.FLT_BSTAT_READY b) 1
    t.getF (Reg.FLT_BSTAT_ACTIVE b) = a ∧ t.getF (Reg.FLT_BSTAT_PENDV b) = 0 ∧ t.getF (Reg.FLT_BSTAT_READY b) = 1 := by
  have hready : ∀ u : State, ∀ f : Fld, f.addr = Reg.FLT_BSTAT b → f.hi < 4 → (u.setF (Reg.FLT_BSTAT_READY b) 1).getF f = u.getF f :=
    fun u f hf hhi => State.getF_setF_beside u (Reg.FLT_BSTAT_READY b) f 1 hf (by omega) (.inl hhi)
  refine ⟨?_, ?_, State.getF_setF_self _ (Reg.FLT_BSTAT_READY b) 1 (by decide : 4 < 64)⟩
  · rw [hready _ _ rfl (by decide : 0 < 4)]
    exact State.getF_setF_fits _ (f := Reg.FLT_BSTAT_ACTIVE b) (by decide : 0 < 64) ha
  · rw [hready _ _ rfl (by decide : 3 < 4), State.getF_setF_beside _ (Reg.FLT_BSTAT_ACTIVE b) (Reg.FLT_BSTAT_PENDV b) a rfl (by decide : 3 < 64)
      (.inr (by decide : 0 < 3))]
    exact State.getF_setF_self _ (Reg.FLT_BSTAT_PENDV b) 0 (by decide : 3 < 64)

/-- What a swap shows, and that the bank computes with the other set from its slot on. -/
theorem State.swapped_spec (s : State) (b n : Nat) :
    let t := s.swapped b n
    t.getF (Reg.FLT_BSTAT_ACTIVE b) = 1 - s.getF (Reg.FLT_BSTAT_ACTIVE b) ∧ t.getF (Reg.FLT_BSTAT_PENDV b) = 0
      ∧ t.getF (Reg.FLT_BSTAT_READY b) = 1 ∧ t.reg (Reg.FLT_SWAP_SLOT b) = BitVec.ofNat 64 n ∧ (t.coef b).swapAt = none
      ∧ (t.coef b).setAt n = 1 - s.getF (Reg.FLT_BSTAT_ACTIVE b) := by
  unfold State.swapped
  extract_lets a t
  have hstat : ∀ f : Fld, f.addr = Reg.FLT_BSTAT b → t.getF f = _ := fun f hf =>
    State.getF_setReg_addr _ f _ (by simp only [hf, Reg.FLT_BSTAT, Reg.FLT_SWAP_SLOT]; omega)
  have hcoef : t.coef b = (s.coef b).swappedTo n a := State.coef_setCoef_self s b _
  obtain ⟨hactive, hpend, hready⟩ := State.swapStat_spec (s.setCoef b ((s.coef b).swappedTo n a)) b (a := a)
    (Nat.lt_succ_of_le (Nat.sub_le 1 _))
  refine ⟨(hstat _ rfl).trans hactive, (hstat _ rfl).trans hpend, (hstat _ rfl).trans hready, State.reg_setReg_self _ _ _,
    congrArg CoefSt.swapAt hcoef, ?_⟩
  rw [hcoef, CoefSt.setAt_swappedTo]

theorem State.setsOf_swapped_ne (s : State) {b y : Nat} (n : Nat) (hb : b < 24) (hy : y < 24) (h : b ≠ y) :
    (s.swapped y n).setsOf b = s.setsOf b := by
  unfold State.swapped
  extract_lets a
  rw [State.setsOf_setReg_swapSlot_ne _ hb h, State.setsOf_setF_ne 1 rfl hy h, State.setsOf_setF_ne a rfl hy h,
    State.setsOf_setF_ne 0 rfl hy h, State.setsOf_setCoef_ne _ h]

theorem State.setsOf_swapBank_ne (s : State) {b y : Nat} (hb : b < 24) (hy : y < 24) (h : b ≠ y) : (s.swapBank y).setsOf b = s.setsOf b := by
  rcases s.swapBank_cases y with hs | ⟨n, hs⟩
  · rw [hs]
  · rw [hs, State.setsOf_swapped_ne s n hb hy h]

theorem State.swapped_onlyCoefs (s : State) (b n : Nat) : s.OnlyCoefs (s.swapped b n) := by
  unfold State.swapped
  exact .trans (.setCoef s b _) (.trans (.setF _ _ 0) (.trans (.setF _ _ _) (.trans (.setF _ _ 1) (.setReg _ _ _))))

theorem State.swapBank_onlyCoefs (s : State) (b : Nat) : s.OnlyCoefs (s.swapBank b) := by
  rcases s.swapBank_cases b with hs | ⟨n, hs⟩
  · rw [hs]
  · rw [hs]
    exact s.swapped_onlyCoefs b n

/-- Among the banks worked one after another, bank b meets its own swap with its sets as they stood before. -/
theorem State.setsOf_foldl_swapBank (s : State) {l : List Nat} {b : Nat} (hl : ∀ y ∈ l, y < 24) (hnd : l.Nodup) (hb : b ∈ l) :
    ∃ t : State, t.setsOf b = s.setsOf b ∧ (l.foldl (fun t b => t.swapBank b) s).setsOf b = (t.swapBank b).setsOf b :=
  foldl_once l (fun t b => t.swapBank b) s (fun t => t.setsOf b) hb hnd fun t y hy hne => t.setsOf_swapBank_ne (hl b hb) (hl y hy) hne.symm

/-- The swaps that are due, bank by bank. -/
def State.swapBanks (s : State) : State := (List.range 24).foldl (fun t b => t.swapBank b) s

theorem State.setsOf_swapBanks (s : State) (b : Fin 24) :
    ∃ t : State, t.setsOf b = s.setsOf b ∧ s.swapBanks.setsOf b = (t.swapBank b).setsOf b :=
  s.setsOf_foldl_swapBank (fun _ => List.mem_range.mp) List.nodup_range (List.mem_range.mpr b.isLt)

theorem State.swapBanks_onlyCoefs (s : State) : s.OnlyCoefs s.swapBanks := .foldl _ _ s State.swapBank_onlyCoefs

/-- A swap that is due is shown and in effect. -/
theorem State.swapBanks_due {s : State} {b : Fin 24} {n : Nat} (h : (s.coef b).swapAt = some n) (hn : n ≤ s.now) :
    s.swapBanks.getF (Reg.FLT_BSTAT_ACTIVE b) = 1 - s.getF (Reg.FLT_BSTAT_ACTIVE b) ∧ s.swapBanks.getF (Reg.FLT_BSTAT_PENDV b) = 0
      ∧ s.swapBanks.getF (Reg.FLT_BSTAT_READY b) = 1 ∧ s.swapBanks.reg (Reg.FLT_SWAP_SLOT b) = BitVec.ofNat 64 n
      ∧ (s.swapBanks.coef b).swapAt = none ∧ (s.swapBanks.coef b).setAt n = 1 - s.getF (Reg.FLT_BSTAT_ACTIVE b) := by
  obtain ⟨t, hpre, hpost⟩ := s.setsOf_swapBanks b
  obtain ⟨hnow, -, -, hcoef⟩ := State.setsOf_eq_iff.mp hpre
  rw [State.swapBank_due (hcoef ▸ h) (hnow ▸ hn)] at hpost
  obtain ⟨-, -, hslot, hcoef'⟩ := State.setsOf_eq_iff.mp hpost
  rw [State.getF_of_setsOf hpost rfl, State.getF_of_setsOf hpost rfl, State.getF_of_setsOf hpost rfl, hslot, hcoef',
    ← State.getF_of_setsOf hpre (f := Reg.FLT_BSTAT_ACTIVE b) rfl]
  exact t.swapped_spec b n

/-- A swap named for a later slot leaves its bank as it is. -/
theorem State.swapBanks_waits {s : State} {b : Fin 24} {n : Nat} (h : (s.coef b).swapAt = some n) (hn : ¬ n ≤ s.now) :
    s.swapBanks.reg (Reg.FLT_BSTAT b) = s.reg (Reg.FLT_BSTAT b) ∧ s.swapBanks.coef b = s.coef b := by
  obtain ⟨t, hpre, hpost⟩ := s.setsOf_swapBanks b
  obtain ⟨hnow, -, -, hcoef⟩ := State.setsOf_eq_iff.mp hpre
  rw [State.swapBank_waits (hcoef ▸ h) (hnow ▸ hn)] at hpost
  obtain ⟨-, hstat, -, hcoef'⟩ := State.setsOf_eq_iff.mp (hpost.trans hpre)
  exact ⟨hstat, hcoef'⟩

/-- With no overlay change due, and no mode transition but one that a handover brings, the due swaps take effect (R28). -/
theorem coefficientSwap_swaps {s : State} (hovl : s.overlayDue = false) (hmode : s.modeDue = false ∨ s.mode.pendCause = 4) :
    exec .coefficientSwap s = .next s.swapBanks := by
  refine if_neg ?_
  rcases hmode with h | h <;> simp [hovl, h]

/-- Settles O26: a data access by the pointer's fields, COMMIT, a request by its tests, and the swaps of a slot bank by bank. -/
theorem coefficientSets : Obligations.CoefficientSets := by
  unfold Obligations.CoefficientSets
  refine ⟨fun port v s => ⟨fun h => if_neg (by simp [h]), fun h => if_neg (by simp [h]), coefDataAccess_observer,
      fun hopen hc hset hpend => ?write, coefDataAccess_refused, fun hopen htap => ?read⟩,
    fun port v s hopen hc => ⟨fun hb hp => ?commit, coefCommit_bank hopen hc⟩,
    fun port at_ banks s hopen hc => ⟨fun h => ?notReady, fun hready h => ?busy, fun hready hidle h => ?late, fun hready hidle h => ?pends⟩,
    fun s hovl hmode => ⟨_, coefficientSwap_swaps hovl hmode, s.swapBanks_onlyCoefs, fun b n hat => ?swap⟩⟩
  case write =>
    obtain ⟨htap, hready⟩ := s.takeTap_spec port v
    exact ⟨_, coefDataAccess_writes hopen hc hset hpend, htap, hready, State.coefPtr_advanceCoef_tap (s := s.takeTap port v),
      State.coefPtr_advanceCoef_preset (s := s.takeTap port v)⟩
  case read =>
    refine ⟨_, coefDataAccess_reads hopen, State.coefPtr_advanceCoef_tap htap, ?_⟩
    rw [State.advanceCoef_tap htap]
    exact State.setCopy_frame s _ _ _
  case commit =>
    exact ⟨_, coefCommit_commits hopen hc hb hp, State.getF_setF_self _ (Reg.FLT_BSTAT_READY _) 1 (by decide : 4 < 64), State.setF_setCopy_frame s _ _ _ _ _⟩
  case notReady => exact swapRequest_refused hopen hc (State.swapTests_notReady h)
  case busy => exact swapRequest_refused hopen hc (State.swapTests_busy hready h)
  case late => exact swapRequest_refused hopen hc (State.swapTests_slot hready hidle |>.trans (if_neg (Nat.not_le_of_lt h)))
  case pends =>
    refine ⟨_, swapRequest_taken hopen hc (State.swapTests_slot hready hidle |>.trans (if_pos h)), ?_, s.pendSwaps_spec _ banks⟩
    exact State.OnlyCoefs.foldl _ _ s (State.pendSwap_onlyCoefs _)
  case swap =>
    split
    case isTrue hn => exact State.swapBanks_due hat hn
    case isFalse hn => exact State.swapBanks_waits hat hn

end Sys2Proof.Machine

namespace Sys2Proof.Machine
open Sys2Proof

/-! ### How an engine issues an instruction (R174, R185, R197, R210) -/

theorem OnlyEngine.setEng (s : State) (e : Nat) (x : EngSt) : OnlyEngine s (s.setEng e x) e :=
  ⟨fun _ h => State.eng_setEng_ne s x h, rfl⟩

theorem Issues.issues {s : State} {e : Nat} (h : Issues s e) : (s.eng e).issues = true := by
  obtain ⟨hrun, hexc, -⟩ := h
  simp [EngSt.issues, hrun, hexc]

theorem EngSt.issues_eq_false {en : EngSt} (h : en.running = false ∨ en.exc ≠ none) : en.issues = false := by
  rcases h with h | h
  · simp [EngSt.issues, h]
  · simp [EngSt.issues, Option.isNone_eq_false_iff.mpr (Option.isSome_iff_ne_none.mpr h)]

theorem State.retire_next {s : State} {e : Nat} (hi : Issues s e) (t : State) (en : EngSt) :
    t.retire e en ((s.eng e).pc + 1) = t.setEng e { en with pc := (s.eng e).pc + 1 } := by
  obtain ⟨-, -, hpc⟩ := hi
  exact if_pos (by omega)

/-- The exception that an engine holds once an instruction raised x (R183, R210). -/
def EngSt.excepted (en : EngSt) (x : Exc) : EngSt := { en with exc := some (ecauseWord 4 x.code (en.pc % 2 ^ 14) en.slot) }

theorem State.raiseExc_noVec {s : State} {e : Nat} (hv : NoVec s e) (x : Exc) : s.raiseExc e x = s.setEng e ((s.eng e).excepted x) :=
  if_neg hv

section
variable {s t : State} {e : Nat} {g : Guard} {body : State → EngSt → KRes} {en : EngSt} {x : Exc}

theorem State.issue_stopped (h : (s.eng e).issues = false) (ok : Bool) : s.issue e ok body = .next s := by
  simp [State.issue, h]

theorem State.koloux_stopped (h : (s.eng e).issues = false) : s.koloux e g body = .next s := State.issue_stopped h _

theorem State.koloux_issued (hi : IssuesIf s e g) : s.koloux e g body = s.issue e true body := by
  rw [State.koloux, hi.2]

/-- A false guard only moves the PC (R185). -/
theorem State.koloux_skipped (hi : Issues s e) (hg : (s.eng e).guardOk g = false) :
    s.koloux e g body = .next (s.setEng e { s.eng e with pc := (s.eng e).pc + 1 }) := by
  simp only [State.koloux, State.issue, hi.issues, hg, if_true, Bool.false_eq_true, if_false, State.retire_next hi]

theorem State.issue_done (hi : Issues s e) (hb : body s (s.eng e) = .done t en) (hpc : en.pc = (s.eng e).pc) :
    s.issue e true body = .next (t.setEng e { en with pc := (s.eng e).pc + 1 }) := by
  simp only [State.issue, hi.issues, hb, if_true, hpc, State.retire_next hi]

theorem State.issue_raise (hi : Issues s e) (hv : NoVec s e) (hb : body s (s.eng e) = .raise x) :
    s.issue e true body = .next (s.setEng e ((s.eng e).excepted x)) := by
  simp only [State.issue, hi.issues, hb, if_true, State.raiseExc_noVec hv]

theorem State.issue_stall (hi : Issues s e) (hb : body s (s.eng e) = .stall t) : s.issue e true body = .next t := by
  simp only [State.issue, hi.issues, hb, if_true]

end

/-! ### What a word register reads after a write (R180) -/

theorem EngSt.rw_setW (en : EngSt) (r k : Nat) (v : W64) : (en.setW r v).rw k = if k = r ∧ r ≠ 0 then v else en.rw k := by
  by_cases hr : r = 0
  · simp [EngSt.setW, hr]
  · by_cases hk : k = 0
    · simp [EngSt.rw, hk, Ne.symm hr]
    · simp [EngSt.setW, EngSt.rw, hr, hk, Sparse.get_set]

theorem EngSt.setW_frame (en : EngSt) (r : Nat) (v : W64) : { en.setW r v with w := en.w } = en := by
  unfold EngSt.setW
  split <;> rfl

@[simp] theorem EngSt.setW_pc (en : EngSt) (r : Nat) (v : W64) : (en.setW r v).pc = en.pc := (congrArg EngSt.pc (en.setW_frame r v) :)

@[simp] theorem EngSt.setW_reads (en : EngSt) (r : Nat) (v : W64) : (en.setW r v).reads = en.reads :=
  (congrArg EngSt.reads (en.setW_frame r v) :)

@[simp] theorem EngSt.setW_snapArmed (en : EngSt) (r : Nat) (v : W64) : (en.setW r v).snapArmed = en.snapArmed :=
  (congrArg EngSt.snapArmed (en.setW_frame r v) :)

/-! ### The outcomes of an instruction whose guard holds, from what its body answers -/

section
variable {c : Instr} {s t : State} {e : Fin 16} {g : Guard} {body : State → EngSt → KRes} {en : EngSt}

theorem Gives.mono {P Q : State → Prop} (h : Gives c s P) (hPQ : ∀ t, P t → Q t) : Gives c s Q := by
  obtain ⟨t, ht, hP⟩ := h
  exact ⟨t, ht, hPQ t hP⟩

theorem Gives.of_done {P : State → Prop} (hc : exec c s = s.koloux e g body) (hi : IssuesIf s e g) (hb : body s (s.eng e) = .done t en)
    (hpc : en.pc = (s.eng e).pc) (hP : P (t.setEng e { en with pc := (s.eng e).pc + 1 })) : Gives c s P :=
  ⟨_, hc.trans ((State.koloux_issued hi).trans (State.issue_done hi.1 hb hpc)), hP⟩

theorem Raises.of_body {x : Exc} (hc : exec c s = s.koloux e g body) (hi : IssuesIf s e g) (hv : NoVec s e)
    (hb : body s (s.eng e) = .raise x) : Raises c s e x :=
  ⟨_, hc.trans ((State.koloux_issued hi).trans (State.issue_raise hi.1 hv hb)), State.eng_setEng_self s _ _, .setEng s e _⟩

theorem exec_stalls (hc : exec c s = s.koloux e g body) (hi : IssuesIf s e g) (hb : body s (s.eng e) = .stall t) : exec c s = .next t :=
  hc.trans ((State.koloux_issued hi).trans (State.issue_stall hi.1 hb))

theorem Enters.of_body {op : CbOp} (hc : exec c s = s.koloux e g body) (hi : IssuesIf s e g)
    (hb : body s (s.eng e) = .done s { s.eng e with cb := (s.eng e).cb ++ [{ slot := (s.eng e).slot, op := op }] }) : Enters c s e op :=
  .of_done hc hi hb rfl ⟨State.eng_setEng_self s _ _, .setEng s e _⟩

theorem WritesW.of_body {rd : WReg} {v : W64} (hc : exec c s = s.koloux e g body) (hi : IssuesIf s e g)
    (hb : body s (s.eng e) = .done s ((s.eng e).setW rd v)) : WritesW c s e rd v := by
  refine .of_done hc hi hb (EngSt.setW_pc _ _ _) ?_
  rw [State.eng_setEng_self]
  refine ⟨fun r => ?_, congrArg (fun y : EngSt => { y with pc := (s.eng e).pc }) ((s.eng e).setW_frame rd v), rfl, .setEng s e _⟩
  simp only [Fin.ext_iff]
  exact (s.eng e).rw_setW rd r v

end

/-! ### The map, and entries of the commit buffer (R153, R163, R193) -/

section
variable {s : State} {a n : Nat} {r : Range}

theorem State.access_misaligned (s : State) (h : a % n ≠ 0) : s.access a n = .error .align := if_pos h

theorem State.access_unmapped (ha : a % n = 0) (hr : s.range a n = none) : s.access a n = .error .addrRange := by
  simp only [State.access, ha, hr, ne_eq, not_true_eq_false, if_false]

theorem State.access_mapped (ha : a % n = 0) (hr : s.range a n = some r) : s.access a n = .ok r := by
  simp only [State.access, ha, hr, ne_eq, not_true_eq_false, if_false]

end

section
variable {s : State} {e : Nat} {en : EngSt} {low high : List (Bool × Exc)} {op : CbOp} {p : Bool × Exc}

theorem EngSt.cbOver_eq_false (h : en.cb.length < 64) : en.cbOver = false :=
  decide_eq_false (Nat.not_le_of_lt (Nat.lt_of_le_of_lt (List.length_filter_le _ _) h))

/-- An exception tested before CB_OVF. -/
theorem State.commitEntry_low (h : low.find? (fun t => t.1) = some p) : s.commitEntry e en low high op = .raise p.2 := by
  simp only [State.commitEntry, List.find?_append, h, Option.some_or]

/-- An exception tested after CB_OVF. -/
theorem State.commitEntry_high (hcb : en.cb.length < 64) (h : high.find? (fun t => t.1) = some p) :
    s.commitEntry e en [] high op = .raise p.2 := by
  simp only [State.commitEntry, List.nil_append, List.find?_cons, EngSt.cbOver_eq_false hcb, h]

theorem State.commitEntry_done (hcb : en.cb.length < 64) (hlow : low.find? (fun t => t.1) = none) (hhigh : high.find? (fun t => t.1) = none) :
    s.commitEntry e en low high op = .done s { en with cb := en.cb ++ [{ slot := en.slot, op := op }] } := by
  simp only [State.commitEntry, List.find?_append, List.find?_cons, hlow, hhigh, EngSt.cbOver_eq_false hcb, Option.or_none,
    if_neg (Nat.not_le_of_lt hcb)]

end

end Sys2Proof.Machine

namespace Sys2Proof.Machine
open Sys2Proof

/-! ### Instructions whose guard is false, and engines that issue nothing (R174, R185) -/

section
variable {s : State} {e : Nat} {g : Guard}

theorem State.kolouxReg_koloux (f : EngSt → EngSt) : ∃ body, s.kolouxReg e g f = s.koloux e g body := ⟨_, rfl⟩

theorem State.store_koloux (rd ra : WReg) (off : BitVec 12) (n : Nat) : ∃ body, s.store e g rd ra off n = s.koloux e g body := ⟨_, rfl⟩

/-- A load that is not issued applies no group before itself (R166). -/
theorem State.load_koloux (h : ((s.eng e).issues && (s.eng e).guardOk g) = false) (rd ra : WReg) (off : BitVec 12) (n : Nat)
    (ext : Nat → W64) : ∃ body, s.load e g rd ra off n ext = s.koloux e g body := by
  unfold State.load
  rw [h]
  exact ⟨_, rfl⟩

end

section
variable {c : Instr} {e : Fin 16} {g : Guard} {s : State}

/-- A guarded instruction that is not issued, or whose guard is false, does what `koloux` does with it. -/
theorem exec_guarded (h : guardOf c = some (e, g)) (hs : ((s.eng e).issues && (s.eng e).guardOk g) = false) :
    ∃ body, exec c s = s.koloux e g body := by
  cases c with
  | ld | lw | lwu | lh | lhu | lb | lbu =>
    cases h
    exact State.load_koloux hs _ _ _ _ _
  | st | sw | sh | sb =>
    cases h
    dsimp only [exec]
    exact State.store_koloux _ _ _ _
  | aadd | jr | jrl | waitslot | fetch | convset | emit | event | trigarm | tbread | ckpt =>
    cases h
    dsimp only [exec]
    exact ⟨_, rfl⟩
  | _ => cases h <;> (dsimp only [exec]; exact State.kolouxReg_koloux _)

/-- An instruction whose guard is false only moves the PC (R185). -/
theorem exec_guard_false (h : guardOf c = some (e, g)) (hi : Issues s e) (hg : (s.eng e).guardOk g = false) :
    Jumps c s e ((s.eng e).pc + 1) := by
  obtain ⟨body, hbody⟩ := exec_guarded (s := s) h (by rw [hg, Bool.and_false])
  exact ⟨_, hbody.trans (State.koloux_skipped hi hg), State.eng_setEng_self s _ _, .setEng s e _⟩

theorem exec_stopped (h : guardOf c = some (e, g)) (hs : (s.eng e).running = false ∨ (s.eng e).exc ≠ none) : exec c s = .next s := by
  have hstop := EngSt.issues_eq_false hs
  obtain ⟨body, hbody⟩ := exec_guarded (s := s) h (by rw [hstop, Bool.false_and])
  exact hbody.trans (State.koloux_stopped hstop)

theorem illegalInstruction_raises (hi : Issues s e) (hv : NoVec s e) : Raises (.illegalInstruction e) s e .illegal :=
  ⟨_, State.issue_raise (body := fun _ _ => .raise .illegal) hi hv rfl, State.eng_setEng_self s _ _, .setEng s e _⟩

end

/-- Settles O10: every guarded instruction goes through `koloux`, which judges the guard and the engine before the body. -/
theorem kolouxGuardAndStops : Obligations.KolouxGuardAndStops := by
  unfold Obligations.KolouxGuardAndStops
  exact ⟨fun _ _ _ _ => exec_guard_false, fun _ _ => illegalInstruction_raises, fun _ _ _ _ => exec_stopped⟩

end Sys2Proof.Machine

namespace Sys2Proof.Machine
open Sys2Proof

/-! ### The bytes of a number in memory (log entry 4) -/

theorem leBytes_getD (n v i : Nat) (h : i < n) : (leBytes n v).getD i 0 = BitVec.ofNat 8 (v / 256 ^ i) := by
  induction n generalizing v i with
  | zero => omega
  | succ n ih =>
    cases i with
    | zero => simp [leBytes]
    | succ i => rw [leBytes, List.getD_cons_succ, ih _ _ (Nat.lt_of_succ_lt_succ h), pow_succ', Nat.div_div_eq_div_mul]

/-- Byte i of a number stored most significant byte lowest. -/
theorem beBytes_getD (n v i : Nat) (h : i < n) : (beBytes n v).getD i 0 = BitVec.ofNat 8 (v / 256 ^ (n - 1 - i)) := by
  rw [← leBytes_getD n v (n - 1 - i) (by omega), beBytes, List.getD_eq_getElem?_getD, List.getD_eq_getElem?_getD,
    List.getElem?_reverse (by simpa [leBytes_length] using h), leBytes_length]

theorem Memory.get_write (m : List Host.Cell) (a n v b : Nat) :
    Memory.get (Memory.write m a n v) b = if a ≤ b ∧ b < a + n then BitVec.ofNat 8 (v / 256 ^ (n - 1 - (b - a))) else Memory.get m b := by
  rw [Memory.write, Memory.get_setBytes, beBytes_length]
  split
  · exact beBytes_getD n v _ (by omega)
  · rfl

/-! ### Stores (R162, R163, R193 to R195) -/

section
variable {c : Instr} {s : State} {e : Fin 16} {g : Guard} {rd ra : WReg} {off : BitVec 12} {n : Nat}

theorem State.localStore_overflow {en : EngSt} {a v : Nat} (h : 1024 ≤ (en.undo.filter (fun u => u.slot == en.slot)).length) :
    s.localStore e en a n v = .raise .undoOvf := if_pos h

/-- The engine after a store of n bytes into its local data memory (R162). -/
def EngSt.stored (en : EngSt) (a n v : Nat) : EngSt :=
  { en with
    undo := { slot := en.slot, addr := a / 8 * 8, old := Memory.word en.lmem (a / 8 * 8) } :: en.undo
    lmem := Memory.write en.lmem a n v }

theorem State.localStore_done {en : EngSt} {a v : Nat} (h : en.undo.length < 1024) :
    s.localStore e en a n v = .done s (en.stored a n v) := by
  have hslot : (en.undo.filter (fun u => u.slot == en.slot)).length ≤ en.undo.length := List.length_filter_le _ _
  rw [State.localStore, if_neg (by omega), if_neg (by omega)]
  rfl

theorem store_misaligned (hc : exec c s = s.store e g rd ra off n) (hi : IssuesIf s e g) (hv : NoVec s e)
    (ha : (s.eng e).address ra off n % n ≠ 0) : Raises c s e .align :=
  .of_body hc hi hv (by dsimp only; rw [s.access_misaligned ha])

theorem store_unmapped (hc : exec c s = s.store e g rd ra off n) (hi : IssuesIf s e g) (hv : NoVec s e)
    (ha : (s.eng e).address ra off n % n = 0) (hr : s.range ((s.eng e).address ra off n) n = none) : Raises c s e .addrRange :=
  .of_body hc hi hv (by dsimp only; rw [State.access_unmapped ha hr])

theorem store_local_overflow (hc : exec c s = s.store e g rd ra off n) (hi : IssuesIf s e g) (hv : NoVec s e)
    (hr : s.range ((s.eng e).address ra off n) n = some .lmem) (ha : (s.eng e).address ra off n % n = 0)
    (h : 1024 ≤ ((s.eng e).undo.filter (fun u => u.slot == (s.eng e).slot)).length) : Raises c s e .undoOvf :=
  .of_body hc hi hv (by
    dsimp only
    rw [State.access_mapped ha hr]
    exact State.localStore_overflow h)

/-- A store into local data memory acts at once, with the old word in the undo log (R162, R194). -/
theorem store_local (hc : exec c s = s.store e g rd ra off n) (hi : IssuesIf s e g)
    (hr : s.range ((s.eng e).address ra off n) n = some .lmem) (ha : (s.eng e).address ra off n % n = 0)
    (h : (s.eng e).undo.length < 1024) :
    Gives c s (fun t =>
      t.eng e = { (s.eng e).stored ((s.eng e).address ra off n) n (((s.eng e).rw rd).toNat % 2 ^ (8 * n)) with pc := (s.eng e).pc + 1 }
        ∧ OnlyEngine s t e) := by
  refine .of_done hc hi ?_ (Eq.refl (EngSt.stored (s.eng e) _ _ _).pc) ⟨State.eng_setEng_self s _ _, .setEng s e _⟩
  dsimp only
  rw [State.access_mapped ha hr]
  exact State.localStore_done h

theorem store_shared (hc : exec c s = s.store e g rd ra off n) (hi : IssuesIf s e g)
    (hr : s.range ((s.eng e).address ra off n) n = some .sram ∨ s.range ((s.eng e).address ra off n) n = some .dram)
    (ha : (s.eng e).address ra off n % n = 0) (hcb : CbFree s e) :
    Enters c s e (.store ((s.eng e).address ra off n) n (((s.eng e).rw rd).toNat % 2 ^ (8 * n))) :=
  .of_body hc hi (by
    dsimp only
    rcases hr with hr | hr <;> rw [State.access_mapped ha hr] <;> exact State.commitEntry_done hcb rfl rfl)

theorem store_hub_size (hc : exec c s = s.store e g rd ra off n) (hi : IssuesIf s e g) (hv : NoVec s e)
    (hr : s.range ((s.eng e).address ra off n) n = some .hub) (ha : (s.eng e).address ra off n % n = 0) (hn : n ≠ 8) :
    Raises c s e .hubregSize :=
  .of_body hc hi hv (by
    dsimp only
    rw [State.access_mapped ha hr]
    exact State.commitEntry_low (p := (true, .hubregSize)) (by simp [hn]))

theorem store_hub_scope (hc : exec c s = s.store e g rd ra off n) (hi : IssuesIf s e g) (hv : NoVec s e)
    (hr : s.range ((s.eng e).address ra off n) n = some .hub) (ha : (s.eng e).address ra off n % n = 0) (hn : n = 8)
    (h : storeScope (hubWord ((s.eng e).address ra off n)) = false) : Raises c s e .hubregScope := by
  subst hn
  refine .of_body hc hi hv ?_
  dsimp only
  rw [State.access_mapped ha hr]
  exact State.commitEntry_low (p := (true, .hubregScope)) (by simp [h])

theorem store_hub (hc : exec c s = s.store e g rd ra off n) (hi : IssuesIf s e g)
    (hr : s.range ((s.eng e).address ra off n) n = some .hub) (ha : (s.eng e).address ra off n % n = 0)
    (h : storeScope (hubWord ((s.eng e).address ra off n)) = true) (hn : n = 8) (hcb : CbFree s e) :
    Enters c s e (.store ((s.eng e).address ra off n) n (((s.eng e).rw rd).toNat % 2 ^ (8 * n))) := by
  subst hn
  refine .of_body hc hi ?_
  dsimp only
  rw [State.access_mapped ha hr]
  exact State.commitEntry_done hcb (by simp [h]) rfl

end

theorem exec_aadd (e : Fin 16) (g : Guard) (rd ra : WReg) (off : BitVec 12) (s : State) :
    exec (.aadd e g rd ra off) s = execAadd e g rd ra off s := rfl

/-- Settles O6: each width by what a store of n bytes does in each range, and AADD by the order of its tests. -/
theorem kolouxStores : Obligations.KolouxStores := by
  unfold Obligations.KolouxStores
  intro e g rd ra off s hi hv
  refine ⟨?st, ?sw, ?sh, ?sb, fun ha => ?align, fun ha hs hd => ?unshared, fun hr ha hcb => ?entry⟩
  case st | sw | sh | sb =>
    refine ⟨store_misaligned rfl hi hv, store_unmapped rfl hi hv, store_local_overflow rfl hi hv,
      fun hr ha h => (store_local rfl hi hr ha h).mono fun t ht => ?_, store_shared rfl hi, store_hub_size rfl hi hv, store_hub_scope rfl hi hv,
      store_hub rfl hi⟩
    obtain ⟨heng, honly⟩ := ht
    rw [heng]
    exact ⟨Memory.get_write _ _ _ _, rfl, rfl, rfl, honly⟩
  case align =>
    refine .of_body (exec_aadd e g rd ra off s) hi hv ?_
    exact State.commitEntry_low (p := (true, .align)) (by simp [ha])
  case unshared =>
    refine .of_body (exec_aadd e g rd ra off s) hi hv ?_
    refine State.commitEntry_low (p := (true, .addrRange)) ?_
    rcases hr : s.range ((s.eng e).address ra off 8) 8 with _ | _ | _ | _ | _ <;> simp_all
  case entry =>
    refine .of_body (exec_aadd e g rd ra off s) hi ?_
    refine State.commitEntry_done hcb ?_ rfl
    rcases hr with hr | hr <;> simp [ha, hr]

end Sys2Proof.Machine

namespace Sys2Proof.Machine
open Sys2Proof

/-! ### CONVSET, EMIT, EVENT and TRIGARM (R203 to R206) -/

theorem exec_convset (e : Fin 16) (g : Guard) (ra rb : WReg) (s : State) : exec (.convset e g ra rb) s = execConvset e g ra rb s := rfl

theorem exec_emit (e : Fin 16) (g : Guard) (ra rb : WReg) (n : Fin 4) (s : State) : exec (.emit e g ra rb n) s = execEmit e g ra rb n s := rfl

theorem exec_event (e : Fin 16) (g : Guard) (ra rb : WReg) (notify : Bool) (s : State) :
    exec (.event e g ra rb notify) s = execEvent e g ra rb notify s := rfl

theorem exec_trigarm (e : Fin 16) (g : Guard) (ra rb : WReg) (s : State) : exec (.trigarm e g ra rb) s = execTrigarm e g ra rb s := rfl

/-- A field of a word as a quotient and a remainder. -/
theorem bits_eq_div_mod (w : W64) (hi lo : Nat) : bits w hi lo = w.toNat / 2 ^ lo % 2 ^ (hi + 1 - lo) := by
  rw [bits, Nat.shiftRight_eq_div_pow]

theorem convsetBank_eq (w : W64) : bits w 36 32 = w.toNat / 2 ^ 32 % 32 := bits_eq_div_mod w 36 32

theorem upperHalf_eq (w : W64) : bits w 31 16 = w.toNat / 65536 % 65536 := bits_eq_div_mod w 31 16

theorem lowBits_eq (w : W64) (hi : Nat) : bits w hi 0 = w.toNat % 2 ^ (hi + 1) := by rw [bits_eq_div_mod, pow_zero, Nat.div_one, Nat.sub_zero]

theorem queueIx_eq (w : W64) : bits w 5 0 = w.toNat % 64 := lowBits_eq w 5

theorem wordChan_eq (w : W64) : wordChan w = w.toNat / 2 ^ 23 % 512 := bits_eq_div_mod w 31 23

/-- Bit 15 of a word by the number in its low half-word. -/
theorem bit_15_eq (w : W64) : bit w 15 = decide (0x8000 ≤ w.toNat % 65536) := by
  rw [bit, Nat.testBit_eq_decide_div_mod_eq, decide_eq_decide]
  omega

section
variable {e : Fin 16} {g : Guard} {ra rb : WReg} {n : Fin 4} {notify : Bool} {s : State}

theorem convset_bank (hi : IssuesIf s e g) (hv : NoVec s e) (hcb : CbFree s e) (h : 23 < ((s.eng e).rw ra).toNat / 2 ^ 32 % 32) :
    Raises (.convset e g ra rb) s e .convsetBank := by
  refine .of_body (exec_convset e g ra rb s) hi hv ?_
  refine State.commitEntry_high (p := (true, .convsetBank)) hcb ?_
  simp only [convsetBank_eq, List.find?_cons, decide_eq_true h]

theorem convset_target (hi : IssuesIf s e g) (hv : NoVec s e) (hcb : CbFree s e) (hbank : ((s.eng e).rw ra).toNat / 2 ^ 32 % 32 ≤ 23)
    (h : ¬ ((s.eng e).slot + 1 ≤ ((s.eng e).rw rb).toNat ∧ ((s.eng e).rw rb).toNat ≤ (s.eng e).slot + 8)) :
    Raises (.convset e g ra rb) s e .convsetTarget := by
  refine .of_body (exec_convset e g ra rb s) hi hv ?_
  refine State.commitEntry_high (p := (true, .convsetTarget)) hcb ?_
  simp only [convsetBank_eq, List.find?_cons, ← Bool.decide_and, decide_eq_false (Nat.not_lt_of_le hbank), decide_eq_false h, Bool.not_false]

theorem convset_enters (hi : IssuesIf s e g) (hcb : CbFree s e) (hbank : ((s.eng e).rw ra).toNat / 2 ^ 32 % 32 ≤ 23)
    (h : (s.eng e).slot + 1 ≤ ((s.eng e).rw rb).toNat ∧ ((s.eng e).rw rb).toNat ≤ (s.eng e).slot + 8) :
    Enters (.convset e g ra rb) s e (.convset (((s.eng e).rw ra).toNat / 2 ^ 32 % 32) (((s.eng e).rw ra).toNat % 65536)
      (((s.eng e).rw ra).toNat / 65536 % 65536) ((s.eng e).rw rb).toNat) := by
  refine .of_body (exec_convset e g ra rb s) hi ?_
  refine (State.commitEntry_done hcb rfl ?_).trans ?_
  · simp only [convsetBank_eq, List.find?_cons, ← Bool.decide_and, decide_eq_false (Nat.not_lt_of_le hbank), decide_eq_true h, Bool.not_true,
      List.find?_nil]
  · simp only [convsetBank_eq, upperHalf_eq, lowBits_eq]
    rfl

theorem emit_queue (hi : IssuesIf s e g) (hv : NoVec s e) (hcb : CbFree s e)
    (h : s.getF (Reg.QUE_CFG_PROD (((s.eng e).rw ra).toNat % 64)) ≠ s.logical e) : Raises (.emit e g ra rb n) s e .emitQueue := by
  refine .of_body (exec_emit e g ra rb n s) hi hv ?_
  refine State.commitEntry_high (p := (true, .emitQueue)) hcb ?_
  simp only [queueIx_eq, List.find?_cons, bne_iff_ne.mpr h]

theorem emit_regs (hi : IssuesIf s e g) (hv : NoVec s e) (hcb : CbFree s e)
    (hq : s.getF (Reg.QUE_CFG_PROD (((s.eng e).rw ra).toNat % 64)) = s.logical e) (h : 31 < rb.val + n.val) :
    Raises (.emit e g ra rb n) s e .emitRegs := by
  refine .of_body (exec_emit e g ra rb n s) hi hv ?_
  refine State.commitEntry_high (p := (true, .emitRegs)) hcb ?_
  simp only [queueIx_eq, List.find?_cons, bne_eq_false_iff_eq.mpr hq, decide_eq_true h]

theorem emit_chan (hi : IssuesIf s e g) (hv : NoVec s e) (hcb : CbFree s e)
    (hq : s.getF (Reg.QUE_CFG_PROD (((s.eng e).rw ra).toNat % 64)) = s.logical e) (hr : rb.val + n.val ≤ 31)
    (h : ∃ w ∈ (s.eng e).emitWords rb (n.val + 1), 391 < w.toNat / 2 ^ 23 % 512) : Raises (.emit e g ra rb n) s e .emitChan := by
  refine .of_body (exec_emit e g ra rb n s) hi hv ?_
  refine State.commitEntry_high (p := (true, .emitChan)) hcb ?_
  have hany : ((s.eng e).emitWords rb (n.val + 1)).any (fun w => decide (391 < wordChan w)) = true := by
    simpa only [List.any_eq_true, decide_eq_true_eq, wordChan_eq] using h
  simp only [queueIx_eq, List.find?_cons, bne_eq_false_iff_eq.mpr hq, decide_eq_false (Nat.not_lt_of_le hr), hany]

theorem emit_enters (hi : IssuesIf s e g) (hcb : CbFree s e)
    (hq : s.getF (Reg.QUE_CFG_PROD (((s.eng e).rw ra).toNat % 64)) = s.logical e) (hr : rb.val + n.val ≤ 31)
    (h : ∀ w ∈ (s.eng e).emitWords rb (n.val + 1), w.toNat / 2 ^ 23 % 512 ≤ 391) :
    Enters (.emit e g ra rb n) s e (.emit (((s.eng e).rw ra).toNat % 64) (((s.eng e).rw ra).getLsbD 8) (((s.eng e).rw ra).getLsbD 9)
      ((s.eng e).emitWords rb (n.val + 1))) := by
  refine .of_body (exec_emit e g ra rb n s) hi ?_
  have hany : ((s.eng e).emitWords rb (n.val + 1)).any (fun w => decide (391 < wordChan w)) = false := by
    simpa only [List.any_eq_false, decide_eq_true_eq, wordChan_eq, Nat.not_lt] using h
  refine (State.commitEntry_done hcb rfl ?_).trans ?_
  · simp only [queueIx_eq, List.find?_cons, bne_eq_false_iff_eq.mpr hq, decide_eq_false (Nat.not_lt_of_le hr), hany, List.find?_nil]
  · simp only [queueIx_eq]
    rfl

theorem event_code (hi : IssuesIf s e g) (hv : NoVec s e) (hcb : CbFree s e) (h : 0x8000 ≤ ((s.eng e).rw ra).toNat % 65536) :
    Raises (.event e g ra rb notify) s e .eventCode := by
  refine .of_body (exec_event e g ra rb notify s) hi hv ?_
  refine State.commitEntry_high (p := (true, .eventCode)) hcb ?_
  simp only [bit_15_eq, List.find?_cons, decide_eq_true h]

theorem event_enters (hi : IssuesIf s e g) (hcb : CbFree s e) (h : ((s.eng e).rw ra).toNat % 65536 < 0x8000) :
    Enters (.event e g ra rb notify) s e (.event (((s.eng e).rw ra).toNat % 65536) ((s.eng e).rw rb) notify) := by
  refine .of_body (exec_event e g ra rb notify s) hi ?_
  refine (State.commitEntry_done hcb rfl ?_).trans ?_
  · simp only [bit_15_eq, List.find?_cons, decide_eq_false (Nat.not_le_of_lt h), List.find?_nil]
  · simp only [lowBits_eq]
    rfl

theorem trigarm_enters (hi : IssuesIf s e g) (hcb : CbFree s e) :
    Enters (.trigarm e g ra rb) s e (.trigarm (((s.eng e).rw ra).toNat % 8) (((s.eng e).rw ra).getLsbD 8) ((s.eng e).rw rb).toNat) := by
  refine .of_body (exec_trigarm e g ra rb s) hi ?_
  refine (State.commitEntry_done hcb rfl rfl).trans ?_
  simp only [lowBits_eq]
  rfl

end

/-- Settles O9: the tests of each instruction in the order of their codes, and the entry where none holds. -/
theorem kolouxCommitEntries : Obligations.KolouxCommitEntries := by
  unfold Obligations.KolouxCommitEntries
  intro e g ra rb n notify s hi hv hcb
  exact ⟨convset_bank hi hv hcb, convset_target hi hv hcb, convset_enters hi hcb, emit_queue hi hv hcb, emit_regs hi hv hcb, emit_chan hi hv hcb,
    emit_enters hi hcb, event_code hi hv hcb, event_enters hi hcb, trigarm_enters hi hcb⟩

end Sys2Proof.Machine

namespace Sys2Proof.Machine
open Sys2Proof

/-! ### Loads (R159, R166, R193, R194, R196) -/

theorem extS_eq_signExtend {n : Nat} (hn : 0 < n) : extS n = fun v => (BitVec.ofNat n v).signExtend 64 := by
  funext v
  have h : signed n v = signed n (BitVec.ofNat n v).toNat := by simp only [signed, BitVec.toNat_ofNat, Nat.mod_mod]
  rw [extS, h, signed_toNat _ hn, BitVec.signExtend]

/-- What a load does once it is issued and the groups before it are applied. -/
def loadBody (e : Nat) (rd ra : WReg) (off : BitVec 12) (n : Nat) (ext : Nat → W64) (s : State) (en : EngSt) : KRes :=
  let a := en.address ra off n
  match s.access a n with
  | .error x => .raise x
  | .ok .lmem => .done s (en.setW rd (ext (Memory.read en.lmem a n)))
  | .ok .hub => if n = 8 then s.hubLoad en rd (hubWord a) else .raise .hubregSize
  | .ok _ => if s.poisoned a then .raise .loadPoison else .done s (en.setW rd (ext (s.sharedLoad e a n)))

section
variable {c : Instr} {s : State} {e : Fin 16} {g : Guard} {rd ra : WReg} {off : BitVec 12} {n : Nat} {ext : Nat → W64}

theorem State.load_issued (hi : IssuesIf s e g) :
    s.load e g rd ra off n ext = (s.beforeLoad ((s.eng e).address ra off n)).koloux e g (loadBody e rd ra off n ext) := by
  have hissued : ((s.eng e).issues && (s.eng e).guardOk g) = true := by rw [hi.1.issues, hi.2, Bool.true_and]
  unfold State.load
  rw [hissued]
  rfl

/-- A load after the groups that go before it is the load of the state that they leave (R166). -/
theorem load_after_groups (hc : ∀ t : State, exec c t = t.load e g rd ra off n ext) (hi : IssuesIf s e g)
    (hu : IssuesIf (s.beforeLoad ((s.eng e).address ra off n)) e g)
    (ha : ((s.beforeLoad ((s.eng e).address ra off n)).eng e).address ra off n = (s.eng e).address ra off n)
    (hfix : (s.beforeLoad ((s.eng e).address ra off n)).beforeLoad ((s.eng e).address ra off n) = s.beforeLoad ((s.eng e).address ra off n)) :
    exec c s = exec c (s.beforeLoad ((s.eng e).address ra off n)) := by
  rw [hc, hc, State.load_issued hi, State.load_issued hu, ha, hfix]

theorem load_here (hc : ∀ t : State, exec c t = t.load e g rd ra off n ext) (hi : IssuesIf s e g)
    (hu : s.beforeLoad ((s.eng e).address ra off n) = s) : exec c s = s.koloux e g (loadBody e rd ra off n ext) := by
  rw [hc, State.load_issued hi, hu]

/-- What a load of n bytes does that no group goes before, in the order of its tests (R193, R194, R196). -/
theorem load_outcomes {a : Nat} (hc : exec c s = s.koloux e g (loadBody e rd ra off n ext)) (hi : IssuesIf s e g) (hv : NoVec s e)
    (haddr : (s.eng e).address ra off n = a) :
    (a % n ≠ 0 → Raises c s e .align)
    ∧ (a % n = 0 → s.range a n = none → Raises c s e .addrRange)
    ∧ (s.range a n = some .lmem → a % n = 0 → WritesW c s e rd (ext (Memory.read (s.eng e).lmem a n)))
    ∧ (s.range a n = some .hub → a % n = 0 → n ≠ 8 → Raises c s e .hubregSize)
    ∧ (s.range a n = some .sram ∨ s.range a n = some .dram → a % n = 0 →
        (s.poisoned a = true → Raises c s e .loadPoison) ∧ (s.poisoned a = false → WritesW c s e rd (ext (s.sharedLoad e a n)))) := by
  refine ⟨fun ha => .of_body hc hi hv ?_, fun ha hr => .of_body hc hi hv ?_, fun hr ha => .of_body hc hi ?_,
    fun hr ha hn => .of_body hc hi hv ?_, fun hr ha => ⟨fun hp => .of_body hc hi hv ?_, fun hp => .of_body hc hi ?_⟩⟩
  all_goals simp only [loadBody, haddr]
  · rw [s.access_misaligned ha]
  · rw [State.access_unmapped ha hr]
  · rw [State.access_mapped ha hr]
  · rw [State.access_mapped ha hr]
    exact if_neg hn
  · rcases hr with hr | hr <;> rw [State.access_mapped ha hr] <;> exact if_pos hp
  · rcases hr with hr | hr <;> rw [State.access_mapped ha hr] <;> exact if_neg (Bool.not_eq_true _ ▸ hp)

theorem loadBody_hub {a : Nat} (haddr : (s.eng e).address ra off 8 = a) (hr : s.range a 8 = some .hub) (ha : a % 8 = 0) :
    loadBody e rd ra off 8 ext s (s.eng e) = s.hubLoad (s.eng e) rd (hubWord a) := by
  simp only [loadBody, haddr]
  rw [State.access_mapped ha hr]
  rfl

end

/-! ### Loads from the hub register window (R159, R163, R164, R458) -/

section
variable {s : State} {en : EngSt} {rd w : Nat}

theorem State.hubLoad_plain (harm : en.snapArmed = false) (hsnap : en.snap = []) (hw : w ≠ Reg.SYS_SNAP) (hrc : hasRc w = false)
    (hadv : readAdvances w = false) : s.hubLoad en rd w = .done (s.readWord progPort w).2 (en.setW rd (s.readWord progPort w).1) := by
  cases en
  cases harm
  cases hsnap
  simp [State.hubLoad, hw, hrc, hadv]

/-- A load of a window data word shows what the loads of the uncommitted program slots lead to, and stands with its own (R163; log entry
87). -/
theorem State.hubLoad_advancing (harm : en.snapArmed = false) (hsnap : en.snap = []) (hw : w ≠ Reg.SYS_SNAP) (hrc : hasRc w = false)
    (hadv : readAdvances w = true) : s.hubLoad en rd w
      = .done s ({ en with reads := en.reads ++ [(en.slot, w)] }.setW rd ((s.afterReads en.reads).view progPort w)) := by
  cases en
  cases harm
  cases hsnap
  simp [State.hubLoad, hw, hrc, hadv]

theorem State.settledSlot_eq_false (h : en.oldest ≠ en.slot ∨ s.clk.slot < en.slot) : s.settledSlot en = false := by
  rcases h with h | h
  · rw [State.settledSlot, beq_eq_false_iff_ne.mpr h, Bool.false_and]
  · rw [State.settledSlot, State.now, decide_eq_false (Nat.not_le_of_lt h), Bool.and_false]

theorem State.hubLoad_waits (hsnap : en.snap = []) (hw : w = Reg.SYS_SNAP ∨ hasRc w = true)
    (h : en.oldest ≠ en.slot ∨ s.clk.slot < en.slot) : s.hubLoad en rd w = .stall s := by
  have hheld : (hasRc w || w == Reg.SYS_SNAP) = true := by rcases hw with hw | hw <;> simp [hw]
  simp [State.hubLoad, hsnap, hheld, State.settledSlot_eq_false h]

theorem State.hubLoad_snap (hsnap : en.snap = []) (hold : en.oldest = en.slot) (hslot : en.slot ≤ s.clk.slot) :
    s.hubLoad en rd Reg.SYS_SNAP = .done s ({ en with snapArmed := true, snap := [] }.setW rd (BitVec.ofNat 64 s.clk.slot)) := by
  have hsettled : s.settledSlot en = true := by simp [State.settledSlot, hold, State.now, hslot]
  simp [State.hubLoad, hsnap, hsettled, State.now]

end

/-- The register that an instruction wrote, after its PC moved on. -/
theorem EngSt.rw_written (en : EngSt) {rd : WReg} (v : W64) (pc : Nat) (hrd : rd.val ≠ 0) : EngSt.rw { en.setW rd v with pc := pc } rd = v :=
  (en.rw_setW rd rd v).trans (if_pos ⟨rfl, hrd⟩)

section
variable {s : State} {e : Fin 16} {g : Guard} {rd ra : WReg} {off : BitVec 12} {w : Nat}

theorem ld_hub_plain (hc : exec (.ld e g rd ra off) s = s.koloux e g (loadBody e rd ra off 8 extU)) (hi : IssuesIf s e g) (hrd : rd.val ≠ 0)
    (hbody : loadBody e rd ra off 8 extU s (s.eng e) = s.hubLoad (s.eng e) rd w) (harm : (s.eng e).snapArmed = false) (hsnap : (s.eng e).snap = [])
    (hw : w ≠ Reg.SYS_SNAP) (hrc : hasRc w = false) (hadv : readAdvances w = false) :
    Gives (.ld e g rd ra off) s (fun t =>
      (t.eng e).rw rd = (s.readWord progPort w).1 ∧ (t.eng e).pc = (s.eng e).pc + 1
      ∧ { t with engs := s.engs } = { (s.readWord progPort w).2 with engs := s.engs }) := by
  refine .of_done hc hi (hbody.trans (State.hubLoad_plain harm hsnap hw hrc hadv)) (EngSt.setW_pc _ _ _) ?_
  rw [State.eng_setEng_self]
  exact ⟨EngSt.rw_written _ _ _ hrd, rfl, rfl⟩

theorem ld_hub_advancing (hc : exec (.ld e g rd ra off) s = s.koloux e g (loadBody e rd ra off 8 extU)) (hi : IssuesIf s e g) (hrd : rd.val ≠ 0)
    (hbody : loadBody e rd ra off 8 extU s (s.eng e) = s.hubLoad (s.eng e) rd w) (harm : (s.eng e).snapArmed = false) (hsnap : (s.eng e).snap = [])
    (hw : w ≠ Reg.SYS_SNAP) (hrc : hasRc w = false) (hadv : readAdvances w = true) :
    Gives (.ld e g rd ra off) s (fun t =>
      (t.eng e).rw rd = (s.afterReads (s.eng e).reads).view progPort w ∧ (t.eng e).pc = (s.eng e).pc + 1
      ∧ (t.eng e).reads = (s.eng e).reads ++ [((s.eng e).slot, w)] ∧ { t with engs := s.engs } = s) := by
  refine .of_done hc hi (hbody.trans (State.hubLoad_advancing harm hsnap hw hrc hadv)) (EngSt.setW_pc _ _ _) ?_
  rw [State.eng_setEng_self]
  exact ⟨EngSt.rw_written _ _ _ hrd, rfl, EngSt.setW_reads _ _ _, rfl⟩

theorem ld_hub_snap (hc : exec (.ld e g rd ra off) s = s.koloux e g (loadBody e rd ra off 8 extU)) (hi : IssuesIf s e g) (hrd : rd.val ≠ 0)
    (hbody : loadBody e rd ra off 8 extU s (s.eng e) = s.hubLoad (s.eng e) rd w) (hsnap : (s.eng e).snap = [])
    (hw : w = Reg.SYS_SNAP) (hold : (s.eng e).oldest = (s.eng e).slot) (hslot : (s.eng e).slot ≤ s.clk.slot) :
    Gives (.ld e g rd ra off) s (fun t =>
      (t.eng e).rw rd = BitVec.ofNat 64 s.clk.slot ∧ (t.eng e).snapArmed = true ∧ (t.eng e).pc = (s.eng e).pc + 1
      ∧ { t with engs := s.engs } = s) := by
  subst hw
  refine .of_done hc hi (hbody.trans (State.hubLoad_snap hsnap hold hslot)) (EngSt.setW_pc _ _ _) ?_
  rw [State.eng_setEng_self]
  exact ⟨EngSt.rw_written _ _ _ hrd, EngSt.setW_snapArmed _ _ _, rfl, rfl⟩

end

theorem exec_lw (e : Fin 16) (g : Guard) (rd ra : WReg) (off : BitVec 12) (s : State) :
    exec (.lw e g rd ra off) s = s.load e g rd ra off 4 (fun v => (BitVec.ofNat 32 v).signExtend 64) := by
  rw [← extS_eq_signExtend (by decide)]
  rfl

theorem exec_lh (e : Fin 16) (g : Guard) (rd ra : WReg) (off : BitVec 12) (s : State) :
    exec (.lh e g rd ra off) s = s.load e g rd ra off 2 (fun v => (BitVec.ofNat 16 v).signExtend 64) := by
  rw [← extS_eq_signExtend (by decide)]
  rfl

theorem exec_lb (e : Fin 16) (g : Guard) (rd ra : WReg) (off : BitVec 12) (s : State) :
    exec (.lb e g rd ra off) s = s.load e g rd ra off 1 (fun v => (BitVec.ofNat 8 v).signExtend 64) := by
  rw [← extS_eq_signExtend (by decide)]
  rfl

section
variable {c : Instr} {s : State} {e : Fin 16} {g : Guard} {rd ra : WReg} {off : BitVec 12} {n : Nat} {ext : Nat → W64}

/-- A load: after the groups that go before it, and by its tests where there are none. -/
theorem load_clauses (hc : ∀ t : State, exec c t = t.load e g rd ra off n ext) (hi : IssuesIf s e g) (hv : NoVec s e) :
    let a := (s.eng e).address ra off n
    let u := s.beforeLoad a
    (IssuesIf u e g → (u.eng e).address ra off n = a → u.beforeLoad a = u → exec c s = exec c u)
    ∧ (u = s →
      (a % n ≠ 0 → Raises c s e .align)
      ∧ (a % n = 0 → s.range a n = none → Raises c s e .addrRange)
      ∧ (s.range a n = some .lmem → a % n = 0 → WritesW c s e rd (ext (Memory.read (s.eng e).lmem a n)))
      ∧ (s.range a n = some .hub → a % n = 0 → n ≠ 8 → Raises c s e .hubregSize)
      ∧ (s.range a n = some .sram ∨ s.range a n = some .dram → a % n = 0 →
          (s.poisoned a = true → Raises c s e .loadPoison) ∧ (s.poisoned a = false → WritesW c s e rd (ext (s.sharedLoad e a n))))) :=
  ⟨load_after_groups hc hi, fun hu => load_outcomes (load_here hc hi hu) hi hv rfl⟩

end

/-- Settles O5: every width by its tests, and LD from the hub register window by the kind of its word. -/
theorem kolouxLoads : Obligations.KolouxLoads := by
  unfold Obligations.KolouxLoads
  intro e g rd ra off s hi hv
  have hlw := load_clauses (exec_lw e g rd ra off) hi hv
  have hlh := load_clauses (exec_lh e g rd ra off) hi hv
  have hlb := load_clauses (exec_lb e g rd ra off) hi hv
  refine ⟨load_clauses (fun _ => rfl) hi hv, hlw, load_clauses (fun _ => rfl) hi hv, hlh, load_clauses (fun _ => rfl) hi hv, hlb,
    load_clauses (fun _ => rfl) hi hv, fun hr ha hrd harm hsnap hu => ?hub⟩
  case hub =>
    have hc : exec (.ld e g rd ra off) s = s.koloux e g (loadBody e rd ra off 8 extU) := load_here (fun _ => rfl) hi hu
    have hbody := loadBody_hub (rd := rd) (ext := extU) rfl hr ha
    exact ⟨ld_hub_plain hc hi hrd hbody harm hsnap, ld_hub_advancing hc hi hrd hbody harm hsnap,
      fun hw h => exec_stalls hc hi (hbody.trans (State.hubLoad_waits hsnap hw h)), ld_hub_snap hc hi hrd hbody hsnap⟩

end Sys2Proof.Machine

namespace Sys2Proof.Machine
open Sys2Proof

/-! ### Squashes (R168 to R173, R211) -/

section
variable {s : State} {e : Nat}

theorem State.countCauses_engs (s : State) (l : Nat) (cs : List HeldCause) : (s.countCauses l cs).engs = s.engs := by
  unfold State.countCauses
  induction cs generalizing s with
  | nil => rfl
  | cons c cs ih =>
    rw [List.foldl_cons, ih]
    split <;> rfl

theorem State.loseTo_engs (s : State) (e : Nat) (c : HeldCause) (redirs : List HeldCause) : (s.loseTo e c redirs).engs = s.engs := by
  unfold State.loseTo
  extract_lets en l s1
  split <;> rfl

theorem State.unswitch_engs (s : State) (l q : Nat) : (s.unswitch l q).engs = s.engs := by
  unfold State.unswitch
  split <;> rfl

theorem State.eng_of_engs {s t : State} (h : t.engs = s.engs) (e : Nat) : t.eng e = s.eng e := by rw [State.eng, h, State.eng]

theorem State.eng_setEng_of_engs {s t : State} (h : t.engs = s.engs) (e : Nat) (x : EngSt) (f : Nat) :
    (t.setEng e x).eng f = if f = e then x else s.eng f := by
  split
  case isTrue hf => rw [hf, State.eng_setEng_self]
  case isFalse hf => rw [State.eng_setEng_ne _ _ hf, State.eng_of_engs h]

/-- The engines after a squash (R169). -/
theorem State.eng_squashTo (s : State) (e q : Nat) (pc : Option Nat) (cause : W64) (f : Nat) :
    (s.squashTo e q pc cause).eng f = if f = e then (s.eng e).squash q pc cause else s.eng f :=
  (State.eng_of_engs (State.unswitch_engs _ _ _) f).trans (State.eng_setEng_of_engs rfl e _ f)

end

/-- A squash restores the checkpoint it returns to (R169). -/
theorem EngSt.squash_of_find {en : EngSt} {q : Nat} {k : Checkpoint} (hk : en.ckpts.find? (fun c => c.slot == q) = some k)
    (pc : Option Nat) (cause : W64) : en.squash q pc cause = { en with
      lmem := undoBack en.lmem (en.undo.filter (fun u => decide (q ≤ u.slot)))
      undo := en.undo.filter (fun u => decide (u.slot < q))
      cb := en.cb.filter (fun i => decide (i.slot < q)), reads := en.reads.filter (fun x => decide (x.1 < q))
      ckpts := en.ckpts.filter (fun k => decide (k.slot ≤ q))
      w := k.w, p := k.p, a := k.a, slot := q, pc := pc.getD k.pc, ecause := cause, sq := true, exc := none
      vecSlot := (en.squash q pc cause).vecSlot, snapArmed := false, snap := [] } := by
  unfold EngSt.squash
  rw [hk]

/-- Engine e of t is back at checkpoint k of s and resumes at pc: its registers are restored, the cause stands in ECAUSE, no other cause is
left, the commit-buffer and undo-log entries from the checkpoint's slot on are gone, and the other engines are as they were (R169). -/
def BackAt (s t : State) (e : Nat) (k : Checkpoint) (pc : Nat) (cause : W64) : Prop :=
  (t.eng e).w = k.w ∧ (t.eng e).p = k.p ∧ (t.eng e).a = k.a ∧ (t.eng e).slot = k.slot ∧ (t.eng e).pc = pc
    ∧ (t.eng e).sq = true ∧ (t.eng e).ecause = cause ∧ (t.eng e).exc = none ∧ (t.eng e).held = [] ∧ (t.eng e).redirs = []
    ∧ (∀ i ∈ (t.eng e).cb, i.slot < k.slot) ∧ (∀ u ∈ (t.eng e).undo, u.slot < k.slot) ∧ (∀ f, f ≠ e → t.eng f = s.eng f)

theorem BackAt.of_squash {s t : State} {e q : Nat} {en : EngSt} {k : Checkpoint} {pc : Option Nat} {cause : W64} (v : Option Nat)
    (hk : en.ckpts.find? (fun c => c.slot == q) = some k) (hheld : en.held = []) (hredirs : en.redirs = [])
    (ht : t.eng e = { en.squash q pc cause with vecSlot := v }) (ho : ∀ f, f ≠ e → t.eng f = s.eng f) :
    BackAt s t e k (pc.getD k.pc) cause := by
  have hq : k.slot = q := by simpa using List.find?_some hk
  rw [EngSt.squash_of_find hk] at ht
  unfold BackAt
  rw [ht, hq]
  refine ⟨rfl, rfl, rfl, rfl, rfl, rfl, rfl, rfl, hheld, hredirs, fun i hi => ?_, fun u hu => ?_, ho⟩
  · exact of_decide_eq_true (List.mem_filter.mp hi).2
  · exact of_decide_eq_true (List.mem_filter.mp hu).2

/-- An engine without further causes, squashed where no other engine changed. -/
theorem BackAt.squashTo {s t : State} {e q : Nat} {en : EngSt} {k : Checkpoint} (pc : Option Nat) (cause : W64) (ht : t.engs = s.engs)
    (hk : en.ckpts.find? (fun c => c.slot == q) = some k) (hheld : en.held = []) (hredirs : en.redirs = []) :
    BackAt s ((t.setEng e en).squashTo e q pc cause) e k (pc.getD k.pc) cause := by
  refine .of_squash (en.squash q pc cause).vecSlot hk hheld hredirs ?_ fun f hf => ?_
  · rw [State.eng_squashTo, if_pos rfl, State.eng_setEng_self]
  · rw [State.eng_squashTo, if_neg hf, State.eng_setEng_of_engs ht, if_neg hf]

/-! ### The cause that an engine carries out -/

section
variable {s : State} {e : Fin 16} {c : HeldCause}

theorem EngSt.firstCause_single (en : EngSt) (c : HeldCause) : en.firstCause [c] = some c := rfl

/-- A range misprediction or mode change that an engine holds alone is carried out (R171, R173). -/
theorem execSquash_single (htake : s.arb.takeovers = []) (hrun : (s.eng e).running = true) (hheld : (s.eng e).held = [c])
    (hredirs : (s.eng e).redirs = [])
    (hsq : ((c.kind != 1 || s.effFlag (Reg.ENG_CTL_RMSQ (s.logical e))) && (s.eng e).reached c) = true) :
    ∃ t : State, t.engs = s.engs ∧ exec (.squash e) s
      = .next ((t.setEng e { s.eng e with held := [] }).squashTo e ((s.eng e).causeRank c).1 none c.ecause) := by
  refine ⟨(s.countCauses (s.logical e) ([c].filter (fun k => k.kind == 1 || (s.eng e).reached k))).loseTo e c [],
    (State.loseTo_engs _ _ _ _).trans (State.countCauses_engs _ _ _), ?_⟩
  change execSquash e s = _
  have hone : [c].filter (fun c => (c.kind != 1 || s.effFlag (Reg.ENG_CTL_RMSQ (s.logical e))) && (s.eng e).reached c) = [c] := by
    rw [List.filter_cons, if_pos hsq, List.filter_nil]
  have hgone : (if c.arr = 0 then [c] else [c]) = [c] := ite_self _
  have hleft : [c].filter (fun k => !([c].contains k)) = [] := by simp
  simp only [execSquash, htake, hrun, hheld, hredirs, hone, hgone, hleft, EngSt.firstCause_single, EngSt.dueRedirect, List.any_nil, List.filter_nil,
    EngSt.firstCause, Bool.not_true, Bool.false_eq_true, if_false]

theorem EngSt.causeRank_range (en : EngSt) (h : c.kind = 1) : (en.causeRank c).1 = en.oldest := by
  rw [EngSt.causeRank, if_pos h]

theorem EngSt.causeRank_named {en : EngSt} (h : c.kind ≠ 1) (hslot : en.oldest ≤ c.slot) : (en.causeRank c).1 = c.slot := by
  rw [EngSt.causeRank, if_neg h]
  exact Nat.max_eq_left hslot

theorem EngSt.reached_iff (en : EngSt) : en.reached c = true ↔ (en.causeRank c).1 ≤ en.slot := decide_eq_true_iff

/-- With RMSQ = 0 a misprediction is reported and nothing is squashed (R171, R183). -/
theorem execSquash_reported (htake : s.arb.takeovers = []) (hrun : (s.eng e).running = true) (hheld : (s.eng e).held = [c])
    (hkind : c.kind = 1) (hrm : s.effFlag (Reg.ENG_CTL_RMSQ (s.logical e)) = false) :
    Gives (.squash e) s (fun t => t.eng e = { s.eng e with held := [], ecause := c.ecause }) := by
  refine ⟨_, ?_, State.eng_setEng_self (s.countCauses (s.logical e) [c]) e _⟩
  change execSquash e s = _
  have hnone : [c].filter (fun c => (c.kind != 1 || s.effFlag (Reg.ENG_CTL_RMSQ (s.logical e))) && (s.eng e).reached c) = [] := by
    simp [hkind, hrm]
  have hone : [c].filter (fun c => c.kind == 1) = [c] := by simp [hkind]
  simp only [execSquash, htake, hrun, hheld, hnone, hone, EngSt.firstCause, List.any_nil, List.getLast?_singleton, Bool.not_true,
    Bool.false_eq_true, if_false]

/-- A redirect whose slot has begun, alone, is carried out (R172). -/
theorem execRedirect_single (hrun : (s.eng e).running = true) (hredirs : (s.eng e).redirs = [c]) (hheld : (s.eng e).held = [])
    (hreached : (s.eng e).reached c = true) :
    ∃ t : State, t.engs = s.engs ∧ exec (.redirect e) s
      = .next (((t.setEng e { s.eng e with held := [], redirs := [] }).squashTo e ((s.eng e).causeRank c).1
          (some (s.effF (Reg.ENG_REDIR_VEC (s.logical e)))) c.ecause).bump (Reg.ENG_SQ_REDIR (s.logical e))) := by
  refine ⟨(s.countCauses (s.logical e) []).loseTo e c [], State.loseTo_engs _ _ _ _, ?_⟩
  change execRedirect e s = _
  have hone : [c].filter (fun c => (s.eng e).reached c) = [c] := by rw [List.filter_cons, if_pos hreached, List.filter_nil]
  have hlost : c.rivals [] = [] := ite_self _
  simp only [execRedirect, EngSt.dueRedirect, hrun, hredirs, hheld, hone, hlost, EngSt.firstCause_single, EngSt.firstCause, List.filter_nil,
    List.erase_cons_head, Bool.false_eq_true, if_true, if_false]

/-- The exception of the oldest program slot is entered when no other cause is due (R174, R211). -/
theorem execExceptionEntry_due {w : W64} (hrun : (s.eng e).running = true) (hexc : (s.eng e).exc = some w) (hheld : (s.eng e).held = [])
    (hredirs : (s.eng e).redirs = []) (hold : (s.eng e).oldest = (s.eng e).slot) :
    exec (.exceptionEntry e) s
      = .next (((s.squashTo e (s.eng e).slot (some 4) w).setEng e
          { (s.squashTo e (s.eng e).slot (some 4) w).eng e with vecSlot := some (s.eng e).slot }).bump (Reg.ENG_SQ_EXC (s.logical e))) := by
  change execExceptionEntry e s = _
  simp [execExceptionEntry, EngSt.dueRedirect, hexc, hrun, hheld, hredirs, hold, EngSt.firstCause]

theorem execExceptionEntry_waits {w : W64} (hexc : (s.eng e).exc = some w) (hold : (s.eng e).oldest < (s.eng e).slot) :
    exec (.exceptionEntry e) s = .next s := by
  change execExceptionEntry e s = _
  simp [execExceptionEntry, hexc, Nat.ne_of_lt hold]

end

/-- Settles O12: the only cause of an engine is carried out, and the checkpoint it returns to is restored. -/
theorem engineSquashes : Obligations.EngineSquashes := by
  unfold Obligations.EngineSquashes
  intro e s en l back htake hrun
  have hsquash : ∀ (c : HeldCause) (k : Checkpoint), en.held = [c] → en.redirs = [] →
      (c.kind != 1 || s.effFlag (Reg.ENG_CTL_RMSQ l)) = true → (en.causeRank c).1 ≤ en.slot →
      en.ckpts.find? (fun q => q.slot == (en.causeRank c).1) = some k →
      Gives (.squash e) s (fun t => BackAt s t e k k.pc c.ecause) := by
    intro c k hheld hredirs hsq hreached hk
    obtain ⟨t, ht, hexec⟩ := execSquash_single htake hrun hheld hredirs (by rw [hsq, (EngSt.reached_iff _).mpr hreached, Bool.true_and])
    exact ⟨_, hexec, BackAt.squashTo none c.ecause ht hk rfl hredirs⟩
  refine ⟨fun c k hheld hredirs hkind hrm hold hk => ?range, fun c k hheld hredirs hkind hold hslot hk => ?mode,
    fun c hheld hkind hrm => ?reported, fun r k hredirs hheld hkind hold hslot hk => ?redirect,
    fun w k hexc hheld hredirs hold hk => ?exception, fun w => execExceptionEntry_waits⟩
  case range =>
    have hrank := en.causeRank_range hkind
    have hback := hsquash c k hheld hredirs (by rw [hrm, Bool.or_true]) (hrank ▸ hold) (hrank ▸ hk)
    rwa [HeldCause.ecause, hkind] at hback
  case mode =>
    have hne : c.kind ≠ 1 := by omega
    have hrank := EngSt.causeRank_named (en := en) hne hold
    have hback := hsquash c k hheld hredirs (by rw [bne_iff_ne.mpr hne, Bool.true_or]) (hrank ▸ hslot) (hrank ▸ hk)
    rwa [HeldCause.ecause, hkind] at hback
  case reported =>
    have hreport := execSquash_reported htake hrun hheld hkind hrm
    rwa [HeldCause.ecause, hkind] at hreport
  case redirect =>
    have hrank := EngSt.causeRank_named (en := en) (c := r) (by omega) hold
    obtain ⟨t, ht, hexec⟩ := execRedirect_single hrun hredirs hheld ((EngSt.reached_iff _).mpr (hrank ▸ hslot))
    rw [HeldCause.ecause, hkind, hrank] at hexec
    exact ⟨_, hexec, BackAt.squashTo (some _) _ ht hk rfl rfl⟩
  case exception =>
    have heng := State.eng_squashTo s e en.slot (some 4) w
    refine ⟨_, execExceptionEntry_due hrun hexc hheld hredirs hold,
      BackAt.of_squash (pc := some 4) (some en.slot) hk hheld hredirs ?_ fun f hf => ?_, congrArg EngSt.vecSlot (State.eng_setEng_self _ _ _)⟩
    · exact (State.eng_setEng_self _ _ _).trans (by rw [heng, if_pos rfl])
    · exact (State.eng_setEng_ne _ _ hf).trans (by rw [heng, if_neg hf])

end Sys2Proof.Machine

namespace Sys2Proof.Machine
open Sys2Proof

/-! ### Engine faults, takeovers and lateness (R176 to R179) -/

theorem State.flag_of_getF {s : State} {f : Fld} (h : s.getF f = 0) : s.flag f = false := by rw [State.flag, h]; rfl

theorem evtReg_engStat (e : Nat) : evtReg (Reg.ENG_STAT e) = false := evtReg_of_ge (by simp only [Reg.ENG_STAT]; omega)

theorem State.logSlot_setF_engStat (s : State) (l : Nat) {f : Fld} (hf : f.addr = Reg.ENG_STAT l) (v : Nat) : (s.setF f v).logSlot = s.logSlot := by
  refine s.logSlot_setF_of_four f v ?_ fun k hk => ?_
  · simp only [hf, Reg.TIME_CFG_SAMPLE_TB, Reg.TIME_CFG, Reg.ENG_STAT]
    omega
  · simp only [hf, Reg.TB_STAT_STATE, Reg.TB_STAT, Reg.ENG_STAT]
    omega

theorem State.unswitch_arb (s : State) (l q : Nat) : (s.unswitch l q).arb = s.arb := by
  unfold State.unswitch
  split <;> rfl

/-- An engine stopped and marked as faulted, its unfinished work discarded (R176). -/
def State.halted (s : State) (e : Nat) : State :=
  ((s.setEng e (s.eng e).halt).unswitch (s.logical e) (s.eng e).oldest).setF (Reg.ENG_STAT_FAULTED e) 1

/-- The hub once an engine is stopped and its fault logged; one that worked for another is noted as a spare that faulted (R176, R178). -/
def State.engFaulted (s : State) (e : Nat) (c : Cond) : State :=
  (if e = s.logical e then s.halted e
    else { s.halted e with
      arb := { (s.halted e).arb with lastTake := (s.halted e).arb.lastTake.set (fun _ => 0) (s.logical e) (s.now + 1) } }).log c (s.logical e) []

section
variable {s : State} {e : Nat} {c : Cond}

theorem State.halted_engs : (s.halted e).engs = (s.setEng e (s.eng e).halt).engs := State.unswitch_engs _ _ _

theorem State.halted_marked : (s.halted e).getF (Reg.ENG_STAT_FAULTED e) = 1 :=
  State.getF_setF_self _ (Reg.ENG_STAT_FAULTED e) 1 (by decide : 2 < 64)

theorem State.halted_arb : (s.halted e).arb = s.arb := State.unswitch_arb (s.setEng e (s.eng e).halt) _ _

theorem State.engFaulted_engs : (s.engFaulted e c).engs = (s.setEng e (s.eng e).halt).engs := by
  refine (State.log_engs _ _ _ _).trans (Eq.trans ?_ State.halted_engs)
  split <;> rfl

theorem State.engFaulted_marked : (s.engFaulted e c).getF (Reg.ENG_STAT_FAULTED e) = 1 := by
  refine (State.getF_log _ _ _ _ (Reg.ENG_STAT_FAULTED e) (evtReg_engStat e)).trans (Eq.trans ?_ (State.halted_marked (s := s) (e := e)))
  split <;> rfl

theorem State.engFaulted_takeovers : (s.engFaulted e c).arb.takeovers = s.arb.takeovers := by
  refine (congrArg ArbSt.takeovers (State.log_arb _ _ _ _)).trans (Eq.trans ?_ (congrArg ArbSt.takeovers (State.halted_arb (e := e))))
  split <;> rfl

/-- The work of a faulted engine that a free spare covers waits for the spare (R176). -/
theorem State.engFault_covered (hspare : s.faultedOnSpare (s.logical e) = false) (hfree : s.openTakeovers.length < s.freeSpares.length) :
    s.engFault e c = { s.engFaulted e c with arb := { (s.engFaulted e c).arb with
      takeovers := (s.engFaulted e c).arb.takeovers
        ++ [{ eng := s.logical e, phys := e, spare := none, detect := s.clk.slot, q := (s.eng e).oldest }] } } :=
  if_neg (by simp [hspare, hfree])

/-- A covered fault: the engine stops, is marked, and its oldest uncommitted slot waits for a spare (R176). -/
theorem State.engFault_stops (hspare : s.faultedOnSpare (s.logical e) = false) (hfree : s.openTakeovers.length < s.freeSpares.length) :
    ((s.engFault e c).eng e).running = false ∧ (s.engFault e c).getF (Reg.ENG_STAT_FAULTED e) = 1
      ∧ (s.engFault e c).arb.takeovers
        = s.arb.takeovers ++ [{ eng := s.logical e, phys := e, spare := none, detect := s.clk.slot, q := (s.eng e).oldest }] := by
  rw [State.engFault_covered hspare hfree]
  exact ⟨congrArg EngSt.running ((State.eng_of_engs State.engFaulted_engs e).trans (State.eng_setEng_self s e _)), State.engFaulted_marked,
    congrArg (· ++ _) State.engFaulted_takeovers⟩

end

section
variable {s : State} {e : Fin 16}

theorem exec_engFault_running (cause : EngFaultCause) (hfault : s.getF (Reg.ENG_STAT_FAULTED e) = 0) (hrun : (s.eng e).running = true) :
    exec (.engFault e cause) s = .next (s.engFault e .ENG_FAULT) := by
  change execEngFault e cause s = _
  cases cause <;> simp only [execEngFault, State.flag_of_getF hfault, hrun, Bool.false_eq_true, if_false, true_or, if_true]

theorem exec_engWatchdog_due (hrun : (s.eng e).running = true)
    (hdue : (s.eng e).lastCommit + s.getF (Reg.ENG_CTL_WDOG (s.logical e)) * 256 < s.clk.slot) :
    exec (.engWatchdog e) s = .next (s.engFault e .ENG_WATCHDOG) :=
  if_pos (by simp [hrun, State.now, hdue])

theorem exec_engWatchdog_early (h : s.clk.slot ≤ (s.eng e).lastCommit + s.getF (Reg.ENG_CTL_WDOG (s.logical e)) * 256) :
    exec (.engWatchdog e) s = .next s :=
  if_neg (by rw [State.now, decide_eq_false (Nat.not_lt_of_le h), Bool.and_false]; exact Bool.false_ne_true)

theorem State.setTakeover_single {k : Takeover} (h : s.arb.takeovers = [k]) (x : Option Takeover) :
    (s.setTakeover k.eng x).arb.takeovers = x.toList := by
  simp only [State.setTakeover, h, List.filterMap_cons, if_true, List.filterMap_nil]
  cases x <;> rfl

/-- The lowest free spare is chosen from the slot after detection on (R176). -/
theorem spareTakeover_chooses {k : Takeover} {sp : Nat} {more : List Nat} (htake : s.arb.takeovers = [k]) (heng : k.eng = e)
    (hspare : k.spare = none) (hdetect : k.detect < s.clk.slot) (hfree : s.freeSpares = sp :: more) :
    exec (.spareTakeover e) s
      = .next ((s.setTakeover e (some { k with spare := some sp })).setEng sp { s.eng sp with used := true }) := by
  change execSpareTakeover e s = _
  simp [execSpareTakeover, htake, heng, hspare, State.now, Nat.not_le_of_lt hdetect, hfree]

/-- A complete copy: ENG_MAP names the spare, which goes on where the faulted engine's checkpoint q stands, and the faulted engine's work is
dropped (R176, R177). -/
def State.resumedOn (s : State) (e : Nat) (k : Takeover) (sp : Nat) : State :=
  (((s.setTakeover e none).setEng sp ((s.eng k.phys).takeover k.q s.now)).setF (Reg.ENG_MAP_HOST e) sp).setEng k.phys
    { s.eng k.phys with held := [], redirs := [], ckpts := [], undo := [], cb := [] }

theorem spareResume_resumes {k : Takeover} {sp : Nat} (htake : s.arb.takeovers = [k]) (heng : k.eng = e) (hspare : k.spare = some sp)
    (hdetect : k.detect + 1 < s.clk.slot) : ∃ x, exec (.spareResume e false) s = .next { s.resumedOn e k sp with upd := x } := by
  have hcopied : ¬ (s.now ≤ k.detect ∨ (s.now = k.detect + 1 ∧ s.clk.tick < 8320)) := by
    have hnow : k.detect + 1 < s.now := hdetect
    omega
  have hfind : s.arb.takeovers.find? (fun j => j.eng == e.val) = some k := by simp [htake, heng]
  change ∃ x, execSpareResume e false s = _
  unfold execSpareResume
  rw [hfind]
  by_cases hswitch : k.q < s.upd.switches.get (fun _ => 0) e ∧ s.upd.switches.get (fun _ => 0) e ≤ s.now
  · exact ⟨_, by simp only [hspare, if_neg hcopied, if_pos hswitch, Bool.false_eq_true, if_false]; rfl⟩
  · exact ⟨_, by simp only [hspare, if_neg hcopied, if_neg hswitch, Bool.false_eq_true, if_false]; rfl⟩

theorem exec_engLate (hrun : (s.eng e).running = true) (hlate : s.getF (Reg.ENG_STAT_LATE (s.logical e)) = 0)
    (hlag : (s.eng e).oldest + s.getF (Reg.ENG_CTL_LAGMAX (s.logical e)) < s.clk.slot) :
    exec (.engLate e) s = .next ((s.setF (Reg.ENG_STAT_LATE (s.logical e)) 1).log .ENG_LATE (s.logical e) []) :=
  if_pos (by simp [hrun, State.flag_of_getF hlate, State.now, hlag])

end

/-- The spare that takes program slot q over from an engine with that checkpoint (R176, R177). -/
theorem EngSt.takeover_of_find {en : EngSt} {q now : Nat} {cp : Checkpoint} (h : en.ckpts.find? (fun c => c.slot == q) = some cp) :
    en.takeover q now = {
      imem := en.imem, shadow := en.shadow, lmem := en.lmem, used := true, ecause := ecauseWord 5 0 0 q, held := en.held, redirs := en.redirs
      lastCommit := now, sq := true, slot := q, w := cp.w, p := cp.p, a := cp.a, pc := cp.pc, running := true, ckpts := [cp] } := by
  unfold EngSt.takeover
  rw [h]

/-- Settles O13: a fault and the watchdog by what a covered fault leaves, the takeover by its two steps. -/
theorem engineFaultsAndSpares : Obligations.EngineFaultsAndSpares := by
  unfold Obligations.EngineFaultsAndSpares
  intro e s en l covered stops
  refine ⟨fun cause hfault hrun hcov => ⟨_, exec_engFault_running cause hfault hrun, State.engFault_stops hcov.1 hcov.2⟩,
    fun hrun hdue hcov => ⟨_, exec_engWatchdog_due hrun hdue, State.engFault_stops hcov.1 hcov.2⟩, exec_engWatchdog_early,
    fun k sp more htake heng hspare hdetect hfree => ?chosen, fun k sp cp htake heng hspare hsp hne hdetect hcp => ?resumed,
    fun hrun hlate hlag hl => ?late⟩
  case chosen =>
    refine ⟨_, spareTakeover_chooses htake heng hspare hdetect hfree, ?_, congrArg EngSt.used (State.eng_setEng_self _ _ _)⟩
    rw [← heng]
    exact State.setTakeover_single htake _
  case resumed =>
    obtain ⟨x, hexec⟩ := spareResume_resumes htake heng hspare hdetect
    have hspare' : ({ s.resumedOn e k sp with upd := x } : State).eng sp = (s.eng k.phys).takeover k.q s.now :=
      (State.eng_setEng_ne _ _ hne).trans (State.eng_setEng_self _ _ _)
    refine ⟨_, hexec, ?_, State.getF_setF_fits _ (f := Reg.ENG_MAP_HOST e) (by decide : 3 < 64) hsp, ?_⟩
    · rw [← heng]
      exact State.setTakeover_single htake none
    · rw [hspare', EngSt.takeover_of_find hcp]
      exact ⟨rfl, rfl, rfl, rfl, rfl, rfl, rfl⟩
  case late =>
    refine ⟨_, exec_engLate hrun hlate hlag, ?_, (State.logged_log _ _ _ _ (by decide)).of_same rfl (s.logSlot_setF_engStat l rfl 1)⟩
    exact (State.getF_log _ _ _ _ _ (evtReg_engStat _)).trans (State.getF_setF_self _ (Reg.ENG_STAT_LATE _) 1 (by decide : 3 < 64))

end Sys2Proof.Machine

namespace Sys2Proof.Machine
open Sys2Proof

/-! ### The commit of a program slot (R162, R163, R165) -/

theorem State.clearRc_upd (s : State) (a : Nat) : (s.clearRc a).upd = s.upd := by
  unfold State.clearRc
  split
  · rfl
  · dsimp only
    split <;> rfl

theorem State.advanceCoef_upd (s : State) (port : Nat) : (s.advanceCoef port).upd = s.upd := by
  obtain ⟨c, n, h⟩ := s.advanceCoef_eq port
  rw [h]

/-- A read leaves the updates alone: of that block it moves the pointer of its port only (R456). -/
theorem State.readEffect_upd (s : State) (port a : Nat) : (s.readEffect port a).upd = s.upd := by
  unfold State.readEffect
  split_ifs
  · exact s.advanceCoef_upd port
  · exact s.setCopy_upd _ _ _
  · exact s.setCopy_upd _ _ _
  · exact s.setCopy_upd _ _ _
  · exact s.setCopy_upd _ _ _
  · exact s.setCopy_upd _ _ _
  · exact s.clearRc_upd a
  · exact s.clearRc_upd a

theorem State.afterReads_upd (s : State) (l : List (Nat × Nat)) : (s.afterReads l).upd = s.upd := by
  unfold State.afterReads
  induction l generalizing s with
  | nil => rfl
  | cons x l ih => rw [List.foldl_cons, ih, State.readEffect_upd]

theorem State.clearLate_eq (s : State) (e : Nat) : ∃ r, s.clearLate e = { s with regs := r } := by
  unfold State.clearLate
  extract_lets l
  split
  · exact ⟨_, rfl⟩
  · exact ⟨s.regs, rfl⟩

theorem State.reg_clearLate (s : State) (e : Nat) {a : Nat} (h : ∀ l, a ≠ Reg.ENG_STAT l) : (s.clearLate e).reg a = s.reg a := by
  unfold State.clearLate
  dsimp only
  split
  · exact State.reg_setF_ne s _ _ (h _)
  · rfl

/-- An engine that switches at another program slot keeps its memories (R431). -/
theorem State.swapMemories_other {s : State} {e l k : Nat} (h : s.upd.switches.get (fun _ => 0) l ≠ k) : s.swapMemories e l k = s :=
  if_neg fun hk => h hk.1

/-- The group that an engine passes to the arbiter when its oldest program slot commits (R163, R165). -/
def EngSt.oldestGroup (en : EngSt) (l : Nat) : Group :=
  { slot := en.oldest, eng := l, ops := (en.cb.filter (fun i => i.slot == en.oldest)).map (fun i => i.op), seq := 0, accSlot := 0, accTick := 0 }

/-- The hub u after the oldest program slot of engine e, which does the work of logical engine l, committed in slot `now`, before LATE is
judged anew. -/
def State.slotCommitted (u : State) (e : Nat) (en : EngSt) (l now : Nat) : State :=
  { (u.setEng e (en.committed now)).setReg (Reg.ENG_CSLOT l) (BitVec.ofNat 64 en.oldest) with
    arb := { u.arb with ready := u.arb.ready ++ [en.oldestGroup l] } }

section
variable (u : State) (e : Nat) (en : EngSt) (l now : Nat)

theorem State.slotCommitted_eng : (u.slotCommitted e en l now).eng e = en.committed now := State.eng_setEng_self u e _

theorem State.slotCommitted_eng_ne {f : Nat} (hf : f ≠ e) : (u.slotCommitted e en l now).eng f = u.eng f := State.eng_setEng_ne u _ hf

theorem State.slotCommitted_cslot : (u.slotCommitted e en l now).reg (Reg.ENG_CSLOT l) = BitVec.ofNat 64 en.oldest :=
  State.reg_setReg_self (u.setEng e (en.committed now)) _ _

theorem State.slotCommitted_frame : { u.slotCommitted e en l now with regs := u.regs, engs := u.engs, arb := u.arb } = u := by
  cases u
  rfl

end

/-- The commit of the oldest program slot of an engine that switches at another one (R162, R163, R165). -/
theorem programSlotCommit_commits {e : Fin 16} {s u : State} (hrun : (s.eng e).running = true) (hended : (s.eng e).oldest < (s.eng e).slot)
    (hreached : (s.eng e).oldest ≤ s.clk.slot) (hswitch : s.upd.switches.get (fun _ => 0) (s.logical e) ≠ (s.eng e).oldest)
    (hu : s.afterReads ((s.eng e).reads.filter (fun x => x.1 == (s.eng e).oldest)) = u) :
    exec (.programSlotCommit e) s = .next ((u.slotCommitted e (s.eng e) (s.logical e) s.clk.slot).clearLate e) := by
  have hcommits : s.commits (s.eng e) = true := by simp [State.commits, hrun, hended, hreached, State.now]
  have hupd : u.upd = s.upd := by rw [← hu, State.afterReads_upd]
  have hstay : (u.slotCommitted e (s.eng e) (s.logical e) s.clk.slot).swapMemories e (s.logical e) (s.eng e).oldest
      = u.slotCommitted e (s.eng e) (s.logical e) s.clk.slot := State.swapMemories_other (by rw [← hupd] at hswitch; exact hswitch)
  refine (if_pos hcommits).trans ?_
  rw [hu]
  exact congrArg (fun t : State => Host.Outcome.next (t.clearLate e)) hstay

/-! ### The arbiter (R166) -/

/-- Group g goes before h, or is its equal: the least program slot, then the least engine (R166). -/
def Group.NotAfter (g h : Group) : Prop := g.slot < h.slot ∨ (g.slot = h.slot ∧ g.eng ≤ h.eng)

theorem firstGroup_isSome {l : List Group} (h : l ≠ []) : ∃ g, firstGroup l = some g := by
  cases l with
  | nil => exact absurd rfl h
  | cons g r =>
    unfold firstGroup
    split
    · split <;> exact ⟨_, rfl⟩
    · exact ⟨_, rfl⟩

theorem firstGroup_eq_none {l : List Group} (h : firstGroup l = none) : l = [] := by
  by_contra hne
  obtain ⟨g, hg⟩ := firstGroup_isSome hne
  rw [h] at hg
  cases hg

/-- The first group stands in the list and no group of it goes before. -/
theorem firstGroup_spec {l : List Group} {g : Group} (h : firstGroup l = some g) : g ∈ l ∧ ∀ x ∈ l, g.NotAfter x := by
  induction l generalizing g with
  | nil => cases h
  | cons a r ih =>
    rw [firstGroup] at h
    split at h
    case h_1 b hb =>
      obtain ⟨hmem, hmin⟩ := ih hb
      split at h
      case isTrue hba =>
        cases h
        refine ⟨List.mem_cons_of_mem a hmem, List.forall_mem_cons.mpr ⟨?_, hmin⟩⟩
        unfold Group.NotAfter
        omega
      case isFalse hab =>
        cases h
        refine ⟨List.mem_cons_self, List.forall_mem_cons.mpr ⟨.inr ⟨rfl, Nat.le_refl _⟩, fun x hx => ?_⟩⟩
        have hbx := hmin x hx
        unfold Group.NotAfter at hbx ⊢
        omega
    case h_2 hr =>
      cases h
      rw [firstGroup_eq_none hr]
      exact ⟨List.mem_cons_self, List.forall_mem_cons.mpr ⟨.inr ⟨rfl, Nat.le_refl _⟩, fun x hx => absurd hx List.not_mem_nil⟩⟩

/-- The first group accepted under the next commit sequence number (R166). -/
theorem commitGroupAccept_accepts {s : State} {g : Group} (h : firstGroup s.arb.ready = some g) :
    exec .commitGroupAccept s = .next (({ s with arb := { s.arb with
      ready := s.arb.ready.erase g, nextSeq := (s.arb.nextSeq + 1) % 2 ^ 64
      accepted := s.arb.accepted ++ [{ g with seq := s.arb.nextSeq, accSlot := s.clk.slot, accTick := s.clk.tick }] } } : State).setReg
        (Reg.ENG_CSEQ g.eng) (BitVec.ofNat 64 s.arb.nextSeq)) := by
  change execCommitGroupAccept s = _
  unfold execCommitGroupAccept
  rw [h]
  rfl

/-! ### The application of a group (R166) -/

theorem State.pollMail_empty {s : State} {l : Nat} (h : (s.hostOf l).mail = []) : s.pollMail l = s := by
  refine List.foldl_fixed' (fun k => ?_) (List.range 8)
  have hslot : (s.hostOf l).slot k = none := by rw [HostSt.slot, h, Sparse.get]
  rw [hslot]

/-- The state in which the first group's entries act: the group is no longer among those accepted (R166). -/
def State.popped (s : State) (rest : List Group) : State := { s with arb := { s.arb with accepted := rest } }

section
variable {s t : State} {g : Group} {rest : List Group}

/-- With no command waiting in a mailbox a group is applied and nothing is sent (R166, R362). -/
theorem commitGroupApply_applies (hacc : s.arb.accepted = g :: rest) (hmail : ∀ l : Fin 4, (s.hostOf l).mail = [])
    (ht : g.ops.foldl (fun t o => t.applyOp g o) (s.popped rest) = t) (hhosts : t.hosts = s.hosts) : exec .commitGroupApply s = .next t := by
  have hpoll : ∀ l ∈ [0, 1, 2, 3], t.pollMail l = t := fun l hl =>
    State.pollMail_empty (by rw [State.hostOf, hhosts]; exact hmail ⟨l, by simp at hl; omega⟩)
  change Host.Outcome.next s.applyGroup = _
  unfold State.applyGroup
  rw [hacc]
  dsimp only
  rw [← State.popped, ht]
  simp only [List.foldl_cons, List.foldl_nil, hpoll 0 (by decide), hpoll 1 (by decide), hpoll 2 (by decide), hpoll 3 (by decide)]

theorem commitGroupApply_single {o : CbOp} (hacc : s.arb.accepted = g :: rest) (hmail : ∀ l : Fin 4, (s.hostOf l).mail = [])
    (hops : g.ops = [o]) (ht : (s.popped rest).applyOp g o = t) (hhosts : t.hosts = s.hosts) : exec .commitGroupApply s = .next t :=
  commitGroupApply_applies hacc hmail (by rw [hops, List.foldl_cons, List.foldl_nil, ht]) hhosts

end

/-- Bytes written below the end of shared SRAM; a whole word mends its failing check (R153; log entry 30). -/
theorem State.sharedWrite_sram (s : State) {a n : Nat} (v : Nat) (h : a + n ≤ 0x500000) :
    s.sharedWrite a n v = { s with
      sram := Memory.write s.sram (a - 0x100000) n v
      sramBad := if n = 8 then s.sramBad.filter (fun w => w != (a - 0x100000) / 8) else s.sramBad } := by
  by_cases ha : a < 0x500000
  · exact if_pos ha
  · obtain rfl : n = 0 := by omega
    exact if_neg ha

theorem mem_mended {l : List Nat} {n o w : Nat} :
    w ∈ (if n = 8 then l.filter (fun x => x != o) else l) ↔ w ∈ l ∧ ¬ (n = 8 ∧ w = o) := by
  split <;> simp_all

/-- A byte of shared SRAM after a store at an address of the map (log entry 4). -/
theorem Memory.get_write_sram (m : List Host.Cell) {a : Nat} (n v b : Nat) (ha : 0x100000 ≤ a) :
    Memory.get (Memory.write m (a - 0x100000) n v) b = if a ≤ b + 0x100000 ∧ b + 0x100000 < a + n
      then BitVec.ofNat 8 (v / 256 ^ (n - 1 - (b + 0x100000 - a))) else Memory.get m b := by
  have hoff : b - (a - 0x100000) = b + 0x100000 - a := by omega
  rw [Memory.get_write, hoff]
  refine if_congr ?_ rfl rfl
  omega

theorem State.sharedBytes_sram (s : State) {a n : Nat} (ha : 0x100000 ≤ a) (h : a + n ≤ 0x500000) :
    ofLeBytes ((List.range n).map (fun i => s.sharedByte (a + i))).reverse = Memory.read s.sram (a - 0x100000) n := by
  have hbytes : (List.range n).map (fun i => s.sharedByte (a + i)) = Memory.bytes s.sram (a - 0x100000) n := by
    refine List.map_congr_left fun i hi => ?_
    have hin : i < n := List.mem_range.mp hi
    rw [State.sharedByte, if_pos (by omega), Nat.sub_add_comm ha]
  rw [hbytes, Memory.read]

theorem Memory.word_write_sum (m : List Host.Cell) (o : Nat) (v : W64) :
    Memory.word (Memory.write m o 8 ((Memory.read m o 8 + v.toNat) % 2 ^ 64)) o = Memory.word m o + v := by
  rw [Memory.word, Memory.read_write_self, Memory.word]
  apply BitVec.eq_of_toNat_eq
  simp

theorem State.applyOp_store (s : State) (g : Group) {a n : Nat} (v : Nat) (h : a + n ≤ 0x500000) :
    s.applyOp g (.store a n v) = s.sharedWrite a n v := if_neg (by omega)

theorem State.applyOp_aadd (s : State) (g : Group) {a : Nat} (v : W64) (ha : 0x100000 ≤ a) (h : a + 8 ≤ 0x500000) :
    s.applyOp g (.aadd a v) = s.sharedWrite a 8 ((Memory.read s.sram (a - 0x100000) 8 + v.toNat) % 2 ^ 64) := by
  rw [State.applyOp, State.sharedBytes_sram s ha h]

/-! ### CONVSET applied (R102, R203) -/

theorem Fin.mem_positions (p : Fin 16) : p.val ∈ positions := List.mem_range.mpr p.isLt

/-- The prediction that a CONVSET in time stores for a position that it names (R203). -/
theorem find_convset {t p eng paths : Nat} {named : List Nat} {old : List Pred} (hp : p ∈ named) :
    (named.map (fun p => ({ slot := t, pos := p, fine := paths.testBit p, eng := eng } : Pred)) ++ old).find?
      (fun q => q.slot == t && q.pos == p) = some { slot := t, pos := p, fine := paths.testBit p, eng := eng } := by
  have hfind : named.find? (fun x => x == p) = some p := by
    obtain ⟨x, hx⟩ := Option.isSome_iff_exists.mp (List.find?_isSome.mpr ⟨p, hp, beq_self_eq_true p⟩ : (named.find? (fun x => x == p)).isSome)
    have hxp : x = p := by simpa using List.find?_some hx
    rw [hx, hxp]
  have hcomp : ((fun q : Pred => q.slot == t && q.pos == p) ∘ fun p => ({ slot := t, pos := p, fine := paths.testBit p, eng := eng } : Pred))
      = fun x => x == p := by
    funext x
    simp
  rw [List.find?_append, List.find?_map, hcomp, hfind]
  rfl

section
variable {s : State} {g : Group} {bank mask paths at_ : Nat}

/-- A CONVSET accepted two slots before its target, or earlier, is in time for the freeze (R102). -/
theorem State.applyOp_convset (h : g.accSlot + 2 ≤ at_) : ∃ x : BankSt, s.applyOp g (.convset bank mask paths at_) = s.setBk bank x
    ∧ ∀ p : Fin 16, mask.testBit p → x.stored p at_ = some { slot := at_, pos := p, fine := paths.testBit p, eng := g.eng } := by
  refine ⟨_, if_neg (by omega), fun p hp => ?_⟩
  exact find_convset (List.mem_filter.mpr ⟨Fin.mem_positions p, hp⟩)

end

/-- The record that an EVENT of a group writes (R205, R441). -/
def Group.eventRec (g : Group) (code : Nat) (arg : W64) (notify : Bool) : EventRec :=
  { cls := 1, level := 0, code := code, unit := g.eng, partner := false, notify := notify, cont := false, seq := 0
    slot := BitVec.ofNat 64 g.slot, d2 := arg, d3 := BitVec.ofNat 64 g.seq }

theorem State.applyOp_event (s : State) (g : Group) (code : Nat) (arg : W64) (notify : Bool) :
    s.applyOp g (.event code arg notify) = s.appendRec .all (g.eventRec code arg notify) := rfl

/-- Settles O11: the commit, the arbiter's choice, and each kind of entry applied. -/
theorem engineCommits : Obligations.EngineCommits := by
  unfold Obligations.EngineCommits
  refine ⟨fun e s => ?commit, fun s hready => ?accept,
    fun g rest s hacc hmail => ⟨fun a n v hops ha hn => ?store, fun a v hops ha hn => ?aadd, fun bank mask paths at_ hops hbank hat => ?convset,
      fun code arg notify hops => ?event, fun hops => commitGroupApply_applies hacc hmail (by rw [hops, List.foldl_nil]; rfl) rfl⟩⟩
  case commit =>
    intro en k l u hrun hended hreached hswitch
    have hreg := (u.slotCommitted e en l s.clk.slot).reg_clearLate e (a := Reg.ENG_CSLOT l) fun i => by
      simp only [Reg.ENG_CSLOT, Reg.ENG_STAT]
      omega
    obtain ⟨r, hr⟩ := (u.slotCommitted e en l s.clk.slot).clearLate_eq e
    refine ⟨_, programSlotCommit_commits hrun hended hreached hswitch rfl, ?_, ?_, fun f hf => ?_,
      hreg.trans (u.slotCommitted_cslot e en l s.clk.slot), ?_⟩
    all_goals rw [hr]
    · rfl
    · exact u.slotCommitted_eng e en l s.clk.slot
    · exact u.slotCommitted_eng_ne e en l s.clk.slot hf
    · exact u.slotCommitted_frame e en l s.clk.slot
  case accept =>
    obtain ⟨g, hg⟩ := firstGroup_isSome hready
    obtain ⟨hmem, hmin⟩ := firstGroup_spec hg
    exact ⟨g, hmem, hmin, _, commitGroupAccept_accepts hg, rfl, State.reg_setReg_self _ _ _, rfl⟩
  case store =>
    have hop := (State.applyOp_store (s.popped rest) g v hn).trans (State.sharedWrite_sram _ v hn)
    exact ⟨_, commitGroupApply_single hacc hmail hops hop rfl, fun b => Memory.get_write_sram s.sram n v b ha, fun w => mem_mended, rfl, rfl⟩
  case aadd =>
    have hop := (State.applyOp_aadd (s.popped rest) g v ha hn).trans (State.sharedWrite_sram _ _ hn)
    refine ⟨_, commitGroupApply_single hacc hmail hops hop rfl, Memory.word_write_sum s.sram _ v,
      fun b hb => Memory.get_write_out _ _ _ _ _ (by omega), fun w => ?_, rfl, rfl⟩
    simp [State.popped]
  case convset =>
    obtain ⟨x, hop, hstored⟩ := State.applyOp_convset (s := s.popped rest) (bank := bank) (mask := mask) (paths := paths) hat
    refine ⟨_, commitGroupApply_single hacc hmail hops hop rfl, fun p hp => ?_, rfl, rfl⟩
    rw [State.bk_setBk_self]
    exact hstored p hp
  case event =>
    have hframe := State.appendRec_frame (s.popped rest) .all (g.eventRec code arg notify)
    refine ⟨_, commitGroupApply_single hacc hmail hops ((s.popped rest).applyOp_event g code arg notify) (State.appendRec_hosts _ _ _),
      ⟨{ g.eventRec code arg notify with seq := s.evt.nextSeq }, ?_, rfl, rfl, rfl, rfl, rfl, rfl, rfl, rfl, rfl⟩,
      (congrArg (fun t : State => { t with arb := s.arb }) hframe :), (congrArg State.arb hframe :)⟩
    rw [(State.appendRec_ring _ _ _).1]
    exact List.mem_cons_self

end Sys2Proof.Machine

namespace Sys2Proof

/-! ### The fields of an instruction word (R184) -/

theorem fld_eq_div_mod (w : W32) (hi lo : Nat) : fld w hi lo = w.toNat / 2 ^ lo % 2 ^ (hi + 1 - lo) := by
  rw [fld, Nat.shiftRight_eq_div_pow]

theorem zeros_eq_some_iff {fs : List Nat} {i j : Instr} : zeros fs i = some j ↔ (∀ n ∈ fs, n = 0) ∧ i = j := by
  simp [zeros]

theorem rdOf_val (w : W32) : (rdOf w).val = w.toNat / 2 ^ 21 % 32 := by
  simp [rdOf, fld_eq_div_mod]

theorem raOf_val (w : W32) : (raOf w).val = w.toNat / 2 ^ 16 % 32 := by
  simp [raOf, fld_eq_div_mod]

theorem rbOf_val (w : W32) : (rbOf w).val = w.toNat / 2 ^ 11 % 32 := by
  simp [rbOf, fld_eq_div_mod]

theorem opOf_eq (w : W32) : opOf w = w.toNat / 2 ^ 26 := by
  rw [opOf, fld_eq_div_mod]
  omega

theorem fnOf_eq (w : W32) : fnOf w = w.toNat % 128 := by
  rw [fnOf, fld_eq_div_mod]
  omega

theorem bit_beq_one_iff {n : Nat} (h : n < 2) (b : Bool) : (n == 1) = b ↔ n = b.toNat := by
  cases b
  · simp; omega
  · simp

theorem guardT_eq_iff {w : W32} {g : Guard} :
    guardT w = g ↔ w.toNat / 2 ^ 8 % 8 = g.pg.val ∧ w.toNat / 2 ^ 7 % 2 = g.pn.toNat := by
  obtain ⟨pg, pn⟩ := g
  simp only [guardT, Guard.mk.injEq, Fin.ext_iff, fld_eq_div_mod]
  rw [bit_beq_one_iff (by omega)]
  simp

theorem guardM_eq_iff {w : W32} {g : Guard} :
    guardM w = g ↔ w.toNat / 2 ^ 13 % 8 = g.pg.val ∧ w.toNat / 2 ^ 12 % 2 = g.pn.toNat := by
  obtain ⟨pg, pn⟩ := g
  simp only [guardM, Guard.mk.injEq, Fin.ext_iff, fld_eq_div_mod]
  rw [bit_beq_one_iff (by omega)]
  simp

theorem eq_ofNat_iff {w : W32} {n : Nat} (h : n < 2 ^ 32) : BitVec.ofNat 32 n = w ↔ n = w.toNat := by
  rw [← BitVec.toNat_inj, BitVec.toNat_ofNat, Nat.mod_eq_of_lt h]

theorem wordT_eq_iff {w : W32} {op rd ra rb fn : Nat} {g : Guard} (hop : op < 64) (hd : rd < 32) (ha : ra < 32) (hb : rb < 32) (hf : fn < 128) :
    wordT op rd ra rb g fn = w ↔
      opOf w = op ∧ (rdOf w).val = rd ∧ (raOf w).val = ra ∧ (rbOf w).val = rb ∧ guardT w = g ∧ fnOf w = fn := by
  have hg := g.pg.isLt
  have hn := g.pn.toNat_lt
  rw [wordT, eq_ofNat_iff (by omega), opOf_eq, rdOf_val, raOf_val, rbOf_val, guardT_eq_iff, fnOf_eq]
  omega

theorem wordM_eq_iff {w : W32} {op : Nat} {rd ra : WReg} {off : BitVec 12} {g : Guard} (hop : op < 64) :
    wordM op g rd ra off = w ↔ opOf w = op ∧ rdOf w = rd ∧ raOf w = ra ∧ guardM w = g ∧ offOf w = off := by
  have hg := g.pg.isLt
  have hn := g.pn.toNat_lt
  have hd := rd.isLt
  have ha := ra.isLt
  have ho := off.isLt
  rw [wordM, eq_ofNat_iff (by omega), opOf_eq, Fin.ext_iff, rdOf_val, Fin.ext_iff, raOf_val, guardM_eq_iff, offOf, ← BitVec.toNat_inj, fld_eq_div_mod,
    BitVec.toNat_ofNat]
  omega

theorem wordI_eq_iff {w : W32} {op rd ra imm : Nat} (hop : op < 64) (hd : rd < 32) (ha : ra < 32) (hi : imm < 2 ^ 16) :
    wordI op rd ra imm = w ↔ opOf w = op ∧ (rdOf w).val = rd ∧ (raOf w).val = ra ∧ (immOf w).toNat = imm := by
  rw [wordI, eq_ofNat_iff (by omega), opOf_eq, rdOf_val, raOf_val, immOf, fld_eq_div_mod, BitVec.toNat_ofNat]
  omega


theorem wordB_eq_iff {w : W32} {op : Nat} {pc : PReg} {pn : Bool} {disp : BitVec 22} (hop : op < 64) :
    wordB op pc pn disp = w ↔
      opOf w = op ∧ Fin.ofNat 8 (fld w 25 23) = pc ∧ (fld w 22 22 == 1) = pn ∧ BitVec.ofNat 22 (fld w 21 0) = disp := by
  have hn := pn.toNat_lt
  rw [wordB, eq_ofNat_iff (by omega), opOf_eq, Fin.ext_iff, Fin.val_ofNat, bit_beq_one_iff (by rw [fld_eq_div_mod]; omega), ← BitVec.toNat_inj,
    fld_eq_div_mod, fld_eq_div_mod, fld_eq_div_mod, BitVec.toNat_ofNat]
  omega

/-! ### The parts of a field that some groups read on their own (R189 to R192, R198) -/

theorem fld_25_24 (w : W32) : fld w 25 24 = (rdOf w).val / 8 := by
  rw [fld_eq_div_mod, rdOf_val]
  omega

theorem fld_25_23 (w : W32) : fld w 25 23 = (rdOf w).val / 4 := by
  rw [fld_eq_div_mod, rdOf_val]
  omega

theorem fld_23_21 (w : W32) : fld w 23 21 = (rdOf w).val % 8 := by
  rw [fld_eq_div_mod, rdOf_val]
  omega

theorem fld_20_18 (w : W32) : fld w 20 18 = (raOf w).val / 4 := by
  rw [fld_eq_div_mod, raOf_val]
  omega

theorem fld_20_19 (w : W32) : fld w 20 19 = (raOf w).val / 8 := by
  rw [fld_eq_div_mod, raOf_val]
  omega

theorem fld_15_14 (w : W32) : fld w 15 14 = (rbOf w).val / 8 := by
  rw [fld_eq_div_mod, rbOf_val]
  omega

theorem fld_6_6 (w : W32) : fld w 6 6 = fnOf w / 64 := by
  rw [fld_eq_div_mod, fnOf_eq]
  omega

theorem fld_5_0 (w : W32) : fld w 5 0 = fnOf w % 64 := by
  rw [fld_eq_div_mod, fnOf_eq]
  omega

theorem fld_6_3 (w : W32) : fld w 6 3 = fnOf w / 8 := by
  rw [fld_eq_div_mod, fnOf_eq]
  omega

theorem fld_2_0 (w : W32) : fld w 2 0 = fnOf w % 8 := by
  rw [fld_eq_div_mod, fnOf_eq]
  omega

theorem fld_15_6 (w : W32) : fld w 15 6 = (immOf w).toNat / 64 := by
  rw [immOf, fld_eq_div_mod, fld_eq_div_mod, BitVec.toNat_ofNat]
  omega

theorem shiftOf_val (w : W32) : (shiftOf w).val = (immOf w).toNat % 64 := by
  rw [shiftOf, Fin.val_ofNat, immOf, fld_eq_div_mod, fld_eq_div_mod, BitVec.toNat_ofNat]
  omega

/-! ### A word that a decoder takes is the word written for the command (R185 to R193) -/

/-- Whatever command a decoder answers for a word, that word is the one written for it. -/
def Spelt (e : Fin 16) (w : W32) (o : Option Instr) : Prop := ∀ i, o = some i → encodeKoloux i = some (e, w)

section
variable {e : Fin 16} {w : W32}

theorem spelt_none : Spelt e w none := nofun

theorem spelt_some {i : Instr} : Spelt e w (some i) ↔ encodeKoloux i = some (e, w) := by simp [Spelt]

theorem spelt_zeros {fs : List Nat} {i : Instr} : Spelt e w (zeros fs i) ↔ ((∀ n ∈ fs, n = 0) → encodeKoloux i = some (e, w)) := by
  simp [Spelt, zeros_eq_some_iff]

theorem modeOf_eq_some_iff {m : Fin 3} : modeOf w = some m ↔ (rdOf w).val / 8 = m.val := by
  have hd := (rdOf w).isLt
  unfold modeOf
  rw [fld_25_24]
  split <;> simp only [Option.some.injEq, reduceCtorEq, Fin.ext_iff] <;> grind

theorem val_eq_predOf_iff {r : WReg} : r.val = (predOf r).val ↔ r.val < 8 :=
  eq_comm.trans (Nat.mod_eq_iff_lt (by decide))

theorem val_eq_accOf_iff {r : WReg} : r.val = (accOf r).val ↔ r.val < 4 :=
  eq_comm.trans (Nat.mod_eq_iff_lt (by decide))

theorem cmpPred_val (w : W32) : (cmpPred w).val = (rdOf w).val % 8 := by
  rw [cmpPred, Fin.val_ofNat, fld_23_21]
  omega

theorem cmpRd_cmpPred {m : Fin 3} (h : modeOf w = some m) : cmpRd m (cmpPred w) = (rdOf w).val := by
  rw [modeOf_eq_some_iff] at h
  rw [cmpRd, cmpPred_val]
  omega

theorem spelt_bind_modeOf {f : Fin 3 → Option Instr} (h : ∀ m, modeOf w = some m → Spelt e w (f m)) : Spelt e w ((modeOf w).bind f) := by
  intro i hi
  obtain ⟨m, hm, hf⟩ := Option.bind_eq_some_iff.mp hi
  exact h m hm i hf

theorem spelt_decodeAlu (ho : opOf w = 0x00) : Spelt e w (decodeAlu e w) := by
  unfold decodeAlu
  split
  all_goals simp +contextual (disch := omega) [spelt_some, spelt_zeros, spelt_none, encodeKoloux, wordT_eq_iff, *]

theorem fnOf_packed (w : W32) : fnOf w = (fld w 6 6 == 1).toNat * 64 + fld w 5 0 := by
  rw [fld_6_6, fld_5_0, fnOf_eq]
  rcases (by omega : w.toNat % 128 / 64 = 0 ∨ w.toNat % 128 / 64 = 1) with h | h <;> simp [h] <;> omega

theorem spelt_decodePacked (ho : opOf w = 0x01) : Spelt e w (decodePacked e w) := by
  have hfn := fnOf_packed w
  have hh := Bool.toNat_lt (fld w 6 6 == 1)
  unfold decodePacked
  split
  all_goals simp +contextual (disch := omega) [spelt_some, spelt_zeros, spelt_none, encodeKoloux, wordT_eq_iff, *]

theorem spelt_decodeCompare (ho : opOf w = 0x02) : Spelt e w (decodeCompare e w) := by
  refine spelt_bind_modeOf fun m hm => ?_
  have hrd := cmpRd_cmpPred hm
  split
  all_goals simp (disch := omega) [spelt_some, spelt_none, encodeKoloux, wordT_eq_iff, *]

theorem spelt_decodeMac (ho : opOf w = 0x03) : Spelt e w (decodeMac e w) := by
  unfold decodeMac
  split
  all_goals simp +contextual (disch := omega) [spelt_zeros, spelt_none, encodeKoloux, wordT_eq_iff, fld_25_23, fld_20_18, val_eq_accOf_iff, *]

theorem spelt_decodePred (ho : opOf w = 0x04) : Spelt e w (decodePred e w) := by
  unfold decodePred
  split
  case h_1 =>
    dsimp only
    split
    all_goals simp +contextual (disch := omega) [spelt_zeros, spelt_none, encodeKoloux, wordT_eq_iff, *]
  all_goals
    simp +contextual (disch := omega) [spelt_zeros, spelt_none, encodeKoloux, wordT_eq_iff, fld_25_24, fld_20_19, fld_15_14, val_eq_predOf_iff, *]

theorem spelt_decodeJump (ho : opOf w = 0x05) : Spelt e w (decodeJump e w) := by
  unfold decodeJump
  split
  all_goals simp +contextual (disch := omega) [spelt_zeros, spelt_none, encodeKoloux, wordT_eq_iff, *]

theorem kindOf_eq_some_iff {x : Nat} {k : WordKind} : kindOf x = some k ↔ x = k.x := by
  unfold kindOf
  split <;> cases k <;> simp_all [WordKind.x]

theorem spelt_map_kindOf {x : Nat} {f : WordKind → Instr} (h : ∀ k, x = k.x → Spelt e w (some (f k))) : Spelt e w ((kindOf x).map f) := by
  intro i hi
  obtain ⟨k, hk, rfl⟩ := Option.map_eq_some_iff.mp hi
  exact h k (kindOf_eq_some_iff.mp hk) _ rfl

theorem fnOf_hub (w : W32) : fnOf w = fld w 6 3 * 8 + fld w 2 0 := by
  rw [fld_6_3, fld_2_0]
  omega

theorem fld_2_0_lt (w : W32) : fld w 2 0 < 8 := by
  rw [fld_2_0]
  omega

theorem WordKind.x_lt (k : WordKind) : k.x < 8 := by cases k <;> decide

theorem spelt_decodeHub (ho : opOf w = 0x30) : Spelt e w (decodeHub e w) := by
  have hfn := fnOf_hub w
  have hx := fld_2_0_lt w
  unfold decodeHub
  split
  case h_2 =>
    refine spelt_map_kindOf fun k hk => ?_
    have hk8 := k.x_lt
    simp (disch := omega) [spelt_some, encodeKoloux, wordT_eq_iff, *]
  case h_7 =>
    dsimp only
    split
    all_goals simp +contextual (disch := omega) [spelt_zeros, spelt_none, encodeKoloux, wordT_eq_iff, *]
  case h_4 hhf =>
    rw [spelt_zeros]
    intro hz
    obtain ⟨hd, hx4⟩ : (rdOf w).val = 0 ∧ fld w 2 0 / 4 = 0 := by simpa using hz
    have hn : (Fin.ofNat 4 (fld w 2 0)).val = fld w 2 0 := Nat.mod_eq_of_lt (by omega)
    exact congrArg (fun v => some (e, v)) ((wordT_eq_iff (by omega) (by omega) (by omega) (by omega) (by omega)).mpr
      ⟨ho, hd, rfl, rfl, rfl, by omega⟩)
  case h_5 hhf =>
    rw [spelt_zeros]
    intro hz
    obtain ⟨hd, hx2⟩ : (rdOf w).val = 0 ∧ fld w 2 0 / 2 = 0 := by simpa using hz
    have hn : fld w 2 0 = (fld w 2 0 % 2 == 1).toNat := by rw [← bit_beq_one_iff (by omega), Nat.mod_eq_of_lt (by omega)]
    exact congrArg (fun v => some (e, v)) ((wordT_eq_iff (by omega) (by omega) (by omega) (by omega) (by omega)).mpr
      ⟨ho, hd, rfl, rfl, rfl, by omega⟩)
  all_goals simp +contextual (disch := omega) [spelt_zeros, spelt_none, encodeKoloux, wordT_eq_iff, fld_25_24, val_eq_predOf_iff, *]

theorem spelt_decodeCompareImm : Spelt e w (decodeCompareImm e w) := by
  refine spelt_bind_modeOf fun m hm => ?_
  have hrd := cmpRd_cmpPred hm
  have himm := (immOf w).isLt
  split
  all_goals simp (disch := omega) [spelt_some, spelt_none, encodeKoloux, wordI_eq_iff, *]

theorem val_eq_shiftOf_iff : (immOf w).toNat = (shiftOf w).val ↔ (immOf w).toNat < 64 := by
  rw [shiftOf_val]
  omega

theorem spelt_decodeWord : Spelt e w (decodeWord e w) := by
  have himm := (immOf w).isLt
  unfold decodeWord
  split
  case h_1 ho => exact spelt_decodeAlu ho
  case h_2 ho => exact spelt_decodePacked ho
  case h_3 ho => exact spelt_decodeCompare ho
  case h_4 ho => exact spelt_decodeMac ho
  case h_5 ho => exact spelt_decodePred ho
  case h_6 ho => exact spelt_decodeJump ho
  case h_16 | h_17 | h_18 | h_19 | h_20 | h_21 => exact spelt_decodeCompareImm
  case h_36 ho => exact spelt_decodeHub ho
  all_goals
    simp +contextual (disch := omega) [spelt_some, spelt_zeros, spelt_none, encodeKoloux, wordI_eq_iff, wordM_eq_iff, wordB_eq_iff, fld_15_6,
      val_eq_shiftOf_iff, *]

end

/-! ### The word written for a command decodes to it -/

section
variable {e : Fin 16} {w : W32} {i : Instr}

theorem modeOf_of_cmpRd {m : Fin 3} {p : PReg} (h : (rdOf w).val = cmpRd m p) : modeOf w = some m := by
  rw [modeOf_eq_some_iff, h, cmpRd]
  omega

theorem cmpPred_of_cmpRd {m : Fin 3} {p : PReg} (h : (rdOf w).val = cmpRd m p) : cmpPred w = p := by
  rw [Fin.ext_iff, cmpPred_val, h, cmpRd]
  omega

theorem accOf_eq {r : WReg} {a : AReg} (h : r.val = a.val) : accOf r = a := by
  rw [Fin.ext_iff, ← val_eq_accOf_iff.mpr (h ▸ a.isLt), h]

theorem predOf_eq {r : WReg} {p : PReg} (h : r.val = p.val) : predOf r = p := by
  rw [Fin.ext_iff, ← val_eq_predOf_iff.mpr (h ▸ p.isLt), h]

theorem decodeWord_of_encodeKoloux (h : encodeKoloux i = some (e, w)) : decodeWord e w = some i := by
  cases i with
  | add | sub | and_ | or_ | xor | andn | shl | shr | sar | ror | min_ | max_ | minu | maxu | adds | subs | mul | mulhs | mulhu =>
    simp (disch := omega) only [encodeKoloux, Option.some.injEq, Prod.mk.injEq, wordT_eq_iff, Fin.val_inj] at h
    obtain ⟨rfl, ho, rfl, rfl, rfl, rfl, hf⟩ := h
    simp [decodeWord, ho, decodeAlu, hf]
  | abs_ | clz | popc =>
    simp (disch := omega) only [encodeKoloux, Option.some.injEq, Prod.mk.injEq, wordT_eq_iff, Fin.val_inj] at h
    obtain ⟨rfl, ho, rfl, rfl, hb, rfl, hf⟩ := h
    simp [decodeWord, ho, decodeAlu, hf, hb, zeros]
  | padd e g h4 | psub e g h4 | padds e g h4 | psubs e g h4 | paddus e g h4 | psubus e g h4 | pmin e g h4 | pmax e g h4 | pshl e g h4 | psar e g h4
  | pshr e g h4 | pmull e g h4 | pmulhs e g h4 =>
    have hh := Bool.toNat_lt h4
    simp (disch := omega) only [encodeKoloux, Option.some.injEq, Prod.mk.injEq, wordT_eq_iff, Fin.val_inj] at h
    obtain ⟨rfl, ho, rfl, rfl, rfl, rfl, hf⟩ := h
    cases h4 <;> simp [decodeWord, ho, decodePacked, fld_6_6, fld_5_0, hf]
  | pabs e g h4 =>
    have hh := Bool.toNat_lt h4
    simp (disch := omega) only [encodeKoloux, Option.some.injEq, Prod.mk.injEq, wordT_eq_iff, Fin.val_inj] at h
    obtain ⟨rfl, ho, rfl, rfl, hb, rfl, hf⟩ := h
    cases h4 <;> simp [decodeWord, ho, decodePacked, fld_6_6, fld_5_0, hf, zeros, hb]
  | cmpeq | cmpne | cmplt | cmpge | cmpltu | cmpgeu | cmptst =>
    simp (disch := omega) only [encodeKoloux, cmpRd, Option.some.injEq, Prod.mk.injEq, wordT_eq_iff, Fin.val_inj] at h
    obtain ⟨rfl, ho, hd, rfl, rfl, rfl, hf⟩ := h
    simp [decodeWord, ho, decodeCompare, modeOf_of_cmpRd hd, cmpPred_of_cmpRd hd, hf]
  | mac | macu | msb | macW2 | macH4 =>
    simp (disch := omega) only [encodeKoloux, Option.some.injEq, Prod.mk.injEq, wordT_eq_iff, Fin.val_inj] at h
    obtain ⟨rfl, ho, hd, rfl, rfl, rfl, hf⟩ := h
    simp [decodeWord, ho, decodeMac, hf, zeros, fld_25_23, accOf_eq hd, hd]
  | aclr | mtah | mtal =>
    simp (disch := omega) only [encodeKoloux, Option.some.injEq, Prod.mk.injEq, wordT_eq_iff, Fin.val_inj] at h
    obtain ⟨rfl, ho, hd, ha, hb, rfl, hf⟩ := h
    simp [decodeWord, ho, decodeMac, hf, zeros, fld_25_23, accOf_eq hd, hd, ha, hb]
  | mva | mvah | mval =>
    simp (disch := omega) only [encodeKoloux, Option.some.injEq, Prod.mk.injEq, wordT_eq_iff, Fin.val_inj] at h
    obtain ⟨rfl, ho, rfl, ha, hb, rfl, hf⟩ := h
    simp [decodeWord, ho, decodeMac, hf, zeros, fld_20_18, accOf_eq ha, ha, hb]
  | mfs | mfp | mtp =>
    simp (disch := omega) only [encodeKoloux, Option.some.injEq, Prod.mk.injEq, wordT_eq_iff, Fin.val_inj] at h
    obtain ⟨rfl, ho, hd, ha, hb, rfl, hf⟩ := h
    simp [decodeWord, ho, decodePred, hf, zeros, hd, ha, hb]
  | pand | por | pxor | pandn =>
    simp (disch := omega) only [encodeKoloux, Option.some.injEq, Prod.mk.injEq, wordT_eq_iff] at h
    obtain ⟨rfl, ho, hd, ha, hb, rfl, hf⟩ := h
    simp [decodeWord, ho, decodePred, hf, zeros, fld_25_24, fld_20_19, fld_15_14, predOf_eq hd, predOf_eq ha, predOf_eq hb, hd, ha, hb]
  | jr | jrl =>
    simp (disch := omega) only [encodeKoloux, Option.some.injEq, Prod.mk.injEq, wordT_eq_iff, Fin.val_inj] at h
    obtain ⟨rfl, ho, hd, ha, hb, rfl, hf⟩ := h
    simp [decodeWord, ho, decodeJump, hf, zeros, hd, ha, hb]
  | addi | andi | ori | xori | shli | shri | sari | li | cati =>
    simp (disch := omega) only [encodeKoloux, Option.some.injEq, Prod.mk.injEq, wordI_eq_iff, Fin.val_inj, BitVec.toNat_inj] at h
    obtain ⟨rfl, ho, hd, ha, hn⟩ := h
    simp [decodeWord, ho, hd, ha, hn, zeros, fld_15_6, Fin.ext_iff, shiftOf_val]
  | cmpeqi | cmpnei | cmplti | cmpgei | cmpltui | cmpgeui =>
    simp (disch := omega) only [encodeKoloux, cmpRd, Option.some.injEq, Prod.mk.injEq, wordI_eq_iff, Fin.val_inj, BitVec.toNat_inj] at h
    obtain ⟨rfl, ho, hd, rfl, rfl⟩ := h
    simp [decodeWord, decodeCompareImm, ho, modeOf_of_cmpRd hd, cmpPred_of_cmpRd hd]
  | ld | lw | lwu | lh | lhu | lb | lbu | st | sw | sh | sb | aadd =>
    simp (disch := omega) only [encodeKoloux, Option.some.injEq, Prod.mk.injEq, wordM_eq_iff] at h
    obtain ⟨rfl, ho, rfl, rfl, rfl, rfl⟩ := h
    simp [decodeWord, ho]
  | br | bl =>
    simp (disch := omega) only [encodeKoloux, Option.some.injEq, Prod.mk.injEq, wordB_eq_iff] at h
    obtain ⟨rfl, ho, rfl, rfl, rfl⟩ := h
    simp [decodeWord, ho]
  | waitslot | convset | trigarm | ckpt =>
    simp (disch := omega) only [encodeKoloux, Option.some.injEq, Prod.mk.injEq, wordT_eq_iff, Fin.val_inj] at h
    obtain ⟨rfl, ho, hd, ha, hb, rfl, hf⟩ := h
    simp [decodeWord, ho, decodeHub, fld_6_3, fld_2_0, hf, zeros, hd, ha, hb]
  | squashed =>
    simp (disch := omega) only [encodeKoloux, Option.some.injEq, Prod.mk.injEq, wordT_eq_iff] at h
    obtain ⟨rfl, ho, hd, ha, hb, rfl, hf⟩ := h
    simp [decodeWord, ho, decodeHub, fld_6_3, fld_2_0, hf, zeros, hd, ha, hb, fld_25_24, predOf_eq hd]
  | fetch e g d a b k =>
    have hk := k.x_lt
    simp (disch := omega) only [encodeKoloux, Option.some.injEq, Prod.mk.injEq, wordT_eq_iff, Fin.val_inj] at h
    obtain ⟨rfl, ho, rfl, rfl, rfl, rfl, hf⟩ := h
    have hh : fld w 6 3 = 1 := by rw [fld_6_3]; omega
    have hx : fld w 2 0 = k.x := by rw [fld_2_0]; omega
    simp [decodeWord, ho, decodeHub, hh, hx, kindOf_eq_some_iff.mpr rfl]
  | emit e g a b n =>
    simp (disch := omega) only [encodeKoloux, Option.some.injEq, Prod.mk.injEq, wordT_eq_iff, Fin.val_inj] at h
    obtain ⟨rfl, ho, hd, rfl, rfl, rfl, hf⟩ := h
    have hh : fld w 6 3 = 3 := by rw [fld_6_3]; omega
    have hx : fld w 2 0 = n.val := by rw [fld_2_0]; omega
    simp [decodeWord, ho, decodeHub, hh, hx, zeros, hd]
  | event e g a b n =>
    have hn := Bool.toNat_lt n
    simp (disch := omega) only [encodeKoloux, Option.some.injEq, Prod.mk.injEq, wordT_eq_iff, Fin.val_inj] at h
    obtain ⟨rfl, ho, hd, rfl, rfl, rfl, hf⟩ := h
    cases n <;> simp [decodeWord, ho, decodeHub, fld_6_3, fld_2_0, hf, zeros, hd]
  | tbread e g d a x =>
    simp (disch := omega) only [encodeKoloux, Option.some.injEq, Prod.mk.injEq, wordT_eq_iff, Fin.val_inj] at h
    obtain ⟨rfl, ho, rfl, rfl, hb, rfl, hf⟩ := h
    have hh : fld w 6 3 = 6 := by rw [fld_6_3]; omega
    have hx : fld w 2 0 = x.val := by rw [fld_2_0]; omega
    simp [decodeWord, ho, decodeHub, hh, hx, zeros, hb]
  | _ => nomatch h
theorem encodeKoloux_eq_some_iff : encodeKoloux i = some (e, w) ↔ decodeWord e w = some i :=
  ⟨decodeWord_of_encodeKoloux, fun h => spelt_decodeWord i h⟩

theorem issuedBy_of_decodeWord {j : Instr} (h : decodeWord e w = some i) : IssuedBy w e j ↔ j = i := by
  simp [IssuedBy, h, eq_comm]

theorem issuedBy_of_decodeWord_none {j : Instr} (h : decodeWord e w = none) : IssuedBy w e j ↔ j = .illegalInstruction e := by
  simp [IssuedBy, h]

/-- An OP that no format is assigned to (R186). -/
theorem decodeWord_unassigned (hgroup : opOf w ∉ [0, 1, 2, 3, 4, 5, 0x30])
    (hop : opOf w < 8 ∨ opOf w = 0x11 ∨ opOf w = 0x1F ∨ (0x25 ≤ opOf w ∧ opOf w < 0x28) ∨ 0x2A ≤ opOf w) : decodeWord e w = none := by
  simp only [List.mem_cons, List.not_mem_nil, or_false, not_or] at hgroup
  unfold decodeWord
  split
  case h_37 => rfl
  all_goals omega

end
end Sys2Proof

namespace Sys2Proof.Machine
open Sys2Proof

/-- Settles O60: the two directions of spelling are `decodeWord_of_encodeKoloux` and `spelt_decodeWord`; an engine issues what its word spells. -/
theorem kolouxWordsSpellInstructions : Obligations.KolouxWordsSpellInstructions := by
  unfold Obligations.KolouxWordsSpellInstructions
  refine ⟨fun _ _ _ => encodeKoloux_eq_some_iff, fun s e i w h hw j => ?spelt, fun s e h j => issuedBy_of_decodeWord_none h,
    fun _ _ => decodeWord_unassigned⟩
  case spelt =>
    subst hw
    exact issuedBy_of_decodeWord (encodeKoloux_eq_some_iff.mp h)

end Sys2Proof.Machine

namespace Sys2Proof.Machine
open Sys2Proof

/-! ### Instructions that only write the engine's registers (R185, R187 to R192) -/

section
variable {c : Instr} {s : State} {e : Fin 16} {g : Guard}

/-- A guarded instruction whose guard holds does what the unguarded one does (R185). -/
theorem State.kolouxReg_issued (hi : IssuesIf s e g) (f : EngSt → EngSt) : s.kolouxReg e g f = s.kolouxImm e f := State.koloux_issued hi

theorem Gives.of_registers {f : EngSt → EngSt} {P : State → Prop} (hc : exec c s = s.kolouxImm e f) (hi : Issues s e)
    (hpc : (f (s.eng e)).pc = (s.eng e).pc) (hP : P (s.setEng e { f (s.eng e) with pc := (s.eng e).pc + 1 })) : Gives c s P :=
  ⟨_, hc.trans (State.issue_done hi rfl hpc), hP⟩

theorem WritesW.of_imm {rd : WReg} {v : W64} (f : EngSt → W64) (hc : exec c s = s.kolouxImm e (fun en => en.setW rd (f en))) (hi : Issues s e)
    (hv : f (s.eng e) = v) : WritesW c s e rd v := by
  subst hv
  refine .of_registers hc hi (EngSt.setW_pc _ _ _) ?_
  rw [State.eng_setEng_self]
  refine ⟨fun r => ?_, congrArg (fun y : EngSt => { y with pc := (s.eng e).pc }) ((s.eng e).setW_frame rd _), rfl, .setEng s e _⟩
  simp only [Fin.ext_iff]
  exact (s.eng e).rw_setW rd r _

theorem WritesW.of_reg {rd : WReg} {v : W64} (f : EngSt → W64) (hc : exec c s = s.kolouxReg e g (fun en => en.setW rd (f en)))
    (hi : IssuesIf s e g) (hv : f (s.eng e) = v) : WritesW c s e rd v :=
  .of_imm f (hc.trans (State.kolouxReg_issued hi _)) hi.1 hv

end

/-! ### The results of the integer table (R187, R188) -/

theorem fdiv_two_pow (i : Int) (n : Nat) : Int.fdiv i ((2 : Int) ^ n) = i / 2 ^ n := Int.fdiv_eq_ediv_of_nonneg i (by positivity)

theorem satS_eq (n : Nat) (i : Int) : satS n i = max (-2 ^ (n - 1)) (min (2 ^ (n - 1) - 1) i) := by
  have hpos : (0 : Int) < 2 ^ (n - 1) := by positivity
  rw [satS, clampI_eq (by push_cast; omega)]
  push_cast
  rfl

theorem sat64_eq (i : Int) : sat64 i = BitVec.ofInt 64 (max (-2 ^ 63) (min (2 ^ 63 - 1) i)) := by rw [sat64, satS_eq]

theorem sshiftRight_eq_ofInt_div (a : W64) (n : Nat) : a.sshiftRight n = BitVec.ofInt 64 (a.toInt / 2 ^ n) := by
  rw [BitVec.sshiftRight, Int.shiftRight_eq_div_pow]
  rfl

theorem rorW_eq (a : W64) {n : Nat} (h : n < 64) : rorW a n = (a >>> n) ||| (a <<< (64 - n)) := by
  rw [rorW, BitVec.rotateRight_def, Nat.mod_eq_of_lt h]

theorem minS_eq (a b : W64) : minS a b = BitVec.ofInt 64 (min a.toInt b.toInt) := by
  rw [minS]
  split
  case isTrue h => rw [min_eq_left h, BitVec.ofInt_toInt]
  case isFalse h => rw [min_eq_right (by omega), BitVec.ofInt_toInt]

theorem maxS_eq (a b : W64) : maxS a b = BitVec.ofInt 64 (max a.toInt b.toInt) := by
  rw [maxS]
  split
  case isTrue h => rw [max_eq_right h, BitVec.ofInt_toInt]
  case isFalse h => rw [max_eq_left (by omega), BitVec.ofInt_toInt]

theorem minU_eq (a b : W64) : minU a b = BitVec.ofNat 64 (min a.toNat b.toNat) := by
  rw [minU]
  split
  case isTrue h => rw [min_eq_left h, BitVec.ofNat_toNat, BitVec.setWidth_eq]
  case isFalse h => rw [min_eq_right (by omega), BitVec.ofNat_toNat, BitVec.setWidth_eq]

theorem maxU_eq (a b : W64) : maxU a b = BitVec.ofNat 64 (max a.toNat b.toNat) := by
  rw [maxU]
  split
  case isTrue h => rw [max_eq_right h, BitVec.ofNat_toNat, BitVec.setWidth_eq]
  case isFalse h => rw [max_eq_left (by omega), BitVec.ofNat_toNat, BitVec.setWidth_eq]

theorem natAbs_eq_ite (i : Int) : (i.natAbs : Int) = if i < 0 then -i else i := by
  split <;> omega

theorem absSat_eq (a : W64) : absSat a = BitVec.ofInt 64 (max (-2 ^ 63) (min (2 ^ 63 - 1) (if a.toInt < 0 then -a.toInt else a.toInt))) := by
  rw [absSat, sat64_eq, natAbs_eq_ite]

/-- The leading zeros of a number of n bits, counted down from its highest bit. -/
theorem clzFrom_eq {v n : Nat} (h : v < 2 ^ n) : clzFrom v n = if v = 0 then n else n - 1 - v.log2 := by
  induction n with
  | zero =>
    obtain rfl : v = 0 := by omega
    rfl
  | succ n ih =>
    rw [clzFrom]
    split
    case isTrue hbit =>
      have hge : 2 ^ n ≤ v := Nat.ge_two_pow_of_testBit hbit
      have hpos : v ≠ 0 := (Nat.lt_of_lt_of_le (Nat.two_pow_pos n) hge).ne'
      have hlog : v.log2 = n := (Nat.log2_eq_iff hpos).mpr ⟨hge, h⟩
      rw [if_neg hpos, hlog]
      omega
    case isFalse hbit =>
      have hlt : v < 2 ^ n := by
        by_contra hge
        exact hbit (Nat.testBit_of_two_pow_le_and_two_pow_add_one_gt (Nat.le_of_not_lt hge) h)
      rw [ih hlt]
      split
      case isTrue => omega
      case isFalse hpos =>
        have hlog : v.log2 < n := (Nat.log2_lt hpos).mpr hlt
        omega

theorem clz_eq (a : W64) : clzFrom a.toNat 64 = if a = 0 then 64 else 63 - a.toNat.log2 := by
  rw [clzFrom_eq a.isLt]
  simp only [← BitVec.toNat_inj]
  rfl

theorem mul_eq_ofNat_mul (a b : W64) : a * b = BitVec.ofNat 64 (a.toNat * b.toNat) := by
  apply BitVec.eq_of_toNat_eq
  rw [BitVec.toNat_mul, BitVec.toNat_ofNat]

theorem popcount_eq (n v : Nat) : popcount n v = ((List.range n).filter (fun i => v.testBit i)).length := by
  rw [popcount, bitList, List.filter_map, List.length_map]
  rfl

theorem mulHS_eq (a b : W64) : mulHS a b = BitVec.ofInt 64 (a.toInt * b.toInt / 2 ^ 64) := by rw [mulHS, fdiv_two_pow]

theorem add_immS (a : W64) (imm : BitVec 16) : a + immS imm = BitVec.ofInt 64 (a.toInt + imm.toInt) := by
  rw [BitVec.ofInt_add, BitVec.ofInt_toInt]
  rfl

theorem immU_eq (imm : BitVec 16) : immU imm = BitVec.ofNat 64 imm.toNat := (BitVec.ofNat_toNat 64 imm).symm

theorem shiftLeft_eq_ofNat_mul (a : W64) (n : Nat) : a <<< n = BitVec.ofNat 64 (a.toNat * 2 ^ n) := by
  apply BitVec.eq_of_toNat_eq
  rw [BitVec.toNat_shiftLeft, BitVec.toNat_ofNat, Nat.shiftLeft_eq]

theorem ushiftRight_eq_ofNat_div (a : W64) (n : Nat) : a >>> n = BitVec.ofNat 64 (a.toNat / 2 ^ n) := by
  apply BitVec.eq_of_toNat_eq
  rw [BitVec.toNat_ushiftRight, BitVec.toNat_ofNat, Nat.shiftRight_eq_div_pow, Nat.mod_eq_of_lt (lt_of_le_of_lt (Nat.div_le_self _ _) a.isLt)]

/-- Settles O1: each instruction by the function it writes to rd, and that function by what it computes. -/
theorem kolouxIntegerResults : Obligations.KolouxIntegerResults := by
  unfold Obligations.KolouxIntegerResults
  refine ⟨fun e g rd ra rb s hi => ?guarded, fun e rd ra imm sh s hi => ?immediate⟩
  case guarded =>
    have hn : ((s.eng e).rw rb).toNat % 64 < 64 := Nat.mod_lt _ (by decide)
    exact ⟨.of_reg (fun en => en.rw ra + en.rw rb) rfl hi rfl,
      .of_reg (fun en => en.rw ra - en.rw rb) rfl hi rfl,
      .of_reg (fun en => en.rw ra &&& en.rw rb) rfl hi rfl,
      .of_reg (fun en => en.rw ra ||| en.rw rb) rfl hi rfl,
      .of_reg (fun en => en.rw ra ^^^ en.rw rb) rfl hi rfl,
      .of_reg (fun en => en.rw ra &&& ~~~ en.rw rb) rfl hi rfl,
      .of_reg (fun en => en.rw ra <<< shCount (en.rw rb)) rfl hi rfl,
      .of_reg (fun en => en.rw ra >>> shCount (en.rw rb)) rfl hi rfl,
      .of_reg (fun en => (en.rw ra).sshiftRight (shCount (en.rw rb))) rfl hi (sshiftRight_eq_ofInt_div _ _),
      .of_reg (fun en => rorW (en.rw ra) (shCount (en.rw rb))) rfl hi (rorW_eq _ hn),
      .of_reg (fun en => minS (en.rw ra) (en.rw rb)) rfl hi (minS_eq _ _),
      .of_reg (fun en => maxS (en.rw ra) (en.rw rb)) rfl hi (maxS_eq _ _),
      .of_reg (fun en => minU (en.rw ra) (en.rw rb)) rfl hi (minU_eq _ _),
      .of_reg (fun en => maxU (en.rw ra) (en.rw rb)) rfl hi (maxU_eq _ _),
      .of_reg (fun en => absSat (en.rw ra)) rfl hi (absSat_eq _),
      .of_reg (fun en => sat64 ((en.rw ra).toInt + (en.rw rb).toInt)) rfl hi (sat64_eq _),
      .of_reg (fun en => sat64 ((en.rw ra).toInt - (en.rw rb).toInt)) rfl hi (sat64_eq _),
      .of_reg (fun en => BitVec.ofNat 64 (clzFrom (en.rw ra).toNat 64)) rfl hi (congrArg _ (clz_eq _)),
      .of_reg (fun en => BitVec.ofNat 64 (popcount 64 (en.rw ra).toNat)) rfl hi (congrArg _ (popcount_eq _ _)),
      .of_reg (fun en => en.rw ra * en.rw rb) rfl hi (mul_eq_ofNat_mul _ _),
      .of_reg (fun en => mulHS (en.rw ra) (en.rw rb)) rfl hi (mulHS_eq _ _),
      .of_reg (fun en => mulHU (en.rw ra) (en.rw rb)) rfl hi rfl⟩
  case immediate =>
    exact ⟨.of_imm (fun en => en.rw ra + immS imm) rfl hi (add_immS _ _),
      .of_imm (fun en => en.rw ra &&& immU imm) rfl hi (congrArg _ (immU_eq imm)),
      .of_imm (fun en => en.rw ra ||| immU imm) rfl hi (congrArg _ (immU_eq imm)),
      .of_imm (fun en => en.rw ra ^^^ immU imm) rfl hi (congrArg _ (immU_eq imm)),
      .of_imm (fun en => en.rw ra <<< sh.val) rfl hi (shiftLeft_eq_ofNat_mul _ _),
      .of_imm (fun en => en.rw ra >>> sh.val) rfl hi (ushiftRight_eq_ofNat_div _ _),
      .of_imm (fun en => (en.rw ra).sshiftRight sh.val) rfl hi (sshiftRight_eq_ofInt_div _ _),
      .of_imm (fun _ => immS imm) rfl hi rfl,
      .of_imm (fun en => (en.rw ra <<< 16) ||| immU imm) rfl hi (congrArg₂ _ (shiftLeft_eq_ofNat_mul _ _) (immU_eq imm))⟩

end Sys2Proof.Machine

namespace Sys2Proof.Machine
open Sys2Proof

/-! ### What a predicate reads after a write (R180) -/

theorem testBit_add_two_pow_ne {v i j : Nat} (hv : v.testBit i = false) (h : j ≠ i) : (v + 2 ^ i).testBit j = v.testBit j := by
  have hpow : 2 ^ (i + 1) = 2 ^ i + 2 ^ i := by rw [Nat.pow_succ, Nat.mul_two]
  have hlow : v % 2 ^ (i + 1) < 2 ^ i := by
    by_contra hge
    have hbit := Nat.testBit_of_two_pow_le_and_two_pow_add_one_gt (Nat.le_of_not_lt hge) (Nat.mod_lt v (Nat.two_pow_pos (i + 1)))
    simp [hv] at hbit
  have hsum : v + 2 ^ i = 2 ^ (i + 1) * (v / 2 ^ (i + 1)) + (2 ^ i * 1 + v % 2 ^ (i + 1)) := by
    have := Nat.div_add_mod v (2 ^ (i + 1))
    omega
  rw [hsum, Nat.testBit_two_pow_mul_add _ (by omega)]
  split
  case isTrue hj => rw [Nat.testBit_two_pow_mul_add _ hlow, if_pos (by omega), Nat.testBit_mod_two_pow, decide_eq_true hj, Bool.true_and]
  case isFalse hj => rw [Nat.testBit_div_two_pow, Nat.sub_add_cancel (Nat.le_of_not_lt hj)]

theorem testBit_withBit_ne {v i j : Nat} (x : Bool) (h : j ≠ i) : (withBit v i x).testBit j = v.testBit j := by
  unfold withBit
  split
  case isTrue => rfl
  case isFalse hbit =>
    cases x
    case true => exact testBit_add_two_pow_ne (by simpa using hbit) h
    case false =>
      have hset : v.testBit i = true := by simpa using hbit
      have hv : v - 2 ^ i + 2 ^ i = v := Nat.sub_add_cancel (Nat.ge_two_pow_of_testBit hset)
      have hclear : (v - 2 ^ i).testBit i = false := by
        have hflip := Nat.testBit_two_pow_add_eq (v - 2 ^ i) i
        rw [Nat.add_comm, hv, hset] at hflip
        simpa using hflip.symm
      exact (testBit_add_two_pow_ne hclear h).symm.trans (by rw [hv])

theorem EngSt.rp_setP (en : EngSt) (d k : Nat) (b : Bool) : (en.setP d b).rp k = if k = d ∧ d ≠ 0 then b else en.rp k := by
  by_cases hd : d = 0
  · simp [EngSt.setP, hd]
  · by_cases hk : k = d
    · subst hk
      simp [EngSt.setP, EngSt.rp, hd, testBit_withBit_self]
    · simp [EngSt.setP, EngSt.rp, hd, hk, testBit_withBit_ne b hk]

theorem EngSt.setP_frame (en : EngSt) (d : Nat) (b : Bool) : { en.setP d b with p := en.p } = en := by
  unfold EngSt.setP
  split <;> rfl

@[simp] theorem EngSt.setP_pc (en : EngSt) (d : Nat) (b : Bool) : (en.setP d b).pc = en.pc := (congrArg EngSt.pc (en.setP_frame d b) :)

section
variable {c : Instr} {s : State} {e : Fin 16} {g : Guard} {pd : PReg} {b : Bool}

theorem WritesP.of_imm (f : EngSt → Bool) (hc : exec c s = s.kolouxImm e (fun en => en.setP pd (f en))) (hi : Issues s e)
    (hb : f (s.eng e) = b) : WritesP c s e pd b := by
  subst hb
  refine .of_registers hc hi (EngSt.setP_pc _ _ _) ?_
  rw [State.eng_setEng_self]
  refine ⟨fun k => ?_, congrArg (fun y : EngSt => { y with pc := (s.eng e).pc }) ((s.eng e).setP_frame pd _), rfl, .setEng s e _⟩
  simp only [Fin.ext_iff]
  exact (s.eng e).rp_setP pd k _

theorem WritesP.of_reg (f : EngSt → Bool) (hc : exec c s = s.kolouxReg e g (fun en => en.setP pd (f en))) (hi : IssuesIf s e g)
    (hb : f (s.eng e) = b) : WritesP c s e pd b :=
  .of_imm f (hc.trans (State.kolouxReg_issued hi _)) hi.1 hb

end

/-! ### Conditions of compares (R189) -/

theorem toInt_immS (imm : BitVec 16) : (immS imm).toInt = imm.toInt := BitVec.toInt_signExtend_of_le (by decide)

theorem toNat_immU (imm : BitVec 16) : (immU imm).toNat = imm.toNat := by
  rw [immU_eq, BitVec.toNat_ofNat]
  omega

theorem beq_eq_decide_toNat (a b : W64) : (a == b) = decide (a.toNat = b.toNat) := by
  rw [beq_eq_decide, decide_eq_decide, BitVec.toNat_inj]

theorem bne_eq_decide_toNat (a b : W64) : (a != b) = decide (a.toNat ≠ b.toNat) := by
  rw [bne, beq_eq_decide_toNat, decide_not]

theorem beq_immS (a : W64) (imm : BitVec 16) : (a == immS imm) = decide (a.toInt = imm.toInt) := by
  rw [beq_eq_decide, decide_eq_decide, ← toInt_immS, BitVec.toInt_inj]

theorem bne_immS (a : W64) (imm : BitVec 16) : (a != immS imm) = decide (a.toInt ≠ imm.toInt) := by
  rw [bne, beq_immS, decide_not]

/-! ### The special registers (R182, R190) -/

theorem EngSt.ckptWord_eq (en : EngSt) : en.ckptWord = BitVec.ofNat 64 (en.ckpts.length * 2 ^ 60 + en.oldest % 2 ^ 60) := by
  rw [EngSt.ckptWord, Nat.shiftLeft_eq]

/-- The predicates as the number that MFP and MTP pass, p0 as 1 (R190). -/
theorem testBit_mod_or_one (v i : Nat) : (v % 256 ||| 1).testBit i = (decide (i < 8) && (i == 0 || v.testBit i)) := by
  rw [Nat.testBit_or, show (256 : Nat) = 2 ^ 8 from rfl, Nat.testBit_mod_two_pow]
  cases i <;> simp [Nat.testBit_one_eq_true_iff_self_eq_zero]

theorem EngSt.getLsbD_predicates (en : EngSt) (i : Nat) : (BitVec.ofNat 64 (en.p % 256 ||| 1)).getLsbD i = (decide (i < 8) && en.rp i) := by
  rw [BitVec.getLsbD_ofNat, testBit_mod_or_one, EngSt.rp]
  by_cases hi : i < 8
  · rw [decide_eq_true (by omega : i < 64), Bool.true_and]
  · rw [decide_eq_false hi, Bool.false_and, Bool.and_false]

/-- The predicates after MTP (R190). -/
theorem EngSt.rp_of_word (en : EngSt) (a : W64) (k : PReg) :
    EngSt.rp { en with p := a.toNat % 256 ||| 1 } k = (k == 0 || a.getLsbD k) := by
  have hk : decide (k.val < 8) = true := decide_eq_true k.isLt
  have hz : (k.val == 0) = (k == 0) := by rw [beq_eq_decide, beq_eq_decide, decide_eq_decide, Fin.ext_iff]; rfl
  rw [EngSt.rp, testBit_mod_or_one, hk, hz, Bool.true_and, ← Bool.or_assoc, Bool.or_self]
  rfl

section
variable {s : State} {e : Fin 16} {g : Guard} {rd ra : WReg}

theorem mfp_writes (hi : IssuesIf s e g) : WritesW (.mfp e g rd) s e rd (BitVec.ofNat 64 ((s.eng e).p % 256 ||| 1)) :=
  .of_reg (fun en => BitVec.ofNat 64 (en.p % 256 ||| 1)) rfl hi rfl

theorem mtp_writes (hi : IssuesIf s e g) : Gives (.mtp e g ra) s (fun t =>
    (∀ k : PReg, (t.eng e).rp k = (k == 0 || ((s.eng e).rw ra).getLsbD k))
    ∧ { t.eng e with p := (s.eng e).p, pc := (s.eng e).pc } = s.eng e ∧ (t.eng e).pc = (s.eng e).pc + 1 ∧ OnlyEngine s t e) := by
  have hc : exec (.mtp e g ra) s = s.kolouxReg e g (fun en => { en with p := (en.rw ra).toNat % 256 ||| 1 }) := rfl
  refine .of_registers (hc.trans (State.kolouxReg_issued hi _)) hi.1 rfl ?_
  rw [State.eng_setEng_self]
  exact ⟨(s.eng e).rp_of_word _, rfl, rfl, .setEng s e _⟩

end

/-- Settles O2: a compare by its condition and mode, the others by the word or predicate they read. -/
theorem kolouxCompareAndSpecialResults : Obligations.KolouxCompareAndSpecialResults := by
  unfold Obligations.KolouxCompareAndSpecialResults
  refine ⟨?compares, fun e g rd ra pd pa pb s hi => ?special⟩
  case compares =>
    intro e g mode pd ra rb imm s hi a b old put
    have hput : ∀ x, cmpMode mode old x = put x := fun x => by fin_cases mode <;> rfl
    refine ⟨fun hg => ?registers, ?immediate⟩
    case registers =>
      have hif : IssuesIf s e g := ⟨hi, hg⟩
      exact ⟨.of_reg (fun en => cmpMode mode (en.rp pd) (en.rw ra == en.rw rb)) rfl hif (by rw [hput, beq_eq_decide_toNat]),
        .of_reg (fun en => cmpMode mode (en.rp pd) (en.rw ra != en.rw rb)) rfl hif (by rw [hput, bne_eq_decide_toNat]),
        .of_reg (fun en => cmpMode mode (en.rp pd) (decide ((en.rw ra).toInt < (en.rw rb).toInt))) rfl hif (hput _),
        .of_reg (fun en => cmpMode mode (en.rp pd) (decide ((en.rw rb).toInt ≤ (en.rw ra).toInt))) rfl hif (hput _),
        .of_reg (fun en => cmpMode mode (en.rp pd) (decide ((en.rw ra).toNat < (en.rw rb).toNat))) rfl hif (hput _),
        .of_reg (fun en => cmpMode mode (en.rp pd) (decide ((en.rw rb).toNat ≤ (en.rw ra).toNat))) rfl hif (hput _),
        .of_reg (fun en => cmpMode mode (en.rp pd) ((en.rw ra &&& en.rw rb) != 0)) rfl hif (by rw [hput, bne_eq_decide_toNat]; rfl)⟩
    case immediate =>
      exact ⟨.of_imm (fun en => cmpMode mode (en.rp pd) (en.rw ra == immS imm)) rfl hi (by rw [hput, beq_immS]),
        .of_imm (fun en => cmpMode mode (en.rp pd) (en.rw ra != immS imm)) rfl hi (by rw [hput, bne_immS]),
        .of_imm (fun en => cmpMode mode (en.rp pd) (decide ((en.rw ra).toInt < (immS imm).toInt))) rfl hi (by rw [hput, toInt_immS]),
        .of_imm (fun en => cmpMode mode (en.rp pd) (decide ((immS imm).toInt ≤ (en.rw ra).toInt))) rfl hi (by rw [hput, toInt_immS]),
        .of_imm (fun en => cmpMode mode (en.rp pd) (decide ((en.rw ra).toNat < (immU imm).toNat))) rfl hi (by rw [hput, toNat_immU]),
        .of_imm (fun en => cmpMode mode (en.rp pd) (decide ((immU imm).toNat ≤ (en.rw ra).toNat))) rfl hi (by rw [hput, toNat_immU])⟩
  case special =>
    refine ⟨.of_reg (fun en => en.rp pa && en.rp pb) rfl hi rfl,
      .of_reg (fun en => en.rp pa || en.rp pb) rfl hi rfl,
      .of_reg (fun en => en.rp pa ^^ en.rp pb) rfl hi rfl,
      .of_reg (fun en => en.rp pa && !en.rp pb) rfl hi rfl,
      .of_reg (fun en => en.sq) rfl hi rfl,
      .of_reg (fun en => BitVec.ofNat 64 en.slot) rfl hi rfl,
      .of_reg (fun en => en.ckptWord) rfl hi (EngSt.ckptWord_eq _),
      .of_reg (fun en => en.ecause) rfl hi rfl,
      (mfp_writes hi).mono fun t ht => ?_, mtp_writes hi⟩
    obtain ⟨hregs, hrest⟩ := ht
    refine ⟨fun hrd i => ?_, rfl, hrest⟩
    rw [hregs rd, if_pos ⟨rfl, hrd⟩]
    exact (s.eng e).getLsbD_predicates i

end Sys2Proof.Machine

namespace Sys2Proof.Machine
open Sys2Proof

/-! ### Packed lanes (R191) -/

section
variable (h4 : Bool) (a : W64) (i : Nat)

theorem laneU_eq : laneU h4 a i = (a.extractLsb' (laneWidth h4 * i) (laneWidth h4)).toNat := by
  rw [laneU, BitVec.extractLsb'_toNat, Nat.mul_comm]

theorem laneS_eq : laneS h4 a i = (a.extractLsb' (laneWidth h4 * i) (laneWidth h4)).toInt := by
  rw [laneS, laneU_eq, signed_toNat]
  cases h4 <;> decide

theorem laneU_lt : laneU h4 a i < 2 ^ laneWidth h4 := Nat.mod_lt _ (Nat.two_pow_pos _)

end

/-- Numbers below B put side by side: their sum stays below B^n, and each is read back as a digit. -/
theorem digits_sum {B n : Nat} (u : Nat → Nat) (hu : ∀ i, u i < B) :
    ((List.range n).map (fun i => u i * B ^ i)).sum < B ^ n
    ∧ ∀ i < n, ((List.range n).map (fun i => u i * B ^ i)).sum / B ^ i % B = u i := by
  have hB : 0 < B := Nat.zero_lt_of_lt (hu 0)
  induction n with
  | zero => simp
  | succ n ih =>
    obtain ⟨hlt, hdigit⟩ := ih
    have hpow := Nat.pow_pos hB (n := n)
    have hsum : ((List.range (n + 1)).map (fun i => u i * B ^ i)).sum = ((List.range n).map (fun i => u i * B ^ i)).sum + u n * B ^ n := by
      rw [List.range_succ, List.map_append, List.sum_append, List.map_singleton, List.sum_singleton]
    rw [hsum]
    refine ⟨?bound, fun i hi => ?digit⟩
    case bound =>
      have hmul := Nat.mul_le_mul_right (B ^ n) (hu n)
      rw [Nat.succ_mul] at hmul
      rw [Nat.pow_succ, Nat.mul_comm (B ^ n)]
      omega
    case digit =>
      obtain hin | rfl := Nat.lt_succ_iff_lt_or_eq.mp hi
      · have hsplit : u n * B ^ n = B ^ i * (B * (u n * B ^ (n - i - 1))) := by
          have hexp : B ^ n = B ^ i * B * B ^ (n - i - 1) := by rw [← Nat.pow_succ, ← Nat.pow_add]; congr 1; omega
          rw [hexp]
          ring
        rw [hsplit, Nat.add_mul_div_left _ _ (Nat.pow_pos hB), Nat.add_mul_mod_self_left, hdigit i hin]
      · rw [Nat.add_mul_div_right _ _ hpow, Nat.div_eq_of_lt hlt, Nat.zero_add, Nat.mod_eq_of_lt (hu i)]

theorem unsigned_lt (n : Nat) (i : Int) : unsigned n i < 2 ^ n := by
  rw [show unsigned n i = (BitVec.ofInt n i).toNat from (BitVec.toNat_ofInt i).symm]
  exact (BitVec.ofInt n i).isLt

/-- A packed word as the sum of its lanes. -/
theorem lanes_toNat (h4 : Bool) (f : Nat → Int) :
    (lanes h4 f).toNat = ((List.range (laneCount h4)).map (fun i => unsigned (laneWidth h4) (f i) * (2 ^ laneWidth h4) ^ i)).sum := by
  have hshift : (fun i => unsigned (laneWidth h4) (f i) <<< (i * laneWidth h4)) = fun i => unsigned (laneWidth h4) (f i) * (2 ^ laneWidth h4) ^ i := by
    funext i
    rw [Nat.shiftLeft_eq, Nat.mul_comm i, Nat.pow_mul]
  have hlt := (digits_sum (n := laneCount h4) (fun i => unsigned (laneWidth h4) (f i)) (fun i => unsigned_lt _ _)).1
  have hall : (2 ^ laneWidth h4) ^ laneCount h4 = 2 ^ 64 := by cases h4 <;> rw [← Nat.pow_mul] <;> rfl
  rw [lanes, hshift, BitVec.toNat_ofNat, Nat.mod_eq_of_lt (hall ▸ hlt)]

theorem laneCount_iff (h4 : Bool) (i : Nat) : i < laneCount h4 ↔ laneWidth h4 * i < 64 := by
  cases h4
  · simp only [laneCount, laneWidth, Bool.false_eq_true, if_false]; omega
  · simp only [laneCount, laneWidth, if_true]; omega

/-- Each lane of a packed result holds its own function value. -/
theorem extract_lanes (h4 : Bool) (f : Nat → Int) (i : Nat) (hi : laneWidth h4 * i < 64) :
    (lanes h4 f).extractLsb' (laneWidth h4 * i) (laneWidth h4) = BitVec.ofInt (laneWidth h4) (f i) := by
  have hdigit := (digits_sum (n := laneCount h4) (fun i => unsigned (laneWidth h4) (f i)) (fun i => unsigned_lt _ _)).2 i ((laneCount_iff h4 i).mpr hi)
  apply BitVec.eq_of_toNat_eq
  rw [BitVec.extractLsb'_toNat, BitVec.toNat_ofInt, Nat.shiftRight_eq_div_pow, lanes_toNat, Nat.pow_mul, hdigit, unsigned]

theorem satS_natAbs (n : Nat) (i : Int) : satS n i.natAbs = min (2 ^ (n - 1) - 1) (if i < 0 then -i else i) := by
  have hpos : (0 : Int) < 2 ^ (n - 1) := by positivity
  rw [satS_eq, ← natAbs_eq_ite]
  omega

theorem satU_eq (n : Nat) (i : Int) : satU n i = max 0 (min (2 ^ n - 1) i) := by
  have hpos : (0 : Int) < 2 ^ n := by positivity
  rw [satU, clampI_eq (by push_cast; omega)]
  push_cast
  rfl

theorem satU_add (n x y : Nat) : satU n ((x : Int) + y) = min (2 ^ n - 1) ((x : Int) + y) := by
  have hpos : (0 : Int) < 2 ^ n := by positivity
  rw [satU_eq]
  omega

theorem satU_sub {n x : Nat} (h : x < 2 ^ n) (y : Nat) : satU n ((x : Int) - y) = max 0 ((x : Int) - y) := by
  have hx : (x : Int) < 2 ^ n := by exact_mod_cast h
  rw [satU_eq]
  omega

theorem floorDiv_two_pow (i : Int) (n : Nat) : floorDiv i (2 ^ n) = i / 2 ^ n := by
  rw [floorDiv, ← fdiv_two_pow]
  push_cast
  rfl

section
variable {c : Instr} {s : State} {e : Fin 16} {g : Guard} {h4 : Bool} {rd : WReg}

/-- A packed instruction writes each lane of rd on its own. -/
theorem packed_writes {F : Nat → Int} (f : EngSt → Nat → Int) (hc : exec c s = s.kolouxReg e g (fun en => en.setW rd (lanes h4 (f en))))
    (hi : IssuesIf s e g) (hF : ∀ i, f (s.eng e) i = F i) :
    Gives c s (fun t =>
      (rd.val ≠ 0 → ∀ i, laneWidth h4 * i < 64 →
        ((t.eng e).rw rd).extractLsb' (laneWidth h4 * i) (laneWidth h4) = BitVec.ofInt (laneWidth h4) (F i)) ∧ (t.eng e).rw 0 = 0
      ∧ (∀ r : WReg, r ≠ rd → (t.eng e).rw r = (s.eng e).rw r)
      ∧ { t.eng e with w := (s.eng e).w, pc := (s.eng e).pc } = s.eng e ∧ (t.eng e).pc = (s.eng e).pc + 1 ∧ OnlyEngine s t e) := by
  refine (WritesW.of_reg _ hc hi rfl).mono fun t ht => ?_
  obtain ⟨hregs, hrest⟩ := ht
  refine ⟨fun hrd i hlane => ?_, rfl, fun r hr => ?_, hrest⟩
  · rw [hregs rd, if_pos ⟨rfl, hrd⟩, extract_lanes h4 _ i hlane, hF]
  · rw [hregs r, if_neg (fun h => hr h.1)]

end

/-- Settles O3: a packed result is the sum of its lanes, and each lane is read back from it by itself. -/
theorem kolouxPackedResults : Obligations.KolouxPackedResults := by
  unfold Obligations.KolouxPackedResults
  intro e g h4 rd ra rb s hi w laneI laneN n lane a b au bu
  have ha : ∀ i, laneS h4 ((s.eng e).rw ra) i = a i := laneS_eq h4 _
  have hb : ∀ i, laneS h4 ((s.eng e).rw rb) i = b i := laneS_eq h4 _
  have hau : ∀ i, laneU h4 ((s.eng e).rw ra) i = au i := laneU_eq h4 _
  have hbu : ∀ i, laneU h4 ((s.eng e).rw rb) i = bu i := laneU_eq h4 _
  have hlt := laneU_lt h4 ((s.eng e).rw ra)
  exact ⟨packed_writes (fun en i => laneS h4 (en.rw ra) i + laneS h4 (en.rw rb) i) rfl hi (fun i => by rw [ha, hb]),
    packed_writes (fun en i => laneS h4 (en.rw ra) i - laneS h4 (en.rw rb) i) rfl hi (fun i => by rw [ha, hb]),
    packed_writes (fun en i => satS (laneWidth h4) (laneS h4 (en.rw ra) i + laneS h4 (en.rw rb) i)) rfl hi (fun i => by rw [satS_eq, ha, hb]; rfl),
    packed_writes (fun en i => satS (laneWidth h4) (laneS h4 (en.rw ra) i - laneS h4 (en.rw rb) i)) rfl hi (fun i => by rw [satS_eq, ha, hb]; rfl),
    packed_writes (fun en i => satU (laneWidth h4) ((laneU h4 (en.rw ra) i : Int) + laneU h4 (en.rw rb) i)) rfl hi
      (fun i => by rw [satU_add, hau, hbu]; rfl),
    packed_writes (fun en i => satU (laneWidth h4) ((laneU h4 (en.rw ra) i : Int) - laneU h4 (en.rw rb) i)) rfl hi
      (fun i => by rw [satU_sub (hlt i), hau, hbu]),
    packed_writes (fun en i => if laneS h4 (en.rw ra) i ≤ laneS h4 (en.rw rb) i then laneS h4 (en.rw ra) i else laneS h4 (en.rw rb) i) rfl hi
      (fun i => by rw [ha, hb, min_def]),
    packed_writes (fun en i => if laneS h4 (en.rw ra) i ≤ laneS h4 (en.rw rb) i then laneS h4 (en.rw rb) i else laneS h4 (en.rw ra) i) rfl hi
      (fun i => by rw [ha, hb, max_def]),
    packed_writes (fun en i => satS (laneWidth h4) (laneS h4 (en.rw ra) i).natAbs) rfl hi (fun i => by rw [satS_natAbs, ha]; rfl),
    packed_writes (fun en i => laneU h4 (en.rw ra) i * (2 ^ shCount (en.rw rb) : Nat)) rfl hi (fun i => by rw [hau, ← Nat.cast_mul]; rfl),
    packed_writes (fun en i => floorDiv (laneS h4 (en.rw ra) i) (2 ^ shCount (en.rw rb))) rfl hi (fun i => by rw [floorDiv_two_pow, ha]; rfl),
    packed_writes (fun en i => (laneU h4 (en.rw ra) i >>> shCount (en.rw rb) : Nat)) rfl hi
      (fun i => by rw [Nat.shiftRight_eq_div_pow, hau]; rfl),
    packed_writes (fun en i => laneS h4 (en.rw ra) i * laneS h4 (en.rw rb) i) rfl hi (fun i => by rw [ha, hb]),
    packed_writes (fun en i => Int.fdiv (laneS h4 (en.rw ra) i * laneS h4 (en.rw rb) i) ((2 : Int) ^ laneWidth h4)) rfl hi
      (fun i => by rw [fdiv_two_pow, ha, hb]; rfl)⟩

end Sys2Proof.Machine

namespace Sys2Proof.Machine
open Sys2Proof

/-! ### What an accumulator reads after a write (R180, R192) -/

theorem EngSt.ra_setA (en : EngSt) (d k : Nat) (v : BitVec 128) : (en.setA d v).ra k = if k = d then v else en.ra k := by
  simp only [EngSt.setA, EngSt.ra, Sparse.get_set]

section
variable {c : Instr} {s : State} {e : Fin 16} {g : Guard} {ad : AReg} {v : BitVec 128}

theorem WritesA.of_reg (f : EngSt → BitVec 128) (hc : exec c s = s.kolouxReg e g (fun en => en.setA ad (f en))) (hi : IssuesIf s e g)
    (hv : f (s.eng e) = v) : WritesA c s e ad v := by
  subst hv
  refine .of_registers (hc.trans (State.kolouxReg_issued hi _)) hi.1 rfl ?_
  rw [State.eng_setEng_self]
  refine ⟨fun k => ?_, rfl, rfl, .setEng s e _⟩
  simp only [Fin.ext_iff]
  exact (s.eng e).ra_setA ad k _

end

theorem accAdd_natCast (a : BitVec 128) (n : Nat) : accAdd a (n : Nat) = a + BitVec.ofNat 128 n := by rw [accAdd, BitVec.ofInt_natCast]

theorem accAdd_neg (a : BitVec 128) (i : Int) : accAdd a (-i) = a - BitVec.ofInt 128 i := by rw [accAdd, BitVec.ofInt_neg, BitVec.sub_eq_add_neg]

theorem laneDot_eq (h4 : Bool) (a b : W64) :
    laneDot h4 a b = ((List.range (laneCount h4)).map (fun i => (a.extractLsb' (laneWidth h4 * i) (laneWidth h4)).toInt
      * (b.extractLsb' (laneWidth h4 * i) (laneWidth h4)).toInt)).sum := by
  simp only [laneDot, laneS_eq]

/-- Division by a power of two, rounded to nearest with ties to even, by quotient and remainder (R192). -/
theorem roundEven_two_pow (a : Int) (n : Nat) :
    roundEven a (2 ^ n) = if 2 * (a % 2 ^ n) < 2 ^ n then a / 2 ^ n else if 2 ^ n < 2 * (a % 2 ^ n) then a / 2 ^ n + 1
      else if a / 2 ^ n % 2 = 0 then a / 2 ^ n else a / 2 ^ n + 1 := by
  have hr : a - a / 2 ^ n * 2 ^ n = a % 2 ^ n := by rw [Int.emod_def, Int.mul_comm]
  simp only [roundEven, Nat.cast_pow, Nat.cast_ofNat, fdiv_two_pow, hr, gt_iff_lt]

/-- Settles O4: each sum by its product, MVA by the quotient and remainder of the accumulator. -/
theorem kolouxAccumulatorResults : Obligations.KolouxAccumulatorResults := by
  unfold Obligations.KolouxAccumulatorResults
  intro e g ad rd ra rb s hi a b acc dot n q r near
  have hnear : mvaWord acc n = BitVec.ofInt 64 (max (-2 ^ 63) (min (2 ^ 63 - 1) near)) := by
    rw [mvaWord, sat64_eq, roundEven_two_pow]
  exact ⟨.of_reg (fun en => accAdd (en.ra ad) ((en.rw ra).toInt * (en.rw rb).toInt)) rfl hi rfl,
    .of_reg (fun en => accAdd (en.ra ad) ((en.rw ra).toNat * (en.rw rb).toNat : Nat)) rfl hi (accAdd_natCast _ _),
    .of_reg (fun en => accAdd (en.ra ad) (-((en.rw ra).toInt * (en.rw rb).toInt))) rfl hi (accAdd_neg _ _),
    .of_reg (fun en => accAdd (en.ra ad) (laneDot false (en.rw ra) (en.rw rb))) rfl hi (congrArg _ (laneDot_eq false _ _)),
    .of_reg (fun en => accAdd (en.ra ad) (laneDot true (en.rw ra) (en.rw rb))) rfl hi (congrArg _ (laneDot_eq true _ _)),
    .of_reg (fun _ => 0) rfl hi rfl,
    .of_reg (fun en => mvaWord (en.ra ad) ((en.rw rb).toNat % 128)) rfl hi hnear,
    .of_reg (fun en => (en.ra ad).extractLsb' 64 64) rfl hi rfl,
    .of_reg (fun en => (en.ra ad).extractLsb' 0 64) rfl hi rfl,
    .of_reg (fun en => en.rw ra ++ (en.ra ad).extractLsb' 0 64) rfl hi rfl,
    .of_reg (fun en => (en.ra ad).extractLsb' 64 64 ++ en.rw ra) rfl hi rfl⟩

end Sys2Proof.Machine

namespace Sys2Proof.Machine
open Sys2Proof

/-! ### Branches, jumps and links (R197) -/

section
variable {s : State} {en : EngSt} {i : Int}

theorem jumpTo_inside (h0 : 0 ≤ i) (hlt : i < 16384) : jumpTo s en i = .jump s en i.toNat := if_pos ⟨h0, hlt⟩

theorem jumpTo_outside (h : i < 0 ∨ 16384 ≤ i) : jumpTo s en i = .raise .branchRange := if_neg (by omega)

end

section
variable {c : Instr} {s : State} {e : Fin 16} {body : State → EngSt → KRes} {en : EngSt} {i : Int}

theorem State.issue_jumpTo (hi : Issues s e) (hb : body s (s.eng e) = jumpTo s en i) (h0 : 0 ≤ i) (hlt : i < 16384) :
    s.issue e true body = .next (s.setEng e { en with pc := i.toNat }) := by
  simp only [State.issue, hi.issues, hb, jumpTo_inside h0 hlt, if_true]
  rw [State.retire, if_pos (by omega)]

theorem Jumps.of_done (hc : exec c s = s.issue e true body) (hi : Issues s e) (hb : body s (s.eng e) = .done s (s.eng e)) :
    Jumps c s e ((s.eng e).pc + 1) :=
  ⟨_, hc.trans (State.issue_done hi hb rfl), State.eng_setEng_self s _ _, .setEng s e _⟩

theorem Gives.of_jumpTo {P : State → Prop} (hc : exec c s = s.issue e true body) (hi : Issues s e) (hb : body s (s.eng e) = jumpTo s en i)
    (h0 : 0 ≤ i) (hlt : i < 16384) (hP : P (s.setEng e { en with pc := i.toNat })) : Gives c s P :=
  ⟨_, hc.trans (State.issue_jumpTo hi hb h0 hlt), hP⟩

theorem Jumps.of_jumpTo (hc : exec c s = s.issue e true body) (hi : Issues s e) (hb : body s (s.eng e) = jumpTo s (s.eng e) i) (h0 : 0 ≤ i)
    (hlt : i < 16384) : Jumps c s e i.toNat :=
  Gives.of_jumpTo hc hi hb h0 hlt ⟨State.eng_setEng_self s _ _, .setEng s e _⟩

/-- A jump that writes a link register (R197). -/
theorem jumpTo_links {r : WReg} {v : W64} (hc : exec c s = s.issue e true body) (hi : Issues s e)
    (hb : body s (s.eng e) = jumpTo s ((s.eng e).setW r v) i) (h0 : 0 ≤ i) (hlt : i < 16384) :
    Gives c s (fun t =>
      (∀ k : WReg, (t.eng e).rw k = if k = r ∧ r.val ≠ 0 then v else (s.eng e).rw k)
      ∧ { t.eng e with w := (s.eng e).w, pc := (s.eng e).pc } = s.eng e ∧ (t.eng e).pc = i.toNat ∧ OnlyEngine s t e) := by
  refine .of_jumpTo hc hi hb h0 hlt ?_
  rw [State.eng_setEng_self]
  refine ⟨fun k => ?_, congrArg (fun y : EngSt => { y with pc := (s.eng e).pc }) ((s.eng e).setW_frame r v), rfl, .setEng s e _⟩
  simp only [Fin.ext_iff]
  exact (s.eng e).rw_setW r k v

theorem Raises.of_jumpTo (hc : exec c s = s.issue e true body) (hi : Issues s e) (hv : NoVec s e) (hb : body s (s.eng e) = jumpTo s en i)
    (h : i < 0 ∨ 16384 ≤ i) : Raises c s e .branchRange :=
  ⟨_, hc.trans (State.issue_raise hi hv (hb.trans (jumpTo_outside h))), State.eng_setEng_self s _ _, .setEng s e _⟩

end

theorem exec_br (s : State) (e : Fin 16) (pc : PReg) (pn : Bool) (disp : BitVec 22) :
    exec (.br e pc pn disp) s = execBr e pc pn disp s := rfl

theorem exec_bl (s : State) (e : Fin 16) (pc : PReg) (pn : Bool) (disp : BitVec 22) :
    exec (.bl e pc pn disp) s = execBl e pc pn disp s := rfl

theorem exec_jr (s : State) (e : Fin 16) (g : Guard) (ra : WReg) :
    exec (.jr e g ra) s = s.koloux e g (fun s en => jumpTo s en (en.rw ra).toNat) := rfl

theorem exec_jrl (s : State) (e : Fin 16) (g : Guard) (rd ra : WReg) :
    exec (.jrl e g rd ra) s = s.koloux e g (fun s en => jumpTo s (en.setW rd (BitVec.ofNat 64 (en.pc + 1))) (en.rw ra).toNat) := rfl

/-- Settles O7: a branch past, a jump inside and a jump outside of the instruction memory, each with and without its link. -/
theorem kolouxBranches : Obligations.KolouxBranches := by
  unfold Obligations.KolouxBranches
  intro e g pc pn disp rd ra s hi hv en dest linked taken
  refine ⟨fun h => ?past, fun h h0 hlt => ?taken, fun h hout => ?outside, fun hg hlt => ?register, fun hg hge => ?far⟩
  case past =>
    have hnot : ¬ ((s.eng e).rp pc ^^ pn) = true := Bool.not_eq_true _ ▸ h
    exact ⟨.of_done (exec_br ..) hi (if_neg hnot), .of_done (exec_bl ..) hi (if_neg hnot)⟩
  case taken =>
    exact ⟨.of_jumpTo (exec_br ..) hi (if_pos h) h0 hlt, jumpTo_links (exec_bl ..) hi (if_pos h) h0 hlt⟩
  case outside =>
    exact ⟨.of_jumpTo (exec_br ..) hi hv (if_pos h) hout, .of_jumpTo (exec_bl ..) hi hv (if_pos h) hout⟩
  case register =>
    have hif : IssuesIf s e g := ⟨hi, hg⟩
    have hin : (((s.eng e).rw ra).toNat : Int) < 16384 := by exact_mod_cast hlt
    exact ⟨.of_jumpTo ((exec_jr ..).trans (State.koloux_issued hif)) hi rfl (Int.natCast_nonneg _) hin,
      jumpTo_links ((exec_jrl ..).trans (State.koloux_issued hif)) hi rfl (Int.natCast_nonneg _) hin⟩
  case far =>
    have hif : IssuesIf s e g := ⟨hi, hg⟩
    have hout : (16384 : Int) ≤ ((s.eng e).rw ra).toNat := by exact_mod_cast hge
    exact ⟨.of_jumpTo ((exec_jr ..).trans (State.koloux_issued hif)) hi hv rfl (.inr hout),
      .of_jumpTo ((exec_jrl ..).trans (State.koloux_issued hif)) hi hv rfl (.inr hout)⟩

end Sys2Proof.Machine

namespace Sys2Proof.Machine
open Sys2Proof

/-! ### WAITSLOT, FETCH, TBREAD and CKPT (R199 to R201, R207, R208) -/

theorem exec_waitslot (e : Fin 16) (g : Guard) (ra : WReg) (s : State) : exec (.waitslot e g ra) s = execWaitslot e g ra s := rfl

theorem exec_fetch (e : Fin 16) (g : Guard) (rd ra rb : WReg) (kind : WordKind) (s : State) :
    exec (.fetch e g rd ra rb kind) s = execFetch e g rd ra rb kind s := rfl

theorem exec_tbread (e : Fin 16) (g : Guard) (rd ra : WReg) (field : Fin 3) (s : State) :
    exec (.tbread e g rd ra field) s = execTbread e g rd ra field s := rfl

theorem exec_ckpt (e : Fin 16) (g : Guard) (s : State) : exec (.ckpt e g) s = execCkpt e g s := rfl

theorem fetchChan_eq (w : W64) : bits w 8 0 = w.toNat % 512 := lowBits_eq w 8

theorem baseSel_eq (w : W64) : bits w 2 0 = w.toNat % 8 := lowBits_eq w 2

section
variable {e : Fin 16} {g : Guard} {rd ra rb : WReg} {kind : WordKind} {s : State}

theorem waitslot_passes (hi : IssuesIf s e g) (h : ((s.eng e).rw ra).toNat ≤ s.clk.slot) : Jumps (.waitslot e g ra) s e ((s.eng e).pc + 1) :=
  .of_done ((exec_waitslot e g ra s).trans (State.koloux_issued hi)) hi.1 (if_pos h)

theorem waitslot_stalls (hi : IssuesIf s e g) (h : s.clk.slot < ((s.eng e).rw ra).toNat) : exec (.waitslot e g ra) s = .next s :=
  exec_stalls (exec_waitslot e g ra s) hi (if_neg (Nat.not_le_of_lt h))

theorem fetch_chan (hi : IssuesIf s e g) (hv : NoVec s e) (h : 391 < ((s.eng e).rw ra).toNat % 512) :
    Raises (.fetch e g rd ra rb kind) s e .fetchChan := by
  refine .of_body (exec_fetch e g rd ra rb kind s) hi hv ?_
  simp only [fetchChan_eq, if_pos h]

section
variable (hi : IssuesIf s e g) (hc : ((s.eng e).rw ra).toNat % 512 ≤ 391)
include hi hc

theorem fetch_word (h : s.bufferReady (((s.eng e).rw ra).toNat % 512) ((s.eng e).rw rb).toNat = true) :
    WritesW (.fetch e g rd ra rb kind) s e rd (s.fetchWord (((s.eng e).rw ra).toNat % 512) (kindIx kind) ((s.eng e).rw rb).toNat) := by
  refine .of_body (exec_fetch e g rd ra rb kind s) hi ?_
  simp only [fetchChan_eq, if_neg (Nat.not_lt_of_le hc), h, if_true]

variable (hready : s.bufferReady (((s.eng e).rw ra).toNat % 512) ((s.eng e).rw rb).toNat = false)
include hready

/-- A fetch that asks not to wait, or for an instant too far ahead, gives NOTYET (R200, R201). -/
theorem fetch_notYet (h : ((s.eng e).rw ra).getLsbD 16 = true ∨ s.clk.slot + 16 < ((s.eng e).rw rb).toNat + 6) :
    WritesW (.fetch e g rd ra rb kind) s e rd (statusWord 1 ((s.eng e).rw rb).toNat) := by
  refine .of_body (exec_fetch e g rd ra rb kind s) hi ?_
  simp only [fetchChan_eq, if_neg (Nat.not_lt_of_le hc), hready, Bool.false_eq_true, if_false]
  exact if_pos h

theorem fetch_stalls (hwait : ((s.eng e).rw ra).getLsbD 16 = false) (h : ((s.eng e).rw rb).toNat + 6 ≤ s.clk.slot + 16) :
    exec (.fetch e g rd ra rb kind) s = .next s := by
  refine exec_stalls (exec_fetch e g rd ra rb kind s) hi ?_
  have hnot : ¬ (((s.eng e).rw ra).getLsbD 16 = true ∨ s.clk.slot + 16 < ((s.eng e).rw rb).toNat + 6) := by
    rintro (hbit | hfar)
    · exact Bool.false_ne_true (hwait.symm.trans hbit)
    · omega
  simp only [fetchChan_eq, if_neg (Nat.not_lt_of_le hc), hready, Bool.false_eq_true, if_false]
  exact if_neg hnot

end

theorem tbread_sel (hi : IssuesIf s e g) (hv : NoVec s e) (field : Fin 3) (h : 4 < ((s.eng e).rw ra).toNat % 8) :
    Raises (.tbread e g rd ra field) s e .tbreadSel := by
  refine .of_body (exec_tbread e g rd ra field s) hi hv ?_
  simp only [baseSel_eq, if_pos h]

theorem tbread_reg (hi : IssuesIf s e g) (hv : NoVec s e) (field : Fin 3) (hsel : ((s.eng e).rw ra).toNat % 8 ≤ 4) (h : rd.val = 0 ∨ rd.val = 31) :
    Raises (.tbread e g rd ra field) s e .tbreadReg := by
  refine .of_body (exec_tbread e g rd ra field s) hi hv ?_
  simp only [baseSel_eq, if_neg (Nat.not_lt_of_le hsel), if_pos h]

theorem EngSt.setW_setW_frame (en : EngSt) (r k : Nat) (v x : W64) : { (en.setW r v).setW k x with w := en.w } = en :=
  (congrArg (fun y : EngSt => { y with w := en.w }) ((en.setW r v).setW_frame k x)).trans (en.setW_frame r v)

/-- TBREAD writes the two words of its field into rd and rd + 1 (R207). -/
theorem tbread_writes (hi : IssuesIf s e g) (field : Fin 3) (hsel : ((s.eng e).rw ra).toNat % 8 ≤ 4) (hlow : 1 ≤ rd.val) (hhigh : rd.val ≤ 30) :
    let base := if ((s.eng e).rw ra).toNat % 8 = 4 then s.sampTb else ((s.eng e).rw ra).toNat % 8
    Gives (.tbread e g rd ra field) s (fun t =>
      (∀ k : Nat, (t.eng e).rw k = if k = rd.val then (s.tbPair base field).1 else if k = rd.val + 1 then (s.tbPair base field).2
        else (s.eng e).rw k)
      ∧ { t.eng e with w := (s.eng e).w, pc := (s.eng e).pc } = s.eng e ∧ (t.eng e).pc = (s.eng e).pc + 1 ∧ OnlyEngine s t e) := by
  intro base
  have hreg : ¬ (rd.val = 0 ∨ rd.val = 31) := by omega
  refine .of_done (t := s) (en := ((s.eng e).setW rd (s.tbPair base field).1).setW (rd.val + 1) (s.tbPair base field).2) (exec_tbread e g rd ra field s) hi ?_
    (by simp only [EngSt.setW_pc]) ?_
  · simp only [baseSel_eq, if_neg (Nat.not_lt_of_le hsel), if_neg hreg]
    rfl
  · rw [State.eng_setEng_self]
    refine ⟨fun k => ?_, congrArg (fun y : EngSt => { y with pc := (s.eng e).pc }) (EngSt.setW_setW_frame (s.eng e) _ _ _ _), rfl, .setEng s e _⟩
    refine (EngSt.rw_setW ((s.eng e).setW rd (s.tbPair base field).1) _ k _).trans ?_
    rw [EngSt.rw_setW]
    grind

theorem ckpt_begins (hi : IssuesIf s e g)
    (hroom : (s.eng e).slot + 1 ≤ s.clk.slot + s.effF (Reg.ENG_CTL_AHEAD (s.logical e)) ∧ (s.eng e).ckpts.length < 8)
    (hswitch : s.upd.switches.get (fun _ => 0) (s.logical e) ≠ (s.eng e).slot + 1) :
    Gives (.ckpt e g) s (fun t => t.eng e = { (s.eng e).nextSlot ((s.eng e).pc + 1) with pc := (s.eng e).pc + 1 } ∧ OnlyEngine s t e) := by
  refine .of_done (exec_ckpt e g s) hi ((if_pos hroom).trans (if_neg fun h => hswitch h.1)) rfl ⟨State.eng_setEng_self s _ _, .setEng s e _⟩

theorem ckpt_stalls (hi : IssuesIf s e g)
    (hroom : ¬ ((s.eng e).slot + 1 ≤ s.clk.slot + s.effF (Reg.ENG_CTL_AHEAD (s.logical e)) ∧ (s.eng e).ckpts.length < 8)) :
    exec (.ckpt e g) s = .next s :=
  exec_stalls (exec_ckpt e g s) hi (if_neg hroom)

end

/-- Settles O8: the four instructions by the tests they make in order. -/
theorem kolouxStallsAndReads : Obligations.KolouxStallsAndReads := by
  unfold Obligations.KolouxStallsAndReads
  intro e g rd ra rb kind s hi hv en a c m l room
  refine ⟨waitslot_passes hi, waitslot_stalls hi, fetch_chan hi hv, fetch_word hi, fetch_notYet hi, fetch_stalls hi, tbread_sel hi hv,
    tbread_reg hi hv, fun field hsel hlow hhigh => ?field, fun hsel hlow hhigh => ?slot, ckpt_begins hi, ckpt_stalls hi⟩
  case field =>
    refine (tbread_writes hi field hsel hlow hhigh).mono fun t ht => ?_
    obtain ⟨hregs, hrest⟩ := ht
    exact ⟨(hregs rd).trans (if_pos rfl), (hregs (rd.val + 1)).trans ((if_neg (by omega)).trans (if_pos rfl)), hrest⟩
  case slot =>
    refine (tbread_writes hi 1 hsel hlow hhigh).mono fun t ht => ?_
    obtain ⟨hregs, hrest⟩ := ht
    refine ⟨fun k => (hregs k).trans ?_, hrest⟩
    simp only [Fin.ext_iff]
    rfl

end Sys2Proof.Machine

namespace Sys2Proof.Machine
open Sys2Proof

/-! ### What TRG_STAT.STATE of a unit leaves alone (R224) -/

section
variable (s : State) (u st : Nat)

theorem State.trgState_setTrg (h : st < 16) : (s.setTrg u st).trgState u = st := (s.setTrg_spec u st h).1

theorem State.setTrg_frame : { s.setTrg u st with regs := s.regs } = s := rfl

theorem State.reg_setTrg {a : Nat} (h : a < 0xE00) : (s.setTrg u st).reg a = s.reg a := by
  have hput : ∀ (t : State) (f : Fld) (v : Nat), 0xE00 ≤ f.addr → (t.setF f v).reg a = t.reg a := fun t f v hf => State.reg_setF_ne t f v (by omega)
  unfold State.setTrg
  refine (hput _ Reg.CAP_STATUS_REARM _ (by decide)).trans ((hput _ Reg.CAP_STATUS_OPEN _ (by decide)).trans
    ((hput _ Reg.CAP_STATUS_ARMED _ (by decide)).trans (hput _ (Reg.TRG_STAT_STATE u) _ ?_)))
  simp only [Reg.TRG_STAT_STATE, Reg.TRG_STAT]
  omega

theorem State.logSlot_setTrg : (s.setTrg u st).logSlot = s.logSlot :=
  State.logSlot_congr (fun _ _ h => s.reg_setTrg u st (by omega)) rfl

end

theorem State.descState_congr {s t : State} (h : t.cap.descs = s.cap.descs) (i : Nat) : t.descState i = s.descState i := by
  rw [State.descState, State.desc, h, ← State.desc, ← State.descState]

theorem State.desc_congr {s t : State} (h : t.cap.descs = s.cap.descs) (i w : Nat) : t.desc i w = s.desc i w := by
  rw [State.desc, h, ← State.desc]

theorem State.descState_setTrg (s : State) (u st i : Nat) : (s.setTrg u st).descState i = s.descState i := State.descState_congr rfl i

theorem State.desc_setTrg (s : State) (u st i w : Nat) : (s.setTrg u st).desc i w = s.desc i w := State.desc_congr rfl i w

theorem State.cap_setTrg (s : State) (u st : Nat) : (s.setTrg u st).cap = s.cap := rfl

theorem State.evt_setTrg (s : State) (u st : Nat) : (s.setTrg u st).evt = s.evt := rfl

theorem State.descs_setUnit (s : State) (k : Nat) (x : TrigSt) : (s.setUnit k x).cap.descs = s.cap.descs := rfl

/-! ### A re-arm refused (R224) -/

section
variable (s : State) (u next : Nat) (c : Cond)

theorem State.trgState_refuseRearm : (s.refuseRearm u next c).trgState u = 0 := by
  refine (State.getF_log _ _ _ _ _ ?_).trans (s.trgState_setTrg u 0 (by decide))
  simp only [evtReg, Reg.TRG_STAT_STATE, Reg.TRG_STAT, Reg.EVT_INT, Reg.EVT_CNT, Bool.or_eq_false_iff, beq_eq_false_iff_ne]
  omega

theorem State.cap_refuseRearm : (s.refuseRearm u next c).cap = s.cap := (State.logTo_cap _ _ _ _ _).trans (s.cap_setTrg u 0)

theorem State.refuseRearm_logged : Logged s (s.refuseRearm u next c) .CAP_REARM_REFUSED u (BitVec.ofNat 64 next) (BitVec.ofNat 64 c.code) :=
  (State.logged_log (s.setTrg u 0) .CAP_REARM_REFUSED u [BitVec.ofNat 64 next, BitVec.ofNat 64 c.code] (show 2 ≤ 6 by decide)).of_same
    (s.evt_setTrg u 0) (s.logSlot_setTrg u 0)

end

/-! ### Arming (R223, R224) -/

/-- A unit whose work is replaced and which names a descriptor. -/
def State.withWork (s : State) (u i : Nat) (x : TrigSt) : State := (s.setUnit u x).setF (Reg.TRG_STAT_DESC u) i

theorem State.armAt_eq (s : State) (u i at_ : Nat) : ∃ x : TrigSt, x.armAt = at_
    ∧ s.armAt u i at_ = if i = 255 then (s.withWork u i x).setTrg u 2 else ((s.withWork u i x).setDescState i 1).setTrg u 1 := ⟨_, rfl, rfl⟩

theorem State.unit_withWork (s : State) (u i : Nat) (x : TrigSt) : (s.withWork u i x).unit u = x := s.unit_setUnit_self u x

theorem State.trgDesc_withWork (s : State) (u : Nat) {i : Nat} (x : TrigSt) (hi : i < 256) : (s.withWork u i x).trgDesc u = i :=
  (State.getF_setF_self _ (Reg.TRG_STAT_DESC u) i (show 55 < 64 by decide)).trans (Nat.mod_eq_of_lt hi)

theorem State.trgDesc_setTrg (s : State) (u : Nat) {st : Nat} (h : st < 16) : (s.setTrg u st).trgDesc u = s.trgDesc u :=
  (s.setTrg_spec u st h).2 (Reg.TRG_STAT_DESC u) rfl (show 55 < 60 by decide)

/-- A unit armed with a descriptor index of 8 bits. -/
theorem State.armAt_spec (s : State) (u at_ : Nat) {i : Nat} (hi : i < 256) :
    (s.armAt u i at_).trgDesc u = i ∧ ((s.armAt u i at_).unit u).armAt = at_ ∧ (i = 255 → (s.armAt u i at_).trgState u = 2)
      ∧ (i ≠ 255 → (s.armAt u i at_).trgState u = 1 ∧ (s.armAt u i at_).descState i = 1) := by
  obtain ⟨x, hx, harm⟩ := s.armAt_eq u i at_
  rw [harm]
  split
  case isTrue h =>
    refine ⟨(State.trgDesc_setTrg _ u (by decide)).trans (s.trgDesc_withWork u x hi), ?_, fun _ => State.trgState_setTrg _ u 2 (by decide),
      fun hne => absurd h hne⟩
    rw [State.unit_setTrg, State.unit_withWork, hx]
  case isFalse h =>
    refine ⟨?_, ?_, fun he => absurd he h, fun _ => ⟨State.trgState_setTrg _ u 1 (by decide), ?_⟩⟩
    · rw [State.trgDesc_setTrg _ u (by decide), State.trgDesc, State.setDescState, State.getF_setDesc]
      exact s.trgDesc_withWork u x hi
    · rw [State.unit_setTrg, State.setDescState, State.unit_setDesc, State.unit_withWork, hx]
    · exact (State.descState_setTrg _ u 1 i).trans (State.descState_setDescState _ i 1 (by decide))

section
variable {s : State} {port : Port} {u : Fin 8} {desc : BitVec 8}

theorem triggerArm_closed (h : s.portOpen port (Reg.TRG_CTL u) = false) : exec (.triggerArm port u desc) s = .next s :=
  if_neg (Bool.not_eq_true _ ▸ h)

theorem triggerDisarm_closed (h : s.portOpen port (Reg.TRG_CTL u) = false) : exec (.triggerDisarm port u) s = .next s :=
  if_neg (Bool.not_eq_true _ ▸ h)

section
variable (hopen : s.portOpen port (Reg.TRG_CTL u) = true)
include hopen

theorem triggerArm_observer (hc : s.classOf port = 0) : Refuses (.triggerArm port u desc) s .SYS_AUTH_DENIED u (Reg.TRG_CTL u) port :=
  .of_exec ((if_pos hopen).trans (if_pos (by omega)))

theorem triggerDisarm_observer (hc : s.classOf port = 0) : Refuses (.triggerDisarm port u) s .SYS_AUTH_DENIED u (Reg.TRG_CTL u) port :=
  .of_exec ((if_pos hopen).trans (if_pos (by omega)))

variable (hc : 1 ≤ s.classOf port)
include hc

theorem triggerArm_mirrored (hm : s.mirrored port = true) : Refuses (.triggerArm port u desc) s .PAIR_MIRRORED u (Reg.TRG_CTL u) port :=
  .of_exec ((if_pos hopen).trans ((if_neg (by omega)).trans (if_pos hm)))

variable (hm : s.mirrored port = false)
include hm

theorem exec_triggerArm : exec (.triggerArm port u desc) s = .next (s.arm false port u desc.toNat).1 :=
  (if_pos hopen).trans ((if_neg (by omega)).trans (if_neg (Bool.not_eq_true _ ▸ hm)))

theorem triggerArm_mode (hmode : s.summitLike = false) : Refuses (.triggerArm port u desc) s .TRG_ARM_MODE u desc.toNat port := by
  refine .of_exec ((exec_triggerArm hopen hc hm).trans ?_)
  have htests : s.armTests false u desc.toNat = some .TRG_ARM_MODE := by rw [State.armTests, hmode]; rfl
  rw [State.arm, htests]
  rfl

theorem triggerArm_arms (h : s.armTests false u desc.toNat = none) :
    Gives (.triggerArm port u desc) s (fun t => t.trgDesc u = desc.toNat ∧ (t.unit u).armAt = s.edgeNow + 1
      ∧ (desc.toNat = 255 → t.trgState u = 2) ∧ (desc.toNat ≠ 255 → t.trgState u = 1 ∧ t.descState desc.toNat = 1)) := by
  refine ⟨_, exec_triggerArm hopen hc hm, ?_⟩
  rw [State.arm, h]
  exact s.armAt_spec u _ desc.isLt

/-- With no trigger left to take, a disarm acts on the unit at once (R224, R233). -/
theorem exec_triggerDisarm (hp : s.nextPoint u = none) (ht : s.nextTimeout u = none) : exec (.triggerDisarm port u) s = .next (s.disarm u) := by
  have hbefore : s.takeBefore u s.nextEdge (s.trigFuel u) = s := by rw [State.trigFuel, State.takeBefore, hp, ht]
  refine (if_pos hopen).trans ((if_neg (by omega)).trans ((if_neg (Bool.not_eq_true _ ▸ hm)).trans ?_))
  rw [hbefore]

variable (hp : s.nextPoint u = none) (ht : s.nextTimeout u = none)
include hp ht

theorem triggerDisarm_waiting (hst : s.trgState u = 1 ∨ s.trgState u = 2) (hi : s.trgDesc u ≠ 255) :
    Gives (.triggerDisarm port u) s (fun t => t.trgState u = 0 ∧ t.descState (s.trgDesc u) = 4) := by
  refine ⟨_, exec_triggerDisarm hopen hc hm hp ht, ?_⟩
  have hdis : s.disarm u = (s.setDescState (s.trgDesc u) 4).setTrg u 0 := by
    unfold State.disarm
    dsimp only
    rw [if_pos hst, if_neg hi]
  rw [hdis]
  exact ⟨State.trgState_setTrg _ u 0 (by decide), (State.descState_setTrg _ u 0 _).trans (s.descState_setDescState _ 4 (by decide))⟩

theorem triggerDisarm_open (hst : s.trgState u = 3) :
    Gives (.triggerDisarm port u) s (fun t => t.trgState u = 3 ∧ (t.unit u).noRearm = true ∧ (t.unit u).disarmed = true) := by
  refine ⟨_, exec_triggerDisarm hopen hc hm hp ht, ?_⟩
  have hdis : s.disarm u = s.setUnit u { s.unit u with noRearm := true, disarmed := true } := by
    unfold State.disarm
    dsimp only
    rw [if_neg (by omega), if_pos hst]
  have hunit := s.unit_setUnit_self u { s.unit u with noRearm := true, disarmed := true }
  rw [hdis]
  exact ⟨(State.getF_congr rfl _).trans hst, congrArg TrigSt.noRearm hunit, congrArg TrigSt.disarmed hunit⟩

end

/-! ### The course of a record (R224, R225) -/

theorem prefillComplete_ready (hst : s.trgState u = 1) (h : s.descPre (s.trgDesc u) ≤ (s.unit u).nFrames) :
    Gives (.prefillComplete u) s (fun t => t.trgState u = 2 ∧ { t with regs := s.regs } = s) :=
  ⟨_, if_pos ⟨hst, h⟩, s.trgState_setTrg u 2 (by decide), s.setTrg_frame u 2⟩

theorem recordPostComplete_ends (hst : s.trgState u = 3) (h : (s.unit u).trig + (s.unit u).post ≤ (s.unit u).nFrames) :
    Gives (.recordPostComplete u) s (fun t => t.trgState u = (if s.descSpill (s.trgDesc u) = true then 4 else 5) ∧ { t with regs := s.regs } = s) :=
  ⟨_, if_pos ⟨hst, h⟩, s.trgState_setTrg u _ (by split <;> decide), s.setTrg_frame u _⟩

end

/-! ### The write-back (R221, R227) -/

/-- STATE of a word 3 put together from its parts. -/
theorem bits_word3 {flags u src d : Nat} (hf : flags < 2 ^ 10) (hu : u < 8) (hsrc : src < 2 ^ 9) (hd : d < 2 ^ 32) :
    bits (BitVec.ofNat 64 (3 <<< 60 + flags <<< 48 + u <<< 44 + src <<< 32 + d)) 63 60 = 3 := by
  rw [bits_eq_div_mod, BitVec.toNat_ofNat, Nat.shiftLeft_eq, Nat.shiftLeft_eq, Nat.shiftLeft_eq, Nat.shiftLeft_eq]
  omega

theorem b2n_le_one (b : Bool) : b2n b ≤ 1 := by cases b <;> decide

theorem State.recordFlags_lt (s : State) (u i : Nat) : s.recordFlags u i < 2 ^ 10 := by
  have hb := b2n_le_one
  unfold State.recordFlags
  extract_lets x from_
  have h0 := hb (decide (x.trig - x.kept < s.descPre i))
  have h1 := hb (s.descSpill i)
  have h2 := hb x.ovr
  have h3 := hb x.cut
  have h4 := hb (decide (0 < x.secs))
  have h5 := hb (from_ x.railed)
  have h6 := hb (from_ x.unlocked)
  have h7 := hb x.disarmed
  have h8 := hb x.modeExit
  omega

theorem State.trgSrc_lt (s : State) (u : Nat) : s.trgSrc u < 2 ^ 9 := Nat.mod_lt _ (Nat.two_pow_pos 9)

/-- Word 3 of a descriptor at its close. -/
def State.closeWord (s : State) (u i : Nat) : W64 :=
  BitVec.ofNat 64 (3 <<< 60 + s.recordFlags u i <<< 48 + u <<< 44 + s.trgSrc u <<< 32 + ((s.unit u).trig - (s.unit u).kept))

theorem State.writeBack_eq (s : State) (u i : Nat) : ∃ v8 v9 v11 v12 v13 v14 v15 : W64,
    s.writeBack u i = (((((((((s.setDesc i 3 (s.closeWord u i)).setDesc i 8 v8).setDesc i 9 v9).setDesc i 10 (BitVec.ofNat 64 (s.unit u).post)).setDesc
      i 11 v11).setDesc i 12 v12).setDesc i 13 v13).setDesc i 14 v14).setDesc i 15 v15) := ⟨_, _, _, _, _, _, _, rfl⟩

/-- From s to t nothing changes but words of descriptors. -/
def State.OnlyDescs (s t : State) : Prop := { t with cap := { t.cap with descs := s.cap.descs } } = s

theorem State.OnlyDescs.setDesc {s t : State} (h : s.OnlyDescs t) (i w : Nat) (v : W64) : s.OnlyDescs (t.setDesc i w v) := h

section
variable {s t : State} (h : s.OnlyDescs t)
include h

theorem State.OnlyDescs.regs : t.regs = s.regs := (congrArg State.regs h :)

theorem State.OnlyDescs.evt : t.evt = s.evt := (congrArg State.evt h :)

theorem State.OnlyDescs.clk : t.clk = s.clk := (congrArg State.clk h :)

theorem State.OnlyDescs.units : t.cap.units = s.cap.units := (congrArg (fun x => x.cap.units) h :)

theorem State.OnlyDescs.rseq : t.cap.rseq = s.cap.rseq := (congrArg (fun x => x.cap.rseq) h :)

end

theorem State.writeBack_onlyDescs (s : State) (u i : Nat) : s.OnlyDescs (s.writeBack u i) := by
  obtain ⟨v8, v9, v11, v12, v13, v14, v15, h⟩ := s.writeBack_eq u i
  have h0 : s.OnlyDescs s := rfl
  rw [h]
  exact ((((((((h0.setDesc _ _ _).setDesc _ _ _).setDesc _ _ _).setDesc _ _ _).setDesc _ _ _).setDesc _ _ _).setDesc _ _ _).setDesc _ _ _).setDesc _ _ _

theorem State.writeBack_desc (s : State) {u : Nat} (i : Nat) (hu : u < 8) (hpre : (s.unit u).trig - (s.unit u).kept < 2 ^ 32) :
    (s.writeBack u i).descState i = 3 ∧ (s.writeBack u i).desc i 10 = BitVec.ofNat 64 (s.unit u).post
      ∧ (s.writeBack u i).desc i 1 = s.desc i 1 := by
  obtain ⟨v8, v9, v11, v12, v13, v14, v15, h⟩ := s.writeBack_eq u i
  have hstate : bits (s.closeWord u i) 63 60 = 3 := bits_word3 (s.recordFlags_lt u i) hu (s.trgSrc_lt u) hpre
  rw [h, State.descState]
  simp [State.desc_setDesc, hstate]

/-- From s to t nothing changes but registers and the event log. -/
def State.OnlyLog (s t : State) : Prop := { t with regs := s.regs, evt := s.evt } = s

theorem State.OnlyLog.refl (s : State) : s.OnlyLog s := rfl

theorem State.OnlyLog.log (s : State) (c : Cond) (u : Nat) (l : List W64) : s.OnlyLog (s.log c u l) := State.logTo_frame s _ _ _ _

section
variable {s t : State} (h : s.OnlyLog t)
include h

theorem State.OnlyLog.cap : t.cap = s.cap := (congrArg State.cap h :)

theorem State.OnlyLog.clk : t.clk = s.clk := (congrArg State.clk h :)

/-- The tests of a re-arm read no register of the event log and no record of it. -/
theorem State.OnlyLog.armRecord (hen : ∀ k, t.flag (Reg.FC_CFG_EN k) = s.flag (Reg.FC_CFG_EN k)) (i : Nat) : t.armRecord i = s.armRecord i := by
  obtain ⟨r, v, rfl⟩ : ∃ r v, s = { t with regs := r, evt := v } := ⟨_, _, h.symm⟩
  unfold State.armRecord
  simp only [hen]
  rfl

end

/-! ### The close of a record (R224, R227, R230) -/

/-- The hub with one record more counted. -/
def State.counted (s : State) : State := { s with cap := { s.cap with rseq := s.cap.rseq + 1 } }

/-- The hub with a record's words written back under its sequence number. -/
def State.written (s : State) (u : Nat) : State := s.counted.writeBack u (s.trgDesc u)

/-- The hub with a record's words written back, and CAP_CLOSED logged where NOTIFY asks for it. -/
def State.closed (s : State) (u : Nat) : State :=
  if bit (s.desc (s.trgDesc u) 1) 9 then
    (s.written u).log .CAP_CLOSED u [BitVec.ofNat 64 (s.trgDesc u), BitVec.ofNat 64 (s.written u).cap.rseq]
  else s.written u

section
variable (s : State) (u : Nat)

theorem State.written_onlyDescs : s.counted.OnlyDescs (s.written u) := State.writeBack_onlyDescs _ _ _

theorem State.written_regs : (s.written u).regs = s.regs := (s.written_onlyDescs u).regs

theorem State.written_evt : (s.written u).evt = s.evt := (s.written_onlyDescs u).evt

theorem State.written_clk : (s.written u).clk = s.clk := (s.written_onlyDescs u).clk

theorem State.written_units : (s.written u).cap.units = s.cap.units := (s.written_onlyDescs u).units

theorem State.written_rseq : (s.written u).cap.rseq = s.cap.rseq + 1 := (s.written_onlyDescs u).rseq

theorem State.reg_written (a : Nat) : (s.written u).reg a = s.reg a := by rw [State.reg, s.written_regs, ← State.reg]

theorem State.logSlot_written : (s.written u).logSlot = s.logSlot := State.logSlot_congr (fun _ _ _ => s.reg_written u _) (s.written_clk u)

theorem State.closed_onlyLog : (s.written u).OnlyLog (s.closed u) := by
  unfold State.closed
  split
  · exact .log _ _ _ _
  · exact .refl _

theorem State.closed_cap : (s.closed u).cap = (s.written u).cap := (s.closed_onlyLog u).cap

theorem State.closed_clk : (s.closed u).clk = s.clk := (s.closed_onlyLog u).clk.trans (s.written_clk u)

theorem State.unit_closed (k : Nat) : (s.closed u).unit k = s.unit k :=
  State.unit_congr ((congrArg CapSt.units (s.closed_cap u)).trans (s.written_units u)) k

theorem State.reg_closed {a : Nat} (h : evtReg a = false) : (s.closed u).reg a = s.reg a := by
  unfold State.closed
  split
  · rw [State.reg_log _ _ _ _ h, s.reg_written]
  · exact s.reg_written u a

theorem State.edgeNow_closed : (s.closed u).edgeNow = s.edgeNow := by rw [State.edgeNow, s.closed_clk, ← State.edgeNow]

end

section
variable (s : State) (u : Nat)

theorem fcCfg_not_evtReg (k : Nat) : evtReg (Reg.FC_CFG k) = false := by
  simp only [evtReg, Reg.FC_CFG, Reg.EVT_INT, Reg.EVT_CNT, Bool.or_eq_false_iff, beq_eq_false_iff_ne]
  omega

theorem State.armRecord_closed (i : Nat) : (s.closed u).armRecord i = (s.written u).armRecord i := by
  refine (s.closed_onlyLog u).armRecord (fun k => ?_) i
  have hreg : (s.closed u).reg (Reg.FC_CFG k) = (s.written u).reg (Reg.FC_CFG k) :=
    (s.reg_closed u (fcCfg_not_evtReg k)).trans (s.reg_written u _).symm
  rw [State.flag, State.getF, Reg.FC_CFG_EN, hreg]
  rfl

theorem State.closed_quiet (h : bit (s.desc (s.trgDesc u) 1) 9 = false) : s.closed u = s.written u := if_neg (Bool.not_eq_true _ ▸ h)

theorem State.closed_logs (h : bit (s.desc (s.trgDesc u) 1) 9 = true) : s.closed u
    = (s.written u).log .CAP_CLOSED u [BitVec.ofNat 64 (s.trgDesc u), BitVec.ofNat 64 (s.cap.rseq + 1)] := by
  rw [← s.written_rseq u]
  exact if_pos h

end

/-- A record logged on the hub with the words written back is logged on the hub before. -/
theorem Logged.of_written {s t : State} {u : Nat} {c : Cond} {k : Nat} {d2 d3 : W64} (h : Logged (s.written u) t c k d2 d3) : Logged s t c k d2 d3 :=
  h.of_same (s.written_evt u) (s.logSlot_written u)

section
variable {s : State} {u : Fin 8} (hst : s.trgState u = 5)
include hst

/-- A record closed without a re-arm. -/
theorem recordClose_ends (h : ¬ ((s.closed u).descNext (s.trgDesc u) ≠ 255 ∧ ((s.closed u).unit u).noRearm = false)) :
    exec (.recordClose u) s = .next ((s.closed u).setTrg u 0) :=
  (if_neg (not_not.mpr hst)).trans (if_neg h)

variable (h : (s.closed u).descNext (s.trgDesc u) ≠ 255 ∧ ((s.closed u).unit u).noRearm = false)
include h

theorem recordClose_refused {c : Cond} (harm : (s.closed u).armRecord ((s.closed u).descNext (s.trgDesc u)) = some c) :
    exec (.recordClose u) s = .next ((s.closed u).refuseRearm u ((s.closed u).descNext (s.trgDesc u)) c) := by
  refine (if_neg (not_not.mpr hst)).trans ((if_pos h).trans ?_)
  split
  case h_1 heq => rw [Option.some.inj (heq.symm.trans harm)]; rfl
  case h_2 heq => exact absurd (heq.symm.trans harm) (by simp)

theorem recordClose_rearms (harm : (s.closed u).armRecord ((s.closed u).descNext (s.trgDesc u)) = none) :
    exec (.recordClose u) s = .next (((s.closed u).setUnit u { (s.closed u).unit u with rearmAt := (s.closed u).edgeNow + 64 }).setTrg u 6) := by
  refine (if_neg (not_not.mpr hst)).trans ((if_pos h).trans ?_)
  split
  case h_1 heq => exact absurd (heq.symm.trans harm) (by simp)
  case h_2 heq => rfl

end

section
variable {s : State} {u : Fin 8}

/-- What the write-back leaves in the descriptor stands in every state with the descriptors of the closed record. -/
theorem closed_desc {t : State} (ht : t.cap.descs = (s.closed u).cap.descs) (hpre : (s.unit u).trig - (s.unit u).kept < 2 ^ 32) :
    t.descState (s.trgDesc u) = 3 ∧ t.desc (s.trgDesc u) 10 = BitVec.ofNat 64 (s.unit u).post := by
  obtain ⟨hstate, hpost, -⟩ := s.counted.writeBack_desc (s.trgDesc u) u.isLt hpre
  have hdescs : t.cap.descs = (s.written u).cap.descs := ht.trans (congrArg CapSt.descs (s.closed_cap u))
  exact ⟨(State.descState_congr hdescs _).trans hstate, (State.desc_congr hdescs _ _).trans hpost⟩

theorem descNext_closed (hpre : (s.unit u).trig - (s.unit u).kept < 2 ^ 32) : (s.closed u).descNext (s.trgDesc u) = s.descNext (s.trgDesc u) := by
  obtain ⟨-, -, hword⟩ := s.counted.writeBack_desc (s.trgDesc u) u.isLt hpre
  have hclosed : (s.closed u).desc (s.trgDesc u) 1 = s.desc (s.trgDesc u) 1 :=
    (State.desc_congr (congrArg CapSt.descs (s.closed_cap u)) _ _).trans hword
  rw [State.descNext, hclosed, ← State.descNext]

/-- CAP_CLOSED stands in every state with the event log of the closed record (R227). -/
theorem closed_logged {t : State} (ht : t.evt = (s.closed u).evt) (hbit : bit (s.desc (s.trgDesc u) 1) 9 = true) :
    Logged s t .CAP_CLOSED u (BitVec.ofNat 64 (s.trgDesc u)) (BitVec.ofNat 64 (s.cap.rseq + 1)) := by
  have hlog := State.logged_log (s.written u) .CAP_CLOSED u [BitVec.ofNat 64 (s.trgDesc u), BitVec.ofNat 64 (s.cap.rseq + 1)] (show 2 ≤ 6 by decide)
  rw [← s.closed_logs u hbit] at hlog
  exact hlog.of_written.of_evt ht

/-- CAP_CLOSED stands in the log also after the re-arm is refused. -/
theorem closed_logged_refused (next : Nat) (c : Cond) (hbit : bit (s.desc (s.trgDesc u) 1) 9 = true) :
    Logged s ((s.closed u).refuseRearm u next c) .CAP_CLOSED u (BitVec.ofNat 64 (s.trgDesc u)) (BitVec.ofNat 64 (s.cap.rseq + 1)) := by
  refine Logged.of_written (u := u) ?_
  exact State.logged_log_log (l := [_, _]) (l' := [_, _]) (Nat.le_refl 2) (Nat.le_refl 2)
    (((s.closed u).evt_setTrg u 0).trans (congrArg State.evt (s.closed_logs u hbit)))

/-- A record's close: the descriptor is CLOSED, and the unit waits to re-arm, is refused or is IDLE (R224, R227, R230). -/
theorem recordClose_closes (hst : s.trgState u = 5) (hpre : (s.unit u).trig - (s.unit u).kept < 2 ^ 32) :
    Gives (.recordClose u) s (fun t =>
      t.descState (s.trgDesc u) = 3 ∧ t.desc (s.trgDesc u) 10 = BitVec.ofNat 64 (s.unit u).post
      ∧ (s.descNext (s.trgDesc u) ≠ 255 → (s.unit u).noRearm = false →
        ((s.written u).armRecord (s.descNext (s.trgDesc u)) = none → t.trgState u = 6 ∧ (t.unit u).rearmAt = s.edgeNow + 64)
        ∧ ∀ c, (s.written u).armRecord (s.descNext (s.trgDesc u)) = some c → t.trgState u = 0
            ∧ (bit (s.desc (s.trgDesc u) 1) 9 = false →
                Logged s t .CAP_REARM_REFUSED u (BitVec.ofNat 64 (s.descNext (s.trgDesc u))) (BitVec.ofNat 64 c.code)))
      ∧ (s.descNext (s.trgDesc u) = 255 ∨ (s.unit u).noRearm = true → t.trgState u = 0)
      ∧ (bit (s.desc (s.trgDesc u) 1) 9 = true →
          Logged s t .CAP_CLOSED u (BitVec.ofNat 64 (s.trgDesc u)) (BitVec.ofNat 64 (s.cap.rseq + 1)))) := by
  have hnext := descNext_closed hpre
  have hunit := s.unit_closed u u
  have harmed := s.armRecord_closed u
  by_cases h : s.descNext (s.trgDesc u) ≠ 255 ∧ (s.unit u).noRearm = false
  case neg =>
    obtain ⟨hstate, hpost⟩ := closed_desc (t := (s.closed u).setTrg u 0) (congrArg CapSt.descs (State.cap_setTrg _ _ _)) hpre
    refine ⟨_, recordClose_ends hst (by rwa [hnext, hunit]), hstate, hpost, fun hn hno => absurd ⟨hn, hno⟩ h,
      fun _ => State.trgState_setTrg _ u 0 (by decide), closed_logged (State.evt_setTrg _ _ _)⟩
  case pos =>
    have hgo : (s.closed u).descNext (s.trgDesc u) ≠ 255 ∧ ((s.closed u).unit u).noRearm = false := by rwa [hnext, hunit]
    have hnot : ¬ (s.descNext (s.trgDesc u) = 255 ∨ (s.unit u).noRearm = true) := by
      rintro (hn | hno)
      · exact h.1 hn
      · exact Bool.false_ne_true (h.2.symm.trans hno)
    cases harm : (s.written u).armRecord (s.descNext (s.trgDesc u)) with
    | some c =>
      have hexec := recordClose_refused hst hgo (c := c) (by rw [hnext, harmed, harm])
      rw [hnext] at hexec
      obtain ⟨hstate, hpost⟩ := closed_desc (congrArg CapSt.descs ((s.closed u).cap_refuseRearm u (s.descNext (s.trgDesc u)) c)) hpre
      refine ⟨_, hexec, hstate, hpost, fun _ _ => ⟨nofun, fun c' hc' => ?_⟩, fun hend => absurd hend hnot, closed_logged_refused _ _⟩
      obtain rfl := Option.some.inj hc'
      refine ⟨State.trgState_refuseRearm _ _ _ _, fun hquiet => ?_⟩
      have hlog := (s.closed u).refuseRearm_logged u (s.descNext (s.trgDesc u)) c
      rw [s.closed_quiet u hquiet] at hlog ⊢
      exact hlog.of_written
    | none =>
      have hexec := recordClose_rearms hst hgo (by rw [hnext, harmed, harm])
      obtain ⟨hstate, hpost⟩ := closed_desc (t := ((s.closed u).setUnit u { (s.closed u).unit u with rearmAt := (s.closed u).edgeNow + 64 }).setTrg u 6)
        ((congrArg CapSt.descs (State.cap_setTrg _ _ _)).trans (State.descs_setUnit _ _ _)) hpre
      refine ⟨_, hexec, hstate, hpost, fun _ _ => ⟨fun _ => ⟨State.trgState_setTrg _ u 6 (by decide), ?_⟩, nofun⟩, fun hend => absurd hend hnot,
        closed_logged ((State.evt_setTrg _ _ _).trans (State.setUnit_evt _ _ _))⟩
      rw [State.unit_setTrg, State.unit_setUnit_self, s.edgeNow_closed]

/-! ### The re-arm (R224, R230) -/

theorem rearm_arms (hst : s.trgState u = 6) (hdue : (s.unit u).rearmAt ≤ s.edgeNow) (harm : s.armRecord (s.descNext (s.trgDesc u)) = none)
    (hnext : s.descNext (s.trgDesc u) ≠ 255) :
    Gives (.rearm u) s (fun t => t.trgState u = 1 ∧ t.trgDesc u = s.descNext (s.trgDesc u) ∧ t.descState (s.descNext (s.trgDesc u)) = 1
      ∧ (t.unit u).armAt = (s.unit u).rearmAt) := by
  have hexec : exec (.rearm u) s = .next (s.armAt u (s.descNext (s.trgDesc u)) (s.unit u).rearmAt) := by
    refine (if_neg (by omega)).trans ?_
    split
    case h_1 heq => exact absurd (heq.symm.trans harm) (by simp)
    case h_2 => rfl
  obtain ⟨hdesc, harmAt, -, hidle⟩ := s.armAt_spec u (s.unit u).rearmAt (i := s.descNext (s.trgDesc u)) (Nat.mod_lt _ (by decide))
  obtain ⟨hstate, hdescState⟩ := hidle hnext
  exact ⟨_, hexec, hstate, hdesc, hdescState, harmAt⟩

theorem rearm_refused (hst : s.trgState u = 6) (hdue : (s.unit u).rearmAt ≤ s.edgeNow) {c : Cond}
    (harm : s.armRecord (s.descNext (s.trgDesc u)) = some c) :
    Gives (.rearm u) s (fun t => t.trgState u = 0
      ∧ Logged s t .CAP_REARM_REFUSED u (BitVec.ofNat 64 (s.descNext (s.trgDesc u))) (BitVec.ofNat 64 c.code)) := by
  have hexec : exec (.rearm u) s = .next (s.refuseRearm u (s.descNext (s.trgDesc u)) c) := by
    refine (if_neg (by omega)).trans ?_
    split
    case h_1 heq => rw [Option.some.inj (heq.symm.trans harm)]
    case h_2 heq => exact absurd (heq.symm.trans harm) (by simp)
  exact ⟨_, hexec, s.trgState_refuseRearm u _ c, s.refuseRearm_logged u _ c⟩

end

/-! ### The miss log (R231) -/

section
variable {s : State} {port : Port} (hopen : s.portOpen port Reg.CAP_MISS_POP = true)
include hopen

theorem missPop_observer (hc : s.classOf port = 0) : Refuses (.missPop port) s .SYS_AUTH_DENIED 0 Reg.CAP_MISS_POP port :=
  .of_exec ((if_pos hopen).trans (if_pos (by omega)))

theorem missPop_pops (hc : 1 ≤ s.classOf port) :
    exec (.missPop port) s = .next { s with cap := { s.cap with misses := s.cap.misses.drop 1 } } :=
  (if_pos hopen).trans (if_neg (by omega))

end

/-- Settles O28: an arm and a disarm by their tests, the unit's course by the field that each event sets, the close by what the write-back
leaves and by the re-arm's test. -/
theorem captureUnits : Obligations.CaptureUnits := by
  unfold Obligations.CaptureUnits
  refine ⟨fun port u desc s => ⟨fun h => ⟨triggerArm_closed h, triggerDisarm_closed h⟩, fun hopen => ?host⟩,
    fun u s => ⟨prefillComplete_ready, recordPostComplete_ends, recordClose_closes, fun hst hdue => ⟨rearm_arms hst hdue, fun c => rearm_refused hst hdue⟩⟩,
    fun _ _ => missPop_observer, fun _ _ => missPop_pops⟩
  case host =>
    exact ⟨fun hc => ⟨triggerArm_observer hopen hc, triggerDisarm_observer hopen hc⟩, triggerArm_mirrored hopen, triggerArm_mode hopen,
      triggerArm_arms hopen, triggerDisarm_waiting hopen, triggerDisarm_open hopen⟩

end Sys2Proof.Machine
